-- ==== Sys2Proof/Word.lean ====
section
/-! DEFINITION. Machine words: the widths the spec names, and the plainest arithmetic on them (R14 to R16). -/
namespace Sys2Proof

/-- A byte (R14). -/
abbrev Byte := BitVec 8

/-- A 32-bit register, lane or data word (R20, R107). -/
abbrev Word := BitVec 32

/-- The 32 B word that patterns read, write and steer (R86, R90). -/
abbrev Word256 := BitVec 256

/-- A 64-bit pattern word, token mask or descriptor word (R94, R115). -/
abbrev Word64 := BitVec 64

end Sys2Proof
end

