-- ==== Sys2Proof/Machine/CellTypes.lean ====
section
/-! DEFINITION. The state of one array cell and of the row bus (spec/03_array_cells.md R84 to R93, R115 to R119). -/
namespace Sys2Proof.Machine

/-- The signals of one neighbour connection in one ac (R90). -/
structure Link where
  dv : Bool := false
  null : Bool := false
  data : Word256 := 0#256
  tv : Bool := false
  mask : Word64 := 0#64
  deriving DecidableEq, Repr

/-- A word with its null mark (R90). -/
structure QWord where
  data : Word256 := 0#256
  null : Bool := false
  deriving DecidableEq, Repr

/-- A pending token of an input's token line: the ac in which it is due, counted down, and its mask (R116). -/
structure PendTok where
  inAc : Nat
  mask : Word64
  deriving DecidableEq, Repr

/-- One loop level of the sequencer (R84, R109). -/
structure LoopLevel where
  active : Bool := false
  ls : Nat := 0
  idx : Nat := 0
  rem : Nat := 0
  deriving DecidableEq, Repr

/-- Sequencer states, with the codes of ARR_CELL_SEQ.STATE (R109). -/
inductive SeqState where
  | run | wait | phaseWait | halted | haltedFault
  deriving DecidableEq, Repr

/-- One input of the switch: its pass-through register, skew, token line and skid queue (R84, R91, R116, R117). -/
structure CellInput where
  pass : Link := {}
  skew : Nat := 0
  toks : List PendTok := []
  queue : List QWord := []
  deriving DecidableEq, Repr

/-- An effect on its way, with the latencies of R112: `inAc` ac remain until the end of the ac in which it lands. -/
inductive CellEffect where
  | bank (key : Nat) (w : Word256)
  | oreg (w : Word256)
  | vreg (n : Nat) (lanes : List Word)
  | accRow (acc row : Nat) (lanes : List Word)
  | accMat (acc : Nat) (vals : List (Nat × Word))
  | tkr (m : Word64)
  deriving DecidableEq, Repr

/-- The architectural state of one cell (R84). Maps list what differs from zero: `gens` holds BASE of generator g at
key 8g and STRIDE[l] at 8g + 1 + l; `acc` holds ACCa at key 512a + 32·row + column; `vregs` holds Vn at key 32n + lane;
`mem` holds the 32 B word w of physical bank b at key 512b + w, with its loaded or written bit in `valid`; `pat` holds
word p of casement k at key 1024k + p. -/
structure Cell where
  pc : Nat := 0
  seq : SeqState := .run
  remaining : Nat := 0
  loops : List (Nat × LoopLevel) := []
  gens : List (Nat × Int) := []
  acc : List (Nat × Word) := []
  stageA : Word256 := 0#256
  stageB : Word256 := 0#256
  scaCur : Word256 := 0#256
  scaPend : Word256 := 0#256
  scbCur : Word256 := 0#256
  scbPend : Word256 := 0#256
  kCount : Nat := 0
  vregs : List (Nat × Word) := []
  tkr : Word64 := 0#64
  oreg : Word256 := 0#256
  mem : List (Nat × Word256) := []
  valid : List (Nat × Bool) := []
  pat : List (Nat × Word64) := []
  len0 : Nat := 0
  len1 : Nat := 0
  inN : CellInput := {}
  inE : CellInput := {}
  inS : CellInput := {}
  inW : CellInput := {}
  effects : List (Nat × CellEffect) := []
  deriving DecidableEq, Repr

/-- The array fault kinds, with the codes of R119. -/
inductive ArrFault where
  | orphanToken | orphanData | queueFull | outConflict | bankConflict | address | phaseLate | sramUe | patternUe | noData
  deriving DecidableEq, Repr

/-- KIND codes (R119). -/
def ArrFault.code : ArrFault → Nat
  | .orphanToken => 1 | .orphanData => 2 | .queueFull => 3 | .outConflict => 4 | .bankConflict => 5
  | .address => 6 | .phaseLate => 7 | .sramUe => 8 | .patternUe => 9 | .noData => 10

/-- The read of a cell that an SRAM error strikes (R89): the pattern word, an operand, the present value d, or the row-bus access
number `k`, from 0, that reaches the cell in the ac. -/
inductive ErrPlace where
  | pattern | srca | srcb | present
  | rowBus (k : Nat)
  deriving DecidableEq, Repr

/-- An SRAM or pattern-memory error found in this cycle: the cell, the read, and whether it can be corrected (R89). -/
structure SramErr where
  cell : Nat
  place : ErrPlace
  correctable : Bool
  deriving DecidableEq, Repr

/-- A row-bus access in flight (R93): `inAc` ac until it reaches its cell; an outbound word then, `back` set, takes `backAc`
ac to return to the edge. `entry` is the index of its transfer-schedule entry and `word` the word within the entry. -/
structure RowBusAccess where
  inAc : Nat
  backAc : Nat
  cell : Nat
  bank : Nat
  addr : Nat
  write : Bool
  data : Word256 := 0#256
  back : Bool := false
  entry : Nat
  word : Nat
  deriving DecidableEq, Repr

/-- A word that an outbound engine has placed in, or is carrying to, its staging area (R165, R168). -/
structure StagedWord where
  entry : Nat
  word : Nat
  data : Word256
  deriving DecidableEq, Repr

end Sys2Proof.Machine
end

