-- ==== Sys2Proof/Machine/ConfigTypes.lean ====
section
/-! DEFINITION. A configuration as the module holds it once loaded (spec/05_configuration.md R150 to R156;
spec/06_tiling_shapes.md R191 to R198; spec/02_frame_time.md R57). -/
namespace Sys2Proof.Machine

/-- A phase-table entry (R57). -/
structure Phase where
  lenAc : Nat := 0
  prefOp : Nat := 0
  gated : Bool := false
  last : Bool := false
  budget : Nat := 0
  slackPct : Nat := 0
  deriving DecidableEq, Repr

/-- A transfer-schedule entry (R156). -/
structure Transfer where
  start : Nat := 0
  engine : Nat := 0
  side : Nat := 0
  lane : Nat := 0
  row : Nat := 0
  col : Nat := 0
  waddr : Nat := 0
  count : Nat := 0
  ref : Nat := 0
  slot : Nat := 0
  scope : Nat := 0
  deriving DecidableEq, Repr

/-- A pane-map entry (R154). -/
structure PaneEntry where
  shard : Nat := 0
  soff : Nat := 0
  row : Nat := 0
  col : Nat := 0
  pword : Nat := 0
  count : Nat := 0
  deriving DecidableEq, Repr

/-- A mask record (R198). -/
structure MaskRec where
  entry : Nat := 0
  dim : Nat := 0
  gen : Bool := false
  slot : Nat := 0
  first : Nat := 0
  unit : Nat := 0
  deriving DecidableEq, Repr

/-- A problem word (R192). -/
structure Problem where
  valid : Bool := false
  e : List Nat := []
  item : Nat := 0
  rpos : Nat := 0
  deriving DecidableEq, Repr

/-- The parts of a configuration that act in a frame. `planned` holds its planned extents, 0 for an inactive dimension (R197). -/
structure LoadedConfig where
  configId : Nat := 0
  modelId : Nat := 0
  epoch : Nat := 0
  layout : Nat := 0
  fold : Bool := false
  modeMask : Nat := 0
  drainAc : Nat := 0
  phases : List Phase := []
  transfers : List Transfer := []
  masks : List MaskRec := []
  pslots : Nat := 0
  spr : Nat := 0
  planned : List Nat := []
  deriving DecidableEq, Repr

/-- A failing check: its reason of R157, the byte offset of the item, and the cell and word where it is a pattern
word. -/
structure CheckFail where
  reason : Nat
  off : Nat
  cell : Nat := 0
  word : Nat := 0
  deriving DecidableEq, Repr

/-- A pattern block record (R152), with the byte offset of its header. -/
structure PatRec where
  off : Nat
  half : Nat
  colmask : Nat
  row : Nat
  start : Nat
  count : Nat
  resv : Nat
  deriving DecidableEq, Repr

end Sys2Proof.Machine
end

