-- ==== Sys2Proof/Machine/Arith.lean ====
section
/-! DEFINITION. Arithmetic and number formats (spec/04_number_formats.md, R125 to R149): exact dyadic values, the five
rounding modes, conversions, the MAC step, the vector operations and the total order. -/
namespace Sys2Proof.Machine

/-- The value of an encoding: a NaN, an infinity, or the exact number (-1)^neg × man × 2^exp (R126). -/
inductive FVal where
  | nan
  | inf (neg : Bool)
  | fin (neg : Bool) (man : Nat) (exp : Int)
  deriving DecidableEq, Repr

/-- The element formats of R125 that carry a sign, an exponent and a mantissa, and INT8. -/
inductive ElemFmt where
  | binary32 | bfloat16 | e4m3 | e5m2 | e2m3 | e3m2 | e2m1 | int8
  deriving DecidableEq, Repr

/-- Width of an encoding in bits. -/
def ElemFmt.width : ElemFmt → Nat
  | .binary32 => 32 | .bfloat16 => 16 | .e4m3 => 8 | .e5m2 => 8 | .e2m3 => 6 | .e3m2 => 6 | .e2m1 => 4 | .int8 => 8

/-- Mantissa width w of R126. -/
def ElemFmt.mbits : ElemFmt → Nat
  | .binary32 => 23 | .bfloat16 => 7 | .e4m3 => 3 | .e5m2 => 2 | .e2m3 => 3 | .e3m2 => 2 | .e2m1 => 1 | .int8 => 0

/-- Exponent bias b of R126. -/
def ElemFmt.bias : ElemFmt → Nat
  | .binary32 => 127 | .bfloat16 => 127 | .e4m3 => 7 | .e5m2 => 15 | .e2m3 => 1 | .e3m2 => 3 | .e2m1 => 1 | .int8 => 0

/-- Magnitude code of the largest finite value (R125). -/
def ElemFmt.maxCode : ElemFmt → Nat
  | .binary32 => 0x7F7FFFFF | .bfloat16 => 0x7F7F | .e4m3 => 0x7E | .e5m2 => 0x7B
  | .e2m3 => 0x1F | .e3m2 => 0x1F | .e2m1 => 0x7 | .int8 => 127

/-- The magnitude code of infinity, for the formats that have one. -/
def ElemFmt.infCode : ElemFmt → Option Nat
  | .binary32 => some 0x7F800000 | .bfloat16 => some 0x7F80 | .e5m2 => some 0x7C | _ => none

/-- Decodes an encoding of `f` (R125, R126). -/
def decodeElem (f : ElemFmt) (code : Nat) : FVal :=
  let c := code % 2 ^ f.width
  match f with
  | .int8 => if c < 128 then .fin false c 0 else .fin true (256 - c) 0
  | _ =>
    let neg := decide (2 ^ (f.width - 1) ≤ c)
    let mag := c % 2 ^ (f.width - 1)
    if f.maxCode < mag then
      (if f.infCode = some mag then .inf neg else .nan)
    else
      let e := mag / 2 ^ f.mbits
      let m := mag % 2 ^ f.mbits
      if e = 0 then .fin neg m (1 - (f.bias : Int) - f.mbits)
      else .fin neg (m + 2 ^ f.mbits) ((e : Int) - f.bias - f.mbits)

/-- An E8M0 scale: 2^(x - 127), NaN at 0xFF (R126). -/
def decodeE8m0 (x : Nat) : FVal :=
  if x % 256 = 255 then .nan else .fin false 1 ((x % 256 : Nat) - 127)

/-- A YS8 scale: unsigned, 5 exponent bits of bias 15, 3 mantissa bits, NaN at 0xFF only (R126, R136). -/
def decodeYs8 (x : Nat) : FVal :=
  let c := x % 256
  if c = 255 then .nan
  else if c / 8 = 0 then .fin false (c % 8) (1 - 15 - 3)
  else .fin false (c % 8 + 8) ((c / 8 : Nat) - 15 - 3)

/-- The rounding modes of R97 and R130. -/
inductive Rnd where
  | tiesEven | towardZero | down | up | tiesAway
  deriving DecidableEq, Repr

/-- RND codes 0 to 4; the reserved codes never reach here (R103) and read as mode 0. -/
def rndOfCode (n : Nat) : Rnd :=
  match n with
  | 1 => .towardZero | 2 => .down | 3 => .up | 4 => .tiesAway | _ => .tiesEven

/-- Whether rounding the magnitude `q` with remainder `r` of `2^sh` moves up one unit (R130). -/
def roundUp (mode : Rnd) (neg : Bool) (q r sh : Nat) : Bool :=
  if r = 0 then false
  else
    let half := 2 ^ (sh - 1)
    match mode with
    | .towardZero => false
    | .down => neg
    | .up => !neg
    | .tiesEven => decide (half < r) || (decide (r = half) && decide (q % 2 = 1))
    | .tiesAway => decide (half ≤ r)

/-- Rounds man × 2^exp to at most `p` significant bits and no bit below 2^emin, without a bound on the exponent. -/
def roundMan (p : Nat) (emin : Int) (mode : Rnd) (neg : Bool) (man : Nat) (exp : Int) : Nat × Int :=
  if man = 0 then (0, emin)
  else
    let e := max (exp + (Nat.log2 man + 1 : Nat) - p) emin
    if e ≤ exp then (man * 2 ^ (exp - e).toNat, e)
    else
      let sh := (e - exp).toNat
      let q := man / 2 ^ sh
      let r := man % 2 ^ sh
      (if roundUp mode neg q r sh then q + 1 else q, e)

/-- The code of ±magnitude. -/
def signCode (f : ElemFmt) (neg : Bool) (mag : Nat) : Nat :=
  if neg then mag + 2 ^ (f.width - 1) else mag

/-- The canonical NaN of a format, and what a NaN converts to in the formats without one (R127, R132). -/
def nanCode (f : ElemFmt) : Nat :=
  match f with
  | .binary32 => 0x7FC00000 | .bfloat16 => 0x7FC0 | .e4m3 => 0x7F | .e5m2 => 0x7E
  | .e2m3 => 0 | .e3m2 => 0 | .e2m1 => 0 | .int8 => 0

/-- What a value beyond the largest finite becomes (the Overflow column of R132). -/
def overflowCode (f : ElemFmt) (mode : Rnd) (neg : Bool) : Nat :=
  match f.infCode with
  | none => signCode f neg f.maxCode
  | some i =>
    match mode, neg with
    | .towardZero, _ => signCode f neg f.maxCode
    | .down, false => signCode f neg f.maxCode
    | .up, true => signCode f neg f.maxCode
    | _, _ => signCode f neg i

/-- Rounds an exact value to a floating-point format (R130, R132). -/
def encodeFloat (f : ElemFmt) (mode : Rnd) (v : FVal) : Nat :=
  match v with
  | .nan => nanCode f
  | .inf neg => signCode f neg (f.infCode.getD f.maxCode)
  | .fin neg man exp =>
    let emin : Int := 1 - (f.bias : Int) - f.mbits
    let (q, e) := roundMan (f.mbits + 1) emin mode neg man exp
    let (q, e) := if 2 ^ (f.mbits + 1) ≤ q then (q / 2, e + 1) else (q, e)
    let mag := if q < 2 ^ f.mbits then q else (e - emin + 1).toNat * 2 ^ f.mbits + (q - 2 ^ f.mbits)
    if f.maxCode < mag then overflowCode f mode neg else signCode f neg mag

/-- Rounds an exact value to INT8: to the integer grid by the mode, then saturated; NaN is 0 and −0 is 0 (R132). -/
def encodeInt8 (mode : Rnd) (v : FVal) : Nat :=
  match v with
  | .nan => 0
  | .inf neg => if neg then 128 else 127
  | .fin neg man exp =>
    let (q, e) := roundMan (Nat.log2 man + 2) 0 mode neg man exp
    let n := q * 2 ^ e.toNat
    if neg then (if 128 ≤ n then 128 else (256 - n) % 256) else min n 127

/-- Rounds an exact value to any element format (R132). -/
def encodeElem (f : ElemFmt) (mode : Rnd) (v : FVal) : Nat :=
  match f with
  | .int8 => encodeInt8 mode v
  | _ => encodeFloat f mode v

/-- The value of a binary32 lane. -/
def f32 (x : Word) : FVal := decodeElem .binary32 x.toNat

/-- An exact value rounded once to binary32. -/
def roundF32 (mode : Rnd) (v : FVal) : Word := BitVec.ofNat 32 (encodeFloat .binary32 mode v)

/-- The canonical binary32 NaN (R127). -/
def nan32 : Word := 0x7FC00000#32

/-- A lane with every NaN made canonical (R127). -/
def canonLane (x : Word) : Word := if f32 x = .nan then nan32 else x

/-- The exact product, with the sign rule of R131 and the special values of R140. -/
def mulVal (a b : FVal) : FVal :=
  match a, b with
  | .nan, _ => .nan
  | _, .nan => .nan
  | .inf s, .inf t => .inf (s != t)
  | .inf s, .fin t m _ => if m = 0 then .nan else .inf (s != t)
  | .fin s m _, .inf t => if m = 0 then .nan else .inf (s != t)
  | .fin s m e, .fin t n f => .fin (s != t) (m * n) (e + f)

/-- The integer (-1)^neg × man × 2^(exp - base), for base ≤ exp. -/
def scaledInt (neg : Bool) (man : Nat) (exp base : Int) : Int :=
  let x : Int := (man * 2 ^ (exp - base).toNat : Nat)
  if neg then -x else x

/-- The exact sum; a sum that is exactly zero takes the sign R131 gives it in the mode. -/
def addVal (mode : Rnd) (a b : FVal) : FVal :=
  match a, b with
  | .nan, _ => .nan
  | _, .nan => .nan
  | .inf s, .inf t => if s = t then .inf s else .nan
  | .inf s, .fin _ _ _ => .inf s
  | .fin _ _ _, .inf t => .inf t
  | .fin s m e, .fin t n f =>
    let base := min e f
    let z := scaledInt s m e base + scaledInt t n f base
    if z = 0 then
      (if m = 0 ∧ n = 0 ∧ s = t then .fin s 0 base else .fin (decide (mode = .down)) 0 base)
    else .fin (decide (z < 0)) z.natAbs base

/-- The negation of a value. -/
def negVal (a : FVal) : FVal :=
  match a with
  | .nan => .nan
  | .inf s => .inf (!s)
  | .fin s m e => .fin (!s) m e

/-- a + b in binary32, rounded once (R141). -/
def addF32 (mode : Rnd) (a b : Word) : Word := roundF32 mode (addVal mode (f32 a) (f32 b))

/-- a − b: VADD with the sign of b inverted (R141). -/
def subF32 (mode : Rnd) (a b : Word) : Word := roundF32 mode (addVal mode (f32 a) (negVal (f32 b)))

/-- a × b in binary32, rounded once (R141). -/
def mulF32 (mode : Rnd) (a b : Word) : Word := roundF32 mode (mulVal (f32 a) (f32 b))

/-- a × b + d with a single rounding (R141). -/
def fmaF32 (mode : Rnd) (a b d : Word) : Word :=
  roundF32 mode (addVal mode (mulVal (f32 a) (f32 b)) (f32 d))

/-- num ÷ den with 80 quotient bits and a last bit that says whether the remainder is not zero. -/
def quotient (num den : Nat) : Nat :=
  2 * (num * 2 ^ 80 / den) + (if num * 2 ^ 80 % den = 0 then 0 else 1)

/-- 1 ÷ a, correctly rounded (R142). -/
def rcpF32 (mode : Rnd) (a : Word) : Word :=
  match f32 a with
  | .nan => nan32
  | .inf s => BitVec.ofNat 32 (signCode .binary32 s 0)
  | .fin s m e =>
    if m = 0 then BitVec.ofNat 32 (signCode .binary32 s 0x7F800000)
    else roundF32 mode (.fin s (quotient 1 m) (-e - 81))

/-- 1 ÷ √a, correctly rounded (R142). -/
def rsqF32 (mode : Rnd) (a : Word) : Word :=
  match f32 a with
  | .nan => nan32
  | .inf s => if s then nan32 else 0#32
  | .fin s m e =>
    if m = 0 then BitVec.ofNat 32 (signCode .binary32 s 0x7F800000)
    else if s then nan32
    else
      -- a = m' × 2^(2k); 1/√a = √(2^160 / m') × 2^(-80-k)
      let m' := if e % 2 = 0 then m else 2 * m
      let k := (if e % 2 = 0 then e else e - 1) / 2
      let n := 2 ^ 160 / m'
      let r := Nat.sqrt n
      let exact := decide (r * r * m' = 2 ^ 160)
      roundF32 mode (.fin false (2 * r + (if exact then 0 else 1)) (-80 - k - 1))

/-- The largest q below 2^24 with q^64 ≤ 2^(23·64 + i), bit by bit: 2^(i/64) × 2^23 rounded down. -/
def expTabFloor (i : Nat) : Nat :=
  (List.range 23).foldl
    (fun q b => if (q + 2 ^ (22 - b)) ^ 64 ≤ 2 ^ (23 * 64 + i) then q + 2 ^ (22 - b) else q) (2 ^ 23)

/-- 2^(i/64) × 2^23 rounded to the nearest integer (no tie can arise: the value is irrational but for i = 0). -/
def expTabSig (i : Nat) : Nat :=
  let q := expTabFloor i
  if (2 * q + 1) ^ 64 ≤ 2 ^ (24 * 64 + i) then q + 1 else q

/-- The table tab[i] of R143. -/
def expTab (i : Nat) : Word := BitVec.ofNat 32 (0x3F800000 + (expTabSig i - 2 ^ 23))

/-- e^a by the defined steps of R143. -/
def expF32 (mode : Rnd) (a : Word) : Word :=
  match f32 a with
  | .nan => nan32
  | .inf false => 0x7F800000#32
  | .inf true => 0#32
  | .fin _ _ _ =>
    let t := mulF32 .tiesEven a 0x3FB8AA3B#32
    match f32 t with
    | .nan => nan32
    | .inf false => BitVec.ofNat 32 (overflowCode .binary32 mode false)
    | .inf true => if mode = .up then 1#32 else 0#32
    | .fin s m e =>
      -- t × 64 × 2^200 as an integer, so that floors are exact
      let ti : Int := scaledInt s m (e + 206) 0
      let one : Int := 2 ^ 206
      if 128 * one ≤ ti then BitVec.ofNat 32 (overflowCode .binary32 mode false)
      else if ti < -150 * one then (if mode = .up then 1#32 else 0#32)
      else
        let n := ti / one
        let f := ti % one
        let i := (f / 2 ^ 200).toNat
        let r : FVal := .fin false (f % 2 ^ 200).toNat (-206)
        let u := roundF32 .tiesEven (mulVal (f32 0x3D635847#32) r)
        let u := addF32 .tiesEven 0x3E75FDF0#32 u
        let u := roundF32 .tiesEven (mulVal (f32 u) r)
        let u := addF32 .tiesEven 0x3F317218#32 u
        let u := roundF32 .tiesEven (mulVal (f32 u) r)
        let u := addF32 .tiesEven 0x3F800000#32 u
        let mm := mulF32 .tiesEven (expTab i) u
        match f32 mm with
        | .fin s' m' e' => roundF32 mode (.fin s' m' (e' + n))
        | v => roundF32 mode v

/-- The comparison key of R147. -/
def orderKey (x : Word) : Int :=
  let x := if f32 x = .nan then 0xFF800000#32 else x
  let x := if x = 0x80000000#32 then 0#32 else x
  if 2 ^ 31 ≤ x.toNat then -((x.toNat - 2 ^ 31 : Nat) : Int) else (x.toNat : Int)

/-- VMAX of one lane: operand A on equal keys; a NaN comes back canonical (R148). -/
def maxF32 (a b : Word) : Word := canonLane (if orderKey b ≤ orderKey a then a else b)

/-- VMIN of one lane (R148). -/
def minF32 (a b : Word) : Word := canonLane (if orderKey a ≤ orderKey b then a else b)

/-- A lane counts as zero when it is +0 or −0; a NaN does not (R149). -/
def laneZero (x : Word) : Bool := decide (x.toNat % 2 ^ 31 = 0)

/-- VSEL of one lane: b where a is not zero, otherwise d; a selected NaN is canonical (R107). -/
def selF32 (a b d : Word) : Word := canonLane (if laneZero a then d else b)

/-- One level of the binary tree of R144: adjacent pairs added. -/
def pairSums (mode : Rnd) : List Word → List Word
  | a :: b :: l => addF32 mode a b :: pairSums mode l
  | l => l

/-- VREDS: the sum of 32 lanes in the fixed tree (R144). -/
def treeSum (mode : Rnd) (l : List Word) : Word :=
  (pairSums mode (pairSums mode (pairSums mode (pairSums mode (pairSums mode l))))).headD 0#32

/-- The lane of greatest key, the lowest index on a tie: (index, lane) (R148). -/
def greatestLane : List Word → Nat → (Nat × Word) → Nat × Word
  | [], _, best => best
  | x :: l, i, best => greatestLane l (i + 1) (if orderKey best.2 < orderKey x then (i, x) else best)

/-- The binary32 integer n, exactly. -/
def natF32 (n : Nat) : Word := roundF32 .tiesEven (.fin false n 0)

/-- The MAC step of one accumulator element (R139, R140): the exact inner sum, scaled, added and rounded once. The
inner sum of zero products keeps R131's sign through the exact expression acc + p × s. -/
def macElem (mode : Rnd) (acc : Word) (pairs : List (FVal × FVal)) (sa sb : FVal) : Word :=
  let p := pairs.foldl (fun x ab => match x with
    | none => some (mulVal ab.1 ab.2)
    | some v => some (addVal mode v (mulVal ab.1 ab.2))) none
  let s := mulVal sa sb
  roundF32 mode (addVal mode (f32 acc) (mulVal (p.getD (.fin false 0 0)) s))

end Sys2Proof.Machine
end

