-- ==== Sys2Proof/Machine/Routing.lean ====
section
/-! DEFINITION. Expert routing (spec/07_expert_routing.md R216 to R223, R230): ranking, gate weights, the assignment of
places, the combine and the counts. -/
namespace Sys2Proof.Machine

/-- The parameters of a routing layer that the stage uses (R209). -/
structure RouteLayer where
  experts : Nat := 1
  k : Nat := 1
  d : Nat := 0
  c : Nat := 1
  halves : Bool := false
  softmax : Bool := true
  deriving DecidableEq, Repr

/-- A token: the request position, the item and the index along TOKDIM that name it, its scores, one per expert, the words of the row that
its experts are sent, and its residual row, lane by lane (R213, R216, R223). -/
structure RouteToken where
  rpos : Nat := 0
  item : Nat := 0
  index : Nat := 0
  scores : List Word := []
  row : List Word256 := []
  res : List Word := []
  deriving DecidableEq, Repr

/-- Whether expert a ranks before expert b: the higher key, the lower index among equal keys (R216). -/
def ranksBefore (scores : List Word) (a b : Nat) : Bool :=
  let ka := orderKey (scores.getD a 0#32)
  let kb := orderKey (scores.getD b 0#32)
  decide (kb < ka) || (decide (ka = kb) && decide (a < b))

/-- Inserts an expert into a ranking. -/
def insertRank (scores : List Word) (e : Nat) : List Nat → List Nat
  | [] => [e]
  | x :: l => if ranksBefore scores e x then e :: x :: l else x :: insertRank scores e l

/-- The E experts from the highest rank down (R216). -/
def ranking (l : RouteLayer) (t : RouteToken) : List Nat :=
  (List.range l.experts).foldl (fun r e => insertRank t.scores e r) []

def primaryChoices (l : RouteLayer) (t : RouteToken) : List Nat := (ranking l t).take l.k
def fallbackChoices (l : RouteLayer) (t : RouteToken) : List Nat := ((ranking l t).drop l.k).take l.d

/-- NaN scores of a token (R217). -/
def nanCount (l : RouteLayer) (t : RouteToken) : Nat :=
  (t.scores.take l.experts).countP (fun x => decide (f32 x = .nan))

/-- A NaN score read as −∞ (R218). -/
def scoreOrNegInf (x : Word) : Word := if f32 x = .nan then 0xFF800000#32 else x

/-- Gate weights of the primary choices, from their scores (R218). -/
def gateWeights (softmax : Bool) (scores : List Word) : List Word :=
  let p := scores.map scoreOrNegInf
  let m := p.headD 0xFF800000#32
  if softmax then
    if m = 0xFF800000#32 then p.map (fun _ => 0#32)
    else if m = 0x7F800000#32 then
      let n := p.countP (fun x => decide (x = 0x7F800000#32))
      p.map (fun x => if x = 0x7F800000#32 then rcpF32 .tiesEven (natF32 n) else 0#32)
    else
      let u := p.map (fun x => expF32 .tiesEven (subF32 .tiesEven x m))
      let s := (u.drop 1).foldl (fun s x => addF32 .tiesEven s x) (u.headD 0#32)
      let r := rcpF32 .tiesEven s
      u.map (fun x => mulF32 .tiesEven x r)
  else
    p.map (fun x => rcpF32 .tiesEven (addF32 .tiesEven 0x3F800000#32
      (expF32 .tiesEven (roundF32 .tiesEven (negVal (f32 x))))))

/-- A served choice: token (its index in the half), choice, expert and place (R220). -/
structure Placement where
  token : Nat
  choice : Nat
  expert : Nat
  place : Nat
  fallback : Bool
  deriving DecidableEq, Repr

/-- The state of a half's assignment: placements, overflows, drops (token, expert). -/
structure Assign where
  placed : List Placement := []
  overflow : List Nat := []
  dropped : List (Nat × Nat) := []
  deriving DecidableEq, Repr

/-- Places expert e has filled: used[e] of R220. -/
def usedPlaces (a : Assign) (e : Nat) : Nat := a.placed.countP (fun p => decide (p.expert = e))

/-- The walk down the fallback candidates: each unspent one is spent when tried (R220). -/
def tryFallback (c t j : Nat) : List Nat → List Nat → Assign → Bool × List Nat × Assign
  | [], spent, a => (false, spent, a)
  | f :: l, spent, a =>
    if spent.contains f then tryFallback c t j l spent a
    else if usedPlaces a f < c then
      (true, f :: spent, { a with placed := a.placed ++ [⟨t, j, f, usedPlaces a f, true⟩] })
    else tryFallback c t j l (f :: spent) { a with overflow := a.overflow ++ [f] }

/-- One primary choice of a token (R220). -/
def assignChoice (c t : Nat) (fallback : List Nat) (st : List Nat × Assign) (jp : Nat × Nat) : List Nat × Assign :=
  let (spent, a) := st
  let (j, p) := jp
  if usedPlaces a p < c then (spent, { a with placed := a.placed ++ [⟨t, j, p, usedPlaces a p, false⟩] })
  else
    match tryFallback c t j fallback spent { a with overflow := a.overflow ++ [p] } with
    | (true, spent, a) => (spent, a)
    | (false, spent, a) => (spent, { a with dropped := a.dropped ++ [(t, p)] })

/-- All choices of one token (R220). -/
def assignToken (l : RouteLayer) (a : Assign) (it : Nat × RouteToken) : Assign :=
  let prim := primaryChoices l it.2
  (((List.range prim.length).zip prim).foldl (assignChoice l.c it.1 (fallbackChoices l it.2)) ([], a)).2

/-- The assignment of one half, its tokens in token order (R214, R220). -/
def assignHalf (l : RouteLayer) (ts : List RouteToken) : Assign :=
  ((List.range ts.length).zip ts).foldl (assignToken l) {}

/-- The row of place `n` of expert `e`: that of the token whose choice fills it, or `width` null words (R225). -/
def placeRow (width : Nat) (ts : List RouteToken) (a : Assign) (e n : Nat) : List QWord :=
  match a.placed.find? (fun p => p.expert == e && p.place == n) with
  | some p => (ts.getD p.token {}).row.map (fun w => { data := w })
  | none => List.replicate width { data := 0#256, null := true }

/-- The rows that a half dispatches, in the order of the experts, each expert's C places in place order (R225, R226, R363). -/
def dispatchRows (l : RouteLayer) (width : Nat) (order : List Nat) (ts : List RouteToken) (a : Assign) : List (List QWord) :=
  order.flatMap (fun e => (List.range l.c).map (placeRow width ts a e))

/-- The combine of one token: acc over its choices in rank order, then the residual (R223). `parts` holds the gate
weight and the served expert's output of each choice, none where it was dropped. -/
def combineLane (res : Word) (parts : List (Option (Word × Word))) : Word :=
  addF32 .tiesEven res (parts.foldl (fun acc p => match p with
    | none => acc
    | some (g, y) => fmaF32 .tiesEven g y acc) 0#32)

/-- What serves each choice of token `t`: its gate weight and the output row of its place, found by the place's position in the order of the
dispatch; none where the choice was dropped (R219, R223, R226). -/
def tokenParts (l : RouteLayer) (order : List Nat) (outs : List (List Word)) (a : Assign) (gates : List Word) (t : Nat) :
    List (Option (Word × List Word)) :=
  (List.range l.k).map (fun j => (a.placed.find? (fun p => p.token == t && p.choice == j)).map (fun p =>
    (gates.getD j 0#32, outs.getD (l.c * order.idxOf p.expert + p.place) [])))

/-- The output row of one token (R223). -/
def combineToken (res : List Word) (parts : List (Option (Word × List Word))) : List Word :=
  (List.range res.length).map (fun i => combineLane (res.getD i 0#32) (parts.map (fun p => p.map (fun gy => (gy.1, gy.2.getD i 0#32)))))

end Sys2Proof.Machine
end

