-- ==== Sys2Proof/Machine/TimeTypes.lean ====
section
/-! DEFINITION. Causes, stamps, stretch requests and grants, and the frame engine's own state
(spec/00_scope.md R9; spec/02_frame_time.md R54 to R75; spec/05_configuration.md R165 to R176). -/
namespace Sys2Proof.Machine

/-- The twelve cause codes (R9). -/
inductive Cause where
  | ok | extent | capacity | classCause | power | link | memberLoss | reset | nearLoss | schedule | security | drain
  deriving DecidableEq, Repr

/-- A stamp (R73), less its reserved bits. -/
structure Stamp where
  tick : Nat := 0
  cif : Nat := 0
  src : Nat := 0
  held : Bool := false
  seq : Nat := 0
  deriving DecidableEq, Repr

/-- A stretch request (R67); `by_` is the stamp of the message that brought it. -/
structure StretchReq where
  tick : Nat
  amountUs : Nat
  cause : Cause
  ord : Nat
  by_ : Option Stamp := none
  deriving DecidableEq, Repr

/-- A stretch grant (R68): the tick, its new device time, and the cause and requester of the largest request. -/
structure StretchGrant where
  tick : Nat
  dt : Nat
  amountUs : Nat
  cause : Cause
  ord : Nat
  deriving DecidableEq, Repr

/-- What the array is doing in the present frame. The 64 ac of a flip or an abort are one step with its verdict. -/
inductive FramePhase where
  | notRunning | running | gateHold | drainHold | tickWait
  deriving DecidableEq, Repr

end Sys2Proof.Machine
end

