-- ==== Sys2Proof/Machine/FrameTypes.lean ====
section
/-! DEFINITION. The frame engine and the configuration unit (spec/02_frame_time.md, spec/05_configuration.md,
spec/06_tiling_shapes.md R193). -/
namespace Sys2Proof.Machine

/-- What a pane holds (R155): the model, epoch and layout its content belongs to, the pane-map entries written so far
for the present load, whether that load is complete, and the number of the column map it was loaded through. -/
structure PaneContent where
  model : Nat := 0
  epoch : Nat := 0
  layout : Nat := 0
  complete : Bool := false
  mapGen : Nat := 0
  deriving DecidableEq, Repr

/-- What a casement holds: the configuration, whether its load completed, and the number of the column map it was
loaded through. -/
structure CasementContent where
  cfg : LoadedConfig := {}
  complete : Bool := false
  mapGen : Nat := 0
  deriving DecidableEq, Repr

/-- What the planner names for the next frame (R162). -/
structure Naming where
  model : Nat
  epoch : Nat
  configId : Nat
  deriving DecidableEq, Repr

/-- A sample of the drain check whose verdict is to come: the condition bits of R165, whether the idle side was ready, and
the cycle-in-frame of the sample (R166). -/
structure DrainSample where
  conds : Nat
  ready : Bool
  at_ : Nat
  deriving DecidableEq, Repr

/-- The counts a request's routing has gathered in the present frame (R228). -/
structure RouteCounts where
  rpos : Nat
  drops : Nat
  diverts : Nat
  nans : Nat
  deriving DecidableEq, Repr

/-- What the routing stage has decided for one half of a layer in the present frame: the layer, its experts in the order of the dispatch, the
routed tokens, their gate weights, the places and dropped choices, the rows dispatched; and, once the experts' outputs have come back, the
tokens' output rows (R218 to R226, R363). `combined` says that they have. -/
structure RouteResult where
  layer : Nat
  half : Nat
  par : RouteLayer
  order : List Nat
  tokens : List RouteToken
  gates : List (List Word)
  assign : Assign
  rows : List (List QWord)
  outs : List (List Word) := []
  combined : Bool := false
  deriving DecidableEq, Repr

/-- What the planner keeps of a bound request beside the problem table: its client and stream, and its areas (R389). -/
structure SlotAreas where
  client : Nat
  stream : Nat
  inAddr : Nat
  inLen : Nat
  outAddr : Nat
  outLen : Nat
  deriving DecidableEq, Repr

/-- The frame engine. `casements` and `panes` hold A at key 0 and B at key 1. `hasLive`: the present frame runs a configuration; `nextRuns`:
the next one does, its flip having been made. `liveReqs` and `idleReqs` hold, by request position, the ASEQs of the two problem tables, and `liveAreas` and `idleAreas` what is kept beside them;
`sampled` says that the drain check has taken its first sample; `acRest` is the part of a nanosecond, in millionths of a microsecond times
MHz, that array cycles have run beyond device time. `mapGen` numbers the column map in force. `outDone` counts the outbound words that have
come back to the edge. `routeCounts` are kept by request position. `tallyRun` holds what the frame has added to each count of its model's
tally, by byte offset (R231). `emptyRun` counts the empty frames before this one. `ueFirst` holds, by row and physical column, the frame of a cell's first
uncorrectable error, and `retireDue` the physical columns whose retirement the stewards have to begin (R121). `idleHalted`: the cells that
State does not list have fetched in this frame, and halted (R109, R153). `phaseAt` holds the device time at which each phase began. `paneLost` holds the words, by cell and physical word, that the
pane load in progress has lost to a BANK_CONFLICT (R87). `namedAt` is the frame in which the naming in force was made. `replays` counts the
replays so far of the frame in progress, or of the aborted one that waits for its replay; `prevAborted` says that the frame before the last
tick, or the overrun at it, was aborted (R175, R183). `modeHeld`: the tick master of a span holds a mode change, asked for here, whose announcement
waits until its own accepted requests have completed (R183). `waiting`: the decision on the aborted frame before the present one is awaited, and the replay
can run in the present one (R370). -/
structure FrameSt where
  sched : Nat := 0
  state : FramePhase := .notRunning
  hasLive : Bool := false
  nextRuns : Bool := false
  holdAc : Nat := 0
  verdictSeen : Bool := false
  samples : List DrainSample := []
  casements : List (Nat × CasementContent) := []
  panes : List (Nat × PaneContent) := []
  named : Option Naming := none
  mapGen : Nat := 0
  liveProblems : List Problem := []
  idleProblems : List Problem := []
  liveReqs : List Nat := []
  idleReqs : List Nat := []
  liveAreas : List SlotAreas := []
  idleAreas : List SlotAreas := []
  idleSealed : Bool := false
  sampled : Bool := false
  acRest : Nat := 0
  ingressClosed : Bool := false
  rowBus : List RowBusAccess := []
  staged : List StagedWord := []
  outDone : Nat := 0
  routeCounts : List RouteCounts := []
  routes : List RouteResult := []
  tallyRun : List (Nat × Nat) := []
  replayPending : Bool := false
  firstAbort : Option (Cause × Stamp) := none
  phaseStarts : List (Nat × Nat × Bool) := []
  phaseAt : List (Nat × Nat) := []
  gateHeld : Bool := false
  stretchSent : List Cause := []
  emptyRun : Nat := 0
  modeAskedAt : Nat := 0
  lastAborted : Bool := false
  ueFirst : List (Nat × Nat) := []
  idleHalted : Bool := false
  paneLost : List (Nat × Nat) := []
  namedAt : Nat := 0
  replays : Nat := 0
  prevAborted : Bool := false
  retireDue : List Nat := []
  modeHeld : Bool := false
  waiting : Bool := false
  deriving DecidableEq, Repr

end Sys2Proof.Machine
end

