-- ==== Sys2Proof/Machine/BootTypes.lean ====
section
/-! DEFINITION. The mode store and who asks (spec/05_configuration.md R180 to R182; spec/14_boot_lifecycle_security.md R457,
R476). -/
namespace Sys2Proof.Machine

/-- A record of the base configuration or of an overlay (R457): its TYPE and its body. -/
structure ModeRecord where
  type : Nat
  body : List Byte
  deriving DecidableEq, Repr

/-- The mode store: the base configuration and the overlays by mode (R180). -/
structure ModeStore where
  base : List ModeRecord := []
  overlays : List (Nat × List ModeRecord) := []
  deriving DecidableEq, Repr

/-- Who performs an action (R43, R476): the host through BAR0, the management interface inside or outside a secured session, a
steward of another module over the board, an own steward. -/
inductive Requester where
  | host | session | mgmt | board | steward (n : Nat)
  deriving DecidableEq, Repr

end Sys2Proof.Machine
end

