-- ==== Sys2Proof/Machine/LinkTypes.lean ====
section
/-! DEFINITION. A link port's state, flits, and what arrives in a slot (spec/10_fabric_links.md R310 to R347). -/
namespace Sys2Proof.Machine

/-- A flit without its NAK, ACK and CRC, which are set as it leaves (R319). `type` as R320 numbers them. -/
structure Flit where
  type : Nat := 0
  last : Bool := false
  len : Nat := 0
  seq : Nat := 0
  chan : Nat := 0
  off : Nat := 0
  payload : List Byte := []
  deriving DecidableEq, Repr

/-- What a receiver finds in one of the five flit slots of a codeword pair: its lane, the slot, the flit's 256 bytes, and, with the first
slot of a pair, the pair header (R315) and how many symbols of each of the two codewords arrived wrong (R317, R345). -/
structure FlitSlot where
  lane : Nat
  slot : Nat
  header : Nat
  errs : List Nat
  bytes : List Byte
  deriving DecidableEq, Repr

/-- A slot that has arrived and waits for its turn in the deskewed order (R316); `bad` that its pair is invalid (R317). -/
structure RxSlot where
  round : Nat
  lane : Nat
  slot : Nat
  bad : Bool
  bytes : List Byte
  deriving DecidableEq, Repr

/-- A receive lane: the round count and validity of its present pair, its pairs in a row with an uncorrectable codeword, and the times of
those within the last 1 ms (R334). -/
structure LaneRx where
  lane : Nat
  round : Nat := 0
  bad : Bool := false
  run : Nat := 0
  times : List Nat := []
  deriving DecidableEq, Repr

/-- Transmitter states (R325): `replay` names the next flit to send again. `width` waits for the next round to change to a lane map, and
will replay from `seq`; its cause and lane; `notice`: this side's driver dropped the lane, and one round is to carry the notice first (R334). -/
inductive TxState where
  | normal
  | replay (seq : Nat)
  | width (map seq cause lane : Nat) (notice : Bool)
  deriving DecidableEq, Repr

/-- A lane's pattern generator and checker in TEST (R344): the pattern, the generator's register, the checker's, the bits that it has
taken in, and those in a row without an error. -/
structure LaneTest where
  pattern : Nat
  gen : Nat
  ref : Nat := 0
  seen : Nat := 0
  run : Nat := 0
  deriving DecidableEq, Repr

/-- A board access of 4 B words: a read of some words, or a write. -/
inductive BoardOp where
  | read (words : Nat)
  | write (data : List Nat)
  deriving DecidableEq, Repr

/-- A board request sent over a mesh port and not answered yet (R341). -/
structure BoardReq where
  tag : Nat
  requester : Requester
  sentAt : Nat
  write : Bool
  deriving DecidableEq, Repr

/-- One port: transmitter (replay buffer oldest first, N, state, replays of its oldest flit without ACK progress), receiver (E,
DISCARD, NAK to send), a lane-map change in either direction (the notice that the receiver sends, the confirmation that the
transmitter owes, the lanes dropped with their causes, the map that the peer's transmitter has announced), queues by class, BOARD flits' wait,
synchronisation exchange with the device time of the last one, the round count, times of the events that its timers run from, whether the
port has been DOWN since it was last UP, and whether it has ever been UP, board requests outstanding; the receive lanes, the slots that wait to be deskewed, the place of the next (round, lane,
slot); of the training the good receive lanes, those whose equaliser has converged, the last TRAIN payload received; the test patterns. -/
structure LinkSt where
  buf : List Flit := []
  txNext : Nat := 0
  tx : TxState := .normal
  replays : Nat := 0
  progressAt : Nat := 0
  rxExpect : Nat := 0
  discard : Bool := false
  nakDue : Bool := false
  nakAt : Nat := 0
  goodAt : Nat := 0
  notice : Option Nat := none
  confirm : Option Nat := none
  drops : List (Nat × Nat) := []
  rxDrop : Option Nat := none
  ctrlQ : List (List Byte) := []
  dataQ : List Flit := []
  boardQ : List (List Byte) := []
  boardWait : Nat := 0
  syncDue : Bool := false
  syncOpen : Bool := false
  syncSpan : Bool := false
  syncAt : Option Nat := none
  echoTx : Nat := 0
  echoRx : Nat := 0
  round : Nat := 0
  leftAt : Nat := 0
  trainAt : Nat := 0
  alignAt : Nat := 0
  wasDown : Bool := false
  everUp : Bool := false
  nextTag : Nat := 0
  reqs : List BoardReq := []
  lanes : List LaneRx := []
  rxq : List RxSlot := []
  rxAt : Option (Nat × Nat × Nat) := none
  rxGood : Nat := 0
  converged : Nat := 0
  train : Option (List Byte) := none
  tests : List (Nat × LaneTest) := []
  deriving DecidableEq, Repr

/-- What a lane's training measures (R329): the time until its equaliser converged, if it did, the codewords then decoded and how many of
them were uncorrectable, and when the alignment pattern of one round arrived, in ns; of the codewords how many were corrected, the symbols
corrected, and the most in one codeword (R345). -/
structure LaneTrain where
  convNs : Option Nat
  words : Nat
  bad : Nat
  arriveNs : Nat
  corr : Nat := 0
  syms : Nat := 0
  maxSym : Nat := 0
  deriving DecidableEq, Repr

/-- What training measures: its lanes, from lane 0 up, and the round-trip time of the echoed TRAIN exchange (R329, R330). -/
structure TrainResult where
  lanes : List LaneTrain
  rttNs : Nat
  deriving DecidableEq, Repr

end Sys2Proof.Machine
end

