-- ==== Sys2Proof/Machine/Bytes.lean ====
section
/-! DEFINITION. Bytes: little-endian reads and writes of records (R16), bit fields, and the CRC-32 of IEEE 802.3. -/
namespace Sys2Proof.Machine

/-- Bits [hi:lo] of a number. -/
def bitsOf (x hi lo : Nat) : Nat := x / 2 ^ lo % 2 ^ (hi + 1 - lo)

/-- Bit n of a number. -/
def bitOf (x n : Nat) : Bool := decide (x / 2 ^ n % 2 = 1)

/-- The n-byte little-endian number at address `a`, `rd` reading one byte (R16). -/
def leRead (rd : Nat → Nat) (a : Nat) : Nat → Nat
  | 0 => 0
  | n + 1 => rd a % 256 + 256 * leRead rd (a + 1) n

/-- The n bytes of a number, least significant first. -/
def leBytes (x : Nat) : Nat → List Byte
  | 0 => []
  | n + 1 => BitVec.ofNat 8 x :: leBytes (x / 256) n

/-- The bytes at `a` to `a + n - 1`. -/
def bytesAt (rd : Nat → Nat) (a n : Nat) : List Nat := (List.range n).map (fun i => rd (a + i) % 256)

/-- A list of bytes as a reader: bytes beyond its end read 0. -/
def listReader (l : List Byte) (a : Nat) : Nat := (l.getD a 0#8).toNat

/-- One byte through the reflected CRC-32 of IEEE 802.3. -/
def crcByte (crc b : Nat) : Nat :=
  (List.range 8).foldl
    (fun c _ => if c % 2 = 1 then Nat.xor (c / 2) 0xEDB88320 else c / 2) (Nat.xor crc (b % 256))

/-- CRC-32 of a list of bytes. -/
def crc32 (l : List Nat) : Nat := Nat.xor (l.foldl crcByte 0xFFFFFFFF) 0xFFFFFFFF

/-- Saturating addition at 2^w - 1, as the module's counters count. -/
def satAdd (w x n : Nat) : Nat := min (x + n) (2 ^ w - 1)

/-- Rounds up to whole units. -/
def ceilDiv (a b : Nat) : Nat := (a + b - 1) / b

end Sys2Proof.Machine
end

