-- ==== Sys2Proof/Machine/MgmtTypes.lean ====
section
/-! DEFINITION. What arrives over the management interface: mailbox requests (R492) and SPDM requests (R482). -/
namespace Sys2Proof.Machine

/-- A mailbox request: the SPDM session that carries it, if one does; its PCI vendor ID and the rest of its body (R492); and `later`, that it is
not served at once but waits in the mailbox (R494). -/
structure MboxReq where
  session : Option Nat := none
  vendor : Nat := 0x4851
  body : List Byte := []
  later : Bool := false
  deriving DecidableEq, Repr

/-- The fields of a request's body (R492). -/
def MboxReq.command (q : MboxReq) : Nat := leRead (listReader q.body) 0 1
def MboxReq.seq (q : MboxReq) : Nat := leRead (listReader q.body) 1 1
def MboxReq.length (q : MboxReq) : Nat := leRead (listReader q.body) 2 2
def MboxReq.reserved (q : MboxReq) : Nat := leRead (listReader q.body) 4 4
def MboxReq.args (q : MboxReq) : List Byte := q.body.drop 8

/-- What a request comes to: RESULT, REASON and results. -/
structure MboxEnd where
  result : Nat := 0
  reason : Nat := 0
  data : List Byte := []
  deriving DecidableEq, Repr

/-- An SPDM request: the session that carries it, if one does, and its two parameters. -/
structure SpdmReq where
  session : Option Nat := none
  p1 : Nat := 0
  p2 : Nat := 0
  deriving DecidableEq, Repr

end Sys2Proof.Machine
end

