-- ==== Sys2Proof/Machine/SpanTypes.lean ====
section
/-! DEFINITION. The span unit's state and its control messages (spec/11_spans_collectives.md R351 to R382;
spec/02_frame_time.md R64 to R70). -/
namespace Sys2Proof.Machine

/-- A control message (R355, R356): `to_` is a member ordinal, 0xFFFE for the master or 0xFFFF for every member; `arg` is
the 32 B argument read as a little-endian number. -/
structure CtrlMsg where
  msg : Nat
  from_ : Nat
  to_ : Nat
  tick : Nat
  stamp : Stamp := {}
  arg : Nat := 0
  deriving DecidableEq, Repr

/-- A member's report of a frame, as the master holds it (R367, R370): outcome 0 COMMIT, 1 ABORT, 2 OVERRUN, 3 EMPTY; `stamp` is that of
the frame's end. -/
structure FrameReport where
  ord : Nat
  tick : Nat
  outcome : Nat
  cause : Nat
  notice : Bool
  replays : Nat
  stamp : Stamp := {}
  deriving DecidableEq, Repr

/-- A change announced for a tick (R352): subject 1 period, 2 mode, 3 weight switch, 4 load frames begin, 5 load frames
end; `operand` is its argument. -/
structure Announced where
  subject : Nat
  tick : Nat
  operand : Nat
  deriving DecidableEq, Repr

/-- A receive instance of the present frame (R359): bytes staged so far, the next flit index, whether its LAST flit has arrived,
whether it is complete. A `ref` from 65,536 on is a span load's, on the channel `ref` − 65,536 (R364). -/
structure RecvInst where
  ref : Nat
  bytes : List Byte := []
  nextOff : Nat := 0
  last : Bool := false
  done : Bool := false
  deriving DecidableEq, Repr

/-- A send instance of the present frame: the words taken that are not yet cut into flits, each with its place in the instance's byte
stream in words of 32 B, and flits cut (R321, R358, R366). -/
structure SendInst where
  ref : Nat
  words : List (Nat × Word256) := []
  off : Nat := 0
  deriving DecidableEq, Repr

/-- A span load in progress (R307, R364): the epoch, the pieces received of each shard, the targets that have reported
holding every shard, the shards that a check has failed once by shard
and target, the shards whose digest has failed once here, and the frame in which each load channel carried its last instance. -/
structure SpanLoadSt where
  model : Nat
  epoch : Nat
  pieces : List (Nat × Nat × List Byte) := []
  held : List Nat := []
  failedOnce : List (Nat × Nat) := []
  digestFailed : List Nat := []
  sentOn : List (Nat × Nat) := []
  cursor : Nat × Nat := (0, 0)
  again : List (Nat × Nat × Nat) := []
  ending : Bool := false
  deriving DecidableEq, Repr

/-- The span unit. As master it keeps the reports of frames not decided, the frames decided last, the frames in which only
some members' reports count (those that replay alone), the members out of alignment with the frame in which they lost it, the
largest stretch request accepted for the coming tick. As member it keeps the grant received, the counts of exchanges in and
out of tolerance, the outcome of its last frame, what the present frame must do under the last decision, the empty frames that it
runs again under one, the replays so far of the frame that others replay while it skips, with the streams of that frame, the tick from which
span models are not served, and its transfers. `muted`: the frame is skipped, and no notice is sent for it; `lastReplays` counts the
replays of the frame that it reported last, `lastIdx` is that frame's plan index, `rerunIdx` that of the empty frame that runs again (R546);
`rerunNow` says that the present frame is that one; `replayAt` is the frame from which on a pending replay may run, `held` the receive stage of
an aborted frame while its decision is awaited (R370, R371). -/
structure SpanSt where
  xfers : List Nat := []
  groups : List Nat := []
  chans : List (Nat × Nat) := []
  inbox : List CtrlMsg := []
  reports : List FrameReport := []
  decided : List Nat := []
  soloFrames : List (Nat × List Nat) := []
  alignLost : List (Nat × Nat) := []
  granted : Option StretchReq := none
  grant : Option StretchGrant := none
  announced : List Announced := []
  goodSync : Nat := 0
  badSync : Nat := 0
  masterSeenAt : Nat := 0
  pathLostAt : Option Nat := none
  noticed : Bool := false
  muted : Bool := false
  solo : Bool := false
  skip : Nat := 0
  rerunEmpty : Nat := 0
  decideWait : Bool := false
  lastOut : Option (Nat × Nat) := none
  noReplay : Bool := false
  lossAt : Option Nat := none
  lastReplays : Nat := 0
  lastIdx : Option Nat := none
  rerunIdx : Option Nat := none
  rerunNow : Bool := false
  replayAt : Nat := 0
  held : Option (List RecvInst) := none
  skipping : Bool := false
  soloRun : Nat := 0
  soloStreams : List (Nat × Nat) := []
  recvs : List RecvInst := []
  sends : List SendInst := []
  load : Option SpanLoadSt := none
  loadFrames : Bool := false
  minSlack : Option (Nat × Nat) := none
  deriving DecidableEq, Repr

end Sys2Proof.Machine
end

