-- ==== Sys2Proof/Machine/UnitTypes.lean ====
section
/-! DEFINITION. Pins and inputs, fuses, the boot NOR, a start in progress, the interrupt controller, the stewards with their
ticket counter, and the management interface's sessions (spec/13_power_thermal.md R443; spec/14_boot_lifecycle_security.md R448 to R485;
spec/15_stewards_interrupts.md R488 to R511; spec/16_electrical_mechanical.md R527 to R537). -/
namespace Sys2Proof.Machine

/-! ### The boundary (R512, R527 to R535) -/

/-- Inputs and pins; of an active-low pin, whether it is asserted. `main` is the 54 V input above its threshold on both connectors;
`coldDue` that no start has begun since the auxiliary input came; `powering` the sequence of R529 in progress; `blocked` that the sequence
waits for the 54 V input to be removed and restored; `rails` the rails that are up, by number; `modPg` the level of MOD_PG; `bpos` the
straps; `storePerst` the STORE_PERSTn_N asserted by the module; `resetAt` the device time of the latest assertion of SYS_RST_N or PERST_N;
`wakeLine` and the like are the pins that have latches, `louvre` the louvre level as filtered (R535); `xspiRst` says that XSPI_RST_N is held low, and
`storeRefclk` which STORE_REFCLK outputs run (R532, R538). -/
structure PinSt where
  aux : Bool := true
  main : Bool := true
  coldDue : Bool := true
  powering : Bool := false
  blocked : Bool := false
  rails : Nat := 0xFFFF
  modPg : Bool := true
  sysRst : Bool := false
  perst : Bool := false
  resetAt : Nat := 0
  bpos : Nat := 0
  storePerst : Nat := 0xF
  thermTrip : Bool := false
  ejectWarn : Bool := false
  wakeLine : Bool := false
  louvre0 : Bool := false
  louvre1 : Bool := false
  louvre : Nat := 0
  xspiRst : Bool := true
  storeRefclk : Nat := 0
  deriving DecidableEq, Repr

/-- The pins and the command that have an asynchronous latch (R512). -/
inductive LatchPin where
  | eject | wake | louvre0 | louvre1 | i3cWake
  deriving DecidableEq, Repr

/-! ### Fuses (R419, R420, R428, R468, R473) -/

/-- The typical rail voltages of the 16 points, in mV (R419). -/
def typicalMv : List Nat := [550, 575, 600, 625, 650, 665, 680, 695, 710, 725, 745, 765, 785, 805, 825, 900]

/-- The activity estimator's fuses (R423, R473), in 0.1 W per count in a microsecond: a coefficient for the MAC steps of each FMT, for VEC words, SRAM
accesses and words moved, for the port-die counters; and the leakage of a cluster by its temperature in whole degrees, from 0 °C on. -/
structure Estimator where
  mac : List Rat := []
  vec : Rat := 0
  sram : Rat := 0
  moved : Rat := 0
  near : Rat := 0
  bulk : Rat := 0
  cross : Rat := 0
  lane : Rat := 0
  leak : List Rat := []
  deriving DecidableEq, Repr

/-- The fuses. `uds` is the unique device secret, every bit of it 1 after decommissioning (R469). `owners` lists the owner key hashes written, oldest first. -/
structure FuseSt where
  lc : Nat := 0
  storeGen : Nat := 0
  owners : List Nat := []
  svn : Nat := 0
  serial : Nat := 0
  uds : Nat := 0
  vid : List Nat := typicalMv
  pgrade : Nat := 0
  eMax : Nat := 65535
  pOther0 : Nat := 2500
  excluded : List Nat := []
  romRev : Nat := 0
  estimator : Estimator := {}
  deriving DecidableEq, Repr

/-! ### The boot NOR and images (R451 to R458) -/

/-- The boot NOR: its size in MiB from its parameter table, the identity area, and what has been written to each image slot from its
start on (an erased slot holds nothing). -/
structure NorSt where
  sizeMib : Nat := 256
  identity : List Byte := []
  slot0 : List Byte := []
  slot1 : List Byte := []
  deriving DecidableEq, Repr

/-- What the running start keeps of its image: SVN, RELEASE, COMMIT_SVN, and the digests of its section entries. -/
structure ImageInfo where
  svn : Nat := 0
  release : Nat := 0
  commitSvn : Bool := false
  digests : List Nat := []
  deriving DecidableEq, Repr

/-! ### Starts (R460 to R467, R470, R478, R480) -/

/-- Where a start stands: held in reset; a step in progress; a failed start that waits for its warm reset; step 10 reached; safe
mode. -/
inductive BootPhase where
  | held | running | failWait | ready | safe
  deriving DecidableEq, Repr

/-- What a pending life-cycle transition writes beside the state: the new owner key hash. -/
structure LcJob where
  target : Nat
  ownerKh : Option Nat
  genDone : Bool := false
  deriving DecidableEq, Repr

/-- An image update in progress (R478): the slot that it writes. -/
structure UpdateJob where
  slot : Nat
  deriving DecidableEq, Repr

/-- The boot controller and the always-on boot record. `fails` counts the run's failed starts by step (key 6: a port; key 16: ROUTES at step
6); `retired` the columns retired in service; `trial` the exclusions that the present start has adopted over those in force; `clearAsked`
that BOOT_CTL.CLEAR_EXCL waits for a restart; `debugNext` a debug token waits for its start; `relaxed` ports that train with a minimum width
of 1; `noStore` that the start goes without Store; `catalogueKey` the owner slot and STORE_GEN under which the catalogue was written;
`ticked` that a tick has occurred since the origin; `coldStart` that no step 1 has completed since cold reset; `ejectSeen` that an
eject-warning edge came since the module was last ready; `storeNs` the namespace of each controller listed; `sessions` the ports that have drawn
a session number since cold reset; `tripReset` that the last reset out of service followed a thermal trip or a supply failure; `safe` that safe mode
lasts until a restart or a cold reset; `noPolicy` that this start has read no configuration, so that the default policy holds. -/
structure BootSt where
  phase : BootPhase := .held
  stepAt : Nat := 0
  failAt : Nat := 0
  fails : List (Nat × Nat) := []
  retired : List Nat := []
  nearOut : Nat := 0
  nearCons : Bool := false
  bulkOut : Nat := 0
  bulkGrade : Nat := 0
  portsFailed : Nat := 0
  image : ImageInfo := {}
  initMode : Nat := 2
  clearAsked : Bool := false
  lc : Option LcJob := none
  debugNext : Bool := false
  debugOpenings : Nat := 0
  update : Option UpdateJob := none
  noStore : Bool := false
  relaxed : Nat := 0
  catalogueKey : Option (Nat × Nat) := none
  ticked : Bool := false
  coldStart : Bool := true
  ejectSeen : Bool := false
  tripReset : Bool := false
  safe : Bool := false
  noPolicy : Bool := false
  storeNs : List Nat := []
  sessions : Nat := 0
  deriving DecidableEq, Repr

/-- What a Store controller says of itself (R255): its largest transfer in bytes (0: no limit), its I/O queue pairs and their depth, whether it takes a
metadata buffer of its own, and whether its namespace has protection information off. -/
structure CtrlData where
  mdts : Nat := 0
  pairs : Nat := 8
  depth : Nat := 1024
  sepMeta : Bool := true
  protOff : Bool := true
  deriving DecidableEq, Repr

/-- What a boot step found, as far as the module cannot know it by itself (R460, R462, R465, R472): step 1, the self-tests passed; step 4,
the stacks that trained; step 5, the Bulk channels that trained; step 7, the physical columns found defective; step 8, the stacks and Bulk
sides whose wipe failed; step 9, the controllers that attached, the link, the blocks of each controller's namespace, the header copies whose
tag did not verify, and whether a catalogue block authenticated; step 10, what the tick master answered: the device time, the next tick and
its number. -/
structure BootData where
  tests : Nat := 0x3F
  near : Nat := 0xFF
  bulk : Nat := 0xFFFF
  defects : List Nat := []
  wipeNear : Nat := 0
  wipeBulk : Nat := 0
  drives : Nat := 0
  width : Nat := 0
  speed : Nat := 0
  ctrls : List CtrlData := []
  blocks : List Nat := []
  headBad : Nat := 0
  authentic : Bool := true
  joinDt : Nat := 0
  joinNext : Nat := 0
  joinTick : Nat := 0
  joinOrigin : Nat := 0
  deriving DecidableEq, Repr

/-! ### Interrupts (R501 to R511) -/

/-- The interrupt controller beside its registers: `raw` the unfiltered lines of sources that no status bit or latch drives; `nested` each
steward target's claimed sources in service with their priorities, the latest first; `heldUntil` the end of each target's moderation;
`funcMask` the MSI-X function mask. -/
structure IrqSt where
  raw : List Nat := []
  nested : List (Nat × List (Nat × Nat)) := []
  heldUntil : List (Nat × Nat) := []
  funcMask : Bool := false
  deriving DecidableEq, Repr

/-! ### Stewards (R489 to R500) -/

/-- The stewards and the ticket counter: `done` the tiles with a winning commit; `holds` each ticket held with its steward; `reclaim` the
reclaim list; `history` every ticket reclaimed in the batch; `warned` the stewards whose watchdog has expired once, `countAt` when each watchdog's count last
began; `resetAt` the times of resets alone, by steward; `waiting` the stewards that wait for an interrupt (R508); `mbox` the mailbox requests that wait, oldest
first (R494). -/
structure StwSt where
  done : List Nat := []
  holds : List (Nat × Nat) := []
  reclaim : List Nat := []
  history : List Nat := []
  warned : List Nat := []
  countAt : List (Nat × Nat) := []
  resetAt : List (Nat × Nat) := []
  waiting : List Nat := []
  mbox : List MboxReq := []
  closed : Nat := 0
  deriving DecidableEq, Repr

/-! ### The management interface (R481 to R483) -/

/-- A secured session: its number, whether it is finished (open), its last heartbeat, and its key updates. -/
structure SpdmSession where
  id : Nat
  open_ : Bool := false
  beatAt : Nat := 0
  keyUpdates : Nat := 0
  deriving DecidableEq, Repr

/-- The SPDM responder and the MCTP endpoint: the endpoint ID, how far negotiation has come (0 none, 1 version, 2 capabilities,
3 algorithms), this start's alias private key, once step 2 has derived it, and the sessions. -/
structure SpdmSt where
  eid : Nat := 0
  alias_ : Option Nat := none
  stage : Nat := 0
  nextId : Nat := 1
  sessions : List SpdmSession := []
  deriving DecidableEq, Repr

end Sys2Proof.Machine
end

