-- ==== Sys2Proof/Machine/OperandTypes.lean ====
section
/-! DEFINITION. What the commands carry besides numbers: what reaches the module from outside with the event. -/
namespace Sys2Proof.Machine

/-- What the cells give the routing stage for a half of a layer: the words of a row, and its tokens (R213 to R216). -/
structure RouteInput where
  layer : Nat
  half : Nat
  width : Nat
  tokens : List RouteToken
  deriving DecidableEq, Repr

/-- The experts' outputs for a half of a layer, one row for every place, in the order of the dispatch (R223, R226). -/
structure CombineInput where
  layer : Nat
  half : Nat
  outs : List (List Word)
  deriving DecidableEq, Repr

/-- A Near read that has not returned by its word's scheduled cycle: transfer entry, stack, region-1 offset (R241). -/
structure LateRead where
  entry : Nat
  stack : Nat
  addr : Nat
  deriving DecidableEq, Repr

/-- What reaches the array from outside in one ac: the words that host memory gave the input engine, by host address, and those that the stewards
gave it for fold tiles, by transfer entry; late reads; SRAM errors; the words of the idle pane, by cell and physical word, that the pane loaders
write in this ac (R87, R92); routing layers that have their scores, and those whose experts' outputs are back; and, at a gate that holds, the
nanoseconds for which it is predicted to hold. -/
structure CycleInput where
  inputs : List (Nat × Word256) := []
  tileWords : List (Nat × Word256) := []
  late : List LateRead := []
  errs : List SramErr := []
  paneWrites : List (Nat × Nat) := []
  routes : List RouteInput := []
  combines : List CombineInput := []
  gateWaitNs : Nat := 0
  deriving DecidableEq, Repr

/-- A fold frame that the stewards ask for: its naming and the problem words' extents of its tiles (R192, R195). -/
structure FoldAsk where
  naming : Naming
  tiles : List (List Nat)
  deriving DecidableEq, Repr

/-- What a scan counts in one eye: in each direction, point by point outward, the symbols that differ from the data sampler (R346). -/
structure EyeCounts where
  bottom : List Nat
  top : List Nat
  right : List Nat
  left : List Nat
  deriving DecidableEq, Repr

/-- A SYNC flit's payload (R342). -/
structure SyncMsg where
  tTx : Nat
  echoTx : Nat
  echoRx : Nat
  tick : Nat
  depth : Nat
  locked : Bool
  deriving DecidableEq, Repr

/-- A step of a span load at this member: a home reads the next piece in its order from Store and sends it on a load channel from a
port (bytes beyond the piece are not part of it, bytes short of it read 0); a target has staged every byte of the instance on a channel. -/
inductive LoadStep where
  | send (port chan : Nat) (bytes : List Byte)
  | staged (chan : Nat)
  deriving DecidableEq, Repr

/-- How a Store read ended. -/
inductive ReadEnd where
  | ok | error | tagFail
  deriving DecidableEq, Repr

/-- What the port dies' activity counters of one microsecond hold: Near, Bulk, fetch crossing and lanes (R423). -/
structure Activity where
  near : Nat := 0
  bulk : Nat := 0
  cross : Nat := 0
  lane : Nat := 0
  deriving DecidableEq, Repr

/-- A reading of a monitor. -/
inductive Reading where
  | cluster (c t : Nat)
  | ports (east west : Nat)
  | aon (t : Nat)
  | near (n c : Nat)
  | volts (v mv : Nat)
  | process (d m mhz : Nat)
  deriving DecidableEq, Repr

/-- A descriptor as admission reads it: its 128 bytes, whether the PCIe read failed, and whether the host refuses the
ring-entry write that answers it (R387). -/
structure DescRead where
  bytes : List Byte
  failed : Bool := false
  refused : Bool := false
  deriving DecidableEq, Repr

end Sys2Proof.Machine
end

