-- ==== Sys2Proof/Syntax.lean ====
section
/-! DEFINITION. The commands: one per row of the operation table, each an event that reaches the module or an operation asked of it.
The operands carry what the module cannot compute itself: who asks, where, what arrived, what a measurement gave. -/
namespace Sys2Proof
open Sys2Proof.Machine

inductive Instr where
  /-- REGISTER_WRITE (R21). A write to a control-window register that has no row of its own is checked for size, alignment, access code,
reserved encodings and life-cycle lock, and then applied or discarded. `v` is the value written and the bits that hardware sets, or clears, in the
very cycle of the write. -/
  | registerWrite (r : Requester) (off size : Nat) (v : Nat × Nat)
  /-- LO_REGISTER_READ (R83). A read of a _LO register returns its value and latches the matching _HI register. -/
  | loRegisterRead (r : Requester) (off size : Nat)
  /-- TICK_CAPTURE (R83). A write of 1 to TICK_CAP.CAPTURE loads the tick number, cycle-in-frame and device time from one port-clock
cycle. -/
  | tickCapture
  /-- BOARD_ACCESS (R44). A requester on the board issues an access to a board address; it is served locally or sent over the mesh, or
it is refused and logged in DEV_AERR. -/
  | boardAccess (r : Requester) (src addr : Nat) (op : BoardOp)
  /-- BOARD_REQUEST_TIMEOUT (R341). A board request that has had no response for 10 µs ends with an error completion to the steward and
is counted. -/
  | boardRequestTimeout (p : Nat)
  /-- TICK (R62). Device time reaches the scheduled tick; the tick number advances, every cell resets its sequencer state and the next
frame opens. -/
  | tick
  /-- PERIOD_CHANGE (R50). An announced change of period P takes effect at its apply tick. -/
  | periodChange
  /-- SCHEDULE_CYCLE (R109). Each cell performs one schedule cycle: it fetches, checks the phase, fires, sets up, waits or halts, and
advances its loops. -/
  | scheduleCycle (x : CycleInput)
  /-- INGRESS_SHUTTER_CLOSE (R164). At schedule cycle L − D the ingress shutter closes and the drain window begins. -/
  | ingressShutterClose
  /-- DRAIN_SAMPLE (R166). The drain check samples every condition and the readiness of the idle side in one ac. -/
  | drainSample (edge output : Bool)
  /-- DRAIN_VERDICT (R166). A drain verdict arrives 8 ac after its sample and is PASS, HOLD or ABORT. -/
  | drainVerdict
  /-- DRAIN_HOLD_TIMEOUT (R171). A hold with no PASS or ABORT by the verdict at L − 64 + D is treated as ABORT with cause DRAIN. -/
  | drainHoldTimeout
  /-- EMPTY_FRAME_FLIP (R179). In an empty frame, an idle side that is ready at least 72 ac before the tick is flipped in. -/
  | emptyFrameFlip
  /-- FRAME_NAMING (R162). The planner names the next frame's configuration, epoch or empty frame, starting or restarting the idle-side
loads. -/
  | frameNaming (fold : Option FoldAsk)
  /-- CASEMENT_LOAD_DONE (R161). A casement load completes, or is rejected with every LEN set to 0 and cause SECURITY. -/
  | casementLoadDone (nearUe : Bool)
  /-- PANE_LOAD_DONE (R163). A pane load has written every pane-map entry into the idle pane. -/
  | paneLoadDone
  /-- CHECK_ONLY_PASS (R158). The checker reads a configuration in check-only mode and records success or a rejection that makes the
model unusable. -/
  | checkOnlyPass (model epoch : Nat) (cid : Option Nat) (nearUe : Bool)
  /-- MODE_REQUEST (R182). A mode change is requested, then refused with a reason or accepted as pending. -/
  | modeRequest (target : Nat) (r : Requester)
  /-- MODE_CHANGE_APPLY (R183). At the first qualifying tick, the mode store applies the base and overlay, the frame is empty and
incompatible idle content is discarded. -/
  | modeChangeApply
  /-- STRETCH_REQ (R68). The master accepts a stretch request before the cutoff and broadcasts the largest grant, or counts a late
request. -/
  | stretchReq (m : CtrlMsg)
  /-- STRETCH_GRANT (R69). A member reschedules its next tick from a grant, or discards a grant that comes after its tick. -/
  | stretchGrant (m : CtrlMsg)
  /-- FRAME_REPORT (R370). The master collects each member's outcome of frame F and decides ALL, SOLO or none. -/
  | frameReport (m : CtrlMsg)
  /-- FAULT_NOTICE (R368). A member that receives a fault notice marks its own frame of that tick faulted. -/
  | faultNotice (m : CtrlMsg)
  /-- DECISION (R370). A member applies the master's replay decision: replay, solo replay or skipping frames. -/
  | decision (m : CtrlMsg)
  /-- ALIGN_REPORT (R375). The master records a member's offset and lock state. -/
  | alignReport (m : CtrlMsg)
  /-- ALIGN_GRACE_EXPIRY (R375). A member that has not regained LOCKED within ALIGN_GRACE frames is declared lost. -/
  | alignGraceExpiry (ord : Nat)
  /-- MEMBER_REPORT_MISSING (R375). A member's frame report missing at two consecutive ticks makes the master declare it lost. -/
  | memberReportMissing (ord : Nat)
  /-- LINK_LOST (R375). The master receives the report of a port DOWN or a new peer session and declares the member lost. -/
  | linkLost (m : CtrlMsg)
  /-- LEAVE (R375). The master receives a LEAVE and declares the sender lost at the finish tick. -/
  | leave (m : CtrlMsg)
  /-- MEMBER_LOST (R376). A member fails span-model requests with cause MEMBER_LOSS, aborts the current frame if needed, and runs
span-model frames empty. -/
  | memberLost (m : CtrlMsg)
  /-- SELF_ISOLATION (R377). A member that has lost every path to the master declares itself isolated and handles itself as lost. -/
  | selfIsolation
  /-- ANNOUNCE (R352). A member records the master's announcement of a change of period, mode, weight switch or load frames, with its
apply tick. -/
  | announce (m : CtrlMsg)
  /-- ANNOUNCE_APPLY (R303). At the announced tick, every member applies the announced change, such as the immediate weight switch. -/
  | announceApply (subject : Nat)
  /-- LOAD_REPORT (R364). A target reports a failed shard check or that it holds every shard; the master ends the load frames after
every second report. -/
  | loadReport (m : CtrlMsg)
  /-- TAKEOVER (R379). Members accept the deputy as the new tick master. -/
  | takeover (m : CtrlMsg)
  /-- MASTER_LOSS_TIMEOUT (R379). The deputy, after losing the master's port for 2 ms or its traffic for 3 sync intervals, broadcasts
TAKEOVER and generates ticks. -/
  | masterLossTimeout
  /-- TAKEOVER_TIMEOUT (R379). A member without a TAKEOVER 5 ms after losing its path to the master declares itself isolated. -/
  | takeoverTimeout
  /-- SPAN_RECEIVE_COMPLETE (R359). A receive instance is complete when its LAST flit arrives and LEN bytes are staged, releasing a held
gate. -/
  | spanReceiveComplete (ref : Nat)
  /-- SYNC_EXCHANGE (R64). Every INTERVAL_US, a member and its sync parent exchange SYNC flits. -/
  | syncExchange (p : Nat)
  /-- SYNC_RECEIVE (R342). A received SYNC flit gives the offset from the parent; the member steers its rate and updates its lock state. -/
  | syncReceive (p : Nat) (m : SyncMsg) (arrival : Nat)
  /-- ROUND_TRANSMIT (R321). A transmitter fills every slot of a round with flits in priority order. -/
  | roundTransmit (p : Nat)
  /-- FLIT_RECEIVE (R324). A receiver handles a slot's flit by CRC, type and sequence: delivers, discards, NAKs and takes its ACK. -/
  | flitReceive (p : Nat) (x : FlitSlot)
  /-- REPLAY_TIMEOUT (R325). No ACK progress for REPLAY_NS with a non-empty buffer starts replay from the oldest flit. -/
  | replayTimeout (p : Nat)
  /-- NAK_RESEND_TIMEOUT (R324). A receiver in DISCARD sends its NAK again when nothing has been delivered for NAK_NS. -/
  | nakResendTimeout (p : Nat)
  /-- LANE_DROP (R334). A receiver or transmitter drops a failing lane and sends WIDTH notices so that traffic resumes at reduced width. -/
  | laneDrop (p l cause : Nat)
  /-- PORT_LEAVE_UP (R337). A port leaves UP, records the cause and enters RETRAIN with its replay buffer kept. -/
  | portLeaveUp (p : Nat) (notice : Bool)
  /-- RETRAIN_COMPLETE (R337). A retraining port returns to UP and resumes replay, or discards its buffers for a new peer session. -/
  | retrainComplete (p : Nat) (r : TrainResult)
  /-- RETRAIN_TIMEOUT (R337). A port not UP within 2 ms of leaving it enters DOWN, and its replay buffer is never delivered. -/
  | retrainTimeout (p : Nat)
  /-- DOWN_RETRY (R337). Every 100 ms a port in DOWN tries to train again. -/
  | downRetry (p : Nat)
  /-- LINK_TRAINING (R329). A port trains its lanes, deskews, exchanges TRAIN flits and enters UP, WIRING or DOWN. -/
  | linkTraining (p : Nat) (r : TrainResult)
  /-- TRAINING_TIMEOUT (R332). A port that has not reached UP within 100 ms of the start of training enters DOWN. -/
  | trainingTimeout (p : Nat)
  /-- LOSS_BASE (R347). A write of 1 to LNK_CTL.LOSS_BASE copies every lane's loss estimate into its baseline. -/
  | lossBase (p : Nat)
  /-- LOSS_ESTIMATE_UPDATE (R347). A lane's loss estimate is derived again and LOSS_HIGH is set when it exceeds the baseline by more
than THRESH. -/
  | lossEstimateUpdate (p l est : Nat)
  /-- LINK_RETRAIN_CMD (R336). A write of 1 to LNK_CTL.RETRAIN in maintenance mode retrains the port. -/
  | linkRetrainCmd (p : Nat)
  /-- LINK_TEST_ENTER (R344). A write of TEST = 1 where permitted puts the port into TEST with per-lane PRBS generators and checkers. -/
  | linkTestEnter (p : Nat)
  /-- LINK_TEST_LEAVE (R344). A write of TEST = 0 leaves TEST and retrains the port. -/
  | linkTestLeave (p : Nat)
  /-- LINK_COUNT_CLEAR (R345). LNK_CNT_CLR clears the eye results, the lane PRBS and FEC counts, or the port counters. -/
  | linkCountClear (p : Nat) (eye lane port : Bool)
  /-- EYE_SCAN_START (R346). A write of 1 to LANE_EYE_CTL.START starts a scan of all three eyes. -/
  | eyeScanStart (p l : Nat)
  /-- EYE_SCAN_DONE (R346). An eye scan completes and reports its margins, or ends ABORTED. -/
  | eyeScanDone (p l : Nat) (eyes : Option (EyeCounts × EyeCounts × EyeCounts))
  /-- RUN (R390). Admission checks a RUN descriptor through steps 1 to 12 and accepts it or refuses it with a cause. -/
  | run (x : DescRead)
  /-- CLOSE (R390). Admission checks a CLOSE descriptor through steps 1 to 8 and accepts it with the stream's latest promise, or refuses
it. -/
  | close (x : DescRead)
  /-- SUB_DOORBELL (R384). The host writes SUB_DB with a new tail, and admission reads descriptors up to it. -/
  | subDoorbell (r tail : Nat)
  /-- RING_ENABLE (R387). A write that changes ENABLE from 0 to 1 zeroes every head and tail and starts a first pass. -/
  | ringEnable (r v : Nat)
  /-- RING_DISABLE (R387). A write of ENABLE = 0 stops the ring set and clears HALT. -/
  | ringDisable (r v : Nat)
  /-- RCPT_HEAD_WRITE (R385). The host frees receipt entries, so that a set skipped for a full receipt ring is served again. -/
  | rcptHeadWrite (r head : Nat) (refused : Bool)
  /-- CMPL_HEAD_WRITE (R386). The host frees completion entries, so that waiting completion entries are posted in CSEQ order. -/
  | cmplHeadWrite (r head : Nat) (refused : Bool)
  /-- RETIRE_WRITE (R418). A write of the _HI half of AJ_RETIRE or CJ_RETIRE moves the retire point, or is discarded if it moves
backward or past NEXT. -/
  | retireWrite (cj : Bool) (hi : Nat)
  /-- RECOVER (R407). A write of ADM_CTL.RECOVER with both journals named starts the recovery scan once the module is ready. -/
  | recover
  /-- RECOVERY_COMPLETE (R407). The scans finish, recovered requests are receipted and planned, RECOVER_DONE is set and the shutter may
open. -/
  | recoveryComplete (accs comps : List (List Byte))
  /-- COMPLETION_RECORD (R402). Once a request's results are visible and earlier requests of its stream have completed, the module
writes its completion record, ring entry and MSI-X, and unpins it. -/
  | completionRecord (aseq : Nat) (refused : Bool)
  /-- FETCH_COMPLETE (R269). Every shard is in Near and checked, so the directory sets NEAR and clears FETCH. -/
  | fetchComplete (model epoch : Nat)
  /-- SHARD_WRITTEN (R288). A shard written into Near has its block CRCs combined and compared with the manifest CRC. Without
`bytes` a unit of the shard has failed all its tries to cross to the shard's side (R287). -/
  | shardWritten (model epoch k : Nat) (bytes : Option (List Byte))
  /-- DIGEST_COMPLETE (R294). A digest lane finishes hashing a Q5 shard and compares the digest with the manifest. -/
  | digestComplete (model epoch k : Nat)
  /-- FETCH_BOUND_EXPIRY (R267). A fetch that is not complete by its bound is counted and handled as a missed fetch. -/
  | fetchBoundExpiry (model epoch : Nat)
  /-- STORE_READ_COMPLETE (R260). An NVMe read completes; its tag and metadata are verified, or it is retried once and then failed. -/
  | storeReadComplete (ctrl lba model epoch : Nat) (e : ReadEnd)
  /-- STORE_READ_TIMEOUT (R255). A read outstanding for 100 ms is aborted and handled as a failed read. -/
  | storeReadTimeout (ctrl lba model epoch : Nat)
  /-- STORE_CONTROLLER_DROP (R260). A controller that drops off the link has its DRIVES bit cleared, and its blocks count as failed
reads. -/
  | storeControllerDrop (ctrl : Nat)
  /-- LOG_PAGE_POLL (R255). Every 10 s the module reads the Error Information and SMART log pages. -/
  | logPagePoll
  /-- NEAR_READ_UNCORRECTABLE (R239). A Near line that fails to decode is decoded with each die erased in turn, marking a die erased or
losing the stack. `errs` holds the line's symbol errors by die, and `onDie` counts the reports of on-die ECC that came with the read. -/
  | nearReadUncorrectable (n addr : Nat) (errs : List Nat) (onDie : Nat)
  /-- NEAR_STACK_LOSS (R239). A Near stack is lost: its epochs and state regions are dropped and dependent requests complete FAILED with
cause NEAR_LOSS. -/
  | nearStackLoss (n : Nat)
  /-- BULK_SIDE_LOSS (R244). A Bulk side goes down, its BULK bits are cleared and its fetches continue from Store. -/
  | bulkSideLoss (side : Nat)
  /-- PATROL_SCRUB (R240). Patrol scrub reads lines of Near and Bulk once per PERIOD_H and rewrites corrected lines.
`nearCe` counts the reports of on-die ECC among the corrected errors of Near (R236). -/
  | patrolScrub (nearCe bulkCe : Nat)
  /-- INGEST (R291). WGT_CMD INGEST checks an image, decodes every shard, writes Store, registers the epoch and sets the transom. -/
  | ingest (image : List Byte)
  /-- RETIRE (R292). WGT_CMD RETIRE removes a non-active epoch's stage pin, catalogue record, directory entry and units. -/
  | retire
  /-- SWITCH (R301). WGT_CMD SWITCH moves a model's transom immediately, as a pending switch, or refuses it. -/
  | switch (resident : Bool)
  /-- STAGE (R300). WGT_CMD STAGE adds a stage pin and queues a fetch or starts a span load. -/
  | stage
  /-- UNSTAGE (R300). WGT_CMD UNSTAGE removes the epoch's stage pin. -/
  | unstage
  /-- QUERY (R290). WGT_CMD QUERY loads the model's transom, pending switch, pins and drain tick into the WGT query registers. -/
  | query
  /-- WGT_CMD_END (R289). A weight command ends, clears BUSY and writes OP and RESULT. -/
  | wgtCmdEnd
  /-- SPAN_LOAD (R307). Homes broadcast compressed shards to targets in load frames, and targets decompress and check them. -/
  | spanLoad (x : LoadStep)
  /-- DIGEST_SCRUB_TILE (R296). A digest-scrub tile rehashes a resident Q5 shard; a mismatch discards the copy and refetches it. `tile` is the steward and its
ticket. -/
  | digestScrubTile (tile : Nat × Nat) (model epoch k : Nat) (bad : Bool)
  /-- EJECT_WARNING (R416). The eject-warning latch edge closes the shutter and decides whether to finish or abort the current frame. -/
  | ejectWarning
  /-- EJECT_FINISH (R416). After the current frame ends, the module writes its results, fails the other requests and sets EJECTED. -/
  | ejectFinish
  /-- PIN_LATCH_EDGE (R512). An asserting edge on WAKE_N, a louvre pin or the I3C WAKE command sets its asynchronous latch and its
source's pending bit; the second part is false for an edge that releases the pin. -/
  | pinLatchEdge (p : LatchPin × Bool)
  /-- WAKE_ALARM (R443). Device time reaching PWR_WAKE_AT wakes the module from Dormant. -/
  | wakeAlarm
  /-- LOUVRE_CHANGE (R436). A louvre level stable for 1 µs sets the clock ceiling and the louvre cap. -/
  | louvreChange (level : Nat)
  /-- DORMANT_REQUEST (R442). A write of PWR_DORMANT.REQ is refused with a reason, or the module saves the directory and powers down to
Dormant. -/
  | dormantRequest (r : Requester)
  /-- ESTIMATOR_UPDATE (R423). Every 1 µs the activity estimator forms the calibrated power estimate. -/
  | estimatorUpdate (a : Activity)
  /-- POWER_MEASUREMENT (R425). Every 100 µs the input power is measured and the calibration gain G is updated. -/
  | powerMeasurement (m amps : Nat)
  /-- CAP_SLEW_STEP (R426). At each measurement window, a slewed cap change moves the rack cap by one step, and the controller re-plans. -/
  | capSlewStep
  /-- RAIL_READING (R424). Every 1 ms the module reads each rail regulator's voltage, current and status. -/
  | railReading (r mv da : Nat)
  /-- OP_RAMP_STEP (R421). The rail reaches a point's voltage and the frequency steps to that point. -/
  | opRampStep (mv : Nat)
  /-- DROOP (R432). A droop halves the array clock within 2 ns and counts the event. -/
  | droop (v : Nat)
  /-- DROOP_END (R432). After at least 32 ac and 16 clear ac, the array clock returns to the present frequency. -/
  | droopEnd (ac : Nat)
  /-- THROTTLE_STEP (R437). An over-threshold temperature lowers every ceiling by one point, and again at each 100 µs while it persists. -/
  | throttleStep
  /-- THROTTLE_RELEASE_STEP (R437). After 100 µs with every reading below threshold less hysteresis, the ceiling rises by one point. -/
  | throttleReleaseStep
  /-- THERMAL_TRIP (R438). A 110 °C trip stops the array clocks, asserts THERMTRIP_N, records the trip and switches the regulators off. -/
  | thermalTrip
  /-- REGULATOR_PHASE_FAULT (R439). A reported array-rail phase fault lowers the effective cap to 90 % of the remaining phases' current. -/
  | regulatorPhaseFault (n : Nat)
  /-- SUPPLY_LOW (R527). The 54 V input between 38 V and 40 V for 10 µs raises source 0x16. -/
  | supplyLow
  /-- SUPPLY_FAIL (R527). The 54 V input below 38 V for 10 µs turns the input stage and rails off. -/
  | supplyFail
  /-- AUX_POWER_LOSS (R530). VAUX_3V3 falling below 3.0 V turns every rail off, and the next start is cold. -/
  | auxPowerLoss
  /-- AUX_POWER_ON (R529). VAUX_3V3 reaching 3.135 V brings up the always-on rail and oscillator, a cold reset. -/
  | auxPowerOn
  /-- MAIN_POWER_ON (R529). With the conditions of R527 met, the input stage enables and the rails come up in order to MOD_PG. -/
  | mainPowerOn
  /-- RAIL_START_FAIL (R529). A rail that does not reach 90 % within 2 ms stops the sequence and turns the rails already up off. -/
  | railStartFail
  /-- RAIL_OUT_OF_REGULATION (R530). A rail leaving ±3 % of its setpoint drops MOD_PG within 10 µs. -/
  | railOutOfRegulation (r : Nat)
  /-- SYS_RST_N (R533). An assertion of at least 1 µs holds the module in reset and records REASON 3. -/
  | sysRstN (asserted : Bool)
  /-- PERST_N (R533). An assertion of at least 1 µs holds the module in reset and records REASON 2. -/
  | perstN (asserted : Bool)
  /-- START (R460). When the last reset condition ends, the module begins the boot steps from step 1. -/
  | start
  /-- BOOT_STEP_COMPLETE (R460). A boot step completes and the next step begins, up to READY. -/
  | bootStepComplete (d : BootData)
  /-- BOOT_STEP_FAIL (R461). A failed or timed-out boot step records the failure and enters safe mode or schedules a warm reset. -/
  | bootStepFail (cause : Nat)
  /-- BOOT_RETRY_RESET (R461). 10 ms after a failed step, the module performs a warm reset with REASON 5. -/
  | bootRetryReset
  /-- BOOT_CTL_RESTART (R486). A write of BOOT_CTL.RESTART clears FAIL_COUNT and SLOTS_FAILED and performs a warm reset with REASON 7. -/
  | bootCtlRestart (r : Requester)
  /-- CLEAR_EXCL (R466). A write of BOOT_CTL.CLEAR_EXCL clears the exclusions at the next restart. -/
  | clearExcl (r : Requester)
  /-- BOOT_UPD_START (R478). A write of BOOT_UPD_CMD.START erases, writes and checks the slot that is not running. -/
  | bootUpdStart (r : Requester)
  /-- IMAGE_UPDATE_DONE (R478). An image update ends with its RESULT, erasing the header if the check failed. -/
  | imageUpdateDone (image : List Byte) (norError : Bool)
  /-- WATCHDOG_EXPIRY (R489). A steward watchdog expiry warns; a second expiry resets that steward alone. -/
  | watchdogExpiry (n restartAt : Nat)
  /-- COLUMN_RETIREMENT (R121). The stewards begin or queue a column retirement after a cell's second uncorrectable error or an
operator's request. -/
  | columnRetirement
  /-- BATCH_OPEN (R496). A steward's write to STW_BATCH opens a batch of tiles and clears the bitmap and reclaim list. -/
  | batchOpen (kind count : Nat)
  /-- TICKET_READ (R497). A steward's read of STW_TICKET grants a reclaimed or fresh ticket, or returns EMPTY. -/
  | ticketRead (n : Nat)
  /-- TICKET_PEEK (R498). A read of STW_TICKET by a requester other than a steward returns the next ticket with NEXT_ONLY and grants
nothing. -/
  | ticketPeek (r : Requester)
  /-- TILE_COMMIT (R499). A write of a ticket to STW_COMMIT wins if its bit is clear, or is discarded as a duplicate. -/
  | tileCommit (n t : Nat)
  /-- IRQ_FILTER_CHANGE (R504). A source line that holds a new value for FILTER cycles changes the filtered line and sets its pending
bit. -/
  | irqFilterChange (n : Nat) (level : Bool)
  /-- IRQ_PEND_SET (R504). A write of 1 to IRQ_PEND_SET sets the pending bit of any source. -/
  | irqPendSet (r : Requester) (k v : Nat)
  /-- IRQ_PEND_CLR (R504). A write of 1 to IRQ_PEND_CLR clears a pending bit unless a level line holds it. -/
  | irqPendClr (r : Requester) (k v : Nat)
  /-- CLAIM (R506). A read of TGT_CLAIM returns the highest-priority eligible source, pushes its priority and marks it in service. -/
  | claim (t : Nat)
  /-- COMPLETE (R507). A write to TGT_COMPLETE pops the running priority and ends service of the source, or is discarded. The
second part of `n` says that the steward then waits for an interrupt (log entry 80). -/
  | complete (t : Nat) (n : Nat × Bool)
  /-- MSIX_SEND (R509). The host bridge sends one MSI-X message for an eligible target-4 source or ring announcement. -/
  | msixSend
  /-- HOST_EOI (R509). A write to IRQ_HOST_EOI ends service of a level source routed to the host. -/
  | hostEoi (n : Nat)
  /-- MODERATION_EXPIRY (R508). A target's moderation time ends and held deliveries proceed. -/
  | moderationExpiry (t : Nat)
  /-- MSIX_MASK_WRITE (R511). Clearing a vector or function mask sends the messages pending for it. -/
  | msixMaskWrite (v : Option Nat) (mask : Bool)
  /-- REG_READ (R493). The mailbox reads 1 to 16 control-window words under the policy. -/
  | regRead (q : MboxReq)
  /-- REG_WRITE (R493). The mailbox writes a register as a BAR0 write would, under the register's policy action. -/
  | regWrite (q : MboxReq)
  /-- CAP (R426). A cap command sets the rack cap target and slew and returns the effective cap. -/
  | cap (q : MboxReq)
  /-- RETIRE_COL (R493). A mailbox request retires a physical column, or ends with RANGE. -/
  | retireCol (q : MboxReq)
  /-- TALLY_READ (R231). The mailbox returns a snapshot of a layer's tally block with the tick of the last frame included. -/
  | tallyRead (q : MboxReq)
  /-- TALLY_CLEAR (R231). A stamped clear removes the tally counts of every frame committed before its stamp. -/
  | tallyClear (q : MboxReq)
  /-- LC_REQUEST (R470). A life-cycle token is refused with a reason, or sets the pending transition and performs a warm reset. -/
  | lcRequest (q : MboxReq)
  /-- DEBUG_TOKEN (R480). A valid debug token performs a warm reset and opens debug for that start. -/
  | debugToken (q : MboxReq)
  /-- RESTART (R493). The mailbox RESTART command clears FAIL_COUNT and performs a warm reset. -/
  | restart (q : MboxReq)
  /-- IMAGE_UPDATE (R493). The mailbox starts an image update from a host address and length. -/
  | imageUpdate (q : MboxReq)
  /-- WAKE (R495). The mailbox WAKE command wakes the module from Dormant. -/
  | wake (q : MboxReq)
  /-- SET_ENDPOINT_ID (R481). MCTP control assigns the module's endpoint ID. -/
  | setEndpointId (op eid : Nat)
  /-- GET_ENDPOINT_ID (R481). MCTP control returns the module's endpoint ID. -/
  | getEndpointId
  /-- GET_MCTP_VERSION_SUPPORT (R481). MCTP control returns the supported MCTP versions. -/
  | getMctpVersionSupport (type : Nat)
  /-- GET_MESSAGE_TYPE_SUPPORT (R481). MCTP control returns the supported message types. -/
  | getMessageTypeSupport
  /-- GET_CERTIFICATE (R482). The SPDM responder returns the certificate chain of slot 0. -/
  | getCertificate (q : SpdmReq) (off len : Nat)
  /-- CHALLENGE (R482). The SPDM responder signs a challenge with the alias key. -/
  | challenge (q : SpdmReq)
  /-- GET_MEASUREMENTS (R483). The SPDM responder returns the signed measurement blocks 1 to 8. -/
  | getMeasurements (q : SpdmReq)
  /-- KEY_EXCHANGE (R482). The SPDM responder opens a secured session by ECDHE on P-384, at most two at once. -/
  | keyExchange (q : SpdmReq)
  /-- HEARTBEAT (R482). The SPDM responder keeps a secured session alive with a heartbeat. -/
  | heartbeat (q : SpdmReq)
  /-- KEY_UPDATE (R482). The SPDM responder updates a secured session's keys. -/
  | keyUpdate (q : SpdmReq)
  /-- TEL_CLEAR (R447). TEL_CLR clears the droop counts, resets the minimum voltage readings or resets the peak temperature. -/
  | telClear (droop min_ peak : Bool)
  /-- DECOMP_ENGINE_FAIL (R270). A decompression engine fails in service, leaves its blocks to the other engines of its die and has its
DEV_CAP2.DECOMP_UP bit cleared. -/
  | decompEngineFail (n : Nat)
  /-- BULK_READ_UNCORRECTABLE (R243). A Bulk line that fails to decode is decoded with each die erased in turn, marking a Bulk die
erased or taking its side down. `word` is the group and the rank of the code word. -/
  | bulkReadUncorrectable (side addr : Nat) (word : Nat × Nat) (errs : List Nat)
  /-- MONITOR_UPDATE (R445). Temperature, voltage and process monitors take their periodic readings and update TEL_TEMP, TEL_HBM_TEMP,
TEL_VMON and TEL_PMON, including the peak and minimum values. -/
  | monitorUpdate (r : Reading)
  /-- PRBS_CHECKER_LOCK (R344). In TEST, a lane's PRBS checker locks after 64 consecutive error-free bits, sets PRBS_LOCK and starts
counting bits and errors. `bits` bits have arrived, the first of them in bit 0 of `rx`. -/
  | prbsCheckerLock (p l bits rx : Nat)
  /-- STEWARD_RESTART (R489). A steward that was reset alone finishes restarting from authenticated firmware within 5 ms, and its
STEWARD_UP bit is set again. -/
  | stewardRestart (n : Nat)
  /-- ENTROPY_HEALTH_TEST_FAIL (R485). A continuous health test of the entropy source fails in service, and the module enters the error
state and safe mode with cause SELFTEST. -/
  | entropyHealthTestFail
  /-- CYCLE_IN_FRAME_SATURATION (R54). The cycle-in-frame reaches 0x01FF_FFFF before the tick, holds there and sets TICK_STAT.CIF_HELD,
and every later stamp carries HELD. -/
  | cycleInFrameSaturation
  /-- GET_VERSION (R482). The SPDM responder answers GET_VERSION with version 1.2. -/
  | getVersion (q : SpdmReq)
  /-- GET_CAPABILITIES (R482). The SPDM responder reports its capabilities CERT, CHAL, MEAS, KEY_EX, ENCRYPT, MAC, HBEAT and KEY_UPD. -/
  | getCapabilities (q : SpdmReq)
  /-- NEGOTIATE_ALGORITHMS (R482). The SPDM responder selects ECDSA P-384, SHA-384, secp384r1 and AES-256-GCM. -/
  | negotiateAlgorithms (q : SpdmReq)
  /-- GET_DIGESTS (R482). The SPDM responder returns the digest of the certificate chain in slot 0. -/
  | getDigests (q : SpdmReq)
  /-- FINISH (R482). The SPDM responder completes the key exchange, opening the secured session and setting SEC_STAT.SESSION. -/
  | finish (q : SpdmReq) (verified : Bool)
  /-- END_SESSION (R482). The SPDM responder closes a secured session and decreases SEC_SPDM.SESSIONS. -/
  | endSession (q : SpdmReq)
  /-- HEARTBEAT_EXPIRY (R482). A secured session that receives no heartbeat within its heartbeat period is terminated by the responder. -/
  | heartbeatExpiry (id : Nat)
  deriving DecidableEq, Repr

end Sys2Proof
end

