-- ==== Sys2Proof/Decode.lean ====
section
/-! DEFINITION. Commands from words. The operation table gives no row any bits: its rows are events and operations, not words. -/
namespace Sys2Proof

/-- The command that a word spells by the table's bits: no row has any. -/
def decodeTableWord (_nbits _w : Nat) : Option Instr := none

end Sys2Proof
end

