-- ==== Sys2Proof/Config.lean ====
section
/-! DEFINITION. What the spec leaves open: free values, and what each module's manufacture fixes. None has a body. -/
namespace Sys2Proof

/-- The free value that the step draws `n`-th (DESIGN CHOICE: the spec states no value there). -/
opaque Config.freeValue : Nat → BitVec 512

/-- The KDF of R474 over a key, a label and a context, as a number of as many bits as its user takes: the spec leaves open the widths of its counter and
length fields. -/
opaque Config.kdf : Nat → String → List Byte → Nat

/-- The digest of the module's ROM (R483), which the spec gives to no register. -/
opaque Config.romDigest : BitVec 384

/-- The content of the catalogue block that the write session with a write generation leaves: the firmware owns its layout (R291). -/
opaque Config.catalogueBlock : Nat → BitVec 32768

/-- VENDOR_KH, the fused hash of the vendor's public key (R473). -/
opaque Config.vendorKh : BitVec 384

/-- The digest of measurement `index` over what it measures (R483; DESIGN CHOICE: the spec does not state how that is laid out). -/
opaque Config.measure : Nat → List Nat → BitVec 384

/-- The state in which a lane's pattern generator begins, which the spec leaves open (R344): reduced to a state that is not zero. -/
opaque Config.prbsSeed : Nat → Nat

/-- The alias certificate of an alias private key, signed by a DeviceID private key (R474; DESIGN CHOICE: the spec does not state its bytes). -/
opaque Config.aliasCert : Nat → Nat → List Byte

end Sys2Proof
end

