-- ==== Sys2Proof/Machine/Fields.lean ====
section
/-! DEFINITION. Names of the register fields: for each field of a register table its key and width. The key of a field is
32 × (register offset in the control window) + its low bit; a value held in a LO and HI pair has one key, its LO
register's, and its whole width (R20, R46). -/
namespace Sys2Proof.Machine

/-- A register field: where its value is stored and how wide it is. -/
structure Fld where
  key : Nat
  width : Nat
  deriving DecidableEq, Repr

abbrev F.MEM_NEAR_DIE (s : Nat) : Fld := ⟨0x60008 * 32 + 4 * s, 4⟩
abbrev F.MEM_BULK_DIE (p : Nat) : Fld := ⟨(0x60010 + p / 8 * 4) * 32 + 4 * (p % 8), 4⟩
abbrev F.DEV_ID_VENDOR_TAG : Fld := ⟨0x10, 16⟩
abbrev F.DEV_ID_PRODUCT : Fld := ⟨0x0, 16⟩
abbrev F.DEV_REV_STEP_MAJOR : Fld := ⟨0x84, 4⟩
abbrev F.DEV_REV_STEP_MINOR : Fld := ⟨0x80, 4⟩
abbrev F.DEV_CAP0_BULK_PRESENT : Fld := ⟨0x110, 16⟩
abbrev F.DEV_CAP0_NEAR_PRESENT : Fld := ⟨0x108, 8⟩
abbrev F.DEV_CAP0_SPARE_LEFT : Fld := ⟨0x100, 2⟩
abbrev F.DEV_CAP1_STEWARD_UP : Fld := ⟨0x190, 4⟩
abbrev F.DEV_CAP1_LINK_UP : Fld := ⟨0x180, 16⟩
abbrev F.DEV_CAP2 : Fld := ⟨0x200, 16⟩
abbrev F.DEV_POS : Fld := ⟨0x280, 3⟩
abbrev F.DEV_AERR_SRAM_MODE : Fld := ⟨0x303, 1⟩
abbrev F.DEV_AERR_DENIED : Fld := ⟨0x302, 1⟩
abbrev F.DEV_AERR_REGION : Fld := ⟨0x301, 1⟩
abbrev F.DEV_AERR_RANGE : Fld := ⟨0x300, 1⟩
abbrev F.DEV_AERR_CNT : Fld := ⟨0x380, 32⟩
abbrev F.DEV_AERR_LO : Fld := ⟨0x400, 32⟩
abbrev F.DEV_AERR_HI_WRITE : Fld := ⟨0x493, 1⟩
abbrev F.DEV_AERR_HI_SRC_ORD : Fld := ⟨0x490, 3⟩
abbrev F.DEV_AERR_HI_ADDR_HI : Fld := ⟨0x480, 16⟩
abbrev F.DEV_SCRATCH : Fld := ⟨0x500, 32⟩
abbrev F.TICK_STAT_LATE_GRANT : Fld := ⟨0x20000C, 1⟩
abbrev F.TICK_STAT_CIF_HELD : Fld := ⟨0x20000B, 1⟩
abbrev F.TICK_STAT_STRETCHED : Fld := ⟨0x20000A, 1⟩
abbrev F.TICK_STAT_OVERRUN : Fld := ⟨0x200009, 1⟩
abbrev F.TICK_STAT_ALIGN_LOSS : Fld := ⟨0x200008, 1⟩
abbrev F.TICK_STAT_STRETCH_PEND : Fld := ⟨0x200005, 1⟩
abbrev F.TICK_STAT_HOLD : Fld := ⟨0x200004, 1⟩
abbrev F.TICK_STAT_WAIT : Fld := ⟨0x200003, 1⟩
abbrev F.TICK_STAT_LOCKED : Fld := ⟨0x200002, 1⟩
abbrev F.TICK_STAT_MASTER : Fld := ⟨0x200001, 1⟩
abbrev F.TICK_STAT_RUNNING : Fld := ⟨0x200000, 1⟩
abbrev F.TICK_PERIOD_NEXT_US : Fld := ⟨0x200090, 14⟩
abbrev F.TICK_PERIOD_PERIOD_US : Fld := ⟨0x200080, 14⟩
abbrev F.TICK_FRAME : Fld := ⟨0x200100, 25⟩
abbrev F.TICK_DRAIN : Fld := ⟨0x200180, 18⟩
abbrev F.TICK_NOW : Fld := ⟨0x200200, 48⟩
abbrev F.TICK_CIF_DRAIN : Fld := ⟨0x20031D, 1⟩
abbrev F.TICK_CIF_PHASE : Fld := ⟨0x200319, 4⟩
abbrev F.TICK_CIF_CIF : Fld := ⟨0x200300, 25⟩
abbrev F.TICK_CAP : Fld := ⟨0x200380, 1⟩
abbrev F.TICK_CAP_NUM : Fld := ⟨0x200400, 48⟩
abbrev F.TICK_CAP_CIF_HELD : Fld := ⟨0x200519, 1⟩
abbrev F.TICK_CAP_CIF_CIF : Fld := ⟨0x200500, 25⟩
abbrev F.TICK_CAP_DT : Fld := ⟨0x200580, 64⟩
abbrev F.TICK_DT : Fld := ⟨0x200680, 64⟩
abbrev F.TICK_LAST : Fld := ⟨0x200780, 64⟩
abbrev F.TICK_NEXT : Fld := ⟨0x200880, 64⟩
abbrev F.TICK_ORIGIN : Fld := ⟨0x200980, 64⟩
abbrev F.TICK_SYNC_DEPTH : Fld := ⟨0x200A94, 3⟩
abbrev F.TICK_SYNC_SYNC_PORT : Fld := ⟨0x200A90, 4⟩
abbrev F.TICK_SYNC_OFFSET_NS : Fld := ⟨0x200A80, 16⟩
abbrev F.TICK_SYNC_CFG : Fld := ⟨0x200B00, 10⟩
abbrev F.TICK_STRETCH_CFG_MAX_US : Fld := ⟨0x200B90, 14⟩
abbrev F.TICK_STRETCH_CFG_CUTOFF_US : Fld := ⟨0x200B80, 10⟩
abbrev F.TICK_PERIOD_AT : Fld := ⟨0x200C00, 48⟩
abbrev F.TICK_STRETCH_LAST_REQ_ORD : Fld := ⟨0x200D12, 10⟩
abbrev F.TICK_STRETCH_LAST_CAUSE : Fld := ⟨0x200D0E, 4⟩
abbrev F.TICK_STRETCH_LAST_AMOUNT_US : Fld := ⟨0x200D00, 14⟩
abbrev F.TICK_STRETCH_NUM : Fld := ⟨0x200D80, 48⟩
abbrev F.TICK_CNT_STRETCH : Fld := ⟨0x200E80, 32⟩
abbrev F.TICK_CNT_OVERRUN : Fld := ⟨0x200F00, 32⟩
abbrev F.TICK_CNT_ALIGN : Fld := ⟨0x200F80, 32⟩
abbrev F.TICK_CNT_LATE_REQ : Fld := ⟨0x201000, 32⟩
abbrev F.TICK_PHASE_START_HELD (k : Nat) : Fld := ⟨(0x10100 + k * 0x4) * 32 + 25, 1⟩
abbrev F.TICK_PHASE_START_CIF (k : Nat) : Fld := ⟨(0x10100 + k * 0x4) * 32 + 0, 25⟩
abbrev F.CFG_STAT_MODE_REFUSED : Fld := ⟨0x40000F, 1⟩
abbrev F.CFG_STAT_MODE_DONE : Fld := ⟨0x40000E, 1⟩
abbrev F.CFG_STAT_REPLAY_FAIL : Fld := ⟨0x40000D, 1⟩
abbrev F.CFG_STAT_ABORT : Fld := ⟨0x40000C, 1⟩
abbrev F.CFG_STAT_HELD : Fld := ⟨0x40000B, 1⟩
abbrev F.CFG_STAT_EMPTY : Fld := ⟨0x40000A, 1⟩
abbrev F.CFG_STAT_REJECT : Fld := ⟨0x400009, 1⟩
abbrev F.CFG_STAT_LOAD_DONE : Fld := ⟨0x400008, 1⟩
abbrev F.CFG_STAT_REPLAY : Fld := ⟨0x400004, 1⟩
abbrev F.CFG_STAT_IN_HOLD : Fld := ⟨0x400003, 1⟩
abbrev F.CFG_STAT_IDLE_READY : Fld := ⟨0x400002, 1⟩
abbrev F.CFG_STAT_PANE_LOADING : Fld := ⟨0x400001, 1⟩
abbrev F.CFG_STAT_LOADING : Fld := ⟨0x400000, 1⟩
abbrev F.CFG_LIVE_ID : Fld := ⟨0x400080, 32⟩
abbrev F.CFG_LIVE_MODEL : Fld := ⟨0x400100, 32⟩
abbrev F.CFG_IDLE_ID : Fld := ⟨0x400180, 32⟩
abbrev F.CFG_IDLE_MODEL : Fld := ⟨0x400200, 32⟩
abbrev F.CFG_NEXT_EMPTY : Fld := ⟨0x400282, 1⟩
abbrev F.CFG_NEXT_PANE_FLIP : Fld := ⟨0x400281, 1⟩
abbrev F.CFG_NEXT_CASEMENT_FLIP : Fld := ⟨0x400280, 1⟩
abbrev F.CFG_LOAD_AC_LAST_AC : Fld := ⟨0x400310, 16⟩
abbrev F.CFG_LOAD_AC_CUR_AC : Fld := ⟨0x400300, 16⟩
abbrev F.CFG_REJ_INFO_REASON : Fld := ⟨0x40039C, 4⟩
abbrev F.CFG_REJ_INFO_CELL : Fld := ⟨0x40038A, 12⟩
abbrev F.CFG_REJ_INFO_WORD : Fld := ⟨0x400380, 10⟩
abbrev F.CFG_REJ_ID : Fld := ⟨0x400400, 32⟩
abbrev F.CFG_DRAIN_LAST_COND : Fld := ⟨0x400488, 8⟩
abbrev F.CFG_DRAIN_FIRST_COND : Fld := ⟨0x400480, 8⟩
abbrev F.CFG_HOLD_AC : Fld := ⟨0x400500, 18⟩
abbrev F.CFG_REPLAY_CFG : Fld := ⟨0x400580, 2⟩
abbrev F.CFG_REPLAY : Fld := ⟨0x400600, 2⟩
abbrev F.CFG_MODE : Fld := ⟨0x400800, 3⟩
abbrev F.CFG_MODE_REQ : Fld := ⟨0x400880, 3⟩
abbrev F.CFG_MODE_STAT_TARGET : Fld := ⟨0x400905, 3⟩
abbrev F.CFG_MODE_STAT_PEND : Fld := ⟨0x400904, 1⟩
abbrev F.CFG_MODE_STAT_REFUSE_WHY : Fld := ⟨0x400900, 4⟩
abbrev F.CFG_MODE_AT : Fld := ⟨0x400980, 48⟩
abbrev F.CFG_CNT_LOAD : Fld := ⟨0x400C00, 32⟩
abbrev F.CFG_CNT_REJECT : Fld := ⟨0x400C80, 32⟩
abbrev F.CFG_CNT_HELD : Fld := ⟨0x400D00, 32⟩
abbrev F.CFG_CNT_ABORT : Fld := ⟨0x400D80, 32⟩
abbrev F.CFG_CNT_EMPTY : Fld := ⟨0x400E00, 32⟩
abbrev F.CFG_CNT_REPLAY_FAIL : Fld := ⟨0x400E80, 32⟩
abbrev F.ARR_STAT_RETIRED : Fld := ⟨0x80000C, 1⟩
abbrev F.ARR_STAT_UE : Fld := ⟨0x80000B, 1⟩
abbrev F.ARR_STAT_CE : Fld := ⟨0x80000A, 1⟩
abbrev F.ARR_STAT_FAULT : Fld := ⟨0x800009, 1⟩
abbrev F.ARR_STAT_FRAME_FAULTED : Fld := ⟨0x800003, 1⟩
abbrev F.ARR_STAT_LIVE_PANE : Fld := ⟨0x800002, 1⟩
abbrev F.ARR_STAT_LIVE_CASEMENT : Fld := ⟨0x800001, 1⟩
abbrev F.ARR_STAT_RUNNING : Fld := ⟨0x800000, 1⟩
abbrev F.ARR_FAULT_CNT : Fld := ⟨0x800080, 32⟩
abbrev F.ARR_CE_CNT : Fld := ⟨0x800300, 32⟩
abbrev F.ARR_UE_CNT : Fld := ⟨0x800380, 32⟩
abbrev F.ARR_FAULT_EVT : Fld := ⟨0x800580, 32⟩
abbrev F.ARR_FCAP_TICK : Fld := ⟨0x800100, 48⟩
abbrev F.ARR_FCAP_CIF : Fld := ⟨0x800200, 25⟩
abbrev F.ARR_FCAP_INFO_KIND : Fld := ⟨0x80029C, 4⟩
abbrev F.ARR_FCAP_INFO_PORT : Fld := ⟨0x800299, 3⟩
abbrev F.ARR_FCAP_INFO_CELL : Fld := ⟨0x800280, 12⟩
abbrev F.ARR_COLMAP_EXCL1 : Fld := ⟨0x800408, 7⟩
abbrev F.ARR_COLMAP_EXCL0 : Fld := ⟨0x800400, 7⟩
abbrev F.ARR_RETIRE_PEND : Fld := ⟨0x80049F, 1⟩
abbrev F.ARR_RETIRE_QPEND : Fld := ⟨0x80049E, 1⟩
abbrev F.ARR_RETIRE_QCOL : Fld := ⟨0x800488, 7⟩
abbrev F.ARR_RETIRE_COL : Fld := ⟨0x800480, 7⟩
abbrev F.ARR_QBUSY_PT_BUSY : Fld := ⟨0x800510, 1⟩
abbrev F.ARR_QBUSY_CELLS : Fld := ⟨0x800500, 13⟩
abbrev F.ARR_CELL_SEL : Fld := ⟨0x800600, 12⟩
abbrev F.ARR_CELL_SEQ_LOOPS : Fld := ⟨0x800692, 4⟩
abbrev F.ARR_CELL_SEQ_STATE : Fld := ⟨0x80068F, 3⟩
abbrev F.ARR_CELL_SEQ_PHASE : Fld := ⟨0x80068B, 4⟩
abbrev F.ARR_CELL_SEQ_PC : Fld := ⟨0x800680, 10⟩
abbrev F.ARR_CELL_PORT_SKW : Fld := ⟨0x800715, 3⟩
abbrev F.ARR_CELL_PORT_SKS : Fld := ⟨0x800712, 3⟩
abbrev F.ARR_CELL_PORT_SKE : Fld := ⟨0x80070F, 3⟩
abbrev F.ARR_CELL_PORT_SKN : Fld := ⟨0x80070C, 3⟩
abbrev F.ARR_CELL_PORT_QW : Fld := ⟨0x800709, 3⟩
abbrev F.ARR_CELL_PORT_QS : Fld := ⟨0x800706, 3⟩
abbrev F.ARR_CELL_PORT_QE : Fld := ⟨0x800703, 3⟩
abbrev F.ARR_CELL_PORT_QN : Fld := ⟨0x800700, 3⟩
abbrev F.ARR_CELL_TOK_TW : Fld := ⟨0x80078C, 4⟩
abbrev F.ARR_CELL_TOK_TS : Fld := ⟨0x800788, 4⟩
abbrev F.ARR_CELL_TOK_TE : Fld := ⟨0x800784, 4⟩
abbrev F.ARR_CELL_TOK_TN : Fld := ⟨0x800780, 4⟩
abbrev F.MEM_STAT_LATE_WORD : Fld := ⟨0xC0000F, 1⟩
abbrev F.MEM_STAT_CODEC_FAIL : Fld := ⟨0xC0000E, 1⟩
abbrev F.MEM_STAT_TAG_FAIL : Fld := ⟨0xC0000D, 1⟩
abbrev F.MEM_STAT_STORE_ERR : Fld := ⟨0xC0000C, 1⟩
abbrev F.MEM_STAT_BULK_LOSS : Fld := ⟨0xC0000B, 1⟩
abbrev F.MEM_STAT_BULK_ERASE : Fld := ⟨0xC0000A, 1⟩
abbrev F.MEM_STAT_BULK_CE : Fld := ⟨0xC00009, 1⟩
abbrev F.MEM_STAT_NEAR_LOSS : Fld := ⟨0xC00008, 1⟩
abbrev F.MEM_STAT_NEAR_ERASE : Fld := ⟨0xC00007, 1⟩
abbrev F.MEM_STAT_NEAR_CE : Fld := ⟨0xC00006, 1⟩
abbrev F.MEM_STAT_EVICT_SHORT : Fld := ⟨0xC00005, 1⟩
abbrev F.MEM_STAT_STORE_UP : Fld := ⟨0xC00003, 1⟩
abbrev F.MEM_STAT_WIPE_BUSY : Fld := ⟨0xC00002, 1⟩
abbrev F.MEM_STAT_STORE_FETCH : Fld := ⟨0xC00001, 1⟩
abbrev F.MEM_STAT_BULK_FETCH : Fld := ⟨0xC00000, 1⟩
abbrev F.MEM_NEAR_STAT_ERASED : Fld := ⟨0xC00088, 8⟩
abbrev F.MEM_BULK_STAT_SIDE_UP : Fld := ⟨0xC00190, 2⟩
abbrev F.MEM_BULK_STAT_ERASED : Fld := ⟨0xC00180, 16⟩
abbrev F.MEM_NEAR_FREE : Fld := ⟨0xC00400, 20⟩
abbrev F.MEM_NEAR_WGT : Fld := ⟨0xC00480, 20⟩
abbrev F.MEM_NEAR_STATE : Fld := ⟨0xC00500, 20⟩
abbrev F.MEM_NEAR_SYS : Fld := ⟨0xC00580, 20⟩
abbrev F.MEM_NEAR_RESV : Fld := ⟨0xC00600, 20⟩
abbrev F.MEM_BULK_FREE : Fld := ⟨0xC00680, 20⟩
abbrev F.MEM_BULK_USED : Fld := ⟨0xC00700, 20⟩
abbrev F.MEM_PLAN_BULK_LAT_US : Fld := ⟨0xC00810, 10⟩
abbrev F.MEM_PLAN_BULK_RATE : Fld := ⟨0xC00800, 11⟩
abbrev F.MEM_PLAN_STORE_LAT_US : Fld := ⟨0xC00890, 10⟩
abbrev F.MEM_PLAN_STORE_RATE : Fld := ⟨0xC00880, 6⟩
abbrev F.MEM_BUSY_BULK : Fld := ⟨0xC00900, 64⟩
abbrev F.MEM_BUSY_STORE : Fld := ⟨0xC00A00, 64⟩
abbrev F.MEM_FETCH_Q_STORE_JOBS : Fld := ⟨0xC00B10, 16⟩
abbrev F.MEM_FETCH_Q_BULK_JOBS : Fld := ⟨0xC00B00, 16⟩
abbrev F.MEM_SCRUB : Fld := ⟨0xC00B80, 8⟩
abbrev F.MEM_STORE_LINK_DRIVES : Fld := ⟨0xC00C10, 16⟩
abbrev F.MEM_STORE_LINK_WIDTH : Fld := ⟨0xC00C08, 5⟩
abbrev F.MEM_STORE_LINK_SPEED : Fld := ⟨0xC00C05, 3⟩
abbrev F.MEM_STORE_LINK_BIFUR : Fld := ⟨0xC00C03, 2⟩
abbrev F.MEM_STORE_LINK_FLIT : Fld := ⟨0xC00C02, 1⟩
abbrev F.MEM_STORE_SIZE : Fld := ⟨0xC00C80, 17⟩
abbrev F.MEM_DIR : Fld := ⟨0xC00D00, 18⟩
abbrev F.MEM_ECAP_INFO_KIND : Fld := ⟨0xC00E1C, 4⟩
abbrev F.MEM_ECAP_INFO_UNIT : Fld := ⟨0xC00E18, 4⟩
abbrev F.MEM_ECAP_INFO_DIE : Fld := ⟨0xC00E14, 4⟩
abbrev F.MEM_ECAP_INFO_REGION : Fld := ⟨0xC00E11, 3⟩
abbrev F.MEM_ECAP_ADDR : Fld := ⟨0xC00E80, 44⟩
abbrev F.MEM_NEAR_CE_CNT : Fld := ⟨0xC01000, 32⟩
abbrev F.MEM_BULK_CE_CNT : Fld := ⟨0xC01080, 32⟩
abbrev F.MEM_CNT_FETCH_BULK : Fld := ⟨0xC01100, 32⟩
abbrev F.MEM_CNT_FETCH_STORE : Fld := ⟨0xC01180, 32⟩
abbrev F.MEM_CNT_EVICT_NEAR : Fld := ⟨0xC01200, 32⟩
abbrev F.MEM_CNT_EVICT_BULK : Fld := ⟨0xC01280, 32⟩
abbrev F.MEM_CNT_TAG_FAIL : Fld := ⟨0xC01300, 32⟩
abbrev F.MEM_CNT_CODEC_FAIL : Fld := ⟨0xC01380, 32⟩
abbrev F.MEM_CNT_STORE_ERR : Fld := ⟨0xC01400, 32⟩
abbrev F.MEM_CNT_LATE_WORD : Fld := ⟨0xC01480, 32⟩
abbrev F.MEM_CNT_FETCH_OVER : Fld := ⟨0xC01500, 32⟩
abbrev F.MEM_DECOMP : Fld := ⟨0xC01600, 16⟩
abbrev F.WGT_STAT_SPAN_LOAD_FAIL : Fld := ⟨0x100000E, 1⟩
abbrev F.WGT_STAT_SPAN_LOAD_DONE : Fld := ⟨0x100000D, 1⟩
abbrev F.WGT_STAT_CRC_FAIL : Fld := ⟨0x100000C, 1⟩
abbrev F.WGT_STAT_DIGEST_FAIL : Fld := ⟨0x100000B, 1⟩
abbrev F.WGT_STAT_SWITCH_DONE : Fld := ⟨0x100000A, 1⟩
abbrev F.WGT_STAT_CMD_FAIL : Fld := ⟨0x1000009, 1⟩
abbrev F.WGT_STAT_CMD_DONE : Fld := ⟨0x1000008, 1⟩
abbrev F.WGT_STAT_SPAN_LOADING : Fld := ⟨0x1000003, 1⟩
abbrev F.WGT_STAT_SCRUB_BUSY : Fld := ⟨0x1000002, 1⟩
abbrev F.WGT_STAT_SWITCH_PEND : Fld := ⟨0x1000001, 1⟩
abbrev F.WGT_CMD : Fld := ⟨0x1000080, 3⟩
abbrev F.WGT_CMD_MODEL : Fld := ⟨0x1000100, 32⟩
abbrev F.WGT_CMD_EPOCH : Fld := ⟨0x1000180, 16⟩
abbrev F.WGT_CMD_STAT_OP : Fld := ⟨0x100021D, 3⟩
abbrev F.WGT_CMD_STAT_RESULT : Fld := ⟨0x1000218, 5⟩
abbrev F.WGT_CMD_STAT_BUSY : Fld := ⟨0x1000200, 1⟩
abbrev F.WGT_ING_ADDR : Fld := ⟨0x1000280, 64⟩
abbrev F.WGT_ING_LEN : Fld := ⟨0x1000380, 64⟩
abbrev F.WGT_ING_PROG : Fld := ⟨0x1000480, 16⟩
abbrev F.WGT_Q_EPOCH_PEND_EPOCH : Fld := ⟨0x1000510, 16⟩
abbrev F.WGT_Q_EPOCH_ACTIVE : Fld := ⟨0x1000500, 16⟩
abbrev F.WGT_Q_INFO_PIN : Fld := ⟨0x1000588, 24⟩
abbrev F.WGT_Q_INFO_STAGED : Fld := ⟨0x1000581, 1⟩
abbrev F.WGT_Q_INFO_REGISTERED : Fld := ⟨0x1000580, 1⟩
abbrev F.WGT_Q_DRAIN : Fld := ⟨0x1000600, 48⟩
abbrev F.WGT_SWITCH_CFG : Fld := ⟨0x1000700, 4⟩
abbrev F.WGT_Q5_PLAN_LAT_US : Fld := ⟨0x1000790, 16⟩
abbrev F.WGT_Q5_PLAN_RATE : Fld := ⟨0x1000780, 7⟩
abbrev F.WGT_SCRUB : Fld := ⟨0x1000800, 8⟩
abbrev F.WGT_SCRUB_PASS : Fld := ⟨0x1000880, 48⟩
abbrev F.WGT_FCAP_MODEL : Fld := ⟨0x1000980, 32⟩
abbrev F.WGT_FCAP_INFO_EPOCH : Fld := ⟨0x1000A10, 16⟩
abbrev F.WGT_FCAP_INFO_SHARD : Fld := ⟨0x1000A00, 16⟩
abbrev F.WGT_FCAP_KIND : Fld := ⟨0x1000A80, 4⟩
abbrev F.WGT_CNT_INGEST : Fld := ⟨0x1000C00, 32⟩
abbrev F.WGT_CNT_RETIRE : Fld := ⟨0x1000C80, 32⟩
abbrev F.WGT_CNT_SWITCH : Fld := ⟨0x1000D00, 32⟩
abbrev F.WGT_CNT_DEFER : Fld := ⟨0x1000D80, 32⟩
abbrev F.WGT_CNT_DIGEST_FAIL : Fld := ⟨0x1000E00, 32⟩
abbrev F.WGT_CNT_SCRUB : Fld := ⟨0x1000E80, 32⟩
abbrev F.WGT_CNT_RESEND : Fld := ⟨0x1000F00, 32⟩
abbrev F.WGT_CNT_CRC_FAIL : Fld := ⟨0x1000F80, 32⟩
abbrev F.LNK_STAT_LOSS_HIGH (n : Nat) : Fld := ⟨(0xA0000 + n * 0x1000) * 32 + 15, 1⟩
abbrev F.LNK_STAT_WIRING (n : Nat) : Fld := ⟨(0xA0000 + n * 0x1000) * 32 + 14, 1⟩
abbrev F.LNK_STAT_DOWN (n : Nat) : Fld := ⟨(0xA0000 + n * 0x1000) * 32 + 13, 1⟩
abbrev F.LNK_STAT_UP (n : Nat) : Fld := ⟨(0xA0000 + n * 0x1000) * 32 + 12, 1⟩
abbrev F.LNK_STAT_WIDTH_CHG (n : Nat) : Fld := ⟨(0xA0000 + n * 0x1000) * 32 + 11, 1⟩
abbrev F.LNK_STAT_ROUTE_ERR (n : Nat) : Fld := ⟨(0xA0000 + n * 0x1000) * 32 + 10, 1⟩
abbrev F.LNK_STAT_SESSION (n : Nat) : Fld := ⟨(0xA0000 + n * 0x1000) * 32 + 9, 1⟩
abbrev F.LNK_STAT_STATE (n : Nat) : Fld := ⟨(0xA0000 + n * 0x1000) * 32 + 0, 3⟩
abbrev F.LNK_CTL_LOSS_BASE (n : Nat) : Fld := ⟨(0xA0004 + n * 0x1000) * 32 + 3, 1⟩
abbrev F.LNK_CTL_STD_RATE (n : Nat) : Fld := ⟨(0xA0004 + n * 0x1000) * 32 + 2, 1⟩
abbrev F.LNK_CTL_RETRAIN (n : Nat) : Fld := ⟨(0xA0004 + n * 0x1000) * 32 + 1, 1⟩
abbrev F.LNK_CTL_TEST (n : Nat) : Fld := ⟨(0xA0004 + n * 0x1000) * 32 + 0, 1⟩
abbrev F.LNK_CFG_EXP_PORT (n : Nat) : Fld := ⟨(0xA0008 + n * 0x1000) * 32 + 26, 4⟩
abbrev F.LNK_CFG_EXP_MEMBER (n : Nat) : Fld := ⟨(0xA0008 + n * 0x1000) * 32 + 16, 10⟩
abbrev F.LNK_CFG_MIN_WIDTH (n : Nat) : Fld := ⟨(0xA0008 + n * 0x1000) * 32 + 4, 4⟩
abbrev F.LNK_CFG_CLASS (n : Nat) : Fld := ⟨(0xA0008 + n * 0x1000) * 32 + 0, 3⟩
abbrev F.LNK_WIDTH_RX_MAP (n : Nat) : Fld := ⟨(0xA000C + n * 0x1000) * 32 + 16, 8⟩
abbrev F.LNK_WIDTH_TX_MAP (n : Nat) : Fld := ⟨(0xA000C + n * 0x1000) * 32 + 8, 8⟩
abbrev F.LNK_WIDTH_RX_WIDTH (n : Nat) : Fld := ⟨(0xA000C + n * 0x1000) * 32 + 4, 4⟩
abbrev F.LNK_WIDTH_TX_WIDTH (n : Nat) : Fld := ⟨(0xA000C + n * 0x1000) * 32 + 0, 4⟩
abbrev F.LNK_PEER_MEMBER (n : Nat) : Fld := ⟨(0xA0010 + n * 0x1000) * 32 + 16, 10⟩
abbrev F.LNK_PEER_BOARD (n : Nat) : Fld := ⟨(0xA0010 + n * 0x1000) * 32 + 12, 3⟩
abbrev F.LNK_PEER_PORT (n : Nat) : Fld := ⟨(0xA0010 + n * 0x1000) * 32 + 8, 4⟩
abbrev F.LNK_PEER_VALID (n : Nat) : Fld := ⟨(0xA0010 + n * 0x1000) * 32 + 0, 1⟩
abbrev F.LNK_SESSION_PEER (n : Nat) : Fld := ⟨(0xA0014 + n * 0x1000) * 32 + 16, 16⟩
abbrev F.LNK_SESSION_OWN (n : Nat) : Fld := ⟨(0xA0014 + n * 0x1000) * 32 + 0, 16⟩
abbrev F.LNK_RTT_SKEW_NS (n : Nat) : Fld := ⟨(0xA0018 + n * 0x1000) * 32 + 16, 16⟩
abbrev F.LNK_RTT_RTT_NS (n : Nat) : Fld := ⟨(0xA0018 + n * 0x1000) * 32 + 0, 16⟩
abbrev F.LNK_SEQ_TX_NEXT (n : Nat) : Fld := ⟨(0xA001C + n * 0x1000) * 32 + 16, 16⟩
abbrev F.LNK_SEQ_TX_OLDEST (n : Nat) : Fld := ⟨(0xA001C + n * 0x1000) * 32 + 0, 16⟩
abbrev F.LNK_RXSEQ_DISCARD (n : Nat) : Fld := ⟨(0xA0020 + n * 0x1000) * 32 + 25, 1⟩
abbrev F.LNK_RXSEQ_OUTSTANDING (n : Nat) : Fld := ⟨(0xA0020 + n * 0x1000) * 32 + 16, 9⟩
abbrev F.LNK_RXSEQ_RX_EXPECT (n : Nat) : Fld := ⟨(0xA0020 + n * 0x1000) * 32 + 0, 16⟩
abbrev F.LNK_TIMER_NAK_NS (n : Nat) : Fld := ⟨(0xA0024 + n * 0x1000) * 32 + 16, 16⟩
abbrev F.LNK_TIMER_REPLAY_NS (n : Nat) : Fld := ⟨(0xA0024 + n * 0x1000) * 32 + 0, 16⟩
abbrev F.LNK_LOSS_CFG (n : Nat) : Fld := ⟨(0xA0028 + n * 0x1000) * 32 + 0, 10⟩
abbrev F.LNK_CNT_CLR_EYE (n : Nat) : Fld := ⟨(0xA002C + n * 0x1000) * 32 + 2, 1⟩
abbrev F.LNK_CNT_CLR_LANE (n : Nat) : Fld := ⟨(0xA002C + n * 0x1000) * 32 + 1, 1⟩
abbrev F.LNK_CNT_CLR_PORT (n : Nat) : Fld := ⟨(0xA002C + n * 0x1000) * 32 + 0, 1⟩
abbrev F.LNK_FAIL_LANE (n : Nat) : Fld := ⟨(0xA0030 + n * 0x1000) * 32 + 8, 4⟩
abbrev F.LNK_FAIL_DIR (n : Nat) : Fld := ⟨(0xA0030 + n * 0x1000) * 32 + 7, 1⟩
abbrev F.LNK_FAIL_CAUSE (n : Nat) : Fld := ⟨(0xA0030 + n * 0x1000) * 32 + 0, 4⟩
abbrev F.LNK_CNT_TX (n : Nat) : Fld := ⟨(0xA0040 + n * 0x1000) * 32 + 0, 64⟩
abbrev F.LNK_CNT_RX (n : Nat) : Fld := ⟨(0xA0048 + n * 0x1000) * 32 + 0, 64⟩
abbrev F.LNK_CNT_CRC (n : Nat) : Fld := ⟨(0xA0050 + n * 0x1000) * 32 + 0, 32⟩
abbrev F.LNK_CNT_NAK (n : Nat) : Fld := ⟨(0xA0054 + n * 0x1000) * 32 + 0, 32⟩
abbrev F.LNK_CNT_REPLAY (n : Nat) : Fld := ⟨(0xA0058 + n * 0x1000) * 32 + 0, 32⟩
abbrev F.LNK_CNT_REPLAY_FLIT (n : Nat) : Fld := ⟨(0xA005C + n * 0x1000) * 32 + 0, 32⟩
abbrev F.LNK_CNT_DUP (n : Nat) : Fld := ⟨(0xA0060 + n * 0x1000) * 32 + 0, 32⟩
abbrev F.LNK_CNT_ROUTE (n : Nat) : Fld := ⟨(0xA0064 + n * 0x1000) * 32 + 0, 32⟩
abbrev F.LNK_CNT_WIDTH (n : Nat) : Fld := ⟨(0xA0068 + n * 0x1000) * 32 + 0, 32⟩
abbrev F.LNK_CNT_RETRAIN (n : Nat) : Fld := ⟨(0xA006C + n * 0x1000) * 32 + 0, 32⟩
abbrev F.LNK_CNT_BOARD_ERR (n : Nat) : Fld := ⟨(0xA0070 + n * 0x1000) * 32 + 0, 32⟩
abbrev F.LNK_CNT_SYNC_MISS (n : Nat) : Fld := ⟨(0xA0074 + n * 0x1000) * 32 + 0, 32⟩
abbrev F.LNK_RT_SEL (n : Nat) : Fld := ⟨(0xA0080 + n * 0x1000) * 32 + 0, 16⟩
abbrev F.LNK_RT_DATA (n : Nat) : Fld := ⟨(0xA0084 + n * 0x1000) * 32 + 0, 32⟩
abbrev F.LANE_STAT_PRBS_LOCK (n : Nat) (l : Nat) : Fld := ⟨(0xA0100 + n * 0x1000 + l * 0x40) * 32 + 4, 1⟩
abbrev F.LANE_STAT_LOSS_HIGH (n : Nat) (l : Nat) : Fld := ⟨(0xA0100 + n * 0x1000 + l * 0x40) * 32 + 3, 1⟩
abbrev F.LANE_STAT_IN_RX (n : Nat) (l : Nat) : Fld := ⟨(0xA0100 + n * 0x1000 + l * 0x40) * 32 + 2, 1⟩
abbrev F.LANE_STAT_IN_TX (n : Nat) (l : Nat) : Fld := ⟨(0xA0100 + n * 0x1000 + l * 0x40) * 32 + 1, 1⟩
abbrev F.LANE_STAT_SIGNAL (n : Nat) (l : Nat) : Fld := ⟨(0xA0100 + n * 0x1000 + l * 0x40) * 32 + 0, 1⟩
abbrev F.LANE_PRBS_CTL_LOOP (n : Nat) (l : Nat) : Fld := ⟨(0xA0104 + n * 0x1000 + l * 0x40) * 32 + 6, 2⟩
abbrev F.LANE_PRBS_CTL_CHK (n : Nat) (l : Nat) : Fld := ⟨(0xA0104 + n * 0x1000 + l * 0x40) * 32 + 4, 1⟩
abbrev F.LANE_PRBS_CTL_GEN (n : Nat) (l : Nat) : Fld := ⟨(0xA0104 + n * 0x1000 + l * 0x40) * 32 + 3, 1⟩
abbrev F.LANE_PRBS_CTL_PATTERN (n : Nat) (l : Nat) : Fld := ⟨(0xA0104 + n * 0x1000 + l * 0x40) * 32 + 0, 3⟩
abbrev F.LANE_PRBS_ERR (n : Nat) (l : Nat) : Fld := ⟨(0xA0108 + n * 0x1000 + l * 0x40) * 32 + 0, 32⟩
abbrev F.LANE_PRBS_BITS (n : Nat) (l : Nat) : Fld := ⟨(0xA010C + n * 0x1000 + l * 0x40) * 32 + 0, 64⟩
abbrev F.LANE_FEC_CW (n : Nat) (l : Nat) : Fld := ⟨(0xA0114 + n * 0x1000 + l * 0x40) * 32 + 0, 64⟩
abbrev F.LANE_FEC_CORR (n : Nat) (l : Nat) : Fld := ⟨(0xA011C + n * 0x1000 + l * 0x40) * 32 + 0, 32⟩
abbrev F.LANE_FEC_UNCORR (n : Nat) (l : Nat) : Fld := ⟨(0xA0120 + n * 0x1000 + l * 0x40) * 32 + 0, 32⟩
abbrev F.LANE_FEC_SYM (n : Nat) (l : Nat) : Fld := ⟨(0xA0124 + n * 0x1000 + l * 0x40) * 32 + 0, 32⟩
abbrev F.LANE_FEC_MAXSYM (n : Nat) (l : Nat) : Fld := ⟨(0xA0128 + n * 0x1000 + l * 0x40) * 32 + 0, 5⟩
abbrev F.LANE_LOSS_BASE (n : Nat) (l : Nat) : Fld := ⟨(0xA012C + n * 0x1000 + l * 0x40) * 32 + 16, 10⟩
abbrev F.LANE_LOSS_EST (n : Nat) (l : Nat) : Fld := ⟨(0xA012C + n * 0x1000 + l * 0x40) * 32 + 0, 10⟩
abbrev F.LANE_EYE_CTL_ERR_LIMIT (n : Nat) (l : Nat) : Fld := ⟨(0xA0130 + n * 0x1000 + l * 0x40) * 32 + 8, 8⟩
abbrev F.LANE_EYE_CTL_DWELL (n : Nat) (l : Nat) : Fld := ⟨(0xA0130 + n * 0x1000 + l * 0x40) * 32 + 5, 3⟩
abbrev F.LANE_EYE_CTL_ABORTED (n : Nat) (l : Nat) : Fld := ⟨(0xA0130 + n * 0x1000 + l * 0x40) * 32 + 3, 1⟩
abbrev F.LANE_EYE_CTL_DONE (n : Nat) (l : Nat) : Fld := ⟨(0xA0130 + n * 0x1000 + l * 0x40) * 32 + 2, 1⟩
abbrev F.LANE_EYE_CTL_BUSY (n : Nat) (l : Nat) : Fld := ⟨(0xA0130 + n * 0x1000 + l * 0x40) * 32 + 1, 1⟩
abbrev F.LANE_EYE_CTL_START (n : Nat) (l : Nat) : Fld := ⟨(0xA0130 + n * 0x1000 + l * 0x40) * 32 + 0, 1⟩
abbrev F.LANE_EYE_UPPER_BOTTOM (n : Nat) (l : Nat) : Fld := ⟨(0xA0134 + n * 0x1000 + l * 0x40) * 32 + 24, 8⟩
abbrev F.LANE_EYE_UPPER_TOP (n : Nat) (l : Nat) : Fld := ⟨(0xA0134 + n * 0x1000 + l * 0x40) * 32 + 16, 8⟩
abbrev F.LANE_EYE_UPPER_RIGHT (n : Nat) (l : Nat) : Fld := ⟨(0xA0134 + n * 0x1000 + l * 0x40) * 32 + 8, 8⟩
abbrev F.LANE_EYE_UPPER_LEFT (n : Nat) (l : Nat) : Fld := ⟨(0xA0134 + n * 0x1000 + l * 0x40) * 32 + 0, 8⟩
abbrev F.LANE_EYE_MIDDLE_BOTTOM (n : Nat) (l : Nat) : Fld := ⟨(0xA0138 + n * 0x1000 + l * 0x40) * 32 + 24, 8⟩
abbrev F.LANE_EYE_MIDDLE_TOP (n : Nat) (l : Nat) : Fld := ⟨(0xA0138 + n * 0x1000 + l * 0x40) * 32 + 16, 8⟩
abbrev F.LANE_EYE_MIDDLE_RIGHT (n : Nat) (l : Nat) : Fld := ⟨(0xA0138 + n * 0x1000 + l * 0x40) * 32 + 8, 8⟩
abbrev F.LANE_EYE_MIDDLE_LEFT (n : Nat) (l : Nat) : Fld := ⟨(0xA0138 + n * 0x1000 + l * 0x40) * 32 + 0, 8⟩
abbrev F.LANE_EYE_LOWER_BOTTOM (n : Nat) (l : Nat) : Fld := ⟨(0xA013C + n * 0x1000 + l * 0x40) * 32 + 24, 8⟩
abbrev F.LANE_EYE_LOWER_TOP (n : Nat) (l : Nat) : Fld := ⟨(0xA013C + n * 0x1000 + l * 0x40) * 32 + 16, 8⟩
abbrev F.LANE_EYE_LOWER_RIGHT (n : Nat) (l : Nat) : Fld := ⟨(0xA013C + n * 0x1000 + l * 0x40) * 32 + 8, 8⟩
abbrev F.LANE_EYE_LOWER_LEFT (n : Nat) (l : Nat) : Fld := ⟨(0xA013C + n * 0x1000 + l * 0x40) * 32 + 0, 8⟩
abbrev F.SPAN_STAT_SPLIT : Fld := ⟨0x180000F, 1⟩
abbrev F.SPAN_STAT_GUARD_LATE : Fld := ⟨0x180000E, 1⟩
abbrev F.SPAN_STAT_TAKEOVER : Fld := ⟨0x180000D, 1⟩
abbrev F.SPAN_STAT_ISOLATED : Fld := ⟨0x180000C, 1⟩
abbrev F.SPAN_STAT_MEMBER_LOST : Fld := ⟨0x180000B, 1⟩
abbrev F.SPAN_STAT_LEAVE : Fld := ⟨0x180000A, 1⟩
abbrev F.SPAN_STAT_REPLAY : Fld := ⟨0x1800009, 1⟩
abbrev F.SPAN_STAT_NOTICE : Fld := ⟨0x1800008, 1⟩
abbrev F.SPAN_STAT_ON_ALT : Fld := ⟨0x1800004, 1⟩
abbrev F.SPAN_STAT_DEGRADED : Fld := ⟨0x1800003, 1⟩
abbrev F.SPAN_STAT_ROLE : Fld := ⟨0x1800001, 2⟩
abbrev F.SPAN_STAT_IN_SPAN : Fld := ⟨0x1800000, 1⟩
abbrev F.SPAN_ID_SIZE : Fld := ⟨0x1800090, 11⟩
abbrev F.SPAN_ID_ORD : Fld := ⟨0x1800080, 10⟩
abbrev F.SPAN_ROLES_DEPUTY : Fld := ⟨0x1800110, 10⟩
abbrev F.SPAN_ROLES_MASTER : Fld := ⟨0x1800100, 10⟩
abbrev F.SPAN_TREE_CHILDREN : Fld := ⟨0x1800190, 16⟩
abbrev F.SPAN_TREE_ALT_VALID : Fld := ⟨0x1800188, 1⟩
abbrev F.SPAN_TREE_ALT_PORT : Fld := ⟨0x1800184, 4⟩
abbrev F.SPAN_TREE_PARENT_PORT : Fld := ⟨0x1800180, 4⟩
abbrev F.SPAN_CFG_ALIGN_GRACE : Fld := ⟨0x1800218, 8⟩
abbrev F.SPAN_CFG_EJECT_FINISH_US : Fld := ⟨0x180020C, 12⟩
abbrev F.SPAN_CFG_GUARD_US : Fld := ⟨0x1800200, 12⟩
abbrev F.SPAN_LOSS_CAUSE : Fld := ⟨0x180028B, 3⟩
abbrev F.SPAN_LOSS_ABORTED : Fld := ⟨0x180028A, 1⟩
abbrev F.SPAN_LOSS_ORD : Fld := ⟨0x1800280, 10⟩
abbrev F.SPAN_LOSS_TICK : Fld := ⟨0x1800300, 48⟩
abbrev F.SPAN_DECIDE_KIND : Fld := ⟨0x180041E, 2⟩
abbrev F.SPAN_DECIDE_CAUSE : Fld := ⟨0x180041A, 4⟩
abbrev F.SPAN_DECIDE_COUNT : Fld := ⟨0x1800418, 2⟩
abbrev F.SPAN_DECIDE_TICK : Fld := ⟨0x1800480, 48⟩
abbrev F.SPAN_SLACK_PHASE : Fld := ⟨0x1800588, 4⟩
abbrev F.SPAN_SLACK_MIN_PCT : Fld := ⟨0x1800580, 8⟩
abbrev F.SPAN_XFER_SEL_WORD : Fld := ⟨0x1800610, 2⟩
abbrev F.SPAN_XFER_SEL_INDEX : Fld := ⟨0x1800600, 16⟩
abbrev F.SPAN_XFER_DATA : Fld := ⟨0x1800680, 32⟩
abbrev F.SPAN_GROUP_DATA : Fld := ⟨0x1800780, 32⟩
abbrev F.SPAN_GROUP_SEL_WORD : Fld := ⟨0x180070C, 1⟩
abbrev F.SPAN_GROUP_SEL_INDEX : Fld := ⟨0x1800700, 12⟩
abbrev F.SPAN_CNT_CTRL_TX : Fld := ⟨0x1800800, 32⟩
abbrev F.SPAN_CNT_CTRL_RX : Fld := ⟨0x1800880, 32⟩
abbrev F.SPAN_CNT_NOTICE : Fld := ⟨0x1800900, 32⟩
abbrev F.SPAN_CNT_REPLAY_ALL : Fld := ⟨0x1800980, 32⟩
abbrev F.SPAN_CNT_REPLAY_SOLO : Fld := ⟨0x1800A00, 32⟩
abbrev F.SPAN_CNT_SKIP : Fld := ⟨0x1800A80, 32⟩
abbrev F.SPAN_CNT_LOSS : Fld := ⟨0x1800B00, 32⟩
abbrev F.SPAN_CNT_SPLIT : Fld := ⟨0x1800B80, 32⟩
abbrev F.SPAN_CNT_GUARD_LATE : Fld := ⟨0x1800C00, 32⟩
abbrev F.SPAN_CNT_ALT_SWITCH : Fld := ⟨0x1800C80, 32⟩
abbrev F.SPAN_LOST (k : Nat) : Fld := ⟨(0xC0100 + k * 0x4) * 32 + 0, 32⟩
abbrev F.ADM_STAT_EJECTED : Fld := ⟨0x1C0000F, 1⟩
abbrev F.ADM_STAT_RECOVER_DONE : Fld := ⟨0x1C0000E, 1⟩
abbrev F.ADM_STAT_RING_ERR : Fld := ⟨0x1C0000D, 1⟩
abbrev F.ADM_STAT_JRNL_FULL : Fld := ⟨0x1C0000C, 1⟩
abbrev F.ADM_STAT_FAILED : Fld := ⟨0x1C0000B, 1⟩
abbrev F.ADM_STAT_LATE : Fld := ⟨0x1C0000A, 1⟩
abbrev F.ADM_STAT_NARROWED : Fld := ⟨0x1C00009, 1⟩
abbrev F.ADM_STAT_RECOVERING : Fld := ⟨0x1C00002, 1⟩
abbrev F.ADM_STAT_OPEN : Fld := ⟨0x1C00000, 1⟩
abbrev F.ADM_SHUT_EJECT : Fld := ⟨0x1C00085, 1⟩
abbrev F.ADM_SHUT_SIDE : Fld := ⟨0x1C00084, 1⟩
abbrev F.ADM_SHUT_SPARE : Fld := ⟨0x1C00083, 1⟩
abbrev F.ADM_SHUT_MODE : Fld := ⟨0x1C00082, 1⟩
abbrev F.ADM_SHUT_RECOVERY : Fld := ⟨0x1C00081, 1⟩
abbrev F.ADM_SHUT_JOURNAL : Fld := ⟨0x1C00080, 1⟩
abbrev F.ADM_CTL : Fld := ⟨0x1C00100, 1⟩
abbrev F.ADM_AJ_BASE : Fld := ⟨0x1C00200, 64⟩
abbrev F.ADM_CJ_BASE : Fld := ⟨0x1C00600, 64⟩
abbrev F.ADM_AJ_SIZE : Fld := ⟨0x1C00300, 5⟩
abbrev F.ADM_CJ_SIZE : Fld := ⟨0x1C00700, 5⟩
abbrev F.ADM_AJ_RETIRE : Fld := ⟨0x1C00380, 64⟩
abbrev F.ADM_CJ_RETIRE : Fld := ⟨0x1C00780, 64⟩
abbrev F.ADM_AJ_NEXT : Fld := ⟨0x1C00480, 64⟩
abbrev F.ADM_CJ_NEXT : Fld := ⟨0x1C00880, 64⟩
abbrev F.ADM_OUTSTANDING : Fld := ⟨0x1C00A00, 24⟩
abbrev F.ADM_RECOV : Fld := ⟨0x1C00A80, 24⟩
abbrev F.ADM_STREAMS : Fld := ⟨0x1C00B00, 19⟩
abbrev F.ADM_PLAN_SLACK_F : Fld := ⟨0x1C00B9C, 4⟩
abbrev F.ADM_PLAN_HORIZON : Fld := ⟨0x1C00B90, 9⟩
abbrev F.ADM_PLAN_CYCLE : Fld := ⟨0x1C00B80, 13⟩
abbrev F.ADM_PROMISE_STD_F : Fld := ⟨0x1C00C10, 9⟩
abbrev F.ADM_PROMISE_FIRM_F : Fld := ⟨0x1C00C00, 9⟩
abbrev F.ADM_RCAP_RING : Fld := ⟨0x1C00C9A, 6⟩
abbrev F.ADM_RCAP_KIND : Fld := ⟨0x1C00C98, 2⟩
abbrev F.ADM_RCAP_INDEX : Fld := ⟨0x1C00C80, 16⟩
abbrev F.ADM_CNT_DESC : Fld := ⟨0x1C00E00, 32⟩
abbrev F.ADM_CNT_RECEIPT : Fld := ⟨0x1C00E80, 32⟩
abbrev F.ADM_CNT_REFUSE : Fld := ⟨0x1C00F00, 32⟩
abbrev F.ADM_CNT_OK : Fld := ⟨0x1C00F80, 32⟩
abbrev F.ADM_CNT_LATE : Fld := ⟨0x1C01000, 32⟩
abbrev F.ADM_CNT_FAILED : Fld := ⟨0x1C01080, 32⟩
abbrev F.ADM_CNT_RERUN : Fld := ⟨0x1C01100, 32⟩
abbrev F.ADM_CNT_CAUSE (c : Nat) : Fld := ⟨(0xE0100 + c * 0x4) * 32 + 0, 32⟩
abbrev F.RING_CTL_ANY (r : Nat) : Fld := ⟨(0xE1000 + r * 0x40) * 32 + 28, 1⟩
abbrev F.RING_CTL_VEC (r : Nat) : Fld := ⟨(0xE1000 + r * 0x40) * 32 + 20, 8⟩
abbrev F.RING_CTL_CLIENT (r : Nat) : Fld := ⟨(0xE1000 + r * 0x40) * 32 + 8, 12⟩
abbrev F.RING_CTL_SIZE (r : Nat) : Fld := ⟨(0xE1000 + r * 0x40) * 32 + 3, 5⟩
abbrev F.RING_CTL_HALT (r : Nat) : Fld := ⟨(0xE1000 + r * 0x40) * 32 + 1, 1⟩
abbrev F.RING_CTL_ENABLE (r : Nat) : Fld := ⟨(0xE1000 + r * 0x40) * 32 + 0, 1⟩
abbrev F.SUB_BASE (r : Nat) : Fld := ⟨(0xE1004 + r * 0x40) * 32 + 0, 64⟩
abbrev F.RCPT_BASE (r : Nat) : Fld := ⟨(0xE100C + r * 0x40) * 32 + 0, 64⟩
abbrev F.CMPL_BASE (r : Nat) : Fld := ⟨(0xE1014 + r * 0x40) * 32 + 0, 64⟩
abbrev F.SUB_DB (r : Nat) : Fld := ⟨(0xE101C + r * 0x40) * 32 + 0, 16⟩
abbrev F.SUB_HEAD (r : Nat) : Fld := ⟨(0xE1020 + r * 0x40) * 32 + 0, 16⟩
abbrev F.RCPT_TAIL (r : Nat) : Fld := ⟨(0xE1024 + r * 0x40) * 32 + 0, 16⟩
abbrev F.RCPT_HEAD (r : Nat) : Fld := ⟨(0xE1028 + r * 0x40) * 32 + 0, 16⟩
abbrev F.CMPL_TAIL (r : Nat) : Fld := ⟨(0xE102C + r * 0x40) * 32 + 0, 16⟩
abbrev F.CMPL_HEAD (r : Nat) : Fld := ⟨(0xE1030 + r * 0x40) * 32 + 0, 16⟩
abbrev F.PWR_STAT_PHASE_LOSS : Fld := ⟨0x200000F, 1⟩
abbrev F.PWR_STAT_CAL_FAULT : Fld := ⟨0x200000E, 1⟩
abbrev F.PWR_STAT_GUARD : Fld := ⟨0x200000D, 1⟩
abbrev F.PWR_STAT_THROTTLE : Fld := ⟨0x200000C, 1⟩
abbrev F.PWR_STAT_LOUVRE_CHG : Fld := ⟨0x200000B, 1⟩
abbrev F.PWR_STAT_CAP_CHG : Fld := ⟨0x200000A, 1⟩
abbrev F.PWR_STAT_BELOW_FLOOR : Fld := ⟨0x2000009, 1⟩
abbrev F.PWR_STAT_DROOP : Fld := ⟨0x2000008, 1⟩
abbrev F.PWR_STAT_WAKE : Fld := ⟨0x2000007, 1⟩
abbrev F.PWR_STAT_NARROW : Fld := ⟨0x2000005, 1⟩
abbrev F.PWR_STAT_THROTTLING : Fld := ⟨0x2000004, 1⟩
abbrev F.PWR_STAT_LOUVRE : Fld := ⟨0x2000002, 2⟩
abbrev F.PWR_STAT_STATE : Fld := ⟨0x2000000, 2⟩
abbrev F.PWR_OP_RAIL_MV : Fld := ⟨0x2000090, 12⟩
abbrev F.PWR_OP_CEIL : Fld := ⟨0x200008C, 4⟩
abbrev F.PWR_OP_FLOOR_OP : Fld := ⟨0x2000088, 4⟩
abbrev F.PWR_OP_TARGET : Fld := ⟨0x2000084, 4⟩
abbrev F.PWR_OP_CUR : Fld := ⟨0x2000080, 4⟩
abbrev F.PWR_RANGE_IDLE_FRAMES : Fld := ⟨0x2000108, 16⟩
abbrev F.PWR_RANGE_OP_MAX : Fld := ⟨0x2000104, 4⟩
abbrev F.PWR_RANGE_OP_MIN : Fld := ⟨0x2000100, 4⟩
abbrev F.PWR_CAP_TARGET_W : Fld := ⟨0x2000190, 12⟩
abbrev F.PWR_CAP_EFFECTIVE_W : Fld := ⟨0x2000180, 12⟩
abbrev F.PWR_CAP_CFG_SLEW : Fld := ⟨0x2000210, 12⟩
abbrev F.PWR_CAP_CFG_GUARD_PCT : Fld := ⟨0x200020C, 4⟩
abbrev F.PWR_CAP_CFG_BOOT_W : Fld := ⟨0x2000200, 12⟩
abbrev F.PWR_LOUVRE_L2_W : Fld := ⟨0x2000290, 12⟩
abbrev F.PWR_LOUVRE_L1_W : Fld := ⟨0x2000280, 12⟩
abbrev F.PWR_THERM_HBM_C : Fld := ⟨0x2000310, 8⟩
abbrev F.PWR_THERM_HYST_C : Fld := ⟨0x2000308, 4⟩
abbrev F.PWR_THERM_THROTTLE_C : Fld := ⟨0x2000300, 8⟩
abbrev F.PWR_MEAS_EST_DW : Fld := ⟨0x2000390, 16⟩
abbrev F.PWR_MEAS_MEAS_DW : Fld := ⟨0x2000380, 16⟩
abbrev F.PWR_CAL : Fld := ⟨0x2000400, 16⟩
abbrev F.PWR_DROOP_CFG : Fld := ⟨0x2000480, 7⟩
abbrev F.PWR_VREG : Fld := ⟨0x2000500, 24⟩
abbrev F.PWR_DORMANT_REFUSE_WHY : Fld := ⟨0x2000581, 3⟩
abbrev F.PWR_DORMANT_REQ : Fld := ⟨0x2000580, 1⟩
abbrev F.PWR_WAKE_AT : Fld := ⟨0x2000600, 64⟩
abbrev F.PWR_CNT_BELOW_FLOOR : Fld := ⟨0x2000800, 32⟩
abbrev F.PWR_CNT_STRETCH_REQ : Fld := ⟨0x2000880, 32⟩
abbrev F.PWR_CNT_GUARD : Fld := ⟨0x2000900, 32⟩
abbrev F.PWR_CNT_THROTTLE : Fld := ⟨0x2000980, 32⟩
abbrev F.PWR_CNT_LOUVRE : Fld := ⟨0x2000A00, 32⟩
abbrev F.PWR_CNT_CAP : Fld := ⟨0x2000A80, 32⟩
abbrev F.PWR_CNT_DROOP : Fld := ⟨0x2000B00, 32⟩
abbrev F.PWR_DROOP_AC : Fld := ⟨0x2000C00, 64⟩
abbrev F.PWR_LEARN_SEL_PHASE : Fld := ⟨0x2001008, 4⟩
abbrev F.PWR_LEARN_SEL_ENTRY : Fld := ⟨0x2001000, 8⟩
abbrev F.PWR_LEARN_DATA_VALID : Fld := ⟨0x2001098, 1⟩
abbrev F.PWR_LEARN_DATA_FRAMES : Fld := ⟨0x2001090, 8⟩
abbrev F.PWR_LEARN_DATA_E : Fld := ⟨0x2001080, 16⟩
abbrev F.PWR_LEARN_MODEL : Fld := ⟨0x2001100, 32⟩
abbrev F.PWR_LEARN_CONFIG : Fld := ⟨0x2001180, 32⟩
abbrev F.PWR_OTHER : Fld := ⟨0x2001200, 16⟩
abbrev F.PWR_FUSED_EMAX : Fld := ⟨0x2001290, 16⟩
abbrev F.PWR_FUSED_POTHER0_DW : Fld := ⟨0x2001280, 16⟩
abbrev F.PWR_PHASE_CAPPED (k : Nat) : Fld := ⟨(0x100100 + k * 0x4) * 32 + 9, 1⟩
abbrev F.PWR_PHASE_RAISED (k : Nat) : Fld := ⟨(0x100100 + k * 0x4) * 32 + 8, 1⟩
abbrev F.PWR_PHASE_PREF (k : Nat) : Fld := ⟨(0x100100 + k * 0x4) * 32 + 4, 4⟩
abbrev F.PWR_PHASE_CHOSEN (k : Nat) : Fld := ⟨(0x100100 + k * 0x4) * 32 + 0, 4⟩
abbrev F.BOOT_STAT_MODE_SUBST : Fld := ⟨0x240000D, 1⟩
abbrev F.BOOT_STAT_UPD_DONE : Fld := ⟨0x240000C, 1⟩
abbrev F.BOOT_STAT_STORE_EMPTY : Fld := ⟨0x240000B, 1⟩
abbrev F.BOOT_STAT_DEGRADED : Fld := ⟨0x240000A, 1⟩
abbrev F.BOOT_STAT_SAFE : Fld := ⟨0x2400007, 1⟩
abbrev F.BOOT_STAT_READY : Fld := ⟨0x2400006, 1⟩
abbrev F.BOOT_STAT_SLOT : Fld := ⟨0x2400004, 1⟩
abbrev F.BOOT_STAT_STEP : Fld := ⟨0x2400000, 4⟩
abbrev F.BOOT_REC_LAST_STEP : Fld := ⟨0x240009C, 4⟩
abbrev F.BOOT_REC_FAIL_STEP : Fld := ⟨0x2400098, 4⟩
abbrev F.BOOT_REC_FAIL_CAUSE : Fld := ⟨0x2400093, 5⟩
abbrev F.BOOT_REC_FAIL_COUNT : Fld := ⟨0x2400091, 2⟩
abbrev F.BOOT_REC_SLOTS_FAILED : Fld := ⟨0x240008E, 2⟩
abbrev F.BOOT_REC_TRIP : Fld := ⟨0x240008D, 1⟩
abbrev F.BOOT_REC_SUPPLY : Fld := ⟨0x240008C, 1⟩
abbrev F.BOOT_REC_EJECT : Fld := ⟨0x240008B, 1⟩
abbrev F.BOOT_REC_OVL_BAD : Fld := ⟨0x2400086, 5⟩
abbrev F.BOOT_RESET_COUNT : Fld := ⟨0x2400110, 16⟩
abbrev F.BOOT_RESET_REASON : Fld := ⟨0x2400100, 4⟩
abbrev F.BOOT_SLOT_SVN_MIN : Fld := ⟨0x2400198, 8⟩
abbrev F.BOOT_SLOT_SVN : Fld := ⟨0x2400190, 8⟩
abbrev F.BOOT_SLOT_VALID1 : Fld := ⟨0x2400183, 1⟩
abbrev F.BOOT_SLOT_VALID0 : Fld := ⟨0x2400182, 1⟩
abbrev F.BOOT_SLOT_PREF : Fld := ⟨0x2400180, 1⟩
abbrev F.BOOT_EXCL_PORTS_FAILED : Fld := ⟨0x2400210, 16⟩
abbrev F.BOOT_EXCL_BULK_GRADE : Fld := ⟨0x240020C, 2⟩
abbrev F.BOOT_EXCL_BULK_OUT : Fld := ⟨0x240020A, 2⟩
abbrev F.BOOT_EXCL_NEAR_CONS : Fld := ⟨0x2400209, 1⟩
abbrev F.BOOT_EXCL_NEAR_OUT : Fld := ⟨0x2400200, 8⟩
abbrev F.BOOT_CTL_CLEAR_EXCL : Fld := ⟨0x2400281, 1⟩
abbrev F.BOOT_CTL_RESTART : Fld := ⟨0x2400280, 1⟩
abbrev F.BOOT_FW : Fld := ⟨0x2400300, 32⟩
abbrev F.BOOT_NOR_OCTAL : Fld := ⟨0x2400390, 1⟩
abbrev F.BOOT_NOR_SIZE_MIB : Fld := ⟨0x2400380, 16⟩
abbrev F.BOOT_UPD_ADDR : Fld := ⟨0x2400400, 64⟩
abbrev F.BOOT_UPD_LEN : Fld := ⟨0x2400500, 32⟩
abbrev F.BOOT_UPD_CMD : Fld := ⟨0x2400580, 1⟩
abbrev F.BOOT_UPD_STAT_BUSY : Fld := ⟨0x240061F, 1⟩
abbrev F.BOOT_UPD_STAT_RESULT : Fld := ⟨0x2400618, 4⟩
abbrev F.BOOT_UPD_STAT_KIB_DONE : Fld := ⟨0x2400600, 24⟩
abbrev F.BOOT_STEP (k : Nat) : Fld := ⟨(0x120048 + (k - 1) * 0x8) * 32 + 0, 64⟩
abbrev F.SEC_STAT_LC_REFUSED : Fld := ⟨0x280000C, 1⟩
abbrev F.SEC_STAT_LC_DONE : Fld := ⟨0x280000B, 1⟩
abbrev F.SEC_STAT_DENY : Fld := ⟨0x280000A, 1⟩
abbrev F.SEC_STAT_DEBUG_OPENED : Fld := ⟨0x2800009, 1⟩
abbrev F.SEC_STAT_SESSION : Fld := ⟨0x2800005, 1⟩
abbrev F.SEC_STAT_DEBUG_OPEN : Fld := ⟨0x2800004, 1⟩
abbrev F.SEC_STAT_STORE_KEY : Fld := ⟨0x2800003, 1⟩
abbrev F.SEC_LC_PEND : Fld := ⟨0x280009F, 1⟩
abbrev F.SEC_LC_GEN_DONE : Fld := ⟨0x280009E, 1⟩
abbrev F.SEC_LC_TARGET : Fld := ⟨0x280009B, 3⟩
abbrev F.SEC_LC_OWNER_SLOT : Fld := ⟨0x2800086, 2⟩
abbrev F.SEC_LC_STATE : Fld := ⟨0x2800080, 3⟩
abbrev F.SEC_LC_NONCE (i : Nat) : Fld := ⟨(0x140008 + i * 0x4) * 32 + 0, 32⟩
abbrev F.SEC_LC_WHY : Fld := ⟨0x2800300, 4⟩
abbrev F.SEC_GEN_OWNERS : Fld := ⟨0x2800388, 3⟩
abbrev F.SEC_GEN_STORE_GEN : Fld := ⟨0x2800380, 5⟩
abbrev F.SEC_SERIAL : Fld := ⟨0x2800400, 64⟩
abbrev F.SEC_POLICY : Fld := ⟨0x2800500, 64⟩
abbrev F.SEC_DENY_CAP_REQUESTER : Fld := ⟨0x2800604, 4⟩
abbrev F.SEC_DENY_CAP_ACTION : Fld := ⟨0x2800600, 4⟩
abbrev F.SEC_DENY_CNT : Fld := ⟨0x2800680, 32⟩
abbrev F.SEC_SELFTEST_DONE : Fld := ⟨0x280071F, 1⟩
abbrev F.SEC_SELFTEST_FAIL : Fld := ⟨0x280071E, 1⟩
abbrev F.SEC_SELFTEST_PASSED : Fld := ⟨0x2800700, 6⟩
abbrev F.SEC_ROM_REV : Fld := ⟨0x2800780, 32⟩
abbrev F.SEC_SPDM_VERSION : Fld := ⟨0x2800808, 8⟩
abbrev F.SEC_SPDM_SESSIONS : Fld := ⟨0x2800800, 2⟩
abbrev F.SEC_MEAS_SEL_WORD : Fld := ⟨0x2801004, 4⟩
abbrev F.SEC_MEAS_SEL_INDEX : Fld := ⟨0x2801000, 4⟩
abbrev F.SEC_MEAS_DATA : Fld := ⟨0x2801080, 32⟩
abbrev F.STW_STAT_BATCH_DONE : Fld := ⟨0x2C0000F, 1⟩
abbrev F.STW_STAT_STW_OUT : Fld := ⟨0x2C0000E, 1⟩
abbrev F.STW_STAT_STW_RESET : Fld := ⟨0x2C0000D, 1⟩
abbrev F.STW_STAT_WDOG_WARN : Fld := ⟨0x2C0000C, 1⟩
abbrev F.STW_STAT_DUP : Fld := ⟨0x2C0000B, 1⟩
abbrev F.STW_STAT_RECLAIM : Fld := ⟨0x2C0000A, 1⟩
abbrev F.STW_STAT_MBOX_DONE : Fld := ⟨0x2C00009, 1⟩
abbrev F.STW_STAT_MBOX_REQ : Fld := ⟨0x2C00008, 1⟩
abbrev F.STW_STAT_WFI : Fld := ⟨0x2C00004, 4⟩
abbrev F.STW_TICKET_EMPTY : Fld := ⟨0x2C0021F, 1⟩
abbrev F.STW_TICKET_RECLAIMED : Fld := ⟨0x2C0021E, 1⟩
abbrev F.STW_TICKET_HELD_FULL : Fld := ⟨0x2C0021D, 1⟩
abbrev F.STW_TICKET_NEXT_ONLY : Fld := ⟨0x2C0021C, 1⟩
abbrev F.STW_TICKET_TICKET : Fld := ⟨0x2C00200, 20⟩
abbrev F.STW_COMMIT : Fld := ⟨0x2C00280, 20⟩
abbrev F.STW_COMMIT_RES_VALID (n : Nat) : Fld := ⟨(0x160018 + n * 0x4) * 32 + 31, 1⟩
abbrev F.STW_COMMIT_RES_WON (n : Nat) : Fld := ⟨(0x160018 + n * 0x4) * 32 + 30, 1⟩
abbrev F.STW_COMMIT_RES_TICKET (n : Nat) : Fld := ⟨(0x160018 + n * 0x4) * 32 + 0, 20⟩
abbrev F.STW_CORE_RESETS (n : Nat) : Fld := ⟨(0x160030 + n * 0x4) * 32 + 24, 8⟩
abbrev F.STW_CORE_HELD (n : Nat) : Fld := ⟨(0x160030 + n * 0x4) * 32 + 16, 5⟩
abbrev F.STW_CORE_STATE (n : Nat) : Fld := ⟨(0x160030 + n * 0x4) * 32 + 0, 2⟩
abbrev F.STW_BATCH_OPEN : Fld := ⟨0x2C0081F, 1⟩
abbrev F.STW_BATCH_KIND : Fld := ⟨0x2C00815, 2⟩
abbrev F.STW_BATCH_COUNT : Fld := ⟨0x2C00800, 21⟩
abbrev F.STW_BATCH_ID : Fld := ⟨0x2C00880, 32⟩
abbrev F.STW_NEXT : Fld := ⟨0x2C00900, 32⟩
abbrev F.STW_DONE : Fld := ⟨0x2C00980, 32⟩
abbrev F.STW_RECLAIM_LEN : Fld := ⟨0x2C00A00, 32⟩
abbrev F.STW_WDOG : Fld := ⟨0x2C00A80, 10⟩
abbrev F.STW_CNT_COMMIT : Fld := ⟨0x2C00C00, 32⟩
abbrev F.STW_CNT_DUP : Fld := ⟨0x2C00C80, 32⟩
abbrev F.STW_CNT_RECLAIM : Fld := ⟨0x2C00D00, 32⟩
abbrev F.STW_CNT_RESET : Fld := ⟨0x2C00D80, 32⟩
abbrev F.STW_CNT_MBOX : Fld := ⟨0x2C00E00, 32⟩
abbrev F.STW_CNT_MBOX_ERR : Fld := ⟨0x2C00E80, 32⟩
abbrev F.IRQ_PEND (k : Nat) : Fld := ⟨(0x180000 + k * 0x4) * 32 + 0, 32⟩
abbrev F.IRQ_EN (k : Nat) : Fld := ⟨(0x180060 + k * 0x4) * 32 + 0, 32⟩
abbrev F.IRQ_LINE (k : Nat) : Fld := ⟨(0x1800C0 + k * 0x4) * 32 + 0, 32⟩
abbrev F.IRQ_INSVC (k : Nat) : Fld := ⟨(0x1800E0 + k * 0x4) * 32 + 0, 32⟩
abbrev F.TGT_THRESH (t : Nat) : Fld := ⟨(0x180200 + t * 0x20) * 32 + 0, 4⟩
abbrev F.TGT_CLAIM_VALID (t : Nat) : Fld := ⟨(0x180204 + t * 0x20) * 32 + 8, 1⟩
abbrev F.TGT_CLAIM_SOURCE (t : Nat) : Fld := ⟨(0x180204 + t * 0x20) * 32 + 0, 8⟩
abbrev F.TGT_COMPLETE (t : Nat) : Fld := ⟨(0x180208 + t * 0x20) * 32 + 0, 8⟩
abbrev F.TGT_RUN_DEPTH (t : Nat) : Fld := ⟨(0x18020C + t * 0x20) * 32 + 4, 4⟩
abbrev F.TGT_RUN_RUN (t : Nat) : Fld := ⟨(0x18020C + t * 0x20) * 32 + 0, 4⟩
abbrev F.TGT_MOD (t : Nat) : Fld := ⟨(0x180210 + t * 0x20) * 32 + 0, 10⟩
abbrev F.TGT_STAT_ASSERTED (t : Nat) : Fld := ⟨(0x180214 + t * 0x20) * 32 + 2, 1⟩
abbrev F.TGT_STAT_HELD (t : Nat) : Fld := ⟨(0x180214 + t * 0x20) * 32 + 1, 1⟩
abbrev F.TGT_STAT_WFI (t : Nat) : Fld := ⟨(0x180214 + t * 0x20) * 32 + 0, 1⟩
abbrev F.TGT_CNT_DELIVER (t : Nat) : Fld := ⟨(0x180218 + t * 0x20) * 32 + 0, 32⟩
abbrev F.TGT_CNT_BADCOMP (t : Nat) : Fld := ⟨(0x18021C + t * 0x20) * 32 + 0, 32⟩
abbrev F.IRQ_HOST_EOI : Fld := ⟨0x3006000, 8⟩
abbrev F.IRQ_LATCH_I3C_WAKE : Fld := ⟨0x3008004, 1⟩
abbrev F.IRQ_LATCH_LOUVRE1 : Fld := ⟨0x3008003, 1⟩
abbrev F.IRQ_LATCH_LOUVRE0 : Fld := ⟨0x3008002, 1⟩
abbrev F.IRQ_LATCH_WAKE : Fld := ⟨0x3008001, 1⟩
abbrev F.IRQ_LATCH_EJECT : Fld := ⟨0x3008000, 1⟩
abbrev F.IRQ_PINS_LOUVRE1 : Fld := ⟨0x3008083, 1⟩
abbrev F.IRQ_PINS_LOUVRE0 : Fld := ⟨0x3008082, 1⟩
abbrev F.IRQ_PINS_WAKE : Fld := ⟨0x3008081, 1⟩
abbrev F.IRQ_PINS_EJECT : Fld := ⟨0x3008080, 1⟩
abbrev F.IRQ_SRC_HOST_VEC (s : Nat) : Fld := ⟨(0x181000 + s * 0x4) * 32 + 16, 8⟩
abbrev F.IRQ_SRC_FILTER (s : Nat) : Fld := ⟨(0x181000 + s * 0x4) * 32 + 8, 6⟩
abbrev F.IRQ_SRC_EDGE (s : Nat) : Fld := ⟨(0x181000 + s * 0x4) * 32 + 7, 1⟩
abbrev F.IRQ_SRC_TARGET (s : Nat) : Fld := ⟨(0x181000 + s * 0x4) * 32 + 4, 3⟩
abbrev F.IRQ_SRC_PRIO (s : Nat) : Fld := ⟨(0x181000 + s * 0x4) * 32 + 0, 4⟩
abbrev F.MSIX_ADDRESS (v : Nat) : Fld := ⟨(0x190000 + v * 0x10) * 32 + 0, 64⟩
abbrev F.MSIX_DATA (v : Nat) : Fld := ⟨(0x190008 + v * 0x10) * 32 + 0, 32⟩
abbrev F.MSIX_CTL (v : Nat) : Fld := ⟨(0x19000C + v * 0x10) * 32 + 0, 1⟩
abbrev F.MSIX_PBA (w : Nat) : Fld := ⟨(0x191000 + w * 0x4) * 32 + 0, 32⟩
abbrev F.TEL_TEMP_VALID (c : Nat) : Fld := ⟨(0x1A0000 + c * 0x4) * 32 + 12, 1⟩
abbrev F.TEL_TEMP_TEMP (c : Nat) : Fld := ⟨(0x1A0000 + c * 0x4) * 32 + 0, 12⟩
abbrev F.TEL_TEMP_MAX_CLUSTER : Fld := ⟨0x340200C, 6⟩
abbrev F.TEL_TEMP_MAX_TEMP : Fld := ⟨0x3402000, 12⟩
abbrev F.TEL_TEMP_PEAK_CLUSTER : Fld := ⟨0x340208C, 6⟩
abbrev F.TEL_TEMP_PEAK_TEMP : Fld := ⟨0x3402080, 12⟩
abbrev F.TEL_PORT_TEMP_EAST : Fld := ⟨0x3402110, 12⟩
abbrev F.TEL_PORT_TEMP_WEST : Fld := ⟨0x3402100, 12⟩
abbrev F.TEL_AON_TEMP : Fld := ⟨0x3402180, 12⟩
abbrev F.TEL_HBM_TEMP_VALID (s : Nat) : Fld := ⟨(0x1A0110 + s * 0x4) * 32 + 8, 1⟩
abbrev F.TEL_HBM_TEMP_TEMP_C (s : Nat) : Fld := ⟨(0x1A0110 + s * 0x4) * 32 + 0, 8⟩
abbrev F.TEL_VID (p : Nat) : Fld := ⟨(0x1A0130 + p * 0x4) * 32 + 0, 12⟩
abbrev F.TEL_VMON_DROOP (v : Nat) : Fld := ⟨(0x1A0200 + v * 0x4) * 32 + 24, 1⟩
abbrev F.TEL_VMON_MIN_MV (v : Nat) : Fld := ⟨(0x1A0200 + v * 0x4) * 32 + 12, 12⟩
abbrev F.TEL_VMON_NOW_MV (v : Nat) : Fld := ⟨(0x1A0200 + v * 0x4) * 32 + 0, 12⟩
abbrev F.TEL_DROOP_CNT (v : Nat) : Fld := ⟨(0x1A0280 + v * 0x4) * 32 + 0, 32⟩
abbrev F.TEL_PMON (d : Nat) (m : Nat) : Fld := ⟨(0x1A0300 + d * 0x20 + m * 0x4) * 32 + 0, 16⟩
abbrev F.TEL_PGRADE : Fld := ⟨0x3406C00, 4⟩
abbrev F.TEL_RAIL_V (r : Nat) : Fld := ⟨(0x1A0400 + r * 0x8) * 32 + 0, 16⟩
abbrev F.TEL_RAIL_I (r : Nat) : Fld := ⟨(0x1A0404 + r * 0x8) * 32 + 0, 16⟩
abbrev F.TEL_CLR_DROOP : Fld := ⟨0x340A002, 1⟩
abbrev F.TEL_CLR_MIN : Fld := ⟨0x340A001, 1⟩
abbrev F.TEL_CLR_PEAK : Fld := ⟨0x340A000, 1⟩

end Sys2Proof.Machine
end

