-- ==== Sys2Proof/Machine/RegTable.lean ====
section
/-! DEFINITION. The register table: every register of the control window with its fields, their access codes, reset
values, kinds and legal encodings, as the register tables of the spec's chapters give them (R20 to R23, R46, R48). -/
namespace Sys2Proof.Machine

/-- The access codes of R21. -/
inductive Access where
  | ro | rw | wo | w1c | w1s | rwl
  deriving DecidableEq, Repr

/-- Where a field's value comes from at reset (R23). -/
inductive FieldSource where
  | plain | fuse | image
  deriving DecidableEq, Repr

/-- One field of a register: its place in the 32-bit word, its access code, and the key under which its value is
stored. The halves of a wide value share one key (`shift` 32 in the high half); a field the spec calls a copy has the
key of the field it copies. -/
structure FieldSpec where
  lo : Nat
  width : Nat
  acc : Access
  keyOff : Nat
  keyLo : Nat
  shift : Nat := 0
  rst : Nat := 0
  keep : Bool := false
  src : FieldSource := .plain
  legal : Option (Nat × Nat) := none
  deriving DecidableEq, Repr

/-- One register, or an array of registers of one layout: `dims` lists the count and stride of each index. -/
structure RegSpec where
  off : Nat
  dims : List (Nat × Nat)
  fields : List FieldSpec
  deriving DecidableEq, Repr

/-- Registers of the DEV block (DEV), part 1. -/
def regsDev1 : List RegSpec := [
    -- DEV_ID
    { off := 0x0, dims := [], fields := [
      { lo := 16, width := 16, acc := .ro, keyOff := 0x0, keyLo := 16, rst := 0x4851 },
      { lo := 0, width := 16, acc := .ro, keyOff := 0x0, keyLo := 0, rst := 0x9 }] },
    -- DEV_REV
    { off := 0x4, dims := [], fields := [
      { lo := 4, width := 4, acc := .ro, keyOff := 0x4, keyLo := 4, rst := 0xA },
      { lo := 0, width := 4, acc := .ro, keyOff := 0x4, keyLo := 0, rst := 0x1 }] },
    -- DEV_CAP0
    { off := 0x8, dims := [], fields := [
      { lo := 16, width := 16, acc := .ro, keyOff := 0x8, keyLo := 16 },
      { lo := 8, width := 8, acc := .ro, keyOff := 0x8, keyLo := 8 },
      { lo := 0, width := 2, acc := .ro, keyOff := 0x8, keyLo := 0, keep := true, src := .fuse }] },
    -- DEV_CAP1
    { off := 0xC, dims := [], fields := [
      { lo := 16, width := 4, acc := .ro, keyOff := 0xC, keyLo := 16 },
      { lo := 0, width := 16, acc := .ro, keyOff := 0xC, keyLo := 0 }] },
    -- DEV_CAP2
    { off := 0x10, dims := [], fields := [
      { lo := 0, width := 16, acc := .ro, keyOff := 0x10, keyLo := 0 }] },
    -- DEV_POS
    { off := 0x14, dims := [], fields := [
      { lo := 0, width := 3, acc := .ro, keyOff := 0x14, keyLo := 0 }] },
    -- DEV_AERR
    { off := 0x18, dims := [], fields := [
      { lo := 3, width := 1, acc := .w1c, keyOff := 0x18, keyLo := 3 },
      { lo := 2, width := 1, acc := .w1c, keyOff := 0x18, keyLo := 2 },
      { lo := 1, width := 1, acc := .w1c, keyOff := 0x18, keyLo := 1 },
      { lo := 0, width := 1, acc := .w1c, keyOff := 0x18, keyLo := 0 }] },
    -- DEV_AERR_CNT
    { off := 0x1C, dims := [], fields := [
      { lo := 0, width := 32, acc := .ro, keyOff := 0x1C, keyLo := 0 }] },
    -- DEV_AERR_LO
    { off := 0x20, dims := [], fields := [
      { lo := 0, width := 32, acc := .ro, keyOff := 0x20, keyLo := 0 }] },
    -- DEV_AERR_HI
    { off := 0x24, dims := [], fields := [
      { lo := 19, width := 1, acc := .ro, keyOff := 0x24, keyLo := 19 },
      { lo := 16, width := 3, acc := .ro, keyOff := 0x24, keyLo := 16 },
      { lo := 0, width := 16, acc := .ro, keyOff := 0x24, keyLo := 0 }] },
    -- DEV_SCRATCH
    { off := 0x28, dims := [], fields := [
      { lo := 0, width := 32, acc := .rw, keyOff := 0x28, keyLo := 0, keep := true }] }]

/-- Registers of the TICK block (TICK), part 1. -/
def regsTick1 : List RegSpec := [
    -- TICK_STAT
    { off := 0x10000, dims := [], fields := [
      { lo := 12, width := 1, acc := .w1c, keyOff := 0x10000, keyLo := 12 },
      { lo := 11, width := 1, acc := .w1c, keyOff := 0x10000, keyLo := 11 },
      { lo := 10, width := 1, acc := .w1c, keyOff := 0x10000, keyLo := 10 },
      { lo := 9, width := 1, acc := .w1c, keyOff := 0x10000, keyLo := 9 },
      { lo := 8, width := 1, acc := .w1c, keyOff := 0x10000, keyLo := 8 },
      { lo := 5, width := 1, acc := .ro, keyOff := 0x10000, keyLo := 5 },
      { lo := 4, width := 1, acc := .ro, keyOff := 0x10000, keyLo := 4 },
      { lo := 3, width := 1, acc := .ro, keyOff := 0x10000, keyLo := 3 },
      { lo := 2, width := 1, acc := .ro, keyOff := 0x10000, keyLo := 2 },
      { lo := 1, width := 1, acc := .ro, keyOff := 0x10000, keyLo := 1, src := .image },
      { lo := 0, width := 1, acc := .ro, keyOff := 0x10000, keyLo := 0 }] },
    -- TICK_PERIOD
    { off := 0x10004, dims := [], fields := [
      { lo := 16, width := 14, acc := .ro, keyOff := 0x10004, keyLo := 16, src := .image, legal := some (100, 16000) },
      { lo := 0, width := 14, acc := .ro, keyOff := 0x10004, keyLo := 0, src := .image, legal := some (100, 16000) }] },
    -- TICK_FRAME
    { off := 0x10008, dims := [], fields := [
      { lo := 0, width := 25, acc := .ro, keyOff := 0x10008, keyLo := 0 }] },
    -- TICK_DRAIN
    { off := 0x1000C, dims := [], fields := [
      { lo := 0, width := 18, acc := .ro, keyOff := 0x1000C, keyLo := 0 }] },
    -- TICK_NOW_LO
    { off := 0x10010, dims := [], fields := [
      { lo := 0, width := 32, acc := .ro, keyOff := 0x10010, keyLo := 0, keep := true }] },
    -- TICK_NOW_HI
    { off := 0x10014, dims := [], fields := [
      { lo := 0, width := 16, acc := .ro, keyOff := 0x10010, keyLo := 0, shift := 32, keep := true }] },
    -- TICK_CIF
    { off := 0x10018, dims := [], fields := [
      { lo := 29, width := 1, acc := .ro, keyOff := 0x10018, keyLo := 29 },
      { lo := 25, width := 4, acc := .ro, keyOff := 0x10018, keyLo := 25 },
      { lo := 0, width := 25, acc := .ro, keyOff := 0x10018, keyLo := 0 }] },
    -- TICK_CAP
    { off := 0x1001C, dims := [], fields := [
      { lo := 0, width := 1, acc := .wo, keyOff := 0x1001C, keyLo := 0 }] },
    -- TICK_CAP_NUM_LO
    { off := 0x10020, dims := [], fields := [
      { lo := 0, width := 32, acc := .ro, keyOff := 0x10020, keyLo := 0 }] },
    -- TICK_CAP_NUM_HI
    { off := 0x10024, dims := [], fields := [
      { lo := 0, width := 16, acc := .ro, keyOff := 0x10020, keyLo := 0, shift := 32 }] },
    -- TICK_CAP_CIF
    { off := 0x10028, dims := [], fields := [
      { lo := 25, width := 1, acc := .ro, keyOff := 0x10028, keyLo := 25 },
      { lo := 0, width := 25, acc := .ro, keyOff := 0x10028, keyLo := 0 }] },
    -- TICK_CAP_DT_LO
    { off := 0x1002C, dims := [], fields := [
      { lo := 0, width := 32, acc := .ro, keyOff := 0x1002C, keyLo := 0 }] },
    -- TICK_CAP_DT_HI
    { off := 0x10030, dims := [], fields := [
      { lo := 0, width := 32, acc := .ro, keyOff := 0x1002C, keyLo := 0, shift := 32 }] },
    -- TICK_DT_LO
    { off := 0x10034, dims := [], fields := [
      { lo := 0, width := 32, acc := .ro, keyOff := 0x10034, keyLo := 0, keep := true }] },
    -- TICK_DT_HI
    { off := 0x10038, dims := [], fields := [
      { lo := 0, width := 32, acc := .ro, keyOff := 0x10034, keyLo := 0, shift := 32, keep := true }] },
    -- TICK_LAST_LO
    { off := 0x1003C, dims := [], fields := [
      { lo := 0, width := 32, acc := .ro, keyOff := 0x1003C, keyLo := 0 }] },
    -- TICK_LAST_HI
    { off := 0x10040, dims := [], fields := [
      { lo := 0, width := 32, acc := .ro, keyOff := 0x1003C, keyLo := 0, shift := 32 }] },
    -- TICK_NEXT_LO
    { off := 0x10044, dims := [], fields := [
      { lo := 0, width := 32, acc := .ro, keyOff := 0x10044, keyLo := 0 }] },
    -- TICK_NEXT_HI
    { off := 0x10048, dims := [], fields := [
      { lo := 0, width := 32, acc := .ro, keyOff := 0x10044, keyLo := 0, shift := 32 }] },
    -- TICK_ORIGIN_LO
    { off := 0x1004C, dims := [], fields := [
      { lo := 0, width := 32, acc := .ro, keyOff := 0x1004C, keyLo := 0, keep := true }] }]

/-- Registers of the TICK block (TICK), part 2. -/
def regsTick2 : List RegSpec := [
    -- TICK_ORIGIN_HI
    { off := 0x10050, dims := [], fields := [
      { lo := 0, width := 32, acc := .ro, keyOff := 0x1004C, keyLo := 0, shift := 32, keep := true }] },
    -- TICK_SYNC
    { off := 0x10054, dims := [], fields := [
      { lo := 20, width := 3, acc := .ro, keyOff := 0x10054, keyLo := 20, src := .image },
      { lo := 16, width := 4, acc := .ro, keyOff := 0x10054, keyLo := 16, src := .image },
      { lo := 0, width := 16, acc := .ro, keyOff := 0x10054, keyLo := 0 }] },
    -- TICK_SYNC_CFG
    { off := 0x10058, dims := [], fields := [
      { lo := 0, width := 10, acc := .rwl, keyOff := 0x10058, keyLo := 0, src := .image, legal := some (32, 1000) }] },
    -- TICK_STRETCH_CFG
    { off := 0x1005C, dims := [], fields := [
      { lo := 16, width := 14, acc := .rwl, keyOff := 0x1005C, keyLo := 16, src := .image, legal := some (1, 16000) },
      { lo := 0, width := 10, acc := .rwl, keyOff := 0x1005C, keyLo := 0, src := .image, legal := some (5, 1000) }] },
    -- TICK_PERIOD_AT_LO
    { off := 0x10060, dims := [], fields := [
      { lo := 0, width := 32, acc := .ro, keyOff := 0x10060, keyLo := 0 }] },
    -- TICK_PERIOD_AT_HI
    { off := 0x10064, dims := [], fields := [
      { lo := 0, width := 16, acc := .ro, keyOff := 0x10060, keyLo := 0, shift := 32 }] },
    -- TICK_STRETCH_LAST
    { off := 0x10068, dims := [], fields := [
      { lo := 18, width := 10, acc := .ro, keyOff := 0x10068, keyLo := 18 },
      { lo := 14, width := 4, acc := .ro, keyOff := 0x10068, keyLo := 14 },
      { lo := 0, width := 14, acc := .ro, keyOff := 0x10068, keyLo := 0 }] },
    -- TICK_STRETCH_NUM_LO
    { off := 0x1006C, dims := [], fields := [
      { lo := 0, width := 32, acc := .ro, keyOff := 0x1006C, keyLo := 0 }] },
    -- TICK_STRETCH_NUM_HI
    { off := 0x10070, dims := [], fields := [
      { lo := 0, width := 16, acc := .ro, keyOff := 0x1006C, keyLo := 0, shift := 32 }] },
    -- TICK_CNT_STRETCH
    { off := 0x10074, dims := [], fields := [
      { lo := 0, width := 32, acc := .ro, keyOff := 0x10074, keyLo := 0 }] },
    -- TICK_CNT_OVERRUN
    { off := 0x10078, dims := [], fields := [
      { lo := 0, width := 32, acc := .ro, keyOff := 0x10078, keyLo := 0 }] },
    -- TICK_CNT_ALIGN
    { off := 0x1007C, dims := [], fields := [
      { lo := 0, width := 32, acc := .ro, keyOff := 0x1007C, keyLo := 0 }] },
    -- TICK_CNT_LATE_REQ
    { off := 0x10080, dims := [], fields := [
      { lo := 0, width := 32, acc := .ro, keyOff := 0x10080, keyLo := 0 }] },
    -- TICK_PHASE_START
    { off := 0x10100, dims := [(16, 0x4)], fields := [
      { lo := 25, width := 1, acc := .ro, keyOff := 0x10100, keyLo := 25 },
      { lo := 0, width := 25, acc := .ro, keyOff := 0x10100, keyLo := 0 }] }]

/-- Registers of the CFG block (CFG), part 1. -/
def regsCfg1 : List RegSpec := [
    -- CFG_STAT
    { off := 0x20000, dims := [], fields := [
      { lo := 15, width := 1, acc := .w1c, keyOff := 0x20000, keyLo := 15 },
      { lo := 14, width := 1, acc := .w1c, keyOff := 0x20000, keyLo := 14 },
      { lo := 13, width := 1, acc := .w1c, keyOff := 0x20000, keyLo := 13 },
      { lo := 12, width := 1, acc := .w1c, keyOff := 0x20000, keyLo := 12 },
      { lo := 11, width := 1, acc := .w1c, keyOff := 0x20000, keyLo := 11 },
      { lo := 10, width := 1, acc := .w1c, keyOff := 0x20000, keyLo := 10 },
      { lo := 9, width := 1, acc := .w1c, keyOff := 0x20000, keyLo := 9 },
      { lo := 8, width := 1, acc := .w1c, keyOff := 0x20000, keyLo := 8 },
      { lo := 5, width := 1, acc := .ro, keyOff := 0x20048, keyLo := 4 },
      { lo := 4, width := 1, acc := .ro, keyOff := 0x20000, keyLo := 4 },
      { lo := 3, width := 1, acc := .ro, keyOff := 0x20000, keyLo := 3 },
      { lo := 2, width := 1, acc := .ro, keyOff := 0x20000, keyLo := 2 },
      { lo := 1, width := 1, acc := .ro, keyOff := 0x20000, keyLo := 1 },
      { lo := 0, width := 1, acc := .ro, keyOff := 0x20000, keyLo := 0 }] },
    -- CFG_LIVE_ID
    { off := 0x20004, dims := [], fields := [
      { lo := 0, width := 32, acc := .ro, keyOff := 0x20004, keyLo := 0 }] },
    -- CFG_LIVE_MODEL
    { off := 0x20008, dims := [], fields := [
      { lo := 0, width := 32, acc := .ro, keyOff := 0x20008, keyLo := 0 }] },
    -- CFG_IDLE_ID
    { off := 0x2000C, dims := [], fields := [
      { lo := 0, width := 32, acc := .ro, keyOff := 0x2000C, keyLo := 0 }] },
    -- CFG_IDLE_MODEL
    { off := 0x20010, dims := [], fields := [
      { lo := 0, width := 32, acc := .ro, keyOff := 0x20010, keyLo := 0 }] },
    -- CFG_NEXT
    { off := 0x20014, dims := [], fields := [
      { lo := 2, width := 1, acc := .ro, keyOff := 0x20014, keyLo := 2, rst := 0x1 },
      { lo := 1, width := 1, acc := .ro, keyOff := 0x20014, keyLo := 1 },
      { lo := 0, width := 1, acc := .ro, keyOff := 0x20014, keyLo := 0 }] },
    -- CFG_LOAD_AC
    { off := 0x20018, dims := [], fields := [
      { lo := 16, width := 16, acc := .ro, keyOff := 0x20018, keyLo := 16 },
      { lo := 0, width := 16, acc := .ro, keyOff := 0x20018, keyLo := 0 }] },
    -- CFG_REJ_INFO
    { off := 0x2001C, dims := [], fields := [
      { lo := 28, width := 4, acc := .ro, keyOff := 0x2001C, keyLo := 28 },
      { lo := 10, width := 12, acc := .ro, keyOff := 0x2001C, keyLo := 10 },
      { lo := 0, width := 10, acc := .ro, keyOff := 0x2001C, keyLo := 0 }] },
    -- CFG_REJ_ID
    { off := 0x20020, dims := [], fields := [
      { lo := 0, width := 32, acc := .ro, keyOff := 0x20020, keyLo := 0 }] },
    -- CFG_DRAIN
    { off := 0x20024, dims := [], fields := [
      { lo := 8, width := 8, acc := .ro, keyOff := 0x20024, keyLo := 8 },
      { lo := 0, width := 8, acc := .ro, keyOff := 0x20024, keyLo := 0 }] },
    -- CFG_HOLD_AC
    { off := 0x20028, dims := [], fields := [
      { lo := 0, width := 18, acc := .ro, keyOff := 0x20028, keyLo := 0 }] },
    -- CFG_REPLAY_CFG
    { off := 0x2002C, dims := [], fields := [
      { lo := 0, width := 2, acc := .rwl, keyOff := 0x2002C, keyLo := 0, src := .image, legal := some (1, 3) }] },
    -- CFG_REPLAY
    { off := 0x20030, dims := [], fields := [
      { lo := 0, width := 2, acc := .ro, keyOff := 0x20030, keyLo := 0 }] },
    -- CFG_MODE
    { off := 0x20040, dims := [], fields := [
      { lo := 0, width := 3, acc := .ro, keyOff := 0x20040, keyLo := 0, src := .image }] },
    -- CFG_MODE_REQ
    { off := 0x20044, dims := [], fields := [
      { lo := 0, width := 3, acc := .wo, keyOff := 0x20044, keyLo := 0 }] },
    -- CFG_MODE_STAT
    { off := 0x20048, dims := [], fields := [
      { lo := 5, width := 3, acc := .ro, keyOff := 0x20048, keyLo := 5 },
      { lo := 4, width := 1, acc := .ro, keyOff := 0x20048, keyLo := 4 },
      { lo := 0, width := 4, acc := .ro, keyOff := 0x20048, keyLo := 0 }] },
    -- CFG_MODE_AT_LO
    { off := 0x2004C, dims := [], fields := [
      { lo := 0, width := 32, acc := .ro, keyOff := 0x2004C, keyLo := 0 }] },
    -- CFG_MODE_AT_HI
    { off := 0x20050, dims := [], fields := [
      { lo := 0, width := 16, acc := .ro, keyOff := 0x2004C, keyLo := 0, shift := 32 }] },
    -- CFG_CNT_LOAD
    { off := 0x20060, dims := [], fields := [
      { lo := 0, width := 32, acc := .ro, keyOff := 0x20060, keyLo := 0 }] },
    -- CFG_CNT_REJECT
    { off := 0x20064, dims := [], fields := [
      { lo := 0, width := 32, acc := .ro, keyOff := 0x20064, keyLo := 0 }] }]

/-- Registers of the CFG block (CFG), part 2. -/
def regsCfg2 : List RegSpec := [
    -- CFG_CNT_HELD
    { off := 0x20068, dims := [], fields := [
      { lo := 0, width := 32, acc := .ro, keyOff := 0x20068, keyLo := 0 }] },
    -- CFG_CNT_ABORT
    { off := 0x2006C, dims := [], fields := [
      { lo := 0, width := 32, acc := .ro, keyOff := 0x2006C, keyLo := 0 }] },
    -- CFG_CNT_EMPTY
    { off := 0x20070, dims := [], fields := [
      { lo := 0, width := 32, acc := .ro, keyOff := 0x20070, keyLo := 0 }] },
    -- CFG_CNT_REPLAY_FAIL
    { off := 0x20074, dims := [], fields := [
      { lo := 0, width := 32, acc := .ro, keyOff := 0x20074, keyLo := 0 }] }]

/-- Registers of the ARR block (ARR), part 1. -/
def regsArr1 : List RegSpec := [
    -- ARR_STAT
    { off := 0x40000, dims := [], fields := [
      { lo := 12, width := 1, acc := .w1c, keyOff := 0x40000, keyLo := 12 },
      { lo := 11, width := 1, acc := .w1c, keyOff := 0x40000, keyLo := 11 },
      { lo := 10, width := 1, acc := .w1c, keyOff := 0x40000, keyLo := 10 },
      { lo := 9, width := 1, acc := .w1c, keyOff := 0x40000, keyLo := 9 },
      { lo := 4, width := 1, acc := .ro, keyOff := 0x40024, keyLo := 31 },
      { lo := 3, width := 1, acc := .ro, keyOff := 0x40000, keyLo := 3 },
      { lo := 2, width := 1, acc := .ro, keyOff := 0x40000, keyLo := 2 },
      { lo := 1, width := 1, acc := .ro, keyOff := 0x40000, keyLo := 1 },
      { lo := 0, width := 1, acc := .ro, keyOff := 0x40000, keyLo := 0 }] },
    -- ARR_FAULT_CNT
    { off := 0x40004, dims := [], fields := [
      { lo := 0, width := 32, acc := .ro, keyOff := 0x40004, keyLo := 0 }] },
    -- ARR_CE_CNT
    { off := 0x40018, dims := [], fields := [
      { lo := 0, width := 32, acc := .ro, keyOff := 0x40018, keyLo := 0 }] },
    -- ARR_UE_CNT
    { off := 0x4001C, dims := [], fields := [
      { lo := 0, width := 32, acc := .ro, keyOff := 0x4001C, keyLo := 0 }] },
    -- ARR_FAULT_EVT
    { off := 0x4002C, dims := [], fields := [
      { lo := 0, width := 32, acc := .ro, keyOff := 0x4002C, keyLo := 0 }] },
    -- ARR_FCAP_TICK_LO
    { off := 0x40008, dims := [], fields := [
      { lo := 0, width := 32, acc := .ro, keyOff := 0x40008, keyLo := 0 }] },
    -- ARR_FCAP_TICK_HI
    { off := 0x4000C, dims := [], fields := [
      { lo := 0, width := 16, acc := .ro, keyOff := 0x40008, keyLo := 0, shift := 32 }] },
    -- ARR_FCAP_CIF
    { off := 0x40010, dims := [], fields := [
      { lo := 0, width := 25, acc := .ro, keyOff := 0x40010, keyLo := 0 }] },
    -- ARR_FCAP_INFO
    { off := 0x40014, dims := [], fields := [
      { lo := 28, width := 4, acc := .ro, keyOff := 0x40014, keyLo := 28 },
      { lo := 25, width := 3, acc := .ro, keyOff := 0x40014, keyLo := 25 },
      { lo := 0, width := 12, acc := .ro, keyOff := 0x40014, keyLo := 0 }] },
    -- ARR_COLMAP
    { off := 0x40020, dims := [], fields := [
      { lo := 8, width := 7, acc := .ro, keyOff := 0x40020, keyLo := 8, keep := true, src := .fuse },
      { lo := 0, width := 7, acc := .ro, keyOff := 0x40020, keyLo := 0, keep := true, src := .fuse }] },
    -- ARR_RETIRE
    { off := 0x40024, dims := [], fields := [
      { lo := 31, width := 1, acc := .ro, keyOff := 0x40024, keyLo := 31 },
      { lo := 30, width := 1, acc := .ro, keyOff := 0x40024, keyLo := 30 },
      { lo := 8, width := 7, acc := .ro, keyOff := 0x40024, keyLo := 8, rst := 0x7F },
      { lo := 0, width := 7, acc := .ro, keyOff := 0x40024, keyLo := 0, rst := 0x7F }] },
    -- ARR_QBUSY
    { off := 0x40028, dims := [], fields := [
      { lo := 16, width := 1, acc := .ro, keyOff := 0x40028, keyLo := 16 },
      { lo := 0, width := 13, acc := .ro, keyOff := 0x40028, keyLo := 0 }] },
    -- ARR_CELL_SEL
    { off := 0x40030, dims := [], fields := [
      { lo := 0, width := 12, acc := .rw, keyOff := 0x40030, keyLo := 0 }] },
    -- ARR_CELL_SEQ
    { off := 0x40034, dims := [], fields := [
      { lo := 18, width := 4, acc := .ro, keyOff := 0x40034, keyLo := 18 },
      { lo := 15, width := 3, acc := .ro, keyOff := 0x40034, keyLo := 15 },
      { lo := 11, width := 4, acc := .ro, keyOff := 0x40034, keyLo := 11 },
      { lo := 0, width := 10, acc := .ro, keyOff := 0x40034, keyLo := 0 }] },
    -- ARR_CELL_PORT
    { off := 0x40038, dims := [], fields := [
      { lo := 21, width := 3, acc := .ro, keyOff := 0x40038, keyLo := 21 },
      { lo := 18, width := 3, acc := .ro, keyOff := 0x40038, keyLo := 18 },
      { lo := 15, width := 3, acc := .ro, keyOff := 0x40038, keyLo := 15 },
      { lo := 12, width := 3, acc := .ro, keyOff := 0x40038, keyLo := 12 },
      { lo := 9, width := 3, acc := .ro, keyOff := 0x40038, keyLo := 9 },
      { lo := 6, width := 3, acc := .ro, keyOff := 0x40038, keyLo := 6 },
      { lo := 3, width := 3, acc := .ro, keyOff := 0x40038, keyLo := 3 },
      { lo := 0, width := 3, acc := .ro, keyOff := 0x40038, keyLo := 0 }] },
    -- ARR_CELL_TOK
    { off := 0x4003C, dims := [], fields := [
      { lo := 12, width := 4, acc := .ro, keyOff := 0x4003C, keyLo := 12 },
      { lo := 8, width := 4, acc := .ro, keyOff := 0x4003C, keyLo := 8 },
      { lo := 4, width := 4, acc := .ro, keyOff := 0x4003C, keyLo := 4 },
      { lo := 0, width := 4, acc := .ro, keyOff := 0x4003C, keyLo := 0 }] }]

/-- Registers of the MEM block (MEM), part 1. -/
def regsMem1 : List RegSpec := [
    -- MEM_STAT
    { off := 0x60000, dims := [], fields := [
      { lo := 15, width := 1, acc := .w1c, keyOff := 0x60000, keyLo := 15 },
      { lo := 14, width := 1, acc := .w1c, keyOff := 0x60000, keyLo := 14 },
      { lo := 13, width := 1, acc := .w1c, keyOff := 0x60000, keyLo := 13 },
      { lo := 12, width := 1, acc := .w1c, keyOff := 0x60000, keyLo := 12 },
      { lo := 11, width := 1, acc := .w1c, keyOff := 0x60000, keyLo := 11 },
      { lo := 10, width := 1, acc := .w1c, keyOff := 0x60000, keyLo := 10 },
      { lo := 9, width := 1, acc := .w1c, keyOff := 0x60000, keyLo := 9 },
      { lo := 8, width := 1, acc := .w1c, keyOff := 0x60000, keyLo := 8 },
      { lo := 7, width := 1, acc := .w1c, keyOff := 0x60000, keyLo := 7 },
      { lo := 6, width := 1, acc := .w1c, keyOff := 0x60000, keyLo := 6 },
      { lo := 5, width := 1, acc := .w1c, keyOff := 0x60000, keyLo := 5 },
      { lo := 3, width := 1, acc := .ro, keyOff := 0x60000, keyLo := 3 },
      { lo := 2, width := 1, acc := .ro, keyOff := 0x60000, keyLo := 2 },
      { lo := 1, width := 1, acc := .ro, keyOff := 0x60000, keyLo := 1 },
      { lo := 0, width := 1, acc := .ro, keyOff := 0x60000, keyLo := 0 }] },
    -- MEM_NEAR_STAT
    { off := 0x60004, dims := [], fields := [
      { lo := 8, width := 8, acc := .ro, keyOff := 0x60004, keyLo := 8, keep := true },
      { lo := 0, width := 8, acc := .ro, keyOff := 0x8, keyLo := 8 }] },
    -- MEM_NEAR_DIE
    { off := 0x60008, dims := [], fields := [
      { lo := 0, width := 4, acc := .ro, keyOff := 0x60008, keyLo := 0, keep := true },
      { lo := 4, width := 4, acc := .ro, keyOff := 0x60008, keyLo := 4, keep := true },
      { lo := 8, width := 4, acc := .ro, keyOff := 0x60008, keyLo := 8, keep := true },
      { lo := 12, width := 4, acc := .ro, keyOff := 0x60008, keyLo := 12, keep := true },
      { lo := 16, width := 4, acc := .ro, keyOff := 0x60008, keyLo := 16, keep := true },
      { lo := 20, width := 4, acc := .ro, keyOff := 0x60008, keyLo := 20, keep := true },
      { lo := 24, width := 4, acc := .ro, keyOff := 0x60008, keyLo := 24, keep := true },
      { lo := 28, width := 4, acc := .ro, keyOff := 0x60008, keyLo := 28, keep := true }] },
    -- MEM_BULK_STAT
    { off := 0x6000C, dims := [], fields := [
      { lo := 16, width := 2, acc := .ro, keyOff := 0x6000C, keyLo := 16 },
      { lo := 0, width := 16, acc := .ro, keyOff := 0x6000C, keyLo := 0, keep := true }] },
    -- MEM_BULK_DIE_LO
    { off := 0x60010, dims := [], fields := [
      { lo := 0, width := 4, acc := .ro, keyOff := 0x60010, keyLo := 0, keep := true },
      { lo := 4, width := 4, acc := .ro, keyOff := 0x60010, keyLo := 4, keep := true },
      { lo := 8, width := 4, acc := .ro, keyOff := 0x60010, keyLo := 8, keep := true },
      { lo := 12, width := 4, acc := .ro, keyOff := 0x60010, keyLo := 12, keep := true },
      { lo := 16, width := 4, acc := .ro, keyOff := 0x60010, keyLo := 16, keep := true },
      { lo := 20, width := 4, acc := .ro, keyOff := 0x60010, keyLo := 20, keep := true },
      { lo := 24, width := 4, acc := .ro, keyOff := 0x60010, keyLo := 24, keep := true },
      { lo := 28, width := 4, acc := .ro, keyOff := 0x60010, keyLo := 28, keep := true }] },
    -- MEM_BULK_DIE_HI
    { off := 0x60014, dims := [], fields := [
      { lo := 0, width := 4, acc := .ro, keyOff := 0x60014, keyLo := 0, keep := true },
      { lo := 4, width := 4, acc := .ro, keyOff := 0x60014, keyLo := 4, keep := true },
      { lo := 8, width := 4, acc := .ro, keyOff := 0x60014, keyLo := 8, keep := true },
      { lo := 12, width := 4, acc := .ro, keyOff := 0x60014, keyLo := 12, keep := true },
      { lo := 16, width := 4, acc := .ro, keyOff := 0x60014, keyLo := 16, keep := true },
      { lo := 20, width := 4, acc := .ro, keyOff := 0x60014, keyLo := 20, keep := true },
      { lo := 24, width := 4, acc := .ro, keyOff := 0x60014, keyLo := 24, keep := true },
      { lo := 28, width := 4, acc := .ro, keyOff := 0x60014, keyLo := 28, keep := true }] },
    -- MEM_NEAR_FREE
    { off := 0x60020, dims := [], fields := [
      { lo := 0, width := 20, acc := .ro, keyOff := 0x60020, keyLo := 0 }] },
    -- MEM_NEAR_WGT
    { off := 0x60024, dims := [], fields := [
      { lo := 0, width := 20, acc := .ro, keyOff := 0x60024, keyLo := 0 }] },
    -- MEM_NEAR_STATE
    { off := 0x60028, dims := [], fields := [
      { lo := 0, width := 20, acc := .ro, keyOff := 0x60028, keyLo := 0 }] },
    -- MEM_NEAR_SYS
    { off := 0x6002C, dims := [], fields := [
      { lo := 0, width := 20, acc := .ro, keyOff := 0x6002C, keyLo := 0 }] },
    -- MEM_NEAR_RESV
    { off := 0x60030, dims := [], fields := [
      { lo := 0, width := 20, acc := .ro, keyOff := 0x60030, keyLo := 0 }] },
    -- MEM_BULK_FREE
    { off := 0x60034, dims := [], fields := [
      { lo := 0, width := 20, acc := .ro, keyOff := 0x60034, keyLo := 0 }] },
    -- MEM_BULK_USED
    { off := 0x60038, dims := [], fields := [
      { lo := 0, width := 20, acc := .ro, keyOff := 0x60038, keyLo := 0 }] },
    -- MEM_PLAN_BULK
    { off := 0x60040, dims := [], fields := [
      { lo := 16, width := 10, acc := .rwl, keyOff := 0x60040, keyLo := 16, src := .image, legal := some (1, 1000) },
      { lo := 0, width := 11, acc := .rwl, keyOff := 0x60040, keyLo := 0, src := .image, legal := some (1, 1090) }] },
    -- MEM_PLAN_STORE
    { off := 0x60044, dims := [], fields := [
      { lo := 16, width := 10, acc := .rwl, keyOff := 0x60044, keyLo := 16, src := .image, legal := some (1, 1000) },
      { lo := 0, width := 6, acc := .rwl, keyOff := 0x60044, keyLo := 0, src := .image, legal := some (1, 50) }] },
    -- MEM_BUSY_BULK_LO
    { off := 0x60048, dims := [], fields := [
      { lo := 0, width := 32, acc := .ro, keyOff := 0x60048, keyLo := 0 }] },
    -- MEM_BUSY_BULK_HI
    { off := 0x6004C, dims := [], fields := [
      { lo := 0, width := 32, acc := .ro, keyOff := 0x60048, keyLo := 0, shift := 32 }] },
    -- MEM_BUSY_STORE_LO
    { off := 0x60050, dims := [], fields := [
      { lo := 0, width := 32, acc := .ro, keyOff := 0x60050, keyLo := 0 }] },
    -- MEM_BUSY_STORE_HI
    { off := 0x60054, dims := [], fields := [
      { lo := 0, width := 32, acc := .ro, keyOff := 0x60050, keyLo := 0, shift := 32 }] },
    -- MEM_FETCH_Q
    { off := 0x60058, dims := [], fields := [
      { lo := 16, width := 16, acc := .ro, keyOff := 0x60058, keyLo := 16 },
      { lo := 0, width := 16, acc := .ro, keyOff := 0x60058, keyLo := 0 }] }]

/-- Registers of the MEM block (MEM), part 2. -/
def regsMem2 : List RegSpec := [
    -- MEM_SCRUB
    { off := 0x6005C, dims := [], fields := [
      { lo := 0, width := 8, acc := .rwl, keyOff := 0x6005C, keyLo := 0, src := .image, legal := some (1, 168) }] },
    -- MEM_STORE_LINK
    { off := 0x60060, dims := [], fields := [
      { lo := 16, width := 16, acc := .ro, keyOff := 0x60060, keyLo := 16 },
      { lo := 8, width := 5, acc := .ro, keyOff := 0x60060, keyLo := 8 },
      { lo := 5, width := 3, acc := .ro, keyOff := 0x60060, keyLo := 5 },
      { lo := 3, width := 2, acc := .ro, keyOff := 0x60060, keyLo := 3, src := .image },
      { lo := 2, width := 1, acc := .ro, keyOff := 0x60060, keyLo := 2 }] },
    -- MEM_STORE_SIZE
    { off := 0x60064, dims := [], fields := [
      { lo := 0, width := 17, acc := .ro, keyOff := 0x60064, keyLo := 0 }] },
    -- MEM_DIR
    { off := 0x60068, dims := [], fields := [
      { lo := 0, width := 18, acc := .ro, keyOff := 0x60068, keyLo := 0 }] },
    -- MEM_ECAP_INFO
    { off := 0x60070, dims := [], fields := [
      { lo := 28, width := 4, acc := .ro, keyOff := 0x60070, keyLo := 28 },
      { lo := 24, width := 4, acc := .ro, keyOff := 0x60070, keyLo := 24 },
      { lo := 20, width := 4, acc := .ro, keyOff := 0x60070, keyLo := 20 },
      { lo := 17, width := 3, acc := .ro, keyOff := 0x60070, keyLo := 17 }] },
    -- MEM_ECAP_ADDR_LO
    { off := 0x60074, dims := [], fields := [
      { lo := 0, width := 32, acc := .ro, keyOff := 0x60074, keyLo := 0 }] },
    -- MEM_ECAP_ADDR_HI
    { off := 0x60078, dims := [], fields := [
      { lo := 0, width := 12, acc := .ro, keyOff := 0x60074, keyLo := 0, shift := 32 }] },
    -- MEM_NEAR_CE_CNT
    { off := 0x60080, dims := [], fields := [
      { lo := 0, width := 32, acc := .ro, keyOff := 0x60080, keyLo := 0 }] },
    -- MEM_BULK_CE_CNT
    { off := 0x60084, dims := [], fields := [
      { lo := 0, width := 32, acc := .ro, keyOff := 0x60084, keyLo := 0 }] },
    -- MEM_CNT_FETCH_BULK
    { off := 0x60088, dims := [], fields := [
      { lo := 0, width := 32, acc := .ro, keyOff := 0x60088, keyLo := 0 }] },
    -- MEM_CNT_FETCH_STORE
    { off := 0x6008C, dims := [], fields := [
      { lo := 0, width := 32, acc := .ro, keyOff := 0x6008C, keyLo := 0 }] },
    -- MEM_CNT_EVICT_NEAR
    { off := 0x60090, dims := [], fields := [
      { lo := 0, width := 32, acc := .ro, keyOff := 0x60090, keyLo := 0 }] },
    -- MEM_CNT_EVICT_BULK
    { off := 0x60094, dims := [], fields := [
      { lo := 0, width := 32, acc := .ro, keyOff := 0x60094, keyLo := 0 }] },
    -- MEM_CNT_TAG_FAIL
    { off := 0x60098, dims := [], fields := [
      { lo := 0, width := 32, acc := .ro, keyOff := 0x60098, keyLo := 0 }] },
    -- MEM_CNT_CODEC_FAIL
    { off := 0x6009C, dims := [], fields := [
      { lo := 0, width := 32, acc := .ro, keyOff := 0x6009C, keyLo := 0 }] },
    -- MEM_CNT_STORE_ERR
    { off := 0x600A0, dims := [], fields := [
      { lo := 0, width := 32, acc := .ro, keyOff := 0x600A0, keyLo := 0 }] },
    -- MEM_CNT_LATE_WORD
    { off := 0x600A4, dims := [], fields := [
      { lo := 0, width := 32, acc := .ro, keyOff := 0x600A4, keyLo := 0 }] },
    -- MEM_CNT_FETCH_OVER
    { off := 0x600A8, dims := [], fields := [
      { lo := 0, width := 32, acc := .ro, keyOff := 0x600A8, keyLo := 0 }] },
    -- MEM_DECOMP
    { off := 0x600B0, dims := [], fields := [
      { lo := 0, width := 16, acc := .ro, keyOff := 0x600B0, keyLo := 0 }] }]

/-- Registers of the WGT block (WGT), part 1. -/
def regsWgt1 : List RegSpec := [
    -- WGT_STAT
    { off := 0x80000, dims := [], fields := [
      { lo := 14, width := 1, acc := .w1c, keyOff := 0x80000, keyLo := 14 },
      { lo := 13, width := 1, acc := .w1c, keyOff := 0x80000, keyLo := 13 },
      { lo := 12, width := 1, acc := .w1c, keyOff := 0x80000, keyLo := 12 },
      { lo := 11, width := 1, acc := .w1c, keyOff := 0x80000, keyLo := 11 },
      { lo := 10, width := 1, acc := .w1c, keyOff := 0x80000, keyLo := 10 },
      { lo := 9, width := 1, acc := .w1c, keyOff := 0x80000, keyLo := 9 },
      { lo := 8, width := 1, acc := .w1c, keyOff := 0x80000, keyLo := 8 },
      { lo := 3, width := 1, acc := .ro, keyOff := 0x80000, keyLo := 3 },
      { lo := 2, width := 1, acc := .ro, keyOff := 0x80000, keyLo := 2 },
      { lo := 1, width := 1, acc := .ro, keyOff := 0x80000, keyLo := 1 },
      { lo := 0, width := 1, acc := .ro, keyOff := 0x80010, keyLo := 0 }] },
    -- WGT_CMD
    { off := 0x80004, dims := [], fields := [
      { lo := 0, width := 3, acc := .wo, keyOff := 0x80004, keyLo := 0 }] },
    -- WGT_CMD_MODEL
    { off := 0x80008, dims := [], fields := [
      { lo := 0, width := 32, acc := .rw, keyOff := 0x80008, keyLo := 0 }] },
    -- WGT_CMD_EPOCH
    { off := 0x8000C, dims := [], fields := [
      { lo := 0, width := 16, acc := .rw, keyOff := 0x8000C, keyLo := 0 }] },
    -- WGT_CMD_STAT
    { off := 0x80010, dims := [], fields := [
      { lo := 29, width := 3, acc := .ro, keyOff := 0x80010, keyLo := 29 },
      { lo := 24, width := 5, acc := .ro, keyOff := 0x80010, keyLo := 24 },
      { lo := 0, width := 1, acc := .ro, keyOff := 0x80010, keyLo := 0 }] },
    -- WGT_ING_ADDR_LO
    { off := 0x80014, dims := [], fields := [
      { lo := 0, width := 32, acc := .rw, keyOff := 0x80014, keyLo := 0 }] },
    -- WGT_ING_ADDR_HI
    { off := 0x80018, dims := [], fields := [
      { lo := 0, width := 32, acc := .rw, keyOff := 0x80014, keyLo := 0, shift := 32 }] },
    -- WGT_ING_LEN_LO
    { off := 0x8001C, dims := [], fields := [
      { lo := 0, width := 32, acc := .rw, keyOff := 0x8001C, keyLo := 0 }] },
    -- WGT_ING_LEN_HI
    { off := 0x80020, dims := [], fields := [
      { lo := 0, width := 32, acc := .rw, keyOff := 0x8001C, keyLo := 0, shift := 32 }] },
    -- WGT_ING_PROG
    { off := 0x80024, dims := [], fields := [
      { lo := 0, width := 16, acc := .ro, keyOff := 0x80024, keyLo := 0 }] },
    -- WGT_Q_EPOCH
    { off := 0x80028, dims := [], fields := [
      { lo := 16, width := 16, acc := .ro, keyOff := 0x80028, keyLo := 16 },
      { lo := 0, width := 16, acc := .ro, keyOff := 0x80028, keyLo := 0 }] },
    -- WGT_Q_INFO
    { off := 0x8002C, dims := [], fields := [
      { lo := 8, width := 24, acc := .ro, keyOff := 0x8002C, keyLo := 8 },
      { lo := 1, width := 1, acc := .ro, keyOff := 0x8002C, keyLo := 1 },
      { lo := 0, width := 1, acc := .ro, keyOff := 0x8002C, keyLo := 0 }] },
    -- WGT_Q_DRAIN_LO
    { off := 0x80030, dims := [], fields := [
      { lo := 0, width := 32, acc := .ro, keyOff := 0x80030, keyLo := 0 }] },
    -- WGT_Q_DRAIN_HI
    { off := 0x80034, dims := [], fields := [
      { lo := 0, width := 16, acc := .ro, keyOff := 0x80030, keyLo := 0, shift := 32 }] },
    -- WGT_SWITCH_CFG
    { off := 0x80038, dims := [], fields := [
      { lo := 0, width := 4, acc := .rwl, keyOff := 0x80038, keyLo := 0, src := .image, legal := some (1, 15) }] },
    -- WGT_Q5_PLAN
    { off := 0x8003C, dims := [], fields := [
      { lo := 16, width := 16, acc := .rwl, keyOff := 0x8003C, keyLo := 16, src := .image, legal := some (1, 65535) },
      { lo := 0, width := 7, acc := .rwl, keyOff := 0x8003C, keyLo := 0, src := .image, legal := some (1, 100) }] },
    -- WGT_SCRUB
    { off := 0x80040, dims := [], fields := [
      { lo := 0, width := 8, acc := .rwl, keyOff := 0x80040, keyLo := 0, src := .image, legal := some (1, 168) }] },
    -- WGT_SCRUB_PASS_LO
    { off := 0x80044, dims := [], fields := [
      { lo := 0, width := 32, acc := .ro, keyOff := 0x80044, keyLo := 0 }] },
    -- WGT_SCRUB_PASS_HI
    { off := 0x80048, dims := [], fields := [
      { lo := 0, width := 16, acc := .ro, keyOff := 0x80044, keyLo := 0, shift := 32 }] },
    -- WGT_FCAP_MODEL
    { off := 0x8004C, dims := [], fields := [
      { lo := 0, width := 32, acc := .ro, keyOff := 0x8004C, keyLo := 0 }] }]

/-- Registers of the WGT block (WGT), part 2. -/
def regsWgt2 : List RegSpec := [
    -- WGT_FCAP_INFO
    { off := 0x80050, dims := [], fields := [
      { lo := 16, width := 16, acc := .ro, keyOff := 0x80050, keyLo := 16 },
      { lo := 0, width := 16, acc := .ro, keyOff := 0x80050, keyLo := 0 }] },
    -- WGT_FCAP_KIND
    { off := 0x80054, dims := [], fields := [
      { lo := 0, width := 4, acc := .ro, keyOff := 0x80054, keyLo := 0 }] },
    -- WGT_CNT_INGEST
    { off := 0x80060, dims := [], fields := [
      { lo := 0, width := 32, acc := .ro, keyOff := 0x80060, keyLo := 0 }] },
    -- WGT_CNT_RETIRE
    { off := 0x80064, dims := [], fields := [
      { lo := 0, width := 32, acc := .ro, keyOff := 0x80064, keyLo := 0 }] },
    -- WGT_CNT_SWITCH
    { off := 0x80068, dims := [], fields := [
      { lo := 0, width := 32, acc := .ro, keyOff := 0x80068, keyLo := 0 }] },
    -- WGT_CNT_DEFER
    { off := 0x8006C, dims := [], fields := [
      { lo := 0, width := 32, acc := .ro, keyOff := 0x8006C, keyLo := 0 }] },
    -- WGT_CNT_DIGEST_FAIL
    { off := 0x80070, dims := [], fields := [
      { lo := 0, width := 32, acc := .ro, keyOff := 0x80070, keyLo := 0 }] },
    -- WGT_CNT_SCRUB
    { off := 0x80074, dims := [], fields := [
      { lo := 0, width := 32, acc := .ro, keyOff := 0x80074, keyLo := 0 }] },
    -- WGT_CNT_RESEND
    { off := 0x80078, dims := [], fields := [
      { lo := 0, width := 32, acc := .ro, keyOff := 0x80078, keyLo := 0 }] },
    -- WGT_CNT_CRC_FAIL
    { off := 0x8007C, dims := [], fields := [
      { lo := 0, width := 32, acc := .ro, keyOff := 0x8007C, keyLo := 0 }] }]

/-- Registers of the LNK block (LNK), part 1. -/
def regsLnk1 : List RegSpec := [
    -- LNK_STAT
    { off := 0xA0000, dims := [(16, 0x1000)], fields := [
      { lo := 15, width := 1, acc := .w1c, keyOff := 0xA0000, keyLo := 15 },
      { lo := 14, width := 1, acc := .w1c, keyOff := 0xA0000, keyLo := 14 },
      { lo := 13, width := 1, acc := .w1c, keyOff := 0xA0000, keyLo := 13 },
      { lo := 12, width := 1, acc := .w1c, keyOff := 0xA0000, keyLo := 12 },
      { lo := 11, width := 1, acc := .w1c, keyOff := 0xA0000, keyLo := 11 },
      { lo := 10, width := 1, acc := .w1c, keyOff := 0xA0000, keyLo := 10 },
      { lo := 9, width := 1, acc := .w1c, keyOff := 0xA0000, keyLo := 9 },
      { lo := 0, width := 3, acc := .ro, keyOff := 0xA0000, keyLo := 0 }] },
    -- LNK_CTL
    { off := 0xA0004, dims := [(16, 0x1000)], fields := [
      { lo := 3, width := 1, acc := .wo, keyOff := 0xA0004, keyLo := 3 },
      { lo := 2, width := 1, acc := .rw, keyOff := 0xA0004, keyLo := 2 },
      { lo := 1, width := 1, acc := .wo, keyOff := 0xA0004, keyLo := 1 },
      { lo := 0, width := 1, acc := .rw, keyOff := 0xA0004, keyLo := 0 }] },
    -- LNK_CFG
    { off := 0xA0008, dims := [(16, 0x1000)], fields := [
      { lo := 26, width := 4, acc := .ro, keyOff := 0xA0008, keyLo := 26, src := .image },
      { lo := 16, width := 10, acc := .ro, keyOff := 0xA0008, keyLo := 16, src := .image },
      { lo := 4, width := 4, acc := .ro, keyOff := 0xA0008, keyLo := 4, src := .image },
      { lo := 0, width := 3, acc := .ro, keyOff := 0xA0008, keyLo := 0, src := .image, legal := some (0, 3) }] },
    -- LNK_WIDTH
    { off := 0xA000C, dims := [(16, 0x1000)], fields := [
      { lo := 16, width := 8, acc := .ro, keyOff := 0xA000C, keyLo := 16 },
      { lo := 8, width := 8, acc := .ro, keyOff := 0xA000C, keyLo := 8 },
      { lo := 4, width := 4, acc := .ro, keyOff := 0xA000C, keyLo := 4 },
      { lo := 0, width := 4, acc := .ro, keyOff := 0xA000C, keyLo := 0 }] },
    -- LNK_PEER
    { off := 0xA0010, dims := [(16, 0x1000)], fields := [
      { lo := 16, width := 10, acc := .ro, keyOff := 0xA0010, keyLo := 16 },
      { lo := 12, width := 3, acc := .ro, keyOff := 0xA0010, keyLo := 12 },
      { lo := 8, width := 4, acc := .ro, keyOff := 0xA0010, keyLo := 8 },
      { lo := 0, width := 1, acc := .ro, keyOff := 0xA0010, keyLo := 0 }] },
    -- LNK_SESSION
    { off := 0xA0014, dims := [(16, 0x1000)], fields := [
      { lo := 16, width := 16, acc := .ro, keyOff := 0xA0014, keyLo := 16 },
      { lo := 0, width := 16, acc := .ro, keyOff := 0xA0014, keyLo := 0, keep := true }] },
    -- LNK_RTT
    { off := 0xA0018, dims := [(16, 0x1000)], fields := [
      { lo := 16, width := 16, acc := .ro, keyOff := 0xA0018, keyLo := 16 },
      { lo := 0, width := 16, acc := .ro, keyOff := 0xA0018, keyLo := 0 }] },
    -- LNK_SEQ
    { off := 0xA001C, dims := [(16, 0x1000)], fields := [
      { lo := 16, width := 16, acc := .ro, keyOff := 0xA001C, keyLo := 16 },
      { lo := 0, width := 16, acc := .ro, keyOff := 0xA001C, keyLo := 0 }] },
    -- LNK_RXSEQ
    { off := 0xA0020, dims := [(16, 0x1000)], fields := [
      { lo := 25, width := 1, acc := .ro, keyOff := 0xA0020, keyLo := 25 },
      { lo := 16, width := 9, acc := .ro, keyOff := 0xA0020, keyLo := 16 },
      { lo := 0, width := 16, acc := .ro, keyOff := 0xA0020, keyLo := 0 }] },
    -- LNK_TIMER
    { off := 0xA0024, dims := [(16, 0x1000)], fields := [
      { lo := 16, width := 16, acc := .rwl, keyOff := 0xA0024, keyLo := 16, src := .image, legal := some (200, 10000) },
      { lo := 0, width := 16, acc := .rwl, keyOff := 0xA0024, keyLo := 0, src := .image, legal := some (400, 20000) }] },
    -- LNK_LOSS_CFG
    { off := 0xA0028, dims := [(16, 0x1000)], fields := [
      { lo := 0, width := 10, acc := .rw, keyOff := 0xA0028, keyLo := 0, rst := 0x14, keep := true }] },
    -- LNK_CNT_CLR
    { off := 0xA002C, dims := [(16, 0x1000)], fields := [
      { lo := 2, width := 1, acc := .wo, keyOff := 0xA002C, keyLo := 2 },
      { lo := 1, width := 1, acc := .wo, keyOff := 0xA002C, keyLo := 1 },
      { lo := 0, width := 1, acc := .wo, keyOff := 0xA002C, keyLo := 0 }] },
    -- LNK_FAIL
    { off := 0xA0030, dims := [(16, 0x1000)], fields := [
      { lo := 8, width := 4, acc := .ro, keyOff := 0xA0030, keyLo := 8 },
      { lo := 7, width := 1, acc := .ro, keyOff := 0xA0030, keyLo := 7 },
      { lo := 0, width := 4, acc := .ro, keyOff := 0xA0030, keyLo := 0 }] },
    -- LNK_CNT_TX_LO
    { off := 0xA0040, dims := [(16, 0x1000)], fields := [
      { lo := 0, width := 32, acc := .ro, keyOff := 0xA0040, keyLo := 0 }] },
    -- LNK_CNT_TX_HI
    { off := 0xA0044, dims := [(16, 0x1000)], fields := [
      { lo := 0, width := 32, acc := .ro, keyOff := 0xA0040, keyLo := 0, shift := 32 }] },
    -- LNK_CNT_RX_LO
    { off := 0xA0048, dims := [(16, 0x1000)], fields := [
      { lo := 0, width := 32, acc := .ro, keyOff := 0xA0048, keyLo := 0 }] },
    -- LNK_CNT_RX_HI
    { off := 0xA004C, dims := [(16, 0x1000)], fields := [
      { lo := 0, width := 32, acc := .ro, keyOff := 0xA0048, keyLo := 0, shift := 32 }] },
    -- LNK_CNT_CRC
    { off := 0xA0050, dims := [(16, 0x1000)], fields := [
      { lo := 0, width := 32, acc := .ro, keyOff := 0xA0050, keyLo := 0 }] },
    -- LNK_CNT_NAK
    { off := 0xA0054, dims := [(16, 0x1000)], fields := [
      { lo := 0, width := 32, acc := .ro, keyOff := 0xA0054, keyLo := 0 }] },
    -- LNK_CNT_REPLAY
    { off := 0xA0058, dims := [(16, 0x1000)], fields := [
      { lo := 0, width := 32, acc := .ro, keyOff := 0xA0058, keyLo := 0 }] }]

/-- Registers of the LNK block (LNK), part 2. -/
def regsLnk2 : List RegSpec := [
    -- LNK_CNT_REPLAY_FLIT
    { off := 0xA005C, dims := [(16, 0x1000)], fields := [
      { lo := 0, width := 32, acc := .ro, keyOff := 0xA005C, keyLo := 0 }] },
    -- LNK_CNT_DUP
    { off := 0xA0060, dims := [(16, 0x1000)], fields := [
      { lo := 0, width := 32, acc := .ro, keyOff := 0xA0060, keyLo := 0 }] },
    -- LNK_CNT_ROUTE
    { off := 0xA0064, dims := [(16, 0x1000)], fields := [
      { lo := 0, width := 32, acc := .ro, keyOff := 0xA0064, keyLo := 0 }] },
    -- LNK_CNT_WIDTH
    { off := 0xA0068, dims := [(16, 0x1000)], fields := [
      { lo := 0, width := 32, acc := .ro, keyOff := 0xA0068, keyLo := 0 }] },
    -- LNK_CNT_RETRAIN
    { off := 0xA006C, dims := [(16, 0x1000)], fields := [
      { lo := 0, width := 32, acc := .ro, keyOff := 0xA006C, keyLo := 0 }] },
    -- LNK_CNT_BOARD_ERR
    { off := 0xA0070, dims := [(16, 0x1000)], fields := [
      { lo := 0, width := 32, acc := .ro, keyOff := 0xA0070, keyLo := 0 }] },
    -- LNK_CNT_SYNC_MISS
    { off := 0xA0074, dims := [(16, 0x1000)], fields := [
      { lo := 0, width := 32, acc := .ro, keyOff := 0xA0074, keyLo := 0 }] },
    -- LNK_RT_SEL
    { off := 0xA0080, dims := [(16, 0x1000)], fields := [
      { lo := 0, width := 16, acc := .rw, keyOff := 0xA0080, keyLo := 0 }] },
    -- LNK_RT_DATA
    { off := 0xA0084, dims := [(16, 0x1000)], fields := [
      { lo := 0, width := 32, acc := .ro, keyOff := 0xA0084, keyLo := 0, src := .image }] },
    -- LANE_STAT
    { off := 0xA0100, dims := [(16, 0x1000), (8, 0x40)], fields := [
      { lo := 4, width := 1, acc := .ro, keyOff := 0xA0100, keyLo := 4 },
      { lo := 3, width := 1, acc := .ro, keyOff := 0xA0100, keyLo := 3 },
      { lo := 2, width := 1, acc := .ro, keyOff := 0xA0100, keyLo := 2 },
      { lo := 1, width := 1, acc := .ro, keyOff := 0xA0100, keyLo := 1 },
      { lo := 0, width := 1, acc := .ro, keyOff := 0xA0100, keyLo := 0 }] },
    -- LANE_PRBS_CTL
    { off := 0xA0104, dims := [(16, 0x1000), (8, 0x40)], fields := [
      { lo := 6, width := 2, acc := .rw, keyOff := 0xA0104, keyLo := 6, legal := some (0, 2) },
      { lo := 4, width := 1, acc := .rw, keyOff := 0xA0104, keyLo := 4 },
      { lo := 3, width := 1, acc := .rw, keyOff := 0xA0104, keyLo := 3 },
      { lo := 0, width := 3, acc := .rw, keyOff := 0xA0104, keyLo := 0, legal := some (0, 5) }] },
    -- LANE_PRBS_ERR
    { off := 0xA0108, dims := [(16, 0x1000), (8, 0x40)], fields := [
      { lo := 0, width := 32, acc := .ro, keyOff := 0xA0108, keyLo := 0 }] },
    -- LANE_PRBS_BITS_LO
    { off := 0xA010C, dims := [(16, 0x1000), (8, 0x40)], fields := [
      { lo := 0, width := 32, acc := .ro, keyOff := 0xA010C, keyLo := 0 }] },
    -- LANE_PRBS_BITS_HI
    { off := 0xA0110, dims := [(16, 0x1000), (8, 0x40)], fields := [
      { lo := 0, width := 32, acc := .ro, keyOff := 0xA010C, keyLo := 0, shift := 32 }] },
    -- LANE_FEC_CW_LO
    { off := 0xA0114, dims := [(16, 0x1000), (8, 0x40)], fields := [
      { lo := 0, width := 32, acc := .ro, keyOff := 0xA0114, keyLo := 0 }] },
    -- LANE_FEC_CW_HI
    { off := 0xA0118, dims := [(16, 0x1000), (8, 0x40)], fields := [
      { lo := 0, width := 32, acc := .ro, keyOff := 0xA0114, keyLo := 0, shift := 32 }] },
    -- LANE_FEC_CORR
    { off := 0xA011C, dims := [(16, 0x1000), (8, 0x40)], fields := [
      { lo := 0, width := 32, acc := .ro, keyOff := 0xA011C, keyLo := 0 }] },
    -- LANE_FEC_UNCORR
    { off := 0xA0120, dims := [(16, 0x1000), (8, 0x40)], fields := [
      { lo := 0, width := 32, acc := .ro, keyOff := 0xA0120, keyLo := 0 }] },
    -- LANE_FEC_SYM
    { off := 0xA0124, dims := [(16, 0x1000), (8, 0x40)], fields := [
      { lo := 0, width := 32, acc := .ro, keyOff := 0xA0124, keyLo := 0 }] },
    -- LANE_FEC_MAXSYM
    { off := 0xA0128, dims := [(16, 0x1000), (8, 0x40)], fields := [
      { lo := 0, width := 5, acc := .ro, keyOff := 0xA0128, keyLo := 0 }] }]

/-- Registers of the LNK block (LNK), part 3. -/
def regsLnk3 : List RegSpec := [
    -- LANE_LOSS
    { off := 0xA012C, dims := [(16, 0x1000), (8, 0x40)], fields := [
      { lo := 16, width := 10, acc := .ro, keyOff := 0xA012C, keyLo := 16, keep := true },
      { lo := 0, width := 10, acc := .ro, keyOff := 0xA012C, keyLo := 0 }] },
    -- LANE_EYE_CTL
    { off := 0xA0130, dims := [(16, 0x1000), (8, 0x40)], fields := [
      { lo := 8, width := 8, acc := .rw, keyOff := 0xA0130, keyLo := 8 },
      { lo := 5, width := 3, acc := .rw, keyOff := 0xA0130, keyLo := 5, rst := 0x2 },
      { lo := 3, width := 1, acc := .ro, keyOff := 0xA0130, keyLo := 3 },
      { lo := 2, width := 1, acc := .ro, keyOff := 0xA0130, keyLo := 2 },
      { lo := 1, width := 1, acc := .ro, keyOff := 0xA0130, keyLo := 1 },
      { lo := 0, width := 1, acc := .wo, keyOff := 0xA0130, keyLo := 0 }] },
    -- LANE_EYE_UPPER
    { off := 0xA0134, dims := [(16, 0x1000), (8, 0x40)], fields := [
      { lo := 24, width := 8, acc := .ro, keyOff := 0xA0134, keyLo := 24 },
      { lo := 16, width := 8, acc := .ro, keyOff := 0xA0134, keyLo := 16 },
      { lo := 8, width := 8, acc := .ro, keyOff := 0xA0134, keyLo := 8 },
      { lo := 0, width := 8, acc := .ro, keyOff := 0xA0134, keyLo := 0 }] },
    -- LANE_EYE_MIDDLE
    { off := 0xA0138, dims := [(16, 0x1000), (8, 0x40)], fields := [
      { lo := 24, width := 8, acc := .ro, keyOff := 0xA0138, keyLo := 24 },
      { lo := 16, width := 8, acc := .ro, keyOff := 0xA0138, keyLo := 16 },
      { lo := 8, width := 8, acc := .ro, keyOff := 0xA0138, keyLo := 8 },
      { lo := 0, width := 8, acc := .ro, keyOff := 0xA0138, keyLo := 0 }] },
    -- LANE_EYE_LOWER
    { off := 0xA013C, dims := [(16, 0x1000), (8, 0x40)], fields := [
      { lo := 24, width := 8, acc := .ro, keyOff := 0xA013C, keyLo := 24 },
      { lo := 16, width := 8, acc := .ro, keyOff := 0xA013C, keyLo := 16 },
      { lo := 8, width := 8, acc := .ro, keyOff := 0xA013C, keyLo := 8 },
      { lo := 0, width := 8, acc := .ro, keyOff := 0xA013C, keyLo := 0 }] }]

/-- Registers of the SPAN block (SPAN), part 1. -/
def regsSpan1 : List RegSpec := [
    -- SPAN_STAT
    { off := 0xC0000, dims := [], fields := [
      { lo := 15, width := 1, acc := .w1c, keyOff := 0xC0000, keyLo := 15 },
      { lo := 14, width := 1, acc := .w1c, keyOff := 0xC0000, keyLo := 14 },
      { lo := 13, width := 1, acc := .w1c, keyOff := 0xC0000, keyLo := 13 },
      { lo := 12, width := 1, acc := .w1c, keyOff := 0xC0000, keyLo := 12 },
      { lo := 11, width := 1, acc := .w1c, keyOff := 0xC0000, keyLo := 11 },
      { lo := 10, width := 1, acc := .w1c, keyOff := 0xC0000, keyLo := 10 },
      { lo := 9, width := 1, acc := .w1c, keyOff := 0xC0000, keyLo := 9 },
      { lo := 8, width := 1, acc := .w1c, keyOff := 0xC0000, keyLo := 8 },
      { lo := 4, width := 1, acc := .ro, keyOff := 0xC0000, keyLo := 4 },
      { lo := 3, width := 1, acc := .ro, keyOff := 0xC0000, keyLo := 3 },
      { lo := 1, width := 2, acc := .ro, keyOff := 0xC0000, keyLo := 1, src := .image },
      { lo := 0, width := 1, acc := .ro, keyOff := 0xC0000, keyLo := 0 }] },
    -- SPAN_ID
    { off := 0xC0004, dims := [], fields := [
      { lo := 16, width := 11, acc := .ro, keyOff := 0xC0004, keyLo := 16, src := .image, legal := some (1, 1024) },
      { lo := 0, width := 10, acc := .ro, keyOff := 0xC0004, keyLo := 0, src := .image }] },
    -- SPAN_ROLES
    { off := 0xC0008, dims := [], fields := [
      { lo := 16, width := 10, acc := .ro, keyOff := 0xC0008, keyLo := 16, src := .image },
      { lo := 0, width := 10, acc := .ro, keyOff := 0xC0008, keyLo := 0, src := .image }] },
    -- SPAN_TREE
    { off := 0xC000C, dims := [], fields := [
      { lo := 16, width := 16, acc := .ro, keyOff := 0xC000C, keyLo := 16, src := .image },
      { lo := 8, width := 1, acc := .ro, keyOff := 0xC000C, keyLo := 8, src := .image },
      { lo := 4, width := 4, acc := .ro, keyOff := 0xC000C, keyLo := 4, src := .image },
      { lo := 0, width := 4, acc := .ro, keyOff := 0xC000C, keyLo := 0, src := .image }] },
    -- SPAN_CFG
    { off := 0xC0010, dims := [], fields := [
      { lo := 24, width := 8, acc := .rwl, keyOff := 0xC0010, keyLo := 24, src := .image, legal := some (1, 255) },
      { lo := 12, width := 12, acc := .rwl, keyOff := 0xC0010, keyLo := 12, src := .image, legal := some (1, 4095) },
      { lo := 0, width := 12, acc := .rwl, keyOff := 0xC0010, keyLo := 0, src := .image, legal := some (1, 4095) }] },
    -- SPAN_LOSS
    { off := 0xC0014, dims := [], fields := [
      { lo := 11, width := 3, acc := .ro, keyOff := 0xC0014, keyLo := 11 },
      { lo := 10, width := 1, acc := .ro, keyOff := 0xC0014, keyLo := 10 },
      { lo := 0, width := 10, acc := .ro, keyOff := 0xC0014, keyLo := 0 }] },
    -- SPAN_LOSS_TICK_LO
    { off := 0xC0018, dims := [], fields := [
      { lo := 0, width := 32, acc := .ro, keyOff := 0xC0018, keyLo := 0 }] },
    -- SPAN_LOSS_TICK_HI
    { off := 0xC001C, dims := [], fields := [
      { lo := 0, width := 16, acc := .ro, keyOff := 0xC0018, keyLo := 0, shift := 32 }] },
    -- SPAN_DECIDE
    { off := 0xC0020, dims := [], fields := [
      { lo := 30, width := 2, acc := .ro, keyOff := 0xC0020, keyLo := 30 },
      { lo := 26, width := 4, acc := .ro, keyOff := 0xC0020, keyLo := 26 },
      { lo := 24, width := 2, acc := .ro, keyOff := 0xC0020, keyLo := 24 }] },
    -- SPAN_DECIDE_TICK_LO
    { off := 0xC0024, dims := [], fields := [
      { lo := 0, width := 32, acc := .ro, keyOff := 0xC0024, keyLo := 0 }] },
    -- SPAN_DECIDE_TICK_HI
    { off := 0xC0028, dims := [], fields := [
      { lo := 0, width := 16, acc := .ro, keyOff := 0xC0024, keyLo := 0, shift := 32 }] },
    -- SPAN_SLACK
    { off := 0xC002C, dims := [], fields := [
      { lo := 8, width := 4, acc := .ro, keyOff := 0xC002C, keyLo := 8 },
      { lo := 0, width := 8, acc := .ro, keyOff := 0xC002C, keyLo := 0, rst := 0xFF }] },
    -- SPAN_XFER_SEL
    { off := 0xC0030, dims := [], fields := [
      { lo := 16, width := 2, acc := .rw, keyOff := 0xC0030, keyLo := 16 },
      { lo := 0, width := 16, acc := .rw, keyOff := 0xC0030, keyLo := 0 }] },
    -- SPAN_XFER_DATA
    { off := 0xC0034, dims := [], fields := [
      { lo := 0, width := 32, acc := .ro, keyOff := 0xC0034, keyLo := 0, src := .image }] },
    -- SPAN_GROUP_DATA
    { off := 0xC003C, dims := [], fields := [
      { lo := 0, width := 32, acc := .ro, keyOff := 0xC003C, keyLo := 0, src := .image }] },
    -- SPAN_GROUP_SEL
    { off := 0xC0038, dims := [], fields := [
      { lo := 12, width := 1, acc := .rw, keyOff := 0xC0038, keyLo := 12 },
      { lo := 0, width := 12, acc := .rw, keyOff := 0xC0038, keyLo := 0 }] },
    -- SPAN_CNT_CTRL_TX
    { off := 0xC0040, dims := [], fields := [
      { lo := 0, width := 32, acc := .ro, keyOff := 0xC0040, keyLo := 0 }] },
    -- SPAN_CNT_CTRL_RX
    { off := 0xC0044, dims := [], fields := [
      { lo := 0, width := 32, acc := .ro, keyOff := 0xC0044, keyLo := 0 }] },
    -- SPAN_CNT_NOTICE
    { off := 0xC0048, dims := [], fields := [
      { lo := 0, width := 32, acc := .ro, keyOff := 0xC0048, keyLo := 0 }] },
    -- SPAN_CNT_REPLAY_ALL
    { off := 0xC004C, dims := [], fields := [
      { lo := 0, width := 32, acc := .ro, keyOff := 0xC004C, keyLo := 0 }] }]

/-- Registers of the SPAN block (SPAN), part 2. -/
def regsSpan2 : List RegSpec := [
    -- SPAN_CNT_REPLAY_SOLO
    { off := 0xC0050, dims := [], fields := [
      { lo := 0, width := 32, acc := .ro, keyOff := 0xC0050, keyLo := 0 }] },
    -- SPAN_CNT_SKIP
    { off := 0xC0054, dims := [], fields := [
      { lo := 0, width := 32, acc := .ro, keyOff := 0xC0054, keyLo := 0 }] },
    -- SPAN_CNT_LOSS
    { off := 0xC0058, dims := [], fields := [
      { lo := 0, width := 32, acc := .ro, keyOff := 0xC0058, keyLo := 0 }] },
    -- SPAN_CNT_SPLIT
    { off := 0xC005C, dims := [], fields := [
      { lo := 0, width := 32, acc := .ro, keyOff := 0xC005C, keyLo := 0 }] },
    -- SPAN_CNT_GUARD_LATE
    { off := 0xC0060, dims := [], fields := [
      { lo := 0, width := 32, acc := .ro, keyOff := 0xC0060, keyLo := 0 }] },
    -- SPAN_CNT_ALT_SWITCH
    { off := 0xC0064, dims := [], fields := [
      { lo := 0, width := 32, acc := .ro, keyOff := 0xC0064, keyLo := 0 }] },
    -- SPAN_LOST
    { off := 0xC0100, dims := [(32, 0x4)], fields := [
      { lo := 0, width := 32, acc := .ro, keyOff := 0xC0100, keyLo := 0 }] }]

/-- Registers of the ADM block (ADM), part 1. -/
def regsAdm1 : List RegSpec := [
    -- ADM_STAT
    { off := 0xE0000, dims := [], fields := [
      { lo := 15, width := 1, acc := .w1c, keyOff := 0xE0000, keyLo := 15 },
      { lo := 14, width := 1, acc := .w1c, keyOff := 0xE0000, keyLo := 14 },
      { lo := 13, width := 1, acc := .w1c, keyOff := 0xE0000, keyLo := 13 },
      { lo := 12, width := 1, acc := .w1c, keyOff := 0xE0000, keyLo := 12 },
      { lo := 11, width := 1, acc := .w1c, keyOff := 0xE0000, keyLo := 11 },
      { lo := 10, width := 1, acc := .w1c, keyOff := 0xE0000, keyLo := 10 },
      { lo := 9, width := 1, acc := .w1c, keyOff := 0xE0000, keyLo := 9 },
      { lo := 2, width := 1, acc := .ro, keyOff := 0xE0000, keyLo := 2 },
      { lo := 1, width := 1, acc := .ro, keyOff := 0x100000, keyLo := 5 },
      { lo := 0, width := 1, acc := .ro, keyOff := 0xE0000, keyLo := 0 }] },
    -- ADM_SHUT
    { off := 0xE0004, dims := [], fields := [
      { lo := 5, width := 1, acc := .ro, keyOff := 0xE0004, keyLo := 5 },
      { lo := 4, width := 1, acc := .ro, keyOff := 0xE0004, keyLo := 4 },
      { lo := 3, width := 1, acc := .ro, keyOff := 0xE0004, keyLo := 3 },
      { lo := 2, width := 1, acc := .ro, keyOff := 0xE0004, keyLo := 2 },
      { lo := 1, width := 1, acc := .ro, keyOff := 0xE0004, keyLo := 1, rst := 0x1 },
      { lo := 0, width := 1, acc := .ro, keyOff := 0xE0004, keyLo := 0, rst := 0x1 }] },
    -- ADM_CTL
    { off := 0xE0008, dims := [], fields := [
      { lo := 0, width := 1, acc := .wo, keyOff := 0xE0008, keyLo := 0 }] },
    -- ADM_AJ_BASE_LO
    { off := 0xE0010, dims := [], fields := [
      { lo := 0, width := 32, acc := .rw, keyOff := 0xE0010, keyLo := 0 }] },
    -- ADM_AJ_BASE_HI
    { off := 0xE0014, dims := [], fields := [
      { lo := 0, width := 32, acc := .rw, keyOff := 0xE0010, keyLo := 0, shift := 32 }] },
    -- ADM_CJ_BASE_LO
    { off := 0xE0030, dims := [], fields := [
      { lo := 0, width := 32, acc := .rw, keyOff := 0xE0030, keyLo := 0 }] },
    -- ADM_CJ_BASE_HI
    { off := 0xE0034, dims := [], fields := [
      { lo := 0, width := 32, acc := .rw, keyOff := 0xE0030, keyLo := 0, shift := 32 }] },
    -- ADM_AJ_SIZE
    { off := 0xE0018, dims := [], fields := [
      { lo := 0, width := 5, acc := .rw, keyOff := 0xE0018, keyLo := 0, legal := some (10, 20) }] },
    -- ADM_CJ_SIZE
    { off := 0xE0038, dims := [], fields := [
      { lo := 0, width := 5, acc := .rw, keyOff := 0xE0038, keyLo := 0, legal := some (10, 20) }] },
    -- ADM_AJ_RETIRE_LO
    { off := 0xE001C, dims := [], fields := [
      { lo := 0, width := 32, acc := .rw, keyOff := 0xE001C, keyLo := 0 }] },
    -- ADM_AJ_RETIRE_HI
    { off := 0xE0020, dims := [], fields := [
      { lo := 0, width := 32, acc := .rw, keyOff := 0xE001C, keyLo := 0, shift := 32 }] },
    -- ADM_CJ_RETIRE_LO
    { off := 0xE003C, dims := [], fields := [
      { lo := 0, width := 32, acc := .rw, keyOff := 0xE003C, keyLo := 0 }] },
    -- ADM_CJ_RETIRE_HI
    { off := 0xE0040, dims := [], fields := [
      { lo := 0, width := 32, acc := .rw, keyOff := 0xE003C, keyLo := 0, shift := 32 }] },
    -- ADM_AJ_NEXT_LO
    { off := 0xE0024, dims := [], fields := [
      { lo := 0, width := 32, acc := .ro, keyOff := 0xE0024, keyLo := 0 }] },
    -- ADM_AJ_NEXT_HI
    { off := 0xE0028, dims := [], fields := [
      { lo := 0, width := 32, acc := .ro, keyOff := 0xE0024, keyLo := 0, shift := 32 }] },
    -- ADM_CJ_NEXT_LO
    { off := 0xE0044, dims := [], fields := [
      { lo := 0, width := 32, acc := .ro, keyOff := 0xE0044, keyLo := 0 }] },
    -- ADM_CJ_NEXT_HI
    { off := 0xE0048, dims := [], fields := [
      { lo := 0, width := 32, acc := .ro, keyOff := 0xE0044, keyLo := 0, shift := 32 }] },
    -- ADM_OUTSTANDING
    { off := 0xE0050, dims := [], fields := [
      { lo := 0, width := 24, acc := .ro, keyOff := 0xE0050, keyLo := 0 }] },
    -- ADM_RECOV
    { off := 0xE0054, dims := [], fields := [
      { lo := 0, width := 24, acc := .ro, keyOff := 0xE0054, keyLo := 0 }] },
    -- ADM_STREAMS
    { off := 0xE0058, dims := [], fields := [
      { lo := 0, width := 19, acc := .ro, keyOff := 0xE0058, keyLo := 0 }] }]

/-- Registers of the ADM block (ADM), part 2. -/
def regsAdm2 : List RegSpec := [
    -- ADM_PLAN
    { off := 0xE005C, dims := [], fields := [
      { lo := 28, width := 4, acc := .ro, keyOff := 0xE005C, keyLo := 28, src := .image },
      { lo := 16, width := 9, acc := .ro, keyOff := 0xE005C, keyLo := 16, src := .image },
      { lo := 0, width := 13, acc := .ro, keyOff := 0xE005C, keyLo := 0, src := .image }] },
    -- ADM_PROMISE
    { off := 0xE0060, dims := [], fields := [
      { lo := 16, width := 9, acc := .ro, keyOff := 0xE0060, keyLo := 16, src := .image },
      { lo := 0, width := 9, acc := .ro, keyOff := 0xE0060, keyLo := 0, src := .image }] },
    -- ADM_RCAP
    { off := 0xE0064, dims := [], fields := [
      { lo := 26, width := 6, acc := .ro, keyOff := 0xE0064, keyLo := 26 },
      { lo := 24, width := 2, acc := .ro, keyOff := 0xE0064, keyLo := 24 },
      { lo := 0, width := 16, acc := .ro, keyOff := 0xE0064, keyLo := 0 }] },
    -- ADM_CNT_DESC
    { off := 0xE0070, dims := [], fields := [
      { lo := 0, width := 32, acc := .ro, keyOff := 0xE0070, keyLo := 0 }] },
    -- ADM_CNT_RECEIPT
    { off := 0xE0074, dims := [], fields := [
      { lo := 0, width := 32, acc := .ro, keyOff := 0xE0074, keyLo := 0 }] },
    -- ADM_CNT_REFUSE
    { off := 0xE0078, dims := [], fields := [
      { lo := 0, width := 32, acc := .ro, keyOff := 0xE0078, keyLo := 0 }] },
    -- ADM_CNT_OK
    { off := 0xE007C, dims := [], fields := [
      { lo := 0, width := 32, acc := .ro, keyOff := 0xE007C, keyLo := 0 }] },
    -- ADM_CNT_LATE
    { off := 0xE0080, dims := [], fields := [
      { lo := 0, width := 32, acc := .ro, keyOff := 0xE0080, keyLo := 0 }] },
    -- ADM_CNT_FAILED
    { off := 0xE0084, dims := [], fields := [
      { lo := 0, width := 32, acc := .ro, keyOff := 0xE0084, keyLo := 0 }] },
    -- ADM_CNT_RERUN
    { off := 0xE0088, dims := [], fields := [
      { lo := 0, width := 32, acc := .ro, keyOff := 0xE0088, keyLo := 0 }] },
    -- ADM_CNT_CAUSE
    { off := 0xE0100, dims := [(12, 0x4)], fields := [
      { lo := 0, width := 32, acc := .ro, keyOff := 0xE0100, keyLo := 0 }] },
    -- RING_CTL
    { off := 0xE1000, dims := [(64, 0x40)], fields := [
      { lo := 28, width := 1, acc := .rw, keyOff := 0xE1000, keyLo := 28, rst := 0x1 },
      { lo := 20, width := 8, acc := .rw, keyOff := 0xE1000, keyLo := 20 },
      { lo := 8, width := 12, acc := .rw, keyOff := 0xE1000, keyLo := 8 },
      { lo := 3, width := 5, acc := .rw, keyOff := 0xE1000, keyLo := 3, legal := some (4, 16) },
      { lo := 1, width := 1, acc := .ro, keyOff := 0xE1000, keyLo := 1 },
      { lo := 0, width := 1, acc := .rw, keyOff := 0xE1000, keyLo := 0 }] },
    -- SUB_BASE_LO
    { off := 0xE1004, dims := [(64, 0x40)], fields := [
      { lo := 0, width := 32, acc := .rw, keyOff := 0xE1004, keyLo := 0 }] },
    -- SUB_BASE_HI
    { off := 0xE1008, dims := [(64, 0x40)], fields := [
      { lo := 0, width := 32, acc := .rw, keyOff := 0xE1004, keyLo := 0, shift := 32 }] },
    -- RCPT_BASE_LO
    { off := 0xE100C, dims := [(64, 0x40)], fields := [
      { lo := 0, width := 32, acc := .rw, keyOff := 0xE100C, keyLo := 0 }] },
    -- RCPT_BASE_HI
    { off := 0xE1010, dims := [(64, 0x40)], fields := [
      { lo := 0, width := 32, acc := .rw, keyOff := 0xE100C, keyLo := 0, shift := 32 }] },
    -- CMPL_BASE_LO
    { off := 0xE1014, dims := [(64, 0x40)], fields := [
      { lo := 0, width := 32, acc := .rw, keyOff := 0xE1014, keyLo := 0 }] },
    -- CMPL_BASE_HI
    { off := 0xE1018, dims := [(64, 0x40)], fields := [
      { lo := 0, width := 32, acc := .rw, keyOff := 0xE1014, keyLo := 0, shift := 32 }] },
    -- SUB_DB
    { off := 0xE101C, dims := [(64, 0x40)], fields := [
      { lo := 0, width := 16, acc := .rw, keyOff := 0xE101C, keyLo := 0 }] },
    -- SUB_HEAD
    { off := 0xE1020, dims := [(64, 0x40)], fields := [
      { lo := 0, width := 16, acc := .ro, keyOff := 0xE1020, keyLo := 0 }] }]

/-- Registers of the ADM block (ADM), part 3. -/
def regsAdm3 : List RegSpec := [
    -- RCPT_TAIL
    { off := 0xE1024, dims := [(64, 0x40)], fields := [
      { lo := 0, width := 16, acc := .ro, keyOff := 0xE1024, keyLo := 0 }] },
    -- RCPT_HEAD
    { off := 0xE1028, dims := [(64, 0x40)], fields := [
      { lo := 0, width := 16, acc := .rw, keyOff := 0xE1028, keyLo := 0 }] },
    -- CMPL_TAIL
    { off := 0xE102C, dims := [(64, 0x40)], fields := [
      { lo := 0, width := 16, acc := .ro, keyOff := 0xE102C, keyLo := 0 }] },
    -- CMPL_HEAD
    { off := 0xE1030, dims := [(64, 0x40)], fields := [
      { lo := 0, width := 16, acc := .rw, keyOff := 0xE1030, keyLo := 0 }] }]

/-- Registers of the PWR block (PWR), part 1. -/
def regsPwr1 : List RegSpec := [
    -- PWR_STAT
    { off := 0x100000, dims := [], fields := [
      { lo := 15, width := 1, acc := .w1c, keyOff := 0x100000, keyLo := 15 },
      { lo := 14, width := 1, acc := .w1c, keyOff := 0x100000, keyLo := 14 },
      { lo := 13, width := 1, acc := .w1c, keyOff := 0x100000, keyLo := 13 },
      { lo := 12, width := 1, acc := .w1c, keyOff := 0x100000, keyLo := 12 },
      { lo := 11, width := 1, acc := .w1c, keyOff := 0x100000, keyLo := 11 },
      { lo := 10, width := 1, acc := .w1c, keyOff := 0x100000, keyLo := 10 },
      { lo := 9, width := 1, acc := .w1c, keyOff := 0x100000, keyLo := 9 },
      { lo := 8, width := 1, acc := .w1c, keyOff := 0x100000, keyLo := 8 },
      { lo := 7, width := 1, acc := .w1c, keyOff := 0x100000, keyLo := 7 },
      { lo := 5, width := 1, acc := .ro, keyOff := 0x100000, keyLo := 5 },
      { lo := 4, width := 1, acc := .ro, keyOff := 0x100000, keyLo := 4 },
      { lo := 2, width := 2, acc := .ro, keyOff := 0x100000, keyLo := 2 },
      { lo := 0, width := 2, acc := .ro, keyOff := 0x100000, keyLo := 0 }] },
    -- PWR_OP
    { off := 0x100004, dims := [], fields := [
      { lo := 16, width := 12, acc := .ro, keyOff := 0x100004, keyLo := 16 },
      { lo := 12, width := 4, acc := .ro, keyOff := 0x100004, keyLo := 12 },
      { lo := 8, width := 4, acc := .ro, keyOff := 0x100004, keyLo := 8 },
      { lo := 4, width := 4, acc := .ro, keyOff := 0x100004, keyLo := 4 },
      { lo := 0, width := 4, acc := .ro, keyOff := 0x100004, keyLo := 0 }] },
    -- PWR_RANGE
    { off := 0x100008, dims := [], fields := [
      { lo := 8, width := 16, acc := .rwl, keyOff := 0x100008, keyLo := 8, src := .image, legal := some (1, 65535) },
      { lo := 4, width := 4, acc := .rwl, keyOff := 0x100008, keyLo := 4, src := .image },
      { lo := 0, width := 4, acc := .rwl, keyOff := 0x100008, keyLo := 0, src := .image }] },
    -- PWR_CAP
    { off := 0x10000C, dims := [], fields := [
      { lo := 16, width := 12, acc := .ro, keyOff := 0x10000C, keyLo := 16 },
      { lo := 0, width := 12, acc := .ro, keyOff := 0x10000C, keyLo := 0 }] },
    -- PWR_CAP_CFG
    { off := 0x100010, dims := [], fields := [
      { lo := 16, width := 12, acc := .ro, keyOff := 0x100010, keyLo := 16 },
      { lo := 12, width := 4, acc := .rwl, keyOff := 0x100010, keyLo := 12, src := .image, legal := some (0, 10) },
      { lo := 0, width := 12, acc := .rwl, keyOff := 0x100010, keyLo := 0, src := .image, legal := some (350, 1200) }] },
    -- PWR_LOUVRE
    { off := 0x100014, dims := [], fields := [
      { lo := 16, width := 12, acc := .rwl, keyOff := 0x100014, keyLo := 16, src := .image, legal := some (350, 1200) },
      { lo := 0, width := 12, acc := .rwl, keyOff := 0x100014, keyLo := 0, src := .image, legal := some (350, 1200) }] },
    -- PWR_THERM
    { off := 0x100018, dims := [], fields := [
      { lo := 16, width := 8, acc := .rwl, keyOff := 0x100018, keyLo := 16, src := .image, legal := some (80, 105) },
      { lo := 8, width := 4, acc := .rwl, keyOff := 0x100018, keyLo := 8, src := .image, legal := some (1, 15) },
      { lo := 0, width := 8, acc := .rwl, keyOff := 0x100018, keyLo := 0, src := .image, legal := some (80, 108) }] },
    -- PWR_MEAS
    { off := 0x10001C, dims := [], fields := [
      { lo := 16, width := 16, acc := .ro, keyOff := 0x10001C, keyLo := 16 },
      { lo := 0, width := 16, acc := .ro, keyOff := 0x10001C, keyLo := 0 }] },
    -- PWR_CAL
    { off := 0x100020, dims := [], fields := [
      { lo := 0, width := 16, acc := .ro, keyOff := 0x100020, keyLo := 0, rst := 0x4000 }] },
    -- PWR_DROOP_CFG
    { off := 0x100024, dims := [], fields := [
      { lo := 0, width := 7, acc := .rwl, keyOff := 0x100024, keyLo := 0, src := .image, legal := some (20, 100) }] },
    -- PWR_VREG
    { off := 0x100028, dims := [], fields := [
      { lo := 0, width := 24, acc := .ro, keyOff := 0x100028, keyLo := 0 }] },
    -- PWR_DORMANT
    { off := 0x10002C, dims := [], fields := [
      { lo := 1, width := 3, acc := .ro, keyOff := 0x10002C, keyLo := 1 },
      { lo := 0, width := 1, acc := .wo, keyOff := 0x10002C, keyLo := 0 }] },
    -- PWR_WAKE_AT_LO
    { off := 0x100030, dims := [], fields := [
      { lo := 0, width := 32, acc := .rw, keyOff := 0x100030, keyLo := 0, keep := true }] },
    -- PWR_WAKE_AT_HI
    { off := 0x100034, dims := [], fields := [
      { lo := 0, width := 32, acc := .rw, keyOff := 0x100030, keyLo := 0, shift := 32, keep := true }] },
    -- PWR_CNT_BELOW_FLOOR
    { off := 0x100040, dims := [], fields := [
      { lo := 0, width := 32, acc := .ro, keyOff := 0x100040, keyLo := 0 }] },
    -- PWR_CNT_STRETCH_REQ
    { off := 0x100044, dims := [], fields := [
      { lo := 0, width := 32, acc := .ro, keyOff := 0x100044, keyLo := 0 }] },
    -- PWR_CNT_GUARD
    { off := 0x100048, dims := [], fields := [
      { lo := 0, width := 32, acc := .ro, keyOff := 0x100048, keyLo := 0 }] },
    -- PWR_CNT_THROTTLE
    { off := 0x10004C, dims := [], fields := [
      { lo := 0, width := 32, acc := .ro, keyOff := 0x10004C, keyLo := 0 }] },
    -- PWR_CNT_LOUVRE
    { off := 0x100050, dims := [], fields := [
      { lo := 0, width := 32, acc := .ro, keyOff := 0x100050, keyLo := 0 }] },
    -- PWR_CNT_CAP
    { off := 0x100054, dims := [], fields := [
      { lo := 0, width := 32, acc := .ro, keyOff := 0x100054, keyLo := 0 }] }]

/-- Registers of the PWR block (PWR), part 2. -/
def regsPwr2 : List RegSpec := [
    -- PWR_CNT_DROOP
    { off := 0x100058, dims := [], fields := [
      { lo := 0, width := 32, acc := .ro, keyOff := 0x100058, keyLo := 0 }] },
    -- PWR_DROOP_AC_LO
    { off := 0x100060, dims := [], fields := [
      { lo := 0, width := 32, acc := .ro, keyOff := 0x100060, keyLo := 0 }] },
    -- PWR_DROOP_AC_HI
    { off := 0x100064, dims := [], fields := [
      { lo := 0, width := 32, acc := .ro, keyOff := 0x100060, keyLo := 0, shift := 32 }] },
    -- PWR_LEARN_SEL
    { off := 0x100080, dims := [], fields := [
      { lo := 8, width := 4, acc := .rw, keyOff := 0x100080, keyLo := 8 },
      { lo := 0, width := 8, acc := .rw, keyOff := 0x100080, keyLo := 0 }] },
    -- PWR_LEARN_DATA
    { off := 0x100084, dims := [], fields := [
      { lo := 24, width := 1, acc := .ro, keyOff := 0x100084, keyLo := 24 },
      { lo := 16, width := 8, acc := .ro, keyOff := 0x100084, keyLo := 16 },
      { lo := 0, width := 16, acc := .ro, keyOff := 0x100084, keyLo := 0 }] },
    -- PWR_LEARN_MODEL
    { off := 0x100088, dims := [], fields := [
      { lo := 0, width := 32, acc := .ro, keyOff := 0x100088, keyLo := 0 }] },
    -- PWR_LEARN_CONFIG
    { off := 0x10008C, dims := [], fields := [
      { lo := 0, width := 32, acc := .ro, keyOff := 0x10008C, keyLo := 0 }] },
    -- PWR_OTHER
    { off := 0x100090, dims := [], fields := [
      { lo := 0, width := 16, acc := .ro, keyOff := 0x100090, keyLo := 0 }] },
    -- PWR_FUSED
    { off := 0x100094, dims := [], fields := [
      { lo := 16, width := 16, acc := .ro, keyOff := 0x100094, keyLo := 16, src := .fuse },
      { lo := 0, width := 16, acc := .ro, keyOff := 0x100094, keyLo := 0, src := .fuse }] },
    -- PWR_PHASE
    { off := 0x100100, dims := [(16, 0x4)], fields := [
      { lo := 9, width := 1, acc := .ro, keyOff := 0x100100, keyLo := 9 },
      { lo := 8, width := 1, acc := .ro, keyOff := 0x100100, keyLo := 8 },
      { lo := 4, width := 4, acc := .ro, keyOff := 0x100100, keyLo := 4 },
      { lo := 0, width := 4, acc := .ro, keyOff := 0x100100, keyLo := 0 }] }]

/-- Registers of the BOOT block (BOOT), part 1. -/
def regsBoot1 : List RegSpec := [
    -- BOOT_STAT
    { off := 0x120000, dims := [], fields := [
      { lo := 13, width := 1, acc := .w1c, keyOff := 0x120000, keyLo := 13 },
      { lo := 12, width := 1, acc := .w1c, keyOff := 0x120000, keyLo := 12 },
      { lo := 11, width := 1, acc := .w1c, keyOff := 0x120000, keyLo := 11 },
      { lo := 10, width := 1, acc := .w1c, keyOff := 0x120000, keyLo := 10 },
      { lo := 7, width := 1, acc := .ro, keyOff := 0x120000, keyLo := 7 },
      { lo := 6, width := 1, acc := .ro, keyOff := 0x120000, keyLo := 6 },
      { lo := 4, width := 1, acc := .ro, keyOff := 0x120000, keyLo := 4 },
      { lo := 0, width := 4, acc := .ro, keyOff := 0x120000, keyLo := 0 }] },
    -- BOOT_REC
    { off := 0x120004, dims := [], fields := [
      { lo := 28, width := 4, acc := .ro, keyOff := 0x120004, keyLo := 28, keep := true },
      { lo := 24, width := 4, acc := .ro, keyOff := 0x120004, keyLo := 24, keep := true },
      { lo := 19, width := 5, acc := .ro, keyOff := 0x120004, keyLo := 19, keep := true },
      { lo := 17, width := 2, acc := .ro, keyOff := 0x120004, keyLo := 17, keep := true },
      { lo := 14, width := 2, acc := .ro, keyOff := 0x120004, keyLo := 14, keep := true },
      { lo := 13, width := 1, acc := .ro, keyOff := 0x120004, keyLo := 13, keep := true },
      { lo := 12, width := 1, acc := .ro, keyOff := 0x120004, keyLo := 12, keep := true },
      { lo := 11, width := 1, acc := .ro, keyOff := 0x120004, keyLo := 11, keep := true },
      { lo := 6, width := 5, acc := .ro, keyOff := 0x120004, keyLo := 6 }] },
    -- BOOT_RESET
    { off := 0x120008, dims := [], fields := [
      { lo := 16, width := 16, acc := .ro, keyOff := 0x120008, keyLo := 16, keep := true },
      { lo := 0, width := 4, acc := .ro, keyOff := 0x120008, keyLo := 0, rst := 0x1, keep := true }] },
    -- BOOT_SLOT
    { off := 0x12000C, dims := [], fields := [
      { lo := 24, width := 8, acc := .ro, keyOff := 0x12000C, keyLo := 24, src := .fuse },
      { lo := 16, width := 8, acc := .ro, keyOff := 0x12000C, keyLo := 16, src := .image },
      { lo := 3, width := 1, acc := .ro, keyOff := 0x12000C, keyLo := 3 },
      { lo := 2, width := 1, acc := .ro, keyOff := 0x12000C, keyLo := 2 },
      { lo := 0, width := 1, acc := .rw, keyOff := 0x12000C, keyLo := 0, keep := true }] },
    -- BOOT_EXCL
    { off := 0x120010, dims := [], fields := [
      { lo := 16, width := 16, acc := .ro, keyOff := 0x120010, keyLo := 16, keep := true },
      { lo := 12, width := 2, acc := .ro, keyOff := 0x120010, keyLo := 12, keep := true },
      { lo := 10, width := 2, acc := .ro, keyOff := 0x120010, keyLo := 10, keep := true },
      { lo := 9, width := 1, acc := .ro, keyOff := 0x120010, keyLo := 9, keep := true },
      { lo := 0, width := 8, acc := .ro, keyOff := 0x120010, keyLo := 0, keep := true }] },
    -- BOOT_CTL
    { off := 0x120014, dims := [], fields := [
      { lo := 1, width := 1, acc := .wo, keyOff := 0x120014, keyLo := 1 },
      { lo := 0, width := 1, acc := .wo, keyOff := 0x120014, keyLo := 0 }] },
    -- BOOT_FW
    { off := 0x120018, dims := [], fields := [
      { lo := 0, width := 32, acc := .ro, keyOff := 0x120018, keyLo := 0, src := .image }] },
    -- BOOT_NOR
    { off := 0x12001C, dims := [], fields := [
      { lo := 16, width := 1, acc := .ro, keyOff := 0x12001C, keyLo := 16 },
      { lo := 0, width := 16, acc := .ro, keyOff := 0x12001C, keyLo := 0 }] },
    -- BOOT_UPD_ADDR_LO
    { off := 0x120020, dims := [], fields := [
      { lo := 0, width := 32, acc := .rw, keyOff := 0x120020, keyLo := 0 }] },
    -- BOOT_UPD_ADDR_HI
    { off := 0x120024, dims := [], fields := [
      { lo := 0, width := 32, acc := .rw, keyOff := 0x120020, keyLo := 0, shift := 32 }] },
    -- BOOT_UPD_LEN
    { off := 0x120028, dims := [], fields := [
      { lo := 0, width := 32, acc := .rw, keyOff := 0x120028, keyLo := 0 }] },
    -- BOOT_UPD_CMD
    { off := 0x12002C, dims := [], fields := [
      { lo := 0, width := 1, acc := .wo, keyOff := 0x12002C, keyLo := 0 }] },
    -- BOOT_UPD_STAT
    { off := 0x120030, dims := [], fields := [
      { lo := 31, width := 1, acc := .ro, keyOff := 0x120030, keyLo := 31 },
      { lo := 24, width := 4, acc := .ro, keyOff := 0x120030, keyLo := 24 },
      { lo := 0, width := 24, acc := .ro, keyOff := 0x120030, keyLo := 0 }] },
    -- BOOT_STEP_LO
    { off := 0x120048, dims := [(10, 0x8)], fields := [
      { lo := 0, width := 32, acc := .ro, keyOff := 0x120048, keyLo := 0 }] },
    -- BOOT_STEP_HI
    { off := 0x12004C, dims := [(10, 0x8)], fields := [
      { lo := 0, width := 32, acc := .ro, keyOff := 0x120048, keyLo := 0, shift := 32 }] }]

/-- Registers of the SEC block (SEC), part 1. -/
def regsSec1 : List RegSpec := [
    -- SEC_STAT
    { off := 0x140000, dims := [], fields := [
      { lo := 12, width := 1, acc := .w1c, keyOff := 0x140000, keyLo := 12 },
      { lo := 11, width := 1, acc := .w1c, keyOff := 0x140000, keyLo := 11 },
      { lo := 10, width := 1, acc := .w1c, keyOff := 0x140000, keyLo := 10 },
      { lo := 9, width := 1, acc := .w1c, keyOff := 0x140000, keyLo := 9 },
      { lo := 5, width := 1, acc := .ro, keyOff := 0x140000, keyLo := 5 },
      { lo := 4, width := 1, acc := .ro, keyOff := 0x140000, keyLo := 4 },
      { lo := 3, width := 1, acc := .ro, keyOff := 0x140000, keyLo := 3 },
      { lo := 0, width := 3, acc := .ro, keyOff := 0x140004, keyLo := 0, src := .fuse }] },
    -- SEC_LC
    { off := 0x140004, dims := [], fields := [
      { lo := 31, width := 1, acc := .ro, keyOff := 0x140004, keyLo := 31, keep := true },
      { lo := 30, width := 1, acc := .ro, keyOff := 0x140004, keyLo := 30, keep := true },
      { lo := 27, width := 3, acc := .ro, keyOff := 0x140004, keyLo := 27, keep := true },
      { lo := 6, width := 2, acc := .ro, keyOff := 0x140004, keyLo := 6, src := .fuse },
      { lo := 0, width := 3, acc := .ro, keyOff := 0x140004, keyLo := 0, src := .fuse }] },
    -- SEC_LC_NONCE
    { off := 0x140008, dims := [(4, 0x4)], fields := [
      { lo := 0, width := 32, acc := .ro, keyOff := 0x140008, keyLo := 0 }] },
    -- SEC_LC_WHY
    { off := 0x140018, dims := [], fields := [
      { lo := 0, width := 4, acc := .ro, keyOff := 0x140018, keyLo := 0 }] },
    -- SEC_GEN
    { off := 0x14001C, dims := [], fields := [
      { lo := 8, width := 3, acc := .ro, keyOff := 0x14001C, keyLo := 8, src := .fuse },
      { lo := 0, width := 5, acc := .ro, keyOff := 0x14001C, keyLo := 0, src := .fuse }] },
    -- SEC_SERIAL_LO
    { off := 0x140020, dims := [], fields := [
      { lo := 0, width := 32, acc := .ro, keyOff := 0x140020, keyLo := 0, src := .fuse }] },
    -- SEC_SERIAL_HI
    { off := 0x140024, dims := [], fields := [
      { lo := 0, width := 32, acc := .ro, keyOff := 0x140020, keyLo := 0, shift := 32, src := .fuse }] },
    -- SEC_POLICY_LO
    { off := 0x140028, dims := [], fields := [
      { lo := 0, width := 32, acc := .ro, keyOff := 0x140028, keyLo := 0, src := .image }] },
    -- SEC_POLICY_HI
    { off := 0x14002C, dims := [], fields := [
      { lo := 0, width := 32, acc := .ro, keyOff := 0x140028, keyLo := 0, shift := 32, src := .image }] },
    -- SEC_DENY_CAP
    { off := 0x140030, dims := [], fields := [
      { lo := 4, width := 4, acc := .ro, keyOff := 0x140030, keyLo := 4 },
      { lo := 0, width := 4, acc := .ro, keyOff := 0x140030, keyLo := 0 }] },
    -- SEC_DENY_CNT
    { off := 0x140034, dims := [], fields := [
      { lo := 0, width := 32, acc := .ro, keyOff := 0x140034, keyLo := 0 }] },
    -- SEC_SELFTEST
    { off := 0x140038, dims := [], fields := [
      { lo := 31, width := 1, acc := .ro, keyOff := 0x140038, keyLo := 31 },
      { lo := 30, width := 1, acc := .ro, keyOff := 0x140038, keyLo := 30 },
      { lo := 0, width := 6, acc := .ro, keyOff := 0x140038, keyLo := 0 }] },
    -- SEC_ROM_REV
    { off := 0x14003C, dims := [], fields := [
      { lo := 0, width := 32, acc := .ro, keyOff := 0x14003C, keyLo := 0, src := .fuse }] },
    -- SEC_SPDM
    { off := 0x140040, dims := [], fields := [
      { lo := 8, width := 8, acc := .ro, keyOff := 0x140040, keyLo := 8, rst := 0x12 },
      { lo := 0, width := 2, acc := .ro, keyOff := 0x140040, keyLo := 0 }] },
    -- SEC_MEAS_SEL
    { off := 0x140080, dims := [], fields := [
      { lo := 4, width := 4, acc := .rw, keyOff := 0x140080, keyLo := 4, legal := some (0, 11) },
      { lo := 0, width := 4, acc := .rw, keyOff := 0x140080, keyLo := 0, rst := 0x1, legal := some (1, 8) }] },
    -- SEC_MEAS_DATA
    { off := 0x140084, dims := [], fields := [
      { lo := 0, width := 32, acc := .ro, keyOff := 0x140084, keyLo := 0 }] }]

/-- Registers of the STW block (STW), part 1. -/
def regsStw1 : List RegSpec := [
    -- STW_STAT
    { off := 0x160000, dims := [], fields := [
      { lo := 15, width := 1, acc := .w1c, keyOff := 0x160000, keyLo := 15 },
      { lo := 14, width := 1, acc := .w1c, keyOff := 0x160000, keyLo := 14 },
      { lo := 13, width := 1, acc := .w1c, keyOff := 0x160000, keyLo := 13 },
      { lo := 12, width := 1, acc := .w1c, keyOff := 0x160000, keyLo := 12 },
      { lo := 11, width := 1, acc := .w1c, keyOff := 0x160000, keyLo := 11 },
      { lo := 10, width := 1, acc := .w1c, keyOff := 0x160000, keyLo := 10 },
      { lo := 9, width := 1, acc := .w1c, keyOff := 0x160000, keyLo := 9 },
      { lo := 8, width := 1, acc := .w1c, keyOff := 0x160000, keyLo := 8 },
      { lo := 4, width := 4, acc := .ro, keyOff := 0x160000, keyLo := 4 },
      { lo := 0, width := 4, acc := .ro, keyOff := 0xC, keyLo := 16 }] },
    -- STW_TICKET
    { off := 0x160010, dims := [], fields := [
      { lo := 31, width := 1, acc := .ro, keyOff := 0x160010, keyLo := 31 },
      { lo := 30, width := 1, acc := .ro, keyOff := 0x160010, keyLo := 30 },
      { lo := 29, width := 1, acc := .ro, keyOff := 0x160010, keyLo := 29 },
      { lo := 28, width := 1, acc := .ro, keyOff := 0x160010, keyLo := 28 },
      { lo := 0, width := 20, acc := .ro, keyOff := 0x160010, keyLo := 0 }] },
    -- STW_COMMIT
    { off := 0x160014, dims := [], fields := [
      { lo := 0, width := 20, acc := .wo, keyOff := 0x160014, keyLo := 0 }] },
    -- STW_COMMIT_RES
    { off := 0x160018, dims := [(4, 0x4)], fields := [
      { lo := 31, width := 1, acc := .ro, keyOff := 0x160018, keyLo := 31 },
      { lo := 30, width := 1, acc := .ro, keyOff := 0x160018, keyLo := 30 },
      { lo := 0, width := 20, acc := .ro, keyOff := 0x160018, keyLo := 0 }] },
    -- STW_CORE
    { off := 0x160030, dims := [(4, 0x4)], fields := [
      { lo := 24, width := 8, acc := .ro, keyOff := 0x160030, keyLo := 24 },
      { lo := 16, width := 5, acc := .ro, keyOff := 0x160030, keyLo := 16 },
      { lo := 0, width := 2, acc := .ro, keyOff := 0x160030, keyLo := 0 }] },
    -- STW_BATCH
    { off := 0x160040, dims := [], fields := [
      { lo := 31, width := 1, acc := .ro, keyOff := 0x160040, keyLo := 31 },
      { lo := 21, width := 2, acc := .rw, keyOff := 0x160040, keyLo := 21, legal := some (1, 3) },
      { lo := 0, width := 21, acc := .rw, keyOff := 0x160040, keyLo := 0, legal := some (1, 1048576) }] },
    -- STW_BATCH_ID
    { off := 0x160044, dims := [], fields := [
      { lo := 0, width := 32, acc := .ro, keyOff := 0x160044, keyLo := 0 }] },
    -- STW_NEXT
    { off := 0x160048, dims := [], fields := [
      { lo := 0, width := 32, acc := .ro, keyOff := 0x160048, keyLo := 0 }] },
    -- STW_DONE
    { off := 0x16004C, dims := [], fields := [
      { lo := 0, width := 32, acc := .ro, keyOff := 0x16004C, keyLo := 0 }] },
    -- STW_RECLAIM_LEN
    { off := 0x160050, dims := [], fields := [
      { lo := 0, width := 32, acc := .ro, keyOff := 0x160050, keyLo := 0 }] },
    -- STW_WDOG
    { off := 0x160054, dims := [], fields := [
      { lo := 0, width := 10, acc := .rwl, keyOff := 0x160054, keyLo := 0, src := .image, legal := some (1, 1000) }] },
    -- STW_CNT_COMMIT
    { off := 0x160060, dims := [], fields := [
      { lo := 0, width := 32, acc := .ro, keyOff := 0x160060, keyLo := 0 }] },
    -- STW_CNT_DUP
    { off := 0x160064, dims := [], fields := [
      { lo := 0, width := 32, acc := .ro, keyOff := 0x160064, keyLo := 0 }] },
    -- STW_CNT_RECLAIM
    { off := 0x160068, dims := [], fields := [
      { lo := 0, width := 32, acc := .ro, keyOff := 0x160068, keyLo := 0 }] },
    -- STW_CNT_RESET
    { off := 0x16006C, dims := [], fields := [
      { lo := 0, width := 32, acc := .ro, keyOff := 0x16006C, keyLo := 0 }] },
    -- STW_CNT_MBOX
    { off := 0x160070, dims := [], fields := [
      { lo := 0, width := 32, acc := .ro, keyOff := 0x160070, keyLo := 0 }] },
    -- STW_CNT_MBOX_ERR
    { off := 0x160074, dims := [], fields := [
      { lo := 0, width := 32, acc := .ro, keyOff := 0x160074, keyLo := 0 }] }]

/-- Registers of the IRQ block (IRQ), part 1. -/
def regsIrq1 : List RegSpec := [
    -- IRQ_PEND
    { off := 0x180000, dims := [(8, 0x4)], fields := [
      { lo := 0, width := 32, acc := .ro, keyOff := 0x180000, keyLo := 0 }] },
    -- IRQ_EN
    { off := 0x180060, dims := [(8, 0x4)], fields := [
      { lo := 0, width := 32, acc := .ro, keyOff := 0x180060, keyLo := 0 }] },
    -- IRQ_LINE
    { off := 0x1800C0, dims := [(8, 0x4)], fields := [
      { lo := 0, width := 32, acc := .ro, keyOff := 0x1800C0, keyLo := 0 }] },
    -- IRQ_INSVC
    { off := 0x1800E0, dims := [(8, 0x4)], fields := [
      { lo := 0, width := 32, acc := .ro, keyOff := 0x1800E0, keyLo := 0 }] },
    -- TGT_THRESH
    { off := 0x180200, dims := [(5, 0x20)], fields := [
      { lo := 0, width := 4, acc := .rw, keyOff := 0x180200, keyLo := 0 }] },
    -- TGT_CLAIM
    { off := 0x180204, dims := [(5, 0x20)], fields := [
      { lo := 8, width := 1, acc := .ro, keyOff := 0x180204, keyLo := 8 },
      { lo := 0, width := 8, acc := .ro, keyOff := 0x180204, keyLo := 0 }] },
    -- TGT_COMPLETE
    { off := 0x180208, dims := [(5, 0x20)], fields := [
      { lo := 0, width := 8, acc := .wo, keyOff := 0x180208, keyLo := 0 }] },
    -- TGT_RUN
    { off := 0x18020C, dims := [(5, 0x20)], fields := [
      { lo := 4, width := 4, acc := .ro, keyOff := 0x18020C, keyLo := 4 },
      { lo := 0, width := 4, acc := .ro, keyOff := 0x18020C, keyLo := 0 }] },
    -- TGT_MOD
    { off := 0x180210, dims := [(5, 0x20)], fields := [
      { lo := 0, width := 10, acc := .rwl, keyOff := 0x180210, keyLo := 0, src := .image }] },
    -- TGT_STAT
    { off := 0x180214, dims := [(5, 0x20)], fields := [
      { lo := 2, width := 1, acc := .ro, keyOff := 0x180214, keyLo := 2 },
      { lo := 1, width := 1, acc := .ro, keyOff := 0x180214, keyLo := 1 },
      { lo := 0, width := 1, acc := .ro, keyOff := 0x180214, keyLo := 0 }] },
    -- TGT_CNT_DELIVER
    { off := 0x180218, dims := [(5, 0x20)], fields := [
      { lo := 0, width := 32, acc := .ro, keyOff := 0x180218, keyLo := 0 }] },
    -- TGT_CNT_BADCOMP
    { off := 0x18021C, dims := [(5, 0x20)], fields := [
      { lo := 0, width := 32, acc := .ro, keyOff := 0x18021C, keyLo := 0 }] },
    -- IRQ_HOST_EOI
    { off := 0x180300, dims := [], fields := [
      { lo := 0, width := 8, acc := .wo, keyOff := 0x180300, keyLo := 0 }] },
    -- IRQ_LATCH
    { off := 0x180400, dims := [], fields := [
      { lo := 4, width := 1, acc := .w1c, keyOff := 0x180400, keyLo := 4, keep := true },
      { lo := 3, width := 1, acc := .w1c, keyOff := 0x180400, keyLo := 3, keep := true },
      { lo := 2, width := 1, acc := .w1c, keyOff := 0x180400, keyLo := 2, keep := true },
      { lo := 1, width := 1, acc := .w1c, keyOff := 0x180400, keyLo := 1, keep := true },
      { lo := 0, width := 1, acc := .w1c, keyOff := 0x180400, keyLo := 0, keep := true }] },
    -- IRQ_PINS
    { off := 0x180404, dims := [], fields := [
      { lo := 3, width := 1, acc := .ro, keyOff := 0x180404, keyLo := 3 },
      { lo := 2, width := 1, acc := .ro, keyOff := 0x180404, keyLo := 2 },
      { lo := 1, width := 1, acc := .ro, keyOff := 0x180404, keyLo := 1 },
      { lo := 0, width := 1, acc := .ro, keyOff := 0x180404, keyLo := 0 }] },
    -- IRQ_SRC
    { off := 0x181000, dims := [(256, 0x4)], fields := [
      { lo := 16, width := 8, acc := .rw, keyOff := 0x181000, keyLo := 16 },
      { lo := 8, width := 6, acc := .rwl, keyOff := 0x181000, keyLo := 8, src := .image },
      { lo := 7, width := 1, acc := .rwl, keyOff := 0x181000, keyLo := 7, src := .image },
      { lo := 4, width := 3, acc := .rwl, keyOff := 0x181000, keyLo := 4, src := .image, legal := some (0, 4) },
      { lo := 0, width := 4, acc := .rw, keyOff := 0x181000, keyLo := 0, src := .image }] },
    -- MSIX_ADDRESS_LO
    { off := 0x190000, dims := [(256, 0x10)], fields := [
      { lo := 0, width := 32, acc := .rw, keyOff := 0x190000, keyLo := 0 }] },
    -- MSIX_ADDRESS_HI
    { off := 0x190004, dims := [(256, 0x10)], fields := [
      { lo := 0, width := 32, acc := .rw, keyOff := 0x190000, keyLo := 0, shift := 32 }] },
    -- MSIX_DATA
    { off := 0x190008, dims := [(256, 0x10)], fields := [
      { lo := 0, width := 32, acc := .rw, keyOff := 0x190008, keyLo := 0 }] },
    -- MSIX_CTL
    { off := 0x19000C, dims := [(256, 0x10)], fields := [
      { lo := 0, width := 1, acc := .rw, keyOff := 0x19000C, keyLo := 0, rst := 0x1 }] }]

/-- Registers of the IRQ block (IRQ), part 2. -/
def regsIrq2 : List RegSpec := [
    -- MSIX_PBA
    { off := 0x191000, dims := [(8, 0x4)], fields := [
      { lo := 0, width := 32, acc := .ro, keyOff := 0x191000, keyLo := 0 }] }]

/-- Registers of the TEL block (TEL), part 1. -/
def regsTel1 : List RegSpec := [
    -- TEL_TEMP
    { off := 0x1A0000, dims := [(64, 0x4)], fields := [
      { lo := 12, width := 1, acc := .ro, keyOff := 0x1A0000, keyLo := 12 },
      { lo := 0, width := 12, acc := .ro, keyOff := 0x1A0000, keyLo := 0 }] },
    -- TEL_TEMP_MAX
    { off := 0x1A0100, dims := [], fields := [
      { lo := 12, width := 6, acc := .ro, keyOff := 0x1A0100, keyLo := 12 },
      { lo := 0, width := 12, acc := .ro, keyOff := 0x1A0100, keyLo := 0 }] },
    -- TEL_TEMP_PEAK
    { off := 0x1A0104, dims := [], fields := [
      { lo := 12, width := 6, acc := .ro, keyOff := 0x1A0104, keyLo := 12 },
      { lo := 0, width := 12, acc := .ro, keyOff := 0x1A0104, keyLo := 0 }] },
    -- TEL_PORT_TEMP
    { off := 0x1A0108, dims := [], fields := [
      { lo := 16, width := 12, acc := .ro, keyOff := 0x1A0108, keyLo := 16 },
      { lo := 0, width := 12, acc := .ro, keyOff := 0x1A0108, keyLo := 0 }] },
    -- TEL_AON_TEMP
    { off := 0x1A010C, dims := [], fields := [
      { lo := 0, width := 12, acc := .ro, keyOff := 0x1A010C, keyLo := 0, keep := true }] },
    -- TEL_HBM_TEMP
    { off := 0x1A0110, dims := [(8, 0x4)], fields := [
      { lo := 8, width := 1, acc := .ro, keyOff := 0x1A0110, keyLo := 8 },
      { lo := 0, width := 8, acc := .ro, keyOff := 0x1A0110, keyLo := 0 }] },
    -- TEL_VID
    { off := 0x1A0130, dims := [(16, 0x4)], fields := [
      { lo := 0, width := 12, acc := .ro, keyOff := 0x1A0130, keyLo := 0, src := .fuse }] },
    -- TEL_VMON
    { off := 0x1A0200, dims := [(32, 0x4)], fields := [
      { lo := 24, width := 1, acc := .ro, keyOff := 0x1A0200, keyLo := 24 },
      { lo := 12, width := 12, acc := .ro, keyOff := 0x1A0200, keyLo := 12, rst := 0xFFF },
      { lo := 0, width := 12, acc := .ro, keyOff := 0x1A0200, keyLo := 0 }] },
    -- TEL_DROOP_CNT
    { off := 0x1A0280, dims := [(32, 0x4)], fields := [
      { lo := 0, width := 32, acc := .ro, keyOff := 0x1A0280, keyLo := 0 }] },
    -- TEL_PMON
    { off := 0x1A0300, dims := [(3, 0x20), (8, 0x4)], fields := [
      { lo := 0, width := 16, acc := .ro, keyOff := 0x1A0300, keyLo := 0 }] },
    -- TEL_PGRADE
    { off := 0x1A0360, dims := [], fields := [
      { lo := 0, width := 4, acc := .ro, keyOff := 0x1A0360, keyLo := 0, src := .fuse }] },
    -- TEL_RAIL_V
    { off := 0x1A0400, dims := [(16, 0x8)], fields := [
      { lo := 0, width := 16, acc := .ro, keyOff := 0x1A0400, keyLo := 0 }] },
    -- TEL_RAIL_I
    { off := 0x1A0404, dims := [(16, 0x8)], fields := [
      { lo := 0, width := 16, acc := .ro, keyOff := 0x1A0404, keyLo := 0 }] },
    -- TEL_CLR
    { off := 0x1A0500, dims := [], fields := [
      { lo := 2, width := 1, acc := .wo, keyOff := 0x1A0500, keyLo := 2 },
      { lo := 1, width := 1, acc := .wo, keyOff := 0x1A0500, keyLo := 1 },
      { lo := 0, width := 1, acc := .wo, keyOff := 0x1A0500, keyLo := 0 }] }]

/-- Every register of the control window (R46), less the table windows. -/
def regTable : List RegSpec :=
  regsDev1 ++
  regsTick1 ++ regsTick2 ++
  regsCfg1 ++ regsCfg2 ++
  regsArr1 ++
  regsMem1 ++ regsMem2 ++
  regsWgt1 ++ regsWgt2 ++
  regsLnk1 ++ regsLnk2 ++ regsLnk3 ++
  regsSpan1 ++ regsSpan2 ++
  regsAdm1 ++ regsAdm2 ++ regsAdm3 ++
  regsPwr1 ++ regsPwr2 ++
  regsBoot1 ++
  regsSec1 ++
  regsStw1 ++
  regsIrq1 ++ regsIrq2 ++
  regsTel1

end Sys2Proof.Machine
end

