-- ==== Sys2Proof/Machine/Resets.lean ====
section
/-! DEFINITION. Reset values of register fields by key (R23): zero but for the fields listed here, which are the ones a
register table gives another value. -/
namespace Sys2Proof.Machine

/-- Whether `key` is bit `lo` of one of `count` registers from `off` on, `stride` apart. -/
def keyAmong (key off count stride lo : Nat) : Bool :=
  key % 32 == lo && decide (off ≤ key / 32) && (key / 32 - off) % stride == 0 &&
    decide ((key / 32 - off) / stride < count)

/-- Whether `key` is one of the 128 lanes' registers at lane offset `o`, bit `lo`. -/
def laneKey (key o lo : Nat) : Bool :=
  key % 32 == lo && decide (0xA0100 + o ≤ key / 32) && decide ((key / 32 - 0xA0100 - o) / 0x1000 < 16) &&
    (key / 32 - 0xA0100 - o) % 0x1000 % 0x40 == 0 && decide ((key / 32 - 0xA0100 - o) % 0x1000 / 0x40 < 8)

/-- The reset value of the field at `key` (R23 and the register tables). -/
def fldReset (key : Nat) : Nat :=
  if key = 0x10 then 0x4851                               -- DEV_ID.VENDOR_TAG
  else if key = 0x0 then 0x9                              -- DEV_ID.PRODUCT
  else if key = 0x84 then 0xA                             -- DEV_REV.STEP_MAJOR
  else if key = 0x80 then 0x1                             -- DEV_REV.STEP_MINOR
  else if key = 0x20014 * 32 + 2 then 1                   -- CFG_NEXT.EMPTY
  else if key = 0x40024 * 32 + 8 then 0x7F                -- ARR_RETIRE.QCOL
  else if key = 0x40024 * 32 then 0x7F                    -- ARR_RETIRE.COL
  else if keyAmong key 0xA0028 16 0x1000 0 then 20        -- LNK_LOSS_CFG.THRESH
  else if laneKey key 0x30 5 then 2                       -- LANE_EYE_CTL.DWELL
  else if key = 0xC002C * 32 then 0xFF                    -- SPAN_SLACK.MIN_PCT
  else if key = 0xE0004 * 32 + 1 then 1                   -- ADM_SHUT.RECOVERY
  else if key = 0xE0004 * 32 then 1                       -- ADM_SHUT.JOURNAL
  else if keyAmong key 0xE1000 64 0x40 28 then 1          -- RING_CTL.ANY
  else if key = 0x100020 * 32 then 0x4000                 -- PWR_CAL.GAIN
  else if keyAmong key 0x1A0200 32 4 12 then 0xFFF        -- TEL_VMON.MIN_MV
  else if key = 0x120008 * 32 then 1                      -- BOOT_RESET.REASON
  else if key = 0x140040 * 32 + 8 then 0x12               -- SEC_SPDM.VERSION
  else if key = 0x140080 * 32 then 1                      -- SEC_MEAS_SEL.INDEX
  else if keyAmong key 0x19000C 256 16 0 then 1           -- MSI-X MASK
  else 0

end Sys2Proof.Machine
end

