-- ==== Sys2Proof/Machine/SMap.lean ====
section
/-! DEFINITION. Sparse maps: a list of (key, value) pairs in one canonical form, keys strictly rising and no entry
equal to what an unlisted key reads as. Every memory, register file and table of the model is one of these. -/
namespace Sys2Proof.Machine

/-- Reads key `k`; `d` says what an unlisted key reads as. -/
def smapGet {α : Type} (d : Nat → α) : List (Nat × α) → Nat → α
  | [], k => d k
  | (k', v) :: m, k => if k = k' then v else smapGet d m k

/-- Removes key `k`. -/
def smapErase {α : Type} : List (Nat × α) → Nat → List (Nat × α)
  | [], _ => []
  | (k', v) :: m, k => if k = k' then m else if k < k' then (k', v) :: m else (k', v) :: smapErase m k

/-- Puts the pair (`k`, `v`) in its place. -/
def smapPut {α : Type} : List (Nat × α) → Nat → α → List (Nat × α)
  | [], k, v => [(k, v)]
  | (k', v') :: m, k, v =>
    if k = k' then (k, v) :: m
    else if k < k' then (k, v) :: (k', v') :: m
    else (k', v') :: smapPut m k v

/-- Writes key `k`: the value that an unlisted key reads as removes the entry, so equal maps are equal lists. -/
def smapSet {α : Type} [DecidableEq α] (d : Nat → α) (m : List (Nat × α)) (k : Nat) (v : α) : List (Nat × α) :=
  if v = d k then smapErase m k else smapPut m k v

/-- Keys strictly rising. -/
def smapSorted {α : Type} : List (Nat × α) → Bool
  | [] => true
  | (k, _) :: m => m.all (fun p => decide (k < p.1)) && smapSorted m

/-- The canonical form: keys strictly rising, no entry equal to its default. -/
def smapWf {α : Type} [DecidableEq α] (d : Nat → α) (m : List (Nat × α)) : Bool :=
  smapSorted m && m.all (fun p => decide (p.2 ≠ d p.1))

end Sys2Proof.Machine
end

