-- ==== Sys2Proof/Machine/AdmTypes.lean ====
section
/-! DEFINITION. The admission unit's state: the service plan, clients, accepted requests, streams, planned frames and
ring sets (spec/12_admission_service.md R383 to R416, R546). -/
namespace Sys2Proof.Machine

/-- A frame entry of the service plan (R391): KIND 0 service, 1 load, 2 fold, 3 span model. -/
structure PlanEntry where
  kind : Nat := 0
  firmPos : Nat := 0
  spanModel : Nat := 0
  deriving DecidableEq, Repr

/-- A model entry of the service plan (R391, R392). `active` and `planned` list dimensions 0 to 3. -/
structure PlanModel where
  modelId : Nat := 0
  active : List Bool := []
  planned : List Nat := []
  qmax : Nat := 0
  stateUnits : Nat := 0
  modelUnits : Nat := 0
  outSize : Nat := 0
  inBase : Nat := 0
  inRow : Nat := 0
  inDim : Nat := 0
  span : Bool := false
  deriving DecidableEq, Repr

/-- The service plan (R391). `lists` holds the client lists as model-entry indices. -/
structure ServicePlan where
  cycle : Nat := 0
  horizon : Nat := 0
  firmF : Nat := 0
  stdF : Nat := 0
  slackF : Nat := 0
  frames : List PlanEntry := []
  models : List PlanModel := []
  lists : List (List Nat) := []
  deriving DecidableEq, Repr

/-- A client table entry (R412). -/
structure ClientRec where
  admitted : Nat := 0
  completed : Nat := 0
  refused : Nat := 0
  late : Nat := 0
  valid : Bool := false
  firm : Bool := false
  std : Bool := false
  gen : Nat := 0
  list : Nat := 0
  maxout : Nat := 0
  deriving DecidableEq, Repr

/-- A request descriptor (R388). -/
structure Descriptor where
  op : Nat := 0
  firm : Bool := false
  client : Nat := 0
  model : Nat := 0
  stream : Nat := 0
  shape : Nat := 0
  tag : Nat := 0
  inAddr : Nat := 0
  inLen : Nat := 0
  outAddr : Nat := 0
  outLen : Nat := 0
  reservedZero : Bool := true
  deriving DecidableEq, Repr

/-- A cause that bears on a request's completion: whether it fails the request, the cause, its event's stamp (R399,
R400), and whether a RESET came from a thermal trip or a supply failure (R397). -/
structure ReqCause where
  failed : Bool
  cause : Cause
  stamp : Stamp
  trip : Bool := false
  deriving DecidableEq, Repr

/-- An accepted request without a completion record. `frame` is the plan index of its serving frame; `committed` the
stamp of the commit of its results and the number of the frame that committed them; `visible` whether the ending tick of
that frame has passed; `pinned` whether its epoch is pinned for it; `fetchTick` the bound of the fetch it waited for. -/
structure Req where
  aseq : Nat
  ring : Nat
  subidx : Nat := 0
  d : Descriptor := {}
  epoch : Nat := 0
  promised : Nat := 0
  pinned : Bool := false
  fetchTick : Option Nat := none
  rerun : Bool := false
  stateLost : Bool := false
  frame : Option Nat := none
  causes : List ReqCause := []
  moved : Option (Cause × Stamp) := none
  failed : Option Stamp := none
  committed : Option Stamp := none
  commitFrame : Nat := 0
  visible : Bool := false
  drops : Nat := 0
  diverts : Nat := 0
  nans : Nat := 0
  deriving DecidableEq, Repr

/-- An open stream (R410, R411). -/
structure StreamRec where
  client : Nat
  stream : Nat
  model : Nat
  stateful : Bool := false
  broken : Option Cause := none
  deriving DecidableEq, Repr

/-- A frame planned for a model and epoch, keyed by its plan index (R393, R546); `reqs` are ASEQs in admission order. -/
structure PlanFrame where
  idx : Nat
  model : Nat
  epoch : Nat
  reqs : List Nat := []
  deriving DecidableEq, Repr

/-- A ring set's own state beside its registers: the PHASE of the present pass of each written ring (R384), and the
entries that wait for room or for the set to be enabled (R386, R387, R407). -/
structure RingSt where
  rcptPhase : Bool := true
  cmplPhase : Bool := true
  waitRcpt : List (List Byte) := []
  waitCmpl : List (List Byte) := []
  deriving DecidableEq, Repr

/-- The admission unit. `nextIdx` is the plan index that the next frame to carry one will carry; `frameIdx` is the one
the present frame carries. `ajNamed` and the like say which halves of the journal bases have been written since the
reset (R407). `announce` lists the ring sets with an entry to announce (R417). `ajRetire` and
`cjRetire` are the retire points in force (R418). -/
structure AdmSt where
  plan : ServicePlan := {}
  clients : List (Nat × ClientRec) := []
  reqs : List Req := []
  streams : List StreamRec := []
  frames : List PlanFrame := []
  nextIdx : Nat := 0
  frameIdx : Option Nat := none
  rings : List (Nat × RingSt) := []
  lastSet : Nat := 63
  recoverAsked : Bool := false
  recovered : Bool := false
  ajBaseLo : Bool := false
  ajBaseHi : Bool := false
  cjBaseLo : Bool := false
  cjBaseHi : Bool := false
  announce : List Nat := []
  ajRetire : Nat := 0
  cjRetire : Nat := 0
  ejecting : Bool := false
  stopped : Bool := false
  deriving DecidableEq, Repr

end Sys2Proof.Machine
end

