-- ==== Sys2Proof/Machine/EventTypes.lean ====
section
/-! DEFINITION. What the module reports: the kinds of stamped events (R73 to R76). -/
namespace Sys2Proof.Machine

/-- Kinds of event that rules say the module stamps. -/
inductive EventKind where
  | tick
  | arrayFault (kind port : Nat)
  | stretch (cause : Cause)
  | overrun (cause : Cause)
  | lateGrant
  | commit
  | flip
  | abort (cause : Cause)
  | modeRequest (target : Nat)
  | modeChange (mode : Nat)
  | nearErase (stack die : Nat)
  | nearLoss (stack : Nat)
  | bulkErase (package die : Nat)
  | bulkLoss (side : Nat)
  | lateWord (stack : Nat)
  | digestScrub (model epoch shard : Nat)
  | columnRetired (col : Nat)
  | ringHalt (ring kind : Nat)
  | receipt (client request : Nat)
  | completion (client request : Nat)
  | shutter (reasons : Nat)
  | latch (n : Nat)
  | linkChange (port code : Nat)
  | member (ord code : Nat)
  | power (code : Nat)
  | boot (code : Nat)
  | security (code : Nat)
  | steward (code n : Nat)
  | tally (model : Nat)
  deriving DecidableEq, Repr

end Sys2Proof.Machine
end

