-- ==== Sys2Proof/Machine/MemTypes.lean ====
section
/-! DEFINITION. The memory tiers' state (spec/08_memory_tiers.md): the Residency Directory, the per-epoch records, state
regions, fetch jobs, Store controllers. -/
namespace Sys2Proof.Machine

/-- A Residency Directory entry (R262). -/
structure DirEntry where
  modelId : Nat := 0
  epoch : Nat := 0
  valid : Bool := false
  active : Bool := false
  unusable : Bool := false
  fetch : Bool := false
  near : Bool := false
  bulk : Bool := false
  store : Bool := false
  pin : Nat := 0
  lastUse : Nat := 0
  map : Nat := 0
  shards : Nat := 0
  gen : Nat := 0
  nearSize : Nat := 0
  bulkSize : Nat := 0
  deriving DecidableEq, Repr

/-- An object record of a manifest (R283): KIND 1 configuration west part, 2 east part, 3 route table. -/
structure ObjRec where
  kind : Nat := 0
  shard : Nat := 0
  off : Nat := 0
  len : Nat := 0
  configId : Nat := 0
  deriving DecidableEq, Repr

/-- A run of `n` blocks of Store from one block on (R256). -/
structure BlockRun where
  drive : Nat
  lba : Nat
  n : Nat
  deriving DecidableEq, Repr

/-- A shard of an epoch: its manifest figures and where its copies lie. Near: the stack and the units
within it, in order; Bulk: the side and its units; Store: the runs of its blocks, in order (R249, R256, R283). `placed` says that Near
units are held or reserved, `written` that the shard is there, `fromBulk` that it was read from Bulk. -/
structure ShardRec where
  side : Nat := 0
  home : Nat := 0
  tfirst : Nat := 0
  tlast : Nat := 0
  ulen : Nat := 0
  clen : Nat := 0
  crc : Nat := 0
  digest : Nat := 0
  runs : List BlockRun := []
  nearStack : Nat := 0
  nearUnits : List Nat := []
  bulkSide : Nat := 0
  bulkUnits : List Nat := []
  placed : Bool := false
  written : Bool := false
  inBulk : Bool := false
  digestOk : Bool := false
  scrubbed : Bool := false
  resent : Bool := false
  fromBulk : Bool := false
  deriving DecidableEq, Repr

/-- The record of a registered epoch, from its manifest and the catalogue (R256, R283, R300). `checked` lists the
configurations whose check-only pass has succeeded; `routeOk` says that the route table has. `routeAt` holds the schedule cycle at which a
configuration's routing stage serves a half of a layer, the combine as half 2 or 3, once a frame has shown it (R224). -/
structure EpochRec where
  model : Nat := 0
  epoch : Nat := 0
  q5 : Bool := false
  span : Bool := false
  layout : Nat := 0
  stateTag : Nat := 0
  shards : List ShardRec := []
  objects : List ObjRec := []
  stagePin : Bool := false
  checked : List Nat := []
  routeOk : Bool := false
  routeAt : List ((Nat × Nat × Nat) × Nat) := []
  routeRun : List (Nat × Nat) := []
  deriving DecidableEq, Repr

/-- A fetch job (R266, R269): the queue it stands in, its bound in nanoseconds of device time, its planned duration. `security` that its
requests fail with SECURITY and not CAPACITY, because a digest scrub discarded the epoch's copy; `waiting` marks the job of a pending
switch's target, whose units are not reserved yet (R304); `issued` says that its Read commands have been issued (R255). -/
structure FetchJob where
  model : Nat
  epoch : Nat
  fromStore : Bool
  bound : Nat
  durationUs : Nat
  missed : Bool := false
  waiting : Bool := false
  security : Bool := false
  issued : Bool := false
  deriving DecidableEq, Repr

/-- Who owns a state region (R252): a stream of a client, or a model. -/
inductive RegionOwner where
  | stream (client stream : Nat)
  | model (id : Nat)
  deriving DecidableEq, Repr

/-- A state region (R250): `size` bytes, `units` of one stack, the first half of the list being the first half of the
region; `current` names, per line, the half that is current (true: the second); `written` lists the lines the frame has
written; `lastFrame` is the tick number of the last frame of its model that has committed, for a model's region (R231). -/
structure StateRegion where
  owner : RegionOwner
  size : Nat
  stack : Nat
  units : List Nat
  current : List (Nat × Bool) := []
  written : List Nat := []
  lastFrame : Nat := 0
  deriving DecidableEq, Repr

/-- The catalogue in Store (R256, R258, R297): registered epochs, transoms by model, WGEN_HIGH, the free blocks, the blocks that each attached
drive gives Store, and the WGEN_HIGH that each of the two header copies holds, none for one never written. -/
structure Catalogue where
  epochs : List EpochRec := []
  transoms : List (Nat × Nat) := []
  wgenHigh : Nat := 0
  own : List BlockRun := []
  drives : List (Nat × Nat) := []
  head0 : Option Nat := none
  head1 : Option Nat := none
  deriving DecidableEq, Repr

/-- A pending switch of a model (R304): the old and the new epoch and the drain tick. -/
structure PendSwitch where
  model : Nat
  old : Nat
  target : Nat
  drain : Nat
  deriving DecidableEq, Repr

/-- The tiers. `near` and `bulk` hold bytes by region-1 and region-2 offset; `dir` holds entry e at key e; `recs` the records of the epochs
the directory holds; `jobs` both fetch queues in order, `retries` the Store reads (controller, LBA, whether the tag failed) that are being
read once more (R260). `early` holds what stewards have written into Near before the memory wipe, by region-1 offset, as 1 more than the
byte (R278). -/
structure MemSt where
  near : List Host.Cell := []
  bulk : List Host.Cell := []
  dir : List (Nat × DirEntry) := []
  recs : List EpochRec := []
  regions : List StateRegion := []
  jobs : List FetchJob := []
  catalogue : Catalogue := {}
  switches : List PendSwitch := []
  retries : List (Nat × Nat × Bool) := []
  early : List (Nat × Nat) := []
  deriving DecidableEq, Repr

end Sys2Proof.Machine
end

