-- ==== Sys2Proof/Machine/OutTypes.lean ====
section
/-! DEFINITION. What the block sends out: host-memory writes, messages on the links and to other units, responses. -/
namespace Sys2Proof.Machine

/-- The ordering attributes of a PCIe write: Relaxed Ordering and ID-Based Ordering. With both clear it passes no earlier write (R80). -/
structure TlpAttr where
  relaxed : Bool := false
  idBased : Bool := false
  deriving DecidableEq, Repr

/-- A thing the block sends. -/
inductive OutMsg where
  /-- A posted write to host memory, with its ordering attributes (R80): results are relaxed; ring entries and journal records not. -/
  | hostWrite (addr : Nat) (bytes : List Byte) (attr : TlpAttr)
  /-- An MSI-X message, which is not relaxed (R80, R509, R511). -/
  | msix (addr data : Nat) (attr : TlpAttr)
  /-- An NVMe command to a Store controller: the namespace that it names (0 where it names none), its command set, opcode, and first operand (R255). -/
  | nvme (ctrl nsid : Nat) (admin : Bool) (opcode arg : Nat)
  /-- A block written to Store: drive, LBA, its ciphertext and its 64 B of metadata (R256, R257). -/
  | storeWrite (drive lba : Nat) (cipher metadata : List Byte)
  /-- A flit that leaves a port on a lane, with the NAK and ACK set as it leaves (R319). -/
  | flit (port lane : Nat) (nak : Bool) (ack : Nat) (f : Flit)
  /-- The header of a codeword pair on a lane (R315); the pair's five flits follow. -/
  | pair (port lane header : Nat)
  /-- PAM4 symbols of a test pattern on a lane, 0 to 3 (R344). -/
  | prbs (port lane : Nat) (symbols : List Nat)
  /-- The end of a board access to its requester: whether it is an error completion (R44, R341), and what was read. -/
  | boardDone (who : Requester) (error : Bool) (words : List Nat)
  /-- What a read of a register returns to its requester. -/
  | readDone (who : Requester) (offset value : Nat)
  /-- A mailbox response: its PCI vendor ID and the rest of its body (R492). -/
  | mailbox (who : Requester) (vendor : Nat) (body : List Byte)
  /-- A rail that turns on or off (R529, R530). -/
  | rail (r : Nat) (on : Bool)
  /-- An MCTP control response: completion code and data (R481). -/
  | mctp (code : Nat) (data : List Byte)
  /-- An SPDM response, in a session or outside one: its code, parameters 1 and 2, and data (R482). -/
  | spdm (session : Option Nat) (code p1 p2 : Nat) (data : List Byte)
  deriving DecidableEq, Repr

end Sys2Proof.Machine
end

