-- ==== Sys2Proof/Machine/PowerTypes.lean ====
section
/-! DEFINITION. The power controller's state (spec/13_power_thermal.md R419 to R443). -/
namespace Sys2Proof.Machine

/-- An entry of the learning table (R428): `e` lists E_0 on, of its phases, in 0.1 µJ per 1,000 ac at V14. -/
structure LearnEntry where
  model : Nat
  config : Nat
  frames : Nat := 0
  e : List Rat := []
  deriving DecidableEq, Repr

/-- A phase of the frame that ran last: its configuration and index, and the point chosen for it. -/
structure RestPhase where
  model : Nat
  config : Nat
  k : Nat
  op : Nat
  deriving DecidableEq, Repr

/-- What one cluster did: MAC steps by FMT, VEC words, SRAM reads and writes, and words moved through switches and on row buses (R423). -/
structure ClusterCount where
  mac : List Nat := []
  vec : Nat := 0
  sram : Nat := 0
  moved : Nat := 0
  deriving DecidableEq, Repr

/-- The power controller. Powers are in 0.1 W. `rackCap` is the rack cap, `phaseCap` the cap lowered by regulator-phase
loss; `throttle` the points by which throttling lowers each phase's ceiling, `throttleAt` the time of its latest step, `hot` that the last step's
condition still holds, `coolSince` since when every reading has been HYST_C below its threshold; `guardMax` the point to which the fast
guard holds phase `guardPhase`; `calHeld` the updates for which G has sat at a bound; `est` lists the calibrated estimates of the last
100 µs, newest first; `others` the last measurements of P_other; `sums` the array-rail energies gathered for each phase of the
frame: their sum and their count; `learn` the table by slot and `lru` its slots, least recently used first; `railMv` the array rail's
voltage; `droop` a droop stretch, `droopAc` its array cycles, `opWait` the point that takes effect at its end, `lag` the µs by
which stretches have put the array behind the plan; `leadTo` the point of the next frame's phase 0 toward which a raise is led; `rest` lists
the phases of the frame that ran last, each with its chosen point (R434, R441); `counts` the activity of each cluster
since the last estimate (R423); `vmonSeen` the voltage monitors that have had a reading; `peakSeen` that
a hottest reading has been kept; `belowFloor`, `powerGrant`: the frame is below its floor, a POWER grant has
moved its tick. -/
structure PwrSt where
  rackCap : Nat := 12000
  phaseCap : Option Nat := none
  throttle : List Nat := []
  throttleAt : Nat := 0
  hot : Bool := false
  coolSince : Option Nat := none
  guardMax : Option Nat := none
  guardPhase : Nat := 0
  calHeld : Nat := 0
  est : List Rat := []
  others : List Nat := []
  sums : List (Nat × Rat × Nat) := []
  learn : List (Nat × LearnEntry) := []
  lru : List Nat := []
  railMv : Nat := 550
  droop : Bool := false
  droopAc : Nat := 0
  opWait : Option Nat := none
  lag : Rat := 0
  leadTo : Option Nat := none
  rest : List RestPhase := []
  counts : List (Nat × ClusterCount) := []
  vmonSeen : Nat := 0
  peakSeen : Bool := false
  belowFloor : Bool := false
  powerGrant : Bool := false
  dormant : Bool := false
  deriving DecidableEq, Repr

end Sys2Proof.Machine
end

