-- ==== Sys2Proof/Machine/State.lean ====
section
/-! DEFINITION. The module's state (every register, buffer, mode and pin that the spec gives it, and the queue of waiting commands), how a
step may stop, and the state after a cold reset. -/
namespace Sys2Proof.Machine

/-- Reasons for which a step stops with a fault: none. Every event that the spec describes has an effect, or is not possible in the
present state and then changes nothing; a machine fault is a register's bit or an interrupt, which is state. -/
inductive Fault where
  deriving DecidableEq, Repr

/-- Reasons for which a command is not taken. -/
inductive Refusal where
  /-- A command without a meaning in this model, by its mnemonic: raised by an arm of `exec` alone. Safe: the step has no next state. -/
  | notModelled (mnemonic : String)
  deriving DecidableEq, Repr

/-- The weight-command engine (R289, R290): the command that runs, 0 for none, and the result that it will end with; `qModel` is the model
that WGT_Q_EPOCH shows (R304, R308). -/
structure WgtSt where
  op : Nat := 0
  qModel : Nat := 0
  result : Option Nat := none
  deriving DecidableEq, Repr

/-- What the first event of the latest cycle that brought one would have captured, by the status bits that guard the capture: fields and their
values, the cycle as tick, cycle-in-frame and device time, and the guarding bits that were set before it. -/
structure CapEntry where
  guards : List Fld
  cycle : Nat × Nat × Nat
  before : List Fld
  vals : List (Fld × Nat)
  deriving DecidableEq, Repr

/-- The state. `flds` holds the fields of the registers that have no home of their own, by their keys; a field that it does not list has
its reset value (`fldReset`). `hiLatch` holds the words that reads of _LO registers have latched (R83). `cells` the array's cells that
differ from a reset one. `links` the ports. `out` is what the module has sent, oldest first. `stampCnt` counts stamps by source,
`stampAhead` lists, by tick and source, those of frames to come (R77), `events` lists the stamped events (R73). `caps` keeps, for each set of
capture registers, what a clear of their status bits in the cycle of the latest event would make them load. `freeCtr` is the model's own: it
numbers the free values that have been used. -/
structure State where
  pending : List Instr := []
  flds : List (Nat × Nat) := []
  hiLatch : List (Nat × Nat) := []
  frame : FrameSt := {}
  cells : List (Nat × Cell) := []
  mem : MemSt := {}
  wgt : WgtSt := {}
  adm : AdmSt := {}
  out : List OutMsg := []
  links : List (Nat × LinkSt) := []
  span : SpanSt := {}
  pwr : PwrSt := {}
  modes : ModeStore := {}
  pins : PinSt := {}
  fuses : FuseSt := {}
  nor : NorSt := {}
  boot : BootSt := {}
  irq : IrqSt := {}
  stw : StwSt := {}
  spdm : SpdmSt := {}
  stampCnt : List (Nat × Nat) := []
  stampAhead : List (Nat × Nat) := []
  caps : List CapEntry := []
  events : List (Stamp × EventKind) := []
  freeCtr : Nat := 0
  deriving DecidableEq, Repr

/-- The module after a cold reset with power up, before its first start: every register at its reset value, every memory reading zeros, the
queue empty. -/
def State.reset : State := {}

end Sys2Proof.Machine
end

