-- ==== Sys2Proof/Machine/Ops.lean ====
section
/-! DEFINITION. The named operations over register fields, counters, stamps and captures that every meaning uses
(R20 to R26, R54, R73 to R77). -/
namespace Sys2Proof.Machine

/-- The value of a register field. -/
def getF (s : State) (f : Fld) : Nat := smapGet fldReset s.flds f.key

/-- Sets a register field, cut to its width. -/
def setF (s : State) (f : Fld) (v : Nat) : State :=
  { s with flds := smapSet fldReset s.flds f.key (v % 2 ^ f.width) }

/-- Whether a one-bit field reads 1. -/
def isSet (s : State) (f : Fld) : Bool := decide (getF s f ≠ 0)

/-- Sets a status bit (R24 to R26). -/
def raise (s : State) (f : Fld) : State := setF s f 1

/-- Clears a status bit. -/
def lower (s : State) (f : Fld) : State := setF s f 0

def setBool (s : State) (f : Fld) (b : Bool) : State := setF s f (if b then 1 else 0)

/-- Adds `n` to a counter, saturating at the top of its field. -/
def addF (s : State) (f : Fld) (n : Nat) : State := setF s f (satAdd f.width (getF s f) n)

/-- Counts one event. -/
def bump (s : State) (f : Fld) : State := addF s f 1

/-- Bit `n` of a field. -/
def bitF (s : State) (f : Fld) (n : Nat) : Bool := bitOf (getF s f) n

/-- Sets or clears bit `n` of a field. -/
def setBitF (s : State) (f : Fld) (n : Nat) (b : Bool) : State :=
  let x := getF s f
  setF s f (if b then Nat.lor x (2 ^ n) else if bitOf x n then x - 2 ^ n else x)

/-- Sets some fields. -/
def setFields (s : State) (l : List (Fld × Nat)) : State := l.foldl (fun s p => setF s p.1 p.2) s

/-- The cycle that a command falls into: the tick, the cycle-in-frame, and the device time, which moves also where those stand. -/
def cycleNow (s : State) : Nat × Nat × Nat := (getF s F.TICK_NOW, getF s F.TICK_CIF_CIF, getF s F.TICK_DT)

/-- The entry of a capture that an event of the present cycle has left. -/
def capturedNow (s : State) (guards : List Fld) : Bool := s.caps.any (fun c => c.guards == guards && c.cycle == cycleNow s)

/-- The capture of an event: the fields load while none of the status bits that guard them is set, and hold otherwise; what the first event of
this cycle would have them load is kept for a clear of those bits in the same cycle (R49, R124, R185, R282, R309, R350, R382, R418, R487). -/
def capture (s : State) (guards : List Fld) (vals : List (Fld × Nat)) : State :=
  let before := guards.filter (isSet s)
  let s := if !before.isEmpty && capturedNow s guards then s
    else { s with caps := s.caps.filter (fun c => decide (c.guards ≠ guards)) ++ [⟨guards, cycleNow s, before, vals⟩] }
  if before.isEmpty then setFields s vals else s

/-- Counts a later event of a capture, in its counter and in what the cycle's first event would load. -/
def countLater (s : State) (guards : List Fld) (cnt : Fld) : State :=
  let entry := fun (c : CapEntry) => if c.guards = guards ∧ c.cycle = cycleNow s then
    { c with vals := c.vals.map (fun p => if p.1 = cnt then (p.1, satAdd cnt.width p.2 1) else p) } else c
  bump { s with caps := s.caps.map entry } cnt

/-- The cycle-in-frame at which it holds (R54). -/
def cifMax : Nat := 0x1FFFFFF

/-- The numbering of causes in records and registers (R397). -/
def Cause.num : Cause → Nat
  | .ok => 0 | .extent => 1 | .capacity => 2 | .classCause => 3 | .power => 4 | .link => 5
  | .memberLoss => 6 | .reset => 7 | .nearLoss => 8 | .schedule => 9 | .security => 10 | .drain => 11

/-- Source indices (R75). -/
def srcTick : Nat := 0x1000
def srcSteward (n : Nat) : Nat := 0x1010 + n
def srcIrq : Nat := 0x1020
def srcSecurity : Nat := 0x1021
def srcBoot : Nat := 0x1022
def srcMgmt : Nat := 0x1023
def srcAlwaysOn : Nat := 0x1024
def srcPower : Nat := 0x1030
def srcNear (n : Nat) : Nat := 0x1040 + n
def srcBulk (n : Nat) : Nat := 0x1050 + n
def srcDecomp (n : Nat) : Nat := 0x1060 + n
def srcLink (n : Nat) : Nat := 0x1070 + n
def srcAdmission : Nat := 0x1080
def srcDirectory : Nat := 0x1081
def srcPlanner : Nat := 0x1082
def srcEngines : Nat := 0x1083
def srcStore : Nat := 0x1084
def srcConfig : Nat := 0x1090

/-- What an unlisted stamp count is. -/
def zeroNat (_ : Nat) : Nat := 0

/-- The stamp a source takes now: tick, cycle-in-frame, HELD, and how many events it stamped earlier in the frame
(R54, R73, R76). -/
def stampNow (s : State) (src : Nat) : Stamp :=
  { tick := getF s F.TICK_NOW, cif := getF s F.TICK_CIF_CIF, src := src,
    held := decide (getF s F.TICK_CIF_CIF = cifMax), seq := smapGet zeroNat s.stampCnt src }

/-- Counts a stamp that a source has taken: in the present frame, or, where a message has led it into a later one (R77), in that. -/
def countStamp (s : State) (t : Stamp) : State :=
  if t.tick ≤ getF s F.TICK_NOW then { s with stampCnt := smapSet zeroNat s.stampCnt t.src (smapGet zeroNat s.stampCnt t.src + 1) }
  else { s with stampAhead := s.stampAhead ++ [(t.tick, t.src)] }

/-- A new frame begins the stamp counts anew, but for the stamps that it has given out already (R73, R77). -/
def freshStamps (s : State) : State :=
  let now := getF s F.TICK_NOW
  { s with
    stampCnt := (s.stampAhead.filter (fun p => decide (p.1 = now))).foldl (fun m p => smapSet zeroNat m p.2 (smapGet zeroNat m p.2 + 1)) []
    stampAhead := s.stampAhead.filter (fun p => decide (now < p.1)) }

/-- The stamp of an event that source `src` produces, of itself or because of a message that carries the stamp `c`: then it is no
earlier than one ac after the message's (R77). -/
def stampAfter (s : State) (src : Nat) (c : Option Stamp) : Stamp :=
  let own := stampNow s src
  match c with
  | none => own
  | some c =>
    let later := decide (own.tick < c.tick) || (own.tick == c.tick && decide (own.cif ≤ c.cif) && !(own.held && c.held))
    if later then
      { own with tick := c.tick, cif := min cifMax (c.cif + 1), held := decide (cifMax ≤ c.cif + 1),
                 seq := if own.tick < c.tick then (s.stampAhead.filter (fun p => p.1 == c.tick && p.2 == src)).length else own.seq }
    else own

/-- Stamps an event that a message has caused, or that has no such cause (R77). -/
def stampCaused (s : State) (src : Nat) (k : EventKind) (c : Option Stamp) : State :=
  let t := stampAfter s src c
  { countStamp s t with events := s.events ++ [(t, k)] }

/-- Stamps and reports an event. -/
def stampEvent (s : State) (src : Nat) (k : EventKind) : State :=
  { s with events := s.events ++ [(stampNow s src, k)],
           stampCnt := smapSet zeroNat s.stampCnt src (smapGet zeroNat s.stampCnt src + 1) }

/-- Stamp order (R74). -/
def Stamp.before (a b : Stamp) : Bool :=
  decide (a.tick < b.tick) || (a.tick == b.tick &&
    (decide (a.cif < b.cif) || (a.cif == b.cif &&
      (decide (a.src < b.src) || (a.src == b.src && decide (a.seq < b.seq))))))

end Sys2Proof.Machine
end

