-- ==== Sys2Proof/Machine/ServicePlan.lean ====
section
/-! DEFINITION. The SERVICE_PLAN record: its binary layout and its limits (R391, R392, R412). `rd` reads byte `a` of the
record's body, `len` is the record's LENGTH. -/
namespace Sys2Proof.Machine

def planNModels (rd : Nat → Nat) : Nat := leRead rd 20 4
def planNLists (rd : Nat → Nat) : Nat := leRead rd 24 2

/-- The four sections, each with its offset and length. -/
def planSections (rd : Nat → Nat) : List (Nat × Nat) :=
  let lo := leRead rd 44 4
  let dirEnd := 8 * planNLists rd
  let listEnd := ((List.range (planNLists rd)).map (fun k => leRead rd (lo + 8 * k) 4 + 4 * leRead rd (lo + 8 * k + 4) 4)).foldl max dirEnd
  [(leRead rd 32 4, 8 * leRead rd 8 2), (leRead rd 36 4, 32 * planNModels rd), (leRead rd 40 4, 8 * 4096), (lo, listEnd)]

def planEntryOf (x : Nat) : PlanEntry :=
  { kind := bitsOf x 1 0, firmPos := bitsOf x 21 12, spanModel := bitsOf x 63 32 }

def planModelOf (rd : Nat → Nat) (o : Nat) : PlanModel :=
  let b := leRead rd (o + 4) 1
  { modelId := leRead rd o 4, active := (List.range 4).map (bitOf b), planned := (List.range 4).map (fun d => leRead rd (o + 8 + 2 * d) 2),
    qmax := leRead rd (o + 6) 2, stateUnits := leRead rd (o + 16) 3, modelUnits := leRead rd (o + 5) 1,
    outSize := leRead rd (o + 20) 4, inBase := leRead rd (o + 24) 4, inRow := leRead rd (o + 28) 4,
    inDim := bitsOf b 5 4, span := bitOf b 6 }

def planList (rd : Nat → Nat) (k : Nat) : List Nat :=
  let lo := leRead rd 44 4
  let o := lo + leRead rd (lo + 8 * k) 4
  (List.range (leRead rd (lo + 8 * k + 4) 4)).map (fun i => leRead rd (o + 4 * i) 4)

/-- The plan that a record body spells. -/
def planOf (rd : Nat → Nat) : ServicePlan :=
  { cycle := leRead rd 8 2, horizon := leRead rd 10 2, firmF := leRead rd 12 2, stdF := leRead rd 14 2, slackF := bitsOf (leRead rd 16 1) 3 0,
    frames := (List.range (leRead rd 8 2)).map (fun k => planEntryOf (leRead rd (leRead rd 32 4 + 8 * k) 8)),
    models := (List.range (planNModels rd)).map (fun k => planModelOf rd (leRead rd 36 4 + 32 * k)),
    lists := (List.range (planNLists rd)).map (planList rd) }

/-- Numbers strictly rising. -/
def strictlyRising : List Nat → Bool
  | [] => true
  | [_] => true
  | a :: b :: l => decide (a < b) && strictlyRising (b :: l)

/-- No two of a list alike. -/
def noRepeat : List Nat → Bool
  | [] => true
  | a :: l => !l.contains a && noRepeat l

/-- No two (offset, length) spans overlap. -/
def spansApart : List (Nat × Nat) → Bool
  | [] => true
  | a :: l => l.all (fun b => decide (a.1 + a.2 ≤ b.1) || decide (b.1 + b.2 ≤ a.1) || a.2 == 0 || b.2 == 0) && spansApart l

/-- The limits of R391 and the layout of R392. -/
def planOk (rd : Nat → Nat) (len : Nat) : Bool :=
  let p := planOf rd
  let mo := leRead rd 36 4
  let fo := leRead rd 32 4
  let co := leRead rd 40 4
  decide (64 ≤ len) && leRead rd 0 4 == 0x51395350 && leRead rd 4 2 == 1 && leRead rd 6 2 == 0 &&
  leRead rd 60 4 == crc32 (bytesAt rd 0 60 ++ bytesAt rd 64 (len - 64)) &&
  bitsOf (leRead rd 16 1) 7 4 == 0 && leRead rd 17 3 == 0 && leRead rd 26 6 == 0 && leRead rd 48 12 == 0 &&
  (planSections rd).all (fun s => s.1 % 8 == 0 && decide (64 ≤ s.1) && decide (s.1 + s.2 ≤ len)) && spansApart (planSections rd) &&
  decide (1 ≤ p.cycle) && decide (p.cycle ≤ 4096) && decide (2 ≤ p.horizon) && decide (p.horizon ≤ 256) &&
  decide (2 ≤ p.firmF) && decide (p.firmF ≤ p.horizon + 1) && decide (2 ≤ p.stdF) && decide (p.stdF ≤ p.horizon + 1) &&
  decide (1 ≤ planNModels rd) && decide (planNModels rd ≤ 131072) && decide (1 ≤ planNLists rd) && decide (planNLists rd ≤ 4096) &&
  (List.range p.cycle).all (fun k => bitsOf (leRead rd (fo + 8 * k) 8) 11 2 == 0 && bitsOf (leRead rd (fo + 8 * k) 8) 31 22 == 0) &&
  noRepeat (p.models.map (fun m => m.modelId)) &&
  (List.range (planNModels rd)).all (fun k => !bitOf (leRead rd (mo + 32 * k + 4) 1) 7 && leRead rd (mo + 32 * k + 19) 1 == 0) &&
  p.models.all (fun m => decide (1 ≤ m.qmax) && decide (m.qmax ≤ 1024) && m.inBase % 32 == 0 && m.inRow % 32 == 0 &&
    (List.range 4).all (fun d => m.active.getD d false == decide (m.planned.getD d 0 ≠ 0))) &&
  (List.range 4096).all (fun c =>
    let x := leRead rd (co + 8 * c) 8
    bitsOf x 15 3 == 0 && bitsOf x 63 48 == 0 && decide (bitsOf x 31 16 < planNLists rd)) &&
  p.lists.all (fun l => decide (l.length ≤ 131072) && strictlyRising l && l.all (fun i => decide (i < planNModels rd)))

/-- The client table entry that client record `c` configures, its counters kept (R412). -/
def planClient (rd : Nat → Nat) (c : Nat) (old : ClientRec) : ClientRec :=
  let x := leRead rd (leRead rd 40 4 + 8 * c) 8
  let new := { old with valid := bitOf x 0, firm := bitOf x 1, std := bitOf x 2, list := bitsOf x 31 16, maxout := bitsOf x 47 32 }
  if new = old then old else { new with gen := (old.gen + 1) % 65536 }

/-- The frame entry of plan index `n` (R391). -/
def planFrameEntry (p : ServicePlan) (n : Nat) : PlanEntry := p.frames.getD (n % p.cycle) {}

/-- The model entry of a model. -/
def planModelFor (p : ServicePlan) (m : Nat) : Option PlanModel := p.models.find? (fun e => e.modelId == m)

end Sys2Proof.Machine
end

