-- ==== Sys2Proof/Machine/Requests.lean ====
section
/-! DEFINITION. Accepted requests as every unit sees them: failing them, moving their frames, breaking streams
(R174, R178, R267, R376, R399, R410, R411), and the two ways out of the block: messages and free values. -/
namespace Sys2Proof.Machine

/-- Sends a message. -/
def emit (s : State) (m : OutMsg) : State := { s with out := s.out ++ [m] }

/-- Draws a free value of `w` bits. -/
def freeVal (s : State) (w : Nat) : Nat × State :=
  ((Config.freeValue s.freeCtr).toNat % 2 ^ w, { s with freeCtr := s.freeCtr + 1 })

/-- Device time now, in nanoseconds (R60, R83). -/
def devNow (s : State) : Nat := getF s F.TICK_DT

/-- The number of the present frame, which is that of the tick that opened it (R62). -/
def frameNow (s : State) : Nat := getF s F.TICK_NOW

def setReqs (s : State) (l : List Req) : State := { s with adm := { s.adm with reqs := l } }

/-- A request whose outcome is open: neither committed nor failed. -/
def Req.open (r : Req) : Bool := r.committed.isNone && r.failed.isNone

/-- Fails one open request and takes it out of its planned frame; `by_` is the stamp of the message that is the cause, if one is (R77). -/
def failReq (s : State) (c : Cause) (aseq : Nat) (by_ : Option Stamp := none) : State :=
  let st := stampAfter s srcAdmission by_
  let s := countStamp s st
  { s with adm := { s.adm with
      reqs := s.adm.reqs.map (fun r => if r.aseq = aseq && r.open then
        { r with causes := r.causes ++ [⟨true, c, st, false⟩], failed := some st } else r),
      frames := s.adm.frames.map (fun f => { f with reqs := f.reqs.filter (fun a => decide (a ≠ aseq)) }) } }

/-- Extent `i` of a shape word (R196). -/
def extentOf (shape i : Nat) : Nat := bitsOf shape (16 * i + 15) (16 * i)

/-- Whether one of the active extents of a RUN is 0: once accepted, it completes OK at its promised tick, whatever becomes of its model,
its stream or its span (R207, R399). -/
def zeroExtent (s : State) (d : Descriptor) : Bool :=
  let pm := (planModelFor s.adm.plan d.model).getD {}
  d.op == 1 && (List.range 4).any (fun i => pm.active.getD i false && extentOf d.shape i == 0)

/-- Fails, with one cause, every open request that `p` picks. A CLOSE is never failed (R399). -/
def failEvery (s : State) (c : Cause) (p : Req → Bool) (by_ : Option Stamp := none) : State :=
  (s.adm.reqs.filter (fun r => r.open && r.d.op != 2 && p r)).foldl (fun s r => failReq s c r.aseq by_) s

/-- The same, less requests of zero extent, which need no frame (R207). -/
def failWhere (s : State) (c : Cause) (p : Req → Bool) (by_ : Option Stamp := none) : State :=
  failEvery s c (fun r => !zeroExtent s r.d && p r) by_

/-- Notes the first event that moved the frame of the requests that `p` picks (R399). -/
def moveWhere (s : State) (c : Cause) (p : Req → Bool) : State :=
  let st := stampNow s srcPlanner
  setReqs (countStamp s st) (s.adm.reqs.map (fun r => if r.open && p r && r.moved.isNone then { r with moved := some (c, st) } else r))

/-- Whether a request is of a stream. -/
def ofStream (client stream : Nat) (r : Req) : Bool := r.d.client == client && r.d.stream == stream

/-- Breaks a stream (R411): its accepted requests complete FAILED with the cause. -/
def breakStream (s : State) (c : Cause) (client stream : Nat) (by_ : Option Stamp := none) : State :=
  let s := { s with adm := { s.adm with streams := s.adm.streams.map (fun t =>
    if t.client = client && t.stream = stream && t.broken.isNone then { t with broken := some c } else t) } }
  failWhere s c (ofStream client stream) by_

/-- The planned frame of a plan index. -/
def planAt (s : State) (idx : Nat) : Option PlanFrame := s.adm.frames.find? (fun f => f.idx == idx)

/-- The requests bound to the frame of a plan index, in admission order (R214). -/
def boundReqs (s : State) (idx : Nat) : List Req :=
  s.adm.reqs.filter (fun r => r.frame == some idx && r.open)

end Sys2Proof.Machine
end

