-- ==== Sys2Proof/Machine/Memory.lean ====
section
/-! DEFINITION. The tiers' operations: the directory, Near and Bulk allocation, eviction, fetches and state regions
(R234 to R282). -/
namespace Sys2Proof.Machine

def setMem (s : State) (m : MemSt) : State := { s with mem := m }

/-! ### Stacks, sides, units -/

/-- Whether Near stack `n` is in use (R248). -/
def stackUp (s : State) (n : Nat) : Bool := bitF s F.DEV_CAP0_NEAR_PRESENT n

/-- The stacks in use of a side: 0 to 3 west, 4 to 7 east. -/
def sideStacks (s : State) (side : Nat) : List Nat := ((List.range 4).map (fun i => 4 * side + i)).filter (stackUp s)

def allStacks (s : State) : List Nat := (List.range 8).filter (stackUp s)

/-- Units of a Near stack and of a Bulk side (R249). -/
def stackUnits : Nat := 24576
def bulkSideUnits : Nat := 262144
def unitBytes : Nat := 2097152

/-- Units of the system area that a stack holds: the top 512 of the lowest-numbered stack in use on its side (R249). With the loss of a stack they are
those of the next one at once, also where shards or regions hold them (DESIGN CHOICE, log entry 110). -/
def systemUnits (s : State) (n : Nat) : List Nat :=
  if (sideStacks s (n / 4)).head? = some n then (List.range 512).map (fun i => stackUnits - 512 + i) else []

/-- Near units of a stack that shards or regions hold. -/
def heldUnits (m : MemSt) (n : Nat) : List Nat :=
  (m.recs.flatMap (fun r => (r.shards.filter (fun h => h.placed && h.nearStack == n)).flatMap (fun h => h.nearUnits))) ++
  ((m.regions.filter (fun r => r.stack == n)).flatMap (fun r => r.units))

/-- Bulk units of a side that copies hold. -/
def heldBulk (m : MemSt) (side : Nat) : List Nat :=
  m.recs.flatMap (fun r => (r.shards.filter (fun h => h.bulkSide == side)).flatMap (fun h => h.bulkUnits))

/-- Free units of a stack. -/
def freeCount (s : State) (m : MemSt) (n : Nat) : Nat := stackUnits - (heldUnits m n).length - (systemUnits s n).length

/-- The lowest-numbered stack of `l` with `need` free units, and those units, lowest first (R275, R286). -/
def findRoom (s : State) (m : MemSt) (need : Nat) : List Nat → Option (Nat × List Nat)
  | [] => none
  | n :: l =>
    if need ≤ freeCount s m n then
      let held := heldUnits m n ++ systemUnits s n
      some (n, ((List.range stackUnits).filter (fun u => !held.contains u)).take need)
    else findRoom s m need l

/-- Region-1 offset of byte `o` of content that lies in `units` of a stack (R246). -/
def nearAddr (stack : Nat) (units : List Nat) (o : Nat) : Nat :=
  stack * 0xC00000000 + units.getD (o / unitBytes) 0 * unitBytes + o % unitBytes

/-- Region-2 offset of byte `o` of content that lies in `units` of a Bulk side (R247). -/
def bulkAddr (side : Nat) (units : List Nat) (o : Nat) : Nat :=
  side * 0x8000000000 + units.getD (o / unitBytes) 0 * unitBytes + o % unitBytes

/-- What a byte of Near or Bulk that nothing has written reads as (R278). -/
def zeroByte (_ : Nat) : Byte := 0#8

/-- The canonical form of a tier's memory: addresses strictly rising, no entry that reads as zeros anyway. -/
def Memory.wf (m : List Host.Cell) : Bool := smapWf zeroByte m

/-- Writes bytes through an address map, from content offset `o` on. -/
def writeBytes (addr : Nat → Nat) : List Host.Cell → Nat → List Byte → List Host.Cell
  | mem, _, [] => mem
  | mem, o, b :: bs => writeBytes addr (smapSet zeroByte mem (addr o) b) (o + 1) bs

/-- Whether stewards have written every byte of a unit of Near, numbered over all stacks, before the memory wipe (R278). -/
def earlyFull (m : MemSt) (u : Nat) : Bool := (m.early.filter (fun p => p.1 / unitBytes == u)).length == unitBytes

/-- Makes every byte of some units of a stack read zeros (R279). -/
def clearUnits (mem : List Host.Cell) (base : Nat) (units : List Nat) : List Host.Cell :=
  mem.filter (fun c => !(decide (base ≤ c.1) && units.contains ((c.1 - base) / unitBytes)))

/-! ### The directory -/

def noEntry (_ : Nat) : DirEntry := {}

/-- The directory set of a model (R261). -/
def dirSet (m : Nat) : Nat := m * 0x9E3779B1 % 2 ^ 32 / 2 ^ 18

def dirGet (m : MemSt) (i : Nat) : DirEntry := smapGet noEntry m.dir i

/-- The entry indices of a model's set. -/
def dirWays (model : Nat) : List Nat := (List.range 8).map (fun w => 8 * dirSet model + w)

def dirFind (m : MemSt) (model epoch : Nat) : Option Nat :=
  (dirWays model).find? (fun i => (dirGet m i).valid && (dirGet m i).modelId == model && (dirGet m i).epoch == epoch)

def dirActive (m : MemSt) (model : Nat) : Option Nat :=
  (dirWays model).find? (fun i => (dirGet m i).valid && (dirGet m i).modelId == model && (dirGet m i).active)

/-- Changes an entry; every change increments GEN (R262). -/
def dirUpd (m : MemSt) (i : Nat) (f : DirEntry → DirEntry) : MemSt :=
  let e := dirGet m i
  if f e = e then m else { m with dir := smapSet noEntry m.dir i { f e with gen := (e.gen + 1) % 65536 } }

def dirUpdEpoch (m : MemSt) (model epoch : Nat) (f : DirEntry → DirEntry) : MemSt :=
  match dirFind m model epoch with
  | some i => dirUpd m i f
  | none => m

def entryOf (m : MemSt) (model epoch : Nat) : DirEntry :=
  match dirFind m model epoch with
  | some i => dirGet m i
  | none => {}

def recFind (m : MemSt) (model epoch : Nat) : Option EpochRec := m.recs.find? (fun r => r.model == model && r.epoch == epoch)

def recUpd (m : MemSt) (model epoch : Nat) (f : EpochRec → EpochRec) : MemSt :=
  { m with recs := m.recs.map (fun r => if r.model = model && r.epoch = epoch then f r else r) }

def shardUpd (m : MemSt) (model epoch k : Nat) (f : ShardRec → ShardRec) : MemSt :=
  recUpd m model epoch (fun r => { r with shards := r.shards.mapIdx (fun i h => if i = k then f h else h) })

/-! ### State regions (R250 to R253) -/

def regionFind (m : MemSt) (o : RegionOwner) : Option StateRegion := m.regions.find? (fun r => r.owner == o)

def regionUpd (m : MemSt) (o : RegionOwner) (f : StateRegion → StateRegion) : MemSt :=
  { m with regions := m.regions.map (fun r => if r.owner = o then f r else r) }

def freeRegion (m : MemSt) (o : RegionOwner) : MemSt := { m with regions := m.regions.filter (fun r => decide (r.owner ≠ o)) }

/-- Creates a region of `size` bytes with both copies of every line zeros, in the lowest-numbered stack with room for
both halves (R250, R252, R275). -/
def placeRegion (s : State) (o : RegionOwner) (size : Nat) (m : MemSt) : Option MemSt :=
  let n := ceilDiv size unitBytes
  match findRoom s m (2 * n) (allStacks s) with
  | some (stack, units) =>
    some { m with regions := m.regions ++ [{ owner := o, size := n * unitBytes, stack := stack, units := units }],
                  near := clearUnits m.near (stack * 0xC00000000) units }
  | none => none

/-- The half that is current for a line. -/
def lineHalf (r : StateRegion) (line : Nat) : Bool := smapGet noBitAt r.current line
where noBitAt (_ : Nat) : Bool := false

/-- Region-1 offset of byte `o` of one copy of a region. -/
def regionAddr (r : StateRegion) (second : Bool) (o : Nat) : Nat :=
  nearAddr r.stack r.units (o + (if second then r.size else 0))

/-- The copy that reads of the frame return: the written one where the frame has written the line, else the current one
(R250). -/
def readHalf (r : StateRegion) (o : Nat) : Bool :=
  let line := o / 512
  if r.written.contains line then !lineHalf r line else lineHalf r line

/-- Reads byte `o` of a region as the frame's reads do (R250, R253). A state load reads the current copy. -/
def regionByte (s : State) (r : StateRegion) (o : Nat) : Byte :=
  smapGet zeroByte s.mem.near (regionAddr r (lineHalf r (o / 512)) o)

/-- Copies a line of a region into its other copy, the first time the frame writes it. -/
def openLine (m : MemSt) (r : StateRegion) (line : Nat) : MemSt :=
  if r.written.contains line then m
  else
    let cur := lineHalf r line
    let bytes := (List.range 512).map (fun i => smapGet zeroByte m.near (regionAddr r cur (512 * line + i)))
    let m := { m with near := writeBytes (regionAddr r (!cur)) m.near (512 * line) bytes }
    regionUpd m r.owner (fun r => { r with written := r.written ++ [line] })

/-- A state store of a 32 B word at region offset `o`: into the copy that is not current (R250, R253). -/
def regionStore (m : MemSt) (owner : RegionOwner) (o : Nat) (bytes : List Byte) : MemSt :=
  match regionFind m owner with
  | some r =>
    let m := openLine m r (o / 512)
    { m with near := writeBytes (regionAddr r (!lineHalf r (o / 512))) m.near o bytes }
  | none => m

/-- Commit: every line written in the frame has its other copy made current (R251). -/
def commitRegions (m : MemSt) : MemSt :=
  { m with regions := m.regions.map (fun r =>
      { r with current := r.written.foldl (fun c l => smapSet (fun _ => false) c l (!lineHalf r l)) r.current, written := [] }) }

/-- The model's tally now includes frame `n` (R231). -/
def noteTallyFrame (m : MemSt) (model n : Nat) : MemSt := regionUpd m (.model model) (fun r => { r with lastFrame := n })

/-- Abort: every line keeps its current copy (R251). -/
def dropWritten (m : MemSt) : MemSt := { m with regions := m.regions.map (fun r => { r with written := [] }) }

/-! ### Events and their capture (R282) -/

/-- The MEM_STAT bits [15:5]. -/
def memStatBits : List Fld :=
  [F.MEM_STAT_LATE_WORD, F.MEM_STAT_CODEC_FAIL, F.MEM_STAT_TAG_FAIL, F.MEM_STAT_STORE_ERR, F.MEM_STAT_BULK_LOSS,
   F.MEM_STAT_BULK_ERASE, F.MEM_STAT_BULK_CE, F.MEM_STAT_NEAR_LOSS, F.MEM_STAT_NEAR_ERASE, F.MEM_STAT_NEAR_CE,
   F.MEM_STAT_EVICT_SHORT]

/-- Sets a MEM_STAT bit and, where it is the first, loads the capture (R282). -/
def memEvent (s : State) (bit : Fld) (kind unit die region addr : Nat) : State :=
  let s := capture s memStatBits
    [(F.MEM_ECAP_INFO_KIND, kind), (F.MEM_ECAP_INFO_UNIT, unit), (F.MEM_ECAP_INFO_DIE, die), (F.MEM_ECAP_INFO_REGION, region), (F.MEM_ECAP_ADDR, addr)]
  raise s bit

/-! ### Eviction and reservation (R264, R275, R276) -/

/-- Whether an epoch is the content of a live or idle pane or casement. -/
def epochInUse (s : State) (model epoch : Nat) : Bool :=
  s.frame.panes.any (fun p => p.2.model == model && p.2.epoch == epoch) ||
  s.frame.casements.any (fun c => c.2.cfg.modelId == model && c.2.cfg.epoch == epoch)

/-- Whether an entry is an eviction candidate (R275). -/
def isCandidate (s : State) (m : MemSt) (i : Nat) : Bool :=
  let e := dirGet m i
  e.valid && e.near && e.pin == 0 && !e.fetch && !epochInUse s e.modelId e.epoch

def insertOldest (m : MemSt) (i : Nat) : List Nat → List Nat
  | [] => [i]
  | j :: l => if (dirGet m i).lastUse < (dirGet m j).lastUse then i :: j :: l else j :: insertOldest m i l

/-- Near eviction candidates, oldest LAST_USE first, then lower index (R275). -/
def candidates (s : State) (m : MemSt) : List Nat :=
  ((m.dir.map Prod.fst).filter (isCandidate s m)).foldl (fun l i => insertOldest m i l) []

/-- Whether some epoch of a model holds or has reserved Near units. -/
def modelInNear (m : MemSt) (model : Nat) : Bool :=
  m.recs.any (fun r => r.model == model && r.shards.any (fun h => h.placed))

/-- Frees a model's level-region when none of its epochs remains in Near (R252). -/
def dropModelRegion (m : MemSt) (model : Nat) : MemSt :=
  if modelInNear m model then m else freeRegion m (.model model)

/-- Frees the Near units of an epoch. -/
def freeEpochUnits (m : MemSt) (model epoch : Nat) : MemSt :=
  dropModelRegion (recUpd m model epoch (fun r => { r with checked := [], routeOk := false, shards := r.shards.map (fun h =>
    { h with placed := false, nearUnits := [], written := false, digestOk := false }) })) model

/-- A claim of entry `i` (R264, R275): clears NEAR and frees the units. -/
def claimEntry (m : MemSt) (i : Nat) : MemSt :=
  let e := dirGet m i
  freeEpochUnits (dirUpd m i (fun e => { e with near := false })) e.modelId e.epoch

/-- Tries a placement, evicting candidates one by one until it succeeds; the count of claims comes with it. -/
def evictUntil (try? : MemSt → Option MemSt) : List Nat → MemSt → Nat → Option (MemSt × Nat)
  | [], m, n => (try? m).map (fun m => (m, n))
  | i :: l, m, n =>
    match try? m with
    | some m => some (m, n)
    | none => evictUntil try? l (claimEntry m i) (n + 1)

/-- Places the shards of an epoch from shard `k` on that `keep` picks (R275, R286). -/
def placeShards (s : State) (model epoch : Nat) (keep : ShardRec → Bool) : List ShardRec → Nat → MemSt → Option MemSt
  | [], _, m => some m
  | h :: l, k, m =>
    if !keep h || h.placed then placeShards s model epoch keep l (k + 1) m
    else match findRoom s m (ceilDiv h.ulen unitBytes) (sideStacks s h.side) with
      | some (stack, units) =>
        let m := shardUpd m model epoch k (fun h => { h with placed := true, nearStack := stack, nearUnits := units, written := false })
        placeShards s model epoch keep l (k + 1) { m with near := clearUnits m.near (stack * 0xC00000000) units }
      | none => none

/-- The model-level region that a reservation creates: where the plan names the model and it has none (R252). -/
def modelRegionNeed (s : State) (m : MemSt) (model : Nat) : Option Nat :=
  match planModelOf? s model with
  | some units => if (regionFind m (.model model)).isNone then some (units * unitBytes) else none
  | none => none
where planModelOf? (s : State) (model : Nat) : Option Nat :=
  (s.adm.plan.models.find? (fun e => e.modelId == model)).map (fun e => e.modelUnits)

/-- Places every shard that `keep` picks, and the model-level region where it is due. -/
def placeEpoch (s : State) (model epoch : Nat) (keep : ShardRec → Bool) (m : MemSt) : Option MemSt :=
  match recFind m model epoch with
  | some r =>
    match placeShards s model epoch keep r.shards 0 m with
    | some m =>
      match modelRegionNeed s m model with
      | some size => placeRegion s (.model model) size m
      | none => some m
    | none => none
  | none => none

/-- The blocks of a shard in Store, in order. -/
def shardBlocks (h : ShardRec) : List (Nat × Nat) := h.runs.flatMap (fun r => (List.range r.n).map (fun i => (r.drive, r.lba + i)))

/-- Where block `i` of a shard lies in Store; drive 0, LBA 0 beyond its end. -/
def blockAt (h : ShardRec) (i : Nat) : Nat × Nat := (shardBlocks h).getD i (0, 0)

/-- An I/O command to a controller's namespace, as the base configuration names it (R255). -/
def nvmeIo (s : State) (ctrl opcode arg : Nat) : State := emit s (.nvme ctrl (s.boot.storeNs.getD ctrl 0) false opcode arg)

/-- The Read commands for a run of blocks, of at most 128 KiB each (R255). -/
def readRun (s : State) (r : BlockRun) : State := (List.range (ceilDiv r.n 32)).foldl (fun s i => nvmeIo s r.drive 0x02 (r.lba + 32 * i)) s

/-- The Store fetch at the head of its queue issues the Reads of the shards that it still needs, once (R255, R269). -/
def issueReads (s : State) : State :=
  match s.mem.jobs.find? (fun j => j.fromStore) with
  | some j =>
    if j.waiting || j.issued then s
    else
      let s := setMem s { s.mem with jobs := s.mem.jobs.map (fun k => if k = j then { k with issued := true } else k) }
      ((((recFind s.mem j.model j.epoch).getD {}).shards.filter (fun h => !h.written)).flatMap (fun h => h.runs)).foldl readRun s
  | none => s

/-- A pending switch ends: the waiting job starts, SWITCH_DONE is set (R304 step 3). -/
def endPending (s : State) (w : PendSwitch) : State :=
  let m := { s.mem with
    jobs := s.mem.jobs.map (fun j => if j.model = w.model && j.epoch = w.target then { j with waiting := false } else j),
    switches := s.mem.switches.filter (fun v => decide (v.model ≠ w.model)) }
  let s := bump (raise (setMem s m) F.WGT_STAT_SWITCH_DONE) F.WGT_CNT_SWITCH
  let s := if s.wgt.qModel = w.model then setF s F.WGT_Q_EPOCH_PEND_EPOCH 0 else s
  let s := issueReads s
  if s.mem.switches.isEmpty then lower s F.WGT_STAT_SWITCH_PEND else s

/-- A reservation with eviction, and the number of claims; where even evicting every candidate leaves no room, nothing is evicted and
EVICT_SHORT is set (R275). -/
def evictFor (s : State) (try? : MemSt → Option MemSt) : Option Nat × State :=
  match evictUntil try? (candidates s s.mem) s.mem 0 with
  | some (m, n) => (some n, addF (setMem s m) F.MEM_CNT_EVICT_NEAR n)
  | none => (none, memEvent s F.MEM_STAT_EVICT_SHORT 9 0 0 0 0)

/-- Tries again, at an eviction, the reservations of the pending switches whose old epoch has been claimed already, with the candidates that
there then are (R275, R304 steps 3 and 4). -/
def retryPending (s : State) : State :=
  s.mem.switches.foldl (fun s w =>
    if (entryOf s.mem w.model w.old).near then s
    else match evictFor s (placeEpoch s w.model w.target (fun _ => true)) with
      | (some _, s) => endPending s w
      | (none, s) => s) s

/-- Runs a reservation with eviction; an eviction is the moment at which pending switches try again. -/
def reserveWith (s : State) (try? : MemSt → Option MemSt) : Bool × State :=
  match evictFor s try? with
  | (some 0, s) => (true, s)
  | (some _, s) => (true, retryPending s)
  | (none, s) => (false, s)

/-- Reserves the Near units of an epoch (R266 step 1). -/
def reserveEpoch (s : State) (model epoch : Nat) : Bool × State := reserveWith s (placeEpoch s model epoch (fun _ => true))

/-- Near units that an epoch takes (R286). -/
def epochUnits (r : EpochRec) : Nat := (r.shards.map (fun h => ceilDiv h.ulen unitBytes)).sum

/-! ### The fetch queues (R266, R267) -/

def busyF (fromStore : Bool) : Fld := if fromStore then F.MEM_BUSY_STORE else F.MEM_BUSY_BULK

/-- The planned duration of a fetch in microseconds (R266, R295). -/
def fetchUs (s : State) (fromStore q5 : Bool) (bulkSize : Nat) : Nat :=
  let rate := getF s (if fromStore then F.MEM_PLAN_STORE_RATE else F.MEM_PLAN_BULK_RATE)
  let lat := getF s (if fromStore then F.MEM_PLAN_STORE_LAT_US else F.MEM_PLAN_BULK_LAT_US)
  let rate := if q5 then min rate (getF s F.WGT_Q5_PLAN_RATE) else rate
  let lat := if q5 then lat + getF s F.WGT_Q5_PLAN_LAT_US else lat
  lat + ceilDiv (bulkSize * 65536) (rate * 1000)

/-- The fetch bound at time `t`, in nanoseconds (R266, R295). -/
def fetchBound (s : State) (t : Nat) (e : DirEntry) (q5 : Bool) : Nat :=
  max t (getF s (busyF (!e.bulk))) + 1000 * fetchUs s (!e.bulk) q5 e.bulkSize

/-- Queues a fetch job with its bound (R266 step 3). -/
def queueFetch (s : State) (model epoch bound : Nat) (waiting : Bool) : State :=
  let e := entryOf s.mem model epoch
  let q5 := ((recFind s.mem model epoch).map (fun r => r.q5)).getD false
  let job := { model := model, epoch := epoch, fromStore := !e.bulk, bound := bound, durationUs := fetchUs s (!e.bulk) q5 e.bulkSize, waiting := waiting }
  let m := dirUpdEpoch s.mem model epoch (fun e => { e with fetch := true })
  issueReads (setF (setMem s { m with jobs := m.jobs ++ [job] }) (busyF (!e.bulk)) bound)

/-- Recomputes a queue's MEM_BUSY when a job has left it: the present time plus the planned durations still queued; 0
when idle (R266). -/
def rebusy (s : State) (fromStore : Bool) : State :=
  let js := s.mem.jobs.filter (fun j => j.fromStore == fromStore)
  issueReads (setF s (busyF fromStore) (if js.isEmpty then 0 else devNow s + 1000 * (js.map (fun j => j.durationUs)).sum))

/-- Ends the fetch job of an epoch, if it has one. -/
def endJob (s : State) (model epoch : Nat) : State :=
  match s.mem.jobs.find? (fun j => j.model == model && j.epoch == epoch) with
  | some j =>
    rebusy (setMem s { s.mem with jobs := s.mem.jobs.filter (fun k => !(k.model == model && k.epoch == epoch)) }) j.fromStore
  | none => s

/-- Whether any tier can still supply an epoch. -/
def epochSupplied (e : DirEntry) : Bool := e.bulk || e.store

/-- A fetch that no tier can supply any more: it ends, its units are freed, and every request pinned to the epoch
completes FAILED with cause CAPACITY (R267). -/
def abandonFetch (s : State) (model epoch : Nat) : State :=
  let s := endJob s model epoch
  let m := dirUpdEpoch s.mem model epoch (fun e => { e with fetch := false })
  failWhere (setMem s (freeEpochUnits m model epoch)) .capacity (fun r => r.d.model == model && r.epoch == epoch)

/-- Counts a fetch as missed, once (R267). -/
def missFetch (s : State) (model epoch : Nat) : State :=
  if s.mem.jobs.any (fun j => j.model == model && j.epoch == epoch && !j.missed) then
    bump (setMem s { s.mem with jobs := s.mem.jobs.map (fun j =>
      if j.model = model && j.epoch = epoch then { j with missed := true } else j) }) F.MEM_CNT_FETCH_OVER
  else s

/-- Marks an epoch UNUSABLE: requests are refused, and accepted requests complete FAILED with cause SECURITY
(R158, R211, R260, R294). -/
def markUnusable (s : State) (model epoch : Nat) : State :=
  let s := setMem s (dirUpdEpoch s.mem model epoch (fun e => { e with unusable := true }))
  let s := if (entryOf s.mem model epoch).fetch then
      let s := endJob s model epoch
      setMem s (freeEpochUnits (dirUpdEpoch s.mem model epoch (fun e => { e with fetch := false })) model epoch)
    else s
  failWhere s .security (fun r => r.d.model == model && r.epoch == epoch)

/-- Moves an epoch's fetch from Bulk to the end of the Store queue, its bound unchanged (R244, R273, R294). -/
def refetchFromStore (s : State) (model epoch : Nat) : State :=
  let e := entryOf s.mem model epoch
  let m := dirUpdEpoch s.mem model epoch (fun e => { e with bulk := false })
  let s := setMem s (recUpd m model epoch (fun r => { r with shards := r.shards.map (fun h => { h with inBulk := false, bulkUnits := [] }) }))
  match s.mem.jobs.find? (fun j => j.model == model && j.epoch == epoch) with
  | some j =>
    if j.fromStore then s
    else if !e.store then missFetch s model epoch |> fun s => abandonFetch s model epoch
    else
      let q5 := ((recFind s.mem model epoch).map (fun r => r.q5)).getD false
      let left := ((((recFind s.mem model epoch).getD {}).shards.filter (fun h => !h.written)).map (fun h => h.clen)).sum
      let us := fetchUs s true q5 (ceilDiv left 65536)
      let rest := s.mem.jobs.filter (fun k => !(k.model == model && k.epoch == epoch))
      let s := setMem s { s.mem with jobs := rest ++ [{ j with fromStore := true, durationUs := us }] }
      let s := setF s F.MEM_BUSY_STORE (max (devNow s) (getF s F.MEM_BUSY_STORE) + 1000 * us)
      issueReads (rebusy s false)
  | none => s

/-! ### Bulk copies (R269 step 4, R276) -/

/-- Whether a Bulk side is up. -/
def bulkSideUp (s : State) (side : Nat) : Bool := bitF s F.MEM_BULK_STAT_SIDE_UP side

/-- Bulk eviction candidates: copies that no running fetch reads, unpinned and not being fetched (R264), in the order of R275. -/
def bulkCandidates (m : MemSt) : List Nat :=
  ((m.dir.map Prod.fst).filter (fun i =>
    let e := dirGet m i
    e.valid && e.bulk && e.pin == 0 && !e.fetch && !m.jobs.any (fun j => j.model == e.modelId && j.epoch == e.epoch && !j.fromStore))).foldl
    (fun l i => insertOldest m i l) []

def claimBulk (m : MemSt) (i : Nat) : MemSt :=
  let e := dirGet m i
  recUpd (dirUpd m i (fun e => { e with bulk := false })) e.modelId e.epoch (fun r =>
    { r with shards := r.shards.map (fun h => { h with inBulk := false, bulkUnits := [] }) })

/-- Places a compressed shard in Bulk, the side of its Near stack preferred (R269, R276). -/
def placeBulk (s : State) (model epoch k side need : Nat) (m : MemSt) : Option MemSt :=
  let try1 (sd : Nat) : Option MemSt :=
    let held := heldBulk m sd
    if bulkSideUp s sd && decide (need + held.length ≤ bulkSideUnits) then
      let units := ((List.range (need + held.length)).filter (fun u => !held.contains u)).take need
      some { shardUpd m model epoch k (fun h => { h with bulkSide := sd, bulkUnits := units }) with
        bulk := clearUnits m.bulk (sd * 0x8000000000) units }
    else none
  match try1 side with
  | some m => some m
  | none => try1 (1 - side)

/-- Reserves Bulk units for a shard, evicting copies under R276. -/
def reserveBulk (s : State) (model epoch k side need : Nat) : Option State :=
  let rec go : List Nat → MemSt → Nat → Option (MemSt × Nat)
    | [], m, n => (placeBulk s model epoch k side need m).map (fun m => (m, n))
    | i :: l, m, n =>
      match placeBulk s model epoch k side need m with
      | some m => some (m, n)
      | none => go l (claimBulk m i) (n + 1)
  (go (bulkCandidates s.mem) s.mem 0).map (fun x => addF (setMem s x.1) F.MEM_CNT_EVICT_BULK x.2)

/-! ### Pending switches (R304) -/

/-- Serves the pending switches whose old epoch has become a candidate: claims it and reserves the target's units in the
same operation (R304 step 3). -/
def servePending (s : State) : State :=
  s.mem.switches.foldl (fun s w =>
    match dirFind s.mem w.model w.old with
    | some i =>
      if isCandidate s s.mem i then retryPending (bump (setMem s (claimEntry s.mem i)) F.MEM_CNT_EVICT_NEAR) else s
    | none => s) s

/-- Unpins an epoch once (R264). -/
def unpin (s : State) (model epoch : Nat) : State :=
  servePending (setMem s (dirUpdEpoch s.mem model epoch (fun e => { e with pin := e.pin - 1 })))

/-- Lookup and pin by admission: the model's active epoch, PIN incremented, LAST_USE set (R264). -/
def lookupPin (s : State) (i : Nat) : State :=
  setMem s (dirUpd s.mem i (fun e => { e with pin := e.pin + 1, lastUse := bitsOf (getF s F.TICK_NOW) 41 10 }))

end Sys2Proof.Machine
end

