-- ==== Sys2Proof/Machine/Pattern.lean ====
section
/-! DEFINITION. The pattern word (R94 to R103): its fields, the encodings each class accepts, and which words R103 and
R32 forbid. -/
namespace Sys2Proof.Machine

/-- Bits [hi:lo] of a pattern word. -/
def pwField (w : Word64) (hi lo : Nat) : Nat := w.toNat / 2 ^ lo % 2 ^ (hi + 1 - lo)

/-- Operation classes (R95). -/
inductive PClass where
  | move | mat | vec | wait | ctl | halt | reserved
  deriving DecidableEq, Repr

def pwClass (w : Word64) : PClass :=
  match pwField w 63 60 with
  | 0 => .move | 1 => .mat | 2 => .vec | 3 => .wait | 4 => .ctl | 5 => .halt | _ => .reserved

def pwPhase (w : Word64) : Nat := pwField w 59 56
def pwEnd (w : Word64) : Bool := decide (pwField w 55 55 = 1)
def pwLvl (w : Word64) : Nat := pwField w 54 53
def pwRnd (w : Word64) : Nat := pwField w 51 49
def pwOp (w : Word64) : Nat := pwField w 48 45
def pwSrcA (w : Word64) : Nat := pwField w 44 41
def pwSrcB (w : Word64) : Nat := pwField w 40 37
def pwDst (w : Word64) : Nat := pwField w 36 33
/-- OSEL of output `d` (0 N, 1 E, 2 S, 3 W). -/
def pwOsel (w : Word64) (d : Nat) : Nat := pwField w (32 - 3 * d) (30 - 3 * d)
/-- TSTEER bit of input `d`. -/
def pwTsteer (w : Word64) (d : Nat) : Bool := decide (pwField w (20 - d) (20 - d) = 1)
/-- TKOUT bit of output `d`. -/
def pwTkout (w : Word64) (d : Nat) : Bool := decide (pwField w (6 - d) (6 - d) = 1)
def pwAga (w : Word64) : Nat := pwField w 16 15
def pwAgb (w : Word64) : Nat := pwField w 14 13
def pwAgd (w : Word64) : Nat := pwField w 12 11
def pwFmt (w : Word64) : Nat := pwField w 10 7
def pwLane (w : Word64) : Nat := pwField w 1 0
/-- Fields of CTL and WAIT words (R102). -/
def ctlSel (w : Word64) : Nat := pwField w 44 43
def ctlLvl (w : Word64) : Nat := pwField w 42 41
def ctlIter (w : Word64) : Nat := pwField w 15 0
def ctlBase (w : Word64) : Nat := pwField w 12 0
/-- STRIDE as a two's complement 14-bit number. -/
def ctlStride (w : Word64) : Int :=
  let x := pwField w 13 0
  if x < 8192 then (x : Int) else (x : Int) - 16384
/-- Skew of input `d` in CTL SKEW. -/
def ctlSkew (w : Word64) (d : Nat) : Nat := pwField w (11 - 3 * d) (9 - 3 * d)

/-- A MAT format (R104): element formats of A and B, K_STEP, bytes of A and B a step uses, block of K (0: none), and
whether A and B are scaled, by E8M0 or by YS8. -/
structure MatFmt where
  ea : ElemFmt
  eb : ElemFmt
  kStep : Nat
  aBytes : Nat
  bBytes : Nat
  block : Nat
  scaleA : Bool
  scaleB : Bool
  ys8 : Bool
  deriving DecidableEq, Repr

/-- The FMT table of R104. -/
def matFmt (f : Nat) : Option MatFmt :=
  match f with
  | 0x0 => some ⟨.int8, .int8, 1, 16, 32, 0, false, false, false⟩
  | 0x1 => some ⟨.e4m3, .e4m3, 1, 16, 32, 0, false, false, false⟩
  | 0x2 => some ⟨.e5m2, .e5m2, 1, 16, 32, 0, false, false, false⟩
  | 0x3 => some ⟨.e4m3, .e5m2, 1, 16, 32, 0, false, false, false⟩
  | 0x4 => some ⟨.e5m2, .e4m3, 1, 16, 32, 0, false, false, false⟩
  | 0x5 => some ⟨.e4m3, .e4m3, 1, 16, 32, 32, true, true, false⟩
  | 0x6 => some ⟨.e5m2, .e5m2, 1, 16, 32, 32, true, true, false⟩
  | 0x7 => some ⟨.e2m3, .e2m3, 1, 12, 24, 32, true, true, false⟩
  | 0x8 => some ⟨.e3m2, .e3m2, 1, 12, 24, 32, true, true, false⟩
  | 0x9 => some ⟨.e2m1, .e2m1, 2, 16, 32, 32, true, true, false⟩
  | 0xA => some ⟨.e2m1, .e2m1, 2, 16, 32, 16, true, true, true⟩
  | 0xB => some ⟨.e4m3, .e2m1, 1, 16, 16, 16, false, true, true⟩
  | 0xC => some ⟨.bfloat16, .bfloat16, 1, 32, 16, 0, false, false, false⟩
  | _ => none

/-- The VEC format table of R108. -/
def vecFmt (f : Nat) : Option ElemFmt :=
  match f with
  | 0 => some .int8 | 1 => some .e4m3 | 2 => some .e5m2 | 3 => some .e2m1
  | 4 => some .bfloat16 | 5 => some .binary32 | 6 => some .e2m3 | 7 => some .e3m2 | _ => none

/-- Source codes that name a generator by their field, in MOVE and VEC words (R101). -/
def srcNamesGen (c : Nat) : Bool := c == 0x9 || c == 0xB || c == 0xC

/-- A selector field that must be 0 is 0: the source neither names a generator nor a vector register (R101). -/
def selectorOk (src sel : Nat) : Bool := sel == 0 || srcNamesGen src || src == 0xD

/-- The encodings a MOVE, MAT or VEC word may have: no reserved code, no required-zero field set (R94 to R102, R108). -/
def firingFieldsOk (w : Word64) : Bool :=
  let op := pwOp w
  let a := pwSrcA w
  let b := pwSrcB w
  let d := pwDst w
  let common := pwField w 52 52 == 0 && pwField w 2 2 == 0 && pwRnd w ≤ 4 &&
    (List.range 4).all (fun k => pwOsel w k != 7)
  match pwClass w with
  | .move =>
    common && pwFmt w == 0 && pwLane w == 0 && pwRnd w == 0 && a ≤ 0xA && b ≤ 0xA && d ≤ 2 &&
      selectorOk a (pwAga w) && selectorOk b (pwAgb w) && (pwAgd w == 0 || d == 1) &&
      (op == 0 || (op == 1 && b == 0 && (d == 1 || d == 2)))
  | .mat =>
    common && pwLane w == 0 && op ≤ 5 && (matFmt (pwFmt w)).isSome && a ≤ 0xA && b ≤ 0xA &&
      (d == 0 || d == 3 || d == 4) && (pwAga w == 0 || a == 9) && (pwAgb w == 0 || b == 9) &&
      (pwFmt w == 0xC || pwAgd w == 0 ||
        ((op == 1 || op == 3) && pwFmt w != 0xB && pwAgd w ≤ 1))
  | .vec =>
    common && op ≤ 0xD && (vecFmt (pwFmt w)).isSome && a ≤ 0xD && b ≤ 0xD && d ≤ 5 &&
      (pwFmt w == 5 || pwLane w ≤ 1) && selectorOk a (pwAga w) && selectorOk b (pwAgb w) &&
      (pwAgd w == 0 || d == 1 || d == 3 || d == 4 || d == 5) && (op != 0xD || d == 0)
  | _ => false

/-- The encodings a CTL, WAIT or HALT word may have (R102). -/
def setupFieldsOk (w : Word64) : Bool :=
  let zero (hi lo : Nat) : Bool := pwField w hi lo == 0
  let common := zero 52 52 && zero 51 49
  match pwClass w with
  | .wait => common && pwOp w == 0 && zero 44 16 && pwField w 15 0 != 0
  | .halt => common && zero 48 0
  | .ctl =>
    common &&
      (match pwOp w with
       | 0 => zero 42 16 && ctlIter w != 0
       | 1 => zero 42 13
       | 2 => zero 40 14
       | 3 => zero 44 12
       | _ => false)
  | _ => false

/-- Reason PATTERN_FIELD does not apply to the word, LAST being the index of the last phase (R103, R157). -/
def patternFieldOk (last : Nat) (w : Word64) : Bool :=
  (firingFieldsOk w || setupFieldsOk w) && pwPhase w ≤ last

/-- Class MOVE, MAT or VEC: the word fires (R95). -/
def fires (w : Word64) : Bool :=
  match pwClass w with
  | .move => true | .mat => true | .vec => true | _ => false

/-- Uses of side `d` (0 N, 2 S) of the outer rows that R32 and R103 forbid. -/
def usesSide (w : Word64) (d : Nat) : Bool :=
  pwOsel w d != 0 || pwTkout w d || (List.range 4).any (fun k => pwOsel w k == d + 1) || pwTsteer w d ||
    pwSrcA w == d + 1 || pwSrcA w == d + 5 || pwSrcB w == d + 1 || pwSrcB w == d + 5

/-- Reason STEERING does not apply to the word of a cell in `row` (R103, R157). -/
def steeringOk (row : Nat) (w : Word64) : Bool :=
  !fires w ||
    ((List.range 4).all (fun k => (List.range 4).all (fun x => !(pwOsel w k == x + 1 && pwTsteer w x))) &&
      !(row == 0 && usesSide w 0) && !(row == 63 && usesSide w 2))

/-- Whether an earlier word of the casement opens loop level `l`: a CTL LOOP among `ws` (R103). -/
def opensLoop (ws : List Word64) (l : Nat) : Bool :=
  ws.any (fun w => pwClass w == .ctl && pwOp w == 0 && ctlSel w == l)

end Sys2Proof.Machine
end

