-- ==== Sys2Proof/Machine/Configuration.lean ====
section
/-! DEFINITION. Reading and checking a configuration (R51, R53, R57, R150 to R159, R197, R198, R200): the header, the
sections, and the checks of R157 in the order of their reasons. `rd` reads byte `a` of the configuration. -/
namespace Sys2Proof.Machine

/-- Offset of section k: 0 west patterns, 1 east patterns, 2 pane map, 3 transfer schedule, 4 planned extents (R151). -/
def secOff (rd : Nat → Nat) (k : Nat) : Nat := leRead rd (152 + 8 * k) 4
def secLen (rd : Nat → Nat) (k : Nat) : Nat := leRead rd (156 + 8 * k) 4

/-- Phase-table entry k, as its 64 bits (R57). -/
def phaseBits (rd : Nat → Nat) (k : Nat) : Nat := leRead rd (24 + 8 * k) 8

def phaseOf (x : Nat) : Phase :=
  { lenAc := bitsOf x 24 0, prefOp := bitsOf x 28 25, gated := bitOf x 29, last := bitOf x 30,
    budget := bitsOf x 47 32, slackPct := bitsOf x 53 48 }

/-- The phases up to the one marked LAST; all sixteen where none is. -/
def cutAtLast : List Phase → List Phase
  | [] => []
  | p :: l => if p.last then [p] else p :: cutAtLast l

def cfgPhases (rd : Nat → Nat) : List Phase := cutAtLast ((List.range 16).map (fun k => phaseOf (phaseBits rd k)))

def cfgDrain (rd : Nat → Nat) : Nat := leRead rd 20 4

/-- L: the sum of the phase lengths plus D (R51). -/
def frameLen (ph : List Phase) (d : Nat) : Nat := (ph.map (fun p => p.lenAc)).sum + d

/-- The schedule cycle at which phase k begins (R57). -/
def phaseStart (ph : List Phase) (k : Nat) : Nat := ((ph.take k).map (fun p => p.lenAc)).sum

/-- The phase whose span contains the schedule cycle, the LAST phase in the drain window (R110). -/
def phaseAt (ph : List Phase) (sched : Nat) : Nat :=
  min ((List.range ph.length).countP (fun k => decide (phaseStart ph (k + 1) ≤ sched))) (ph.length - 1)

/-- Section k lies in the part that R285 gives it, where the first `west` bytes are the west part: the west patterns in it, the east patterns
in the east part, each other section in one of the two. A section of no bytes lies anywhere. -/
def sectionInPart (rd : Nat → Nat) (west k : Nat) : Bool :=
  secLen rd k == 0 || (k != 1 && decide (secOff rd k + secLen rd k ≤ west)) || (k != 0 && decide (west ≤ secOff rd k))

/-- Reason HEADER: TAG, VERSION, CHECK, reserved bits, a section outside the configuration of `len` bytes or outside its part (R151, R285;
DESIGN CHOICE, log entry 98: R157 names no reason for a section in the wrong part, for one that begins within the 256 B of the header, were it empty,
nor for a west part that does not hold the header). -/
def headerOk (rd : Nat → Nat) (len west : Nat) : Bool :=
  leRead rd 0 4 == 0x51394346 && leRead rd 4 2 == 1 && leRead rd 6 2 / 64 == 0 && len ≤ 2 ^ 26 && decide (256 ≤ west) &&
    (List.range 5).all (fun k => 256 ≤ secOff rd k && secOff rd k + secLen rd k ≤ len && sectionInPart rd west k) &&
    (bytesAt rd 192 60).all (fun b => b == 0) &&
    leRead rd 252 4 == crc32 (bytesAt rd 0 252 ++ (List.range 5).flatMap (fun k => bytesAt rd (secOff rd k) (secLen rd k)))

/-- Reason TIMING: the limits of R51. -/
def timingOk (rd : Nat → Nat) : Bool :=
  let ph := cfgPhases rd
  let d := cfgDrain rd
  let l := frameLen ph d
  ph.all (fun p => 256 ≤ p.lenAc && p.lenAc ≤ 26400000) && 4096 ≤ d && d ≤ 131072 && d % 64 == 0 &&
    16384 ≤ l && l ≤ 26400000

/-- Reason PHASE_TABLE: reserved bits, the LAST mark, entries after it all zero, the slack range (R57). -/
def phaseTableOk (rd : Nat → Nat) : Bool :=
  let n := (cfgPhases rd).length
  (cfgPhases rd).any (fun p => p.last) &&
    (List.range 16).all (fun k =>
      let x := phaseBits rd k
      if k < n then
        !bitOf x 31 && bitsOf x 63 54 == 0 &&
          (if bitsOf x 47 32 == 0 then bitsOf x 53 48 == 0 else 10 ≤ bitsOf x 53 48 && bitsOf x 53 48 ≤ 40)
      else x == 0)

/-- The pattern block records of a half, in order; `fuel` bounds their number (R152). -/
def halfRecords (rd : Nat → Nat) (half endOff : Nat) : Nat → Nat → List PatRec
  | 0, _ => []
  | fuel + 1, off =>
    if endOff ≤ off then []
    else
      let x := leRead rd off 8
      let r : PatRec := ⟨off, half, bitsOf x 31 0, bitsOf x 37 32, bitsOf x 47 38, bitsOf x 58 48, bitsOf x 63 59⟩
      r :: halfRecords rd half endOff fuel (off + 8 + 8 * r.count)

def patRecords (rd : Nat → Nat) : List PatRec :=
  (List.range 2).flatMap (fun h => halfRecords rd h (secOff rd h + secLen rd h) (secLen rd h / 8) (secOff rd h))

/-- Word j of a record. -/
def recWord (rd : Nat → Nat) (r : PatRec) (j : Nat) : Word64 := BitVec.ofNat 64 (leRead rd (r.off + 8 + 8 * j) 8)

/-- The cells a record writes: columns i or 32 + i of its row (R152). -/
def recCells (r : PatRec) : List Nat :=
  ((List.range 32).filter (fun i => bitOf r.colmask i)).map (fun i => 64 * r.row + 32 * r.half + i)

/-- The (casement word, word, byte offset) triples written to a cell. -/
def cellWords (rd : Nat → Nat) (recs : List PatRec) (cell : Nat) : List (Nat × Word64 × Nat) :=
  (recs.filter (fun r => (recCells r).contains cell)).flatMap (fun r =>
    (List.range r.count).map (fun j => (r.start + j, recWord rd r j, r.off + 8 + 8 * j)))

/-- LEN of a cell: the highest START + COUNT of the records that cover it, 0 for none (R153). -/
def cellLen (recs : List PatRec) (cell : Nat) : Nat :=
  (recs.filter (fun r => (recCells r).contains cell)).foldl (fun m r => max m (r.start + r.count)) 0

/-- Failures of one reason over every pattern word, by a test on the cell, the word's index and the word. Of the cells of a COLMASK that one word
fails for, the record that is kept names the lowest column (R184; DESIGN CHOICE, log entry 98). -/
def wordFails (rd : Nat → Nat) (recs : List PatRec) (reason : Nat) (ok : Nat → Nat → Word64 → Bool) :
    List CheckFail :=
  recs.flatMap (fun r => (List.range r.count).flatMap (fun j =>
    ((recCells r).filter (fun c => !ok c (r.start + j) (recWord rd r j))).map (fun c =>
      { reason := reason, off := r.off + 8 + 8 * j, cell := c, word := r.start + j })))

/-- Failures of one reason over the words of records that write no cell: they stand in the configuration as well, for their row (R103). -/
def idleWordFails (rd : Nat → Nat) (recs : List PatRec) (reason : Nat) (ok : Nat → Word64 → Bool) : List CheckFail :=
  (recs.filter (fun r => r.colmask == 0)).flatMap (fun r =>
    ((List.range r.count).filter (fun j => !ok r.row (recWord rd r j))).map (fun j =>
      { reason := reason, off := r.off + 8 + 8 * j, cell := 64 * r.row + 32 * r.half, word := r.start + j }))

/-- Reason LOOP: END at a level that no earlier word of the casement opens (R103). -/
def loopOk (rd : Nat → Nat) (recs : List PatRec) (cell idx : Nat) (w : Word64) : Bool :=
  !pwEnd w || opensLoop (((cellWords rd recs cell).filter (fun t => decide (t.1 < idx))).map (fun t => t.2.1)) (pwLvl w)

/-- Byte offset of the end of a record (R152). -/
def PatRec.endOff (r : PatRec) : Nat := r.off + 8 + 8 * r.count

/-- Reason RECORD of a record by itself: its fields, that it ends within its section, and that its half-row has no more than 256 (R152); and of a
pattern section that is no multiple of 8 B (DESIGN CHOICE, log entry 98: R157 names no reason for that). -/
def recordFails (rd : Nat → Nat) (recs : List PatRec) : List CheckFail :=
  ((List.range 2).filter (fun h => secLen rd h % 8 != 0)).map (fun h => { reason := 7, off := secOff rd h }) ++
    ((recs.filter (fun r => !(decide (1 ≤ r.count) && decide (r.start + r.count ≤ 1024) && r.resv == 0 &&
        decide (r.endOff ≤ secOff rd r.half + secLen rd r.half)))).map (fun r => { reason := 7, off := r.off })) ++
    (List.range 64).flatMap (fun row => (List.range 2).flatMap (fun h =>
      ((recs.filter (fun r => r.row == row && r.half == h)).drop 256).map (fun r => { reason := 7, off := r.off })))

/-- Reason RECORD of the casement words of one cell (R153): a word written again fails at the later record's word, a word below LEN that no
record writes at the last record that covers the cell (DESIGN CHOICE, log entry 98). -/
def coverFails (recs : List PatRec) (cell : Nat) : List CheckFail :=
  let mine := recs.filter (fun r => (recCells r).contains cell)
  let lastOff := mine.foldl (fun m r => max m r.off) 0
  (List.range (cellLen recs cell)).flatMap (fun i =>
    match mine.filter (fun r => decide (r.start ≤ i) && decide (i < r.start + r.count)) with
    | [] => [{ reason := 7, off := lastOff, cell := cell, word := i }]
    | _ :: l => l.map (fun r => { reason := 7, off := r.off + 8 + 8 * (i - r.start), cell := cell, word := i }))

/-- The cells that some record covers. -/
def coveredCells (recs : List PatRec) : List Nat := (List.range 4096).filter (fun c => recs.any (fun r => (recCells r).contains c))

/-- Pane-map entries, with the reserved bits of each (R154). -/
def paneEntries (rd : Nat → Nat) : List (PaneEntry × Nat) :=
  (List.range (secLen rd 2 / 16)).map (fun i =>
    let x := leRead rd (secOff rd 2 + 16 * i) 16
    (⟨bitsOf x 15 0, bitsOf x 36 16, bitsOf x 42 37, bitsOf x 48 43, bitsOf x 59 49, bitsOf x 75 64⟩,
      bitsOf x 63 60 + bitsOf x 127 76))

/-- Whether no two of a list satisfy a relation. -/
def noPair {α : Type} (clash : α → α → Bool) : List α → Bool
  | [] => true
  | x :: l => l.all (fun y => !clash x y) && noPair clash l

/-- Reason PANE_MAP; `shardWords` gives a shard's length in 32 B words, none beyond the epoch's shards (R154, R157). So is a
section that is no multiple of 16 B (DESIGN CHOICE, log entry 98). -/
def paneMapOk (rd : Nat → Nat) (shardWords : Nat → Option Nat) : Bool :=
  let es := paneEntries rd
  secLen rd 2 % 16 == 0 &&
    es.all (fun e => e.2 == 0 && 1 ≤ e.1.count && e.1.count ≤ 2048 && e.1.pword + e.1.count ≤ 2048 &&
      (match shardWords e.1.shard with
       | none => false
       | some n => decide (e.1.soff + e.1.count ≤ n))) &&
    noPair (fun (a b : PaneEntry × Nat) => a.1.row == b.1.row && a.1.col == b.1.col &&
      decide (a.1.pword < b.1.pword + b.1.count) && decide (b.1.pword < a.1.pword + a.1.count)) es

/-- Transfer-schedule entries, with the reserved bits of each (R156). -/
def transferEntries (rd : Nat → Nat) : List (Transfer × Nat) :=
  (List.range (secLen rd 3 / 16)).map (fun i =>
    let x := leRead rd (secOff rd 3 + 16 * i) 16
    (⟨bitsOf x 24 0, bitsOf x 28 25, bitsOf x 29 29, bitsOf x 31 30, bitsOf x 37 32, bitsOf x 43 38, bitsOf x 56 44,
      bitsOf x 83 64, bitsOf x 115 84, bitsOf x 125 116, bitsOf x 126 126⟩, bitsOf x 63 57 + bitsOf x 127 127))

/-- Engines 0, 2 and 4 move data into the array (R156). -/
def inboundEngine (e : Nat) : Bool := e == 0 || e == 2 || e == 4

/-- Logical word address of word j of an entry: consecutive within WADDR's 2,048-word group (R156). -/
def transferAddr (t : Transfer) (j : Nat) : Nat :=
  let g := if t.waddr < 2048 then 0 else 4096
  g + (t.waddr - g + j) % 2048

/-- Reason TRANSFER (R156, R157), for L, D and PSLOTS; also of a section that is no multiple of 16 B (DESIGN CHOICE, log entry 98). -/
def transfersOk (rd : Nat → Nat) (l d pslots : Nat) : Bool :=
  let es := transferEntries rd
  secLen rd 3 % 16 == 0 &&
    es.all (fun e =>
      let t := e.1
      let bank := t.waddr / 512
      let work := decide (8 ≤ bank ∧ bank ≤ 11)
      e.2 == 0 && t.engine ≤ 5 && t.lane != 0 && 1 ≤ t.count &&
        (if inboundEngine t.engine then work else work || decide (bank ≤ 3)) &&
        decide (t.start + t.count - 1 < l - 128) &&
        (!inboundEngine t.engine || decide (t.start + t.count - 1 < l - d)) &&
        (if t.engine ≤ 3 then decide (t.slot < pslots) else t.slot == 0) &&
        (t.scope == 0 || ((t.engine == 2 || t.engine == 3) && t.slot == 0))) &&
    noPair (fun (a b : Transfer × Nat) => a.1.side == b.1.side && a.1.row == b.1.row && a.1.lane == b.1.lane &&
      decide (a.1.start < b.1.start + b.1.count) && decide (b.1.start < a.1.start + a.1.count)) es

/-- Fields of the planned-extents section (R197). -/
def cfgPslots (rd : Nat → Nat) : Nat := leRead rd (secOff rd 4) 2
def cfgSpr (rd : Nat → Nat) : Nat := leRead rd (secOff rd 4 + 2) 2
def cfgNmask (rd : Nat → Nat) : Nat := leRead rd (secOff rd 4 + 4) 4
def dimBits (rd : Nat → Nat) (d : Nat) : Nat := leRead rd (secOff rd 4 + 16 + 8 * d) 8
def dimPlanned (rd : Nat → Nat) (d : Nat) : Nat := bitsOf (dimBits rd d) 15 0
def dimActive (rd : Nat → Nat) (d : Nat) : Bool := bitOf (dimBits rd d) 16

/-- Mask records, with the reserved bits of each (R198). -/
def maskRecs (rd : Nat → Nat) : List (MaskRec × Nat) :=
  (List.range (cfgNmask rd)).map (fun i =>
    let x := leRead rd (secOff rd 4 + 48 + 16 * i) 16
    (⟨bitsOf x 21 0, bitsOf x 23 22, bitOf x 24, bitsOf x 35 26, bitsOf x 51 36, bitsOf x 63 52⟩,
      bitsOf x 25 25 + bitsOf x 127 64))

def cfgFold (rd : Nat → Nat) : Bool := bitOf (leRead rd 6 2) 0
def cfgModeMask (rd : Nat → Nat) : Nat := bitsOf (leRead rd 6 2) 5 1

/-- Reason EXTENTS (R200). `plan` is the model's planned extents in the service plan in force, one entry per dimension,
none inactive; no comparison is made where the plan has no entry for the model (R158). -/
def extentsOk (rd : Nat → Nat) (plan : Option (List (Option Nat))) : Bool :=
  let ps := cfgPslots rd
  let spr := cfgSpr rd
  let ts := (transferEntries rd).map (fun e => e.1)
  let ms := maskRecs rd
  secLen rd 4 == 48 + 16 * cfgNmask rd && cfgNmask rd ≤ 1048575 && 1 ≤ ps && ps ≤ 1024 && 1 ≤ spr && spr ≤ 1024 &&
    ps % spr == 0 && leRead rd (secOff rd 4 + 8) 8 == 0 &&
    (List.range 4).all (fun d => bitsOf (dimBits rd d) 63 17 == 0 && (dimActive rd d == (dimPlanned rd d != 0))) &&
    (match plan with
     | none => true
     | some p => (List.range 4).all (fun d => match p.getD d none with
       | none => !dimActive rd d
       | some n => dimActive rd d && dimPlanned rd d == n)) &&
    ms.all (fun m =>
      let t := ts.getD m.1.entry {}
      m.2 == 0 && decide (m.1.entry < ts.length) && dimActive rd m.1.dim && decide (m.1.slot < ps) && t.engine ≤ 3 &&
        (if m.1.gen then t.engine == 0 && m.1.unit == 0 else m.1.unit != 0)) &&
    noPair (fun (a b : MaskRec × Nat) => a.1.entry == b.1.entry) ms &&
    (!cfgFold rd || (spr == 1 && (List.range 4).countP (fun d => dimActive rd d) == 1))

/-- What the checks compare a configuration with. -/
structure CheckContext where
  len : Nat
  west : Nat
  modelId : Nat
  layout : Nat
  shardWords : List Nat
  plan : Option (List (Option Nat))
  mode : Option Nat
  nearUe : Bool
  deriving DecidableEq, Repr

/-- Every failure of the checks of R157. -/
def checkFails (rd : Nat → Nat) (x : CheckContext) : List CheckFail :=
  let recs := patRecords rd
  let last := (cfgPhases rd).length - 1
  let l := frameLen (cfgPhases rd) (cfgDrain rd)
  let one (reason : Nat) (ok : Bool) : List CheckFail := if ok then [] else [{ reason := reason, off := 0 }]
  one 1 (headerOk rd x.len x.west) ++ one 2 (timingOk rd) ++ one 3 (phaseTableOk rd) ++
    wordFails rd recs 4 (fun _ _ w => patternFieldOk last w) ++ idleWordFails rd recs 4 (fun _ w => patternFieldOk last w) ++
    wordFails rd recs 5 (fun c _ w => steeringOk (c / 64) w) ++ idleWordFails rd recs 5 steeringOk ++
    wordFails rd recs 6 (fun c i w => loopOk rd recs c i w) ++
    recordFails rd recs ++ (coveredCells recs).flatMap (coverFails recs) ++ one 8 (paneMapOk rd (fun i => x.shardWords[i]?)) ++
    one 9 (transfersOk rd l (cfgDrain rd) (cfgPslots rd)) ++
    one 10 (leRead rd 12 4 == x.modelId && leRead rd 16 4 == x.layout) ++
    one 11 (match x.mode with
      | none => true
      | some m => bitOf (cfgModeMask rd) m && (m != 4 || cfgFold rd)) ++
    one 12 (!x.nearUe) ++ one 13 (extentsOk rd x.plan)

/-- The better of two failures to record: the lower reason, then the lower offset (R157). -/
def firstFail (a b : CheckFail) : CheckFail :=
  if b.reason < a.reason ∨ (b.reason = a.reason ∧ b.off < a.off) then b else a

/-- The failure that a check or load records, if any (R157). -/
def checkConfig (rd : Nat → Nat) (x : CheckContext) : Option CheckFail :=
  match checkFails rd x with
  | [] => none
  | f :: l => some (l.foldl firstFail f)

/-- The parts of a configuration that act in a frame, for the epoch it is loaded with. -/
def loadedConfig (rd : Nat → Nat) (epoch : Nat) : LoadedConfig :=
  { configId := leRead rd 8 4, modelId := leRead rd 12 4, epoch := epoch, layout := leRead rd 16 4,
    fold := cfgFold rd, modeMask := cfgModeMask rd, drainAc := cfgDrain rd, phases := cfgPhases rd,
    transfers := (transferEntries rd).map (fun e => e.1), masks := (maskRecs rd).map (fun m => m.1),
    pslots := cfgPslots rd, spr := cfgSpr rd, planned := (List.range 4).map (dimPlanned rd) }

/-- Length of a casement load in ac: 2,048 plus the longest half-row's sum of COUNT + 4 (R161). -/
def loadLengthAc (recs : List PatRec) : Nat :=
  2048 + (List.range 128).foldl (fun m hr =>
    max m (((recs.filter (fun r => r.row == hr / 2 && r.half == hr % 2)).map (fun r => r.count + 4)).sum)) 0

end Sys2Proof.Machine
end

