-- ==== Sys2Proof/Machine/SpanOps.lean ====
section
/-! DEFINITION. Messages on the control tree, stretch requests and grants, and marking a frame faulted (R66 to R72, R118,
R353 to R356, R366 to R368). -/
namespace Sys2Proof.Machine

def freshLink (_ : Nat) : LinkSt := {}
def link (s : State) (n : Nat) : LinkSt := smapGet freshLink s.links n
def setLink (s : State) (n : Nat) (l : LinkSt) : State := { s with links := smapSet freshLink s.links n l }
def setSpan (s : State) (x : SpanSt) : State := { s with span := x }
def setFrame (s : State) (x : FrameSt) : State := { s with frame := x }
def setPwr (s : State) (x : PwrSt) : State := { s with pwr := x }

/-- Source index of a member's stamps and messages: its ordinal (R355). -/
def ownOrd (s : State) : Nat := getF s F.SPAN_ID_ORD

/-- A member of a span of two or more (R351). -/
def inSpan (s : State) : Bool := isSet s F.SPAN_STAT_IN_SPAN

/-- Whether a member has been declared lost. -/
def isLost (s : State) (ord : Nat) : Bool := bitF s (F.SPAN_LOST (ord / 32)) (ord % 32)

/-- A module that is not in a span of two or more is its own tick master (R62). -/
def isMaster (s : State) : Bool := !inSpan s || ownOrd s == getF s F.SPAN_ROLES_MASTER

def isDeputy (s : State) : Bool := inSpan s && ownOrd s == getF s F.SPAN_ROLES_DEPUTY

/-- The 64 bytes of a control message (R355). -/
def ctrlBytes (m : CtrlMsg) : List Byte :=
  leBytes m.msg 1 ++ [0#8] ++ leBytes m.from_ 2 ++ leBytes m.to_ 2 ++ leBytes m.tick 6 ++
    leBytes (m.stamp.tick % 2 ^ 48 + m.stamp.cif % 2 ^ 25 * 2 ^ 48 + m.stamp.src % 2 ^ 16 * 2 ^ 73 + (if m.stamp.held then 2 ^ 89 else 0) +
      m.stamp.seq % 2 ^ 32 * 2 ^ 96) 16 ++ leBytes m.arg 32 ++ List.replicate 4 0#8

/-- The control message that 64 bytes spell. -/
def ctrlOf (b : List Byte) : CtrlMsg :=
  let rd := listReader b
  let st := leRead rd 12 16
  { msg := leRead rd 0 1, from_ := leRead rd 2 2, to_ := leRead rd 4 2, tick := leRead rd 6 6,
    stamp := { tick := bitsOf st 47 0, cif := bitsOf st 72 48, src := bitsOf st 88 73, held := bitOf st 89, seq := bitsOf st 127 96 },
    arg := leRead rd 28 32 }

/-- Puts a control message into a port's queue. -/
def queueCtrl (s : State) (port : Nat) (b : List Byte) : State :=
  let l := link s port
  setLink s port { l with ctrlQ := l.ctrlQ ++ [b] }

/-- The port toward the current parent (R353). -/
def parentPort (s : State) : Nat :=
  if isSet s F.SPAN_STAT_ON_ALT then getF s F.SPAN_TREE_ALT_PORT else getF s F.SPAN_TREE_PARENT_PORT

/-- The port of the sync parent: sync exchanges travel on the control tree, and so on the alternate parent too (R64, R353). -/
def syncPort (s : State) : Nat :=
  if isSet s F.SPAN_STAT_ON_ALT then getF s F.SPAN_TREE_ALT_PORT else getF s F.TICK_SYNC_SYNC_PORT

/-- Ports that lead to a control-tree child. -/
def childPorts (s : State) : List Nat := (List.range 16).filter (bitF s F.SPAN_TREE_CHILDREN)

def forwardUp (s : State) (b : List Byte) : State := queueCtrl s (parentPort s) b
def forwardDown (s : State) (b : List Byte) : State := (childPorts s).foldl (fun s p => queueCtrl s p b) s

/-- Sends a message of this member's own: up to the master, or from the master down to every member (R355). Nothing is
sent outside a span. -/
def sendCtrl (s : State) (m : CtrlMsg) : State :=
  if !inSpan s then s
  else
    let s := bump s F.SPAN_CNT_CTRL_TX
    if m.to_ = 0xFFFE then (if isMaster s then s else forwardUp s (ctrlBytes m)) else forwardDown s (ctrlBytes m)

/-- A message to the master, or to every member, about tick `n`, with the stamp `t` of the event that caused it (R355). -/
def toMaster (s : State) (t : Stamp) (msg n arg : Nat) : State :=
  sendCtrl s { msg := msg, from_ := ownOrd s, to_ := 0xFFFE, tick := n, stamp := t, arg := arg }
def toAll (s : State) (t : Stamp) (msg n arg : Nat) : State :=
  sendCtrl s { msg := msg, from_ := ownOrd s, to_ := 0xFFFF, tick := n, stamp := t, arg := arg }

/-- A message whose cause is an event of source `src` at this moment, itself due to a message with the stamp `by_` if one is: the event is
stamped, and counts among the source's (R73, R77, R355). -/
def eventToMaster (s : State) (src : Nat) (by_ : Option Stamp) (msg n arg : Nat) : State :=
  let t := stampAfter s src by_
  toMaster (countStamp s t) t msg n arg
def eventToAll (s : State) (src : Nat) (by_ : Option Stamp) (msg n arg : Nat) : State :=
  let t := stampAfter s src by_
  toAll (countStamp s t) t msg n arg

/-- The master announces a change that every member applies at tick `n` (R352, R356): it records it and tells the members, itself
led by a message with the stamp `by_` if one is. -/
def announceChange (s : State) (src : Nat) (by_ : Option Stamp) (subject n operand : Nat) : State :=
  let s := setSpan s { s.span with announced := s.span.announced ++ [⟨subject, n, operand⟩] }
  eventToAll s src by_ 0x0A n (subject + n % 2 ^ 48 * 2 ^ 8 + operand * 2 ^ 56)

/-! ### Alignment and stretches -/

/-- Raises NARROW; every rise sets ADM_STAT.NARROWED (R395, R430). -/
def raiseNarrow (s : State) : State :=
  if isSet s F.PWR_STAT_NARROW then s else raise (raise s F.PWR_STAT_NARROW) F.ADM_STAT_NARROWED

/-- The steps of R66 from an alignment loss, which a message with the stamp `by_` may show. -/
def alignLoss (s : State) (by_ : Option Stamp) : State :=
  let s := bump (raise (lower s F.TICK_STAT_LOCKED) F.TICK_STAT_ALIGN_LOSS) F.TICK_CNT_ALIGN
  eventToMaster s srcTick by_ 0x06 (frameNow s) (getF s F.TICK_SYNC_OFFSET_NS % 65536)

/-- A member takes a grant (R69): before its tick it reschedules it, never earlier; after it, the grant is discarded. A grant that names a
later tick than the next one is discarded too (DESIGN CHOICE, log entry 94): R69 speaks of loading TICK_NEXT alone. -/
def takeGrant (s : State) (g : StretchGrant) (by_ : Option Stamp) : State :=
  if g.tick ≤ frameNow s then alignLoss (raise s F.TICK_STAT_LATE_GRANT) by_
  else if g.tick = frameNow s + 1 ∧ getF s F.TICK_NEXT ≤ g.dt then
    let s := setF (raise s F.TICK_STAT_STRETCH_PEND) F.TICK_NEXT g.dt
    let s := setSpan s { s.span with grant := some g }
    if g.cause = .power then raiseNarrow (setPwr s { s.pwr with powerGrant := true }) else s
  else s

/-- The scheduled time of the next tick without any stretch (R62). -/
def unstretched (s : State) : Nat := getF s F.TICK_LAST + 1000 * getF s F.TICK_PERIOD_PERIOD_US

/-- The master's grant for the coming tick (R68, R70): the largest amount that an accepted request asks for, capped at MAX_US; of
requests for the same largest amount the lower ordinal's is named. It is broadcast and taken. -/
def grantStretch (s : State) (r : StretchReq) : State :=
  let amount := min r.amountUs (getF s F.TICK_STRETCH_CFG_MAX_US)
  let base := unstretched s
  let better := match s.span.granted with
    | some q => q.tick != r.tick || decide (q.amountUs < r.amountUs) || (q.amountUs == r.amountUs && decide (r.ord < q.ord))
    | none => true
  if !better || amount = 0 then s
  else
    let g : StretchGrant := { tick := r.tick, dt := base + 1000 * amount, amountUs := amount, cause := r.cause, ord := r.ord }
    let s := setSpan s { s.span with granted := some r }
    let s := eventToAll s srcTick r.by_ 0x02 g.tick (g.dt + g.amountUs * 2 ^ 64 + g.cause.num * 2 ^ 96 + g.ord * 2 ^ 104)
    takeGrant s g r.by_

/-- The master's acceptance of a request (R68): before the scheduled tick less CUTOFF_US, else it is counted as late. A
module that is its own tick master knows no cutoff (R70). A request that names another tick than the next one is counted as late
too (DESIGN CHOICE, log 94): the rule says nothing of it. -/
def acceptStretch (s : State) (r : StretchReq) : State :=
  if r.tick ≠ frameNow s + 1 then bump s F.TICK_CNT_LATE_REQ
  else if inSpan s && decide (getF s F.TICK_NEXT ≤ devNow s + 1000 * getF s F.TICK_STRETCH_CFG_CUTOFF_US) then bump s F.TICK_CNT_LATE_REQ
  else grantStretch s r

/-- Where a request's cause arises: the power controller, the tick unit's gate or projection, the drain check. -/
def stretchSource : Cause → Nat
  | .power => srcPower
  | .drain => srcConfig
  | _ => srcTick

/-- A member's request for a stretch, once per frame and cause (R67). -/
def askStretch (s : State) (amountUs : Nat) (c : Cause) : State :=
  if s.frame.stretchSent.contains c || amountUs = 0 then s
  else
    let s := setFrame s { s.frame with stretchSent := s.frame.stretchSent ++ [c] }
    let s := if c = .power then bump s F.PWR_CNT_STRETCH_REQ else s
    let n := frameNow s + 1
    if isMaster s then acceptStretch s { tick := n, amountUs := amountUs, cause := c, ord := ownOrd s }
    else eventToMaster s (stretchSource c) none 0x01 n (amountUs + c.num * 2 ^ 32)

/-- A request by a member whose array needs `overNs` more than the next tick, as it stands, allows: the stretch counts from the tick without
any (R67, R68). -/
def requestStretch (s : State) (overNs : Nat) (c : Cause) : State :=
  if overNs = 0 then s else askStretch s (ceilDiv (overNs + (getF s F.TICK_NEXT - unstretched s)) 1000) c

/-! ### A faulted frame -/

/-- The configuration in the live casement. -/
def liveCfg (s : State) : LoadedConfig :=
  ((s.frame.casements.find? (fun c => c.1 == getF s F.ARR_STAT_LIVE_CASEMENT)).map (fun c => c.2.cfg)).getD {}

/-- LEN and CHAN, PORT, PHASE of a span transfer record (R357). -/
def xferOf (s : State) (ref : Nat) : Nat := s.span.xfers.getD ref 0
def xferLen (x : Nat) : Nat := bitsOf x 57 34
def xferChan (x : Nat) : Nat := bitsOf x 15 0
def xferPort (x : Nat) : Nat := bitsOf x 19 16
def xferPhase (x : Nat) : Nat := bitsOf x 89 86

/-- Whether every flit of a send instance has been cut (R321). -/
def sendDone (s : State) (i : SendInst) : Bool := decide (xferLen (xferOf s i.ref) ≤ 242 * i.off)

/-- Whether a span send of the frame has still to complete (R368). -/
def sendsPending (s : State) : Bool :=
  (liveCfg s).transfers.any (fun t => t.engine == 5 && !s.span.sends.any (fun i => i.ref == t.ref && sendDone s i))

/-- Sends a fault notice with the fault's stamp, once per frame (R356, R368). -/
def sendNotice (s : State) (t : Stamp) : State :=
  if !inSpan s || s.span.noticed || s.span.muted || s.span.solo then s
  else
    let s := bump (raise (setSpan s { s.span with noticed := true }) F.SPAN_STAT_NOTICE) F.SPAN_CNT_NOTICE
    if isMaster s then toAll s t 0x04 (frameNow s) 0 else toMaster s t 0x04 (frameNow s) 0

/-- Marks the frame faulted (R118); in a span a fault before the last send of the frame is notified (R368). A frame that
is not running, or has ended, is not marked. `t` is the fault's stamp. -/
def markFaulted (s : State) (t : Stamp) : State :=
  if !s.frame.hasLive || s.frame.state == .tickWait || s.frame.state == .notRunning then s
  else
    let s := if isSet s F.ARR_STAT_FRAME_FAULTED then s else bump s F.ARR_FAULT_CNT
    let s := raise (raise s F.ARR_STAT_FRAME_FAULTED) F.ARR_STAT_FAULT
    if sendsPending s then sendNotice s t else s

/-- This member's report of the present frame, with the stamp `t` of its end (R367, R370): 0 COMMIT, 1 ABORT, 2 OVERRUN, 3 EMPTY. One that stands for an
empty frame run again is EMPTY, whatever this member had begun in it. -/
def ownReport (s : State) (outcome : Nat) (c : Cause) (t : Stamp) : FrameReport :=
  let again := s.span.rerunNow
  { ord := ownOrd s, tick := frameNow s, outcome := if again then 3 else outcome, cause := if again then 0 else c.num, notice := s.span.noticed,
    replays := if again then s.span.lastReplays + 1 else s.frame.replays, stamp := t }

/-- What a member keeps of its report: the replays of a frame and its plan index where the frame carries one (R373, R546). -/
def noteReport (s : State) (r : FrameReport) : State :=
  let s := setSpan s { s.span with lastOut := some (r.tick, r.outcome) }
  if s.span.rerunNow then setSpan s { s.span with lastReplays := r.replays, lastIdx := s.span.rerunIdx }
  else if s.adm.frameIdx.isSome then setSpan s { s.span with lastReplays := r.replays, lastIdx := s.adm.frameIdx } else s

/-- Sends a report to the tick master, with the stamp of the frame's end (R367). The master's own report goes to its own list. -/
def sendReport (s : State) (r : FrameReport) : State :=
  if !inSpan s then s
  else
    let s := noteReport s r
    if isMaster s then setSpan s { s.span with reports := s.span.reports ++ [r] }
    else toMaster s r.stamp 0x03 r.tick (r.outcome + r.cause * 2 ^ 8 + (if r.notice then 2 ^ 16 else 0) + r.replays * 2 ^ 24)

end Sys2Proof.Machine
end

