-- ==== Sys2Proof/Machine/PowerOps.lean ====
section
/-! DEFINITION. The power controller: operating points, the cap, the learning table and the choice of points for the rest
of a frame (R419 to R434). Powers are in 0.1 W, energies in 0.1 µJ per 1,000 ac, voltages in mV, times in µs. -/
namespace Sys2Proof.Machine

/-- The frequency of a point in MHz (R419). -/
def opMhz (p : Nat) : Nat :=
  [600, 700, 800, 900, 1000, 1050, 1100, 1150, 1200, 1250, 1300, 1350, 1400, 1450, 1500, 1650].getD p 600

/-- The fused rail voltage of a point (R420). -/
def opMv (s : State) (p : Nat) : Nat := getF s (F.TEL_VID p)

/-- The length L and the drain window D of the live configuration (R51). -/
def liveLen (s : State) : Nat := frameLen (liveCfg s).phases (liveCfg s).drainAc
def liveDrain (s : State) : Nat := (liveCfg s).drainAc

/-! ### The cap (R426, R435, R439) -/

/-- The cap of the present louvre level. -/
def louvreCap (s : State) : Nat :=
  match getF s F.PWR_STAT_LOUVRE with
  | 1 => 10 * getF s F.PWR_LOUVRE_L1_W
  | 2 => 10 * getF s F.PWR_LOUVRE_L2_W
  | _ => 12000

/-- The effective cap: the lowest of the three, from 350 W to 1,200 W. -/
def effectiveCap (s : State) : Nat := max 3500 (min 12000 (min s.pwr.rackCap (min (louvreCap s) (s.pwr.phaseCap.getD 12000))))

/-- The cap target. -/
def capTarget (s : State) : Rat := (effectiveCap s : Rat) * (100 - getF s F.PWR_CAP_CFG_GUARD_PCT : Nat) / 100

/-! ### Predicted power (R428) -/

/-- P_other: the mean of the last measurements, or the fused value before the first. -/
def pOther (s : State) : Rat :=
  match s.pwr.others with
  | [] => (getF s F.PWR_FUSED_POTHER0_DW : Rat)
  | l => ((l.sum : Nat) : Rat) / (l.length : Nat)

def learnFind (s : State) (model config : Nat) : Option (Nat × LearnEntry) :=
  s.pwr.learn.find? (fun p => p.2.model == model && p.2.config == config)

/-- E_k of a configuration: learned, else the highest E_k held for its model, else E_MAX. -/
def energyOf (s : State) (model config k : Nat) : Rat :=
  match (learnFind s model config).bind (fun p => p.2.e[k]?) with
  | some e => e
  | none =>
    match s.pwr.learn.filterMap (fun p => if p.2.model = model then p.2.e[k]? else none) with
    | [] => (getF s F.PWR_FUSED_EMAX : Rat)
    | l => l.foldl max 0

/-- Predicted power of phase `k` at frequency of `op` and rail voltage `mv`. -/
def predAt (s : State) (e : Rat) (op : Nat) (mv : Rat) : Rat :=
  e * opMhz op / 1000 * (mv / opMv s 14) * (mv / opMv s 14) + pOther s

def predPower (s : State) (e : Rat) (op : Nat) : Rat := predAt s e op (opMv s op)

/-! ### The choice of points (R429) -/

/-- A phase still to run: its index, the ac left, its preferred point, its energy. -/
structure PhaseLeft where
  k : Nat
  ac : Nat
  pref : Nat
  e : Rat
  deriving DecidableEq, Repr

/-- Points by which throttling has lowered the ceiling of phase `k` (R437). -/
def throttled (s : State) (k : Nat) : Nat := s.pwr.throttle.getD k 0

/-- The ceiling of a phase without throttling: the highest permitted point whose predicted power is within the cap target, one lower in a calibration
fault, never below OP_MIN (R425, R429). -/
def capCeil (s : State) (e : Rat) : Nat :=
  let lo := getF s F.PWR_RANGE_OP_MIN
  let hi := getF s F.PWR_RANGE_OP_MAX
  let top := ((List.range 16).filter (fun op => decide (lo ≤ op) && decide (op ≤ hi) && decide (predPower s e op ≤ capTarget s))).foldl max lo
  max lo (top - (if s.pwr.calHeld ≥ 64 then 1 else 0))

/-- The ceiling of a phase (R427, R429, R435, R437). -/
def phaseCeil (s : State) (p : PhaseLeft) : Nat :=
  let lo := getF s F.PWR_RANGE_OP_MIN
  if getF s F.PWR_STAT_LOUVRE = 3 then lo
  else
    let held := match s.pwr.guardMax with
      | some m => if p.k = s.pwr.guardPhase then m else 15
      | none => 15
    max lo (min (capCeil s p.e - throttled s p.k) held)

/-- The highest point up to `target` that the array can run at while the rail is at `mv`: the rail has reached its voltage (R421), and its predicted
power there is within the cap target (R434). Where none is, OP_MIN, or the highest point below it that the rail allows until it has risen. -/
def runnable (s : State) (e : Rat) (target : Nat) (mv : Rat) : Nat :=
  let lo := min target (getF s F.PWR_RANGE_OP_MIN)
  let railOk (p : Nat) : Bool := decide ((opMv s p : Rat) ≤ mv)
  let base := ((List.range (lo + 1)).filter railOk).foldl max 0
  ((List.range (target + 1)).filter (fun p => decide (lo ≤ p) && railOk p && decide (predAt s e p mv ≤ capTarget s))).foldl max base

/-- The rail voltage up to which a point's predicted power is within the cap target. -/
def fitMv (s : State) (e : Rat) (op : Nat) : Rat :=
  let room := (capTarget s - pOther s) * 1000 * (opMv s 14 * opMv s 14 : Nat) / (e * opMhz op)
  (Nat.sqrt (room * 65536).floor.toNat : Rat) / 256

/-- Time of `ac` cycles at a target point while the rail goes from `mv` to `goal` at 2 mV/µs, the frequency stepping up: while
the rail rises, at each point whose voltage it reaches; while it falls, at each point that the cap target then allows (R421, R434). -/
def climbTime (s : State) (e : Rat) (target goal : Nat) : Nat → Rat → Rat → Rat
  | 0, _, ac => ac / opMhz target
  | n + 1, mv, ac =>
    let p := runnable s e target mv
    let next : Rat := if mv < opMv s (p + 1) then (opMv s (p + 1) : Rat) else max (goal : Rat) (fitMv s e (p + 1))
    if target ≤ p || next = mv then ac / opMhz p
    else
      let t := (if mv < next then next - mv else mv - next) / 2
      let done := t * opMhz p
      if ac ≤ done then ac / opMhz p else t + climbTime s e target goal n next (ac - done)

/-- Where the rail stands `t` µs after it set out from `mv` toward `goal`, at 2 mV/µs (R421). -/
def slewTo (goal mv t : Rat) : Rat := if mv < goal then min goal (mv + 2 * t) else max goal (mv - 2 * t)

/-- The rail voltage that a phase at `op` aims at: that of its point, or beyond it up to that of the next phase's point, as far as the phase's predicted
power at its own frequency stays within the cap target (R429; log 107). -/
def railGoal (s : State) (e : Rat) (op : Nat) (next : Option Nat) : Nat :=
  let mv := opMv s op
  match next with
  | some p => ((List.range (opMv s p + 1)).filter (fun v => decide (mv ≤ v) && decide (predAt s e op v ≤ capTarget s))).foldl max mv
  | none => mv

/-- frame_time: the time that the phases take at chosen points, ramps included, from rail voltage `mv` on. -/
def frameTime (s : State) : List (PhaseLeft × Nat) → Rat → Rat
  | [], _ => 0
  | (p, op) :: l, mv =>
    let goal := railGoal s p.e op (l.head?.map Prod.snd)
    let t := climbTime s p.e op goal 16 mv p.ac
    t + frameTime s l (slewTo goal mv t)

/-- Energy per µs saved by raising a phase one point (R429). -/
def raiseCost (s : State) (p : PhaseLeft) (op : Nat) : Rat :=
  let en (o : Nat) : Rat := p.e * p.ac / 1000 * ((opMv s o : Rat) / opMv s 14) * ((opMv s o : Rat) / opMv s 14)
  let saved : Rat := (p.ac : Rat) / opMhz op - (p.ac : Rat) / opMhz (op + 1)
  if saved = 0 then 0 else (en (op + 1) - en op) / saved

/-- The index of the phase that is cheapest to raise, the lowest among equals. -/
def cheapest (s : State) (l : List (PhaseLeft × Nat)) : Option Nat :=
  (l.foldl (fun b x =>
    if x.2 < phaseCeil s x.1 then
      match b with
      | some (c, _) => if raiseCost s x.1 x.2 < c then some (raiseCost s x.1 x.2, x.1.k) else b
      | none => some (raiseCost s x.1 x.2, x.1.k)
    else b) (none : Option (Rat × Nat))).map Prod.snd

/-- Raises points until the frame fits in `limit` or no ceiling leaves room. -/
def raiseUntil (s : State) (mv : Nat) (limit : Rat) : Nat → List (PhaseLeft × Nat) → List (PhaseLeft × Nat)
  | 0, l => l
  | n + 1, l =>
    if frameTime s l mv ≤ limit then l
    else match cheapest s l with
      | none => l
      | some k => raiseUntil s mv limit n (l.map (fun x => if x.1.k = k then (x.1, x.2 + 1) else x))

/-- The phases left of the live frame, from its present schedule cycle; the drain window runs at the LAST phase's point. -/
def phasesLeft (s : State) : List PhaseLeft :=
  let c := liveCfg s
  let n := c.phases.length
  (c.phases.mapIdx (fun k p =>
    let start := phaseStart c.phases k
    let stop := start + p.lenAc + (if k + 1 = n then c.drainAc else 0)
    { k := k, ac := stop - max start s.frame.sched, pref := p.prefOp, e := energyOf s c.modelId c.configId k : PhaseLeft })).filter
    (fun p => decide (0 < p.ac))

/-- FLOOR_OP of a configuration: the lowest permitted point whose frequency reaches L ÷ P (R430). -/
def floorOp (s : State) (len : Nat) : Nat :=
  ((List.range 16).find? (fun op => decide (getF s F.PWR_RANGE_OP_MIN ≤ op) && decide (len ≤ opMhz op * getF s F.TICK_PERIOD_PERIOD_US))).getD
    (getF s F.PWR_RANGE_OP_MAX)

/-- Feasible in the present mode: L ≤ P × f(OP_MAX) (R53). -/
def feasibleLen (s : State) (len : Nat) : Bool := decide (len ≤ opMhz (getF s F.PWR_RANGE_OP_MAX) * getF s F.TICK_PERIOD_PERIOD_US)

/-- The frequency changes to a point's; during a droop stretch, at its end (R433). -/
def setOp (s : State) (op : Nat) : State :=
  if s.pwr.droop then setPwr s { s.pwr with opWait := some op } else setF s F.PWR_OP_CUR op

/-- The point that the array runs at, or that takes effect when the droop stretch ends (R433). -/
def nowOp (s : State) : Nat := s.pwr.opWait.getD (getF s F.PWR_OP_CUR)

/-- Sets the point that the array aims at in a phase of energy `e`: the frequency falls at once, and rises as far as the rail and the cap target allow
(R421, R434); the rail goes to the point's voltage, or already beyond it for a raise to `next` that the next phase needs, as far as the phase's
predicted power at its own frequency stays within the cap target (R429; log 107). -/
def aimAt (s : State) (e : Rat) (op : Nat) (next : Option Nat) : State :=
  setOp (setF (setF s F.PWR_OP_TARGET op) F.PWR_OP_RAIL_MV (railGoal s e op next)) (runnable s e op s.pwr.railMv)

/-- Whether a stretch request for this frame can still reach the master (R68, R431). -/
def beforeCutoff (s : State) : Bool :=
  isMaster s && !inSpan s || decide (devNow s + 1000 * getF s F.TICK_STRETCH_CFG_CUTOFF_US < getF s F.TICK_NEXT)

/-- The point from which the procedure of R429 sets out for a phase; never below OP_MIN (R422). -/
def startPoint (s : State) (p : PhaseLeft) : Nat := max (getF s F.PWR_RANGE_OP_MIN) (min p.pref (phaseCeil s p))

/-- The points of some phases by the procedure of R429, from the present rail voltage, to fit into `limit` µs. -/
def choosePoints (s : State) (left : List PhaseLeft) (limit : Rat) : List (PhaseLeft × Nat) :=
  raiseUntil s s.pwr.railMv limit 256 (left.map (fun p => (p, startPoint s p)))

/-- The point that the procedure chooses for phase 0 of a configuration in the next frame (R429). -/
def firstPoint (s : State) (c : LoadedConfig) : Option Nat :=
  let n := c.phases.length
  let all := c.phases.mapIdx (fun k p =>
    ({ k := k, ac := p.lenAc + (if k + 1 = n then c.drainAc else 0), pref := p.prefOp, e := energyOf s c.modelId c.configId k } : PhaseLeft))
  (choosePoints (setPwr s { s.pwr with guardMax := none }) all (getF s F.TICK_PERIOD_PERIOD_US)).head?.map (fun x => x.2)

/-- The schedule of a frame runs: the frame is not empty, and not in tick wait. -/
def frameRuns (s : State) : Bool := s.frame.hasLive && s.frame.state != .tickWait

/-- A phase of the frame that ran last, as a phase with no ac left. -/
def RestPhase.left (s : State) (x : RestPhase) : PhaseLeft := { k := x.k, ac := 0, pref := 0, e := energyOf s x.model x.config x.k }

/-- E_k of the present phase: of the last one that ran, where no schedule runs. -/
def nowEnergy (s : State) : Rat :=
  let c := liveCfg s
  if frameRuns s then energyOf s c.modelId c.configId (phaseAt c.phases s.frame.sched)
  else (s.pwr.rest.getLast?.map (fun x => (x.left s).e)).getD (getF s F.PWR_FUSED_EMAX)

/-- The points of the last frame that ran, each within its ceiling as it now stands. -/
def restPoints (s : State) : List Nat :=
  s.pwr.rest.map (fun x => max (getF s F.PWR_RANGE_OP_MIN) (min x.op (phaseCeil s (x.left s))))

/-- Shows FLOOR_OP of the live configuration, where one is live (R446). -/
def showFloor (s : State) : State :=
  if (liveCfg s).phases.isEmpty then s else setF s F.PWR_OP_FLOOR_OP (floorOp s (liveLen s))

/-- Where no schedule runs, in tick wait and in an empty frame, the array keeps to the point of the last phase that ran, within its ceiling (R434,
R436; log 107), and a raise that has been led across the tick stays led (R429). In Idle it runs at OP_MIN, and the rail at the voltage of the last
frame's highest point (R441). -/
def aimRest (s : State) : State :=
  let lo := getF s F.PWR_RANGE_OP_MIN
  let l := restPoints s
  let s := match s.pwr.rest.getLast? with
    | some x => setF s F.PWR_OP_CEIL (phaseCeil s (x.left s))
    | none => s
  if getF s F.PWR_STAT_STATE = 1 then
    setOp (setF (setF s F.PWR_OP_TARGET lo) F.PWR_OP_RAIL_MV (opMv s (l.foldl max lo))) (runnable s 0 lo s.pwr.railMv)
  else aimAt s (nowEnergy s) (l.getLastD lo) s.pwr.leadTo

/-- Keeps the points chosen for the phases left, beside those of the phases that have run. -/
def keepPoints (s : State) (ch : List (PhaseLeft × Nat)) : State :=
  let c := liveCfg s
  let ran := if s.frame.sched = 0 then [] else s.pwr.rest.filter (fun x => ch.all (fun y => x.k < y.1.k))
  setPwr s { s.pwr with rest := ran ++ ch.map (fun y => ⟨c.modelId, c.configId, y.1.k, y.2⟩) }

/-- Chooses the points for the rest of the frame; below the floor it raises NARROW and asks for a stretch of the excess (R429 to R431). In the
drain window a raise that has been led across the tick stays led. -/
def planPoints (s : State) : State :=
  let s := showFloor s
  if !frameRuns s then aimRest s
  else
    let limit : Rat := ((getF s F.TICK_NEXT - devNow s : Nat) : Rat) / 1000
    let s := setPwr s { s.pwr with lag := 0 }
    let mv := s.pwr.railMv
    let ch := choosePoints s (phasesLeft s) limit
    let s := ch.foldl (fun s x =>
      let s := setF (setF s (F.PWR_PHASE_PREF x.1.k) x.1.pref) (F.PWR_PHASE_CHOSEN x.1.k) x.2
      setBool (setBool s (F.PWR_PHASE_CAPPED x.1.k) (decide (phaseCeil s x.1 < x.1.pref))) (F.PWR_PHASE_RAISED x.1.k)
        (decide (max x.1.pref (startPoint s x.1) < x.2))) s
    let s := if ch.isEmpty then s else keepPoints s ch
    let s := match ch with
      | (p, op) :: l => aimAt (setF s F.PWR_OP_CEIL (phaseCeil s p)) p.e op (match l.head? with
          | some x => some x.2
          | none => s.pwr.leadTo)
      | [] => aimRest s
    let excess := frameTime s ch mv - limit
    if excess ≤ 0 then s
    else
      let s := if s.pwr.belowFloor then s else bump (raise s F.PWR_STAT_BELOW_FLOOR) F.PWR_CNT_BELOW_FLOOR
      let s := raiseNarrow (setPwr s { s.pwr with belowFloor := true })
      if beforeCutoff s then requestStretch s (1000 * excess).ceil.toNat .power else s

/-- The ceilings that hold now: of the phases left, or of those that ran last. -/
def ceilings (s : State) : List Nat := if frameRuns s then (phasesLeft s).map (phaseCeil s) else restPoints s

/-- The points are chosen again where a ceiling has changed since `old` (R429). -/
def replanMoved (old s : State) : State := if ceilings s = ceilings old then s else planPoints s

/-- The points of phases that the frame's configuration lacks are shown as 0 (R446). -/
def clearPhases (s : State) : State :=
  ((List.range 16).drop (liveCfg s).phases.length).foldl (fun s k =>
    lower (lower (setF (setF s (F.PWR_PHASE_PREF k) 0) (F.PWR_PHASE_CHOSEN k) 0) (F.PWR_PHASE_CAPPED k)) (F.PWR_PHASE_RAISED k)) s

/-- A phase begins: the array runs at the point chosen for it (R429). -/
def aimPhase (s : State) (k : Nat) : State :=
  let c := liveCfg s
  match c.phases[k]? with
  | none => s
  | some p =>
    let e := energyOf s c.modelId c.configId k
    let left : PhaseLeft := { k := k, ac := p.lenAc, pref := p.prefOp, e := e }
    let next := if k + 1 < c.phases.length then some (getF s (F.PWR_PHASE_CHOSEN (k + 1))) else none
    aimAt (setF s F.PWR_OP_CEIL (phaseCeil s left)) e (min (getF s (F.PWR_PHASE_CHOSEN k)) (phaseCeil s left)) next

/-- The drain window begins: a raise that phase 0 of the next frame needs starts early, as the naming then stands (R429). -/
def leadNext (s : State) (c : Option LoadedConfig) : State :=
  let s := setPwr s { s.pwr with leadTo := c.bind (firstPoint s) }
  aimAt s (nowEnergy s) (getF s F.PWR_OP_TARGET) s.pwr.leadTo

/-- The planner has named a configuration: the module is Active again (R441). -/
def leaveIdle (s : State) : State := if getF s F.PWR_STAT_STATE = 1 then aimRest (setF s F.PWR_STAT_STATE 0) else s

/-! ### A change of the effective cap (R431, R434) -/

/-- Shows the effective cap. -/
def showCap (s : State) : State := setF s F.PWR_CAP_EFFECTIVE_W (effectiveCap s / 10)

/-- What follows a change of the effective cap from `old`: the points are chosen again, the frequency dropping at once on a fall (R431, R434). -/
def capChanged (old : Nat) (s : State) : State :=
  let s := showCap s
  if effectiveCap s = old then s else planPoints s

/-- The rack cap is BOOT_W until the first cap command (R426). -/
def bootCap (s : State) : State :=
  if getF s F.PWR_CAP_TARGET_W = 0 then setPwr s { s.pwr with rackCap := 10 * getF s F.PWR_CAP_CFG_BOOT_W } else s

/-- Counts an event that starts a fall of the effective cap (R434 step 5). -/
def countFall (s : State) : State := bump (raise s F.PWR_STAT_CAP_CHG) F.PWR_CNT_CAP

/-! ### Learning (R428) -/

/-- A slot's place in the least-recently-used order moves to the end. -/
def touchSlot (s : State) (slot : Nat) : State :=
  setPwr s { s.pwr with lru := s.pwr.lru.filter (fun x => decide (x ≠ slot)) ++ [slot] }

/-- After a committed frame, each E_k moves 1/8 of the way toward the phase's mean estimate over the frame. -/
def learnFrame (s : State) : State :=
  let c := liveCfg s
  let upd (e : LearnEntry) : LearnEntry :=
    { e with frames := min 255 (e.frames + 1),
             e := (List.range c.phases.length).map (fun k =>
               let old := (e.e[k]?).getD (energyOf s c.modelId c.configId k)
               match s.pwr.sums.find? (fun x => x.1 == k) with
               | some (_, sum, n) => if n = 0 then old else old + (sum / n - old) / 8
               | none => old) }
  match learnFind s c.modelId c.configId with
  | some (slot, e) =>
    touchSlot (setPwr s { s.pwr with learn := s.pwr.learn.map (fun p => if p.1 = slot then (slot, upd e) else p), sums := [] }) slot
  | none =>
    let fresh : LearnEntry := { model := c.modelId, config := c.configId, e := [] }
    let free := (List.range 256).find? (fun i => !s.pwr.learn.any (fun p => p.1 == i))
    let slot := free.getD (s.pwr.lru.headD 0)
    let rest := s.pwr.learn.filter (fun p => decide (p.1 ≠ slot))
    touchSlot (setPwr s { s.pwr with learn := rest ++ [(slot, upd fresh)], sums := [] }) slot

end Sys2Proof.Machine
end

