-- ==== Sys2Proof/Machine/ConfigNear.lean ====
section
/-! DEFINITION. The configurations of a resident epoch, as the planner, admission and the configuration unit read them (R53, R150,
R158, R191, R194). -/
namespace Sys2Proof.Machine

/-! ### Configurations in Near -/

/-- The byte at offset `o` of a shard's copy in Near. -/
def shardByte (s : State) (h : ShardRec) (o : Nat) : Nat :=
  (smapGet zeroByte s.mem.near (nearAddr h.nearStack h.nearUnits o)).toNat

/-- An object of an epoch. -/
def findObject (r : EpochRec) (kind cid : Nat) : Option ObjRec := r.objects.find? (fun o => o.kind == kind && o.configId == cid)

/-- A configuration record: its west part, of `west` bytes, followed by its east part (R150, R285). -/
structure CfgBytes where
  len : Nat
  west : Nat
  rd : Nat → Nat

def cfgBytes (s : State) (r : EpochRec) (cid : Nat) : Option CfgBytes :=
  match findObject r 1 cid, findObject r 2 cid with
  | some w, some e =>
    let hw := r.shards.getD w.shard {}
    let he := r.shards.getD e.shard {}
    some ⟨w.len + e.len, w.len, fun a => if a < w.len then shardByte s hw (w.off + a) else shardByte s he (e.off + (a - w.len))⟩
  | _, _ => none

/-- The planned extents that a configuration is compared with: none where the plan in force has no entry (R158). -/
def planExtents (s : State) (model : Nat) : Option (List (Option Nat)) :=
  (planModelFor s.adm.plan model).map (fun e =>
    (List.range 4).map (fun d => if e.active.getD d false then some (e.planned.getD d 0) else none))

/-- What the checks of R157 compare with, for an epoch. -/
def checkContext (s : State) (r : EpochRec) (len west : Nat) (mode : Option Nat) (nearUe : Bool) : CheckContext :=
  { len := len, west := west, modelId := r.model, layout := r.layout, shardWords := r.shards.map (fun h => h.ulen / 32),
    plan := planExtents s r.model, mode := mode, nearUe := nearUe }

/-- The configurations of an epoch, in object order. -/
def epochConfigs (r : EpochRec) : List Nat := (r.objects.filter (fun o => o.kind == 1)).map (fun o => o.configId)

/-- Request capacity of a configuration (R191). -/
def cfgCapacity (c : LoadedConfig) : Nat := c.pslots / c.spr

/-- Whether the planner may name a checked configuration in the present mode under the service plan in force (R53, R158). -/
def nameable (s : State) (c : LoadedConfig) : Bool :=
  (planModelFor s.adm.plan c.modelId).isSome &&
  bitOf c.modeMask (getF s F.CFG_MODE) && (getF s F.CFG_MODE != 4 || c.fold) && feasibleLen s (frameLen c.phases c.drainAc)

/-- The configurations of an epoch that passed their check and may be named now, in object order: the order in which R194 takes them to be listed
(DESIGN CHOICE, log entry 110: the plan lists none). -/
def nameableConfigs (s : State) (r : EpochRec) : List LoadedConfig :=
  ((epochConfigs r).filter r.checked.contains).filterMap (fun cid => match cfgBytes s r cid with
    | some b => let c := loadedConfig b.rd r.epoch; if nameable s c then some c else none
    | none => none)

/-- The configuration that a naming names. -/
def namedConfig (s : State) (x : Naming) : Option LoadedConfig :=
  match recFind s.mem x.model x.epoch with
  | some r => (cfgBytes s r x.configId).map (fun b => loadedConfig b.rd r.epoch)
  | none => none

/-- The choice of R194: the smallest capacity that holds `n` requests, the first listed among equals; where none holds them,
the largest. -/
def chooseConfig (n : Nat) (l : List LoadedConfig) : Option LoadedConfig :=
  l.foldl (fun b c => match b with
    | none => some c
    | some d =>
      let cc := cfgCapacity c
      let cd := cfgCapacity d
      if (n ≤ cc ∧ n ≤ cd ∧ cc < cd) ∨ (cd < n ∧ cd < cc) then some c else b) none

/-- The most requests that a feasible configuration of an epoch can carry in one frame (R53, R191); none where the epoch's
configurations have not been read and checked in Near, so that nothing is known of them (log 93). -/
def feasibleRoom (s : State) (model epoch : Nat) : Option Nat :=
  match recFind s.mem model epoch with
  | none => none
  | some r =>
    if r.checked.isEmpty || !(entryOf s.mem model epoch).near then none
    else some ((((epochConfigs r).filter r.checked.contains).map (fun cid => match cfgBytes s r cid with
      | some b =>
        let c := loadedConfig b.rd r.epoch
        if feasibleLen s (frameLen c.phases c.drainAc) && !c.fold then cfgCapacity c else 0
      | none => 0)).foldl max 0)

end Sys2Proof.Machine
end

