-- ==== Sys2Proof/Machine/Journal.lean ====
section
/-! DEFINITION. Ring sets, ring entries and journal records (R383 to R387, R396 to R405, R417, R418). -/
namespace Sys2Proof.Machine

/-- The bytes of a stamp (R73). -/
def stampBytes (t : Stamp) : List Byte :=
  leBytes (t.tick % 2 ^ 48 + t.cif % 2 ^ 25 * 2 ^ 48 + t.src % 2 ^ 16 * 2 ^ 73 + (if t.held then 2 ^ 89 else 0) + t.seq % 2 ^ 32 * 2 ^ 96) 16

/-- OVER, the rank that R397 gives a cause; a RESET that came from a thermal trip or a supply failure has rank 1. -/
def Cause.over (trip : Bool) : Cause → Nat
  | .ok => 0 | .extent => 3 | .capacity => 0 | .classCause => 2 | .power => 4 | .link => 0 | .memberLoss => 0
  | .reset => if trip then 1 else 2
  | .nearLoss => 0 | .schedule => 3 | .security => 2 | .drain => 3

/-- Whether one cause prevails over another (R400): the smaller OVER other than 0, then the earlier stamp. -/
def ReqCause.prevails (a b : ReqCause) : Bool :=
  let rank (c : ReqCause) : Nat := let o := c.cause.over c.trip; if o = 0 then 16 else o
  decide (rank a < rank b) || (rank a == rank b && a.stamp.before b.stamp)

/-- The prevailing one of some causes. -/
def prevailing : List ReqCause → Option ReqCause
  | [] => none
  | c :: l => match prevailing l with
    | none => some c
    | some d => if d.prevails c then some d else some c

def freshRing (_ : Nat) : RingSt := {}
def ringSt (s : State) (r : Nat) : RingSt := smapGet freshRing s.adm.rings r
def setRing (s : State) (r : Nat) (x : RingSt) : State := { s with adm := { s.adm with rings := smapSet freshRing s.adm.rings r x } }

/-- Entries of each ring of a set (R383). -/
def ringSize (s : State) (r : Nat) : Nat := 2 ^ getF s (F.RING_CTL_SIZE r)

/-- Whether a set is served: enabled and not halted (R385). -/
def ringLive (s : State) (r : Nat) : Bool := isSet s (F.RING_CTL_ENABLE r) && !isSet s (F.RING_CTL_HALT r)

/-- A ring is full when advancing its tail would make it equal its head (R384). -/
def ringFull (s : State) (r : Nat) (tail head : Fld) : Bool := (getF s tail + 1) % ringSize s r == getF s head

/-- Descriptors unread in a set (R385, R387). -/
def unread (s : State) (r tail : Nat) : Nat := (tail + ringSize s r - getF s (F.SUB_HEAD r)) % ringSize s r

/-- Halts a ring set (R387): HALT, RING_ERR, the first-failure capture, a stamp. -/
def haltRing (s : State) (r kind index : Nat) : State :=
  let s := capture s [F.ADM_STAT_RING_ERR] [(F.ADM_RCAP_RING, r), (F.ADM_RCAP_KIND, kind), (F.ADM_RCAP_INDEX, index)]
  stampEvent (raise (raise s (F.RING_CTL_HALT r)) F.ADM_STAT_RING_ERR) srcAdmission (.ringHalt r kind)

/-- The next ring set that admission visits: served, with an unread entry and room in its receipt ring (R385). -/
def nextRing (s : State) : Option Nat :=
  if s.adm.stopped then none
  else ((List.range 64).map (fun i => (s.adm.lastSet + 1 + i) % 64)).find? (fun r =>
    ringLive s r && decide (0 < unread s r (getF s (F.SUB_DB r))) && !ringFull s r (F.RCPT_TAIL r) (F.RCPT_HEAD r))

/-- Sets PHASE, bit 7 of byte `at`, in a ring entry (R384). -/
def withPhase (e : List Byte) (at_ : Nat) (p : Bool) : List Byte :=
  e.mapIdx (fun i b => if i = at_ && p then b ||| 0x80#8 else b)

def announceRing (s : State) (r : Nat) : State :=
  if s.adm.announce.contains r then s else { s with adm := { s.adm with announce := s.adm.announce ++ [r] } }

/-- Writes one receipt-ring entry; `refused` says that the host refused the write (R384, R387). -/
def putReceipt (s : State) (r : Nat) (e : List Byte) (refused : Bool) : State :=
  let t := getF s (F.RCPT_TAIL r)
  if refused then haltRing s r 1 t
  else
    let s := emit s (.hostWrite (getF s (F.RCPT_BASE r) + 64 * t) (withPhase e 16 (ringSt s r).rcptPhase) {})
    let t' := (t + 1) % ringSize s r
    let s := setF s (F.RCPT_TAIL r) t'
    let s := if t' = 0 then setRing s r { ringSt s r with rcptPhase := !(ringSt s r).rcptPhase } else s
    announceRing s r

/-- Writes one completion-ring entry with its own CRC (R384, R398). -/
def putCompletion (s : State) (r : Nat) (e : List Byte) (refused : Bool) : State :=
  let t := getF s (F.CMPL_TAIL r)
  if refused then haltRing s r 2 t
  else
    let body := (withPhase e 27 (ringSt s r).cmplPhase).take 60
    let s := emit s (.hostWrite (getF s (F.CMPL_BASE r) + 64 * t) (body ++ leBytes (crc32 (body.map BitVec.toNat)) 4) {})
    let t' := (t + 1) % ringSize s r
    let s := setF s (F.CMPL_TAIL r) t'
    let s := if t' = 0 then setRing s r { ringSt s r with cmplPhase := !(ringSt s r).cmplPhase } else s
    announceRing s r

/-- What the host answers to one ring-entry write: as the command says, or, where the command has no word for it, a free value (log entry 92). -/
def hostRefuses (refused : Option Bool) (s : State) : Bool × State :=
  match refused with
  | some b => (b, s)
  | none => let (v, s) := freeVal s 1
            (v == 1, s)

/-- Posts the receipts that wait for a set, while it has room and the host takes them (R387, R407). -/
def drainReceipts (r : Nat) (refused : Option Bool) : Nat → State → State
  | 0, s => s
  | n + 1, s => match (ringSt s r).waitRcpt with
    | [] => s
    | e :: l =>
      if ringLive s r && !ringFull s r (F.RCPT_TAIL r) (F.RCPT_HEAD r) then
        let (no, s) := hostRefuses refused s
        if no then putReceipt s r e true
        else drainReceipts r refused n (putReceipt (setRing s r { ringSt s r with waitRcpt := l }) r e false)
      else s

/-- Posts the completion entries that wait for a set, in CSEQ order, while it has room (R386, R387). -/
def drainCompletions (r : Nat) (refused : Option Bool) : Nat → State → State
  | 0, s => s
  | n + 1, s => match (ringSt s r).waitCmpl with
    | [] => s
    | e :: l =>
      if ringLive s r && !ringFull s r (F.CMPL_TAIL r) (F.CMPL_HEAD r) then
        let (no, s) := hostRefuses refused s
        if no then putCompletion s r e true
        else drainCompletions r refused n (putCompletion (setRing s r { ringSt s r with waitCmpl := l }) r e false)
      else s

/-- Posts whatever waits for a set. -/
def drainRing (s : State) (r : Nat) (refused : Option Bool) : State :=
  let s := drainReceipts r refused ((ringSt s r).waitRcpt.length) s
  drainCompletions r refused ((ringSt s r).waitCmpl.length) s

/-- A receipt-ring entry, its PHASE bit 0 (R396): KIND 1 receipt, 2 refusal, 3 recovered. -/
def receiptEntry (kind r subidx : Nat) (d : Descriptor) (aseq : Nat) (cause : Cause) (epoch promised yieldOver : Nat) (t : Stamp) : List Byte :=
  leBytes d.tag 8 ++ leBytes aseq 8 ++ leBytes kind 1 ++ leBytes cause.num 1 ++ leBytes d.client 2 ++ leBytes epoch 2 ++
    leBytes subidx 2 ++ leBytes promised 6 ++ leBytes r 1 ++ leBytes yieldOver 1 ++ stampBytes t ++ List.replicate 16 0#8

/-- The descriptor that 128 bytes spell (R388). -/
def descriptorOf (b : List Byte) : Descriptor :=
  let rd := listReader b
  { op := leRead rd 0 1, firm := bitOf (leRead rd 1 1) 0, client := leRead rd 2 2, model := leRead rd 4 4, stream := leRead rd 8 4,
    shape := leRead rd 16 8, tag := leRead rd 24 8, inAddr := leRead rd 32 8, inLen := leRead rd 40 4, outAddr := leRead rd 48 8,
    outLen := leRead rd 56 4,
    reservedZero := leRead rd 1 1 / 2 == 0 && leRead rd 12 4 == 0 && leRead rd 44 4 == 0 && (List.range 68).all (fun i => rd (60 + i) == 0) }

/-- An acceptance-journal record (R403). -/
def acceptanceRecord (raw : List Byte) (aseq promised epoch r : Nat) (fetch : Bool) (subidx : Nat) (t : Stamp) : List Byte :=
  let body := (raw ++ List.replicate 128 0#8).take 128 ++ leBytes aseq 8 ++ leBytes promised 6 ++ leBytes epoch 2 ++ leBytes r 1 ++
    leBytes (if fetch then 1 else 0) 1 ++ leBytes subidx 2 ++ stampBytes t ++ List.replicate 88 0#8
  body ++ leBytes (crc32 (body.map BitVec.toNat)) 4

/-- The first 60 bytes of a completion record, PHASE 0 (R398). -/
def completionBody (q : Req) (cseq status : Nat) (cause : Cause) (yieldOver : Nat) (t : Stamp) : List Byte :=
  leBytes q.d.tag 8 ++ leBytes q.aseq 8 ++ leBytes cseq 8 ++ leBytes status 1 ++ leBytes cause.num 1 ++ leBytes yieldOver 1 ++
    leBytes ((if q.rerun then 1 else 0) + (if q.stateLost then 2 else 0)) 1 ++ leBytes q.d.client 2 ++
    leBytes (if q.d.op = 2 then 0 else q.epoch) 2 ++ leBytes (if q.rerun then 0 else q.promised) 6 ++ leBytes q.drops 2 ++
    leBytes q.diverts 2 ++ leBytes q.nans 2 ++ stampBytes t

/-- A record with its CRC behind it. -/
def withCrc (body : List Byte) : List Byte := body ++ leBytes (crc32 (body.map BitVec.toNat)) 4

/-- Where the record with sequence number `n` lies (R404). -/
def ajSlot (s : State) (n : Nat) : Nat := getF s F.ADM_AJ_BASE + 256 * (n % 2 ^ getF s F.ADM_AJ_SIZE)
def cjSlot (s : State) (n : Nat) : Nat := getF s F.ADM_CJ_BASE + 64 * (n % 2 ^ getF s F.ADM_CJ_SIZE)

/-- The journals lack room (R405). -/
def journalFull (s : State) : Bool :=
  decide (2 ^ getF s F.ADM_AJ_SIZE ≤ getF s F.ADM_AJ_NEXT - s.adm.ajRetire) ||
  decide (2 ^ getF s F.ADM_CJ_SIZE ≤ getF s F.ADM_CJ_NEXT - s.adm.cjRetire + s.adm.reqs.length)

/-- Both journals are named (R407 step 2). -/
def journalsNamed (s : State) : Bool :=
  let ok (f : Fld) : Bool := decide (10 ≤ getF s f) && decide (getF s f ≤ 20)
  ok F.ADM_AJ_SIZE && ok F.ADM_CJ_SIZE && s.adm.ajBaseLo && s.adm.ajBaseHi && s.adm.cjBaseLo && s.adm.cjBaseHi

def noClient (_ : Nat) : ClientRec := {}
def clientRec (s : State) (c : Nat) : ClientRec := smapGet noClient s.adm.clients c

/-- Changes a client table entry; every change increments GEN (R412). -/
def clientUpd (s : State) (c : Nat) (f : ClientRec → ClientRec) : State :=
  if 4096 ≤ c then s
  else
    let x := clientRec s c
    if f x = x then s
    else { s with adm := { s.adm with clients := smapSet noClient s.adm.clients c { f x with gen := (x.gen + 1) % 65536 } } }

/-- Whether the admission shutter is closed (R415). -/
def shutterClosed (s : State) : Bool :=
  [F.ADM_SHUT_EJECT, F.ADM_SHUT_SIDE, F.ADM_SHUT_SPARE, F.ADM_SHUT_MODE, F.ADM_SHUT_RECOVERY, F.ADM_SHUT_JOURNAL].any (isSet s)

/-- Admission is narrowed while the power controller reports NARROW (R395). -/
def narrowed (s : State) : Bool := isSet s F.PWR_STAT_NARROW

/-- RUN-time class of a request in YIELD: firm 5, standard 6 (R414). -/
def yieldOf (d : Descriptor) : Nat := if d.firm then 5 else 6

end Sys2Proof.Machine
end

