-- ==== Sys2Proof/Machine/Admission.lean ====
section
/-! DEFINITION. Admission: the decision on a descriptor, the serving frame, acceptance and refusal, the ring and journal
commands, completions and recovery (R383 to R418, R546). -/
namespace Sys2Proof.Machine

/-! ### The serving frame (R393) -/

/-- The period in nanoseconds (R50). -/
def periodNs (s : State) : Nat := 1000 * getF s F.TICK_PERIOD_PERIOD_US

/-- The number of the first tick later than device time `b`, by the planned ticks (R393). -/
def firstTickAfter (s : State) (b : Nat) : Nat :=
  let n := getF s F.TICK_NEXT
  if b < n then frameNow s + 1 else frameNow s + 2 + (b - n) / periodNs s

/-- Whether the problem table of the frame of a plan index is sealed: that of the frame that runs next after a flip or an abort, and the idle one,
which is of the frame after that or, before the flip, of the next (R174, R193). -/
def sealedIdx (s : State) (idx : Nat) : Bool :=
  let first := s.frame.nextRuns || s.frame.replayPending || s.span.decideWait
  (first && idx == s.adm.nextIdx) || (s.frame.idleSealed && idx == s.adm.nextIdx + (if first then 1 else 0))

/-- The last record of a type, the overlay's before the base's. -/
def lastRecord (type : Nat) (base ovl : List ModeRecord) : Option ModeRecord :=
  match ovl.filter (fun r => r.type = type) with
  | [] => (base.filter (fun r => r.type = type)).getLast?
  | l => l.getLast?

/-- The service plan of the mode that a pending change will bring (R183). -/
def targetPlan (s : State) : ServicePlan :=
  let ovl := ((s.modes.overlays.find? (fun o => o.1 == getF s F.CFG_MODE_STAT_TARGET)).map (fun o => o.2)).getD []
  match lastRecord 5 s.modes.base ovl with
  | some r => planOf (listReader r.body)
  | none => planOf (listReader [])

/-- Coming frames that a decision makes carry no new plan index: skipped, run again empty, or spent before a replay (R370, R546). -/
def delayed (s : State) : Nat :=
  s.span.skip + s.span.rerunEmpty + (if s.frame.replayPending then s.span.replayAt - (frameNow s + 1) else 0)

/-- The number of the frame that carries plan index `idx` (R546). -/
def frameOfIdx (s : State) (idx : Nat) : Nat :=
  if s.adm.frameIdx = some idx ∧ idx < s.adm.nextIdx then frameNow s else frameNow s + 1 + delayed s + (idx - s.adm.nextIdx)

/-- The latest frame of the unfinished requests of a stream. -/
def streamFrame (s : State) (d : Descriptor) : Option Nat :=
  (s.adm.reqs.filter (fun r => r.open && ofStream d.client d.stream r)).foldl (fun m r =>
    match r.frame with
    | some i => some (max (m.getD 0) (frameOfIdx s i))
    | none => m) none

/-- The tick at which a pending mode change may apply first, whose frame the planner leaves empty (R183). -/
def changeTick (s : State) : Option Nat :=
  if isSet s F.CFG_MODE_STAT_PEND then some (max (s.frame.modeAskedAt + 2) (frameNow s + 1)) else none

/-- The frame entry that frame `x` carries, whose plan index in the present plan is `idx`: after a change frame the plan of the new mode starts at
its index 0 (R546). -/
def entryAt (s : State) (x idx : Nat) : PlanEntry :=
  match changeTick s with
  | some c => if c < x then planFrameEntry (targetPlan s) (x - c - 1) else planFrameEntry s.adm.plan idx
  | none => planFrameEntry s.adm.plan idx

/-- Whether a frame entry takes requests of a model: KIND 0, or 3 for that model (R391, R393). -/
def takesModel (e : PlanEntry) (model : Nat) : Bool := e.kind == 0 || (e.kind == 3 && e.spanModel == model)

/-- Chooses the serving frame of a request of model `d.model` pinned to `epoch`: its plan index and its number.
`fetch` is the fetch bound where one is awaited (R393); `narrow` says that admission is narrowed (R395). Only feasible configurations count (R53): a frame takes no more requests than
the largest of them holds, and none where there is none. -/
def chooseFrame (s : State) (d : Descriptor) (epoch : Nat) (fetch : Option Nat) (horizon : Nat) (narrow : Bool) : Option (Nat × Nat) :=
  let f := frameNow s
  let pm := (planModelFor s.adm.plan d.model).getD {}
  let base := match fetch with
    | some b => (max (f + 2) (firstTickAfter s b + 1), max (f + 1) (firstTickAfter s b + 1))
    | none => (f + 2, f + 1)
  let (ready, join) := match streamFrame s d with
    | some g => let m := if pm.stateUnits = 0 then g else g + 1
                (max base.1 m, max base.2 m)
    | none => base
  ((List.range (horizon - delayed s)).map (fun j => (s.adm.nextIdx + j, f + 1 + delayed s + j))).find? (fun p =>
    let (idx, x) := p
    let e := entryAt s x idx
    let room := (feasibleRoom s d.model epoch).getD pm.qmax
    let limit := min room (if d.firm then pm.qmax else pm.qmax - e.firmPos)
    let firms := ((boundReqs s idx).filter (fun r => r.d.firm)).length
    takesModel e d.model && !sealedIdx s idx && changeTick s != some x && (!narrow || decide (firms < e.firmPos)) &&
    match planAt s idx with
    | some pf => pf.model == d.model && pf.epoch == epoch && decide (join ≤ x) && decide (pf.reqs.length < limit)
    | none => decide (ready ≤ x) && decide (0 < room))

/-- Binds a request to the frame of a plan index. -/
def bindFrame (s : State) (idx model epoch aseq : Nat) : State :=
  match planAt s idx with
  | some _ => { s with adm := { s.adm with frames := s.adm.frames.map (fun f => if f.idx = idx then { f with reqs := f.reqs ++ [aseq] } else f) } }
  | none => { s with adm := { s.adm with frames := s.adm.frames ++ [{ idx := idx, model := model, epoch := epoch, reqs := [aseq] }] } }

/-! ### Refusal and acceptance (R390) -/

/-- Counts a cause, saturating (R417). -/
def countCause (s : State) (c : Cause) : State := bump s (F.ADM_CNT_CAUSE c.num)

/-- A refusal: its ring entry and its counts; nothing in either journal (R390, R396, R414). Where the host bus refuses the entry, no refusal is
posted: the set halts, and nothing counts it (R387, R412; DESIGN CHOICE, log entry 92). -/
def refuse (s : State) (r sub : Nat) (d : Descriptor) (c : Cause) (refused : Bool) : State :=
  if refused then haltRing s r 1 (getF s (F.RCPT_TAIL r))
  else
    let t := stampNow s srcAdmission
    let s := stampEvent s srcAdmission (.receipt d.client d.tag)
    let s := clientUpd (countCause (bump s F.ADM_CNT_REFUSE) c) d.client (fun x => { x with refused := satAdd 48 x.refused 1 })
    putReceipt s r (receiptEntry 2 r sub d 0 c 0 0 (7 + 16 * c.over false) t) false

/-- The acceptance-journal record of a request, the first step of its acceptance (R390, R403). -/
def journalAccept (s : State) (r sub : Nat) (raw : List Byte) (epoch promised : Nat) (fetch : Bool) (t : Stamp) : State :=
  let n := getF s F.ADM_AJ_NEXT
  setF (emit s (.hostWrite (ajSlot s n) (acceptanceRecord raw n promised epoch r fetch sub t) {})) F.ADM_AJ_NEXT (n + 1)

/-- A request whose receipt entry the host refuses: its journal record stands, the set halts, and the request is not accepted, for its
receipt has not been posted (R8, R387; log 92). -/
def unposted (s : State) (r sub : Nat) (raw : List Byte) (epoch promised : Nat) (fetch : Bool) : State :=
  let t := stampNow s srcAdmission
  let s := journalAccept (countStamp s t) r sub raw epoch promised fetch t
  haltRing s r 1 (getF s (F.RCPT_TAIL r))

/-- An acceptance: the journal record, then the receipt, then ADMITTED (R8, R390, R402, R403). -/
def accept (s : State) (r sub : Nat) (raw : List Byte) (d : Descriptor) (epoch promised : Nat) (frame : Option Nat) (fetch : Option Nat) : State :=
  let t := stampNow s srcAdmission
  let s := stampEvent s srcAdmission (.receipt d.client d.tag)
  let n := getF s F.ADM_AJ_NEXT
  let s := journalAccept s r sub raw epoch promised fetch.isSome t
  let s := setReqs s (s.adm.reqs ++ [{
    aseq := n, ring := r, subidx := sub, d := d, epoch := epoch, promised := promised, pinned := d.op == 1,
    fetchTick := fetch, frame := frame }])
  let s := putReceipt (bump s F.ADM_CNT_RECEIPT) r (receiptEntry 1 r sub d n .ok epoch promised 0 t) false
  clientUpd s d.client (fun x => { x with admitted := satAdd 48 x.admitted 1 })

def findStream (s : State) (d : Descriptor) : Option StreamRec := s.adm.streams.find? (fun t => t.client == d.client && t.stream == d.stream)

/-- The shape word keeps R208: each active extent within the planned one, the others 0. -/
def shapeOk (pm : PlanModel) (shape : Nat) : Bool :=
  (List.range 4).all (fun i => if pm.active.getD i false then decide (extentOf shape i ≤ pm.planned.getD i 0) else extentOf shape i == 0)

/-- Checks 1 to 8 of R390, in order. -/
def earlyRefusal (s : State) (r : Nat) (d : Descriptor) : Option Cause :=
  let c := clientRec s d.client
  let pm? := planModelFor s.adm.plan d.model
  let pm := pm?.getD {}
  let close := d.op == 2
  if !(d.op == 1 || d.op == 2) || !d.reservedZero || (close && (d.shape != 0 || d.inAddr != 0 || d.outAddr != 0)) then some .security
  else if (!isSet s (F.RING_CTL_ANY r) && getF s (F.RING_CTL_CLIENT r) != d.client) || 4096 ≤ d.client || !c.valid then some .security
  else if !(if d.firm then c.firm else c.std) then some .classCause
  else if pm?.isNone || !((s.adm.plan.lists.getD c.list []).any (fun i => (s.adm.plan.models.getD i {}).modelId == d.model && i < s.adm.plan.models.length)) then
    some .security
  else if !close && (!shapeOk pm d.shape || decide (d.inLen < pm.inBase + extentOf d.shape pm.inDim * pm.inRow) || decide (d.outLen < pm.outSize)) then
    some .extent
  else if shutterClosed s then some .capacity
  else if (c.maxout != 0 && decide (c.maxout ≤ c.admitted - c.completed)) || journalFull s then some .capacity
  else match findStream s d with
    | some t => if close then none else t.broken
    | none => if close then some .security else none

/-- Sets JRNL_FULL where step 7 refuses for journal room (R405). -/
def noteJournal (s : State) (r : Nat) (d : Descriptor) : State :=
  if earlyRefusal s r d = some .capacity && !shutterClosed s && journalFull s then raise s F.ADM_STAT_JRNL_FULL else s

/-- Step 9: opens the stream and creates the regions it needs; the flag says whether it could (R252, R390). -/
def openStream (s : State) (d : Descriptor) : Bool × State :=
  let pm := (planModelFor s.adm.plan d.model).getD {}
  let fresh := (findStream s d).isNone
  if fresh && decide (262144 ≤ s.adm.streams.length) then (false, s)
  else
    let needStream := fresh && pm.stateUnits != 0
    let try? (m : MemSt) : Option MemSt :=
      let m1 := if needStream then placeRegion s (.stream d.client d.stream) (pm.stateUnits * 65536) m else some m
      match m1 with
      | some m => match modelRegionNeed s m d.model with
        | some size => placeRegion s (.model d.model) size m
        | none => some m
      | none => none
    let (ok, s) := reserveWith s try?
    if !ok then (false, s)
    else if fresh then
      (true, { s with adm := { s.adm with streams := s.adm.streams ++ [{ client := d.client, stream := d.stream, model := d.model, stateful := pm.stateUnits != 0 }] } })
    else (true, s)

/-- Undoes step 9 where a later step refuses: what `before` did not have goes. -/
def closeStream (before s : State) (d : Descriptor) : State :=
  let s := if (findStream before d).isSome then s
    else { s with adm := { s.adm with streams := s.adm.streams.filter (fun t => !(t.client == d.client && t.stream == d.stream)) } }
  let keep (o : RegionOwner) (m : MemSt) : MemSt := if (regionFind before.mem o).isSome then m else freeRegion m o
  setMem s (keep (.stream d.client d.stream) (keep (.model d.model) s.mem))

/-- The bound of the fetch that a request pinned to `epoch` awaits, with the state in which its units are reserved: none
where the epoch is resident; the flag is false where it cannot be had: among others, a span model of a span that has lost a
member (R376) (R266, R304, R306, R390 step 11). -/
def needFetch (s : State) (model epoch : Nat) : Bool × Option Nat × State :=
  let e := entryOf s.mem model epoch
  let rc := (recFind s.mem model epoch).getD {}
  if rc.span && s.span.lossAt.isSome then (false, none, s)
  else if e.near then (true, none, s)
  else if rc.span then (false, none, s)
  else match s.mem.jobs.find? (fun j => j.model == model && j.epoch == epoch) with
    | some j => (true, some j.bound, s)
    | none =>
      match s.mem.switches.find? (fun w => w.model == model && w.target == epoch) with
      | some w =>
        let td := getF s F.TICK_LAST + (w.drain - frameNow s) * periodNs s
        (true, some (fetchBound s (max (devNow s) td) e rc.q5), s)
      | none =>
        let (ok, s) := reserveEpoch s model epoch
        if ok then (true, some (fetchBound s (devNow s) e rc.q5), s) else (false, none, s)

/-- Takes a reservation of step 11 back: units that a fetch or a pending switch has claimed stay its own (R304 step 3, R390). -/
def dropReserve (s : State) (model epoch : Nat) : State :=
  let e := entryOf s.mem model epoch
  if e.near || e.fetch || s.mem.jobs.any (fun j => j.model == model && j.epoch == epoch) ||
      s.mem.switches.any (fun w => w.model == model && w.target == epoch) then s
  else setMem s (freeEpochUnits s.mem model epoch)

/-- Queues the fetch of an accepted request, where it has not been queued before. -/
def startFetch (s : State) (model epoch : Nat) (bound : Option Nat) : State :=
  match bound with
  | some b =>
    if (entryOf s.mem model epoch).fetch then s
    else queueFetch s model epoch b (s.mem.switches.any (fun w => w.model == model && w.target == epoch))
  | none => s

/-- Steps 9 to 12 of R390 for a RUN. -/
def admitRun (s : State) (r sub : Nat) (raw : List Byte) (d : Descriptor) (refused : Bool) : State :=
  let s0 := s
  let (ok, s) := openStream s d
  if !ok then refuse s r sub d .capacity refused
  else match dirActive s.mem d.model with
    | none => refuse (closeStream s0 s d) r sub d .capacity refused
    | some i =>
      let e := dirGet s.mem i
      if e.pin = 16777215 then refuse (closeStream s0 s d) r sub d .capacity refused
      else
        let s := lookupPin s i
        if e.unusable then refuse (closeStream s0 (unpin s d.model e.epoch) d) r sub d .security refused
        else
          let (ok, bound, s) := needFetch s d.model e.epoch
          if !ok then refuse (closeStream s0 (unpin s d.model e.epoch) d) r sub d .capacity refused
          else
            let bnd := if d.firm then s.adm.plan.firmF else s.adm.plan.stdF
            let undo (s : State) : State := closeStream s0 (unpin (dropReserve s d.model e.epoch) d.model e.epoch) d
            if narrowed s && !d.firm then refuse (undo s) r sub d .power refused
            else match chooseFrame s d e.epoch bound s.adm.plan.horizon (narrowed s) with
              | none => refuse (undo s) r sub d .capacity refused
              | some (idx, x) =>
                let promise := x + 1 + s.adm.plan.slackF
                if frameNow s + bnd < promise then refuse (undo s) r sub d .capacity refused
                else if refused then unposted (undo s) r sub raw e.epoch promise bound.isSome
                else
                  let s := startFetch s d.model e.epoch bound
                  let n := getF s F.ADM_AJ_NEXT
                  accept (bindFrame s idx d.model e.epoch n) r sub raw d e.epoch promise (some idx) bound

/-- The promised tick of a CLOSE: the latest one among its stream's earlier requests without a completion record, or the next tick where none of
them has one: a recovered request has no promise (R390, R398). -/
def closePromise (s : State) (d : Descriptor) : Nat :=
  match s.adm.reqs.filter (fun r => ofStream d.client d.stream r && !r.rerun) with
  | [] => frameNow s + 1
  | l => (l.map (fun r => r.promised)).foldl max 0

/-- Admission takes the next descriptor (R385): SUB_HEAD passes it. -/
def takeDescriptor (s : State) (r : Nat) : State :=
  let s := setF s (F.SUB_HEAD r) ((getF s (F.SUB_HEAD r) + 1) % ringSize s r)
  bump { s with adm := { s.adm with lastSet := r } } F.ADM_CNT_DESC

/-- The decision on one descriptor (R390). -/
def judgeDescriptor (s : State) (r : Nat) (x : DescRead) : State :=
  let sub := getF s (F.SUB_HEAD r)
  let d := descriptorOf x.bytes
  let s := takeDescriptor s r
  match earlyRefusal s r d with
  | some c => refuse (noteJournal s r d) r sub d c x.refused
  | none =>
    if d.op = 2 then
      (if x.refused then unposted s r sub x.bytes 0 (closePromise s d) false else accept s r sub x.bytes d 0 (closePromise s d) none none)
    else admitRun s r sub x.bytes d x.refused

/-- RUN: admission reads the next descriptor in ring order and decides on it; a failed read halts the set (R385, R387,
R390). A CLOSE descriptor is the CLOSE command's. -/
def run (x : DescRead) (s : State) : State :=
  match nextRing s with
  | none => s
  | some r =>
    if x.failed then haltRing s r 0 (getF s (F.SUB_HEAD r))
    else if (descriptorOf x.bytes).op = 2 then s else judgeDescriptor s r x

/-- CLOSE: the same for a CLOSE descriptor, checked in steps 1 to 8 (R390). -/
def close (x : DescRead) (s : State) : State :=
  match nextRing s with
  | none => s
  | some r =>
    if x.failed then haltRing s r 0 (getF s (F.SUB_HEAD r))
    else if (descriptorOf x.bytes).op = 2 then judgeDescriptor s r x else s

/-! ### Ring commands -/

/-- SUB_DOORBELL: a write of SUB_DB; a tail out of range, or one that leaves fewer entries unread, halts the set
(R384, R387). -/
def subDoorbell (r tail : Nat) (s : State) : State :=
  if 64 ≤ r then s
  else if !ringLive s r then setF s (F.SUB_DB r) tail
  else if ringSize s r ≤ tail || unread s r tail < unread s r (getF s (F.SUB_DB r)) then haltRing (setF s (F.SUB_DB r) tail) r 3 tail
  else setF s (F.SUB_DB r) tail

/-- The fields of RING_CTL that a write takes while ENABLE is `en` (R383). -/
def writeRingCtl (r v : Nat) (en : Bool) (s : State) : State :=
  let s := setF (setF (setF s (F.RING_CTL_ANY r) (bitsOf v 28 28)) (F.RING_CTL_VEC r) (bitsOf v 27 20)) (F.RING_CTL_CLIENT r) (bitsOf v 19 8)
  if en || bitsOf v 7 3 < 4 || 16 < bitsOf v 7 3 then s else setF s (F.RING_CTL_SIZE r) (bitsOf v 7 3)

/-- RING_ENABLE: a write that changes ENABLE from 0 to 1 zeroes every head and tail and begins a first pass; entries that
waited are posted (R387). With ENABLE already 1, only the other fields take effect. -/
def ringEnable (r v : Nat) (s : State) : State :=
  if 64 ≤ r || !bitOf v 0 then s
  else if isSet s (F.RING_CTL_ENABLE r) then writeRingCtl r v true s
  else
    let s := raise (writeRingCtl r v false s) (F.RING_CTL_ENABLE r)
    let s := [F.SUB_DB r, F.SUB_HEAD r, F.RCPT_TAIL r, F.RCPT_HEAD r, F.CMPL_TAIL r, F.CMPL_HEAD r].foldl (fun s f => setF s f 0) s
    drainRing (setRing s r { ringSt s r with rcptPhase := true, cmplPhase := true }) r none

/-- RING_DISABLE: a write with ENABLE = 0 stops the set and clears HALT (R387). -/
def ringDisable (r v : Nat) (s : State) : State :=
  if 64 ≤ r || bitOf v 0 then s
  else lower (lower (writeRingCtl r v (isSet s (F.RING_CTL_ENABLE r)) s) (F.RING_CTL_ENABLE r)) (F.RING_CTL_HALT r)

/-- RCPT_HEAD_WRITE: the host frees receipt entries (R384, R385). -/
def rcptHeadWrite (r head : Nat) (refused : Option Bool) (s : State) : State :=
  if 64 ≤ r then s else drainReceipts r refused ((ringSt s r).waitRcpt.length) (setF s (F.RCPT_HEAD r) head)

/-- CMPL_HEAD_WRITE: the host frees completion entries, and waiting entries are posted in CSEQ order (R386). -/
def cmplHeadWrite (r head : Nat) (refused : Option Bool) (s : State) : State :=
  if 64 ≤ r then s else drainCompletions r refused ((ringSt s r).waitCmpl.length) (setF s (F.CMPL_HEAD r) head)

/-! ### The journal registers -/

/-- Whether the journal registers take writes: while RECOVERY or JOURNAL holds and no recovery has started, which a RECOVER does once the module is
ready (R407, R417). -/
def journalOpen (s : State) : Bool :=
  (isSet s F.ADM_SHUT_RECOVERY || isSet s F.ADM_SHUT_JOURNAL) && !(s.adm.recoverAsked && isSet s F.BOOT_STAT_READY)

/-- RETIRE_WRITE: a write of the _HI half of AJ_RETIRE (`cj` false) or CJ_RETIRE acts on the pair (R407, R418). -/
def retireWrite (cj : Bool) (hi : Nat) (s : State) : State :=
  let f := if cj then F.ADM_CJ_RETIRE else F.ADM_AJ_RETIRE
  let old := if cj then s.adm.cjRetire else s.adm.ajRetire
  let next := getF s (if cj then F.ADM_CJ_NEXT else F.ADM_AJ_NEXT)
  let v := hi % 2 ^ 32 * 2 ^ 32 + getF s f % 2 ^ 32
  if journalOpen s || (s.adm.recovered && decide (old ≤ v) && decide (v ≤ next)) then
    let s := setF s f v
    { s with adm := if cj then { s.adm with cjRetire := v } else { s.adm with ajRetire := v } }
  else setF s f old

/-- RECOVER: a write of ADM_CTL.RECOVER. With both journals named it clears shutter reason JOURNAL and starts the
recovery, at once where the module is ready (R407); otherwise it is discarded. -/
def recover (s : State) : State :=
  if !journalsNamed s || s.adm.recoverAsked then s
  else
    let s := { lower s F.ADM_SHUT_JOURNAL with adm := { s.adm with recoverAsked := true } }
    if isSet s F.BOOT_STAT_READY then raise s F.ADM_STAT_RECOVERING else s

/-! ### Completions -/

/-- The causes for which a committed request is LATE (R399). -/
def lateCauses (q : Req) (t : Stamp) : List ReqCause :=
  q.causes.filter (fun c => !c.failed) ++
  (if !q.rerun && q.promised < q.commitFrame + 1 then
    [match q.moved with
     | some (c, m) => ⟨false, c, m, false⟩
     | none => ⟨false, .schedule, t, false⟩] else [])

/-- Status, cause and stamp of a request's completion (R399, R400). -/
def completionOf (q : Req) (now : Stamp) : Nat × Option ReqCause × Stamp :=
  if q.d.op = 2 then
    match prevailing (q.causes.filter (fun c => !c.failed)) with
    | some c => (1, some c, now)
    | none => (0, none, now)
  else match q.failed with
    | some t => (2, prevailing (q.causes.filter (fun c => c.failed)), t)
    | none =>
      let t := q.committed.getD now
      match prevailing (lateCauses q t) with
      | some c => (1, some c, t)
      | none => (0, none, t)

/-- Whether a request's record may be written: its outcome is known, its results are visible, and no earlier request of
its stream lacks a record (R401, R402). -/
def completable (s : State) (q : Req) : Bool :=
  (q.d.op == 2 || q.failed.isSome || (q.committed.isSome && q.visible)) &&
  !(ringSt s q.ring).waitRcpt.any (fun e => leRead (listReader e) 8 8 == q.aseq) &&
  !s.adm.reqs.any (fun p => ofStream q.d.client q.d.stream p && decide (p.aseq < q.aseq))

/-- Writes one completion: journal record, ring entry, counts, unpin; a CLOSE frees its stream (R386, R398 to R402,
R410 to R412). -/
def complete (s : State) (q : Req) (refused : Option Bool) : State :=
  let now := stampNow s srcAdmission
  let s := stampEvent s srcAdmission (.completion q.d.client q.d.tag)
  let (status, cause?, t) := completionOf q now
  let cause := (cause?.map (fun c => c.cause)).getD .ok
  let yo := match cause? with
    | some c => yieldOf q.d + 16 * c.cause.over c.trip
    | none => 0
  let n := getF s F.ADM_CJ_NEXT
  let body := completionBody q n status cause yo t
  let s := emit s (.hostWrite (cjSlot s n) (withCrc body) {})
  let s := setF s F.ADM_CJ_NEXT (n + 1)
  let s := setReqs s (s.adm.reqs.filter (fun p => decide (p.aseq ≠ q.aseq)))
  let s := if status = 0 then bump s F.ADM_CNT_OK
    else if status = 1 then raise (bump s F.ADM_CNT_LATE) F.ADM_STAT_LATE
    else raise (bump s F.ADM_CNT_FAILED) F.ADM_STAT_FAILED
  let s := countCause s cause
  let s := clientUpd s q.d.client (fun x =>
    { x with completed := satAdd 48 x.completed 1, late := if status = 1 then satAdd 48 x.late 1 else x.late })
  let s := drainRing (setRing s q.ring { ringSt s q.ring with waitCmpl := (ringSt s q.ring).waitCmpl ++ [body ++ List.replicate 4 0#8] }) q.ring refused
  if q.d.op = 2 then
    setMem { s with adm := { s.adm with streams := s.adm.streams.filter (fun t => !(t.client == q.d.client && t.stream == q.d.stream)) } }
      (freeRegion s.mem (.stream q.d.client q.d.stream))
  else if q.pinned then unpin s q.d.model q.epoch else s

/-- COMPLETION_RECORD: the module writes the completion of the accepted request with sequence number `aseq`. -/
def completionRecord (aseq : Nat) (refused : Bool) (s : State) : State :=
  match s.adm.reqs.find? (fun q => q.aseq == aseq) with
  | some q => if completable s q then complete s q (some refused) else s
  | none => s

/-- Completes, in stream order, whatever can be completed, as many times as there are requests (R416). -/
def completeAll : Nat → State → State
  | 0, s => s
  | n + 1, s => match s.adm.reqs.find? (completable s) with
    | some q => completeAll n (complete s q none)
    | none => s

/-! ### Recovery (R407 to R409) -/

/-- The valid records from sequence number `n` on: the scan stops at the first slot that does not hold one (R404, R407). -/
def scanSlots (size at_ : Nat) : Nat → List (List Byte) → List (List Byte)
  | _, [] => []
  | n, b :: l =>
    let rd := listReader b
    if b.length = size ∧ leRead rd at_ 8 = n ∧ leRead rd (size - 4) 4 = crc32 (bytesAt rd 0 (size - 4)) then b :: scanSlots size at_ (n + 1) l else []

/-- Frames among which a recovered request finds its own: past what is planned and past its fetch, the longest cycle of a plan (R391, R393, R407). -/
def recoverSpan (s : State) (fetch : Option Nat) : Nat :=
  let last := (s.adm.frames.map (fun f => f.idx + 1 - s.adm.nextIdx)).foldl max 0
  let fetched := (fetch.map (fun b => firstTickAfter s b - frameNow s)).getD 0
  last + fetched + 4100

/-- One recovered request: pinned, receipted, planned or failed (R407 step 5, R408). -/
def recoverOne (s : State) (b : List Byte) : State :=
  let rd := listReader b
  let d := descriptorOf b
  let aseq := leRead rd 128 8
  let epoch := leRead rd 142 2
  let r := leRead rd 144 1 % 64
  let sub := leRead rd 146 2
  let t := stampNow s srcAdmission
  let trip := s.boot.tripReset
  let c := clientRec s d.client
  let step24 := ((isSet s (F.RING_CTL_ANY r) || getF s (F.RING_CTL_CLIENT r) == d.client) && decide (d.client < 4096) && c.valid) &&
    (planModelFor s.adm.plan d.model).isSome &&
    (s.adm.plan.lists.getD c.list []).any (fun i => (s.adm.plan.models.getD i {}).modelId == d.model)
  let pm := (planModelFor s.adm.plan d.model).getD {}
  let q : Req := { aseq := aseq, ring := r, subidx := sub, d := d, epoch := epoch, rerun := true,
                   stateLost := pm.stateUnits != 0 && d.op == 1, causes := [⟨false, .reset, t, trip⟩] }
  let failWith (cause : Cause) : Req := { q with failed := some t, causes := q.causes ++ [⟨true, cause, t, trip⟩] }
  let addReq (s : State) (q : Req) : State := setReqs s (s.adm.reqs ++ [q])
  let s := if d.op = 2 then addReq s q
    else if !step24 then addReq s (failWith .security)
    else match dirFind s.mem d.model epoch with
      | none => addReq s (failWith .capacity)
      | some i =>
        if (dirGet s.mem i).pin = 16777215 then addReq s (failWith .capacity)
        else
          let s := lookupPin s i
          let q := { q with pinned := true }
          let failWith (cause : Cause) : Req := { failWith cause with pinned := true }
          if (dirGet s.mem i).unusable then addReq s (failWith .security)
          else
            let (ok, s) := openStream s d
            let (ok2, bound, s) := needFetch s d.model epoch
            if !(ok && ok2) then addReq s (failWith .capacity)
            else match chooseFrame s d epoch bound (recoverSpan s bound) false with
              | none => addReq (startFetch s d.model epoch bound) (failWith .capacity)
              | some (idx, _) =>
                addReq (bindFrame (startFetch s d.model epoch bound) idx d.model epoch aseq) { q with frame := some idx, fetchTick := bound }
  let e := receiptEntry 3 r 0 d aseq .ok (if d.op = 2 then 0 else epoch) 0 0 t
  let s := stampEvent (bump s F.ADM_CNT_RECEIPT) srcAdmission (.receipt d.client d.tag)
  let s := setRing s r { ringSt s r with waitRcpt := (ringSt s r).waitRcpt ++ [e] }
  clientUpd (bump (drainRing s r none) F.ADM_CNT_RERUN) d.client (fun x => { x with admitted := satAdd 48 x.admitted 1 })

/-- RECOVERY_COMPLETE: the scans have read these slots of the two journals, from the retire points on (R407): the last chunk of their batch has its
winning commit (R496). -/
def recoveryComplete (accs comps : List (List Byte)) (s : State) : State :=
  if !s.adm.recoverAsked || s.adm.recovered || !isSet s F.BOOT_STAT_READY || s.stw.closed != 3 then s
  else
    let accRecs := scanSlots 256 128 s.adm.ajRetire (accs.take (2 ^ getF s F.ADM_AJ_SIZE))
    let cs := scanSlots 64 16 s.adm.cjRetire (comps.take (2 ^ getF s F.ADM_CJ_SIZE))
    let s := setF s F.ADM_AJ_NEXT (s.adm.ajRetire + accRecs.length)
    let s := setF s F.ADM_CJ_NEXT (s.adm.cjRetire + cs.length)
    let done := cs.map (fun b => leRead (listReader b) 8 8)
    let todo := accRecs.filter (fun b => !done.contains (leRead (listReader b) 128 8))
    let s := todo.foldl recoverOne s
    let s := setF s F.ADM_RECOV todo.length
    let s := lower (lower (raise s F.ADM_STAT_RECOVER_DONE) F.ADM_STAT_RECOVERING) F.ADM_SHUT_RECOVERY
    { s with adm := { s.adm with recovered := true } }

/-! ### Changes of plan (R412, R546) -/

/-- Loads a service plan: the client table keeps its counters, the plan registers show it, and the frames planned so far
are carried over to plan indices from 0 on (R183, R412, R546). -/
def loadPlan (rd : Nat → Nat) (s : State) : State :=
  let p := planOf rd
  let s := { s with adm := { s.adm with plan := p } }
  let s := (List.range 4096).foldl (fun s c => clientUpd s c (planClient rd c)) s
  let s := setF (setF (setF s F.ADM_PLAN_SLACK_F p.slackF) F.ADM_PLAN_HORIZON p.horizon) F.ADM_PLAN_CYCLE p.cycle
  setF (setF s F.ADM_PROMISE_STD_F p.stdF) F.ADM_PROMISE_FIRM_F p.firmF

/-- Where planned frames go under a plan, each to the first index from `lo` and its own on whose entry takes requests of its model: KIND 0, or 3
for that model (R391, R393). -/
def refit (p : ServicePlan) : Nat → List PlanFrame → List (Nat × Nat)
  | _, [] => []
  | lo, f :: l =>
    let at_ := max lo f.idx
    let fits (n : Nat) : Bool := takesModel (planFrameEntry p n) f.model
    let n := at_ + ((List.range (p.cycle + 1)).find? (fun k => fits (at_ + k))).getD 0
    (f.idx, n) :: refit p (n + 1) l

/-- The plan indices after a change frame: the frame that would have been the change frame's comes first, if one is planned there; a frame whose
new entry does not take it moves on to one that does (R183, R393, R546). -/
def rebasePlan (s : State) : State :=
  let n := s.adm.nextIdx
  let off := if (planAt s n).isSome then n else n + 1
  let moved := s.adm.frames.map (fun f => { f with idx := f.idx - off })
  let top := (moved.map (fun f => f.idx + 1)).foldl max 0
  let m := refit s.adm.plan 0 ((List.range top).filterMap (fun i => moved.find? (fun f => f.idx == i)))
  let goes (i : Nat) : Nat := ((m.find? (fun p => p.1 == i)).map (fun p => p.2)).getD i
  { s with adm := { s.adm with
      nextIdx := 0, frameIdx := none,
      frames := moved.map (fun f => { f with idx := goes f.idx }),
      reqs := s.adm.reqs.map (fun r => { r with frame := r.frame.map (fun i => goes (i - off)) }) } }

end Sys2Proof.Machine
end

