-- ==== Sys2Proof/Machine/AdmissionCommands.lean ====
section
/-! DEFINITION. The meanings of the commands of admission, rings and journals. -/
namespace Sys2Proof.Machine

/-- RUN (R390). -/
def execRun (x : DescRead) (s : State) : Host.Outcome State Fault Refusal :=
  .next (run x s)

/-- CLOSE (R390). -/
def execClose (x : DescRead) (s : State) : Host.Outcome State Fault Refusal :=
  .next (close x s)

/-- SUB_DOORBELL (R384). -/
def execSubDoorbell (r tail : Nat) (s : State) : Host.Outcome State Fault Refusal :=
  .next (subDoorbell r tail s)

/-- RING_ENABLE (R387). -/
def execRingEnable (r v : Nat) (s : State) : Host.Outcome State Fault Refusal :=
  .next (ringEnable r v s)

/-- RING_DISABLE (R387). -/
def execRingDisable (r v : Nat) (s : State) : Host.Outcome State Fault Refusal :=
  .next (ringDisable r v s)

/-- RCPT_HEAD_WRITE (R385). -/
def execRcptHeadWrite (r head : Nat) (refused : Bool) (s : State) : Host.Outcome State Fault Refusal :=
  .next (rcptHeadWrite r head (some refused) s)

/-- CMPL_HEAD_WRITE (R386). -/
def execCmplHeadWrite (r head : Nat) (refused : Bool) (s : State) : Host.Outcome State Fault Refusal :=
  .next (cmplHeadWrite r head (some refused) s)

/-- RETIRE_WRITE (R418). -/
def execRetireWrite (cj : Bool) (hi : Nat) (s : State) : Host.Outcome State Fault Refusal :=
  .next (retireWrite cj hi s)

/-- RECOVER (R407). -/
def execRecover (s : State) : Host.Outcome State Fault Refusal :=
  .next (recover s)

/-- RECOVERY_COMPLETE (R407). -/
def execRecoveryComplete (accs comps : List (List Byte)) (s : State) : Host.Outcome State Fault Refusal :=
  .next (recoveryComplete accs comps s)

/-- COMPLETION_RECORD (R402). -/
def execCompletionRecord (aseq : Nat) (refused : Bool) (s : State) : Host.Outcome State Fault Refusal :=
  .next (completionRecord aseq refused s)

end Sys2Proof.Machine
end

