-- ==== Sys2Proof/Machine/Sha.lean ====
section
/-! DEFINITION. SHA-256 (FIPS 180-4), with which the module checks the shards of a Q5 epoch (R293, R294). -/
namespace Sys2Proof.Machine

/-- Right rotation of a 32-bit word. -/
def rotr32 (x : Word) (n : Nat) : Word := (x >>> n) ||| (x <<< (32 - n))

/-- The 64 round constants. -/
def shaK : List Word := [
  0x428a2f98#32, 0x71374491#32, 0xb5c0fbcf#32, 0xe9b5dba5#32, 0x3956c25b#32, 0x59f111f1#32, 0x923f82a4#32, 0xab1c5ed5#32,
  0xd807aa98#32, 0x12835b01#32, 0x243185be#32, 0x550c7dc3#32, 0x72be5d74#32, 0x80deb1fe#32, 0x9bdc06a7#32, 0xc19bf174#32,
  0xe49b69c1#32, 0xefbe4786#32, 0x0fc19dc6#32, 0x240ca1cc#32, 0x2de92c6f#32, 0x4a7484aa#32, 0x5cb0a9dc#32, 0x76f988da#32] ++ [
  0x983e5152#32, 0xa831c66d#32, 0xb00327c8#32, 0xbf597fc7#32, 0xc6e00bf3#32, 0xd5a79147#32, 0x06ca6351#32, 0x14292967#32,
  0x27b70a85#32, 0x2e1b2138#32, 0x4d2c6dfc#32, 0x53380d13#32, 0x650a7354#32, 0x766a0abb#32, 0x81c2c92e#32, 0x92722c85#32,
  0xa2bfe8a1#32, 0xa81a664b#32, 0xc24b8b70#32, 0xc76c51a3#32, 0xd192e819#32, 0xd6990624#32, 0xf40e3585#32, 0x106aa070#32] ++ [
  0x19a4c116#32, 0x1e376c08#32, 0x2748774c#32, 0x34b0bcb5#32, 0x391c0cb3#32, 0x4ed8aa4a#32, 0x5b9cca4f#32, 0x682e6ff3#32,
  0x748f82ee#32, 0x78a5636f#32, 0x84c87814#32, 0x8cc70208#32, 0x90befffa#32, 0xa4506ceb#32, 0xbef9a3f7#32, 0xc67178f2#32]

/-- The initial hash value. -/
def shaInit : List Word := [
  0x6a09e667#32, 0xbb67ae85#32, 0x3c6ef372#32, 0xa54ff53a#32, 0x510e527f#32, 0x9b05688c#32, 0x1f83d9ab#32, 0x5be0cd19#32]

/-- The message with its padding: a 1 bit, zeros, and the length in bits as 8 big-endian bytes. -/
def shaPad (m : List Byte) : List Byte :=
  let n := m.length
  m ++ [0x80#8] ++ List.replicate ((119 - n % 64) % 64) 0#8 ++ ((List.range 8).map (fun i => BitVec.ofNat 8 (8 * n / 2 ^ (8 * (7 - i)))))

/-- The big-endian word of four bytes from `i` on. -/
def shaWord (b : List Byte) (i : Nat) : Word :=
  let g (j : Nat) : Nat := (b.getD (i + j) 0#8).toNat
  BitVec.ofNat 32 (((g 0 * 256 + g 1) * 256 + g 2) * 256 + g 3)

/-- The message schedule of a block. -/
def shaSchedule (b : List Byte) : List Word :=
  (List.range 48).foldl (fun w t =>
    let x (i : Nat) : Word := w.getD (t + 16 - i) 0#32
    let s0 := rotr32 (x 15) 7 ^^^ rotr32 (x 15) 18 ^^^ (x 15 >>> 3)
    let s1 := rotr32 (x 2) 17 ^^^ rotr32 (x 2) 19 ^^^ (x 2 >>> 10)
    w ++ [s1 + x 7 + s0 + x 16]) ((List.range 16).map (fun i => shaWord b (4 * i)))

/-- One round. -/
def shaRound (v : List Word) (kw : Word × Word) : List Word :=
  match v with
  | [a, b, c, d, e, f, g, h] =>
    let s1 := rotr32 e 6 ^^^ rotr32 e 11 ^^^ rotr32 e 25
    let ch := (e &&& f) ^^^ (~~~e &&& g)
    let t1 := h + s1 + ch + kw.1 + kw.2
    let s0 := rotr32 a 2 ^^^ rotr32 a 13 ^^^ rotr32 a 22
    let maj := (a &&& b) ^^^ (a &&& c) ^^^ (b &&& c)
    [t1 + (s0 + maj), a, b, c, d + t1, e, f, g]
  | v => v

/-- One block. -/
def shaBlock (h : List Word) (b : List Byte) : List Word :=
  List.zipWith (fun x y => x + y) h ((shaK.zip (shaSchedule b)).foldl shaRound h)

/-- The blocks of a padded message; `n` counts them. -/
def shaBlocks : Nat → List Word → List Byte → List Word
  | 0, h, _ => h
  | n + 1, h, b => shaBlocks n (shaBlock h (b.take 64)) (b.drop 64)

/-- The 32 bytes of the digest. -/
def sha256 (m : List Byte) : List Byte :=
  let p := shaPad m
  (shaBlocks (p.length / 64) shaInit p).flatMap (fun w => (List.range 4).map (fun i => BitVec.ofNat 8 (w.toNat / 2 ^ (8 * (3 - i)))))

end Sys2Proof.Machine
end

