-- ==== Sys2Proof/Machine/Ecdsa.lean ====
section
/-! DEFINITION. SHA-384 (FIPS 180-4) and the verification of an ECDSA P-384 signature (FIPS 186-5), with which the module checks
images and tokens (R454, R455, R470). -/
namespace Sys2Proof.Machine

/-! ### SHA-384 -/

/-- Right rotation of a 64-bit word. -/
def rotr64 (x : Word64) (n : Nat) : Word64 := (x >>> n) ||| (x <<< (64 - n))

/-- The 80 round constants. -/
def sha512K : List Word64 := [
  0x428a2f98d728ae22#64, 0x7137449123ef65cd#64, 0xb5c0fbcfec4d3b2f#64, 0xe9b5dba58189dbbc#64,
  0x3956c25bf348b538#64, 0x59f111f1b605d019#64, 0x923f82a4af194f9b#64, 0xab1c5ed5da6d8118#64,
  0xd807aa98a3030242#64, 0x12835b0145706fbe#64, 0x243185be4ee4b28c#64, 0x550c7dc3d5ffb4e2#64,
  0x72be5d74f27b896f#64, 0x80deb1fe3b1696b1#64, 0x9bdc06a725c71235#64, 0xc19bf174cf692694#64,
  0xe49b69c19ef14ad2#64, 0xefbe4786384f25e3#64, 0x0fc19dc68b8cd5b5#64, 0x240ca1cc77ac9c65#64,
  0x2de92c6f592b0275#64, 0x4a7484aa6ea6e483#64, 0x5cb0a9dcbd41fbd4#64, 0x76f988da831153b5#64,
  0x983e5152ee66dfab#64, 0xa831c66d2db43210#64, 0xb00327c898fb213f#64, 0xbf597fc7beef0ee4#64] ++ [
  0xc6e00bf33da88fc2#64, 0xd5a79147930aa725#64, 0x06ca6351e003826f#64, 0x142929670a0e6e70#64,
  0x27b70a8546d22ffc#64, 0x2e1b21385c26c926#64, 0x4d2c6dfc5ac42aed#64, 0x53380d139d95b3df#64,
  0x650a73548baf63de#64, 0x766a0abb3c77b2a8#64, 0x81c2c92e47edaee6#64, 0x92722c851482353b#64,
  0xa2bfe8a14cf10364#64, 0xa81a664bbc423001#64, 0xc24b8b70d0f89791#64, 0xc76c51a30654be30#64,
  0xd192e819d6ef5218#64, 0xd69906245565a910#64, 0xf40e35855771202a#64, 0x106aa07032bbd1b8#64,
  0x19a4c116b8d2d0c8#64, 0x1e376c085141ab53#64, 0x2748774cdf8eeb99#64, 0x34b0bcb5e19b48a8#64,
  0x391c0cb3c5c95a63#64, 0x4ed8aa4ae3418acb#64, 0x5b9cca4f7763e373#64, 0x682e6ff3d6b2b8a3#64] ++ [
  0x748f82ee5defb2fc#64, 0x78a5636f43172f60#64, 0x84c87814a1f0ab72#64, 0x8cc702081a6439ec#64,
  0x90befffa23631e28#64, 0xa4506cebde82bde9#64, 0xbef9a3f7b2c67915#64, 0xc67178f2e372532b#64,
  0xca273eceea26619c#64, 0xd186b8c721c0c207#64, 0xeada7dd6cde0eb1e#64, 0xf57d4f7fee6ed178#64,
  0x06f067aa72176fba#64, 0x0a637dc5a2c898a6#64, 0x113f9804bef90dae#64, 0x1b710b35131c471b#64,
  0x28db77f523047d84#64, 0x32caab7b40c72493#64, 0x3c9ebe0a15c9bebc#64, 0x431d67c49c100d4c#64,
  0x4cc5d4becb3e42b6#64, 0x597f299cfc657e2a#64, 0x5fcb6fab3ad6faec#64, 0x6c44198c4a475817#64]

/-- The initial hash value. -/
def sha384Init : List Word64 := [
  0xcbbb9d5dc1059ed8#64, 0x629a292a367cd507#64, 0x9159015a3070dd17#64, 0x152fecd8f70e5939#64,
  0x67332667ffc00b31#64, 0x8eb44a8768581511#64, 0xdb0c2e0d64f98fa7#64, 0x47b5481dbefa4fa4#64]

/-- The message with its padding. -/
def sha384Pad (m : List Byte) : List Byte :=
  let n := m.length
  m ++ [0x80#8] ++ List.replicate ((239 - n % 128) % 128) 0#8 ++ ((List.range 16).map (fun i => BitVec.ofNat 8 (8 * n / 2 ^ (8 * (15 - i)))))

/-- A number from big-endian bytes. -/
def beNat (b : List Byte) : Nat := b.foldl (fun a x => a * 256 + x.toNat) 0

/-- The message schedule of a block. -/
def sha512Schedule (b : List Byte) : List Word64 :=
  (List.range 64).foldl (fun w t =>
    let x (i : Nat) : Word64 := w.getD (t + 16 - i) 0#64
    let s0 := rotr64 (x 15) 1 ^^^ rotr64 (x 15) 8 ^^^ (x 15 >>> 7)
    let s1 := rotr64 (x 2) 19 ^^^ rotr64 (x 2) 61 ^^^ (x 2 >>> 6)
    w ++ [s1 + x 7 + s0 + x 16]) ((List.range 16).map (fun i => BitVec.ofNat 64 (beNat ((b.drop (8 * i)).take 8))))

/-- One round. -/
def sha512Round (v : List Word64) (kw : Word64 × Word64) : List Word64 :=
  match v with
  | [a, b, c, d, e, f, g, h] =>
    let s1 := rotr64 e 14 ^^^ rotr64 e 18 ^^^ rotr64 e 41
    let t1 := h + s1 + ((e &&& f) ^^^ (~~~e &&& g)) + kw.1 + kw.2
    let s0 := rotr64 a 28 ^^^ rotr64 a 34 ^^^ rotr64 a 39
    [t1 + (s0 + ((a &&& b) ^^^ (a &&& c) ^^^ (b &&& c))), a, b, c, d + t1, e, f, g]
  | v => v

/-- The blocks of a padded message; `n` counts them. -/
def sha512Blocks : Nat → List Word64 → List Byte → List Word64
  | 0, h, _ => h
  | n + 1, h, b =>
    sha512Blocks n (List.zipWith (fun x y => x + y) h ((sha512K.zip (sha512Schedule (b.take 128))).foldl sha512Round h)) (b.drop 128)

/-- The digest as a number, its first byte the most significant. -/
def sha384 (m : List Byte) : Nat :=
  let p := sha384Pad m
  ((sha512Blocks (p.length / 128) sha384Init p).take 6).foldl (fun a w => a * 2 ^ 64 + w.toNat) 0

/-! ### P-384 -/

def p384P : Nat := 2 ^ 384 - 2 ^ 128 - 2 ^ 96 + 2 ^ 32 - 1
def p384B : Nat := 0xb3312fa7e23ee7e4988e056be3f82d19181d9c6efe8141120314088f5013875ac656398d8a2ed19d2a85c8edd3ec2aef
def p384N : Nat := 0xffffffffffffffffffffffffffffffffffffffffffffffffc7634d81f4372ddf581a0db248b0a77aecec196accc52973
def p384Gx : Nat := 0xaa87ca22be8b05378eb1c71ef320ad746e1d3b628ba79b9859f741e082542a385502f25dbf55296c3a545e3872760ab7
def p384Gy : Nat := 0x3617de4a96262c6f5d9e98bf9292dc29f8f41dbd289a147ce9da3113b5f0b8c00a60b1ce1d7e819d7a431d7c90ea0e5f

/-- x^e mod m for an exponent of at most `k` bits. -/
def powMod (m : Nat) : Nat → Nat → Nat → Nat
  | 0, _, _ => 1 % m
  | k + 1, x, e => powMod m k (x * x % m) (e / 2) * (if e % 2 = 1 then x else 1) % m

/-- The inverse modulo a prime of at most 384 bits. -/
def invMod (m x : Nat) : Nat := powMod m 384 (x % m) (m - 2)

/-- a − b modulo m, of residues. -/
def subMod (m a b : Nat) : Nat := (a + m - b % m) % m

/-- A point by its coordinates; none is the point at infinity. -/
abbrev EcPoint := Option (Nat × Nat)

def ecAdd (a b : EcPoint) : EcPoint :=
  match a, b with
  | none, q => q
  | q, none => q
  | some (x1, y1), some (x2, y2) =>
    let m := p384P
    if x1 = x2 ∧ (y1 + y2) % m = 0 then none
    else
      let l := if x1 = x2 then subMod m (3 * x1 * x1) 3 * invMod m (2 * y1) % m else subMod m y2 y1 * invMod m (subMod m x2 x1) % m
      let x3 := subMod m (subMod m (l * l % m) x1) x2
      some (x3, subMod m (l * subMod m x1 x3 % m) y1)

/-- The multiple of a point by a number of at most `k` bits. -/
def ecMul : Nat → Nat → EcPoint → EcPoint
  | 0, _, _ => none
  | k + 1, n, q => ecAdd (if n % 2 = 1 then q else none) (ecMul k (n / 2) (ecAdd q q))

/-- Whether (x, y) is a point of the curve. -/
def onCurve (x y : Nat) : Bool :=
  decide (x < p384P) && decide (y < p384P) && y * y % p384P == subMod p384P ((x * x * x + p384B) % p384P) (3 * x)

/-- Whether (r, s) is a signature of the digest `z` under the public key (x, y). -/
def ecdsaOk (x y z r s : Nat) : Bool :=
  if !onCurve x y || r = 0 || s = 0 || decide (p384N ≤ r) || decide (p384N ≤ s) then false
  else
    let w := invMod p384N s
    match ecAdd (ecMul 384 (z * w % p384N) (some (p384Gx, p384Gy))) (ecMul 384 (r * w % p384N) (some (x, y))) with
    | some (vx, _) => vx % p384N == r
    | none => false

/-! ### Signature blocks (R454) -/

/-- The public key of a signature block, as the 97 bytes of an uncompressed point. -/
def sigKey (b : List Byte) : List Byte := b.take 97

/-- A block's form: an uncompressed point, and zeros where it holds nothing. -/
def sigFormOk (b : List Byte) : Bool :=
  b.length == 256 && b.headD 0#8 == 4#8 && ((b.drop 97).take 31).all (· == 0#8) && (b.drop 224).all (· == 0#8)

/-- Whether a block signs `m` with a key of hash `kh`. -/
def sigOk (b m : List Byte) (kh : Nat) : Bool :=
  sigFormOk b && sha384 (sigKey b) == kh &&
    ecdsaOk (beNat ((b.drop 1).take 48)) (beNat ((b.drop 49).take 48)) (sha384 m) (beNat ((b.drop 128).take 48)) (beNat ((b.drop 176).take 48))

end Sys2Proof.Machine
end

