-- ==== Sys2Proof/Machine/CellOps.lean ====
section
/-! DEFINITION. One schedule cycle of one cell (R86 to R89, R95 to R117, R139 to R149): SRAM ports, operands, the matrix
and vector units, steering, the sequencer. -/
namespace Sys2Proof.Machine

/-- Port indices of N, E, S, W; ARR_FCAP_INFO.PORT also has 4 for the row bus and 5 for none. -/
def portRowBus : Nat := 4
def portNone : Nat := 5

/-- The opposite side. -/
def oppSide (d : Nat) : Nat := (d + 2) % 4

def cellInput (c : Cell) (d : Nat) : CellInput :=
  match d with
  | 0 => c.inN | 1 => c.inE | 2 => c.inS | _ => c.inW

def setCellInput (c : Cell) (d : Nat) (x : CellInput) : Cell :=
  match d with
  | 0 => { c with inN := x } | 1 => { c with inE := x } | 2 => { c with inS := x } | _ => { c with inW := x }

/-- What a sparse map of the cell reads as where nothing is listed. -/
def zeroInt (_ : Nat) : Int := 0
def zeroWord (_ : Nat) : Word := 0#32
def zeroWord256 (_ : Nat) : Word256 := 0#256
def zeroWord64 (_ : Nat) : Word64 := 0#64
def noBit (_ : Nat) : Bool := false
def idleLoop (_ : Nat) : LoopLevel := {}

/-- BANK words of SRAM: a word whose loaded or written bit is clear reads as zeros (R88, R155). -/
def sramWord (c : Cell) (key : Nat) : Word256 :=
  if smapGet noBit c.valid key then smapGet zeroWord256 c.mem key else 0#256

/-- Writes a 32 B word and sets its loaded or written bit (R88, R155). -/
def sramStore (c : Cell) (key : Nat) (w : Word256) : Cell :=
  { c with mem := smapSet zeroWord256 c.mem key w, valid := smapSet noBit c.valid key true }

/-- The physical bank of a logical bank, or none where R86 faults ADDRESS. -/
def physBank (pane lbank : Nat) (write : Bool) : Option Nat :=
  if 8 ≤ lbank ∧ lbank ≤ 11 then some lbank
  else if lbank ≤ 3 ∧ write = false then some (lbank + 4 * pane)
  else none

/-- SRAM ports used so far in this ac (R87). -/
structure PortUse where
  reads : List Nat := []
  writes : List Nat := []
  excess : Bool := false
  deriving DecidableEq, Repr

/-- What one cell has done so far in this ac; `mac` lists the FMT codes of its MAC steps, `vec` counts its VEC words (R423). -/
structure CellWork where
  cell : Cell
  ports : PortUse := {}
  faults : List (ArrFault × Nat) := []
  ce : Nat := 0
  ue : Nat := 0
  mac : List Nat := []
  vec : Nat := 0
  deriving DecidableEq, Repr

def CellWork.fault (k : CellWork) (f : ArrFault) (port : Nat) : CellWork :=
  { k with faults := k.faults ++ [(f, port)] }

/-- Claims a port for an access: at most two reads and two writes per ac, one of each per bank; the first access past
a limit and every later one is excess (R87). Answers whether the access is served. -/
def claimPort (k : CellWork) (bank : Nat) (write : Bool) (port : Nat) : Bool × CellWork :=
  let p := k.ports
  let used := if write then p.writes else p.reads
  if p.excess || decide (2 ≤ used.length) || used.contains bank then
    (false, { k with ports := { p with excess := true } }.fault .bankConflict port)
  else if write then (true, { k with ports := { p with writes := bank :: p.writes } })
  else (true, { k with ports := { p with reads := bank :: p.reads } })

/-- A served SRAM read, with the error that strikes it, if any: corrected, or a null word and SRAM_UE (R89). -/
def servedRead (k : CellWork) (errs : List (ErrPlace × Bool)) (place : ErrPlace) (key port : Nat) :
    QWord × CellWork :=
  if errs.contains (place, false) then
    ({ data := 0#256, null := true }, { k with ue := k.ue + 1 }.fault .sramUe port)
  else if errs.contains (place, true) then
    ({ data := sramWord k.cell key }, { k with ce := k.ce + 1 })
  else ({ data := sramWord k.cell key }, k)

/-- A generator's address: BASE + Σ IDX[l] × STRIDE[l] modulo 2^13 (R111). -/
def genAddr (c : Cell) (g : Nat) : Nat :=
  let term (l : Nat) : Int :=
    let v := smapGet idleLoop c.loops l
    if v.active then (v.idx : Int) * smapGet zeroInt c.gens (8 * g + 1 + l) else 0
  ((smapGet zeroInt c.gens (8 * g) + term 0 + term 1 + term 2 + term 3) % 8192).toNat

/-- A pattern read of the word that generator `g` addresses (R86, R87). One that faults ADDRESS claims no port and delivers a null word (DESIGN CHOICE,
log entry 96). -/
def patternRead (k : CellWork) (errs : List (ErrPlace × Bool)) (place : ErrPlace) (pane g : Nat) :
    QWord × CellWork :=
  let a := genAddr k.cell g
  match physBank pane (a / 512) false with
  | none => ({ data := 0#256, null := true }, k.fault .address portNone)
  | some b =>
    match claimPort k b false portNone with
    | (false, k) => ({ data := 0#256, null := true }, k)
    | (true, k) => servedRead k errs place (512 * b + a % 512) portNone

/-- A row of an accumulator as a VEC word reads it. -/
def accRow (c : Cell) (acc row : Nat) : List Word :=
  (List.range 32).map (fun l => smapGet zeroWord c.acc (512 * acc + 32 * (row % 16) + l))

def vregLanes (c : Cell) (n : Nat) : List Word :=
  (List.range 32).map (fun l => smapGet zeroWord c.vregs (32 * n + l))

/-- An operand as its source delivers it: nothing, a 32 B word, or 32 lanes (R98). -/
inductive Operand where
  | none
  | word (w : QWord)
  | lanes (l : List Word)
  deriving DecidableEq, Repr

/-- Pops the head of the skid queue of input `d`; an empty queue gives a null word without fault (R98, R117). -/
def popQueue (k : CellWork) (d : Nat) : QWord × CellWork :=
  let i := cellInput k.cell d
  match i.queue with
  | [] => ({ data := 0#256, null := true }, k)
  | q :: rest => (q, { k with cell := setCellInput k.cell d { i with queue := rest } })

/-- Reads the source `src`, with `sel` its AG field (R98, R101). -/
def readSource (k : CellWork) (errs : List (ErrPlace × Bool)) (place : ErrPlace) (pane src sel : Nat) :
    Operand × CellWork :=
  if src = 0 then (.none, k)
  else if src ≤ 4 then
    let l := (cellInput k.cell (src - 1)).pass
    if l.dv then (.word { data := if l.null then 0#256 else l.data, null := l.null }, k)
    else (.word { data := 0#256, null := true }, k.fault .noData (src - 1))
  else if src ≤ 8 then let (q, k) := popQueue k (src - 5); (.word q, k)
  else if src = 0x9 then let (q, k) := patternRead k errs place pane sel; (.word q, k)
  else if src = 0xA then (.word { data := k.cell.oreg }, k)
  else if src = 0xB then (.lanes (accRow k.cell 0 (genAddr k.cell sel)), k)
  else if src = 0xC then (.lanes (accRow k.cell 1 (genAddr k.cell sel)), k)
  else (.lanes (vregLanes k.cell sel), k)

/-- Element `i` of width `w` bits, packed little-endian from bit 0 (R104, R108). -/
def packedElem (d : Word256) (w i : Nat) : Nat := d.toNat / 2 ^ (w * i) % 2 ^ w

/-- How many lanes one word fills in a VEC format, and the first of them (R108). -/
def vecSpan (f : ElemFmt) (lane : Nat) : Nat × Nat :=
  match f with
  | .bfloat16 => (16, 16 * (lane % 2))
  | .binary32 => (8, 8 * lane)
  | _ => (32, 0)

/-- A word source as 32 lanes: exact conversions, +0 where the word fills nothing (R108, R133). -/
def wordToLanes (f : ElemFmt) (lane : Nat) (d : Word256) : List Word :=
  let (n, first) := vecSpan f lane
  (List.range 32).map (fun i =>
    if first ≤ i ∧ i < first + n then
      (if f = .binary32 then BitVec.ofNat 32 (packedElem d 32 (i - first))
       else roundF32 .tiesEven (decodeElem f (packedElem d f.width (i - first))))
    else 0#32)

/-- 32 lanes rounded into a word of the format; every other byte of the word is 0 (R108, R132). -/
def lanesToWord (f : ElemFmt) (lane : Nat) (mode : Rnd) (l : List Word) : Word256 :=
  let (n, first) := vecSpan f lane
  BitVec.ofNat 256 ((List.range n).foldl
    (fun acc i => acc + encodeElem f mode (f32 (l.getD (first + i) 0#32)) * 2 ^ (f.width * i)) 0)

/-- An operand as a 32 B word: a null word where the source delivers none (R98). -/
def operandWord (o : Operand) : Word256 :=
  match o with
  | .word w => w.data
  | _ => 0#256

/-- An operand as 32 lanes (R108). -/
def operandLanes (f : ElemFmt) (lane : Nat) (o : Operand) : List Word :=
  match o with
  | .none => List.replicate 32 0#32
  | .word w => wordToLanes f lane w.data
  | .lanes l => l

/-- Puts an effect on its way: it lands at the end of the ac three after this one (R112). -/
def CellWork.later (k : CellWork) (e : CellEffect) : CellWork :=
  { k with cell := { k.cell with effects := k.cell.effects ++ [(3, e)] } }

/-- The result lanes of a VEC operation other than VTOK (R107). -/
def vecResult (op : Nat) (f : ElemFmt) (mode : Rnd) (a b d : List Word) : List Word :=
  let zip2 (g : Word → Word → Word) : List Word :=
    (List.range 32).map (fun i => g (a.getD i 0#32) (b.getD i 0#32))
  let zip3 (g : Word → Word → Word → Word) : List Word :=
    (List.range 32).map (fun i => g (a.getD i 0#32) (b.getD i 0#32) (d.getD i 0#32))
  match op with
  | 0x0 => zip2 (addF32 mode)
  | 0x1 => zip2 (subF32 mode)
  | 0x2 => zip2 (mulF32 mode)
  | 0x3 => zip3 (fmaF32 mode)
  | 0x4 => zip2 maxF32
  | 0x5 => zip2 minF32
  | 0x6 => a.map (expF32 mode)
  | 0x7 => a.map (rcpF32 mode)
  | 0x8 => a.map (rsqF32 mode)
  | 0x9 => a.map (fun x => roundF32 mode (decodeElem f (encodeElem f mode (f32 x))))
  | 0xA => treeSum mode a :: List.replicate 31 0#32
  | 0xB =>
    let g := greatestLane (a.drop 1) 1 (0, a.headD 0#32)
    canonLane g.2 :: natF32 g.1 :: List.replicate 30 0#32
  | 0xC => zip3 selF32
  | _ => List.replicate 32 0#32

/-- The mask VTOK loads into TKR (R107, R149). -/
def tokMask (a b : List Word) : Word64 :=
  BitVec.ofNat 64 ((List.range 32).foldl (fun m i =>
    m + (if laneZero (a.getD i 0#32) then 0 else 2 ^ i) + (if laneZero (b.getD i 0#32) then 0 else 2 ^ (32 + i))) 0)

/-- The physical key of a pattern write, or none where R86 faults ADDRESS. -/
def writeKey (k : CellWork) (agd : Nat) : Option Nat × CellWork :=
  let a := genAddr k.cell agd
  match physBank 0 (a / 512) true with
  | none => (none, k.fault .address portNone)
  | some b => (some (512 * b + a % 512), k)

/-- Fires a VEC word: operands in order, the present value where needed, the result on its way (R107, R108). An address that R86 does not permit for
its write to BANK faults as it fires, and not as the write would land (DESIGN CHOICE, log entry 96). -/
def fireVec (k : CellWork) (errs : List (ErrPlace × Bool)) (pane : Nat) (w : Word64) (a b : Operand) : CellWork :=
  let f := (vecFmt (pwFmt w)).getD .binary32
  let mode := rndOfCode (pwRnd w)
  let la := operandLanes f (pwLane w) a
  let lb := operandLanes f (pwLane w) b
  if pwOp w = 0xD then k.later (.tkr (tokMask la lb))
  else
    let (ld, k) : List Word × CellWork :=
      if pwOp w = 0x3 ∨ pwOp w = 0xC then
        match pwDst w with
        | 1 => let (q, k) := patternRead k errs .present pane (pwAgd w); (wordToLanes f (pwLane w) q.data, k)
        | 2 => (wordToLanes f (pwLane w) k.cell.oreg, k)
        | 3 => (accRow k.cell 0 (genAddr k.cell (pwAgd w)), k)
        | 4 => (accRow k.cell 1 (genAddr k.cell (pwAgd w)), k)
        | 5 => (vregLanes k.cell (pwAgd w), k)
        | _ => (List.replicate 32 0#32, k)
      else (List.replicate 32 0#32, k)
    let r := vecResult (pwOp w) f mode la lb ld
    match pwDst w with
    | 1 =>
      match writeKey k (pwAgd w) with
      | (none, k) => k
      | (some key, k) => k.later (.bank key (lanesToWord f (pwLane w) mode r))
    | 2 => k.later (.oreg (lanesToWord f (pwLane w) mode r))
    | 3 => k.later (.accRow 0 (genAddr k.cell (pwAgd w) % 16) r)
    | 4 => k.later (.accRow 1 (genAddr k.cell (pwAgd w) % 16) r)
    | 5 => k.later (.vreg (pwAgd w) r)
    | _ => k

/-- An accumulator element as the next MAT step sees it: a MAT step still on its way chains with no wait (R112). -/
def accChained (c : Cell) (key : Nat) : Word :=
  let hit := c.effects.foldl (fun r e => match e.2 with
    | .accMat _ vals => match vals.find? (fun p => p.1 == key) with
      | some p => some p.2
      | none => r
    | _ => r) (none : Option Word)
  hit.getD (smapGet zeroWord c.acc key)

/-- The products of one MAC step for row `r` and column `c` of the step (R104, R139). -/
def stepPairs (m : MatFmt) (a b : Word256) (r c : Nat) : List (FVal × FVal) :=
  (List.range m.kStep).map (fun j =>
    (decodeElem m.ea (packedElem a m.ea.width (r * m.kStep + j)),
     decodeElem m.eb (packedElem b m.eb.width (c * m.kStep + j))))

/-- A block scale of the format, or 1 where the operand is unscaled (R106, R139). -/
def scaleVal (m : MatFmt) (scaled : Bool) (d : Word256) (i : Nat) : FVal :=
  if scaled then (if m.ys8 then decodeYs8 (packedElem d 8 i) else decodeE8m0 (packedElem d 8 i))
  else .fin false 1 0

/-- All accumulator elements of `acc` that a MAC step updates, with their new values. -/
def macStep (m : MatFmt) (mode : Rnd) (c : Cell) (acc col0 cols : Nat) (zeroed : Bool) (a b : Word256) :
    List (Nat × Word) :=
  (List.range 16).flatMap (fun r => (List.range cols).map (fun cc =>
    let key := 512 * acc + 32 * r + col0 + cc
    let old := if zeroed then 0#32 else accChained c key
    (key, macElem mode old (stepPairs m a b r cc) (scaleVal m m.scaleA c.scaCur r)
      (scaleVal m m.scaleB c.scbCur (col0 + cc)))))

/-- Every element of an accumulator set to +0. -/
def accZeros (acc : Nat) : List (Nat × Word) := (List.range 512).map (fun i => (512 * acc + i, 0#32))

/-- The high 16 B of a word, moved low. -/
def highHalf (d : Word256) : Word256 := BitVec.ofNat 256 (d.toNat / 2 ^ 128)
def lowHalf (d : Word256) : Word256 := BitVec.ofNat 256 (d.toNat % 2 ^ 128)

/-- Loads the pending scale registers from the SRC fields of a MACH word (R105). -/
def loadScales (c : Cell) (m : MatFmt) (agd : Nat) (a b : Operand) : Cell :=
  let halfA := decide (m.aBytes ≤ 16)
  let halfB := decide (m.bBytes ≤ 16)
  if halfA && halfB then
    let c := if a = .none then c else { c with scaPend := lowHalf (operandWord a) }
    if b = .none then c else { c with scbPend := operandWord b }
  else if halfA then
    if a = .none then c
    else if agd % 2 = 1 then { c with scbPend := operandWord a }
    else { c with scaPend := lowHalf (operandWord a) }
  else if halfB then (if b = .none then c else { c with scbPend := operandWord b })
  else c

/-- Fires a MAT word (R104 to R106): the clear, the block boundary, the step, the scale loads, the K counter. -/
def fireMat (k : CellWork) (w : Word64) (a b : Operand) : CellWork :=
  let op := pwOp w
  let dst := pwDst w
  match matFmt (pwFmt w) with
  | none => k
  | some m =>
    let c := k.cell
    let acc := dst - 3
    if op = 0x4 then
      let c := if a = .none then c else { c with scaPend := lowHalf (operandWord a) }
      let c := if b = .none then c else { c with scbPend := operandWord b }
      { k with cell := c }
    else if op = 0x5 then
      let k := { k with cell := { c with kCount := 0 } }
      if dst = 0 then k else k.later (.accMat acc (accZeros acc))
    else
      let zeroed := decide (op = 0x2 ∨ op = 0x3)
      let kc := if zeroed then 0 else c.kCount
      let c := if m.block ≠ 0 ∧ kc % m.block = 0 then { c with scaCur := c.scaPend, scbCur := c.scbPend } else c
      let halfA := decide (m.aBytes ≤ 16)
      let halfB := decide (m.bBytes ≤ 16)
      let high := decide (op = 0x1 ∨ op = 0x3)
      let da := if halfA then (if high then highHalf c.stageA else lowHalf (operandWord a)) else operandWord a
      let db := if halfB then (if high then highHalf c.stageB else lowHalf (operandWord b)) else operandWord b
      let bf := decide (pwFmt w = 0xC)
      let col0 := if bf then 8 * pwAgd w else 0
      let cols := if bf then 8 else 32
      let vals := macStep m (rndOfCode (pwRnd w)) c acc col0 cols zeroed da db
      let vals := if zeroed && bf then
          (accZeros acc).map (fun p => (vals.find? (fun q => q.1 == p.1)).getD p)
        else vals
      let c :=
        if high then loadScales c m (pwAgd w) a b
        else
          let c := if halfA then { c with stageA := operandWord a } else c
          if halfB then { c with stageB := operandWord b } else c
      let k := { k with cell := { c with kCount := kc + m.kStep }, mac := k.mac ++ [pwFmt w] }
      if dst = 0 then k else k.later (.accMat acc vals)

/-- What a firing word drives on one output: whether static selection or TKOUT takes the data lane and the token lane,
and the signals (R100). -/
structure StaticDrive where
  data : Bool := false
  tok : Bool := false
  link : Link := {}
  deriving DecidableEq, Repr

/-- Static selection of output `d` (R100). `oreg` and `tkr` are the values at the start of the ac. An OSEL that selects an input without a
word still counts as driving the output for OUT_CONFLICT (R115; DESIGN CHOICE, log entry 96). -/
def staticDrive (c : Cell) (w : Word64) (a : Operand) (d : Nat) : StaticDrive :=
  let osel := pwOsel w d
  let base : Link :=
    if osel = 0 then {}
    else if osel ≤ 4 then
      let l := (cellInput c (osel - 1)).pass
      { dv := l.dv, null := l.null, data := l.data }
    else if osel = 5 then { dv := true, data := c.oreg }
    else match a with
      | .word q => { dv := true, null := q.null, data := q.data }
      | _ => { dv := true, null := true }
  let tk := pwTkout w d
  { data := decide (osel ≠ 0), tok := tk, link := if tk then { base with tv := true, mask := c.tkr } else base }

/-- Whether MASK names an index beyond `p` in the direction a word entering at `d` travels (R115). -/
def maskBeyond (d p : Nat) (m : Word64) : Bool :=
  if d = 3 ∨ d = 0 then decide (m.toNat / 2 ^ (p + 1) ≠ 0) else decide (m.toNat % 2 ^ p ≠ 0)

/-- The receiving cell's own index in the direction of travel (R115). -/
def ownIndex (cell d : Nat) : Nat := if d = 3 ∨ d = 1 then cell % 64 else cell / 64

/-- The switch's work so far in this ac: what each output carries. -/
structure SwitchWork where
  work : CellWork
  outs : List StaticDrive
  deriving DecidableEq, Repr

/-- Drives a steered word on output `o`, unless static selection holds it: then OUT_CONFLICT (R115). -/
def driveData (s : SwitchWork) (o : Nat) (q : QWord) : SwitchWork :=
  let x := s.outs.getD o {}
  if x.data then { s with work := s.work.fault .outConflict o }
  else { s with outs := s.outs.set o { x with link := { x.link with dv := true, null := q.null, data := q.data } } }

/-- Drives a forwarded token on output `o`, unless TKOUT holds it: then OUT_CONFLICT (R115). -/
def driveToken (s : SwitchWork) (o : Nat) (m : Word64) : SwitchWork :=
  let x := s.outs.getD o {}
  if x.tok then { s with work := s.work.fault .outConflict o }
  else { s with outs := s.outs.set o { x with link := { x.link with tv := true, mask := m } } }

/-- Forwards a token that arrives at input `d` in this ac and puts it on the line (R115, R116). -/
def tokenArrive (cell : Nat) (skews : Nat → Nat) (s : SwitchWork) (d : Nat) : SwitchWork :=
  let i := cellInput s.work.cell d
  if i.pass.tv then
    let s := if maskBeyond d (ownIndex cell d) i.pass.mask then driveToken s (oppSide d) i.pass.mask else s
    let c := setCellInput s.work.cell d { i with toks := i.toks ++ [PendTok.mk (skews d) i.pass.mask] }
    { s with work := { s.work with cell := c } }
  else s

/-- Appends a word to the skid queue of input `d`; a full queue discards it with QUEUE_FULL (R117). -/
def deliver (k : CellWork) (d : Nat) (q : QWord) : CellWork :=
  let i := cellInput k.cell d
  if 4 ≤ i.queue.length then k.fault .queueFull d
  else { k with cell := setCellInput k.cell d { i with queue := i.queue ++ [q] } }

/-- Steers a word by its token: local delivery and the forward (R115). -/
def steerWord (cell : Nat) (s : SwitchWork) (d : Nat) (m : Word64) (q : QWord) : SwitchWork :=
  let p := ownIndex cell d
  let s := if m.getLsbD p then { s with work := deliver s.work d q } else s
  if maskBeyond d p m then driveData s (oppSide d) q else s

/-- Pairs the token due at input `d` with its word, by the table of R116; later tokens due in the same ac are
discarded with ORPHAN_TOKEN. `steer` is the TSTEER bit of the word that fires, false where none fires. -/
def pairInput (cell : Nat) (s : SwitchWork) (d : Nat) (steer : Bool) : SwitchWork :=
  let i := cellInput s.work.cell d
  let due := i.toks.filter (fun t => t.inAc == 0)
  let rest := (i.toks.filter (fun t => t.inAc != 0)).map (fun t => (PendTok.mk (t.inAc - 1) t.mask))
  let s := { s with work := { s.work with cell := setCellInput s.work.cell d { i with toks := rest } } }
  let l := i.pass
  match due with
  | [] => if steer && l.dv then { s with work := s.work.fault .orphanData d } else s
  | t :: extra =>
    let s := if l.dv && steer then steerWord cell s d t.mask { data := if l.null then 0#256 else l.data, null := l.null }
      else steerWord cell { s with work := s.work.fault .orphanToken d } d t.mask { data := 0#256, null := true }
    { s with work := extra.foldl (fun k _ => k.fault .orphanToken d) s.work }

/-- The switch in one ac: arrivals, then pairing, at N, E, S and W; the presented words are dropped (R91). `skews` are the inputs' skews at
this ac, which a CTL SKEW that runs in it does not change yet (R112, R116). -/
def switchStep (cell : Nat) (skews : Nat → Nat) (k : CellWork) (outs : List StaticDrive) (steer : Nat → Bool) : CellWork × List Link :=
  let s : SwitchWork := { work := k, outs := outs }
  let s := (List.range 4).foldl (tokenArrive cell skews) s
  let s := (List.range 4).foldl (fun s d => pairInput cell s d (steer d)) s
  let c := (List.range 4).foldl (fun c d => setCellInput c d { cellInput c d with pass := {} }) s.work.cell
  ({ s.work with cell := c }, s.outs.map (fun x => x.link))

/-- Writes 32 lanes at `base` of a lane map. -/
def setLanes (m : List (Nat × Word)) (base : Nat) (l : List Word) : List (Nat × Word) :=
  (List.range 32).foldl (fun m i => smapSet zeroWord m (base + i) (l.getD i 0#32)) m

/-- An effect lands (R112). -/
def landEffect (c : Cell) (e : CellEffect) : Cell :=
  match e with
  | .bank key w => sramStore c key w
  | .oreg w => { c with oreg := w }
  | .vreg n l => { c with vregs := setLanes c.vregs (32 * n) l }
  | .accRow a r l => { c with acc := setLanes c.acc (512 * a + 32 * r) l }
  | .accMat _ vals => { c with acc := vals.foldl (fun m p => smapSet zeroWord m p.1 p.2) c.acc }
  | .tkr m => { c with tkr := m }

/-- Claims the write ports of the pattern writes that land at the end of this ac, in the order their words fired; an
excess write is discarded (R87). -/
def landingWrites (k : CellWork) : CellWork :=
  let due := k.cell.effects.filter (fun e => e.1 == 0)
  let later := k.cell.effects.filter (fun e => e.1 != 0)
  let r := due.foldl (fun (x : CellWork × List (Nat × CellEffect)) e =>
    match e.2 with
    | .bank key _ =>
      match claimPort x.1 (key / 512) true portNone with
      | (true, k) => (k, x.2 ++ [e])
      | (false, k) => (k, x.2)
    | _ => (x.1, x.2 ++ [e])) (k, [])
  { r.1 with cell := { r.1.cell with effects := r.2 ++ later } }

/-- Lands what is due at the end of this ac and counts the rest down. -/
def endEffects (c : Cell) : Cell :=
  let due := c.effects.filter (fun e => e.1 == 0)
  let later := (c.effects.filter (fun e => e.1 != 0)).map (fun e => (e.1 - 1, e.2))
  due.foldl (fun c e => landEffect c e.2) { c with effects := later }

/-- Advances the sequencer past a word (R96, R109). -/
def advance (c : Cell) (w : Word64) : Cell :=
  let l := pwLvl w
  let v := smapGet idleLoop c.loops l
  if pwEnd w && decide (0 < v.rem) then
    { c with pc := v.ls, loops := smapSet idleLoop c.loops l { v with rem := v.rem - 1, idx := v.idx + 1 } }
  else if pwEnd w then
    { c with pc := c.pc + 1, loops := smapSet idleLoop c.loops l { v with rem := 0, idx := 0, active := false } }
  else { c with pc := c.pc + 1 }

/-- Applies a CTL word, fetched at `pc`; effective from the next ac (R102, R112). -/
def applySetup (c : Cell) (pc : Nat) (w : Word64) : Cell :=
  match pwOp w with
  | 0 => { c with loops := smapSet idleLoop c.loops (ctlSel w) (LoopLevel.mk true (pc + 1) 0 (ctlIter w - 1)) }
  | 1 => { c with gens := smapSet zeroInt c.gens (8 * ctlSel w) (ctlBase w : Int) }
  | 2 => { c with gens := smapSet zeroInt c.gens (8 * ctlSel w + 1 + ctlLvl w) (ctlStride w) }
  | 3 => (List.range 4).foldl (fun c d => setCellInput c d { cellInput c d with skew := ctlSkew w d }) c
  | _ => c

/-- Whether a token is due at input `d` in this ac: a pending one, or one that arrives where the skew is 0 (R116). -/
def tokenDue (c : Cell) (d : Nat) : Bool :=
  let i := cellInput c d
  i.toks.any (fun t => t.inAc == 0) || (i.pass.tv && i.skew == 0)

/-- The word that `w` steers at input `d` has no token due: it is discarded and goes nowhere (R116). -/
def orphanData (c : Cell) (w : Word64) (d : Nat) : Bool := pwTsteer w d && (cellInput c d).pass.dv && !tokenDue c d

/-- The cell's inputs as `f` shows those whose word is discarded. -/
def showOrphans (c : Cell) (w : Word64) (f : Link → Link) : Cell :=
  (List.range 4).foldl (fun c d =>
    if orphanData c w d then let i := cellInput c d; setCellInput c d { i with pass := f i.pass } else c) c

/-- Fires a MOVE, MAT or VEC word; answers the work and what each output is driven with (R95, R100). A steered word without its token
reaches no output, and an operand that selects it reads a null word (R116; DESIGN CHOICE, log entry 96: it arrived, so this is no NO_DATA). The SRC
fields of a word are read whatever its OP, so also those of an ACLR word, to which R105 gives no operands (DESIGN CHOICE, log entry 96). -/
def fireWord (k : CellWork) (errs : List (ErrPlace × Bool)) (pane : Nat) (w : Word64) :
    CellWork × List StaticDrive :=
  let start := showOrphans k.cell w (fun l => { l with dv := false })
  let k := { k with cell := showOrphans k.cell w (fun l => { l with null := true }) }
  -- a MOVE COPY claims its write before the word's reads (R87)
  let copyBank := decide (pwClass w = .move ∧ pwOp w = 1 ∧ pwDst w = 1)
  let (slot, k) : Option Nat × CellWork :=
    if copyBank then
      match writeKey k (pwAgd w) with
      | (none, k) => (none, k)
      | (some key, k) =>
        match claimPort k (key / 512) true portNone with
        | (true, k) => (some key, k)
        | (false, k) => (none, k)
    else (none, k)
  let (a, k) := readSource k errs .srca pane (pwSrcA w) (pwAga w)
  let (b, k) := readSource k errs .srcb pane (pwSrcB w) (pwAgb w)
  let outs := (List.range 4).map (staticDrive start w a)
  let k := match pwClass w with
    | .move =>
      if pwOp w = 1 then
        if pwDst w = 2 then { k with cell := { k.cell with effects := k.cell.effects ++ [(0, .oreg (operandWord a))] } }
        else match slot with
          | some key =>
            { k with cell := { k.cell with effects := k.cell.effects ++ [(0, .bank key (operandWord a))] } }
          | none => k
      else k
    | .mat => fireMat k w a b
    | _ => fireVec { k with vec := k.vec + 1 } errs pane w a b
  (k, outs)

/-- What a cell does in one array cycle: its work and the links its outputs drive. -/
structure CellCycle where
  work : CellWork
  outs : List Link
  deriving DecidableEq, Repr

def noDrive : List StaticDrive := List.replicate 4 {}

/-- The casement word at PC, or none at PC ≥ LEN, which executes as HALT (R153). -/
def fetchWord (c : Cell) (casement : Nat) : Option Word64 :=
  if c.pc < (if casement = 0 then c.len0 else c.len1) ∧ c.pc ≤ 1023 then
    some (smapGet zeroWord64 c.pat (1024 * casement + c.pc))
  else none

/-- The sequencer's part of one schedule cycle (R109): what fires, and the state afterwards. A CTL LOOP word that carries END at its own
level advances by the loop values it found, and what it sets up stands (DESIGN CHOICE, log entry 96). -/
def sequence (k : CellWork) (errs : List (ErrPlace × Bool)) (phase casement pane : Nat) :
    CellWork × List StaticDrive × Option Word64 :=
  let c := k.cell
  match c.seq with
  | .halted => (k, noDrive, none)
  | .haltedFault => (k, noDrive, none)
  | .wait =>
    let n := c.remaining - 1
    let c := { c with remaining := n }
    if n = 0 then
      match fetchWord c casement with
      | some w => ({ k with cell := advance { c with seq := .run } w }, noDrive, none)
      | none => ({ k with cell := { c with seq := .halted } }, noDrive, none)
    else ({ k with cell := c }, noDrive, none)
  | _ =>
    match fetchWord c casement with
    | none => ({ k with cell := { c with seq := .halted } }, noDrive, none)
    | some w =>
      if errs.contains (.pattern, false) then
        ({ k with cell := { c with seq := .haltedFault }, ue := k.ue + 1 }.fault .patternUe portNone, noDrive, none)
      else
        let k := if errs.contains (.pattern, true) then { k with ce := k.ce + 1 } else k
        if phase < pwPhase w then ({ k with cell := { c with seq := .phaseWait } }, noDrive, none)
        else if pwPhase w < phase then
          ({ k with cell := { c with seq := .haltedFault } }.fault .phaseLate portNone, noDrive, none)
        else
          let k := { k with cell := { c with seq := .run } }
          match pwClass w with
          | .ctl => ({ k with cell := applySetup (advance k.cell w) c.pc w }, noDrive, none)
          | .wait =>
            let n := pwField w 15 0 - 1
            if n = 0 then ({ k with cell := advance { k.cell with remaining := 0 } w }, noDrive, none)
            else ({ k with cell := { k.cell with seq := .wait, remaining := n } }, noDrive, none)
          | .move =>
            let (k, outs) := fireWord k errs pane w
            ({ k with cell := advance k.cell w }, outs, some w)
          | .mat =>
            let (k, outs) := fireWord k errs pane w
            ({ k with cell := advance k.cell w }, outs, some w)
          | .vec =>
            let (k, outs) := fireWord k errs pane w
            ({ k with cell := advance k.cell w }, outs, some w)
          | _ => ({ k with cell := { k.cell with seq := .halted } }, noDrive, none)

/-- One schedule cycle of one cell, after the row-bus accesses of the ac have claimed their ports (R87, R109).Of several faults of the cell in
one ac the first is taken in this order: row bus, landing writes, sources, arriving tokens, pairing at N, E, S, W (R124; DESIGN CHOICE, log
entry 96). -/
def cellCycle (cell phase casement pane : Nat) (errs : List (ErrPlace × Bool)) (k : CellWork) : CellCycle :=
  let k := landingWrites k
  let skews := fun d => (cellInput k.cell d).skew
  let (k, outs, fired) := sequence k errs phase casement pane
  let (k, links) := switchStep cell skews k outs (fun d => match fired with
    | some w => pwTsteer w d
    | none => false)
  { work := { k with cell := endEffects k.cell }, outs := links }

/-- One array cycle of one cell during a drain hold: no cell fires, pass-through registers and token lines advance
(R170). -/
def cellHoldCycle (cell : Nat) (k : CellWork) : CellCycle :=
  let k := landingWrites k
  let (k, links) := switchStep cell (fun d => (cellInput k.cell d).skew) k noDrive (fun _ => false)
  { work := { k with cell := endEffects k.cell }, outs := links }

/-- The sequencer state that a tick resets (R85): pattern memory, LEN and SRAM stay. -/
def cellTickReset (c : Cell) : Cell :=
  { ({} : Cell) with mem := c.mem, valid := c.valid, pat := c.pat, len0 := c.len0, len1 := c.len1 }

/-- The purge of an abort (R173, ac a to a + 7): HALTED, registers and accumulators cleared, traffic purged. -/
def cellAbort (c : Cell) : Cell :=
  { c with seq := .halted, acc := [], vregs := [], oreg := 0#256, effects := [],
           inN := { skew := c.inN.skew }, inE := { skew := c.inE.skew },
           inS := { skew := c.inS.skew }, inW := { skew := c.inW.skew } }

/-- Clears the written bit of every work-store word (R88). -/
def cellClearWritten (c : Cell) : Cell := { c with valid := c.valid.filter (fun p => decide (p.1 < 4096)) }

/-- The fixed reset of skid queues and token lines at a flip (R167, ac f + 25). -/
def cellFlipReset (c : Cell) : Cell :=
  { c with inN := { c.inN with toks := [], queue := [] }, inE := { c.inE with toks := [], queue := [] },
           inS := { c.inS with toks := [], queue := [] }, inW := { c.inW with toks := [], queue := [] } }

/-- The drain conditions of one cell: SEQ, QUEUE, TOKEN, PASS (R165). -/
def cellNotHalted (c : Cell) : Bool := !(c.seq == .halted || c.seq == .haltedFault)
def cellQueueBusy (c : Cell) : Bool := (List.range 4).any (fun d => decide ((cellInput c d).queue ≠ []))
def cellTokenBusy (c : Cell) : Bool := (List.range 4).any (fun d => decide ((cellInput c d).toks ≠ []))
def cellPassBusy (c : Cell) : Bool :=
  (List.range 4).any (fun d => (cellInput c d).pass.dv || (cellInput c d).pass.tv)

end Sys2Proof.Machine
end

