-- ==== Sys2Proof/Machine/Irq.lean ====
section
/-! DEFINITION. The interrupt controller (R501 to R512). -/
namespace Sys2Proof.Machine

def setIrq (s : State) (x : IrqSt) : State := { s with irq := x }

/-! ### Sources (R502 to R505) -/

/-- Blocks whose status bits are sources: first and last source, register offset, lowest bit. -/
def statusSources : List (Nat × Nat × Nat × Nat) :=
  [(0x08, 0x0F, 0x160000, 8), (0x20, 0x24, 0x10000, 8), (0x28, 0x2B, 0x40000, 9), (0x30, 0x37, 0x20000, 8), (0x38, 0x42, 0x60000, 5),
   (0x48, 0x4E, 0x80000, 8), (0x50, 0x57, 0xC0000, 8), (0x58, 0x5E, 0xE0000, 9), (0x60, 0x68, 0x100000, 7), (0x6C, 0x6F, 0x120000, 10),
   (0x70, 0x73, 0x140000, 9)] ++ (List.range 16).map (fun n => (0x80 + 7 * n, 0x86 + 7 * n, 0xA0000 + 0x1000 * n, 9))

/-- The latches' sources. -/
def latchSource : LatchPin → Nat
  | .eject => 0x10 | .wake => 0x11 | .louvre0 => 0x12 | .louvre1 => 0x13 | .i3cWake => 0x14

def latchField : LatchPin → Fld
  | .eject => F.IRQ_LATCH_EJECT | .wake => F.IRQ_LATCH_WAKE | .louvre0 => F.IRQ_LATCH_LOUVRE0 | .louvre1 => F.IRQ_LATCH_LOUVRE1
  | .i3cWake => F.IRQ_LATCH_I3C_WAKE

def allLatches : List LatchPin := [.eject, .wake, .louvre0, .louvre1, .i3cWake]

/-- The status bit or latch that drives a source, if one does. -/
def sourceBit (n : Nat) : Option Fld :=
  match statusSources.find? (fun r => decide (r.1 ≤ n) && decide (n ≤ r.2.1)) with
  | some (a, _, off, lo) => some ⟨off * 32 + lo + (n - a), 1⟩
  | none => (allLatches.find? (fun p => latchSource p == n)).map latchField

/-- Sources whose line neither a status bit nor a latch drives: the wake alarm, supply low, the tick. -/
def pulseSource (n : Nat) : Bool := n == 0x15 || n == 0x16 || n == 0x18

def pendBit (s : State) (n : Nat) : Bool := bitF s (F.IRQ_PEND (n / 32)) (n % 32)
def setPend (s : State) (n : Nat) (b : Bool) : State := setBitF s (F.IRQ_PEND (n / 32)) (n % 32) b
def lineBit (s : State) (n : Nat) : Bool := bitF s (F.IRQ_LINE (n / 32)) (n % 32)
def insvc (s : State) (n : Nat) : Bool := bitF s (F.IRQ_INSVC (n / 32)) (n % 32)
def setInsvc (s : State) (n : Nat) (b : Bool) : State := setBitF s (F.IRQ_INSVC (n / 32)) (n % 32) b
def isEdge (s : State) (n : Nat) : Bool := isSet s (F.IRQ_SRC_EDGE n)

/-- The filtered line of a source takes a value: an edge source notes its rise, a level source pends while the line is 1 (R504). -/
def senseLine (s : State) (n : Nat) (level : Bool) : State :=
  let rise := level && !lineBit s n
  let s := setBitF s (F.IRQ_LINE (n / 32)) (n % 32) level
  if rise || (level && !isEdge s n) then setPend s n true else s

/-- A level source pends while its line is 1: so it does once it becomes one (R504). -/
def levelPends (s : State) (n : Nat) : State := if !isEdge s n && lineBit s n then setPend s n true else s

/-- A pulse of one always-on cycle on a source's line, which a longer filter does not pass. -/
def pulse (s : State) (n : Nat) : State := if getF s (F.IRQ_SRC_FILTER n) ≤ 1 then senseLine (senseLine s n true) n false else s

/-- An asserting edge sets a latch, which drives its source's line, unfiltered by its own (R512). -/
def latchEdge (s : State) (p : LatchPin) : State := senseLine (raise s (latchField p)) (latchSource p) true

/-- IRQ_FILTER_CHANGE: a line has held a new value for FILTER cycles. A line that a status bit or a latch drives has that bit's value; a reserved
source's stays 0. -/
def irqFilterChange (n : Nat) (level : Bool) (s : State) : State :=
  if 256 ≤ n then s
  else match sourceBit n with
    | some f => senseLine s n (isSet s f)
    | none => if pulseSource n then senseLine s n level else s

/-- Whether a requester may write the bits and the configuration of a source: the host only where it is routed to it (R503). -/
def mayWriteSource (s : State) (r : Requester) (n : Nat) : Bool := decide (r ≠ .host) || getF s (F.IRQ_SRC_TARGET n) == 4

/-- The sources of word `k` whose bits are 1 in `v`, as far as a requester may write them. -/
def wordSources (s : State) (r : Requester) (k v : Nat) : List Nat :=
  ((List.range 32).filter (bitOf v)).map (fun j => 32 * k + j) |>.filter (mayWriteSource s r)

/-- IRQ_PEND_SET. -/
def irqPendSet (r : Requester) (k v : Nat) (s : State) : State :=
  if 8 ≤ k then s else (wordSources s r k v).foldl (fun s n => setPend s n true) s

/-- IRQ_PEND_CLR: a level source whose line is 1 stays pending. -/
def irqPendClr (r : Requester) (k v : Nat) (s : State) : State :=
  if 8 ≤ k then s
  else (wordSources s r k v).foldl (fun s n => if !isEdge s n && lineBit s n then s else setPend s n false) s

/-- Writes of IRQ_EN_SET and IRQ_EN_CLR. -/
def irqEnable (r : Requester) (k v : Nat) (b : Bool) (s : State) : State :=
  if 8 ≤ k then s else (wordSources s r k v).foldl (fun s n => setBitF s (F.IRQ_EN (n / 32)) (n % 32) b) s

/-! ### Delivery (R506 to R510) -/

/-- A source is presented to target `t`. -/
def presented (s : State) (t n : Nat) : Bool :=
  pendBit s n && bitF s (F.IRQ_EN (n / 32)) (n % 32) && getF s (F.IRQ_SRC_TARGET n) == t && getF s (F.IRQ_SRC_PRIO n) != 0

/-- The sources in service at a steward, latest first, with their priorities. -/
def noStack (_ : Nat) : List (Nat × Nat) := []
def targetStack (s : State) (t : Nat) : List (Nat × Nat) := smapGet noStack s.irq.nested t

/-- A source is eligible at a target. -/
def eligible (s : State) (t n : Nat) : Bool :=
  presented s t n && decide (getF s (F.TGT_THRESH t) < getF s (F.IRQ_SRC_PRIO n)) && !insvc s n &&
    (t == 4 || decide (getF s (F.TGT_RUN_RUN t) < getF s (F.IRQ_SRC_PRIO n)))

/-- The eligible source of the highest priority, the lowest number among equals. -/
def bestSource (s : State) (t : Nat) : Option Nat :=
  ((List.range 256).filter (eligible s t)).foldl (fun b n =>
    match b with
    | some m => if getF s (F.IRQ_SRC_PRIO m) < getF s (F.IRQ_SRC_PRIO n) then some n else b
    | none => some n) none

/-- Moderation holds deliveries to a target. -/
def moderated (s : State) (t : Nat) : Bool := decide (devNow s < smapGet zeroNat s.irq.heldUntil t)

/-- A delivery to a target: it counts, and moderation begins (R508). -/
def delivered (s : State) (t : Nat) : State :=
  bump (setIrq s { s.irq with heldUntil := smapSet zeroNat s.irq.heldUntil t (devNow s + 1000 * getF s (F.TGT_MOD t)) }) (F.TGT_CNT_DELIVER t)

/-- Stores a target's stack, and shows it. -/
def setStack (s : State) (t : Nat) (l : List (Nat × Nat)) : State :=
  let s := setIrq s { s.irq with nested := smapSet noStack s.irq.nested t l }
  setF (setF s (F.TGT_RUN_DEPTH t) l.length) (F.TGT_RUN_RUN t) ((l.headD (0, 0)).2)

/-- The steward's interrupt input is asserted (R506): a source is eligible, and moderation does not hold it; a source of priority 15, and a steward that waits
for an interrupt, pass the hold (R508). -/
def inputAsserted (s : State) (t : Nat) : Bool :=
  match bestSource s t with
  | some n => !moderated s t || getF s (F.IRQ_SRC_PRIO n) == 15 || s.stw.waiting.contains t
  | none => false

/-- What a read of TGT_CLAIM returns, and does; a steward that claims does not wait. -/
def claimRead (s : State) (t : Nat) : Nat × State :=
  if 4 ≤ t then (0, s)
  else match bestSource s t with
    | none => (0, s)
    | some n =>
      let s := { s with stw := { s.stw with waiting := s.stw.waiting.filter (fun m => m != t) } }
      let s := setInsvc (setStack s t ((n, getF s (F.IRQ_SRC_PRIO n)) :: targetStack s t)) n true
      (256 + n, delivered (if isEdge s n then setPend s n false else s) t)

/-- CLAIM at steward target `t`. -/
def claim (t : Nat) (s : State) : State :=
  let (v, s) := claimRead s t
  emit s (.readDone (.steward t) (0x180204 + 0x20 * t) v)

/-- Notes whether steward `t` waits for an interrupt (R508). -/
def setWaits (s : State) (t : Nat) (w : Bool) : State :=
  let l := s.stw.waiting.filter (fun n => n != t)
  { s with stw := { s.stw with waiting := if w then l ++ [t] else l } }

/-- COMPLETE: a write of source `n` to TGT_COMPLETE of a steward target; `waits` says that its handler was the last, and that the steward then waits for an
interrupt. -/
def completeSource (t n : Nat) (waits : Bool) (s : State) : State :=
  if 4 ≤ t then s
  else match targetStack s t with
    | (m, _) :: l =>
      if m = n then
        let s := setInsvc (setStack s t l) n false
        if waits && l.isEmpty then setWaits s t true else s
      else bump s (F.TGT_CNT_BADCOMP t)
    | [] => bump s (F.TGT_CNT_BADCOMP t)

/-! ### MSI-X (R509 to R511) -/

/-- A message on a vector: sent, or noted in the pending array while it is masked. -/
def sendVector (s : State) (v : Nat) : State :=
  if s.irq.funcMask || isSet s (F.MSIX_CTL v) then setBitF s (F.MSIX_PBA (v / 32)) (v % 32) true
  else emit s (.msix (getF s (F.MSIX_ADDRESS v)) (getF s (F.MSIX_DATA v)) {})

/-- MSIX_SEND: the bridge sends one message, for a ring announcement that waits or else for the best eligible source. A hold lets only a source
of priority 15 pass; announcements on one vector become one message. -/
def msixSend (s : State) : State :=
  let hold := moderated s 4
  match s.adm.announce, hold with
  | r :: _, false =>
    let v := getF s (F.RING_CTL_VEC r)
    let s := { s with adm := { s.adm with announce := s.adm.announce.filter (fun q => getF s (F.RING_CTL_VEC q) != v) } }
    delivered (sendVector s v) 4
  | _, _ =>
    match bestSource s 4 with
    | none => s
    | some n =>
      if hold && getF s (F.IRQ_SRC_PRIO n) != 15 then s
      else
        let s := if isEdge s n then setPend s n false else setInsvc s n true
        delivered (sendVector s (getF s (F.IRQ_SRC_HOST_VEC n))) 4

/-- HOST_EOI: ends service of a level source routed to the host. -/
def hostEoi (n : Nat) (s : State) : State :=
  if 256 ≤ n || isEdge s n || getF s (F.IRQ_SRC_TARGET n) != 4 then s else setInsvc s n false

/-- MODERATION_EXPIRY. -/
def moderationExpiry (t : Nat) (s : State) : State :=
  if 5 ≤ t || moderated s t then s else setIrq s { s.irq with heldUntil := smapSet zeroNat s.irq.heldUntil t 0 }

/-- Sends the messages that wait for vectors that are not masked. -/
def flushVectors (s : State) : State :=
  if s.irq.funcMask then s
  else ((List.range 256).filter (fun v => bitF s (F.MSIX_PBA (v / 32)) (v % 32) && !isSet s (F.MSIX_CTL v))).foldl (fun s v =>
    sendVector (setBitF s (F.MSIX_PBA (v / 32)) (v % 32) false) v) s

/-- MSIX_MASK_WRITE: the mask of a vector, or with none the function mask, is written. -/
def msixMaskWrite (v : Option Nat) (mask : Bool) (s : State) : State :=
  match v with
  | some v => if 256 ≤ v then s else flushVectors (setBool s (F.MSIX_CTL v) mask)
  | none => flushVectors (setIrq s { s.irq with funcMask := mask })

end Sys2Proof.Machine
end

