-- ==== Sys2Proof/Machine/Frame.lean ====
section
/-! DEFINITION. Frames: the ends of a frame by flip or abort, replays, naming, loads, the drain check (R50 to R72, R118 to
R122, R155 to R185, R193 to R195). Each command's meaning is one of these functions of the state. -/
namespace Sys2Proof.Machine

/-- A cell that State does not list: as the tick left it, and, once the frame has run a cycle or has aborted, halted: its LEN is 0, so that its
first fetch executes HALT (R109, R153, R173). -/
def idleCell (s : State) (_ : Nat) : Cell := if s.frame.idleHalted then { seq := .halted } else {}

/-- Cell n, at row n / 64 and active column n % 64 (R41). -/
def getCell (s : State) (n : Nat) : Cell := smapGet (idleCell s) s.cells n

/-- Applies a function to every listed cell. -/
def mapCells (s : State) (f : Cell → Cell) : State :=
  { s with cells := (s.cells.map (fun p => (p.1, f p.2))).filter (fun p => decide (p.2 ≠ idleCell s p.1)) }

def setCell (s : State) (n : Nat) (c : Cell) : State := { s with cells := smapSet (idleCell s) s.cells n c }

/-- Says whether the cells that are not listed have halted in this frame, and applies a function to the listed ones. -/
def idleCells (s : State) (halted : Bool) (f : Cell → Cell) : State :=
  mapCells { s with frame := { s.frame with idleHalted := halted } } f

/-- What `n` ac of a droop stretch at frequency `f` cost: they are counted, and the array falls behind the plan by their length at that frequency;
past 1 µs the points are chosen again (R431, R432). -/
def stretchAc (n f : Nat) (s : State) : State :=
  if !s.pwr.droop then s
  else
    let lag := s.pwr.lag + (n : Rat) / f
    let s := setPwr (addF s F.PWR_DROOP_AC n) { s.pwr with droopAc := s.pwr.droopAc + n, lag := lag }
    if 1 < lag then planPoints s else s

/-- The array root clock runs `n` ac: the cycle-in-frame advances and holds at its top (R54); a casement load in progress counts them (R160, R161);
device time passes at the present frequency, halved by a droop stretch (R432). -/
def advanceAc (s : State) (n : Nat) : State :=
  let c := getF s F.TICK_CIF_CIF + n
  let s := if cifMax ≤ c then raise (setF s F.TICK_CIF_CIF cifMax) F.TICK_STAT_CIF_HELD else setF s F.TICK_CIF_CIF c
  let f := opMhz (getF s F.PWR_OP_CUR)
  let s := if isSet s F.CFG_STAT_LOADING then addF s F.CFG_LOAD_AC_CUR_AC n else s
  let t := s.frame.acRest + (if s.pwr.droop then 2000 else 1000) * n
  stretchAc n f (setFrame (setF s F.TICK_DT (devNow s + t / f)) { s.frame with acRest := t % f })

/-! ### The two sides -/

def liveCase (s : State) : Nat := getF s F.ARR_STAT_LIVE_CASEMENT
def livePane (s : State) : Nat := getF s F.ARR_STAT_LIVE_PANE
def idleCase (s : State) : Nat := 1 - liveCase s
def idlePane (s : State) : Nat := 1 - livePane s
def noCasement (_ : Nat) : CasementContent := {}
def noPane (_ : Nat) : PaneContent := {}
def casement (s : State) (n : Nat) : CasementContent := smapGet noCasement s.frame.casements n
def pane (s : State) (n : Nat) : PaneContent := smapGet noPane s.frame.panes n
def setCasement (s : State) (n : Nat) (c : CasementContent) : State :=
  setFrame s { s.frame with casements := smapSet noCasement s.frame.casements n c }
def setPane (s : State) (n : Nat) (p : PaneContent) : State := setFrame s { s.frame with panes := smapSet noPane s.frame.panes n p }

/-- The number of the column map that loads use: the new one while a retirement is pending (R121). -/
def loadGen (s : State) : Nat := s.frame.mapGen + (if isSet s F.ARR_RETIRE_PEND then 1 else 0)

/-- Sets every LEN of a casement to 0. -/
def clearLens (s : State) (n : Nat) : State := mapCells s (fun c => if n = 0 then { c with len0 := 0 } else { c with len1 := 0 })

/-- The physical banks of a pane hold keys from here on, 2,048 words. -/
def paneBase (n : Nat) : Nat := 2048 * n

/-- Clears every loaded bit of a pane (R155). -/
def clearLoaded (s : State) (n : Nat) : State :=
  mapCells s (fun c => { c with valid := c.valid.filter (fun p => !(decide (paneBase n ≤ p.1) && decide (p.1 < paneBase n + 2048))) })

def caseIs (s : State) (n : Nat) (x : Naming) (gen : Nat) : Bool :=
  let c := casement s n
  c.complete && c.cfg.configId == x.configId && c.cfg.modelId == x.model && c.cfg.epoch == x.epoch && c.mapGen == gen

def paneIs (s : State) (n : Nat) (x : Naming) (layout gen : Nat) : Bool :=
  let p := pane s n
  p.complete && p.model == x.model && p.epoch == x.epoch && p.layout == layout && p.mapGen == gen

def namedLayout (s : State) (x : Naming) : Nat := ((recFind s.mem x.model x.epoch).map (fun r => r.layout)).getD 0

/-- Whether the idle side is ready for the naming in force (R163); while a retirement is pending, only a full load makes it so (R121). -/
def idleReadyNow (s : State) : Bool :=
  match s.frame.named with
  | none => false
  | some x =>
    (!isSet s F.ARR_RETIRE_PEND || (isSet s F.CFG_NEXT_CASEMENT_FLIP && isSet s F.CFG_NEXT_PANE_FLIP)) &&
    (!isSet s F.CFG_NEXT_CASEMENT_FLIP || caseIs s (idleCase s) x (loadGen s)) &&
    (!isSet s F.CFG_NEXT_PANE_FLIP || paneIs s (idlePane s) x (namedLayout s x) (loadGen s))

/-- Clears the idle problem table, with what is kept beside it. -/
def clearIdleTable (s : State) : State :=
  setFrame s { s.frame with idleProblems := [], idleReqs := [], idleAreas := [], idleSealed := false }

/-- Shows the readiness of the idle side. -/
def updateReady (s : State) : State :=
  let r := idleReadyNow s
  let s := if r && !isSet s F.CFG_STAT_IDLE_READY then raise s F.CFG_STAT_LOAD_DONE else s
  setBool s F.CFG_STAT_IDLE_READY r

/-! ### Naming (R162, R194, R195, R299) -/

/-- Whether a mode serves requests (R180). -/
def servesRequests (m : Nat) : Bool := m == 0 || m == 1 || m == 3

/-- Whether a pending mode change may apply at the tick that opens frame `n` (R183). In a span the change applies at one tick everywhere, so that
the requests of one member hold it no longer once it is announced; a frame that a decision makes some members replay, others skip or run again
empty, puts it off for all (DESIGN CHOICE, log entry 109). -/
def changeDue (s : State) (n : Nat) : Bool :=
  isSet s F.CFG_MODE_STAT_PEND && !s.frame.modeHeld && decide (s.frame.modeAskedAt + 2 ≤ n) && !s.frame.lastAborted && !s.frame.replayPending &&
  !s.span.decideWait && s.span.skip == 0 && s.span.rerunEmpty == 0 &&
  (inSpan s || servesRequests (getF s F.CFG_MODE_STAT_TARGET) || s.adm.reqs.isEmpty)

/-- The frames between the present one and the one that a naming is for: once the present frame has flipped, the next frame is
settled, and the planner names what the frame after it runs (R162, R167). -/
def namingAhead (s : State) : Nat := if s.frame.nextRuns then 1 else 0

/-- From the effective tick of a member's loss on, no span model runs (R376, R378). -/
def spanBarred (s : State) (r : EpochRec) : Bool :=
  r.span && (match s.span.lossAt with
    | some t => decide (t ≤ frameNow s + 1 + namingAhead s)
    | none => false)

/-- Shards that this member keeps in Near (R283, R307). -/
def keptShard (s : State) (r : EpochRec) (h : ShardRec) : Bool :=
  !r.span || (decide (h.tfirst ≤ ownOrd s) && decide (ownOrd s ≤ h.tlast))

/-- Whether this member keeps the shard that holds an object. -/
def keepsObject (s : State) (r : EpochRec) (o : ObjRec) : Bool := keptShard s r (r.shards.getD o.shard {})

/-- The configurations that this member can check: those whose parts it keeps (R307 step 5). -/
def keptConfigs (s : State) (r : EpochRec) : List Nat :=
  (epochConfigs r).filter (fun c => (r.objects.filter (fun o => o.kind != 3 && o.configId == c)).all (keepsObject s r))

/-- The problem words of a fold frame fit its configuration: no more than its slots, no extent above the planned one (R191, R195, R201). -/
def tilesOk (c : LoadedConfig) (tiles : List (List Nat)) : Bool :=
  decide (tiles.length ≤ c.pslots) &&
  tiles.all (fun e => (List.range 4).all (fun d => decide (e.getD d 0 ≤ c.planned.getD d 0)) && decide (e.length ≤ 4))

/-- Whether the entry that plan index `idx` carries takes requests of a model. -/
def indexTakes (s : State) (model idx : Nat) : Bool := takesModel (entryAt s (frameOfIdx s idx) idx) model

/-- The first plan index after `n` that does. -/
def nextTaking (s : State) (model n : Nat) : Nat :=
  n + 1 + ((List.range 4096).find? (fun k => indexTakes s model (n + 1 + k))).getD 0

/-- What the next frame runs under the plan, or, after the flip, the one after it. -/
def planNaming (s : State) (fold : Option FoldAsk) : Option Naming :=
  let n := s.adm.nextIdx + namingAhead s
  let m := getF s F.CFG_MODE
  if changeDue s (frameNow s + 1 + namingAhead s) then none
  else match fold with
    | some x =>
      if (planFrameEntry s.adm.plan n).kind = 2 || m = 2 || m = 4 then
        match recFind s.mem x.naming.model x.naming.epoch with
        | some r =>
          if (entryOf s.mem x.naming.model x.naming.epoch).near && !(entryOf s.mem x.naming.model x.naming.epoch).unusable &&
            (nameableConfigs s r).any (fun c => c.configId == x.naming.configId && c.fold && tilesOk c x.tiles) then some x.naming else none
        | none => none
      else none
    | none =>
      match planAt s n with
      | some pf =>
        let e := entryOf s.mem pf.model pf.epoch
        match recFind s.mem pf.model pf.epoch with
        | some r =>
          if e.near && !e.unusable && !spanBarred s r && indexTakes s pf.model n then
            (chooseConfig (boundReqs s n).length ((nameableConfigs s r).filter (fun c => !c.fold))).map (fun c => ⟨pf.model, pf.epoch, c.configId⟩)
          else none
        | none => none
      | none => none

/-- Shows whether the next frame is named empty: it is not once a flip or an abort has settled that it runs. -/
def showEmpty (s : State) : State :=
  setBool s F.CFG_NEXT_EMPTY (s.frame.named.isNone && !s.frame.nextRuns && !s.frame.replayPending)

/-- Begins the loads that a naming calls for (R121, R155, R162). -/
def startLoads (s : State) (x : Naming) : State :=
  let force := isSet s F.ARR_RETIRE_PEND
  let lay := namedLayout s x
  let cf := force || !caseIs s (liveCase s) x (casement s (liveCase s)).mapGen
  let pf := force || !paneIs s (livePane s) x lay (pane s (livePane s)).mapGen
  let s := setBool (setBool (setFrame s { s.frame with paneLost := [] }) F.CFG_NEXT_CASEMENT_FLIP cf) F.CFG_NEXT_PANE_FLIP pf
  let s := if cf then
      setF (raise (clearLens (setCasement s (idleCase s) { mapGen := loadGen s }) (idleCase s)) F.CFG_STAT_LOADING) F.CFG_LOAD_AC_CUR_AC 0
    else s
  if pf && !paneIs s (idlePane s) x lay (loadGen s) then
    let p := pane s (idlePane s)
    let keep := p.model == x.model && p.epoch == x.epoch && p.layout == lay && p.mapGen == loadGen s
    let s := if keep then s else clearLoaded s (idlePane s)
    raise (setPane s (idlePane s) { model := x.model, epoch := x.epoch, layout := lay, complete := false, mapGen := loadGen s }) F.CFG_STAT_PANE_LOADING
  else s

/-- Stops a load in progress. -/
def stopLoads (s : State) : State :=
  let s := if isSet s F.CFG_STAT_LOADING then clearLens (setCasement s (idleCase s) {}) (idleCase s) else s
  setF (lower (lower s F.CFG_STAT_LOADING) F.CFG_STAT_PANE_LOADING) F.CFG_LOAD_AC_CUR_AC 0

/-- Whether the loads of the naming in force have to begin again: none is in progress, the idle side is not ready, and either the naming
is for a later frame than the one for which a load was rejected, or a column retirement makes the content that was loaded count as absent
(R121, R159, R162). -/
def loadsLapsed (s : State) : Bool :=
  s.frame.named.isSome && !isSet s F.CFG_STAT_LOADING && !isSet s F.CFG_STAT_PANE_LOADING && !idleReadyNow s &&
    (isSet s F.ARR_RETIRE_PEND || decide (s.frame.namedAt < frameNow s))

/-- Puts a naming in force. One equal to that in force changes nothing (R162), unless its loads have to begin again. -/
def applyNaming (s : State) (x? : Option Naming) : State :=
  let s := if x?.isSome then leaveIdle s else s
  if s.frame.named = x? && !loadsLapsed s then s
  else
    let s := stopLoads (setFrame s { s.frame with named := x?, namedAt := frameNow s })
    match x? with
    | none =>
      let s := if s.frame.hasLive then s else clearIdleTable s
      let s := lower (lower (showEmpty s) F.CFG_NEXT_CASEMENT_FLIP) F.CFG_NEXT_PANE_FLIP
      updateReady (setF (setF s F.CFG_IDLE_ID 0) F.CFG_IDLE_MODEL 0)
    | some x =>
      let s := setF (setF s F.CFG_IDLE_ID x.configId) F.CFG_IDLE_MODEL x.model
      updateReady (startLoads (showEmpty s) x)

/-- A problem word bound to item `i` of the request in position `p` (R192). -/
def problemWord (e : List Nat) (i p : Nat) : Problem := { valid := true, e := e, item := i, rpos := p }

/-- FRAME_NAMING: the planner names what the next frame runs, or after the flip the one after it, whose loads go into the side that has just
become idle (R162, R167). After an abort, before a replay, and while a decision is awaited, the idle
side keeps what it holds (R173, R174, R177). Once the table of the next frame is sealed, its naming stands, or falls: a frame that nothing had named by
then will be empty, and its requests are bound to a later one (R193). -/
def frameNaming (fold : Option FoldAsk) (s : State) : State :=
  if !isSet s F.TICK_STAT_RUNNING || s.frame.lastAborted || s.frame.replayPending || s.span.decideWait then s
  else
    let x := planNaming s fold
    let x := if s.frame.idleSealed && x.isSome then s.frame.named else x
    let s := applyNaming s x
    match fold with
    | some a => if x = some a.naming && !s.frame.idleSealed then
        setFrame s { s.frame with idleProblems := a.tiles.mapIdx (fun i e => problemWord e 0 i), idleReqs := [], idleAreas := [] } else s
    | none => s

/-- A naming in force that the planner could not make any more, after a change of mode, of period or of plan, is dropped (R53, R158). -/
def renewNaming (s : State) : State :=
  match s.frame.named with
  | none => updateReady s
  | some x =>
    let e := entryOf s.mem x.model x.epoch
    let ok := match recFind s.mem x.model x.epoch with
      | some r => !e.unusable && (nameableConfigs s r).any (fun k => k.configId == x.configId)
      | none => false
    if ok then updateReady s else applyNaming s none

/-- A side that has flipped, or whose replay is to come, and may not run: its frame will be empty (R53, R376). -/
def dropFlipped (s : State) : State :=
  showEmpty (setFrame s { s.frame with
    nextRuns := false, replayPending := false, firstAbort := none, replays := 0, liveProblems := [], liveReqs := [], liveAreas := [] })

/-! ### Loads (R155, R157 to R163, R185) -/

/-- A rejection: its count, and the capture while REJECT reads 0 (R185). -/
def rejectConfig (s : State) (f : CheckFail) (cid : Nat) : State :=
  let s := capture s [F.CFG_STAT_REJECT]
    [(F.CFG_REJ_INFO_REASON, f.reason), (F.CFG_REJ_INFO_CELL, f.cell), (F.CFG_REJ_INFO_WORD, f.word), (F.CFG_REJ_ID, cid)]
  bump (raise s F.CFG_STAT_REJECT) F.CFG_CNT_REJECT

/-- Writes the pattern words and LENs of a configuration into a casement (R152, R153). -/
def writeCasement (s : State) (n : Nat) (rd : Nat → Nat) : State :=
  let recs := patRecords rd
  let covered := (List.range 4096).filter (fun cell => decide (0 < cellLen recs cell))
  covered.foldl (fun s cell =>
    let c := getCell s cell
    let c := { c with pat := (cellWords rd recs cell).foldl (fun m (t : Nat × Word64 × Nat) => smapSet zeroWord64 m (1024 * n + t.1) t.2.1) c.pat }
    setCell s cell (if n = 0 then { c with len0 := cellLen recs cell } else { c with len1 := cellLen recs cell })) s

/-- A load has ended: one that completes in a sample cycle counts as complete in that sample (R166). -/
def sampleReady (s : State) : State :=
  let s := updateReady s
  let now := getF s F.TICK_CIF_CIF
  setFrame s { s.frame with samples := s.frame.samples.map (fun x => if x.at_ = now then { x with ready := idleReadyNow s } else x) }

/-- CASEMENT_LOAD_DONE: the load ends; its checks repeat those of R157 with the mode. A rejected one leaves the casement not
ready, and the requests of its frame fail with SECURITY (R159, R178). -/
def casementLoadDone (nearUe : Bool) (s : State) : State :=
  if !isSet s F.CFG_STAT_LOADING then s
  else match s.frame.named with
    | none => s
    | some x =>
      match recFind s.mem x.model x.epoch with
      | none => s
      | some r =>
        match cfgBytes s r x.configId with
        | none => s
        | some b =>
          let s := setF (lower s F.CFG_STAT_LOADING) F.CFG_LOAD_AC_CUR_AC 0
          match checkConfig b.rd (checkContext s r b.len b.west (some (getF s F.CFG_MODE)) nearUe) with
          | some f =>
            failWhere (rejectConfig s f x.configId) .security (fun q => q.frame == some (s.adm.nextIdx + namingAhead s))
          | none =>
            let s := writeCasement s (idleCase s) b.rd
            let s := setCasement s (idleCase s) { casement s (idleCase s) with cfg := loadedConfig b.rd x.epoch, complete := true }
            sampleReady (bump (setF s F.CFG_LOAD_AC_LAST_AC (loadLengthAc (patRecords b.rd))) F.CFG_CNT_LOAD)

/-- Writes the pane words that a configuration's pane map names (R154, R155). -/
def writePane (s : State) (n : Nat) (r : EpochRec) (rd : Nat → Nat) : State :=
  (paneEntries rd).foldl (fun s e =>
    let h := r.shards.getD e.1.shard {}
    let cell := 64 * e.1.row + e.1.col
    let c := (List.range e.1.count).foldl (fun c j =>
      let w : Word256 := BitVec.ofNat 256 (leRead (shardByte s h) (32 * (e.1.soff + j)) 32)
      sramStore c (paneBase n + e.1.pword + j) w) (getCell s cell)
    setCell s cell c) s

/-- Words that a BANK_CONFLICT has cost the pane load: their loaded bits stay clear, so that they read as zeros (R87, R155). -/
def dropPaneWords (s : State) (l : List (Nat × Nat)) : State :=
  l.foldl (fun s p =>
    let c := getCell s p.1
    setCell s p.1 { c with valid := smapSet noBit c.valid p.2 false }) s

/-- PANE_LOAD_DONE: every pane-map entry of the named configuration has been written, but for words lost to a BANK_CONFLICT. -/
def paneLoadDone (s : State) : State :=
  if !isSet s F.CFG_STAT_PANE_LOADING then s
  else match s.frame.named with
    | none => s
    | some x =>
      match recFind s.mem x.model x.epoch with
      | none => s
      | some r =>
        match cfgBytes s r x.configId with
        | none => s
        | some b =>
          let s := dropPaneWords (writePane s (idlePane s) r b.rd) s.frame.paneLost
          let s := setPane s (idlePane s) { pane s (idlePane s) with complete := true }
          sampleReady (lower s F.CFG_STAT_PANE_LOADING)

/-! ### The route table (R209 to R212) -/

/-- A routing-layer record at byte `o` of the route table (R209). -/
structure RouteRec where
  layer : Nat
  e : Nat
  k : Nat
  d : Nat
  halves : Bool
  gate : Nat
  tokdim : Nat
  c : Nat
  placeOff : Nat
  tallyOff : Nat
  zero : Bool
  deriving DecidableEq, Repr

def routeRec (rd : Nat → Nat) (i : Nat) : RouteRec :=
  let o := 16 + 32 * i
  let f := leRead rd (o + 5) 1
  { layer := leRead rd o 2, e := leRead rd (o + 2) 2, k := leRead rd (o + 4) 1, d := bitsOf f 1 0, halves := bitOf f 2, gate := bitsOf f 4 3,
    tokdim := bitsOf f 6 5, c := leRead rd (o + 6) 2, placeOff := leRead rd (o + 8) 4, tallyOff := leRead rd (o + 12) 4,
    zero := !bitOf f 7 && leRead rd (o + 16) 16 == 0 }

/-- Whether a route table of `len` bytes is valid (R211): `plan` is the model's entry in the service plan, whose TOKDIM and
tally comparisons are skipped where there is none (R158); `size` the span size. -/
def routeOk (rd : Nat → Nat) (len size : Nat) (plan : Option PlanModel) : Bool :=
  let n := leRead rd 4 2
  leRead rd 0 4 == 0x51395254 && decide (1 ≤ n) && decide (n ≤ 512) && leRead rd 6 10 == 0 && decide (16 + 32 * n ≤ len) &&
  (List.range n).all (fun i =>
    let r := routeRec rd i
    let place (j : Nat) : Nat := leRead rd (r.placeOff + 4 * j) 4
    r.layer == i && decide (1 ≤ r.e) && decide (r.e ≤ 4096) && decide (1 ≤ r.k) && decide (r.k ≤ 8) && decide (1 ≤ r.c) && decide (r.c ≤ 4095) &&
    decide (r.gate ≤ 1) && decide (r.k + r.d ≤ r.e) && r.zero && decide (r.placeOff + 4 * r.e ≤ len) &&
    (match plan with
     | some p => p.active.getD r.tokdim false && decide (r.tallyOff + 16 + 16 * r.e ≤ p.modelUnits * unitBytes)
     | none => true) &&
    (List.range r.e).all (fun j => decide (bitsOf (place j) 9 0 < size) && bitsOf (place j) 31 22 == 0) &&
    noRepeat ((List.range r.e).map (fun j => bitsOf (place j) 21 0)))

/-- The span size of the service plan: 1 outside a span. -/
def spanSize (s : State) : Nat := max 1 (getF s F.SPAN_ID_SIZE)

/-- The route table of an epoch, if it has one, as its length and a reader. -/
def routeBytes (s : State) (r : EpochRec) : Option CfgBytes :=
  (r.objects.find? (fun o => o.kind == 3)).map (fun o => ⟨o.len, o.len, fun a => shardByte s (r.shards.getD o.shard {}) (o.off + a)⟩)

/-- CHECK_ONLY_PASS: the stewards check a configuration of a resident epoch, or its route table (`cid` none); a failure makes
the model unusable (R158, R211). -/
def checkOnlyPass (model epoch : Nat) (cid : Option Nat) (nearUe : Bool) (s : State) : State :=
  match recFind s.mem model epoch with
  | none => s
  | some r =>
    if !r.shards.all (fun h => h.written || !keptShard s r h) then s
    else match cid with
      | some c =>
        match if (keptConfigs s r).contains c then cfgBytes s r c else none with
        | none => s
        | some b =>
          match checkConfig b.rd (checkContext s r b.len b.west none nearUe) with
          | some f => markUnusable (rejectConfig s f c) model epoch
          | none => setMem s (recUpd s.mem model epoch (fun r => { r with checked := if r.checked.contains c then r.checked else r.checked ++ [c] }))
      | none =>
        match if (r.objects.filter (fun o => o.kind == 3)).all (keepsObject s r) then routeBytes s r else none with
        | none => s
        | some b =>
          if !nearUe && routeOk b.rd b.len (spanSize s) (planModelFor s.adm.plan model) then
            setMem s (recUpd s.mem model epoch (fun r => { r with routeOk := true }))
          else markUnusable s model epoch

/-! ### The problem tables (R193) -/

/-- The plan indices to which frames move when that at index `n` moves on, and each of them makes room in turn. -/
def planMoves (s : State) : Nat → Nat → List (Nat × Nat)
  | 0, _ => []
  | k + 1, n => match planAt s n with
    | some pf => (n, nextTaking s pf.model n) :: planMoves s k (nextTaking s pf.model n)
    | none => []

/-- Makes plan index `n` free: the frame planned there moves to the next index whose entry takes its model, and the frames in its way do so too (R391). -/
def shiftPlan (s : State) (n : Nat) : State :=
  let moves := planMoves s (s.adm.frames.length + 1) n
  let mv (i : Nat) : Nat := ((moves.find? (fun m => m.1 == i)).map (fun m => m.2)).getD i
  { s with adm := { s.adm with
      frames := s.adm.frames.map (fun f => { f with idx := mv f.idx }),
      reqs := s.adm.reqs.map (fun r => if r.open then { r with frame := r.frame.map mv } else r) } }

/-- Re-plans the requests of plan index `n` from position `q` on: they get the next index that takes their model. -/
def moveExcess (s : State) (n q : Nat) : State :=
  let extra := ((boundReqs s n).drop q).map (fun r => r.aseq)
  match planAt s n with
  | some pf =>
    if extra.isEmpty then s
    else
      let j := nextTaking s pf.model n
      let s := shiftPlan (moveWhere s .schedule (fun r => extra.contains r.aseq)) j
      { s with adm := { s.adm with
          frames := s.adm.frames.map (fun f => if f.idx = n then { f with reqs := f.reqs.filter (fun a => !extra.contains a) } else f) ++
            [{ idx := j, model := pf.model, epoch := pf.epoch, reqs := extra }],
          reqs := s.adm.reqs.map (fun r => if extra.contains r.aseq then { r with frame := some j } else r) } }
  | none => s

/-- The configuration that the next frame is to run: while its load runs, as it stands in Near. -/
def nextCfg (s : State) : LoadedConfig :=
  if !isSet s F.CFG_NEXT_CASEMENT_FLIP then liveCfg s
  else if (casement s (idleCase s)).complete then (casement s (idleCase s)).cfg
  else match s.frame.named with
    | some x => match recFind s.mem x.model x.epoch with
      | some r => match cfgBytes s r x.configId with
        | some b => loadedConfig b.rd x.epoch
        | none => {}
      | none => {}
    | none => {}

/-- Seals the idle table: SPR words for each bound request, in admission order (R191 to R193, R214). -/
def sealTable (s : State) : State :=
  if s.frame.idleSealed then s
  else if s.frame.named.isNone || (nextCfg s).fold then setFrame s { s.frame with idleSealed := true }
  else
    let c := nextCfg s
    let n := s.adm.nextIdx
    let s := moveExcess s n (cfgCapacity c)
    let rs := boundReqs s n
    let words := (rs.mapIdx (fun p r => (List.range c.spr).map (fun i => problemWord ((List.range 4).map (extentOf r.d.shape)) i p))).flatten
    let pad := List.replicate (c.pslots - words.length) ({} : Problem)
    setFrame s { s.frame with
      idleProblems := words ++ pad
      idleReqs := rs.map (fun r => r.aseq)
      idleAreas := rs.map (fun r => ⟨r.d.client, r.d.stream, r.d.inAddr, r.d.inLen, r.d.outAddr, r.d.outLen⟩)
      idleSealed := true }

/-! ### Commit, flip, abort (R167 to R178) -/

/-- The open request in a position of the live table. -/
def liveReq (s : State) (p : Nat) : Option Req :=
  match s.frame.liveReqs[p]? with
  | some a => s.adm.reqs.find? (fun r => r.aseq == a && r.open)
  | none => none

/-- The problem word of a slot of the live table. -/
def liveProblem (s : State) (slot : Nat) : Problem := s.frame.liveProblems.getD slot {}

/-- The host address of an input word, or of an output word: of the area of the request in the entry's slot (R389). -/
def areaAddr (base : Nat) (t : Transfer) (j : Nat) : Nat := base + 32 * (t.ref + j)

/-- Releases the staged results of the frame to host memory (R168, R389). -/
def releaseResults (s : State) : State :=
  let c := liveCfg s
  s.frame.staged.foldl (fun s w =>
    let t := c.transfers.getD w.entry {}
    if t.engine != 1 then s
    else match liveReq s (liveProblem s t.slot).rpos with
      | some r => emit s (.hostWrite (areaAddr r.d.outAddr t w.word) (leBytes w.data.toNat 32) { relaxed := true })
      | none => s) s

/-- The results of the frame's requests are committed; their plan frame has run (R167, R175, R228, R399). One of zero extent takes its counts, and
completes at its promised tick (R207). -/
def commitReqs (s : State) (t : Stamp) : State :=
  let done := s.frame.liveReqs
  let upd (r : Req) : Req :=
    match done.findIdx? (fun a => a == r.aseq) with
    | some p =>
      let n := (s.frame.routeCounts.find? (fun k => k.rpos == p)).getD ⟨p, 0, 0, 0⟩
      if !r.open then r
      else if zeroExtent s r.d then { r with drops := satAdd 16 r.drops n.drops, diverts := satAdd 16 r.diverts n.diverts, nans := satAdd 16 r.nans n.nans }
      else
        let more := match s.frame.firstAbort with
          | some (c, st) => [(⟨false, c, st, false⟩ : ReqCause)]
          | none => []
        { r with committed := some t, commitFrame := frameNow s, causes := r.causes ++ more,
                 drops := satAdd 16 r.drops n.drops, diverts := satAdd 16 r.diverts n.diverts, nans := satAdd 16 r.nans n.nans }
    | none => r
  let s := setReqs s (s.adm.reqs.map upd)
  match s.adm.frameIdx with
  | some i => { s with adm := { s.adm with frames := s.adm.frames.filter (fun f => decide (f.idx ≠ i)) } }
  | none => s

/-- The least slack left among the frame's transfer windows, once known, is shown for the committed frame (R365). -/
def showSlack (s : State) : State :=
  match s.span.minSlack with
  | some (pct, ph) => setF (setF s F.SPAN_SLACK_MIN_PCT pct) F.SPAN_SLACK_PHASE ph
  | none => setF (setF s F.SPAN_SLACK_MIN_PCT 0xFF) F.SPAN_SLACK_PHASE 0

/-- The receive instances of span loads, which belong to no frame (R364). -/
def loadRecvs (s : State) : List RecvInst := s.span.recvs.filter (fun r => decide (65536 ≤ r.ref))

/-- Commit, 24 ac into the flip (R167, R168, R251). -/
def commitFrame (s : State) : State :=
  let t := stampNow s srcConfig
  let s := stampEvent s srcConfig .commit
  if s.frame.hasLive then
    let s := releaseResults s
    let s := commitReqs s t
    let s := setMem s (noteTallyFrame (commitRegions s.mem) (liveCfg s).modelId (frameNow s))
    let s := if isSet s F.SPAN_STAT_IN_SPAN then showSlack s else s
    setSpan (learnFrame s) { (learnFrame s).span with recvs := loadRecvs s, sends := [] }
  else s

/-- The registers that show the frame's phase starts (the TICK block). -/
def showPhases (s : State) : State :=
  (List.range 16).foldl (fun s k =>
    match s.frame.phaseStarts.find? (fun p => p.1 == k) with
    | some (_, c, h) => setBool (setF s (F.TICK_PHASE_START_CIF k) c) (F.TICK_PHASE_START_HELD k) h
    | none => lower (setF s (F.TICK_PHASE_START_CIF k) 0) (F.TICK_PHASE_START_HELD k)) s

/-- Adds a physical column to the excluded ones (R120). -/
def excludeColumn (s : State) (col : Nat) : State :=
  let s := if getF s F.ARR_COLMAP_EXCL0 = 0x7F then setF s F.ARR_COLMAP_EXCL0 col else setF s F.ARR_COLMAP_EXCL1 col
  setF s F.DEV_CAP0_SPARE_LEFT (getF s F.DEV_CAP0_SPARE_LEFT - 1)

/-- Begins a retirement (R121 step 1): a side that was ready without a full load is so no more. -/
def beginRetire (s : State) (col : Nat) : State := updateReady (setF (raise s F.ARR_RETIRE_PEND) F.ARR_RETIRE_COL col)

/-- A retirement takes effect at a flip whose new casement and pane were both loaded through the new map; a queued one then
begins (R121 steps 3 and 4). -/
def retireEffect (s : State) : State :=
  let g := s.frame.mapGen + 1
  if isSet s F.ARR_RETIRE_PEND && (casement s (liveCase s)).mapGen == g && (pane s (livePane s)).mapGen == g then
    let col := getF s F.ARR_RETIRE_COL
    let s := stampEvent (raise (excludeColumn s col) F.ARR_STAT_RETIRED) srcConfig (.columnRetired col)
    let s := setF (lower (setFrame s { s.frame with mapGen := g }) F.ARR_RETIRE_PEND) F.ARR_RETIRE_COL 0x7F
    if isSet s F.ARR_RETIRE_QPEND then
      beginRetire (setF (lower s F.ARR_RETIRE_QPEND) F.ARR_RETIRE_QCOL 0x7F) (getF s F.ARR_RETIRE_QCOL)
    else s
  else s

/-- The pointers change where the idle side is ready, and the problem tables are exchanged (R167, R178, R193). The table sealed for a frame that
could not start stays sealed, and moves with its frame. -/
def switchSides (s : State) (ready : Bool) : State :=
  let go := ready && s.frame.named.isSome
  let s :=
    if go then
      let s := if isSet s F.CFG_NEXT_CASEMENT_FLIP then setF s F.ARR_STAT_LIVE_CASEMENT (idleCase s) else s
      let s := if isSet s F.CFG_NEXT_PANE_FLIP then setF s F.ARR_STAT_LIVE_PANE (idlePane s) else s
      let s := retireEffect s
      let s := showFloor (setF (setF s F.CFG_LIVE_ID (liveCfg s).configId) F.CFG_LIVE_MODEL (liveCfg s).modelId)
      let s := setF (setF s F.CFG_IDLE_ID 0) F.CFG_IDLE_MODEL 0
      let s := lower (lower s F.CFG_NEXT_CASEMENT_FLIP) F.CFG_NEXT_PANE_FLIP
      setFrame (lower s F.CFG_STAT_IDLE_READY) { s.frame with named := none, nextRuns := true }
    else s
  let stays := !go && s.frame.named.isSome
  showEmpty (servePending (setFrame s { s.frame with
    liveProblems := if go then s.frame.idleProblems else [], liveReqs := if go then s.frame.idleReqs else [],
    liveAreas := if go then s.frame.idleAreas else [], idleProblems := if stays then s.frame.idleProblems else [],
    idleReqs := if stays then s.frame.idleReqs else [], idleAreas := if stays then s.frame.idleAreas else [],
    idleSealed := !go && s.frame.idleSealed }))

/-- The flip: 64 ac from the verdict (R167). -/
def flipFrame (s : State) (ready : Bool) : State :=
  let s := mapCells (advanceAc s 24) cellClearWritten
  let s := commitFrame s
  let s := mapCells (advanceAc s 32) cellFlipReset
  let s := switchSides s ready
  let t := stampNow s srcConfig
  let s := advanceAc (stampEvent s srcConfig .flip) 8
  let s := if s.frame.hasLive then sendReport (showPhases s) (ownReport s 0 .ok t) else s
  let s := setFrame s { s.frame with state := .tickWait, sched := liveLen s, samples := [], firstAbort := none, lastAborted := false }
  lower (lower (lower (raise s F.TICK_STAT_WAIT) F.CFG_STAT_IN_HOLD) F.ARR_STAT_RUNNING) F.TICK_CIF_DRAIN

/-- The plan moves on from a frame that will not be replayed (R175): its requests fail, its inputs and state are released, and
the pointers change at the end of the abort as at a flip, which R175 leaves to its step 4 (DESIGN CHOICE, log entry 55). -/
def replayFail (s : State) (c : Cause) (idx : Nat) (by_ : Option Stamp := none) : State :=
  let s := failWhere s c (fun r => r.frame == some idx) by_
  let s := raise (bump s F.CFG_CNT_REPLAY_FAIL) F.CFG_STAT_REPLAY_FAIL
  let s := { s with adm := { s.adm with nextIdx := idx + 1, frames := s.adm.frames.filter (fun f => decide (f.idx ≠ idx)) } }
  let s := setFrame s { s.frame with replayPending := false, firstAbort := none, replays := 0 }
  switchSides (setF s F.CFG_REPLAY 0) (isSet s F.CFG_STAT_IDLE_READY)

/-- The frame in which a decision was awaited has run nothing: it is an empty one (R179). -/
def endWaiting (s : State) : State :=
  if s.frame.waiting then
    let s := bump (raise s F.CFG_STAT_EMPTY) F.CFG_CNT_EMPTY
    setFrame s { s.frame with waiting := false, emptyRun := s.frame.emptyRun + 1 }
  else s

/-- Requests whose promised tick can no longer be met fail with MEMBER_LOSS (R376 step 4). -/
def failUnmet (s : State) (by_ : Option Stamp := none) : State :=
  failWhere s .memberLoss (fun r => match r.frame with
    | some i => !r.rerun && decide (r.promised < frameOfIdx s i + 1)
    | none => false) by_

/-- An aborted frame that a member's loss keeps from being replayed: its requests are planned one frame later (R376). -/
def dropFrame (s : State) (idx : Nat) : State :=
  let s := endWaiting s
  let s := shiftPlan { s with adm := { s.adm with nextIdx := idx + 1 } } idx
  let s := if s.span.lossAt.isSome then failUnmet s else s
  let s := setFrame (setSpan s { s.span with noReplay := false }) { s.frame with replayPending := false, firstAbort := none, replays := 0 }
  switchSides (setF s F.CFG_REPLAY 0) (isSet s F.CFG_STAT_IDLE_READY)

/-- What follows an abort of the frame with plan index `idx`: outside a span the replay or its limit (R174, R175), but no replay
on content that has been discarded meanwhile: its requests are planned and loaded again; in a span the master's decision
(R177, R370). -/
def afterAbort (s : State) (c : Cause) (idx : Nat) : State :=
  let s := { s with adm := { s.adm with nextIdx := idx } }
  let s := moveWhere s c (fun r => r.frame.isSome)
  if s.span.noReplay then dropFrame s idx
  else if inSpan s then setSpan s { s.span with decideWait := true }
  else if !(casement s (liveCase s)).complete || !(pane s (livePane s)).complete then
    setFrame (clearIdleTable s) { (clearIdleTable s).frame with firstAbort := none, replays := 0 }
  else if getF s F.CFG_REPLAY_CFG ≤ s.frame.replays then replayFail s c idx
  else showEmpty (setFrame s { s.frame with replayPending := true })

/-- The abort: 64 ac from the verdict, or from the tick after an overrun (R173). Nothing commits, the pointers are kept. -/
def abortFrame (s : State) (c : Cause) : State :=
  let s := idleCells (advanceAc s 24) true (fun x => cellClearWritten (cellAbort x))
  let s := setMem s (dropWritten s.mem)
  let s := setSpan s { s.span with sends := [] }
  let s := setFrame (advanceAc s 1) { (advanceAc s 1).frame with rowBus := [], staged := [], routeCounts := [], routes := [], tallyRun := [], outDone := 0 }
  let t := stampNow s srcConfig
  let s := stampEvent (bump (raise s F.CFG_STAT_ABORT) F.CFG_CNT_ABORT) srcConfig (.abort c)
  let s := advanceAc s 39
  let s := setFrame s { s.frame with
    state := .tickWait, sched := liveLen s, samples := [], lastAborted := true,
    firstAbort := match s.frame.firstAbort with
      | some x => some x
      | none => some (c, t) }
  let s := lower (lower (lower (raise s F.TICK_STAT_WAIT) F.CFG_STAT_IN_HOLD) F.ARR_STAT_RUNNING) F.TICK_CIF_DRAIN
  let s := match s.adm.frameIdx with
    | some i => afterAbort s c i
    | none => s
  servePending s

/-- An abort at the drain check, reported to the master at the verdict (R367). -/
def drainAbort (s : State) (c : Cause) : State :=
  let t := stampNow s srcConfig
  abortFrame (sendReport (countStamp s t) (ownReport s 1 c t)) c

/-! ### The drain check (R164 to R172) -/

/-- The sched of the verdict. -/
def schedOfVerdict (s : State) : Nat := liveLen s - 64

/-- INGRESS_SHUTTER_CLOSE: at L − D the shutter at array ingress closes (R164). -/
def ingressShutterClose (s : State) : State :=
  if s.frame.hasLive && (s.frame.state == .running || s.frame.state == .drainHold) && decide (liveLen s - liveDrain s ≤ s.frame.sched) then
    raise (setFrame s { s.frame with ingressClosed := true }) F.TICK_CIF_DRAIN
  else s

/-- Words that the outbound entries of the live configuration bring back (R165). -/
def outboundWords (c : LoadedConfig) : Nat := ((c.transfers.filter (fun t => !inboundEngine t.engine)).map (fun t => t.count)).sum

def condBit (n : Nat) (b : Bool) : Nat := if b then 2 ^ n else 0

/-- The conditions of R165. `edge` and `output` say what the port die's queues and the engines still hold outside the
model's sight. -/
def drainConds (s : State) (edge output : Bool) : Nat :=
  let any (p : Cell → Bool) : Bool := s.cells.any (fun c => p c.2)
  let lenOf (c : Cell) : Nat := if liveCase s = 0 then c.len0 else c.len1
  condBit 0 (any (fun c => cellNotHalted c && decide (0 < lenOf c))) + condBit 1 (any cellQueueBusy) + condBit 2 (any cellTokenBusy) +
  condBit 3 (any cellPassBusy) + condBit 4 (!s.frame.rowBus.isEmpty) + condBit 5 edge +
  condBit 6 (output || decide (s.frame.outDone < outboundWords (liveCfg s))) + condBit 7 (isSet s F.ARR_STAT_FRAME_FAULTED)

/-- DRAIN_SAMPLE: the check samples at L − 72 and, in a hold, in every ac (R166, R170); the first sample seals the next
frame's problem table (R193). -/
def drainSample (edge output : Bool) (s : State) : State :=
  let now := getF s F.TICK_CIF_CIF
  let due := s.frame.hasLive && ((s.frame.state == .running && s.frame.sched == liveLen s - 72) || s.frame.state == .drainHold) &&
    s.frame.samples.all (fun x => decide (x.at_ < now))
  if !due then s
  else
    let s := sealTable s
    setFrame s { s.frame with sampled := true, samples := s.frame.samples ++ [⟨drainConds s edge output, idleReadyNow s, now⟩] }

/-- The first verdict HOLD: a module that is its own tick master asks for the stretch that L + D needs (R172). -/
def enterHold (s : State) : State :=
  let s := lower (raise (setFrame s { s.frame with state := .drainHold, holdAc := 0 }) F.CFG_STAT_IN_HOLD) F.ARR_STAT_RUNNING
  let stop := devNow s + ceilDiv (1000 * (liveDrain s + 64)) (opMhz (getF s F.PWR_OP_CUR))
  if !inSpan s && decide (getF s F.TICK_NEXT < stop) then requestStretch s (stop - getF s F.TICK_NEXT) .drain else s

/-- A verdict on conditions `x`: PASS, HOLD or ABORT (R166, R171); HOLD at L − 64 + D counts as ABORT with cause DRAIN. -/
def verdict (s : State) (x : DrainSample) : State :=
  let s := if s.frame.verdictSeen then s else setFrame (setF s F.CFG_DRAIN_FIRST_COND x.conds) { s.frame with verdictSeen := true }
  let held := s.frame.state == .drainHold
  if bitOf x.conds 7 || bitOf x.conds 0 || bitOf x.conds 1 then
    let s := setF (setF s F.CFG_DRAIN_LAST_COND x.conds) F.CFG_HOLD_AC (if held then s.frame.holdAc else 0)
    drainAbort s (if bitOf x.conds 7 then .schedule else .drain)
  else if x.conds = 0 then
    let s := setF (setF s F.CFG_DRAIN_LAST_COND 0) F.CFG_HOLD_AC (if held then s.frame.holdAc else 0)
    let s := if held then bump (raise s F.CFG_STAT_HELD) F.CFG_CNT_HELD else s
    flipFrame s x.ready
  else if held && decide (liveDrain s ≤ s.frame.holdAc) then
    drainAbort (setF (setF s F.CFG_DRAIN_LAST_COND x.conds) F.CFG_HOLD_AC s.frame.holdAc) .drain
  else if held then s else enterHold s

/-- DRAIN_VERDICT: the verdict on the oldest sample, 8 ac after it (R166, R170, R171). -/
def drainVerdict (s : State) : State :=
  match s.frame.samples with
  | [] => s
  | x :: l =>
    let at_ := s.frame.hasLive && ((s.frame.state == .running && s.frame.sched == schedOfVerdict s) || s.frame.state == .drainHold)
    if at_ && decide (x.at_ + 8 ≤ getF s F.TICK_CIF_CIF) then verdict (setFrame s { s.frame with samples := l }) x else s

/-- DRAIN_HOLD_TIMEOUT: the verdict at L − 64 + D of a held frame counts as ABORT with cause DRAIN (R171). -/
def drainHoldTimeout (s : State) : State :=
  if s.frame.hasLive && s.frame.state == .drainHold && decide (liveDrain s ≤ s.frame.holdAc) then
    let x := s.frame.samples.headD ⟨getF s F.CFG_DRAIN_FIRST_COND, false, 0⟩
    drainAbort (setF (setF s F.CFG_DRAIN_LAST_COND x.conds) F.CFG_HOLD_AC s.frame.holdAc) .drain
  else s

/-- EMPTY_FRAME_FLIP: in an empty frame, an idle side that is ready 72 ac before the next tick is flipped to: its drain check passes at
once (R179). While a decision on an aborted frame is awaited there is no flip (R177). -/
def emptyFrameFlip (s : State) : State :=
  let time := devNow s + ceilDiv 72000 (opMhz (getF s F.PWR_OP_CUR))
  if isSet s F.TICK_STAT_RUNNING && !s.frame.hasLive && s.frame.state == .tickWait && !s.frame.nextRuns && !s.frame.replayPending && !s.span.decideWait &&
    idleReadyNow s && decide (time ≤ getF s F.TICK_NEXT) then
    let s := flipFrame (sealTable (advanceAc s 8)) true
    setF (setF (setF (setFrame s { s.frame with sched := 0 }) F.CFG_DRAIN_FIRST_COND 0) F.CFG_DRAIN_LAST_COND 0) F.CFG_HOLD_AC 0
  else s

/-! ### Column retirement (R121, R122) -/

/-- Spares that no retirement has claimed. -/
def unclaimed (s : State) : Nat :=
  getF s F.DEV_CAP0_SPARE_LEFT - (if isSet s F.ARR_RETIRE_PEND then 1 else 0) - (if isSet s F.ARR_RETIRE_QPEND then 1 else 0)

/-- A retirement is needed: it begins, is queued, or finds no spare: then the shutter closes and the accepted requests fail. -/
def needRetire (s : State) (col : Nat) : State :=
  if (isSet s F.ARR_RETIRE_PEND && getF s F.ARR_RETIRE_COL == col) || (isSet s F.ARR_RETIRE_QPEND && getF s F.ARR_RETIRE_QCOL == col) ||
    getF s F.ARR_COLMAP_EXCL0 == col || getF s F.ARR_COLMAP_EXCL1 == col then s
  else if unclaimed s = 0 then failWhere (raise s F.ADM_SHUT_SPARE) .capacity (fun _ => true)
  else if isSet s F.ARR_RETIRE_PEND then setF (raise s F.ARR_RETIRE_QPEND) F.ARR_RETIRE_QCOL col
  else beginRetire s col

/-- COLUMN_RETIREMENT: the stewards act on a cell's second uncorrectable error. -/
def columnRetirement (s : State) : State :=
  match s.frame.retireDue with
  | [] => s
  | c :: l => needRetire (setFrame s { s.frame with retireDue := l }) c

/-! ### The tick (R62, R69, R71, R72, R85, R176, R179, R441, R546) -/

/-- The grant that moved the tick that ends the present frame. -/
def endGrant (s : State) : Option StretchGrant :=
  match s.span.grant with
  | some g => if g.tick = frameNow s + 1 then some g else none
  | none => none

/-- Results of earlier commits become visible; those of a stretched frame take the grant's cause; a request of zero extent
commits at its promised tick (R71, R207, R399). -/
def endReqs (s : State) (g : Option StretchGrant) : State :=
  let f := frameNow s
  let t := stampNow s srcTick
  setReqs (countStamp s t) (s.adm.reqs.map (fun r =>
    if r.committed.isSome && !r.visible then
      let more := match g with
        | some g => if r.commitFrame = f then [(⟨false, g.cause, t, false⟩ : ReqCause)] else []
        | none => []
      { r with visible := true, causes := r.causes ++ more }
    else if r.open && zeroExtent s r.d && decide (r.promised ≤ f + 1) then
      { r with committed := some t, commitFrame := r.promised - 1, visible := true }
    else r))

/-- The registers that a stretched frame's end leaves (R69). -/
def endStretch (s : State) (g : Option StretchGrant) : State :=
  match g with
  | some g =>
    let s := bump (raise (lower s F.TICK_STAT_STRETCH_PEND) F.TICK_STAT_STRETCHED) F.TICK_CNT_STRETCH
    let s := setF (setF (setF s F.TICK_STRETCH_LAST_REQ_ORD g.ord) F.TICK_STRETCH_LAST_CAUSE g.cause.num) F.TICK_STRETCH_LAST_AMOUNT_US g.amountUs
    setF s F.TICK_STRETCH_NUM g.tick
  | none => s

/-- The end of narrowing at the end of a frame that was neither below its floor nor moved by a POWER grant (R430). -/
def endNarrow (s : State) : State :=
  let s := if isSet s F.PWR_STAT_NARROW && !s.pwr.belowFloor && !s.pwr.powerGrant then lower s F.PWR_STAT_NARROW else s
  setPwr s { s.pwr with belowFloor := false, powerGrant := false, guardMax := none, leadTo := none, sums := [] }

/-- The cause of an overrun (R72): of several, the one that R397 ranks highest (R10): DRAIN for a held flip and SCHEDULE for a faulted frame, of
which the hold came first; POWER for a frame that ran below its floor; LINK for one that a gate holds or has held; POWER for any other (DESIGN
CHOICE, log 94). -/
def overrunCause (s : State) : Cause :=
  if s.frame.state == .drainHold then .drain
  else if isSet s F.ARR_STAT_FRAME_FAULTED then .schedule
  else if s.pwr.belowFloor then .power
  else if s.frame.state == .gateHold || s.frame.gateHeld || s.frame.phaseStarts.any (fun p => p.2.2) then .link
  else .power

/-- The new frame's time and number: cycle-in-frame 0, the next tick one period on, cells reset (R54, R62, R85). -/
def openTick (s : State) : State :=
  let s := setF s F.TICK_NOW (frameNow s + 1)
  let s := setF s F.TICK_LAST (getF s F.TICK_NEXT)
  let s := setF s F.TICK_NEXT (getF s F.TICK_LAST + periodNs s)
  let s := lower (lower (setF s F.TICK_CIF_CIF 0) F.TICK_CIF_DRAIN) F.TICK_STAT_HOLD
  let s := lower (lower (setF s F.TICK_CIF_PHASE 0) F.ARR_STAT_FRAME_FAULTED) F.CFG_STAT_IN_HOLD
  let s := freshStamps (if s.frame.named.isNone then clearIdleTable s else s)
  let s := setSpan s { s.span with grant := none, granted := none, noticed := false, muted := false, rerunNow := false, minSlack := none }
  idleCells (pulse (stampEvent s srcTick .tick) 0x18) false cellTickReset

/-- Clears what belongs to one frame. -/
def freshFrame (s : State) : State :=
  setFrame s { s.frame with
    sched := 0, holdAc := 0, verdictSeen := false, samples := [], sampled := false, ingressClosed := false, rowBus := [], staged := [],
    outDone := 0, routeCounts := [], routes := [], tallyRun := [], phaseStarts := [], phaseAt := [], gateHeld := false, stretchSent := [], acRest := 0 }

/-- Opens a frame that runs the live configuration; `replay` and `skip` say what it is. -/
def openLive (s : State) (replay skip : Bool) : State :=
  let n := s.adm.nextIdx
  let early := s.frame.waiting
  let s := { s with adm := if skip then { s.adm with frameIdx := none } else { s.adm with frameIdx := some n, nextIdx := n + 1 } }
  let s := setFrame s { s.frame with
    state := .running, hasLive := true, waiting := false, nextRuns := skip && s.frame.nextRuns, replayPending := false, emptyRun := 0, lastAborted := false,
    firstAbort := if replay then s.frame.firstAbort else none, replays := if replay then s.frame.replays + 1 else 0 }
  let s := setF (setF s F.TICK_FRAME (liveLen s)) F.TICK_DRAIN (liveDrain s)
  let s := setBool (setF s F.CFG_REPLAY s.frame.replays) F.CFG_STAT_REPLAY replay
  let s := raise (lower s F.TICK_STAT_WAIT) F.ARR_STAT_RUNNING
  let s := setSpan s { s.span with recvs := if replay && (s.span.solo || early) then s.span.recvs else loadRecvs s, sends := [], solo := replay && s.span.solo }
  let s := clearPhases (setF s F.PWR_STAT_STATE 0)
  let s := if skip then markFaulted (setSpan s { s.span with muted := true }) (stampNow s srcTick)
    else if replay then s else setSpan s { s.span with soloRun := 0, skipping := false }
  planPoints s

/-- Opens an empty frame (R179); after IDLE_FRAMES of them the module is Idle (R441). -/
def openEmpty (s : State) : State :=
  let n := s.frame.emptyRun
  let s := setFrame s { s.frame with state := .tickWait, hasLive := false, emptyRun := n + 1, lastAborted := false }
  let s := lower (bump (raise s F.CFG_STAT_EMPTY) F.CFG_CNT_EMPTY) F.CFG_STAT_REPLAY
  let s := lower (raise s F.TICK_STAT_WAIT) F.ARR_STAT_RUNNING
  let s := setF s F.CFG_REPLAY 0
  let s := if s.frame.replayPending || s.span.decideWait then s else setFrame s { s.frame with replays := 0 }
  planPoints (if getF s F.PWR_RANGE_IDLE_FRAMES ≤ n then setF s F.PWR_STAT_STATE 1 else s)

/-- Opens a frame in which the decision on the aborted one is awaited: it runs the replay once the decision has come (R370). What arrives meanwhile
belongs to a replay with live exchange, and the stage of the aborted frame is kept for one alone (R371; DESIGN CHOICE, log entry 45). -/
def openWaiting (s : State) : State :=
  let s := { s with adm := { s.adm with frameIdx := none } }
  let s := setFrame s { s.frame with state := .tickWait, hasLive := false, lastAborted := false, waiting := true }
  let s := lower (lower (raise s F.TICK_STAT_WAIT) F.ARR_STAT_RUNNING) F.CFG_STAT_REPLAY
  let s := if s.span.held.isSome then s else setSpan s { s.span with held := some s.span.recvs, recvs := loadRecvs s }
  planPoints s

/-- An empty frame that carries a plan index: requests planned there are planned one frame later, with the cause of R178; a
planned frame without open requests has run. -/
def openUnready (s : State) (wasNarrow : Bool) : State :=
  let n := s.adm.nextIdx
  let s := { s with adm := { s.adm with frameIdx := some n, nextIdx := n + 1 } }
  let s := match planAt s n with
    | some _ =>
      if (boundReqs s n).isEmpty then
        { s with adm := { s.adm with frames := s.adm.frames.filter (fun f => decide (f.idx ≠ n)) }
                 frame := (clearIdleTable s).frame }
      else shiftPlan (moveWhere s (if wasNarrow then .power else .schedule) (fun r => r.frame == some n)) n
    | none => s
  openEmpty s

/-- Requests whose missed fetch leaves them no frame in time fail with CAPACITY (R267), or with SECURITY
where a digest scrub had discarded the epoch's copy. -/
def fetchMissCheck (s : State) : State :=
  (s.mem.jobs.filter (fun j => j.missed)).foldl (fun s j =>
    failWhere s (if j.security then .security else .capacity) (fun r => r.d.model == j.model && r.epoch == j.epoch && !r.rerun && decide (r.promised ≤ frameNow s + 2))) s

/-- Outside a span the end of an empty frame needs no report; in a span it is reported as EMPTY (R367). -/
def reportEmpty (s : State) : State := 
  if s.frame.hasLive || !inSpan s then s
  else
    let t := stampNow s srcTick
    sendReport (countStamp s t) (ownReport s 3 .ok t)

/-- The period that a mode gives: of its overlay, else of the base, else the present one (R181). -/
def modePeriod (s : State) (target : Nat) : Nat :=
  let ovl := ((s.modes.overlays.find? (fun o => o.1 == target)).map (fun o => o.2)).getD []
  (s.modes.base ++ ovl).foldl (fun p r =>
    let rd := listReader r.body
    let v := bitsOf (leRead rd 4 4) 13 0
    if r.type = 1 && leRead rd 0 4 == 0x10004 && decide (100 ≤ v) && decide (v ≤ 16000) then v else p) (getF s F.TICK_PERIOD_PERIOD_US)

/-- The notice of a change of period that a mode change brings (R50, R352): the master shows it and, in a span, tells the members. -/
def announcePeriod (s : State) (target n : Nat) : State :=
  let p := modePeriod s target
  if p = getF s F.TICK_PERIOD_PERIOD_US then s
  else
    let s := setF (setF s F.TICK_PERIOD_NEXT_US p) F.TICK_PERIOD_AT n
    if inSpan s then announceChange s srcConfig none 1 n p else s

/-- A pending mode change is announced for the second tick from now, with the change of period that it brings (R50, R182, R352). -/
def announceMode (s : State) : State :=
  let target := getF s F.CFG_MODE_STAT_TARGET
  let n := frameNow s + 2
  let s := setFrame s { s.frame with modeAskedAt := frameNow s, modeHeld := false }
  announcePeriod (if inSpan s then announceChange s srcConfig none 2 n target else s) target n

/-- What a tick does for a pending mode change: one that waits to be announced is, once the master's own requests have completed, and one that
cannot apply at this tick moves the tick that TICK_PERIOD_AT shows (R50, R183; DESIGN CHOICE, log entry 109). -/
def tickMode (s : State) : State :=
  if s.frame.modeHeld then (if s.adm.reqs.isEmpty then announceMode s else s)
  else if isSet s F.CFG_MODE_STAT_PEND && !changeDue s (frameNow s) && getF s F.TICK_PERIOD_NEXT_US != getF s F.TICK_PERIOD_PERIOD_US &&
    decide (getF s F.TICK_PERIOD_AT ≤ frameNow s) then setF s F.TICK_PERIOD_AT (frameNow s + 1)
  else s

/-- From the effective tick of a loss on, a span-model frame that had flipped before, or that waits for its replay, runs empty (R376, R378). -/
def barFlipped (s : State) : State :=
  let span := ((recFind s.mem (liveCfg s).modelId (liveCfg s).epoch).map (fun r => r.span)).getD false
  let due := match s.span.lossAt with
    | some t => decide (t ≤ frameNow s)
    | none => false
  if (s.frame.nextRuns || s.frame.replayPending) && span && due then dropFlipped s else s

/-- TICK: device time reaches the scheduled tick. The event of an overrun is stamped when the tick decides it, with the new tick number
and cycle-in-frame 0 (R76; DESIGN CHOICE, log 94). An ejected module opens no frame of its plan (R416). -/
def tick (s : State) : State :=
  if !isSet s F.TICK_STAT_RUNNING then s
  else
    let s := setF s F.TICK_DT (max (devNow s) (getF s F.TICK_NEXT))
    let short := s.frame.hasLive && s.frame.state != .tickWait
    let cause := overrunCause s
    let wasNarrow := s.pwr.belowFloor
    let g := endGrant s
    let report := ownReport s 2 cause {}
    let s := if short then setF s F.CFG_HOLD_AC (if s.frame.state == .drainHold then s.frame.holdAc else 0) else s
    let s := if short then s else reportEmpty s
    let s := endNarrow (endStretch (endReqs s g) g)
    let s := openTick s
    let s := if short then
        let t := stampNow s srcTick
        let s := stampEvent s srcTick (.overrun cause)
        let s := bump (raise s F.TICK_STAT_OVERRUN) F.TICK_CNT_OVERRUN
        sendReport (abortFrame s cause) { report with stamp := t }
      else s
    let s := setFrame (freshFrame s) { (freshFrame s).frame with prevAborted := s.frame.lastAborted }
    let s := barFlipped (tickMode (endWaiting s))
    let s := showEmpty <|
      if short || s.adm.ejecting then openEmpty { s with adm := { s.adm with frameIdx := none } }
      else if changeDue s (frameNow s) then openEmpty { s with adm := { s.adm with frameIdx := none } }
      else if s.span.decideWait then openWaiting s
      else if s.span.rerunEmpty ≠ 0 then
        openEmpty { s with adm := { s.adm with frameIdx := if s.span.rerunEmpty = 1 then s.span.rerunIdx else none }
                           span := { s.span with rerunEmpty := s.span.rerunEmpty - 1, rerunNow := s.span.rerunEmpty == 1 } }
      else if s.frame.replayPending then
        if frameNow s < s.span.replayAt then openEmpty { s with adm := { s.adm with frameIdx := none } } else openLive s true false
      else if s.span.skip ≠ 0 then
        let s := setSpan s { s.span with skip := s.span.skip - 1 }
        if s.frame.nextRuns then openLive s false true else openEmpty { s with adm := { s.adm with frameIdx := none } }
      else if s.frame.nextRuns then openLive s false false
      else openUnready s wasNarrow
    fetchMissCheck s

/-- CYCLE_IN_FRAME_SATURATION: the cycle-in-frame reaches its top and holds there (R54). -/
def cifSaturate (s : State) : State :=
  if isSet s F.TICK_STAT_RUNNING then raise (setF s F.TICK_CIF_CIF cifMax) F.TICK_STAT_CIF_HELD else s

/-- The configuration that the planner would name for the frame of a plan index (R194). -/
def plannedConfig (s : State) (idx : Nat) : Option LoadedConfig :=
  match planAt s idx with
  | none => none
  | some pf =>
    match recFind s.mem pf.model pf.epoch with
    | some r => if (entryOf s.mem pf.model pf.epoch).near
        then chooseConfig (boundReqs s idx).length ((nameableConfigs s r).filter (fun c => !c.fold)) else none
    | none => none

/-- Whether feasible configurations of its epoch still carry an accepted request by its promise: of the requests of its frame that
are ahead of it, each of the frames from its own on, and after the present one, takes as many as the largest of them holds (R53). A re-run has
no promise to keep (R408). -/
def carriedInTime (s : State) (q : Req) (idx : Nat) : Bool :=
  match feasibleRoom s q.d.model q.epoch with
  | none => true
  | some 0 => false
  | some room =>
    let pos := ((boundReqs s idx).filter (fun r => decide (r.aseq < q.aseq))).length
    q.rerun || decide (max (frameOfIdx s idx) (frameNow s + 1) + pos / room + 1 ≤ q.promised)

/-- Requests whose planned frame ran, before a change of mode or period, a configuration that the change makes infeasible, and that
no feasible one can carry by their promise, fail with CAPACITY; the planner serves the others with a feasible one (R53, R194). -/
def failInfeasible (before s : State) : State :=
  failWhere s .capacity (fun r => match r.frame with
    | some idx => (match plannedConfig before idx with
        | some c => !feasibleLen s (frameLen c.phases c.drainAc) && !carriedInTime s r idx
        | none => false)
    | none => false)

/-- After a change of mode or period no naming and no flipped side stands that may not run (R53, R158). -/
def dropExcluded (s : State) : State :=
  let s := renewNaming s
  if s.frame.nextRuns && !s.frame.hasLive && !nameable s (liveCfg s) then dropFlipped s else s

/-- A frame that has been opened, and has run no cycle, with a configuration that the new period makes infeasible is opened as an empty one: its
requests are planned one frame later, with the cause of R178 (R53; DESIGN CHOICE, log entry 94). -/
def reopenEmpty (s : State) : State :=
  if !s.frame.hasLive || s.frame.state == .tickWait || feasibleLen s (liveLen s) then s
  else
    let s := setFrame s { s.frame with liveProblems := [], liveReqs := [], liveAreas := [], firstAbort := none }
    showEmpty (match s.adm.frameIdx with
      | some n => openUnready { s with adm := { s.adm with nextIdx := n } } false
      | none => openEmpty s)

/-- PERIOD_CHANGE: at the tick that TICK_PERIOD_AT names, before the frame that it opens has run a cycle (the abort of an overrun takes the
first 64 ac after the tick), the announced period applies (R50, R53). One that a pending mode change brings applies with that change (R183). -/
def periodChange (s : State) : State :=
  if isSet s F.TICK_STAT_RUNNING && getF s F.TICK_PERIOD_NEXT_US != getF s F.TICK_PERIOD_PERIOD_US && getF s F.TICK_PERIOD_AT == frameNow s &&
    decide (getF s F.TICK_CIF_CIF ≤ 64) && s.frame.sched == 0 &&
    !(isSet s F.CFG_MODE_STAT_PEND && modePeriod s (getF s F.CFG_MODE_STAT_TARGET) == getF s F.TICK_PERIOD_NEXT_US) then
    let old := s
    let s := setF s F.TICK_PERIOD_PERIOD_US (getF s F.TICK_PERIOD_NEXT_US)
    planPoints (dropExcluded (reopenEmpty (failInfeasible old (setF s F.TICK_NEXT (getF s F.TICK_LAST + periodNs s)))))
  else s

end Sys2Proof.Machine
end

