-- ==== Sys2Proof/Machine/RouteStage.lean ====
section
/-! DEFINITION. The routing stage in a frame: the tokens of a half, their places and rows, the counts and the tally, and the combine (R213 to
R233, R363). -/
namespace Sys2Proof.Machine

def routeLayer (r : RouteRec) : RouteLayer :=
  { experts := r.e, k := r.k, d := r.d, c := r.c, halves := r.halves, softmax := decide (r.gate = 0) }

/-! ### The tally (R230) -/

/-- A 32-bit count at byte `o` of a region, as the frame in progress has it. -/
def runningCount (m : MemSt) (g : StateRegion) (o : Nat) : Nat :=
  leRead (fun a => (smapGet zeroByte m.near (regionAddr g (readHalf g a) a)).toNat) o 4

/-- Adds to a 32-bit saturating count at byte `o` of a model's tally region, in its uncommitted copy; its bytes may lie in two lines. -/
def tallyAdd (s : State) (model o n : Nat) : State :=
  match regionFind s.mem (.model model) with
  | some r =>
    if n = 0 then s
    else
      let v := satAdd 32 (runningCount s.mem r o) n
      let m := ((List.range 4).zip (leBytes v 4)).foldl (fun m p => regionStore m r.owner (o + p.1) [p.2]) s.mem
      setFrame (setMem s m) { s.frame with tallyRun := smapSet zeroNat s.frame.tallyRun o (smapGet zeroNat s.frame.tallyRun o + n) }
  | none => s

/-- The tally updates of one half (R230). -/
def tallyHalf (s : State) (model : Nat) (l : RouteLayer) (base : Nat) (ts : List RouteToken) (a : Assign) : State :=
  let nan := (ts.map (nanCount l)).sum
  let lost := (List.range ts.length).countP (fun t => decide (a.dropped.countP (fun d => decide (d.1 = t)) = l.k))
  let s := tallyAdd (tallyAdd (tallyAdd s model base nan) model (base + 4) ts.length) model (base + 8) lost
  let touched := (a.placed.map (fun p => p.expert) ++ a.overflow ++ a.dropped.map (fun d => d.2)).eraseDups
  touched.foldl (fun s e =>
    let o := base + 16 + 16 * e
    let s := tallyAdd s model o (a.placed.countP (fun p => decide (p.expert = e) && !p.fallback))
    let s := tallyAdd s model (o + 4) (a.placed.countP (fun p => decide (p.expert = e) && p.fallback))
    let s := tallyAdd s model (o + 8) (a.overflow.countP (fun f => decide (f = e)))
    tallyAdd s model (o + 12) (a.dropped.countP (fun d => decide (d.2 = e)))) s

/-- Adds a half's counts to those of its requests (R228). -/
def countHalf (l : RouteLayer) (ts : List RouteToken) (a : Assign) (cs : List RouteCounts) : List RouteCounts :=
  ((List.range ts.length).zip ts).foldl (fun cs it =>
    let (t, tok) := it
    let old := (cs.find? (fun c => c.rpos == tok.rpos)).getD ⟨tok.rpos, 0, 0, 0⟩
    let new : RouteCounts := { old with
      drops := satAdd 16 old.drops (a.dropped.countP (fun d => decide (d.1 = t))),
      diverts := satAdd 16 old.diverts (a.placed.countP (fun p => decide (p.token = t) && p.fallback)),
      nans := satAdd 16 old.nans (nanCount l tok) }
    cs.filter (fun c => decide (c.rpos ≠ tok.rpos)) ++ [new]) cs

/-! ### Tokens, halves and experts (R213 to R215, R363) -/

/-- The half in which a request position lies: half B from ⌈Q ÷ 2⌉ on, where the layer has two (R215). -/
def halfOf (c : LoadedConfig) (halves : Bool) (rpos : Nat) : Nat :=
  if halves && decide (ceilDiv (c.pslots / c.spr) 2 ≤ rpos) then 1 else 0

/-- The tokens that a half routes, in token order: the slots' order is that of position and item (R191, R213, R214). -/
def halfTokens (s : State) (r : RouteRec) (half : Nat) : List (Nat × Nat × Nat) :=
  (s.frame.liveProblems.filter (fun p => p.valid && halfOf (liveCfg s) r.halves p.rpos == half)).flatMap (fun p =>
    (List.range (p.e.getD r.tokdim 0)).map (fun i => (p.rpos, p.item, i)))

/-- What the cells give for each of those tokens: one score per expert and a row of `width` words; none where something is missing. -/
def gatherTokens (experts width : Nat) (l : List RouteToken) (keys : List (Nat × Nat × Nat)) : Option (List RouteToken) :=
  keys.mapM (fun k => l.find? (fun t => t.rpos == k.1 && t.item == k.2.1 && t.index == k.2.2 &&
    t.scores.length == experts && t.row.length == width))

/-- The experts in the order of the dispatch: for each step its destination's, in rising index (R363). -/
def expertOrder (s : State) (rd : Nat → Nat) (r : RouteRec) : List Nat :=
  let n := spanSize s
  (List.range n).flatMap (fun k => (List.range r.e).filter (fun e =>
    leRead rd (r.placeOff + 4 * e) 4 % 1024 == (getF s F.SPAN_ID_ORD + k) % n))

/-- The live epoch's record and its route table. -/
def liveRoute (s : State) : Option (EpochRec × CfgBytes) :=
  match recFind s.mem (liveCfg s).modelId (liveCfg s).epoch with
  | none => none
  | some r => (routeBytes s r).map (fun b => (r, b))

/-- How many schedule cycles a frame of the live configuration has run, at most. -/
def cyclesRun (s : State) (r : EpochRec) : Nat := smapGet zeroNat r.routeRun (liveCfg s).configId

/-- Whether the stage may serve step `k` of a layer now: at the schedule cycle at which an earlier frame of the configuration did; one that no
frame has yet served, only in a cycle that no earlier frame has run (R224). The spec does not say where a configuration holds these
cycles: the first frame that runs them shows it (DESIGN CHOICE, log entry 99). -/
def onCycle (s : State) (r : EpochRec) (layer k : Nat) : Bool :=
  match r.routeAt.find? (fun x => x.1 == ((liveCfg s).configId, layer, k)) with
  | some x => x.2 == s.frame.sched
  | none => decide (cyclesRun s r ≤ s.frame.sched)

def noteCycle (s : State) (r : EpochRec) (layer k : Nat) : State :=
  if r.routeAt.any (fun x => x.1 == ((liveCfg s).configId, layer, k)) then s
  else setMem s (recUpd s.mem r.model r.epoch (fun r => { r with routeAt := r.routeAt ++ [(((liveCfg s).configId, layer, k), s.frame.sched)] }))

/-! ### A half -/

/-- The routing stage serves one half of a layer of the live epoch, once in a frame and with what every routed token of the half needs;
otherwise the event is not possible. -/
def routeHalf (s : State) (x : RouteInput) : State :=
  match liveRoute s with
  | none => s
  | some (r, b) =>
    let rr := routeRec b.rd x.layer
    let l := routeLayer rr
    if leRead b.rd 4 2 ≤ x.layer || (if rr.halves then 2 else 1) ≤ x.half || !onCycle s r x.layer x.half ||
        s.frame.routes.any (fun y => y.layer == x.layer && y.half == x.half) then s
    else match gatherTokens l.experts x.width x.tokens (halfTokens s rr x.half) with
      | none => s
      | some ts =>
        let a := assignHalf l ts
        let gates := ts.map (fun t => gateWeights l.softmax ((primaryChoices l t).map (fun e => t.scores.getD e 0#32)))
        let order := expertOrder s b.rd rr
        let s := tallyHalf (noteCycle s r x.layer x.half) (liveCfg s).modelId l rr.tallyOff ts a
        setFrame s { s.frame with routeCounts := countHalf l ts a s.frame.routeCounts,
                                  routes := s.frame.routes ++ [⟨x.layer, x.half, l, order, ts, gates, a, dispatchRows l x.width order ts a, [], false⟩] }

/-- Whether the experts' outputs `outs` can be those of a half: one row for every place, all as wide as the tokens' residual rows, and for one expert
equal outputs wherever equal rows were sent: an output depends on the row and the expert, and on no place (R223, R225, R232). -/
def outsFit (y : RouteResult) (outs : List (List Word)) : Bool :=
  let w := (outs.headD []).length
  let sent := (y.rows.zip outs).mapIdx (fun i p => (y.order.getD (i / max 1 y.par.c) 0, p.1, p.2))
  outs.length == y.rows.length && outs.all (fun o => o.length == w) && y.tokens.all (fun t => t.res.length == w) &&
  noPair (fun (a b : Nat × List QWord × List Word) => a.1 == b.1 && a.2.1 == b.2.1 && a.2.2 != b.2.2) sent

/-- The half of a layer that a combine is for, while it has not taken place. -/
def awaits (x : CombineInput) (y : RouteResult) : Bool := y.layer == x.layer && y.half == x.half && !y.combined && outsFit y x.outs

/-- The output rows of a half's tokens, where the experts' outputs have come for every place. -/
def combineRoute (x : CombineInput) (y : RouteResult) : RouteResult :=
  if awaits x y then
    { y with combined := true, outs := ((List.range y.tokens.length).zip y.tokens).map (fun it =>
        combineToken it.2.res (tokenParts y.par y.order x.outs y.assign (y.gates.getD it.1 []) it.1)) }
  else y

/-- The combine of a half whose experts' outputs are back (R223). -/
def combineHalf (s : State) (x : CombineInput) : State :=
  match liveRoute s with
  | none => s
  | some (r, _) =>
    if !onCycle s r x.layer (2 + x.half) || !s.frame.routes.any (awaits x) then s
    else
      let s := noteCycle s r x.layer (2 + x.half)
      setFrame s { s.frame with routes := s.frame.routes.map (combineRoute x) }

/-- Every half of each layer that the frame has routed is routed and combined (R215, R223). -/
def stagesWhole (s : State) : Bool :=
  s.frame.routes.all (fun y => y.combined && (!y.par.halves || s.frame.routes.any (fun z => z.layer == y.layer && z.half != y.half)))

/-- Whether every routing and combine that the configuration has at this schedule cycle has taken place; before the verdict, whether what the
frame has begun to route is whole (R224). -/
def stagesServed (s : State) : Bool :=
  match liveRoute s with
  | none => true
  | some (r, _) => (s.frame.sched + 1 != schedOfVerdict s || stagesWhole s) && r.routeAt.all (fun x =>
      x.1.1 != (liveCfg s).configId || x.2 != s.frame.sched ||
      s.frame.routes.any (fun y => y.layer == x.1.2.1 && (y.half == x.1.2.2 || (y.half + 2 == x.1.2.2 && y.combined))))

/-- A schedule cycle of the live configuration has run. -/
def noteRun (s : State) : State :=
  match liveRoute s with
  | none => s
  | some (r, _) =>
    if s.frame.sched < cyclesRun s r then s
    else setMem s (recUpd s.mem r.model r.epoch (fun r => { r with routeRun := smapSet zeroNat r.routeRun (liveCfg s).configId (s.frame.sched + 1) }))

end Sys2Proof.Machine
end

