-- ==== Sys2Proof/Machine/Array.lean ====
section
/-! DEFINITION. SCHEDULE_CYCLE: one array cycle of the module: the phase gate, the row bus and its engines, masks, the cells
and their neighbours, array faults (R55 to R58, R84 to R119, R156, R201 to R203, R241, R253,
R389). -/
namespace Sys2Proof.Machine

/-! ### Faults (R89, R118, R121, R124) -/

/-- The physical column of an active column: the excluded ones are passed over (R120). -/
def physColumn (s : State) (col : Nat) : Nat :=
  ((List.range 66).filter (fun p => decide (p ≠ getF s F.ARR_COLMAP_EXCL0 ∧ p ≠ getF s F.ARR_COLMAP_EXCL1))).getD col 0

/-- Notes an uncorrectable error of a cell: the second within 63 frames of the first calls for its column's retirement. Once more than 63
frames lie between, the later error is a new first one (DESIGN CHOICE, log 96). -/
def noteUe (s : State) (cell : Nat) : State :=
  let f := frameNow s
  let col := physColumn s (cell % 64)
  let key := 66 * (cell / 64) + col
  match s.frame.ueFirst.find? (fun p => p.1 == key) with
  | some (_, g) =>
    let rest := s.frame.ueFirst.filter (fun p => decide (p.1 ≠ key))
    if f ≤ g + 63 then setFrame s { s.frame with ueFirst := rest, retireDue := s.frame.retireDue ++ [col] }
    else setFrame s { s.frame with ueFirst := rest ++ [(key, f)] }
  | none => setFrame s { s.frame with ueFirst := s.frame.ueFirst ++ [(key, f)] }

/-- An array fault of a cell: capture or count, stamp, the frame marked faulted. A fault that turns out to fall in the cycle of a clear loads the
capture and counts as no later one (R124). -/
def arrayFault (s : State) (cell : Nat) (k : ArrFault) (port : Nat) : State :=
  let later := isSet s F.ARR_STAT_FAULT
  let again := later && capturedNow s [F.ARR_STAT_FAULT]
  let s := capture s [F.ARR_STAT_FAULT]
    [(F.ARR_FCAP_TICK, frameNow s), (F.ARR_FCAP_CIF, getF s F.TICK_CIF_CIF), (F.ARR_FCAP_INFO_KIND, k.code), (F.ARR_FCAP_INFO_PORT, port),
     (F.ARR_FCAP_INFO_CELL, cell), (F.ARR_FAULT_EVT, getF s F.ARR_FAULT_EVT)]
  let s := if again then countLater s [F.ARR_STAT_FAULT] F.ARR_FAULT_EVT else if later then bump s F.ARR_FAULT_EVT else s
  let t := stampNow s cell
  let s := stampEvent s cell (.arrayFault k.code port)
  let s := if k = .sramUe ∨ k = .patternUe then noteUe s cell else s
  raise (markFaulted s t) F.ARR_STAT_FAULT

/-- A unit other than a cell marks the frame faulted in the same way. -/
def lateWord (s : State) (l : LateRead) : State :=
  let s := bump (memEvent s F.MEM_STAT_LATE_WORD 8 l.stack 0 1 l.addr) F.MEM_CNT_LATE_WORD
  markFaulted (stampEvent s (srcNear l.stack) (.lateWord l.stack)) (stampNow s (srcNear l.stack))

/-! ### Engines (R156, R201 to R203, R253, R389) -/

/-- What is kept of the request whose slot an entry names (R389). -/
def slotAreas (s : State) (t : Transfer) : Option SlotAreas :=
  let p := liveProblem s t.slot
  if p.valid then s.frame.liveAreas[p.rpos]? else none

/-- The region that a state entry of the live frame names, if there is one. -/
def entryRegion (s : State) (t : Transfer) : Option StateRegion :=
  if t.scope = 1 then regionFind s.mem (.model (liveCfg s).modelId)
  else match slotAreas s t with
    | some r => regionFind s.mem (.stream r.client r.stream)
    | none => none

/-- Whether word `j` of entry `i` is masked, by its mask record, its slot or the end of its area. -/
def wordMasked (s : State) (i : Nat) (t : Transfer) (j : Nat) : Bool :=
  let p := liveProblem s t.slot
  let byRecord := match (liveCfg s).masks.find? (fun m => m.entry == i) with
    | some m => !m.gen && decide ((if (liveProblem s m.slot).valid then (liveProblem s m.slot).e.getD m.dim 0 else 0) ≤ m.first + j / max 1 m.unit)
    | none => false
  let o := 32 * (t.ref + j)
  let byArea := match t.engine with
    | 0 => match slotAreas s t with
      | some r => decide (r.inLen < o + 32)
      | none => false
    | 1 => match slotAreas s t with
      | some r => decide (r.outLen < o + 32)
      | none => false
    | 2 => match entryRegion s t with
      | some r => decide (r.size < o + 32)
      | none => true
    | 3 => match entryRegion s t with
      | some r => decide (r.size < o + 32)
      | none => true
    | _ => false
  byRecord || byArea || (decide (t.engine ≤ 3) && t.scope == 0 && !p.valid)

/-- A generated mask word (R203). -/
def genWord (s : State) (m : MaskRec) (j : Nat) : Word256 :=
  let x := if (liveProblem s m.slot).valid then (liveProblem s m.slot).e.getD m.dim 0 else 0
  BitVec.ofNat 256 (((List.range 32).map (fun l => if m.first + 32 * j + l < x then 2 ^ (8 * l) else 0)).sum)

/-- The 32 B word that starts at byte `o` of a list of bytes. -/
def wordOf (l : List Byte) (o : Nat) : Word256 := BitVec.ofNat 256 (leRead (listReader l) o 32)

/-- The order in which the entries of one transfer instance are concatenated: START, then SIDE, ROW and LANE (R358). -/
def entryKey (t : Transfer) : Nat := ((t.start * 2 + t.side) * 64 + t.row) * 4 + t.lane

/-- The word of its transfer instance at which an entry's words begin (R358). -/
def entryBase (c : LoadedConfig) (t : Transfer) : Nat :=
  ((c.transfers.filter (fun u => u.ref == t.ref && u.engine == t.engine && decide (entryKey u < entryKey t))).map (fun u => u.count)).sum

/-- The line whose read is late (R246, R282): of a state load, the line of its region; of an input word, the line that the read names, or else that at
the start of the lowest stack in use of its side, as where the word has not come from host memory (DESIGN CHOICE, log entry 110). -/
def lateLine (s : State) (i : Nat) (t : Transfer) (j : Nat) (l : Option LateRead) : LateRead :=
  let n := (sideStacks s t.side).headD (4 * t.side)
  let any : LateRead := match l with
    | some l => if l.addr / 0xC00000000 = l.stack then l else ⟨i, n, n * 0xC00000000⟩
    | none => ⟨i, n, n * 0xC00000000⟩
  match (if t.engine = 2 then entryRegion s t else none) with
  | some r => let o := 32 * (t.ref + j) / 512
              ⟨i, r.stack, regionAddr r (lineHalf r o) (512 * o)⟩
  | none => any

/-- What an inbound engine delivers for word `j` of entry `i`, and the late read that it meets, if any. A GEN = 1 entry whose own slot
is empty delivers the generated word where its mask record's slot is bound (DESIGN CHOICE, log entry 110). -/
def inboundWord (s : State) (x : CycleInput) (i : Nat) (t : Transfer) (j : Nat) : Word256 × Option LateRead :=
  let late := x.late.find? (fun l => l.entry == i)
  match (liveCfg s).masks.find? (fun m => m.entry == i && m.gen) with
  | some m => (genWord s m j, none)
  | none =>
    if wordMasked s i t j then (0#256, none)
    else match late with
      | some l => (0#256, some (lateLine s i t j (some l)))
      | none =>
        match t.engine with
        | 0 => match ((match slotAreas s t with
            | some r => x.inputs.find? (fun p => p.1 == areaAddr r.inAddr t j)
            | none => x.tileWords.find? (fun p => p.1 == i)) : Option (Nat × Word256)) with
          | some p => (p.2, none)
          | none => (0#256, some (lateLine s i t j none))
        | 2 => match entryRegion s t with
          | some r => (BitVec.ofNat 256 (leRead (fun o => (regionByte s r o).toNat) (32 * (t.ref + j)) 32), none)
          | none => (0#256, none)
        | _ => match s.span.recvs.find? (fun r => r.ref == t.ref) with
          | some r =>
            let k := entryBase (liveCfg s) t + j
            let here := r.done || (!isSet s F.ARR_STAT_FRAME_FAULTED && decide (32 * (k + 1) ≤ r.bytes.length))
            (if here then wordOf r.bytes (32 * k) else 0#256, none)
          | none => (0#256, none)

/-- Distance of a column from a side's edge (R93). -/
def edgeDistance (side col : Nat) : Nat := if side = 0 then col else 63 - col

/-- The physical bank of a row-bus access: banks 0 to 3 read the live pane (R86, R156). -/
def rowBusBank (s : State) (lbank : Nat) : Nat := if lbank < 4 then lbank + 4 * livePane s else lbank

/-- The transfer entries, with their indices, that issue a word at this schedule cycle; inbound ones stop at L − D (R156, R164). -/
def issuingEntries (s : State) : List (Nat × Transfer) :=
  let n := s.frame.sched
  let closed := s.frame.ingressClosed || decide (liveLen s - liveDrain s ≤ n)
  ((liveCfg s).transfers.mapIdx (fun i t => (i, t))).filter (fun p =>
    decide (p.2.start ≤ n) && decide (n < p.2.start + p.2.count) && !(closed && inboundEngine p.2.engine))

/-- The access that an entry issues at this schedule cycle (R93). -/
def accessOf (s : State) (x : CycleInput) (i : Nat) (t : Transfer) : RowBusAccess :=
  let j := s.frame.sched - t.start
  let a := transferAddr t j
  let d := 2 + edgeDistance t.side t.col / 8
  let inbound := inboundEngine t.engine
  { inAc := d, backAc := d, cell := 64 * t.row + t.col, bank := rowBusBank s (a / 512), addr := a % 512, write := inbound,
    data := if inbound then (inboundWord s x i t j).1 else 0#256, entry := i, word := j }

/-- Issues the accesses that the transfer schedule places at this schedule cycle (R93, R156, R164). -/
def issueAccesses (s : State) (x : CycleInput) : State :=
  setFrame s { s.frame with rowBus := s.frame.rowBus ++ (issuingEntries s).map (fun p => accessOf s x p.1 p.2) }

/-- The late reads that the words of this schedule cycle meet (R241). -/
def lateReads (s : State) (x : CycleInput) : List LateRead :=
  (issuingEntries s).filterMap (fun p => if inboundEngine p.2.engine then (inboundWord s x p.1 p.2 (s.frame.sched - p.2.start)).2 else none)

/-- A word has come back to the edge: its engine takes it, or discards it where it is masked (R202, R253, R321). -/
def takeOutbound (s : State) (a : RowBusAccess) : State :=
  let t := (liveCfg s).transfers.getD a.entry {}
  let s := setFrame s { s.frame with outDone := s.frame.outDone + 1 }
  if wordMasked s a.entry t a.word then s
  else match t.engine with
    | 1 => setFrame s { s.frame with staged := s.frame.staged ++ [⟨a.entry, a.word, a.data⟩] }
    | 3 => match entryRegion s t with
      | some r => setMem s (regionStore s.mem r.owner (32 * (t.ref + a.word)) (leBytes a.data.toNat 32))
      | none => s
    | _ =>
      if s.span.solo then s
      else
        let w := (entryBase (liveCfg s) t + a.word, a.data)
        if s.span.sends.any (fun i => i.ref == t.ref) then
          setSpan s { s.span with sends := s.span.sends.map (fun i => if i.ref = t.ref then { i with words := i.words ++ [w] } else i) }
        else setSpan s { s.span with sends := s.span.sends ++ [{ ref := t.ref, words := [w] }] }

/-! ### One ac of the cells -/

/-- The errors that strike a cell in this ac. -/
def cellErrs (x : CycleInput) (n : Nat) : List (ErrPlace × Bool) :=
  (x.errs.filter (fun e => e.cell == n)).map (fun e => (e.place, e.correctable))

/-- A row-bus access at its cell, number `i` of those of this ac: it claims its port first; a read takes its word (R87, R89). The flag says
that a write is served. -/
def accessCell (x : CycleInput) (k : CellWork) (i : Nat) (a : RowBusAccess) : CellWork × RowBusAccess × Bool :=
  match claimPort k a.bank a.write portRowBus with
  | (false, k) => (k, { a with data := if a.write then a.data else 0#256 }, false)
  | (true, k) =>
    if a.write then (k, a, true)
    else
      let (q, k) := servedRead k (cellErrs x a.cell) (.rowBus i) (512 * a.bank + a.addr) portRowBus
      (k, { a with data := if q.null then 0#256 else q.data }, false)

/-- What has come of the cells so far in this ac: new cells, driven links (cell, input, signals), faults, error counts, the
accesses that have been at their cells, the pane words whose writes were excess, and the clusters' counts (R423). -/
structure ArrayWork where
  cells : List (Nat × Cell) := []
  links : List (Nat × Nat × Link) := []
  faults : List (Nat × ArrFault × Nat) := []
  ce : Nat := 0
  ue : Nat := 0
  reached : List RowBusAccess := []
  lost : List (Nat × Nat) := []
  counts : List (Nat × ClusterCount) := []
  deriving DecidableEq, Repr

/-- The cluster of a cell: 8 by 8 cells, numbered along the rows (R3; DESIGN CHOICE, log entry 68). -/
def clusterOf (n : Nat) : Nat := 8 * (n / 512) + n % 64 / 8

def noCount (_ : Nat) : ClusterCount := {}

/-- What a cell's ac adds to its cluster's counts: its MAC steps by FMT, VEC words, served SRAM accesses, and the `moved` words (R423). -/
def countCell (counts : List (Nat × ClusterCount)) (n : Nat) (k : CellWork) (moved : Nat) : List (Nat × ClusterCount) :=
  let c := smapGet noCount counts (clusterOf n)
  smapSet noCount counts (clusterOf n)
    { mac := if k.mac.isEmpty then c.mac else (List.range 16).map (fun f => c.mac.getD f 0 + k.mac.count f), vec := c.vec + k.vec,
      sram := c.sram + k.ports.reads.length + k.ports.writes.length, moved := c.moved + moved }

/-- The neighbour that output `d` of a cell drives, and its input: none at the edges, where lane 0 is discarded and rows 0 and
63 have no N and S side (R90, R92). -/
def neighbour (n d : Nat) : Option Nat :=
  let row := n / 64
  let col := n % 64
  match d with
  | 0 => if row = 0 then none else some (n - 64)
  | 1 => if col = 63 then none else some (n + 1)
  | 2 => if row = 63 then none else some (n + 64)
  | _ => if col = 0 then none else some (n - 1)

/-- The pane loaders' writes of this ac that reach cell `n`, into the idle pane while a pane load runs (R87, R92, R163). -/
def paneWritesAt (s : State) (x : CycleInput) (n : Nat) : List Nat :=
  if !isSet s F.CFG_STAT_PANE_LOADING then []
  else ((x.paneWrites.filter (fun p => p.1 == n)).map Prod.snd).filter (fun k =>
    decide (paneBase (idlePane s) ≤ k) && decide (k < paneBase (idlePane s) + 2048))

/-- The pane loaders' writes claim their ports, after the engines' accesses; those in excess are lost (R87). -/
def claimPane (k : CellWork) (l : List Nat) : CellWork × List Nat :=
  l.foldl (fun st key => match claimPort st.1 (key / 512) true portRowBus with
    | (true, k) => (k, st.2)
    | (false, k) => (k, st.2 ++ [key])) (k, [])

/-- Puts a number into a rising list that lacks it. -/
def insertRising (n : Nat) : List Nat → List Nat
  | [] => [n]
  | m :: l => if n < m then n :: m :: l else if n = m then m :: l else m :: insertRising n l

/-- An ac in which no word fires and no engine issues: the pane loaders go on, each write in excess of its cell's ports a BANK_CONFLICT (R87, R93). -/
def paneCycle (s : State) (x : CycleInput) : State :=
  let hit := ((x.paneWrites.map Prod.fst).filter (fun n => decide (n < 4096))).foldl (fun l n => insertRising n l) []
  let w := hit.map (fun n => (n, claimPane { cell := getCell s n } (paneWritesAt s x n)))
  let lost := w.flatMap (fun p => p.2.2.map (fun key => (p.1, key)))
  let faults := w.flatMap (fun p => p.2.1.faults.map (fun f => (p.1, f)))
  let s := setPwr s { s.pwr with counts := w.foldl (fun m p => countCell m p.1 p.2.1 (paneWritesAt s x p.1).length) s.pwr.counts }
  faults.foldl (fun s f => arrayFault s f.1 f.2.1 f.2.2) (setFrame s { s.frame with paneLost := s.frame.paneLost ++ lost })

/-- One cell's ac: its row-bus accesses, in the order in which they were issued (DESIGN CHOICE, log 96), then its own cycle; `hold` is a
drain hold. -/
def oneCell (s : State) (x : CycleInput) (phase : Nat) (hold : Bool) (accs : List RowBusAccess) (w : ArrayWork) (n : Nat) : ArrayWork :=
  let mine := accs.filter (fun a => a.cell == n)
  let start : CellWork := { cell := getCell s n }
  let r := (mine.mapIdx (fun i a => (i, a))).foldl (fun (st : CellWork × List RowBusAccess × List RowBusAccess) p =>
    let (k, a', served) := accessCell x st.1 p.1 p.2
    (k, st.2.1 ++ [a'], if served then st.2.2 ++ [a'] else st.2.2)) (start, [], [])
  let (k, lost) := claimPane r.1 (paneWritesAt s x n)
  let y := if hold then cellHoldCycle n k else cellCycle n phase (liveCase s) (livePane s) (cellErrs x n) k
  let cell := r.2.2.foldl (fun c a => sramStore c (512 * a.bank + a.addr) a.data) y.work.cell
  let out := ((List.range 4).zip y.outs).filterMap (fun p =>
    if p.2.dv || p.2.tv then (neighbour n p.1).map (fun m => (m, oppSide p.1, p.2)) else none)
  { cells := w.cells ++ [(n, cell)], links := w.links ++ out, faults := w.faults ++ y.work.faults.map (fun f => (n, f.1, f.2)),
    ce := w.ce + y.work.ce, ue := w.ue + y.work.ue, reached := w.reached ++ r.2.1, lost := w.lost ++ lost.map (fun key => (n, key)),
    counts := countCell w.counts n y.work (mine.length + (paneWritesAt s x n).length + (y.outs.filter (fun l => l.dv)).length) }

/-- Cells that this ac can change, in rising order, which is that of their stamps (R74): those that are listed, and those that an access
reaches. Every other cell halts, or has halted. -/
def busyCells (s : State) (x : CycleInput) (accs : List RowBusAccess) : List Nat :=
  (accs.map (fun a => a.cell) ++ (x.paneWrites.map Prod.fst).filter (fun n => decide (n < 4096))).foldl (fun l n => insertRising n l) (s.cells.map Prod.fst)

/-- One ac of the array: accesses arrive, cells run, neighbours are driven, words return to the edge. -/
def arrayCycle (s : State) (x : CycleInput) (phase : Nat) (hold : Bool) : State :=
  let here := s.frame.rowBus.filter (fun a => !a.back && a.inAc == 0)
  let home := s.frame.rowBus.filter (fun a => a.back && a.backAc == 0)
  let rest := (s.frame.rowBus.filter (fun a => !(!a.back && a.inAc == 0) && !(a.back && a.backAc == 0))).map (fun a =>
    if a.back then { a with backAc := a.backAc - 1 } else { a with inAc := a.inAc - 1 })
  let w := (busyCells s x here).foldl (oneCell s x phase hold here) { counts := s.pwr.counts }
  let s := setPwr s { s.pwr with counts := w.counts }
  let s := if hold then s else idleCells s true id
  let s := setFrame s { s.frame with paneLost := s.frame.paneLost ++ w.lost }
  let s := w.cells.foldl (fun s p => setCell s p.1 p.2) s
  let s := w.links.foldl (fun s l =>
    let c := getCell s l.1
    setCell s l.1 (setCellInput c l.2.1 { cellInput c l.2.1 with pass := l.2.2 })) s
  let s := if w.ce = 0 then s else raise (addF s F.ARR_CE_CNT w.ce) F.ARR_STAT_CE
  let s := if w.ue = 0 then s else raise (addF s F.ARR_UE_CNT w.ue) F.ARR_STAT_UE
  let s := w.faults.foldl (fun s f => arrayFault s f.1 f.2.1 f.2.2) s
  let back := (w.reached.filter (fun a => !a.write)).map (fun a => { a with back := true, backAc := a.backAc - 1 })
  let s := setFrame s { s.frame with rowBus := rest ++ back }
  home.foldl takeOutbound s

/-! ### The gate (R58, R67, R369) -/

/-- Receive entries of the live configuration that must be complete before phase `k` (R359). -/
def gateRefs (s : State) (k : Nat) : List Nat :=
  (((liveCfg s).transfers.filter (fun t => t.engine == 4)).map (fun t => t.ref)).filter (fun i =>
    let x := s.span.xfers.getD i 0
    decide (bitsOf x 89 86 < k))

/-- Whether phase `k` may begin. -/
def gateOpen (s : State) (k : Nat) : Bool :=
  !inSpan s || !((liveCfg s).phases.getD k {}).gated || isSet s F.ARR_STAT_FRAME_FAULTED || s.span.solo ||
  (gateRefs s k).all (fun i => s.span.recvs.any (fun r => r.ref == i && r.done))

/-- The phase that begins at this schedule cycle, if one does. -/
def phaseBegins (s : State) : Option Nat :=
  (List.range (liveCfg s).phases.length).find? (fun k => phaseStart (liveCfg s).phases k == s.frame.sched)

/-- The start of a phase: it is noted, and the array goes to the point chosen for it (R57, R429). -/
def notePhase (s : State) (k : Nat) : State :=
  if s.frame.phaseStarts.any (fun p => p.1 == k) then s
  else
    let s := setFrame s { s.frame with
      phaseStarts := s.frame.phaseStarts ++ [(k, getF s F.TICK_CIF_CIF, s.frame.gateHeld)],
      phaseAt := s.frame.phaseAt ++ [(k, devNow s)], gateHeld := false }
    aimPhase (setF s F.TICK_CIF_PHASE k) k

/-- A gate holds: the schedule stops, and a member whose frame would end too late asks for a stretch with cause LINK. -/
def holdGate (s : State) (x : CycleInput) : State :=
  let s := raise (setFrame s { s.frame with state := .gateHold, gateHeld := true }) F.TICK_STAT_HOLD
  let stop := devNow s + x.gateWaitNs + ceilDiv (1000 * (liveLen s - s.frame.sched)) (opMhz (getF s F.PWR_OP_CUR))
  let s := if getF s F.TICK_NEXT < stop && x.gateWaitNs ≠ 0 then requestStretch s (stop - getF s F.TICK_NEXT) .link else s
  lower s F.ARR_STAT_RUNNING

/-- The routing stage's part of an ac (R224). -/
def serveRoutes (s : State) (x : CycleInput) : State := x.combines.foldl combineHalf (x.routes.foldl routeHalf s)

/-- A schedule cycle that runs. A late word is noted after the cells' faults of the same ac, whose sources come first (R74, R124). -/
def runCycle (s : State) (x : CycleInput) : State :=
  let s := raise (lower (setFrame s { s.frame with state := .running }) F.TICK_STAT_HOLD) F.ARR_STAT_RUNNING
  let s := match phaseBegins s with
    | some k => notePhase s k
    | none => s
  let phase := phaseAt (liveCfg s).phases s.frame.sched
  let late := lateReads s x
  let s := serveRoutes (issueAccesses s x) x
  let s := noteRun (late.foldl lateWord (arrayCycle s x phase false))
  let s := setFrame s { s.frame with sched := s.frame.sched + 1 }
  let s := if liveLen s - liveDrain s ≤ s.frame.sched ∧ ¬ isSet s F.TICK_CIF_DRAIN then
      leadNext (raise s F.TICK_CIF_DRAIN) (s.frame.named.bind (namedConfig s)) else s
  advanceAc s 1

/-- SCHEDULE_CYCLE: one ac. At L − 64 the schedule waits for the verdict, and in a hold at L − 64 + D for the last one (R171). An ac in
which the configuration has a routing stage to serve does not pass without it (R224). -/
def scheduleCycle (x : CycleInput) (s : State) : State :=
  if !isSet s F.TICK_STAT_RUNNING then s
  else match s.frame.state with
    | .notRunning => s
    | .tickWait => advanceAc (paneCycle s x) 1
    | .drainHold =>
      if liveDrain s ≤ s.frame.holdAc then s
      else
        let s := arrayCycle s x (phaseAt (liveCfg s).phases s.frame.sched) true
        advanceAc (setFrame s { s.frame with holdAc := s.frame.holdAc + 1 }) 1
    | .gateHold | .running =>
      if schedOfVerdict s ≤ s.frame.sched || !stagesServed (serveRoutes s x) then s
      else
        match phaseBegins s with
        | some k => if gateOpen s k then runCycle s x else advanceAc (paneCycle (holdGate s x) x) 1
        | none => runCycle s x

/-- The slack that a phase has left when one of its instances completes, in percent of its slack: the least of the frame is kept
(R365). -/
def noteSlack (s : State) (k : Nat) : State :=
  let p := (liveCfg s).phases.getD k {}
  if p.budget = 0 then s
  else
    let t := match s.frame.phaseAt.find? (fun x => x.1 == k) with
      | some (_, at_) => devNow s - at_
      | none => 0
    let slack := p.budget * p.slackPct
    let left := if slack = 0 then 0 else min 100 (100 * (p.budget * 100 + slack - t) / slack)
    match s.span.minSlack with
    | some (m, _) => if left < m then setSpan s { s.span with minSlack := some (left, k) } else s
    | none => setSpan s { s.span with minSlack := some (left, k) }

/-- SPAN_RECEIVE_COMPLETE: the last byte of a receive instance of the frame has been staged; a gate that waited for it begins
in the next ac (R58, R359). An instance whose length is not the record's marks the frame faulted. -/
def spanReceiveComplete (ref : Nat) (s : State) : State :=
  let x := xferOf s ref
  match s.span.recvs.find? (fun r => r.ref == ref) with
  | some r =>
    if r.done || !r.last then s
    else if r.bytes.length = bitsOf x 57 34 then
      noteSlack (setSpan s { s.span with recvs := s.span.recvs.map (fun r => if r.ref = ref then { r with done := true } else r) }) (bitsOf x 89 86)
    else markFaulted (stampEvent s (srcLink (bitsOf x 19 16)) (.linkChange (bitsOf x 19 16) 0)) (stampNow s (srcLink (bitsOf x 19 16)))
  | none => s

/-- TICK_CAPTURE: tick number, cycle-in-frame and device time are captured together (R83). -/
def tickCapture (s : State) : State :=
  let s := setF (setF s F.TICK_CAP_NUM (frameNow s)) F.TICK_CAP_CIF_CIF (getF s F.TICK_CIF_CIF)
  setF (setBool s F.TICK_CAP_CIF_HELD (decide (getF s F.TICK_CIF_CIF = cifMax))) F.TICK_CAP_DT (devNow s)

end Sys2Proof.Machine
end

