-- ==== Sys2Proof/Machine/LinkOps.lean ====
section
/-! DEFINITION. Link ports below the flit's content: the lane maps, acknowledgement and replay, what fills the slots of a round,
leaving UP and training (R315 to R337, R344 to R350, R353, R366). -/
namespace Sys2Proof.Machine

/-! ### Flits (R319 to R322) -/

/-- Lanes of a lane map. -/
def lanesOf (m : Nat) : List Nat := (List.range 8).filter (bitOf m)

def seqAhead (a b : Nat) : Bool :=
  let d := (a + 65536 - b) % 65536
  decide (1 ≤ d) && decide (d ≤ 32767)

def sequencedType (t : Nat) : Bool := t == 1 || t == 2 || t == 3 || t == 5

/-- Bytes 0 to 251 of a flit. -/
def flitBody (nak : Bool) (ack : Nat) (f : Flit) : List Byte :=
  leBytes (f.type + (if nak then 16 else 0) + (if f.last then 32 else 0)) 1 ++ leBytes f.len 1 ++ leBytes f.seq 2 ++ leBytes ack 2 ++
  leBytes f.chan 2 ++ leBytes f.off 2 ++ f.payload ++ List.replicate (242 - f.payload.length) 0#8

/-- The 256 bytes of a flit. -/
def flitBytes (nak : Bool) (ack : Nat) (f : Flit) : List Byte :=
  let b := flitBody nak ack f
  b ++ leBytes (crc32 (b.map BitVec.toNat)) 4

/-- What 256 received bytes spell: the flit, NAK and ACK; none for a bad CRC, a reserved type or a reserved bit that is set
(R320). -/
def flitOf (b : List Byte) : Option (Flit × Bool × Nat) :=
  let rd := listReader b
  let h := leRead rd 0 1
  let n := leRead rd 1 1
  if b.length ≠ 256 || leRead rd 252 4 ≠ crc32 ((b.take 252).map BitVec.toNat) || 8 ≤ bitsOf h 3 0 || bitsOf h 7 6 ≠ 0 || 242 < n then none
  else some ({ type := bitsOf h 3 0, last := bitOf h 5, len := n, seq := leRead rd 2 2, chan := leRead rd 6 2, off := leRead rd 8 2,
               payload := (b.drop 10).take n }, bitOf h 4, leRead rd 4 2)

/-! ### States and lane maps (R316, R328, R334) -/

def portState (s : State) (p : Nat) : Nat := getF s (F.LNK_STAT_STATE p)
def portUp (s : State) (p : Nat) : Bool := portState s p == 3
def portEnabled (s : State) (p : Nat) : Bool := decide (p < 16) && getF s (F.LNK_CFG_CLASS p) != 0

/-- Maintenance mode (R180). -/
def inMaintenance (s : State) : Bool := getF s F.CFG_MODE == 2

def setTxMap (s : State) (p m : Nat) : State :=
  let s := setF (setF s (F.LNK_WIDTH_TX_MAP p) m) (F.LNK_WIDTH_TX_WIDTH p) (lanesOf m).length
  (List.range 8).foldl (fun s l => setBool s (F.LANE_STAT_IN_TX p l) (bitOf m l)) s

def setRxMap (s : State) (p m : Nat) : State :=
  let s := setF (setF s (F.LNK_WIDTH_RX_MAP p) m) (F.LNK_WIDTH_RX_WIDTH p) (lanesOf m).length
  (List.range 8).foldl (fun s l => setBool s (F.LANE_STAT_IN_RX p l) (bitOf m l)) s

/-- The capture of the first event that sets WIDTH_CHG or DOWN (R350). -/
def linkCapture (s : State) (p cause dir lane : Nat) : State :=
  capture s [F.LNK_STAT_WIDTH_CHG p, F.LNK_STAT_DOWN p] [(F.LNK_FAIL_CAUSE p, cause), (F.LNK_FAIL_DIR p, dir), (F.LNK_FAIL_LANE p, lane)]

/-- A completed lane-map change (R334 step 4). -/
def countWidth (s : State) (p cause dir lane : Nat) : State :=
  bump (raise (linkCapture s p cause dir lane) (F.LNK_STAT_WIDTH_CHG p)) (F.LNK_CNT_WIDTH p)

/-- The time of `n` flits at width `w`, in ns (R318): 68/7 ns a flit and lane. -/
def flitsNs (n w : Nat) : Nat := ceilDiv (68 * n) (7 * max 1 w)

/-- What a send instance of `left` flits at width `w`, on a port that waits `delay`, would take beyond its transfer window, in ns; a phase still
to begin has its whole window, of which it loses what is left of the wait as it begins (R365, R366). -/
def sendExcess (s : State) (k left w delay : Nat) : Nat :=
  let ph := (liveCfg s).phases.getD k {}
  let window := ph.budget * (100 + ph.slackPct)
  if ph.budget = 0 then 0
  else match s.frame.phaseAt.find? (fun q => q.1 == k) with
    | some (_, at_) => devNow s - at_ + delay + flitsNs left w - window
    | none => delay - ceilDiv (1000 * (phaseStart (liveCfg s).phases k - s.frame.sched)) (opMhz (getF s F.PWR_OP_CUR)) + flitsNs left w - window

/-- The projection of R366 for a port: where send instances of the frame on it, begun or still to begin, would end after their window, a stretch
of the largest excess with cause LINK. -/
def projectSends (s : State) (p w delay : Nat) : State :=
  let late := ((liveCfg s).transfers.filter (fun t => t.engine == 5 && xferPort (xferOf s t.ref) == p)).map (fun t =>
    let x := xferOf s t.ref
    let cut := match s.span.sends.find? (fun i => i.ref == t.ref) with
      | some i => i.off
      | none => 0
    let left := ceilDiv (xferLen x) 242 - cut
    if left = 0 then 0 else sendExcess s (xferPhase x) left w delay)
  let most := late.foldl max 0
  if s.frame.hasLive && s.frame.state != .tickWait && !s.span.solo then askStretch s (ceilDiv most 1000) .link else s

/-- Whether a lane's estimate passes its threshold (R347). -/
def showLoss (s : State) (p l : Nat) : State :=
  let base := getF s (F.LANE_LOSS_BASE p l)
  let high := decide (base ≠ 0) && decide (base + getF s (F.LNK_LOSS_CFG p) < getF s (F.LANE_LOSS_EST p l))
  let s := setBool s (F.LANE_STAT_LOSS_HIGH p l) high
  if high then raise s (F.LNK_STAT_LOSS_HIGH p) else s

/-- No lane of the port has a converged equaliser: the loss estimates read 0 (R347, R349). -/
def clearLoss (s : State) (p : Nat) : State := (List.range 8).foldl (fun s l => showLoss (setF s (F.LANE_LOSS_EST p l) 0) p l) s

/-! ### Leaving UP and training (R325, R329 to R337, R353) -/

/-- Board requests outstanding on a port end with an error completion (R341). -/
def failBoardReqs (s : State) (p : Nat) (pick : BoardReq → Bool) : State :=
  let l := link s p
  let s := setLink s p { l with reqs := l.reqs.filter (fun r => !pick r) }
  (l.reqs.filter pick).foldl (fun s r => bump (emit s (.boardDone r.requester true [])) (F.LNK_CNT_BOARD_ERR p)) s

/-- The use of the alternate parent while the port to the primary one is not UP (R353), and the time since which the path to the master is
lost: no later loss moves it (R379; DEDUCED, log entry 108). -/
def parentLeft (s : State) (p : Nat) : State :=
  if !inSpan s || isMaster s then s
  else
    let s := if p = parentPort s ∧ s.span.pathLostAt = none then setSpan s { s.span with pathLostAt := some (devNow s) } else s
    if p = getF s F.SPAN_TREE_PARENT_PORT ∧ isSet s F.SPAN_TREE_ALT_VALID ∧ ¬ isSet s F.SPAN_STAT_ON_ALT then
      bump (raise s F.SPAN_STAT_ON_ALT) F.SPAN_CNT_ALT_SWITCH
    else s

/-- Training begins in state `st`: 1 TRAIN, 6 RETRAIN. -/
def beginTraining (s : State) (p st : Nat) : State :=
  let s := lower (setF s (F.LNK_STAT_STATE p) st) (F.LNK_PEER_VALID p)
  let s := setBitF (clearLoss (setRxMap (setTxMap s p 0) p 0) p) F.DEV_CAP1_LINK_UP p false
  let l := link s p
  setLink s p { l with leftAt := devNow s, trainAt := devNow s, notice := none, confirm := none, drops := [], rxDrop := none, nakDue := false,
                       syncDue := false, syncOpen := false, syncSpan := false, boardWait := 0, lanes := [], rxq := [], rxAt := none,
                       rxGood := 0, converged := 0, train := none,
                       boardQ := l.boardQ.filter (fun b => decide (3 ≤ leRead (listReader b) 0 1)) }

/-- A port that is UP trains again in service (R337 step 2). -/
def enterRetrain (s : State) (p : Nat) : State :=
  let w := getF s (F.LNK_WIDTH_TX_WIDTH p)
  let s := beginTraining (bump s (F.LNK_CNT_RETRAIN p)) p 6
  projectSends (parentLeft (failBoardReqs s p (fun _ => true)) p) p w 2000000

/-- What leaving UP does, with its cause in LNK_FAIL. -/
def leaveUp (s : State) (p cause dir lane : Nat) : State :=
  let s := raise (linkCapture s p cause dir lane) (F.LNK_STAT_DOWN p)
  enterRetrain (stampEvent s (srcLink p) (.linkChange p cause)) p

/-- Buffers and sequence numbers start afresh: both ends of the link do it (R337). -/
def dropBuffers (s : State) (p : Nat) : State :=
  setLink s p { link s p with buf := [], txNext := 0, tx := .normal, replays := 0, rxExpect := 0, discard := false, nakDue := false }

/-- DOWN: the port keeps its replay buffer, N and E (R325, R333), but what the buffer holds is never delivered (R337 step 5): see `resumeDown`. -/
def enterDown (s : State) (p : Nat) : State :=
  let s := beginTraining s p 0
  setLink s p { link s p with ctrlQ := [], dataQ := [], boardQ := [], wasDown := true }

/-- A port leaves TEST: its generators and checkers stop (R344). -/
def endTest (s : State) (p : Nat) : State :=
  (List.range 8).foldl (fun s l => lower s (F.LANE_STAT_PRBS_LOCK p l)) (setLink s p { link s p with tests := [] })

/-- A retrain that a rule commands (R336): a port that is UP, or retrains, keeps its replay buffer; any other trains, one in TEST too. A
disabled port does not train. -/
def retrainPort (s : State) (p : Nat) : State :=
  if !portEnabled s p then s
  else if portUp s p then enterRetrain s p
  else beginTraining (bump (if portState s p = 4 then endTest s p else s) (F.LNK_CNT_RETRAIN p)) p (if portState s p = 6 then 6 else 1)

/-! ### TRAIN flits (R329 to R331) -/

/-- The payload of a TRAIN flit as it leaves (R330). -/
def trainPayload (s : State) (p : Nat) : List Byte :=
  leBytes p 1 ++ leBytes (getF s F.DEV_POS) 1 ++ leBytes (ownOrd s) 2 ++ leBytes (getF s (F.LNK_SESSION_OWN p)) 2 ++ leBytes (link s p).rxGood 1 ++
    leBytes (devNow s) 8

def trainFlit (s : State) (p : Nat) : Flit := { type := 7, len := 15, payload := trainPayload s p }

/-- The session number and the receive lane map that a TRAIN payload carries (R330). -/
def trainSession (b : List Byte) : Nat := leRead (listReader b) 4 2
def trainMap (b : List Byte) : Nat := leRead (listReader b) 6 1

/-- Whether the peer that a TRAIN payload names is the expected one (R331). -/
def peerExpected (s : State) (p : Nat) (b : List Byte) : Bool :=
  let rd := listReader b
  if p ≤ 6 then leRead rd 0 1 == 6 - p && leRead rd 1 1 == (getF s F.DEV_POS + p + 1) % 8
  else leRead rd 2 2 == getF s (F.LNK_CFG_EXP_MEMBER p) && leRead rd 0 1 == getF s (F.LNK_CFG_EXP_PORT p)

/-- A TRAIN flit has come: the peer's identity is recorded (R330). -/
def notePeer (s : State) (p : Nat) (b : List Byte) : State :=
  let rd := listReader b
  let s := setF (setF (setF s (F.LNK_PEER_MEMBER p) (leRead rd 2 2)) (F.LNK_PEER_BOARD p) (leRead rd 1 1)) (F.LNK_PEER_PORT p) (leRead rd 0 1)
  setLink (raise s (F.LNK_PEER_VALID p)) p { link s p with train := some b }

/-! ### The lanes that training finds good (R329, R348) -/

/-- A lane trained: its equaliser converged within 50 ms and its pairs then decode with fewer than 1 uncorrectable codeword in 10^6. -/
def laneTrained (x : LaneTrain) : Bool :=
  (match x.convNs with
   | some t => decide (t ≤ 50000000)
   | none => false) && decide (x.bad * 1000000 < x.words)

/-- Lanes from 0 up that satisfy a test, as a map. -/
def laneMap (l : List LaneTrain) (pick : LaneTrain → Bool) : Nat :=
  ((l.take 8).mapIdx (fun i x => if pick x then 2 ^ i else 0)).sum

/-- When the earliest good lane presents a round. -/
def earliest (l : List LaneTrain) : Nat := (((l.take 8).filter laneTrained).map (fun x => x.arriveNs)).foldl min ((((l.take 8).find? laneTrained).map (fun x => x.arriveNs)).getD 0)

/-- A good lane whose skew from the earliest lane is within the limit of 50 ns. -/
def laneUsable (l : List LaneTrain) (x : LaneTrain) : Bool := laneTrained x && decide (x.arriveNs ≤ earliest l + 50)

/-- The codewords that a lane has decoded as it trained (R345). -/
def countTrained (p : Nat) (s : State) (q : Nat × LaneTrain) : State :=
  let (l, x) := q
  let s := addF (addF s (F.LANE_FEC_CW p l) x.words) (F.LANE_FEC_UNCORR p l) x.bad
  let s := addF (addF s (F.LANE_FEC_CORR p l) x.corr) (F.LANE_FEC_SYM p l) x.syms
  setF s (F.LANE_FEC_MAXSYM p l) (max (getF s (F.LANE_FEC_MAXSYM p l)) (min x.maxSym 15))

/-- The receive lanes of a port have trained: the good ones are kept, and what was measured is shown. -/
def noteLanes (s : State) (p : Nat) (r : TrainResult) : State :=
  let conv := laneMap r.lanes (fun x => x.convNs.isSome)
  let skew := (((r.lanes.take 8).filter (laneUsable r.lanes)).map (fun x => x.arriveNs - earliest r.lanes)).foldl max 0
  let s := (List.range 8).foldl (fun s l => setBool s (F.LANE_STAT_SIGNAL p l) (bitOf conv l)) s
  setLink (setF (setF s (F.LNK_RTT_SKEW_NS p) skew) (F.LNK_RTT_RTT_NS p) r.rttNs) p
    { link s p with rxGood := laneMap r.lanes (laneUsable r.lanes), converged := conv }

/-- Both directions have MIN_WIDTH good lanes (R332); at a repeated start, one lane is enough for a port that failed (R465). -/
def widthEnough (s : State) (p : Nat) (b : List Byte) : Bool :=
  let n := if bitOf s.boot.relaxed p then 1 else max 1 (getF s (F.LNK_CFG_MIN_WIDTH p))
  decide (n ≤ (lanesOf (link s p).rxGood).length) && decide (n ≤ (lanesOf (trainMap b)).length)

/-- The transmitter as the port enters UP: it replays what its buffer holds, and the replay counts (R325). -/
def resumeReplay (s : State) (p : Nat) : State :=
  let l := link s p
  match l.buf with
  | [] => setLink s p { l with tx := .normal }
  | f :: _ => bump (setLink s p { l with tx := .replay f.seq, replays := l.replays + 1 }) (F.LNK_CNT_REPLAY p)

/-- A lost port in a span is reported to the master: 1 DOWN, 2 a new session (R356). The master's own report waits in its own inbox
(DEDUCED, log entry 108). -/
def reportLink (s : State) (p kind : Nat) : State :=
  let arg := p + getF s (F.LNK_PEER_MEMBER p) * 2 ^ 8 + kind * 2 ^ 24
  let t := stampNow s (srcLink p)
  let s := countStamp s t
  if !isMaster s then toMaster s t 0x07 (frameNow s) arg
  else if inSpan s then
    setSpan s { s.span with inbox := s.span.inbox ++ [{ msg := 0x07, from_ := ownOrd s, to_ := 0xFFFE, tick := frameNow s, stamp := t, arg := arg }] }
  else s

/-- After DOWN, with the session unchanged, what the buffer holds is dropped, for it is never delivered; the receiver keeps E, and the transmitter goes on
with the number that the peer expects, which is that of the oldest flit without its ACK (R333, R337 step 5). DEDUCED (log 41). -/
def resumeDown (s : State) (p : Nat) : State :=
  let l := link s p
  setLink s p { l with buf := [], txNext := (l.buf.head?.map (fun f => f.seq)).getD l.txNext, tx := .normal, replays := 0, discard := false, nakDue := false }

/-- The later of two round counts. -/
def laterRound (a b : Nat) : Nat := if (b + 256 - a) % 256 < 128 then b else a

/-- The place at which a port that enters UP takes up its flits: the round after the latest of which a lane has had its pair, for of that one other lanes' flits
may have gone by (R316); with no pair yet, that of the first pair to come. -/
def firstPlace (s : State) (p : Nat) : Option (Nat × Nat × Nat) :=
  match ((link s p).lanes.filter (fun x => bitF s (F.LNK_WIDTH_RX_MAP p) x.lane)).map (fun x => x.round) with
  | [] => none
  | r :: l => some ((l.foldl laterRound r + 1) % 256, (lanesOf (getF s (F.LNK_WIDTH_RX_MAP p))).headD 0, 0)

/-- The port enters UP with its peer's TRAIN payload. With a new peer session, the buffers are discarded and the sequence
numbers start at 0 (R333, R337 step 4); a port that had been UP before then shows SESSION, and in a span reports it (R356). A path to the
master counts as found again only with the same session (R379). -/
def enterUp (s : State) (p : Nat) (b : List Byte) : State :=
  let old := getF s (F.LNK_SESSION_PEER p)
  let other := (link s p).everUp && old != trainSession b
  let s := setRxMap (setTxMap s p (trainMap b)) p (link s p).rxGood
  let s := if old ≠ trainSession b then dropBuffers (setF s (F.LNK_SESSION_PEER p) (trainSession b)) p
    else if (link s p).wasDown then resumeDown s p else s
  let s := setBitF (raise (setF s (F.LNK_STAT_STATE p) 3) (F.LNK_STAT_UP p)) F.DEV_CAP1_LINK_UP p true
  let l := link s p
  let s := resumeReplay (setLink s p { l with goodAt := devNow s, progressAt := devNow s, nakAt := devNow s, echoTx := 0, echoRx := 0, wasDown := false,
                                              everUp := true, rxq := [], rxAt := firstPlace s p }) p
  let s := if other then
      let s := raise s (F.LNK_STAT_SESSION p)
      reportLink (setLink s p { link s p with ctrlQ := [], dataQ := [], boardQ := [] }) p 2
    else s
  let s := stampEvent s (srcLink p) (.linkChange p 16)
  let mine := (p == parentPort s && !isDeputy s) || (p == getF s F.SPAN_TREE_PARENT_PORT && inSpan s)
  let s := if p = getF s F.SPAN_TREE_PARENT_PORT ∧ inSpan s then lower s F.SPAN_STAT_ON_ALT else s
  if mine && old = trainSession b then setSpan s { s.span with pathLostAt := none } else s

/-- WIRING: the peer is not the expected one (R331). -/
def enterWiring (s : State) (p : Nat) : State := raise (setF s (F.LNK_STAT_STATE p) 5) (F.LNK_STAT_WIRING p)

/-! ### Acknowledgement and replay (R322 to R325) -/

/-- Every flit before `a` is acknowledged, if `a` lies between B and N. -/
def takeAck (s : State) (p a : Nat) : State :=
  let l := link s p
  match l.buf with
  | [] => s
  | f :: _ =>
    let n := (a + 65536 - f.seq) % 65536
    if n = 0 ∨ l.buf.length < n then s
    else
      let rest := l.buf.drop n
      let tx := match l.tx with
        | .replay q => if rest.isEmpty then .normal else if seqAhead a q then .replay a else l.tx
        | .width m q c k x => .width m (if seqAhead a q then a else q) c k x
        | .normal => .normal
      setLink s p { l with buf := rest, tx := tx, replays := 0, progressAt := devNow s }

/-- A replay starts; the 8th of a flit without ACK progress makes the port retrain, cause 7. -/
def startReplay (s : State) (p q : Nat) : State :=
  let l := link s p
  if 8 ≤ l.replays + 1 then leaveUp s p 7 1 0
  else bump (setLink s p { l with tx := .replay q, replays := l.replays + 1, progressAt := devNow s }) (F.LNK_CNT_REPLAY p)

/-- A NAK that names `q`, once its ACK has been taken. -/
def takeNak (s : State) (p q : Nat) : State :=
  let l := link s p
  if !l.buf.any (fun f => f.seq == q) then s
  else match l.tx with
    | .normal => startReplay s p q
    | .replay r => if seqAhead r q then startReplay s p q else s
    | .width m r c k x => if seqAhead r q then setLink s p { l with tx := .width m q c k x } else s

/-- The oldest flit of the replay buffer, or the next one where it is empty. -/
def oldest (l : LinkSt) : Nat :=
  match l.buf with
  | [] => l.txNext
  | f :: _ => f.seq

/-- The transmitter enters WIDTH, or takes a further lane out of the change that it waits for (R325, R334, R335). -/
def beginWidth (s : State) (p m cause lane : Nat) (notice : Bool) : State :=
  let l := link s p
  let tx := match l.tx with
    | .width m' q c k x => TxState.width (Nat.land m m') q c k (x || notice)
    | _ => .width m (oldest l) cause lane notice
  setLink s p { l with tx := tx, syncSpan := l.syncSpan || l.syncOpen }

/-- A lane-map change completes at the beginning of a round: the new map, its confirmation, the replay (R334 steps 2 to 4). -/
def completeWidth (s : State) (p m q cause lane : Nat) : State :=
  let s := setTxMap s p m
  let l := link s p
  let l := { l with confirm := some m, tx := .normal, progressAt := devNow s, syncSpan := l.syncSpan || l.syncOpen }
  let s := projectSends (countWidth (setLink s p l) p cause 1 lane) p (lanesOf m).length 0
  if (link s p).buf.isEmpty then s else startReplay s p q

/-! ### What fills a slot (R321, R334, R342) -/

/-- The payload of a WIDTH flit: 1 for a receiver's notice, 2 for a confirmation, 3 for a transmitter's notice; the new map, E. -/
def widthFlit (kind m e : Nat) : Flit := { type := 6, len := 4, payload := leBytes kind 1 ++ leBytes m 1 ++ leBytes e 2 }

/-- A SYNC flit as it leaves (R342). -/
def syncFlit (s : State) (p : Nat) : Flit :=
  let l := link s p
  { type := 4, len := 32, payload := leBytes (devNow s) 8 ++ leBytes l.echoTx 8 ++ leBytes l.echoRx 8 ++ leBytes (frameNow s) 6 ++
      leBytes (getF s F.TICK_SYNC_DEPTH) 1 ++ leBytes (getF s F.TICK_STAT_LOCKED) 1 }

/-- The flit that a send instance cuts next, if its bytes are there (R321). -/
def cutFlit (s : State) (i : SendInst) : Option Flit :=
  let x := xferOf s i.ref
  let left := xferLen x - 242 * i.off
  let n := min 242 left
  let first := 242 * i.off / 32
  let ws := (List.range (ceilDiv (242 * i.off + n) 32 - first)).map (fun k => (i.words.find? (fun w => w.1 == first + k)).map (fun w => w.2))
  if left = 0 ∨ ws.contains none then none
  else
    let bytes := ws.flatMap (fun w => leBytes ((w.getD 0#256).toNat) 32)
    some { type := 1, last := decide (left ≤ 242), len := n, chan := xferChan x, off := i.off, payload := (bytes.drop (242 * i.off % 32)).take n }

/-- The first send instance of the port whose next flit can be cut. -/
def nextSend (s : State) (p : Nat) : Option (Nat × Flit) :=
  (s.span.sends.filter (fun i => xferPort (xferOf s i.ref) == p)).findSome? (fun i => (cutFlit s i).map (fun f => (i.ref, f)))

/-- A new sequenced flit leaves: it takes the next number and enters the replay buffer (R322). -/
def sendNew (s : State) (p : Nat) (f : Flit) : State × Flit :=
  let l := link s p
  let f := { f with seq := l.txNext }
  let l := { l with buf := l.buf ++ [f], txNext := (l.txNext + 1) % 65536, progressAt := if l.buf.isEmpty then devNow s else l.progressAt }
  (bump (setLink s p l) (F.LNK_CNT_TX p), f)

/-- A CTRL flit (R355). -/
def ctrlFlit (b : List Byte) : Flit := { type := 3, len := 64, payload := b }

/-- A BOARD flit (R341). -/
def boardFlit (b : List Byte) : Flit := { type := 5, len := b.length, payload := b }

/-- The next BOARD flit takes the slot. -/
def sendBoard (s : State) (p : Nat) (b : List Byte) (rest : List (List Byte)) : State × Flit :=
  sendNew (setLink s p { link s p with boardQ := rest, boardWait := 0 }) p (boardFlit b)

/-- A new flit of CTRL, DATA, BCAST or BOARD, or IDLE. -/
def newFlit (s : State) (p : Nat) : State × Flit :=
  let l := link s p
  let wait (s : State) : State := if l.boardQ.isEmpty then s else setLink s p { link s p with boardWait := l.boardWait + 1 }
  if 256 ≤ l.buf.length then (s, {})
  else match l.ctrlQ with
    | b :: rest => sendNew (setLink s p { l with ctrlQ := rest }) p (ctrlFlit b)
    | [] =>
      match l.boardQ, decide (63 ≤ l.boardWait) with
      | b :: rest, true => sendBoard s p b rest
      | _, _ =>
        match l.dataQ with
        | f :: rest => sendNew (setLink (wait s) p { link (wait s) p with dataQ := rest }) p f
        | [] =>
          match nextSend s p with
          | some (ref, f) =>
            let s := setSpan (wait s) { (wait s).span with sends := s.span.sends.map (fun i =>
              if i.ref = ref then { i with words := i.words.filter (fun w => decide (242 * (i.off + 1) < 32 * (w.1 + 1))), off := i.off + 1 } else i) }
            sendNew s p f
          | none =>
            match l.boardQ with
            | b :: rest => sendBoard s p b rest
            | [] => (s, {})

/-- The WIDTH flits that a round carries on a lane, in the slots of its pair in this order: the confirmation in the first slot of the round, the
receiver's notice, the transmitter's own; the two directions' changes are independent (R334, R335). -/
def widthFlits (s : State) (p lane : Nat) (first : Bool) : List Flit :=
  let l := link s p
  (match l.confirm, first with
    | some m, true => [widthFlit 2 m l.rxExpect]
    | _, _ => []) ++
  (match l.notice with
    | some m => [widthFlit 1 m l.rxExpect]
    | none => []) ++
  (match l.tx with
    | .width m _ _ _ _ => if bitOf m lane then [widthFlit 3 m l.rxExpect] else []
    | _ => [])

/-- What slot `i` of a round carries on its lane (R321). In WIDTH no sequenced flit leaves. -/
def slotFlit (s : State) (p lane i : Nat) : State × Flit :=
  let l := link s p
  match (widthFlits s p lane (decide (i < 5)))[i % 5]? with
  | some f => (s, f)
  | none =>
    if l.syncDue then (setLink s p { l with syncDue := false }, syncFlit s p)
    else match l.tx with
      | .width _ _ _ _ _ => (s, {})
      | .replay q =>
        match l.buf.find? (fun f => f.seq == q) with
        | some f =>
          let next := (q + 1) % 65536
          let s := setLink s p { l with tx := if next = l.txNext then .normal else .replay next }
          (bump s (F.LNK_CNT_REPLAY_FLIT p), f)
        | none => newFlit (setLink s p { l with tx := .normal }) p
      | .normal => newFlit s p

/-- A pair header: the alignment pattern, the lane, the round count (R315). -/
def pairHeader (lane round : Nat) : Nat := 0xC3A5 + lane * 2 ^ 16 + round * 2 ^ 24

/-- One slot of a round leaves on its lane with the present ACK, behind the pair's header if it is the first of a pair; the first slot after
a NAK has become due carries it. -/
def sendSlot (p : Nat) (lanes : List Nat) (s : State) (i : Nat) : State :=
  let lane := lanes.getD (i / 5) 0
  let s := if i % 5 = 0 then emit s (.pair p lane (pairHeader lane (link s p).round)) else s
  let (s, f) := slotFlit s p lane i
  let l := link s p
  let s := if l.nakDue then bump (setLink s p { l with nakDue := false, nakAt := devNow s }) (F.LNK_CNT_NAK p) else s
  emit s (.flit p lane l.nakDue l.rxExpect f)

/-! ### The commands of a port -/

/-- A round of a port in UP: a lane-map change that waits completes, unless its notice is still to be sent. -/
def serviceRound (s : State) (p : Nat) : State :=
  let s := match (link s p).tx with
    | .width m q c l false => completeWidth s p m q c l
    | _ => s
  if !portUp s p then s
  else
    let lanes := lanesOf (getF s (F.LNK_WIDTH_TX_MAP p))
    let s := (List.range (5 * lanes.length)).foldl (sendSlot p lanes) s
    let s := setLink s p { link s p with confirm := none }
    match (link s p).tx with
    | .width m q c l true => setLink s p { link s p with tx := .width m q c l false }
    | _ => s

/-- A round of a port that trains or is in WIRING: TRAIN flits in every slot, on the lanes that the peer has reported good, or on all. -/
def trainRound (s : State) (p : Nat) : State :=
  let lanes := match (link s p).train with
    | some b => lanesOf (trainMap b)
    | none => List.range 8
  lanes.foldl (fun s l => (List.range 5).foldl (fun s _ => emit s (.flit p l false (link s p).rxExpect (trainFlit s p)))
    (emit s (.pair p l (pairHeader l (link s p).round)))) s

/-- States in which a port carries codeword pairs: ALIGN, UP, WIRING, and RETRAIN once its lanes have trained (R328, R329, R345). -/
def carriesPairs (s : State) (p : Nat) : Bool :=
  let st := portState s p
  st == 2 || st == 3 || st == 5 || (st == 6 && (link s p).rxGood != 0)

/-- ROUND_TRANSMIT: every slot of a round is filled. -/
def roundTransmit (p : Nat) (s : State) : State :=
  if !carriesPairs s p then s
  else
    let s := if portUp s p then serviceRound s p else trainRound s p
    setLink s p { link s p with round := ((link s p).round + 1) % 256 }

/-- REPLAY_TIMEOUT. -/
def replayTimeout (p : Nat) (s : State) : State :=
  let l := link s p
  match portUp s p, l.tx, l.buf with
  | true, .normal, f :: _ => if l.progressAt + getF s (F.LNK_TIMER_REPLAY_NS p) ≤ devNow s then startReplay s p f.seq else s
  | _, _, _ => s

/-- NAK_RESEND_TIMEOUT. -/
def nakResendTimeout (p : Nat) (s : State) : State :=
  let l := link s p
  if portUp s p && l.discard && !l.nakDue && decide (l.nakAt + getF s (F.LNK_TIMER_NAK_NS p) ≤ devNow s) then setLink s p { l with nakDue := true } else s

/-- An eye scan on a lane that leaves its direction ends ABORTED (R335). -/
def abortScan (s : State) (p l : Nat) : State :=
  if isSet s (F.LANE_EYE_CTL_BUSY p l) then raise (lower s (F.LANE_EYE_CTL_BUSY p l)) (F.LANE_EYE_CTL_ABORTED p l) else s

/-- Eye scans on the lanes that leave the receive direction when it takes map `m`. -/
def abortScans (s : State) (p m : Nat) : State :=
  ((lanesOf (getF s (F.LNK_WIDTH_RX_MAP p))).filter (fun l => !bitOf m l)).foldl (fun s l => abortScan s p l) s

/-- The receiver drops a lane: its notice names every lane dropped so far (R334, R335). -/
def dropRxLane (s : State) (p l cause : Nat) : State :=
  let m := (link s p).notice.getD (getF s (F.LNK_WIDTH_RX_MAP p))
  if !bitOf m l then s
  else
    let s := abortScan s p l
    let s := if cause = 1 then lower s (F.LANE_STAT_SIGNAL p l) else s
    if m = 2 ^ l then leaveUp s p cause 0 l
    else
      let k := link s p
      setLink s p { k with notice := some (m - 2 ^ l), drops := k.drops ++ [(l, cause)], syncSpan := k.syncSpan || k.syncOpen }

/-- The transmitter drops a lane whose driver reports a fault: it sends the notice itself (R334). -/
def dropTxLane (s : State) (p l : Nat) : State :=
  let m := match (link s p).tx with
    | .width m _ _ _ _ => m
    | _ => getF s (F.LNK_WIDTH_TX_MAP p)
  if !bitOf m l then s
  else if m = 2 ^ l then leaveUp s p 4 1 l
  else beginWidth s p (m - 2 ^ l) 4 l true

/-- Whether a receive lane's pairs with an uncorrectable codeword drop it: 4 in a row (cause 2), or 16 within 1 ms (cause 3). -/
def pairsDrop (s : State) (p l cause : Nat) : Bool :=
  match (link s p).lanes.find? (fun x => x.lane == l) with
  | some x => if cause = 2 then decide (4 ≤ x.run) else decide (16 ≤ x.times.length)
  | none => false

/-- LANE_DROP: a lane of one direction is dropped with a cause of LNK_FAIL: 1 to 3 for the receiver, 4 for the transmitter. The counts of
pairs that causes 2 and 3 name have to stand. -/
def laneDrop (p l cause : Nat) (s : State) : State :=
  if !portUp s p || cause = 0 || 5 ≤ cause || 8 ≤ l then s
  else if cause = 4 then dropTxLane s p l
  else if cause = 1 || pairsDrop s p l cause then dropRxLane s p l cause else s

/-- PORT_LEAVE_UP: no good flit for 5 µs (cause 6), or a notice that cannot be answered, which is the peer's (cause 5). -/
def portLeaveUp (p : Nat) (notice : Bool) (s : State) : State :=
  if !portUp s p then s
  else if notice then leaveUp s p 5 1 0
  else if (link s p).goodAt + 5000 ≤ devNow s then leaveUp s p 6 0 0 else s

/-- RETRAIN_TIMEOUT. -/
def retrainTimeout (p : Nat) (s : State) : State :=
  if portState s p = 6 ∧ (link s p).leftAt + 2000000 ≤ devNow s then reportLink (enterDown s p) p 1 else s

/-- DOWN_RETRY: the port trains again, 100 ms after its last attempt began. -/
def downRetry (p : Nat) (s : State) : State :=
  if portState s p = 0 ∧ portEnabled s p ∧ (link s p).trainAt + 100000000 ≤ devNow s then beginTraining s p 1 else s

/-- LINK_TRAINING: in TRAIN, or first in RETRAIN, the lanes have trained, and the port deskews them; in ALIGN, within 1 ms, it has exchanged
TRAIN flits: UP, or WIRING. Short of MIN_WIDTH it stays until the training time ends (R329 to R332). -/
def linkTraining (p : Nat) (r : TrainResult) (s : State) : State :=
  let st := portState s p
  if st = 1 ∨ st = 6 then
    let s := ((r.lanes.take 8).mapIdx (fun l x => (l, x))).foldl (countTrained p) s
    if laneMap r.lanes (laneUsable r.lanes) = 0 then s
    else
      let s := noteLanes s p r
      setLink (if st = 1 then setF s (F.LNK_STAT_STATE p) 2 else s) p { link s p with alignAt := devNow s }
  else match decide (st = 2), (link s p).train with
    | true, some b =>
      if (link s p).alignAt + 1000000 < devNow s then s
      else if !peerExpected s p b then enterWiring s p
      else if widthEnough s p b then enterUp (setF s (F.LNK_RTT_RTT_NS p) r.rttNs) p b else s
    | _, _ => s

/-- TRAINING_TIMEOUT. -/
def trainingTimeout (p : Nat) (s : State) : State :=
  if (portState s p = 1 ∨ portState s p = 2) ∧ (link s p).trainAt + 100000000 ≤ devNow s then enterDown s p else s

/-- RETRAIN_COMPLETE: a retraining port finds its peer again: the same session resumes replay; a new one shows in SESSION and,
in a span, in LINK_LOST (R337, R356). -/
def retrainComplete (p : Nat) (r : TrainResult) (s : State) : State :=
  match decide (portState s p = 6), (link s p).train with
  | true, some b =>
    let s := noteLanes s p r
    if !peerExpected s p b then enterWiring s p
    else if !widthEnough s p b then s
    else enterUp s p b
  | _, _ => s

/-- LINK_RETRAIN_CMD: acted on in maintenance mode only (R336). -/
def linkRetrainCmd (p : Nat) (s : State) : State := if inMaintenance s then retrainPort s p else s

/-- LINK_TEST_ENTER (R344): the bit is stored; the port enters TEST in maintenance mode, or from DOWN or FAILED. -/
def linkTestEnter (p : Nat) (s : State) : State :=
  if 16 ≤ p then s
  else
    let s := raise s (F.LNK_CTL_TEST p)
    let st := portState s p
    if st ≠ 4 ∧ (inMaintenance s ∨ st = 0 ∨ st = 7) then
      let s := if st = 3 then parentLeft (failBoardReqs s p (fun _ => true)) p else s
      beginTraining s p 4
    else s

/-- LINK_TEST_LEAVE: clearing TEST retrains the port; its checkers unlock. -/
def linkTestLeave (p : Nat) (s : State) : State :=
  if 16 ≤ p then s
  else
    let s := lower s (F.LNK_CTL_TEST p)
    if portState s p = 4 then
      let s := endTest s p
      if portEnabled s p then beginTraining (bump s (F.LNK_CNT_RETRAIN p)) p 1 else setF s (F.LNK_STAT_STATE p) 0
    else s

/-- A pattern's degree and the exponents of its polynomial below the constant (R344). -/
def prbsTaps : Nat → Nat × List Nat
  | 1 => (7, [7, 6])
  | 2 => (9, [9, 5])
  | 3 => (13, [13, 12, 2, 1])
  | 4 => (15, [15, 14])
  | _ => (31, [31, 28])

/-- The next bit of a pattern whose last bits are `r`, the latest in bit 0. -/
def prbsNext (pat r : Nat) : Bool := (prbsTaps pat).2.foldl (fun b t => xor b (bitOf r (t - 1))) false

/-- The register once a bit has followed. -/
def prbsShift (pat r : Nat) (b : Bool) : Nat := (2 * r + b.toNat) % 2 ^ (prbsTaps pat).1

/-- `n` bits of a generator, and its register after them. -/
def prbsBits (pat : Nat) : Nat → Nat → List Bool × Nat
  | 0, r => ([], r)
  | n + 1, r =>
    let b := prbsNext pat r
    let (l, r) := prbsBits pat n (prbsShift pat r b)
    (b :: l, r)

/-- Bits as PAM4 symbols in Gray coding, the first bit of two the more significant (R344). -/
def pam4 : List Bool → List Nat
  | a :: b :: l => (if a then (if b then 2 else 3) else (if b then 1 else 0)) :: pam4 l
  | _ => []

/-- One bit at a checker: until 64 bits in a row follow the pattern, the register takes the bits received; from then on it runs by itself,
and every bit is compared. The second component counts bits compared, the third those in error. -/
def checkBit (w : LaneTest × Nat × Nat) (b : Bool) : LaneTest × Nat × Nat :=
  let x := w.1
  let want := prbsNext x.pattern x.ref
  if 64 ≤ x.run then ({ x with ref := prbsShift x.pattern x.ref want }, w.2.1 + 1, w.2.2 + (b != want).toNat)
  else
    let ok := decide ((prbsTaps x.pattern).1 ≤ x.seen) && b == want
    ({ x with ref := prbsShift x.pattern x.ref b, seen := x.seen + 1, run := if ok then x.run + 1 else 0 }, w.2.1, w.2.2)

/-- A lane's generator and checker as LANE_PRBS_CTL sets them, begun afresh where the pattern is another one. -/
def laneTest (s : State) (p l pat : Nat) : LaneTest :=
  match (link s p).tests.find? (fun x => x.1 == l) with
  | some (_, x) => if x.pattern = pat then x else { pattern := pat, gen := 1 + Config.prbsSeed l % (2 ^ (prbsTaps pat).1 - 1) }
  | none => { pattern := pat, gen := 1 + Config.prbsSeed l % (2 ^ (prbsTaps pat).1 - 1) }

/-- PRBS_CHECKER_LOCK: in TEST a lane sends as many bits of its pattern as its receiver takes in, and its checker locks and counts. In
loopback it takes in what its own transmitter sends (R344). -/
def prbsCheckerLock (p l : Nat) (rx : List Bool) (s : State) : State :=
  let pat := getF s (F.LANE_PRBS_CTL_PATTERN p l)
  let loop := getF s (F.LANE_PRBS_CTL_LOOP p l)
  if 16 ≤ p || 8 ≤ l || portState s p ≠ 4 || pat = 0 || 6 ≤ pat then s
  else
    let x := laneTest s p l pat
    let gen := isSet s (F.LANE_PRBS_CTL_GEN p l)
    let (sent, r) := prbsBits pat (if gen then rx.length else 0) x.gen
    let s := if gen then emit s (.prbs p l (pam4 sent)) else s
    let taken := if loop = 1 ∨ loop = 2 then sent else rx
    let (x, bits, errs) := if isSet s (F.LANE_PRBS_CTL_CHK p l) then taken.foldl checkBit ({ x with gen := r }, 0, 0)
      else ({ x with gen := r, ref := 0, seen := 0, run := 0 }, 0, 0)
    let s := setLink s p { link s p with tests := (link s p).tests.filter (fun y => y.1 != l) ++ [(l, x)] }
    let s := setBool s (F.LANE_STAT_PRBS_LOCK p l) (decide (64 ≤ x.run))
    addF (setF s (F.LANE_PRBS_BITS p l) (getF s (F.LANE_PRBS_BITS p l) + bits)) (F.LANE_PRBS_ERR p l) errs

/-- LOSS_BASE. -/
def lossBase (p : Nat) (s : State) : State :=
  if 16 ≤ p then s
  else (List.range 8).foldl (fun s l => showLoss (setF s (F.LANE_LOSS_BASE p l) (getF s (F.LANE_LOSS_EST p l))) p l) s

/-- LOSS_ESTIMATE_UPDATE: of a lane whose equaliser has converged. -/
def lossEstimateUpdate (p l est : Nat) (s : State) : State :=
  if 16 ≤ p || 8 ≤ l || !bitOf (link s p).converged l then s else showLoss (setF s (F.LANE_LOSS_EST p l) (min est 1023)) p l

/-- LINK_COUNT_CLEAR (R345): the bits of LNK_CNT_CLR. -/
def linkCountClear (p : Nat) (eye lane port : Bool) (s : State) : State :=
  if 16 ≤ p then s
  else
    let zero (s : State) (l : List Fld) : State := l.foldl (fun s f => setF s f 0) s
    let s := if eye then zero s ((List.range 8).flatMap (fun l =>
      [F.LANE_EYE_UPPER_BOTTOM p l, F.LANE_EYE_UPPER_TOP p l, F.LANE_EYE_UPPER_RIGHT p l, F.LANE_EYE_UPPER_LEFT p l,
       F.LANE_EYE_MIDDLE_BOTTOM p l, F.LANE_EYE_MIDDLE_TOP p l, F.LANE_EYE_MIDDLE_RIGHT p l, F.LANE_EYE_MIDDLE_LEFT p l,
       F.LANE_EYE_LOWER_BOTTOM p l, F.LANE_EYE_LOWER_TOP p l, F.LANE_EYE_LOWER_RIGHT p l, F.LANE_EYE_LOWER_LEFT p l])) else s
    let s := if lane then zero s ((List.range 8).flatMap (fun l =>
      [F.LANE_PRBS_ERR p l, F.LANE_PRBS_BITS p l, F.LANE_FEC_CW p l, F.LANE_FEC_CORR p l, F.LANE_FEC_UNCORR p l, F.LANE_FEC_SYM p l,
       F.LANE_FEC_MAXSYM p l])) else s
    if port then zero s [F.LNK_CNT_TX p, F.LNK_CNT_RX p, F.LNK_CNT_CRC p, F.LNK_CNT_NAK p, F.LNK_CNT_REPLAY p, F.LNK_CNT_REPLAY_FLIT p,
      F.LNK_CNT_DUP p, F.LNK_CNT_ROUTE p, F.LNK_CNT_WIDTH p, F.LNK_CNT_RETRAIN p, F.LNK_CNT_BOARD_ERR p, F.LNK_CNT_SYNC_MISS p] else s

/-- EYE_SCAN_START: ignored while BUSY (R346). -/
def eyeScanStart (p l : Nat) (s : State) : State :=
  if 16 ≤ p || 8 ≤ l || isSet s (F.LANE_EYE_CTL_BUSY p l) then s
  else raise (lower (lower s (F.LANE_EYE_CTL_DONE p l)) (F.LANE_EYE_CTL_ABORTED p l)) (F.LANE_EYE_CTL_BUSY p l)

/-- A margin: the points before the first that is not open, from the data sampler's position outward. At a point that is open at most
`limit` of the symbols compared differ (R346). -/
def eyeMargin (symbols limit : Nat) (counts : List Nat) : Nat := (counts.takeWhile (fun c => decide (min c symbols ≤ limit))).length

/-- EYE_SCAN_DONE: the scan has counted at its points of the upper, middle and lower eye, or it ends early. -/
def eyeScanDone (p l : Nat) (eyes : Option (EyeCounts × EyeCounts × EyeCounts)) (s : State) : State :=
  if 16 ≤ p || 8 ≤ l || !isSet s (F.LANE_EYE_CTL_BUSY p l) then s
  else match eyes with
    | none => abortScan s p l
    | some (u, m, d) =>
      let n (c : List Nat) : Nat := min 255 (eyeMargin (2 ^ (16 + 2 * getF s (F.LANE_EYE_CTL_DWELL p l))) (getF s (F.LANE_EYE_CTL_ERR_LIMIT p l)) c)
      let s := raise (lower s (F.LANE_EYE_CTL_BUSY p l)) (F.LANE_EYE_CTL_DONE p l)
      let s := setF (setF s (F.LANE_EYE_UPPER_BOTTOM p l) (n u.bottom)) (F.LANE_EYE_UPPER_TOP p l) (n u.top)
      let s := setF (setF s (F.LANE_EYE_UPPER_RIGHT p l) (n u.right)) (F.LANE_EYE_UPPER_LEFT p l) (n u.left)
      let s := setF (setF s (F.LANE_EYE_MIDDLE_BOTTOM p l) (n m.bottom)) (F.LANE_EYE_MIDDLE_TOP p l) (n m.top)
      let s := setF (setF s (F.LANE_EYE_MIDDLE_RIGHT p l) (n m.right)) (F.LANE_EYE_MIDDLE_LEFT p l) (n m.left)
      let s := setF (setF s (F.LANE_EYE_LOWER_BOTTOM p l) (n d.bottom)) (F.LANE_EYE_LOWER_TOP p l) (n d.top)
      setF (setF s (F.LANE_EYE_LOWER_RIGHT p l) (n d.right)) (F.LANE_EYE_LOWER_LEFT p l) (n d.left)

/-! ### Alignment (R64 to R66, R342) -/

/-- SYNC_EXCHANGE: a SYNC flit is due on a port of the sync tree, INTERVAL_US after the last one. -/
def syncExchange (p : Nat) (s : State) : State :=
  let due := match (link s p).syncAt with
    | some t => decide (t + 1000 * getF s F.TICK_SYNC_CFG ≤ devNow s)
    | none => true
  if due && inSpan s && portUp s p && ((!isMaster s && p == syncPort s) || bitF s F.SPAN_TREE_CHILDREN p) then
    setLink s p { link s p with syncDue := true, syncOpen := true, syncAt := some (devNow s) }
  else s

/-- The offset as a signed number: what half the difference of two delays comes to, rounded down. -/
def syncOffset (m : SyncMsg) (arrival : Nat) : Int :=
  (((m.echoRx : Int) - m.echoTx) - ((arrival : Int) - m.tTx)) / 2

/-- Lock state after an exchange (R65, R66). A third exchange in a row out of tolerance is an alignment loss, whether or not the member
was locked; further ones in the same row are not counted again (DESIGN CHOICE, log 94). -/
def noteOffset (s : State) (off : Int) : State :=
  let shown := max (-32767) (min 32767 off)
  let s := setF s F.TICK_SYNC_OFFSET_NS (shown % 65536).toNat
  let good := if off.natAbs ≤ 8 then s.span.goodSync + 1 else 0
  let bad := if 40 < off.natAbs then s.span.badSync + 1 else 0
  let s := setSpan s { s.span with goodSync := good, badSync := bad }
  if bad = 3 then alignLoss s none
  else if 8 ≤ good ∧ ¬ isSet s F.TICK_STAT_LOCKED then
    let s := raise s F.TICK_STAT_LOCKED
    eventToMaster s srcTick none 0x06 (frameNow s) (getF s F.TICK_SYNC_OFFSET_NS + 2 ^ 16)
  else s

/-- SYNC_RECEIVE: a SYNC flit that arrived at device time `arrival` on port `p`. An exchange that a lane change spans is
discarded (R335). -/
def syncReceive (p : Nat) (m : SyncMsg) (arrival : Nat) (s : State) : State :=
  if !portUp s p then s
  else
    let l := link s p
    let parent := inSpan s && !isMaster s && p == syncPort s
    let s := setLink s p { l with echoTx := m.tTx, echoRx := arrival, syncOpen := false, syncSpan := false }
    if l.syncSpan then bump s (F.LNK_CNT_SYNC_MISS p)
    else if parent then
      let s := setSpan s { s.span with masterSeenAt := devNow s }
      if m.echoTx = 0 then s else noteOffset s (syncOffset m arrival)
    else s

end Sys2Proof.Machine
end

