-- ==== Sys2Proof/Machine/RegAccess.lean ====
section
/-! DEFINITION. Finding a register of the control window by its offset, and reading and writing its stored fields (R20 to R23,
R46). -/
namespace Sys2Proof.Machine

/-- The offset of element (i, j, …) of a register array from its first, if `d` is one: `dims` lists counts and strides, outer
index first. -/
def idxDelta : List (Nat × Nat) → Nat → Bool
  | [], d => d == 0
  | (n, stride) :: l, d =>
    match l with
    | [] => d % stride == 0 && decide (d / stride < n)
    | _ => decide (d / stride < n) && idxDelta l (d % stride)

/-- Whether a register or array of registers has one at `off`. -/
def RegSpec.at (r : RegSpec) (off : Nat) : Bool := decide (r.off ≤ off) && idxDelta r.dims (off - r.off)

/-- The register at a control-window offset, with its distance from the first of its array. -/
def findReg (off : Nat) : Option (RegSpec × Nat) := (regTable.find? (fun r => r.at off)).map (fun r => (r, off - r.off))

/-- The key of a field of the array element at distance `delta`. -/
def FieldSpec.key (f : FieldSpec) (delta : Nat) : Nat := (f.keyOff + delta) * 32 + f.keyLo

/-- The stored bits of a field. -/
def fieldGet (s : State) (f : FieldSpec) (delta : Nat) : Nat := smapGet fldReset s.flds (f.key delta) / 2 ^ f.shift % 2 ^ f.width

/-- Sets the stored bits of a field: the rest of a value that two registers hold stays. -/
def fieldSet (s : State) (f : FieldSpec) (delta v : Nat) : State :=
  let old := smapGet fldReset s.flds (f.key delta)
  let cut := old - old / 2 ^ f.shift % 2 ^ f.width * 2 ^ f.shift
  { s with flds := smapSet fldReset s.flds (f.key delta) (cut + v % 2 ^ f.width * 2 ^ f.shift) }

/-- Whether a value is a legal encoding of a field (R22). -/
def FieldSpec.legalValue (f : FieldSpec) (v : Nat) : Bool :=
  match f.legal with
  | some (lo, hi) => decide (lo ≤ v) && decide (v ≤ hi)
  | none => true

/-- The stored word of a register, less fields that read as 0. -/
def storedWord (s : State) (r : RegSpec) (delta : Nat) : Nat :=
  (r.fields.map (fun f => if f.acc = .wo then 0 else fieldGet s f delta * 2 ^ f.lo)).sum

/-- Whether the image may give a field of the register at `off` the value `x`: a legal one, and for the class of a port one that R311 permits
on it. -/
def imageValueOk (off : Nat) (f : FieldSpec) (x : Nat) : Bool :=
  f.legalValue x && (if off / 0x10000 = 0xA ∧ off % 0x1000 = 0x8 ∧ f.lo = 0 then
    (let p := off % 0x10000 / 0x1000
     x == 0 || (x == 1 && decide (p ≤ 6)) || ((x == 2 || x == 3) && decide (7 ≤ p)))
    else true)

/-- Loads the fields of a register whose Reset column reads "image" from `v` (R457). A value out of the range that the field's description
or rule gives it (a period outside 100 to 16,000, a span size above 1,024, a reserved class) leaves that field as it is (R22; DESIGN
CHOICE, log 95). -/
def loadImageReg (s : State) (off v : Nat) : State :=
  match findReg off with
  | some (r, d) => (r.fields.filter (fun f => f.src = .image)).foldl (fun s f =>
      let x := bitsOf v (f.lo + f.width - 1) f.lo
      if imageValueOk off f x then fieldSet s f d x else s) s
  | none => s

/-- A REG record's value sets no bit outside the fields that the image loads (R457). -/
def imageRegOk (off v : Nat) : Bool :=
  match findReg off with
  | some (r, _) => v / 2 ^ 32 == 0 && (List.range 32).all (fun i => !bitOf v i ||
      r.fields.any (fun f => f.src = .image && decide (f.lo ≤ i) && decide (i < f.lo + f.width)))
  | none => false

end Sys2Proof.Machine
end

