-- ==== Sys2Proof/Machine/Tickets.lean ====
section
/-! DEFINITION. The ticket counter (R496 to R500). -/
namespace Sys2Proof.Machine

def setStw (s : State) (x : StwSt) : State := { s with stw := x }

/-! ### Tickets (R496 to R500) -/

/-- Tickets held by a steward. -/
def heldBy (s : State) (n : Nat) : List Nat := (s.stw.holds.filter (fun h => h.2 == n)).map (fun h => h.1)

/-- Shows what each steward holds, and the reclaim list's length. -/
def showHolds (s : State) : State :=
  (List.range 4).foldl (fun s n => setF s (F.STW_CORE_HELD n) (heldBy s n).length) (setF s F.STW_RECLAIM_LEN s.stw.reclaim.length)

/-- The ticket counter starts afresh, with no batch open. -/
def freshTickets (s : State) : State :=
  let s := setF (setF (lower s F.STW_BATCH_OPEN) F.STW_NEXT 0) F.STW_DONE 0
  showHolds (setStw s { s.stw with done := [], holds := [], reclaim := [], history := [], waiting := [], closed := 0 })

/-- The count of a steward's watchdog begins (R489). -/
def startCount (s : State) (n : Nat) : State :=
  setStw s { s.stw with warned := s.stw.warned.filter (fun m => m != n), countAt := s.stw.countAt.filter (fun p => p.1 != n) ++ [(n, devNow s)] }

/-! ### Mailbox answers (R490, R492, R494) -/

/-- The stewards' registers are powered. -/
def stewardsServe (s : State) : Bool := !s.pwr.dormant && s.boot.phase != .safe

/-- Sends the response to a request, and counts it. -/
def respond (r : Requester) (q : MboxReq) (e : MboxEnd) (s : State) : State :=
  let s := if stewardsServe s then
      let s := bump (raise s F.STW_STAT_MBOX_DONE) F.STW_CNT_MBOX
      if e.result = 0 then s else bump s F.STW_CNT_MBOX_ERR
    else s
  emit s (.mailbox r 0x4851 (leBytes (Nat.lor 128 q.command) 1 ++ leBytes q.seq 1 ++ leBytes e.data.length 2 ++ leBytes e.result 1 ++ leBytes e.reason 3 ++ e.data))

/-- A session that is open (R482). -/
def sessionOpen (s : State) (id : Nat) : Bool := s.spdm.sessions.any (fun x => x.id == id && x.open_)

/-- The requester of a request: a message of a session that is not open is no request. -/
def mboxWho (s : State) (q : MboxReq) : Option Requester :=
  match q.session with
  | none => some .mgmt
  | some id => if sessionOpen s id then some .session else none

/-- Every request that waits is answered with a result, and leaves the mailbox. -/
def answerWaiting (s : State) (result : Nat) : State :=
  s.stw.mbox.foldl (fun s q => match mboxWho s q with
    | some r => respond r q { result := result } s
    | none => s) (setStw s { s.stw with mbox := [] })

/-- BATCH_OPEN: a steward's write of STW_BATCH, where no batch is open. A reserved KIND or COUNT leaves its field as it is and the other takes
effect (R22); where both then hold values of R496, the write opens the batch. -/
def batchOpen (kind count : Nat) (s : State) : State :=
  if isSet s F.STW_BATCH_OPEN then s
  else
    let s := if kind = 0 ∨ 4 ≤ kind then s else setF s F.STW_BATCH_KIND kind
    let s := if count = 0 ∨ 1048576 < count then s else setF s F.STW_BATCH_COUNT count
    if getF s F.STW_BATCH_KIND = 0 ∨ getF s F.STW_BATCH_COUNT = 0 then s
    else
    let s := (List.range 4).foldl (fun s n => lower s (F.STW_COMMIT_RES_VALID n)) (raise s F.STW_BATCH_OPEN)
    showHolds (setStw (setF (setF s F.STW_NEXT 0) F.STW_DONE 0) { s.stw with done := [], holds := [], reclaim := [], history := [] })

/-- The ticket that a read grants next: its word, and whether it comes from the reclaim list. -/
def nextTicket (s : State) : Nat × Option (Nat × Bool) :=
  if !isSet s F.STW_BATCH_OPEN then (2 ^ 31, none)
  else match s.stw.reclaim with
    | t :: _ => (2 ^ 30 + t, some (t, true))
    | [] => let n := getF s F.STW_NEXT
            if n < getF s F.STW_BATCH_COUNT then (n, some (n, false)) else (2 ^ 31, none)

/-- A steward's read of STW_TICKET: what it returns, and the grant. -/
def ticketGrant (s : State) (n : Nat) : Nat × State :=
  if 16 ≤ (heldBy s n).length then (2 ^ 31 + 2 ^ 29, s)
  else
    let (w, g) := nextTicket s
    let s := match g with
      | some (t, true) => setStw s { s.stw with reclaim := s.stw.reclaim.drop 1, holds := s.stw.holds ++ [(t, n)] }
      | some (t, false) => setStw (setF s F.STW_NEXT (t + 1)) { s.stw with holds := s.stw.holds ++ [(t, n)] }
      | none => s
    (w, showHolds s)

/-- TICKET_READ. -/
def ticketRead (n : Nat) (s : State) : State :=
  if 4 ≤ n then s
  else
    let (w, s) := ticketGrant s n
    emit s (.readDone (.steward n) 0x160010 w)

/-- The word that a read by any other requester returns. -/
def peekWord (s : State) : Nat := (nextTicket s).1 + 2 ^ 28

/-- TICKET_PEEK. -/
def ticketPeek (r : Requester) (s : State) : State := emit s (.readDone r 0x160010 (peekWord s))

/-- The result of steward `n`'s commit. -/
def commitResult (s : State) (n t : Nat) (won : Bool) : State :=
  setF (setBool (raise s (F.STW_COMMIT_RES_VALID n)) (F.STW_COMMIT_RES_WON n) won) (F.STW_COMMIT_RES_TICKET n) t

/-- The batch closes when every tile has a winning commit. -/
def closeBatch (s : State) : State :=
  if getF s F.STW_DONE < getF s F.STW_BATCH_COUNT then s
  else
    let s := bump (raise (lower s F.STW_BATCH_OPEN) F.STW_STAT_BATCH_DONE) F.STW_BATCH_ID
    setStw s { s.stw with closed := getF s F.STW_BATCH_KIND }

/-- TILE_COMMIT: steward `n` commits a ticket. -/
def tileCommit (n t : Nat) (s : State) : State :=
  if 4 ≤ n then s
  else
    let here := isSet s F.STW_BATCH_OPEN && decide (t < getF s F.STW_BATCH_COUNT)
    let may := s.stw.holds.any (fun h => h == (t, n)) || s.stw.history.contains t
    if here && may && !s.stw.done.contains t then
      let s := setStw s { s.stw with done := s.stw.done ++ [t], holds := s.stw.holds.filter (fun h => h.1 != t) }
      let s := bump (commitResult s n t true) F.STW_CNT_COMMIT
      showHolds (closeBatch (setF s F.STW_DONE s.stw.done.length))
    else bump (raise (commitResult s n t false) F.STW_STAT_DUP) F.STW_CNT_DUP

end Sys2Proof.Machine
end

