-- ==== Sys2Proof/Machine/Codec.lean ====
section
/-! DEFINITION. The weight codec (R271 to R273): blocks, canonical prefix codes, and which blocks are defective. -/
namespace Sys2Proof.Machine

/-- Code lengths of `n` symbols, two to a byte, the even symbol in bits [3:0] (R272). -/
def codeLengths (body : List Nat) (n : Nat) : List Nat :=
  (List.range n).map (fun s => if s % 2 = 0 then body.getD (s / 2) 0 % 16 else body.getD (s / 2) 0 / 16 % 16)

/-- Symbols of one length, in increasing order. -/
def symbolsOfLen (lens : List Nat) (k : Nat) : List Nat :=
  (List.range lens.length).filter (fun s => decide (lens.getD s 0 = k))

/-- The canonical codes as (length, code, symbol): by increasing length, then symbol; the first code of each length is
the last of the previous length plus 1, shifted left by the difference in length (R272). -/
def canonicalCodes (lens : List Nat) : List (Nat × Nat × Nat) :=
  ((List.range 15).foldl (fun (st : Nat × List (Nat × Nat × Nat)) i =>
    let k := i + 1
    let next := 2 * st.1
    let syms := symbolsOfLen lens k
    (next + syms.length,
      st.2 ++ ((List.range syms.length).zip syms).map (fun p => (k, next + p.1, p.2)))) (0, [])).2

/-- The code lengths form a complete prefix code: the codes' shares of the code space add up to all of it (R273). -/
def completeCode (lens : List Nat) : Bool :=
  ((lens.filter (fun k => decide (k ≠ 0))).map (fun k => 2 ^ (15 - k))).sum == 2 ^ 15

/-- The bits of a byte stream, each byte from bit 7 down to bit 0 (R272). -/
def streamBits (l : List Nat) : List Bool :=
  l.flatMap (fun b => (List.range 8).map (fun i => decide (b / 2 ^ (7 - i) % 2 = 1)))

/-- Matches one code, most significant bit first; none where the stream ends first. `fuel` is the longest code. -/
def matchCode (codes : List (Nat × Nat × Nat)) : Nat → Nat → Nat → List Bool → Option (Nat × List Bool)
  | 0, _, _, _ => none
  | _ + 1, _, _, [] => none
  | fuel + 1, k, code, b :: rest =>
    let code := 2 * code + (if b then 1 else 0)
    match codes.find? (fun c => c.1 == k + 1 && c.2.1 == code) with
    | some c => some (c.2.2, rest)
    | none => matchCode codes fuel (k + 1) code rest

/-- Decodes `n` symbols; none where the stream ends before them. -/
def decodeSymbols (codes : List (Nat × Nat × Nat)) : Nat → List Bool → Option (List Nat)
  | 0, _ => some []
  | n + 1, bits =>
    match matchCode codes 15 0 0 bits with
    | none => none
    | some (s, rest) => (decodeSymbols codes n rest).map (fun l => s :: l)

/-- Pairs of 4-bit symbols as bytes, the first in bits [3:0] (R272). -/
def nibblePairs : List Nat → List Nat
  | a :: b :: l => (a + 16 * b) :: nibblePairs l
  | _ => []

/-- The decompressed bytes of a block body, or none where it is defective (R272, R273). -/
def decodeBody (mode ulen : Nat) (body : List Nat) : Option (List Nat) :=
  match mode with
  | 0 => if ulen ≤ body.length then some (body.take ulen) else none
  | 1 =>
    let lens := codeLengths body 16
    if body.length < 8 || !completeCode lens then none
    else (decodeSymbols (canonicalCodes lens) (2 * ulen) (streamBits (body.drop 8))).map nibblePairs
  | 2 =>
    let lens := codeLengths body 256
    if body.length < 128 || !completeCode lens then none
    else decodeSymbols (canonicalCodes lens) ulen (streamBits (body.drop 128))
  | _ => none

/-- One block at the head of a shard's bytes: its decompressed bytes and what follows, or none where it is defective.
`left` is how much of the shard is still to come, which fixes ULEN (R271, R273). -/
def decodeBlock (left : Nat) (l : List Nat) : Option (List Nat × List Nat) :=
  let f (o n : Nat) : Nat := leRead (fun i => l.getD i 0) o n
  let ulen := f 4 4
  let clen := f 8 4
  if l.length < 16 || f 0 2 != 0x5957 || 2 < f 2 1 || f 3 1 != 0 || ulen != min left 65536 || ulen == 0 ||
      l.length < 16 + clen then none
  else
    match decodeBody (f 2 1) ulen ((l.drop 16).take clen) with
    | none => none
    | some out => if crc32 out = f 12 4 then some (out, l.drop (16 + clen)) else none

/-- All blocks of a compressed shard that decompresses to `left` bytes, and nothing behind them (R284); `fuel` bounds the number of blocks. -/
def decodeShard : Nat → Nat → List Nat → Option (List Nat)
  | 0, left, l => if left = 0 ∧ l = [] then some [] else none
  | fuel + 1, left, l =>
    if left = 0 then (if l = [] then some [] else none)
    else
      match decodeBlock left l with
      | none => none
      | some (out, rest) => (decodeShard fuel (left - out.length) rest).map (fun r => out ++ r)

/-- The shard's decompressed bytes, or none where a block is defective. -/
def decompress (ulen : Nat) (l : List Nat) : Option (List Nat) := decodeShard (ceilDiv ulen 65536) ulen l

/-- The offset of the first defective block of a shard's bytes. -/
def badBlock : Nat → Nat → Nat → List Nat → Nat
  | 0, _, off, _ => off
  | fuel + 1, left, off, l =>
    if left = 0 then off
    else
      match decodeBlock left l with
      | none => off
      | some (out, rest) => badBlock fuel (left - out.length) (off + (l.length - rest.length)) rest

end Sys2Proof.Machine
end

