-- ==== Sys2Proof/Machine/Aes.lean ====
section
/-! DEFINITION. AES-256-GCM (FIPS 197, SP 800-38D), under which the blocks of Store are written (R257). -/
namespace Sys2Proof.Machine

/-- The substitution of FIPS 197, by high and low half of a byte. -/
def aesRows : List (List Nat) := [
  [0x63, 0x7C, 0x77, 0x7B, 0xF2, 0x6B, 0x6F, 0xC5, 0x30, 0x01, 0x67, 0x2B, 0xFE, 0xD7, 0xAB, 0x76],
  [0xCA, 0x82, 0xC9, 0x7D, 0xFA, 0x59, 0x47, 0xF0, 0xAD, 0xD4, 0xA2, 0xAF, 0x9C, 0xA4, 0x72, 0xC0],
  [0xB7, 0xFD, 0x93, 0x26, 0x36, 0x3F, 0xF7, 0xCC, 0x34, 0xA5, 0xE5, 0xF1, 0x71, 0xD8, 0x31, 0x15],
  [0x04, 0xC7, 0x23, 0xC3, 0x18, 0x96, 0x05, 0x9A, 0x07, 0x12, 0x80, 0xE2, 0xEB, 0x27, 0xB2, 0x75],
  [0x09, 0x83, 0x2C, 0x1A, 0x1B, 0x6E, 0x5A, 0xA0, 0x52, 0x3B, 0xD6, 0xB3, 0x29, 0xE3, 0x2F, 0x84],
  [0x53, 0xD1, 0x00, 0xED, 0x20, 0xFC, 0xB1, 0x5B, 0x6A, 0xCB, 0xBE, 0x39, 0x4A, 0x4C, 0x58, 0xCF],
  [0xD0, 0xEF, 0xAA, 0xFB, 0x43, 0x4D, 0x33, 0x85, 0x45, 0xF9, 0x02, 0x7F, 0x50, 0x3C, 0x9F, 0xA8],
  [0x51, 0xA3, 0x40, 0x8F, 0x92, 0x9D, 0x38, 0xF5, 0xBC, 0xB6, 0xDA, 0x21, 0x10, 0xFF, 0xF3, 0xD2],
  [0xCD, 0x0C, 0x13, 0xEC, 0x5F, 0x97, 0x44, 0x17, 0xC4, 0xA7, 0x7E, 0x3D, 0x64, 0x5D, 0x19, 0x73],
  [0x60, 0x81, 0x4F, 0xDC, 0x22, 0x2A, 0x90, 0x88, 0x46, 0xEE, 0xB8, 0x14, 0xDE, 0x5E, 0x0B, 0xDB],
  [0xE0, 0x32, 0x3A, 0x0A, 0x49, 0x06, 0x24, 0x5C, 0xC2, 0xD3, 0xAC, 0x62, 0x91, 0x95, 0xE4, 0x79],
  [0xE7, 0xC8, 0x37, 0x6D, 0x8D, 0xD5, 0x4E, 0xA9, 0x6C, 0x56, 0xF4, 0xEA, 0x65, 0x7A, 0xAE, 0x08],
  [0xBA, 0x78, 0x25, 0x2E, 0x1C, 0xA6, 0xB4, 0xC6, 0xE8, 0xDD, 0x74, 0x1F, 0x4B, 0xBD, 0x8B, 0x8A],
  [0x70, 0x3E, 0xB5, 0x66, 0x48, 0x03, 0xF6, 0x0E, 0x61, 0x35, 0x57, 0xB9, 0x86, 0xC1, 0x1D, 0x9E],
  [0xE1, 0xF8, 0x98, 0x11, 0x69, 0xD9, 0x8E, 0x94, 0x9B, 0x1E, 0x87, 0xE9, 0xCE, 0x55, 0x28, 0xDF],
  [0x8C, 0xA1, 0x89, 0x0D, 0xBF, 0xE6, 0x42, 0x68, 0x41, 0x99, 0x2D, 0x0F, 0xB0, 0x54, 0xBB, 0x16]]

def aesSub (b : Nat) : Nat := (aesRows.getD (b / 16) []).getD (b % 16) 0

/-- Multiplication by x in the byte field. -/
def aesX2 (b : Nat) : Nat := if b < 128 then 2 * b else (2 * b) ^^^ 0x11B

/-- XOR of two byte lists. -/
def xorBytes (a b : List Nat) : List Nat := List.zipWith (fun x y => x ^^^ y) a b

/-- The round constant of key word `i`. -/
def aesRcon (i : Nat) : Nat := (List.range (i / 8 - 1)).foldl (fun r _ => aesX2 r) 1

/-- The next word of the key schedule, given those before it. -/
def aesNextWord (ws : List (List Nat)) (i : Nat) : List Nat :=
  let prev := ws.getD (i - 1) []
  let t := if i % 8 = 0 then xorBytes ((prev.drop 1 ++ prev.take 1).map aesSub) [aesRcon i, 0, 0, 0]
    else if i % 8 = 4 then prev.map aesSub else prev
  xorBytes (ws.getD (i - 8) []) t

/-- The 60 words of the schedule of a 32-byte key. -/
def aesSchedule (key : List Nat) : List (List Nat) :=
  (List.range 52).foldl (fun ws i => ws ++ [aesNextWord ws (i + 8)]) ((List.range 8).map (fun i => (key.drop (4 * i)).take 4))

/-- The round key of round `r`, as 16 bytes. -/
def aesRoundKey (ws : List (List Nat)) (r : Nat) : List Nat := ((ws.drop (4 * r)).take 4).flatMap id

/-- Byte substitution, and the shift of the rows: byte `i` is row i mod 4, column i ÷ 4. -/
def aesSubShift (st : List Nat) : List Nat := (List.range 16).map (fun i => aesSub (st.getD ((i + 4 * (i % 4)) % 16) 0))

/-- The mixing of the columns. -/
def aesMix (st : List Nat) : List Nat := (List.range 16).map (fun i =>
  let at_ := fun k => st.getD (4 * (i / 4) + (i + k) % 4) 0
  aesX2 (at_ 0) ^^^ (aesX2 (at_ 1) ^^^ at_ 1) ^^^ at_ 2 ^^^ at_ 3)

/-- One block of 16 bytes encrypted under a key schedule. -/
def aesBlock (ws : List (List Nat)) (p : List Nat) : List Nat :=
  let st := (List.range 13).foldl (fun st r => xorBytes (aesMix (aesSubShift st)) (aesRoundKey ws (r + 1))) (xorBytes p (aesRoundKey ws 0))
  xorBytes (aesSubShift st) (aesRoundKey ws 14)

/-- A list of bytes as a number, the first byte highest, and back. -/
def bigNat (l : List Nat) : Nat := l.foldl (fun n b => 256 * n + b) 0

def bigBytes (x : Nat) (n : Nat) : List Nat := (List.range n).map (fun i => x / 256 ^ (n - 1 - i) % 256)

/-- Multiplication in the field of GHASH. -/
def ghashMul (x y : Nat) : Nat :=
  ((List.range 128).foldl (fun (zv : Nat × Nat) i =>
    (if x / 2 ^ (127 - i) % 2 = 1 then zv.1 ^^^ zv.2 else zv.1,
     if zv.2 % 2 = 1 then (zv.2 / 2) ^^^ (0xE1 * 2 ^ 120) else zv.2 / 2)) (0, y)).1

/-- The 16-byte blocks of a list, the last one padded with zeros. -/
def blocks16 (l : List Nat) : List (List Nat) :=
  (List.range (ceilDiv l.length 16)).map (fun i => let b := (l.drop (16 * i)).take 16; b ++ List.replicate (16 - b.length) 0)

def ghash (h : Nat) (l : List (List Nat)) : Nat := l.foldl (fun y b => ghashMul (y ^^^ bigNat b) h) 0

/-- Seals a plaintext: the ciphertext and the 16-byte tag. `iv` has 12 bytes. -/
def gcmSeal (key iv aad plain : List Nat) : List Nat × List Nat :=
  let ws := aesSchedule key
  let h := bigNat (aesBlock ws (List.replicate 16 0))
  let counter := fun (n : Nat) => iv ++ bigBytes n 4
  let ct := (List.range (ceilDiv plain.length 16)).flatMap (fun i => xorBytes ((plain.drop (16 * i)).take 16) (aesBlock ws (counter (i + 2))))
  let s := ghash h (blocks16 aad ++ blocks16 ct ++ [bigBytes (8 * aad.length) 8 ++ bigBytes (8 * ct.length) 8])
  (ct, xorBytes (bigBytes s 16) (aesBlock ws (counter 1)))

end Sys2Proof.Machine
end

