-- ==== Sys2Proof/Machine/StoreBlocks.lean ====
section
/-! DEFINITION. The blocks of Store: which are free, how one is sealed, and the write session (R255 to R258). -/
namespace Sys2Proof.Machine

def setCatalogue (s : State) (c : Catalogue) : State := setMem s { s.mem with catalogue := c }

/-! ### Addresses (R256) -/

/-- 64 TiB in blocks of 4,096 B. -/
def storeLimit : Nat := 2 ^ 34

/-- What each drive gives Store, in drive order, up to the limit. -/
def addressed : Nat → List (Nat × Nat) → List (Nat × Nat)
  | _, [] => []
  | left, (d, n) :: l => (d, min n left) :: addressed (left - n) l

/-- Puts a used range (first LBA, blocks) into a list sorted by LBA. -/
def insertRange (r : Nat × Nat) : List (Nat × Nat) → List (Nat × Nat)
  | [] => [r]
  | x :: l => if r.1 ≤ x.1 then r :: x :: l else x :: insertRange r l

/-- The free ranges of a drive of `n` blocks from `at_` on, between used ranges in rising order. -/
def freeRanges (n : Nat) : Nat → List (Nat × Nat) → List (Nat × Nat)
  | at_, [] => if at_ < n then [(at_, n - at_)] else []
  | at_, (a, k) :: l => (if at_ < a then [(at_, min a n - at_)] else []) ++ freeRanges n (max at_ (a + k)) l

/-- The runs of free blocks: not held by a shard of the catalogue or of `more`, nor by the catalogue itself, and not the header's on drive 0
(R258). -/
def freeRuns (c : Catalogue) (more : List ShardRec) : List BlockRun :=
  let used := c.own ++ (c.epochs.flatMap (fun r => r.shards) ++ more).flatMap (fun h => h.runs)
  c.drives.flatMap (fun d =>
    let mine := (used.filter (fun r => r.drive == d.1)).foldl (fun l r => insertRange (r.lba, r.n) l) []
    (freeRanges d.2 (if d.1 = 0 then 2 else 0) mine).map (fun r => ⟨d.1, r.1, r.2⟩))

/-- How many blocks of the attached drives are free. -/
def freeBlocks (c : Catalogue) : Nat := ((freeRuns c []).map (fun r => r.n)).sum

/-- Takes `need` blocks from runs, in order. -/
def takeRuns : Nat → List BlockRun → List BlockRun
  | _, [] => []
  | need, r :: l => if need = 0 then [] else { r with n := min r.n need } :: takeRuns (need - r.n) l

/-- Free blocks for a shard. From which free run on the module takes them is its own affair (log entry 61). -/
def placeBlocks (s : State) (more : List ShardRec) (need : Nat) : List BlockRun × State :=
  let (k, s) := freeVal s 34
  let l := freeRuns s.mem.catalogue more
  (takeRuns need (l.rotateLeft k), s)

/-! ### Sealing (R256, R257) -/

/-- Bytes 16 to 63 of a block's metadata: write generation, model and epoch. -/
def blockMeta (wgen model epoch : Nat) : List Byte :=
  leBytes wgen 6 ++ leBytes 0 2 ++ leBytes model 4 ++ leBytes epoch 2 ++ List.replicate 34 0#8

/-- The 96-bit IV of a block. -/
def blockIv (drive lba wgen : Nat) : Nat := drive % 2 ^ 4 * 2 ^ 92 + lba % 2 ^ 44 * 2 ^ 48 + wgen % 2 ^ 48

/-- The current owner key hash: that of the highest slot written (R473). -/
def ownerKh (s : State) : Nat := s.fuses.owners.getLastD 0

/-- The Store key, 256 bits derived from the unique device secret, the current owner key hash and the STORE_GEN count (R474). -/
def storeKey (s : State) : List Nat :=
  bigBytes (Config.kdf (s.fuses.uds) "STORE" ((leBytes (ownerKh s) 48).reverse ++ leBytes s.fuses.storeGen 1) % 2 ^ 256) 32

/-- Writes one block of 4,096 B to Store: sealed under the Store key, with its metadata. -/
def writeBlock (s : State) (at_ : Nat × Nat) (model epoch : Nat) (plain : List Nat) : State :=
  let w := s.mem.catalogue.wgenHigh
  let aad := blockMeta w model epoch
  let x := gcmSeal (storeKey s) (bigBytes (blockIv at_.1 at_.2 w) 12) (aad.map BitVec.toNat) plain
  emit s (.storeWrite at_.1 at_.2 (x.1.map (BitVec.ofNat 8)) (x.2.map (BitVec.ofNat 8) ++ aad))

/-- Block `i` of a compressed shard, the last one padded with zeros (R291). -/
def plainBlock (bytes : List Nat) (i : Nat) : List Nat :=
  let b := (bytes.drop (4096 * i)).take 4096
  b ++ List.replicate (4096 - b.length) 0

/-- Writes the blocks of a compressed shard. -/
def writeBlocks (s : State) (h : ShardRec) (r : EpochRec) (bytes : List Nat) : State :=
  (List.range (min (ceilDiv bytes.length 4096) (shardBlocks h).length)).foldl (fun s i => writeBlock s (blockAt h i) r.model r.epoch (plainBlock bytes i)) s

/-! ### Write sessions (R258) -/

/-- What a header copy holds: WGEN_HIGH in its first bytes (DESIGN CHOICE, log entry 101), and nothing else that varies. -/
def headerPlain (w : Nat) : List Nat := plainBlock ((leBytes w 6).map BitVec.toNat) 0

/-- A write session begins: WGEN advances, the header copy in LBA w mod 2 is written and flushed, on a drive that is
no longer attached too (DESIGN CHOICE, log entry 101). -/
def beginSession (s : State) : State :=
  let c := s.mem.catalogue
  let w := c.wgenHigh + 1
  let c := if w % 2 = 0 then { c with head0 := some w } else { c with head1 := some w }
  nvmeIo (writeBlock (setCatalogue s { c with wgenHigh := w }) (0, w % 2) 0 0 (headerPlain w)) 0 0x00 0

/-- The catalogue of a session is written, in one free block and with content that only the firmware knows, and every attached drive is flushed;
the block that held it before is free then (R258, R291, R292; DESIGN CHOICE, log entry 101). -/
def closeWrites (s : State) : State :=
  let (runs, s) := placeBlocks s [] 1
  let s := match runs with
    | [] => s
    | r :: _ =>
      let s := setCatalogue s { s.mem.catalogue with own := [{ r with n := 1 }] }
      writeBlock s (r.drive, r.lba) 0 0 (bigBytes (Config.catalogueBlock s.mem.catalogue.wgenHigh).toNat 4096)
  s.mem.catalogue.drives.foldl (fun s d => nvmeIo s d.1 0x00 0) s

/-- The WGEN_HIGH that Store attach takes: the higher of the copies whose tag verifies; `bad` names those that do not. -/
def headerWgen (c : Catalogue) (bad : Nat) : Nat :=
  max (if bitOf bad 0 then 0 else c.head0.getD 0) (if bitOf bad 1 then 0 else c.head1.getD 0)

end Sys2Proof.Machine
end

