-- ==== Sys2Proof/Machine/Weights.lean ====
section
/-! DEFINITION. Weight images and the weight commands: ingest, retire, switch, stage, unstage, query (R283 to R309). -/
namespace Sys2Proof.Machine

def setWgt (s : State) (w : WgtSt) : State := { s with wgt := w }

/-- Ends the effect of the running weight command with a RESULT of R290; WGT_CMD_END shows it. -/
def setResult (s : State) (r : Nat) : State := setWgt s { s.wgt with result := some r }

/-- Whether the weight command `op` is running and has not come to its result. -/
def cmdRuns (s : State) (op : Nat) : Bool := isSet s F.WGT_CMD_STAT_BUSY && s.wgt.op == op && s.wgt.result.isNone

/-- A write of OP to WGT_CMD starts a command, but while one runs and for a reserved OP (R289). -/
def startWgt (op : Nat) (s : State) : State :=
  if isSet s F.WGT_CMD_STAT_BUSY || op = 0 || 7 ≤ op then s
  else setWgt (raise s F.WGT_CMD_STAT_BUSY) { s.wgt with op := op, result := none }

/-- WGT_CMD_END: the command's end (R289). -/
def wgtCmdEnd (s : State) : State :=
  match s.wgt.result with
  | some r =>
    if !isSet s F.WGT_CMD_STAT_BUSY then s
    else
      let s := setF (setF (lower s F.WGT_CMD_STAT_BUSY) F.WGT_CMD_STAT_OP s.wgt.op) F.WGT_CMD_STAT_RESULT r
      let s := raise s F.WGT_STAT_CMD_DONE
      setWgt (if r = 0 then s else raise s F.WGT_STAT_CMD_FAIL) { s.wgt with result := none }
  | none => s

/-- Loads the capture with the first of the events of R309. -/
def wgtEvent (s : State) (bit : Fld) (kind model epoch shard : Nat) : State :=
  let s := capture s [F.WGT_STAT_DIGEST_FAIL, F.WGT_STAT_CRC_FAIL, F.WGT_STAT_SPAN_LOAD_FAIL]
    [(F.WGT_FCAP_MODEL, model), (F.WGT_FCAP_INFO_EPOCH, epoch), (F.WGT_FCAP_INFO_SHARD, shard), (F.WGT_FCAP_KIND, kind)]
  raise s bit

/-! ### The manifest (R283 to R285) -/

/-- A manifest: the epoch's record, whether it activates, and each shard's offset in the image. -/
structure Manifest where
  ep : EpochRec := {}
  activate : Bool := false
  offs : List Nat := []
  deriving DecidableEq, Repr

def shardOf (rd : Nat → Nat) (o : Nat) : ShardRec :=
  { side := leRead rd o 1, home := leRead rd (o + 2) 2, tfirst := leRead rd (o + 4) 2, tlast := leRead rd (o + 6) 2,
    ulen := leRead rd (o + 8) 4, clen := leRead rd (o + 12) 4, crc := leRead rd (o + 24) 4, digest := leRead rd (o + 32) 32 }

def objectOf (rd : Nat → Nat) (o : Nat) : ObjRec :=
  { kind := leRead rd o 1, shard := leRead rd (o + 2) 2, off := leRead rd (o + 4) 4, len := leRead rd (o + 8) 4, configId := leRead rd (o + 12) 4 }

/-- Offsets of shard record `k` and, with `n` shards, of object record `j`. -/
def shardAt (k : Nat) : Nat := 64 + 64 * k
def objectAt (n j : Nat) : Nat := 64 + 64 * n + 16 * j

def manifestOf (rd : Nat → Nat) : Manifest :=
  let n := leRead rd 14 2
  let f := leRead rd 6 2
  { ep := { model := leRead rd 8 4, epoch := leRead rd 12 2, q5 := bitOf f 0, span := bitOf f 2, layout := leRead rd 20 4,
             stateTag := leRead rd 24 4, shards := (List.range n).map (fun k => shardOf rd (shardAt k)),
             objects := (List.range (leRead rd 16 4)).map (fun j => objectOf rd (objectAt n j)) },
    activate := bitOf f 1,
    offs := (List.range n).map (fun k => leRead rd (shardAt k + 16) 8) }

/-- The shards before shard `k`, and the manifest once shard `k` holds its blocks. -/
def Manifest.done (m : Manifest) (k : Nat) : List ShardRec := m.ep.shards.take k

def Manifest.hold (m : Manifest) (k : Nat) (h : ShardRec) : Manifest :=
  { m with ep := { m.ep with shards := m.ep.shards.mapIdx (fun i g => if i = k then h else g) } }

/-- The manifest's length in bytes. -/
def manifestLen (rd : Nat → Nat) : Nat := objectAt (leRead rd 14 2) (leRead rd 16 4)

/-- The header keeps R283; `len` is WGT_ING_LEN. -/
def manifestOk (rd : Nat → Nat) (len : Nat) : Bool :=
  let f := leRead rd 6 2
  let objects := leRead rd 16 4
  leRead rd 0 4 == 0x5139494D && leRead rd 4 2 == 1 && decide (f < 8) && !(bitOf f 1 && bitOf f 2) && leRead rd 8 4 != 0 &&
  leRead rd 12 2 != 0 && leRead rd 14 2 != 0 && decide (2 ≤ objects) && decide (objects ≤ 65535) && leRead rd 28 8 == len &&
  leRead rd 36 24 == 0 && leRead rd 60 4 == crc32 (bytesAt rd 0 60 ++ bytesAt rd 64 (manifestLen rd - 64))

/-- Two byte ranges (start, length) share no byte. -/
def apart (a b : Nat × Nat) : Bool := decide (a.1 + a.2 ≤ b.1) || decide (b.1 + b.2 ≤ a.1)

/-- No two ranges of a list overlap. -/
def allApart : List (Nat × Nat) → Bool
  | [] => true
  | a :: l => l.all (apart a) && allApart l

/-- The shard records keep R283, R284 and R305; `size` is the span size. -/
def shardsOk (rd : Nat → Nat) (m : Manifest) (len size : Nat) : Bool :=
  ((List.range m.ep.shards.length).zip m.ep.shards).all (fun p =>
    let (k, h) := p
    let off := m.offs.getD k 0
    decide (h.side ≤ 1) && leRead rd (shardAt k + 1) 1 == 0 && leRead rd (shardAt k + 28) 4 == 0 &&
    (if m.ep.span then decide (h.tfirst ≤ h.tlast) && decide (h.home < size) && decide (h.tlast < size)
     else h.home == 0 && h.tfirst == 0 && h.tlast == 0) &&
    decide (32 ≤ h.ulen) && decide (h.ulen ≤ 67108864) && h.ulen % 32 == 0 && off % 4096 == 0 && decide (manifestLen rd ≤ off) &&
    decide (off + h.clen ≤ len) && (m.ep.q5 || h.digest == 0)) &&
  allApart (m.offs.zip (m.ep.shards.map (fun h => h.clen)))

/-- The object records keep R283 to R285. -/
def objectsOk (rd : Nat → Nat) (m : Manifest) : Bool :=
  let n := m.ep.shards.length
  let os := m.ep.objects
  let sideOf (o : ObjRec) : Nat := (m.ep.shards.getD o.shard {}).side
  ((List.range os.length).zip os).all (fun p =>
    let (j, o) := p
    leRead rd (objectAt n j + 1) 1 == 0 && decide (o.shard < n) && o.off % 32 == 0 && decide (1 ≤ o.len) &&
    decide (o.off + o.len ≤ (m.ep.shards.getD o.shard {}).ulen) &&
    (match o.kind with
     | 1 => decide (256 ≤ o.len) && sideOf o == 0 && os.countP (fun q => q.kind == 1 && q.configId == o.configId) == 1 && os.countP (fun q => q.kind == 2 && q.configId == o.configId) == 1
     | 2 => sideOf o == 1 && os.countP (fun q => q.kind == 2 && q.configId == o.configId) == 1 && os.countP (fun q => q.kind == 1 && q.configId == o.configId) == 1
     | 3 => o.configId == 0 && os.countP (fun q => q.kind == 3) == 1
     | _ => false)) &&
  os.any (fun o => o.kind == 1) &&
  (List.range n).all (fun k => allApart ((os.filter (fun o => o.shard == k)).map (fun o => (o.off, o.len))))

/-! ### INGEST (R291, R305) -/

/-- Units of 64 KiB that an epoch takes in Near and in Bulk (R286). -/
def nearSizeOf (r : EpochRec) : Nat := 32 * epochUnits r
def bulkSizeOf (r : EpochRec) : Nat := ceilDiv ((r.shards.map (fun h => h.clen)).sum) 65536

/-- Shards that this member writes to its Store: all of them, or those of a span image whose home it is. -/
def ownShard (s : State) (r : EpochRec) (h : ShardRec) : Bool := !r.span || h.home == ownOrd s

def storeBlocks (s : State) (r : EpochRec) : Nat := ((r.shards.filter (ownShard s r)).map (fun h => ceilDiv h.clen 4096)).sum

/-- The model's transom in the catalogue (R297). -/
def transom (c : Catalogue) (model : Nat) : Nat := smapGet zeroNat c.transoms model

/-- Checks of step 2, or the result that they end with. A module without Store has no block for the image: it issues no NVMe command (R265;
DESIGN CHOICE, log entry 101: STORE_FULL is the result). The catalogue's own block needs room as well. -/
def ingestRefused (s : State) (m : Manifest) : Option Nat :=
  let r := m.ep
  if (dirFind s.mem r.model r.epoch).isSome then some 7
  else if (dirWays r.model).all (fun i => (dirGet s.mem i).valid) then some 8
  else if !isSet s F.MEM_STAT_STORE_UP || decide (freeBlocks s.mem.catalogue < storeBlocks s r + 1) then some 9
  else match dirActive s.mem r.model with
    | some i =>
      if !m.activate then none
      else if ((recFind s.mem r.model (dirGet s.mem i).epoch).map (fun o => o.stateTag)).getD 0 ≠ r.stateTag then some 13
      else if s.mem.switches.any (fun w => w.model == r.model) then some 14
      else none
    | none => none

/-- What checking the blocks of a shard in the image finds: OK, BLOCK or DIGEST (R273, R288, R293). -/
def checkShard (q5 : Bool) (h : ShardRec) (bytes : List Nat) : Nat :=
  match decompress h.ulen bytes with
  | none => 5
  | some out =>
    if crc32 out ≠ h.crc then 5
    else if q5 && leRead (listReader (sha256 (out.map (fun b => BitVec.ofNat 8 b)))) 0 32 != h.digest then 6
    else 0

/-- Step 3 for shard `k`: its checks, then its blocks in Store; the write session begins before the first write of the ingest (R258). A defective
block came from host memory: its capture shows REGION 0 and ADDR 0 (DESIGN CHOICE, log entry 110). -/
def ingestShard (rd : Nat → Nat) (m : Manifest) (x : Bool × State) (k : Nat) (h : ShardRec) : Nat × ShardRec × (Bool × State) :=
  let (began, s) := x
  let bytes := bytesAt rd (m.offs.getD k 0) h.clen
  match checkShard m.ep.q5 h bytes with
  | 0 =>
    if !ownShard s m.ep h then (0, h, x)
    else
      let s := if began then s else beginSession s
      let (runs, s) := placeBlocks s (m.done k) (ceilDiv h.clen 4096)
      let h := { h with runs := runs }
      (0, h, (true, bump (writeBlocks s h m.ep bytes) F.WGT_ING_PROG))
  | 5 =>
    if (decompress h.ulen bytes).isNone then (5, h, (began, bump (memEvent s F.MEM_STAT_CODEC_FAIL 7 h.side 0 0 0) F.MEM_CNT_CODEC_FAIL))
    else (5, h, x)
  | e => (e, h, x)

/-- Step 3 over the shards from `k` on; it stops at the first failure. The shards written so far hold their blocks. -/
def ingestShards (rd : Nat → Nat) (m : Manifest) : Nat → List ShardRec → Bool × State → Nat × List ShardRec × (Bool × State)
  | _, [], x => (0, [], x)
  | k, h :: l, x =>
    match ingestShard rd m x k h with
    | (0, h', x) =>
      let (e, l', x) := ingestShards rd (m.hold k h') (k + 1) l x
      (e, h' :: l', x)
    | (e, _, x) => (e, [], x)

/-- Moves ACTIVE of a model to one of its epochs in one directory operation (R302). -/
def moveActive (m : MemSt) (model epoch : Nat) : MemSt :=
  (dirWays model).foldl (fun m i =>
    let e := dirGet m i
    if e.valid && e.modelId == model then dirUpd m i (fun e => { e with active := e.epoch == epoch }) else m) m

/-- Sets the transom of a model in the catalogue. -/
def setTransom (c : Catalogue) (model epoch : Nat) : Catalogue := { c with transoms := smapSet zeroNat c.transoms model epoch }

/-- Creates the directory entry of a registered epoch in the first free way of its set (R261, R262, R291 step 5). -/
def createEntry (s : State) (r : EpochRec) (active : Bool) : State :=
  match (dirWays r.model).find? (fun i => !(dirGet s.mem i).valid) with
  | some i =>
    let (map, s) := freeVal s 32
    setMem s { dirUpd s.mem i (fun e =>
      { gen := e.gen, modelId := r.model, epoch := r.epoch, valid := true, active := active, store := true, map := map,
        shards := r.shards.length, nearSize := nearSizeOf r, bulkSize := bulkSizeOf r }) with recs := s.mem.recs ++ [r] }
  | none => s

/-- Steps 4 and 5: the epoch is registered. -/
def register (s : State) (m : Manifest) : State :=
  let r := m.ep
  let had := dirActive s.mem r.model
  let act := had.isNone || m.activate
  let c := s.mem.catalogue
  let c := { c with epochs := c.epochs ++ [r] }
  let s := closeWrites (setCatalogue s (if act then setTransom c r.model r.epoch else c))
  let s := createEntry s r had.isNone
  let s := if had.isSome && m.activate then
      bump (raise (setMem s (moveActive s.mem r.model r.epoch)) F.WGT_STAT_SWITCH_DONE) F.WGT_CNT_SWITCH
    else s
  bump s F.WGT_CNT_INGEST

/-- INGEST of the image whose bytes host memory holds at WGT_ING_ADDR. -/
def ingest (image : List Byte) (s : State) : State :=
  if !cmdRuns s 1 then s
  else
    let rd := listReader image
    let len := getF s F.WGT_ING_LEN
    let s := setF s F.WGT_ING_PROG 0
    if getF s F.CFG_MODE ≠ 2 then setResult s 1
    else if !manifestOk rd len then setResult s 2
    else
      let m := manifestOf rd
      if !shardsOk rd m len (spanSize s) then setResult s 3
      else if !objectsOk rd m then setResult s 4
      else match ingestRefused s m with
        | some e => setResult s e
        | none =>
          match ingestShards rd m 0 m.ep.shards (false, s) with
          | (0, hs, (began, s)) =>
            setResult (register (if began then s else beginSession s) { m with ep := { m.ep with shards := hs } }) 0
          | (e, _, (_, s)) => setResult s e

/-! ### RETIRE (R292) -/

/-- Removes a stage pin, if the epoch has one (R300). -/
def dropStage (s : State) (model epoch : Nat) : State :=
  if ((recFind s.mem model epoch).map (fun r => r.stagePin)).getD false then
    unpin (setMem s (recUpd s.mem model epoch (fun r => { r with stagePin := false }))) model epoch
  else s

/-- RETIRE. The removal is a directory operation: the entry keeps only its GEN. -/
def retire (s : State) : State :=
  if !cmdRuns s 2 then s
  else
    let model := getF s F.WGT_CMD_MODEL
    let epoch := getF s F.WGT_CMD_EPOCH
    if getF s F.CFG_MODE ≠ 2 then setResult s 1
    else match dirFind s.mem model epoch with
      | none => setResult s 10
      | some i =>
        if (dirGet s.mem i).active then setResult s 11
        else
          let s := dropStage s model epoch
          let s := beginSession s
          let c := s.mem.catalogue
          let s := setCatalogue s { c with epochs := c.epochs.filter (fun e => !(e.model == model && e.epoch == epoch)) }
          let s := endJob (closeWrites s) model epoch
          let m := dirUpd s.mem i (fun e => { gen := e.gen })
          let m := { m with recs := m.recs.filter (fun e => !(e.model == model && e.epoch == epoch)) }
          setResult (bump (retryPending (setMem s (dropModelRegion m model))) F.WGT_CNT_RETIRE) 0

/-! ### SWITCH (R301 to R304) -/

/-- The units that the four terms of R301 count: N, F, V, O. -/
def switchTerms (s : State) (model epoch : Nat) (old : Option Nat) : Nat × Nat × Nat × Nat :=
  let units (i : Nat) : Nat := (dirGet s.mem i).nearSize / 32
  let r := (recFind s.mem model epoch).getD {}
  let n := if (entryOf s.mem model epoch).near || r.shards.any (fun h => h.placed) then 0 else epochUnits r
  let f := ((allStacks s).map (freeCount s s.mem)).sum
  let v := (((candidates s s.mem).filter (fun i => decide (some i ≠ old))).map units).sum
  let o := match old with
    | some i => if (dirGet s.mem i).near then units i else 0
    | none => 0
  (n, f, v, o)

/-- An immediate switch (R302). -/
def switchNow (s : State) (model epoch : Nat) : State :=
  bump (raise (setMem s (moveActive s.mem model epoch)) F.WGT_STAT_SWITCH_DONE) F.WGT_CNT_SWITCH

/-- The drain tick of R304 step 1. -/
def drainTick (s : State) (model old : Nat) : Nat :=
  let l := s.adm.reqs.filter (fun r => r.pinned && !r.rerun && r.d.model == model && r.epoch == old)
  (if l.isEmpty then frameNow s else (l.map (fun r => r.promised)).foldl max 0) + getF s F.WGT_SWITCH_CFG

/-- A switch becomes pending (R304 step 1). -/
def switchLater (s : State) (model epoch old : Nat) : State :=
  let d := drainTick s model old
  let s := setMem s (moveActive s.mem model epoch)
  let s := setMem s { s.mem with switches := s.mem.switches ++ [⟨model, old, epoch, d⟩] }
  bump (setF (raise (setWgt s { s.wgt with qModel := model }) F.WGT_STAT_SWITCH_PEND) F.WGT_Q_EPOCH_PEND_EPOCH epoch) F.WGT_CNT_DEFER

/-- A switch in maintenance mode writes the transom to the catalogue (R297). -/
def keepTransom (s : State) (model epoch : Nat) : State :=
  if getF s F.CFG_MODE ≠ 2 then s
  else
    let s := beginSession s
    closeWrites (setCatalogue s (setTransom s.mem.catalogue model epoch))

/-- What R301 ends with for a registered target that is not active yet. -/
def switchRefused (s : State) (model : Nat) (e : DirEntry) (old : Option DirEntry) : Option Nat :=
  let tag (ep : Nat) : Nat := ((recFind s.mem model ep).map (fun r => r.stateTag)).getD 0
  if e.unusable then some 12
  else if (match old with
    | some o => tag o.epoch != tag e.epoch
    | none => false) then some 13
  else if s.mem.switches.any (fun w => w.model == model) then some 14
  else none

/-- SWITCH. In a span only the tick master takes it, and announces it to every member; `resident` says, there, that the epoch
is in Near on every other member. -/
def switch (resident : Bool) (s : State) : State :=
  if !cmdRuns s 3 then s
  else
    let model := getF s F.WGT_CMD_MODEL
    let epoch := getF s F.WGT_CMD_EPOCH
    if getF s F.CFG_MODE = 4 || !isMaster s then setResult s 1
    else match dirFind s.mem model epoch with
      | none => setResult s 10
      | some i =>
        let e := dirGet s.mem i
        let old := dirActive s.mem model
        if e.active then setResult s 0
        else match switchRefused s model e (old.map (dirGet s.mem)) with
          | some r => setResult s r
          | none =>
            if inSpan s then
              if resident && e.near then setResult (announceChange s srcDirectory none 3 (frameNow s + 2) (model + epoch * 2 ^ 32)) 0 else setResult s 16
            else
              let (n, f, v, o) := switchTerms s model epoch old
              let oldFree := match old with
                | some j => isCandidate s s.mem j
                | none => true
              let after (s : State) : State := setResult (keepTransom (dropStage s model epoch) model epoch) 0
              if n ≤ f + v || (decide (n ≤ f + v + o) && oldFree) then after (switchNow s model epoch)
              else if n ≤ f + v + o then after (switchLater s model epoch ((old.map (fun j => (dirGet s.mem j).epoch)).getD 0))
              else setResult s 15

/-! ### STAGE, UNSTAGE, QUERY (R290, R300, R306) -/

/-- STAGE: a stage pin, and the fetch that it calls for. A span epoch is taken by the tick master alone, and starts a span
load: the master announces its load frames. An UNUSABLE epoch with a stage pin is answered as UNUSABLE (DESIGN CHOICE, log entry 110). -/
def stage (s : State) : State :=
  if !cmdRuns s 4 then s
  else
    let model := getF s F.WGT_CMD_MODEL
    let epoch := getF s F.WGT_CMD_EPOCH
    if getF s F.CFG_MODE = 4 then setResult s 1
    else match dirFind s.mem model epoch with
      | none => setResult s 10
      | some i =>
        let e := dirGet s.mem i
        let r := (recFind s.mem model epoch).getD {}
        if r.span && !isMaster s then setResult s 1
        else if e.unusable then setResult s 12
        else if r.stagePin then setResult s 0
        else
          let pinned := setMem s (dirUpd (recUpd s.mem model epoch (fun r => { r with stagePin := true })) i (fun e => { e with pin := e.pin + 1 }))
          if e.near || e.fetch then setResult pinned 0
          else if r.span then
            let n := frameNow s + 2
            setResult (announceChange pinned srcDirectory none 4 n (model + epoch * 2 ^ 32)) 0
          else
            let (ok, t) := reserveEpoch pinned model epoch
            if ok then setResult (queueFetch t model epoch (fetchBound t (devNow t) (entryOf t.mem model epoch) r.q5) false) 0
            else setResult (dropStage t model epoch) 15

/-- UNSTAGE. -/
def unstage (s : State) : State :=
  if !cmdRuns s 5 then s
  else
    let model := getF s F.WGT_CMD_MODEL
    let epoch := getF s F.WGT_CMD_EPOCH
    if getF s F.CFG_MODE = 4 then setResult s 1
    else match dirFind s.mem model epoch with
      | none => setResult s 10
      | some _ => setResult (dropStage s model epoch) 0

/-- QUERY: the query registers for the named model and epoch (R290, R308). -/
def query (s : State) : State :=
  if !cmdRuns s 6 then s
  else
    let model := getF s F.WGT_CMD_MODEL
    let epoch := getF s F.WGT_CMD_EPOCH
    let act := ((dirActive s.mem model).map (fun i => (dirGet s.mem i).epoch)).getD 0
    let w := s.mem.switches.find? (fun w => w.model == model)
    let e := dirFind s.mem model epoch
    let s := setWgt s { s.wgt with qModel := model }
    let s := setF (setF s F.WGT_Q_EPOCH_ACTIVE act) F.WGT_Q_EPOCH_PEND_EPOCH ((w.map (fun w => w.target)).getD 0)
    let s := setF s F.WGT_Q_DRAIN ((w.map (fun w => w.drain)).getD 0)
    let s := setBool s F.WGT_Q_INFO_REGISTERED e.isSome
    let s := setBool s F.WGT_Q_INFO_STAGED ((recFind s.mem model epoch).map (fun r => r.stagePin) |>.getD false)
    setResult (setF s F.WGT_Q_INFO_PIN ((e.map (fun i => (dirGet s.mem i).pin)).getD 0)) 0

end Sys2Proof.Machine
end

