-- ==== Sys2Proof/Machine/Tiers.lean ====
section
/-! DEFINITION. Fetches, Store reads, lost stacks and sides, scrubs: the events of the memory tiers (R239 to R245, R255 to R260,
R264 to R273, R288, R293 to R296, R545). -/
namespace Sys2Proof.Machine

/-! ### Span loads that fail (R307) -/

/-- A span load ends in failure on this member: its units are freed and NEAR stays 0. -/
def loadFail (s : State) (shard : Nat) : State :=
  match s.span.load with
  | some l =>
    let s := wgtEvent s F.WGT_STAT_SPAN_LOAD_FAIL 4 l.model l.epoch shard
    let s := lower (setSpan s { s.span with load := none }) F.WGT_STAT_SPAN_LOADING
    dropStage (setMem s (freeEpochUnits s.mem l.model l.epoch)) l.model l.epoch
  | none => s

/-- The argument of LOAD_REPORT (R356). Its byte 3 says that the epoch is unusable (DESIGN CHOICE, log entry 102). -/
def loadArg (shard v : Nat) (unusable : Bool) : Nat := shard + v * 2 ^ 16 + (if unusable then 2 ^ 24 else 0)

/-- A load that this member has to end, and the epoch with it where it is unusable (R260, R294): the master announces the end of the load frames,
with the failure in its operand (bit 48); any other member reports to the master as one that has no room does (DESIGN CHOICE, log entry 102). -/
def endLoadFailed (s : State) (shard : Nat) (unusable : Bool) (by_ : Option Stamp) : State :=
  match s.span.load with
  | some l =>
    let arg := loadArg 0xFFFF 1 unusable
    let s := if !isMaster s then eventToMaster s srcDirectory by_ 0x0B (frameNow s) arg
      else
        let s := if unusable then eventToAll s srcDirectory by_ 0x0B (frameNow s) arg else s
        if l.ending then s else announceChange s srcDirectory by_ 5 (frameNow s + 2) (l.model + l.epoch * 2 ^ 32 + 2 ^ 48)
    let s := loadFail s shard
    if unusable then markUnusable s l.model l.epoch else s
  | none => s

/-- Members that keep a shard of an epoch in Near, less those that have been lost. -/
def loadTargets (s : State) (r : EpochRec) : List Nat :=
  (r.shards.flatMap (fun h => (List.range (h.tlast + 1)).filter (fun i => decide (h.tfirst ≤ i) && !isLost s i))).eraseDups

/-- What a LOAD_REPORT of member `ord` means here (R307, R364): 1, a check of a shard has failed: its home counts that it sends it
once more, and the second failure, or no room (shard 0xFFFF), ends the load, with the epoch where both copies failed their digest; 2, every shard
is held: after every target's, the master ends the load frames. -/
def noteLoadReport (s : State) (ord shard v : Nat) (unusable : Bool) (by_ : Option Stamp) : State :=
  match s.span.load with
  | none => s
  | some l =>
    match recFind s.mem l.model l.epoch with
    | none => s
    | some r =>
      if v = 1 then
        if shard = 0xFFFF || l.failedOnce.contains (shard, ord) then
          let k := if shard = 0xFFFF then 0 else shard
          if isMaster s then endLoadFailed s k unusable by_
          else if unusable then markUnusable (loadFail s k) l.model l.epoch else s
        else
          let first := !l.failedOnce.any (fun p => p.1 == shard)
          let mine := first && (r.shards.getD shard {}).home == ownOrd s
          let s := setSpan s { s.span with load := some { l with
            failedOnce := l.failedOnce ++ [(shard, ord)], again := if mine then l.again ++ [(shard, frameNow s, 0)] else l.again } }
          if mine then bump s F.WGT_CNT_RESEND else s
      else if v = 2 then
        let held := if l.held.contains ord then l.held else l.held ++ [ord]
        let all := (loadTargets s r).all held.contains && isMaster s && !l.ending
        let s := setSpan s { s.span with load := some { l with held := held, ending := l.ending || all } }
        if all then announceChange s srcDirectory by_ 5 (frameNow s + 2) (l.model + l.epoch * 2 ^ 32) else s
      else s

/-- A LOAD_REPORT on a shard: 1 a check failed, 2 every shard is held (R356). It travels up, then to all. -/
def loadReport (s : State) (shard v : Nat) (unusable : Bool := false) : State :=
  let arg := loadArg shard v unusable
  if isMaster s then noteLoadReport (eventToAll s srcDirectory none 0x0B (frameNow s) arg) (ownOrd s) shard v unusable none
  else noteLoadReport (eventToMaster s srcDirectory none 0x0B (frameNow s) arg) (ownOrd s) shard v unusable none

/-! ### Fetches (R266, R267, R269, R273, R288, R294) -/

/-- The fetch job that its queue is running for an epoch: the first of its queue, unless it waits for a pending switch. -/
def runningJob (s : State) (model epoch : Nat) : Option FetchJob :=
  match s.mem.jobs.find? (fun j => j.model == model && j.epoch == epoch) with
  | some j =>
    match s.mem.jobs.find? (fun k => k.fromStore == j.fromStore) with
    | some h => if h = j && !j.waiting then some j else none
    | none => none
  | none => none

/-- The compressed bytes of a shard's copy in Bulk. -/
def bulkShard (s : State) (h : ShardRec) : List Byte :=
  (List.range h.clen).map (fun o => smapGet zeroByte s.mem.bulk (bulkAddr h.bulkSide h.bulkUnits o))

/-- A defective block, or a shard that fails its CRC, by where it was read (R273, R288): `off` is where the block begins. -/
def defective (s : State) (model epoch : Nat) (h : ShardRec) (bulk : Bool) (off : Nat) : State :=
  let addr := if bulk then bulkAddr h.bulkSide h.bulkUnits off else (blockAt h (off / 4096)).2
  let s := bump (memEvent s F.MEM_STAT_CODEC_FAIL 7 h.side 0 (if bulk then 2 else 7) addr) F.MEM_CNT_CODEC_FAIL
  if bulk then refetchFromStore s model epoch else markUnusable (missFetch s model epoch) model epoch

/-- Writes a fetched shard's compressed bytes into Bulk, where units can be found (R269 step 4, R276). -/
def copyToBulk (s : State) (model epoch k : Nat) (h : ShardRec) (bytes : List Byte) : State :=
  match reserveBulk s model epoch k h.side (ceilDiv h.clen unitBytes) with
  | some s =>
    match (recFind s.mem model epoch).bind (fun r => r.shards[k]?) with
    | some h =>
      let s := setMem s { s.mem with bulk := writeBytes (bulkAddr h.bulkSide h.bulkUnits) s.mem.bulk 0 bytes }
      setMem s (shardUpd s.mem model epoch k (fun h => { h with inBulk := true }))
    | none => s
  | none => s

/-- Writes a decompressed shard into its Near units. -/
def fillNear (s : State) (h : ShardRec) (out : List Nat) : State :=
  setMem s { s.mem with near := writeBytes (nearAddr h.nearStack h.nearUnits) s.mem.near 0 (out.map (fun b => BitVec.ofNat 8 b)) }

/-- Whether a shard's data cross between the port dies: Store is read on the east one, Bulk on the side of its copy (R245, R269). -/
def crosses (fromStore : Bool) (h : ShardRec) : Bool := h.side != (if fromStore then 1 else h.bulkSide)

/-- The block of a shard that lies on a drive that is not attached, if there is one. -/
def lostBlock (s : State) (h : ShardRec) : Option (Nat × Nat) :=
  (h.runs.find? (fun r => decide (r.n ≠ 0) && !bitF s F.MEM_STORE_LINK_DRIVES r.drive)).map (fun r => (r.drive, r.lba))

/-- What a shard's compressed bytes come to in Near. -/
def landShard (s : State) (model epoch k : Nat) (h : ShardRec) (bulk : Bool) (bytes : List Byte) : State :=
  let raw := bytes.map BitVec.toNat
  match decompress h.ulen raw with
  | none => defective s model epoch h bulk (badBlock (ceilDiv h.ulen 65536) h.ulen 0 raw)
  | some out =>
    let s := fillNear s h out
    if crc32 out ≠ h.crc then
      defective (bump (wgtEvent s F.WGT_STAT_CRC_FAIL 3 model epoch k) F.WGT_CNT_CRC_FAIL) model epoch h bulk 0
    else
      let s := setMem s (shardUpd s.mem model epoch k (fun h => { h with written := true, digestOk := false, fromBulk := bulk }))
      if bulk then s else copyToBulk s model epoch k h bytes

/-- A Store read has failed for good (R260): the STORE bit is cleared and the fetch has failed; in a span load the epoch is
marked unusable (R307). -/
def storeFailed (s : State) (ctrl lba model epoch : Nat) : State :=
  let s := bump (memEvent s F.MEM_STAT_STORE_ERR 5 ctrl 0 7 lba) F.MEM_CNT_STORE_ERR
  let s := setMem s (dirUpdEpoch s.mem model epoch (fun e => { e with store := false }))
  match runningJob s model epoch with
  | some _ =>
    let s := missFetch s model epoch
    if epochSupplied (entryOf s.mem model epoch) then s else abandonFetch s model epoch
  | none => markUnusable (endLoadFailed s 0 true none) model epoch

/-- SHARD_WRITTEN: the running fetch has decompressed shard `k` into Near; `bytes` are what Store returned, where it is read
from there. Without `bytes` a 256 B unit has failed eight times on the fetch crossing: the fetch has failed, and goes on (R267, R287). -/
def shardWritten (model epoch k : Nat) (bytes : Option (List Byte)) (s : State) : State :=
  match runningJob s model epoch, (recFind s.mem model epoch).bind (fun r => r.shards[k]?) with
  | some j, some h =>
    if !h.placed || h.written then s
    else match bytes with
    | none => if crosses j.fromStore h then missFetch s model epoch else s
    | some bytes => match j.fromStore, lostBlock s h with
      | true, some (c, lba) => storeFailed s c lba model epoch
      | true, none => landShard s model epoch k h false ((bytes ++ List.replicate h.clen 0#8).take h.clen)
      | false, _ => landShard s model epoch k h true (bulkShard s h)
  | _, _ => s

/-- The digest of a shard's copy in Near, as R293 compares it. -/
def nearDigest (s : State) (h : ShardRec) : Nat :=
  leRead (listReader (sha256 ((List.range h.ulen).map (fun o => BitVec.ofNat 8 (shardByte s h o))))) 0 32

/-- DIGEST_COMPLETE: a digest lane has hashed shard `k` of a Q5 epoch that a fetch or a span load has written. -/
def digestComplete (model epoch k : Nat) (s : State) : State :=
  match recFind s.mem model epoch with
  | none => s
  | some r =>
    match r.shards[k]? with
    | none => s
    | some h =>
      if !r.q5 || !h.written || h.digestOk then s
      else if nearDigest s h = h.digest then setMem s (shardUpd s.mem model epoch k (fun h => { h with digestOk := true }))
      else
        let s := bump (wgtEvent s F.WGT_STAT_DIGEST_FAIL 1 model epoch k) F.WGT_CNT_DIGEST_FAIL
        let s := setMem s (shardUpd s.mem model epoch k (fun h => { h with written := false }))
        match s.span.load.filter (fun l => l.model == model && l.epoch == epoch) with
        | some l =>
          if l.digestFailed.contains k then markUnusable (loadFail (loadReport s k 1 true) k) model epoch
          else
            let s := setSpan s { s.span with load := some { l with
              digestFailed := l.digestFailed ++ [k], pieces := l.pieces.filter (fun p => decide (p.1 ≠ k)) } }
            loadReport s k 1
        | none => if h.fromBulk then refetchFromStore s model epoch else markUnusable (missFetch s model epoch) model epoch

/-- Whether every shard that this member keeps has arrived and every check of R269 step 5 on what it keeps has passed. -/
def epochChecked (s : State) (r : EpochRec) : Bool :=
  r.shards.all (fun h => (h.written && (!r.q5 || h.digestOk)) || !keptShard s r h) && (keptConfigs s r).all r.checked.contains &&
  (r.routeOk || !r.objects.any (fun o => o.kind == 3 && keepsObject s r o))

/-- FETCH_COMPLETE: the directory sets NEAR, and BULK if every shard has a Bulk copy, and clears FETCH. Bulk units that have been filled stay held
where BULK stays 0, and no eviction claims them (DESIGN CHOICE, log entry 110: R276 is silent). -/
def fetchComplete (model epoch : Nat) (s : State) : State :=
  match runningJob s model epoch, recFind s.mem model epoch with
  | some j, some r =>
    if !epochChecked s r then s
    else
      let bulk := r.shards.all (fun h => h.inBulk)
      let s := setMem s (dirUpdEpoch s.mem model epoch (fun e => { e with near := true, bulk := e.bulk || bulk, fetch := false }))
      endJob (bump s (if j.fromStore then F.MEM_CNT_FETCH_STORE else F.MEM_CNT_FETCH_BULK)) model epoch
  | _, _ => s

/-- FETCH_BOUND_EXPIRY: a fetch that is not complete by its bound is counted once (R267). -/
def fetchBoundExpiry (model epoch : Nat) (s : State) : State :=
  if s.mem.jobs.any (fun j => j.model == model && j.epoch == epoch && decide (j.bound ≤ devNow s)) then missFetch s model epoch else s

/-! ### Store reads (R255, R260) -/

/-- Whether a Store read for an epoch can be outstanding: its fetch runs from Store, or this member is a home of its span
load. -/
def readsStore (s : State) (model epoch : Nat) : Bool :=
  ((runningJob s model epoch).map (fun j => j.fromStore)).getD false ||
  (match s.span.load with
   | some l => l.model == model && l.epoch == epoch
   | none => false)

/-- A tag or metadata failure for good (R260). -/
def tagFailed (s : State) (ctrl lba model epoch : Nat) : State :=
  let s := bump (memEvent s F.MEM_STAT_TAG_FAIL 6 ctrl 0 7 lba) F.MEM_CNT_TAG_FAIL
  let s := if (runningJob s model epoch).isSome then missFetch s model epoch else endLoadFailed s 0 true none
  markUnusable s model epoch

def dropRetry (s : State) (ctrl lba : Nat) : State :=
  setMem s { s.mem with retries := s.mem.retries.filter (fun r => !(r.1 == ctrl && r.2.1 == lba)) }

/-- STORE_READ_COMPLETE: a failed read is tried once more; the second failure of the same kind counts. -/
def storeReadComplete (ctrl lba model epoch : Nat) (e : ReadEnd) (s : State) : State :=
  if !readsStore s model epoch then s
  else
    let again (t : Bool) : Bool := s.mem.retries.contains (ctrl, lba, t)
    let retry (t : Bool) : State :=
      let s := dropRetry s ctrl lba
      nvmeIo (setMem s { s.mem with retries := s.mem.retries ++ [(ctrl, lba, t)] }) ctrl 0x02 lba
    match e with
    | .ok => dropRetry s ctrl lba
    | .error => if again false then storeFailed (dropRetry s ctrl lba) ctrl lba model epoch else retry false
    | .tagFail => if again true then tagFailed (dropRetry s ctrl lba) ctrl lba model epoch else retry true

/-- STORE_READ_TIMEOUT: a read outstanding for 100 ms is aborted and has failed. -/
def storeReadTimeout (ctrl lba model epoch : Nat) (s : State) : State :=
  if !readsStore s model epoch then s else storeReadComplete ctrl lba model epoch .error (emit s (.nvme ctrl 0 true 0x08 lba))

/-- STORE_CONTROLLER_DROP: the controller's blocks count as failed reads. -/
def storeControllerDrop (ctrl : Nat) (s : State) : State :=
  let s := setBitF s F.MEM_STORE_LINK_DRIVES ctrl false
  let s := setBool s F.MEM_STAT_STORE_UP (decide (getF s F.MEM_STORE_LINK_DRIVES ≠ 0))
  let hit (r : EpochRec) : Option BlockRun :=
    (r.shards.filter (fun h => !h.written && ownShard s r h)).findSome? (fun h => h.runs.find? (fun b => b.drive == ctrl && decide (b.n ≠ 0)))
  (s.mem.recs.filter (fun r => readsStore s r.model r.epoch)).foldl (fun s r => match hit r with
    | some b => storeFailed s ctrl b.lba r.model r.epoch
    | none => s) s

/-- LOG_PAGE_POLL: both log pages of every attached controller. -/
def logPagePoll (s : State) : State :=
  ((List.range 16).filter (bitF s F.MEM_STORE_LINK_DRIVES)).foldl (fun s c =>
    emit (emit s (.nvme c 0 true 0x02 0x01)) (.nvme c 0 true 0x02 0x02)) s

/-! ### Near stacks (R239, "When a Near stack is lost") -/

/-- Whether an epoch has units in a stack. -/
def inStack (r : EpochRec) (n : Nat) : Bool := r.shards.any (fun h => h.placed && h.nearStack == n)

/-- Whether the frame in progress uses a stack: its epoch's units, or a state region that its requests or model need. -/
def frameUses (s : State) (n : Nat) : Bool :=
  let c := liveCfg s
  ((recFind s.mem c.modelId c.epoch).map (fun r => inStack r n)).getD false ||
  s.mem.regions.any (fun g => g.stack == n && match g.owner with
    | .model m => m == c.modelId
    | .stream cl st => s.adm.reqs.any (fun q => s.frame.liveReqs.contains q.aseq && ofStream cl st q))

/-- A queued or running fetch whose units a lost stack held: it is queued again with a new bound, or has no room. -/
def requeueFetch (s : State) (model epoch : Nat) : State :=
  match s.mem.jobs.find? (fun j => j.model == model && j.epoch == epoch) with
  | some j =>
    let s := endJob s model epoch
    if j.waiting then queueFetch s model epoch (fetchBound s (devNow s) (entryOf s.mem model epoch) false) true
    else
      let (ok, s) := reserveEpoch s model epoch
      if ok then
        let q5 := ((recFind s.mem model epoch).map (fun r => r.q5)).getD false
        queueFetch s model epoch (fetchBound s (devNow s) (entryOf s.mem model epoch) q5) false
      else
        let s := setMem s (dirUpdEpoch s.mem model epoch (fun e => { e with fetch := false }))
        failWhere s .capacity (fun q => q.d.model == model && q.epoch == epoch)
  | none => s

/-- What a lost stack takes from one epoch. -/
def loseEpoch (s : State) (r : EpochRec) : State :=
  let was := (entryOf s.mem r.model r.epoch).near
  let s := setMem s (freeEpochUnits (dirUpdEpoch s.mem r.model r.epoch (fun e => { e with near := false })) r.model r.epoch)
  let s := match s.span.load with
    | some l => if l.model = r.model && l.epoch = r.epoch then endLoadFailed s 0 false none else s
    | none => s
  if was then failWhere s .nearLoss (fun q => q.d.model == r.model && q.epoch == r.epoch) else requeueFetch s r.model r.epoch

/-- A state region that a lost stack takes with its content. -/
def loseRegion (s : State) (g : StateRegion) : State :=
  let s := setMem s (freeRegion s.mem g.owner)
  match g.owner with
  | .model m => failWhere s .nearLoss (fun q => q.d.model == m)
  | .stream cl st => breakStream s .nearLoss cl st

/-- The loss of a stack, steps 1 to 7. -/
def loseStack (s : State) (n die addr : Nat) : State :=
  if !stackUp s n then s
  else
    let used := frameUses s n
    let t := stampNow s (srcNear n)
    let s := stampEvent (memEvent s F.MEM_STAT_NEAR_LOSS 2 n die 1 addr) (srcNear n) (.nearLoss n)
    let s := setBitF s F.DEV_CAP0_NEAR_PRESENT n false
    let gone := s.mem.regions.filter (fun g => g.stack == n)
    let s := (s.mem.recs.filter (fun r => inStack r n)).foldl loseEpoch s
    let s := (gone.filter (fun g => s.mem.regions.contains g)).foldl loseRegion s
    let s := setMem s { s.mem with near := s.mem.near.filter (fun c => decide (c.1 / 0xC00000000 ≠ n)) }
    let s := if used then markFaulted s t else s
    if (sideStacks s (n / 4)).isEmpty then raise s F.ADM_SHUT_SIDE else s

/-- Whether a line decodes: `errs` holds the symbol errors of its code word by die, `erased` the dies marked as erased, each of which erases 18
symbols: 2t + e ≤ 32 (R237). -/
def lineDecodes (errs erased : List Nat) : Bool :=
  let t := ((List.range 16).filter (fun d => !erased.contains d)).map (fun d => errs.getD d 0)
  decide (2 * t.sum + 18 * erased.length ≤ 32)

/-- The dies whose erasure, beside `erased`, makes a line decode (R239 step 2). -/
def rescuing (errs erased : List Nat) : List Nat := (List.range 16).filter (fun d => !erased.contains d && lineDecodes errs (d :: erased))

/-- The die with the most symbol errors, the lowest among equals: the failing die of a line that is lost (DESIGN CHOICE, log entry 100). -/
def worstDie (errs : List Nat) : Nat := (List.range 16).foldl (fun b d => if errs.getD b 0 < errs.getD d 0 then d else b) 0

/-- A line of a stack that decodes with corrections (R239 step 1). -/
def countNearCe (s : State) (n : Nat) : State := if n = 0 then s else addF (memEvent s F.MEM_STAT_NEAR_CE 0 0 0 0 0) F.MEM_NEAR_CE_CNT n

def countBulkCe (s : State) (n : Nat) : State := if n = 0 then s else addF (memEvent s F.MEM_STAT_BULK_CE 0 0 0 0 0) F.MEM_BULK_CE_CNT n

/-- NEAR_READ_UNCORRECTABLE: a read, whoever makes it, meets symbol errors in the line at region-1 offset `addr`, `errs` by die. A line that
decodes is corrected and counted; one that does not is decoded again with each die erased in turn (R237, R239). `onDie` reports of on-die ECC count
as corrected errors (R236). -/
def nearReadUncorrectable (n addr : Nat) (errs : List Nat) (onDie : Nat) (s : State) : State :=
  if !stackUp s n || addr / 0xC00000000 != n then s
  else
    let s := countNearCe s onDie
    let erased := if bitF s F.MEM_NEAR_STAT_ERASED n then [getF s (F.MEM_NEAR_DIE n)] else []
    if lineDecodes errs erased then countNearCe s (if errs.all (fun e => e == 0) then 0 else 1)
    else match erased, rescuing errs [] with
      | [], [die] =>
        let s := setF (setBitF s F.MEM_NEAR_STAT_ERASED n true) (F.MEM_NEAR_DIE n) die
        stampEvent (memEvent s F.MEM_STAT_NEAR_ERASE 1 n die 1 addr) (srcNear n) (.nearErase n die)
      | _, _ => loseStack s n (worstDie errs) addr

/-- NEAR_STACK_LOSS: a controller loses training, or the stack stops responding. -/
def nearStackLoss (n : Nat) (s : State) : State := loseStack s n 0 0

/-! ### Bulk (R243, R244) -/

/-- A Bulk side goes down. -/
def loseSide (s : State) (side addr : Nat) : State :=
  if !bulkSideUp s side then s
  else
    let s := setBitF s F.MEM_BULK_STAT_SIDE_UP side false
    let s := setF s F.DEV_CAP0_BULK_PRESENT ((List.range 16).foldl (fun m i => if i / 8 ≠ side ∧ bitF s F.DEV_CAP0_BULK_PRESENT i then m + 2 ^ i else m) 0)
    let s := stampEvent (memEvent s F.MEM_STAT_BULK_LOSS 4 side 0 2 addr) (srcBulk (8 * side)) (.bulkLoss side)
    let on (r : EpochRec) : Bool := r.shards.any (fun h => h.bulkSide == side && !h.bulkUnits.isEmpty)
    let hit := s.mem.recs.filter on
    let s := hit.foldl (fun s r =>
      if (entryOf s.mem r.model r.epoch).bulk then refetchFromStore s r.model r.epoch
      else setMem s (recUpd s.mem r.model r.epoch (fun r => { r with shards := r.shards.map (fun h =>
        if h.bulkSide = side then { h with inBulk := false, bulkUnits := [] } else h) }))) s
    setMem s { s.mem with bulk := s.mem.bulk.filter (fun c => decide (c.1 / 0x8000000000 ≠ side)) }

/-- The package of die `d` of a code word of a side, and the die's number there: channels 2g and 2g + 1 of each package, channel × 2 + rank
(R243). -/
def wordPackage (side d : Nat) : Nat := 8 * side + d / 2

def wordDie (group rank d : Nat) : Nat := 2 * (2 * group + d % 2) + rank

/-- The dies of a code word that are marked as erased. -/
def erasedInWord (s : State) (side group rank : Nat) : List Nat :=
  (List.range 16).filter (fun d => bitF s F.MEM_BULK_STAT_ERASED (wordPackage side d) &&
    getF s (F.MEM_BULK_DIE (wordPackage side d)) == wordDie group rank d)

/-- BULK_READ_UNCORRECTABLE: the same for a line of a side, in code-word group `group` and rank `rank`; what has an erased die already is the
package, and what ends is the side (R243, R244). -/
def bulkReadUncorrectable (side addr group rank : Nat) (errs : List Nat) (s : State) : State :=
  if 2 ≤ side || !bulkSideUp s side || bitsOf addr 39 39 ≠ side || bitsOf addr 9 9 ≠ group then s
  else
    let erased := erasedInWord s side group rank
    if lineDecodes errs erased then countBulkCe s (if errs.all (fun e => e == 0) then 0 else 1)
    else match rescuing errs erased with
      | [d] =>
        let p := wordPackage side d
        if bitF s F.MEM_BULK_STAT_ERASED p then loseSide s side addr
        else
          let s := setF (setBitF s F.MEM_BULK_STAT_ERASED p true) (F.MEM_BULK_DIE p) (wordDie group rank d)
          stampEvent (memEvent s F.MEM_STAT_BULK_ERASE 3 p (wordDie group rank d) 2 addr) (srcBulk p) (.bulkErase p (wordDie group rank d))
      | _ => loseSide s side addr

/-- BULK_SIDE_LOSS: a whole package has failed. -/
def bulkSideLoss (side : Nat) (s : State) : State := if 2 ≤ side then s else loseSide s side 0

/-! ### Scrubs (R239, R240, R296), engines (R270) -/

/-- PATROL_SCRUB: lines of Near and Bulk that decoded with corrections are counted and rewritten; errors that the stacks' on-die ECC has reported
are among the corrected errors of Near (R236, R239, R240). -/
def patrolScrub (nearCe bulkCe : Nat) (s : State) : State := countBulkCe (countNearCe s nearCe) bulkCe

/-- A pane or casement that holds a discarded copy no longer counts as holding it; a frame that has flipped to it, or is to be replayed on it, runs
empty and its requests are loaded again (R296 steps 2 and 3). -/
def forgetContent (s : State) (model epoch : Nat) : State :=
  let s := [0, 1].foldl (fun s n =>
    let c := casement s n
    let s := if c.cfg.modelId = model && c.cfg.epoch = epoch then setCasement s n { c with complete := false } else s
    let p := pane s n
    if p.model = model && p.epoch = epoch then setPane s n { p with complete := false } else s) s
  let live := (liveCfg s).modelId == model && (liveCfg s).epoch == epoch
  updateReady (if live && (s.frame.nextRuns || s.frame.replayPending) then dropFlipped s else s)

/-- The fetch that replaces a discarded copy whose requests are pinned, and the requests that can no longer be met; a span epoch is
fetched too (R296; DESIGN CHOICE against R306, log entry 110). -/
def refetchPinned (s : State) (model epoch : Nat) : State :=
  let mine (q : Req) : Bool := q.d.model == model && q.epoch == epoch
  if (entryOf s.mem model epoch).pin = 0 then s
  else
    let (ok, s) := reserveEpoch s model epoch
    if !ok then failWhere s .security mine
    else
      let b := fetchBound s (devNow s) (entryOf s.mem model epoch) true
      let s := queueFetch s model epoch b false
      let s := setMem s { s.mem with jobs := s.mem.jobs.map (fun j => if j.model = model && j.epoch = epoch then { j with security := true } else j) }
      failWhere s .security (fun q => mine q && !q.rerun && decide (q.promised ≤ firstTickAfter s b + 1))

/-- A digest scrub that does not match, steps 1 to 4. -/
def scrubMismatch (s : State) (steward model epoch k : Nat) : State :=
  let t := stampNow s (srcSteward steward)
  let s := stampEvent s (srcSteward steward) (.digestScrub model epoch k)
  let s := bump (wgtEvent s F.WGT_STAT_DIGEST_FAIL 2 model epoch k) F.WGT_CNT_DIGEST_FAIL
  let m := dirUpdEpoch s.mem model epoch (fun e => { e with near := false })
  let s := setMem s (freeEpochUnits m model epoch)
  let s := setMem s (recUpd s.mem model epoch (fun r => { r with shards := r.shards.map (fun h => { h with scrubbed := false }) }))
  let s := forgetContent s model epoch
  let s := if (liveCfg s).modelId = model && (liveCfg s).epoch = epoch then markFaulted s t else s
  refetchPinned s model epoch

/-- Shards that a full scrub pass covers. -/
def scrubSet (s : State) : List EpochRec := s.mem.recs.filter (fun r => r.q5 && (entryOf s.mem r.model r.epoch).near)

/-- A steward's tile of a digest-scrub batch, with a commit that wins: what its comparison comes to. -/
def scrubTile (steward model epoch k : Nat) (bad : Bool) (s : State) : State :=
  match recFind s.mem model epoch with
  | none => s
  | some r =>
    match r.shards[k]? with
    | none => s
    | some h =>
      if !r.q5 || !(entryOf s.mem model epoch).near || !h.written then s
      else
        let s := bump s F.WGT_CNT_SCRUB
        if bad || nearDigest s h != h.digest then scrubMismatch s steward model epoch k
        else
          let s := setMem s (shardUpd s.mem model epoch k (fun h => { h with scrubbed := true }))
          if (scrubSet s).all (fun r => r.shards.all (fun h => h.scrubbed || !h.placed)) then
            let s := setF s F.WGT_SCRUB_PASS (frameNow s)
            setMem s { s.mem with recs := s.mem.recs.map (fun r => { r with shards := r.shards.map (fun h => { h with scrubbed := false }) }) }
          else s

/-- Whether steward `n`'s commit of ticket `t` would win in a batch of digest scrub (R496, R499). -/
def scrubTicket (s : State) (n t : Nat) : Bool :=
  isSet s F.STW_BATCH_OPEN && getF s F.STW_BATCH_KIND == 2 && decide (t < getF s F.STW_BATCH_COUNT) && !s.stw.done.contains t &&
  (s.stw.holds.any (fun h => h == (t, n)) || s.stw.history.contains t)

/-- DIGEST_SCRUB_TILE: steward `steward` has hashed shard `k` of a resident Q5 epoch again, as the tile of ticket `t` that it drew, and commits
it; `bad` says that the copy it read was not the one written. What the tile finds counts only with a commit that wins (R296, R496). -/
def digestScrubTile (steward t model epoch k : Nat) (bad : Bool) (s : State) : State :=
  let won := scrubTicket s steward t
  let s := tileCommit steward t s
  if won then scrubTile steward model epoch k bad s else s

/-- DECOMP_ENGINE_FAIL: the engine's bit of DECOMP_UP is cleared. -/
def decompEngineFail (n : Nat) (s : State) : State := setBitF s F.DEV_CAP2 n false

end Sys2Proof.Machine
end

