-- ==== Sys2Proof/Machine/Modes.lean ====
section
/-! DEFINITION. The security policy, the mode store, and changes of mode (R43, R180 to R183, R391, R457, R476, R477). -/
namespace Sys2Proof.Machine

/-! ### Policy (R476, R477) -/

/-- The requester's bit of the policy. -/
def Requester.policyBit : Requester → Nat
  | .host => 0
  | .session => 1
  | .mgmt => 2
  | .board => 3
  | .steward _ => 4

/-- The default policy (R476). -/
def defaultPolicy : Nat := 0x630232222333

/-- Whether the policy permits action `a` to a requester; own stewards are not its subject. -/
def policyAllows (s : State) (a : Nat) (r : Requester) : Bool :=
  match r with
  | .steward _ => true
  | _ =>
    let st := s.fuses.lc
    if st = 1 || st = 2 then bitOf (if s.boot.noPolicy then defaultPolicy else getF s F.SEC_POLICY) (4 * a + r.policyBit) else r = .session

/-- What a denied request leaves (R477, R487). -/
def deny (s : State) (a : Nat) (r : Requester) : State :=
  let s := capture s [F.SEC_STAT_DENY] [(F.SEC_DENY_CAP_REQUESTER, 2 ^ r.policyBit), (F.SEC_DENY_CAP_ACTION, a)]
  bump (raise s F.SEC_STAT_DENY) F.SEC_DENY_CNT

/-! ### The mode store (R180, R181, R457) -/

/-- A record at byte `o`, and the length that it takes. -/
def recordAt (rd : Nat → Nat) (o : Nat) : ModeRecord × Nat :=
  let n := leRead rd (o + 4) 4
  ({ type := leRead rd o 2, body := (bytesAt rd (o + 8) n).map (fun b => BitVec.ofNat 8 b) }, 8 + 8 * ceilDiv n 8)

/-- The records of a section of `len` bytes from `o` on; none where they do not fill it, or a header is reserved. -/
def recordsOf (rd : Nat → Nat) : Nat → Nat → Nat → Option (List ModeRecord)
  | 0, _, len => if len = 0 then some [] else none
  | n + 1, o, len =>
    if len = 0 then some []
    else if len < 8 || leRead rd (o + 2) 2 ≠ 0 then none
    else
      let (r, k) := recordAt rd o
      if len < k || (List.range (k - 8 - r.body.length)).any (fun i => rd (o + 8 + r.body.length + i) ≠ 0) then none else (recordsOf rd n (o + k) (len - k)).map (fun l => r :: l)

/-- Registers of the settings that an overlay may hold (R181). -/
def overlayRegs : List (Nat × Nat) :=
  [(0x10000, 0x10008), (0x10054, 0x10060), (0x2002C, 0x20030), (0xC0000, 0xC0010), (0x100008, 0x10000C), (0x100010, 0x100018)]

/-- Whether an overlay may hold a register (R181). A port's class, expected peer and timers come from the base alone (R311, R331): an
overlay's link settings are its routes, the CHANNELS records. -/
def isOverlayReg (off : Nat) : Bool := overlayRegs.any (fun p => decide (p.1 ≤ off) && decide (off < p.2))

/-- Words of `n` bytes that a body holds. -/
def bodyWords (n : Nat) (b : List Byte) : List Nat := (List.range (b.length / n)).map (fun i => leRead (listReader b) (n * i) n)

/-- The channel table of one or more CHANNELS records: channel and entry. -/
def channelsOf (l : List ModeRecord) : List (Nat × Nat) :=
  (l.filter (fun r => r.type = 2)).flatMap (fun r => (bodyWords 8 r.body).map (fun w => (bitsOf w 15 0, bitsOf w 63 32)))

/-- The service plan that a mode has, kept to R391 and R392. -/
def modePlanOk (base ovl : List ModeRecord) : Bool :=
  match lastRecord 5 base ovl with
  | some r => planOk (listReader r.body) r.body.length
  | none => true

/-- A body that keeps R457. -/
def recordOk (inBase : Bool) (r : ModeRecord) : Bool :=
  match r.type with
  | 1 => r.body.length == 8 && imageRegOk (leRead (listReader r.body) 0 4) (leRead (listReader r.body) 4 4) &&
      (inBase || isOverlayReg (leRead (listReader r.body) 0 4))
  | 2 => r.body.length % 8 == 0
  | 3 => r.body.length % 16 == 0
  | 4 => r.body.length % 8 == 0
  | 5 => true
  | 6 => inBase && r.body.length % 8 == 0 && decide (r.body.length ≤ 128) && (bodyWords 8 r.body).all (fun w => w / 2 ^ 48 == 0)
  | 7 => inBase
  | 8 => inBase && r.body.length == 8 && leRead (listReader r.body) 6 2 == 0
  | 9 => inBase && decide (1 ≤ r.body.length)
  | _ => false

/-- Loads the REG records of a section, those of the settings of R181 or all. -/
def loadRegs (all : Bool) (l : List ModeRecord) (s : State) : State :=
  (l.filter (fun r => r.type = 1)).foldl (fun s r =>
    let off := leRead (listReader r.body) 0 4
    if all || isOverlayReg off then loadImageReg s off (leRead (listReader r.body) 4 4) else s) s

/-- A change of plan for a model whose model-level region has another size frees that region (R252). -/
def resizeRegions (s : State) : State :=
  s.adm.plan.models.foldl (fun s p => match regionFind s.mem (.model p.modelId) with
    | some r => if r.size = p.modelUnits * unitBytes then s else setMem s (freeRegion s.mem (.model p.modelId))
    | none => s) s

/-! ### Image defaults -/

/-- Sources that the image senses by edge unless it says otherwise (R502). -/
def edgeSources : List Nat := List.range 8 ++ [0x10, 0x11, 0x12, 0x13, 0x14, 0x15, 0x16, 0x18]

/-- The values that fields of an image have where their description names a default. -/
def imageDefaults : List (Fld × Nat) :=
  [(F.TICK_PERIOD_PERIOD_US, 1000), (F.TICK_SYNC_CFG, 125), (F.TICK_STRETCH_CFG_CUTOFF_US, 20), (F.CFG_REPLAY_CFG, 2),
   (F.MEM_PLAN_BULK_LAT_US, 10), (F.MEM_PLAN_BULK_RATE, 1000), (F.MEM_PLAN_STORE_LAT_US, 80), (F.MEM_PLAN_STORE_RATE, 50), (F.MEM_SCRUB, 24),
   (F.WGT_SWITCH_CFG, 2), (F.WGT_Q5_PLAN_LAT_US, 14000), (F.WGT_Q5_PLAN_RATE, 64), (F.WGT_SCRUB, 24),
   (F.SPAN_CFG_ALIGN_GRACE, 64), (F.SPAN_CFG_EJECT_FINISH_US, 1000), (F.SPAN_CFG_GUARD_US, 20),
   (F.PWR_RANGE_IDLE_FRAMES, 16), (F.PWR_CAP_CFG_GUARD_PCT, 3), (F.PWR_CAP_CFG_BOOT_W, 1200), (F.PWR_LOUVRE_L2_W, 600), (F.PWR_LOUVRE_L1_W, 900),
   (F.PWR_THERM_HBM_C, 95), (F.PWR_THERM_HYST_C, 5), (F.PWR_THERM_THROTTLE_C, 100), (F.PWR_DROOP_CFG, 40), (F.STW_WDOG, 100), (F.TGT_MOD 4, 20),
   (F.SEC_POLICY, defaultPolicy)] ++
  (List.range 16).flatMap (fun p => [(F.LNK_TIMER_NAK_NS p, 400), (F.LNK_TIMER_REPLAY_NS p, 1000)]) ++ edgeSources.map (fun n => (F.IRQ_SRC_EDGE n, 1))

/-- The value that an image field has before any record names it. -/
def imageDefault (key : Nat) : Nat := ((imageDefaults.find? (fun p => p.1.key == key)).map (fun p => p.2)).getD 0

/-- The settings that overlays may hold take the values that they have before any record, so that nothing of an earlier overlay
survives (R181). -/
def clearSettings (s : State) : State :=
  regTable.foldl (fun s r =>
    if isOverlayReg r.off then (r.fields.filter (fun f => f.src = .image)).foldl (fun s f =>
      fieldSet s f 0 (imageDefault (f.key 0) / 2 ^ f.shift)) s
    else s) s

/-- Whether two modes' settings name the span alike. -/
def spanKey (s : State) : List Nat := [getF s F.SPAN_ID_SIZE, getF s F.SPAN_ID_ORD, getF s F.SPAN_ROLES_MASTER]

/-- What membership in a span of two or more settles (R62, R351). -/
def settleSpan (s : State) : State :=
  let big := decide (2 ≤ getF s F.SPAN_ID_SIZE)
  let s := setBool s F.SPAN_STAT_IN_SPAN big
  let m := !big || getF s F.SPAN_ID_ORD == getF s F.SPAN_ROLES_MASTER
  let s := setBool s F.TICK_STAT_MASTER m
  if m then raise s F.TICK_STAT_LOCKED else s

/-- Applies the base and then a mode's overlay (R181); `all`: at boot, every register of the base. The shutter reason MODE holds while a mode that
serves no requests is in force (R415). -/
def applyMode (all : Bool) (mode : Nat) (s : State) : State :=
  let base := s.modes.base
  let ovl := ((s.modes.overlays.find? (fun o => o.1 == mode)).map (fun o => o.2)).getD []
  let s := loadRegs false ovl (loadRegs all base (if all then s else clearSettings s))
  let chans := (channelsOf base).filter (fun c => !(channelsOf ovl).any (fun d => d.1 == c.1)) ++ channelsOf ovl
  let words (n t : Nat) : List Nat := ((lastRecord t base ovl).map (fun r => bodyWords n r.body)).getD []
  let s := setSpan s { s.span with chans := chans, xfers := words 16 3, groups := words 8 4 }
  let s := match lastRecord 5 base ovl with
    | some r => resizeRegions (loadPlan (listReader r.body) s)
    | none => resizeRegions (loadPlan (listReader []) s)
  let s := setBool s F.ADM_SHUT_MODE (!servesRequests mode)
  settleSpan (setF (setF s F.CFG_MODE mode) F.TICK_PERIOD_NEXT_US (getF s F.TICK_PERIOD_PERIOD_US))

/-! ### Requests and changes (R182, R183) -/

/-- Modes that a life-cycle state permits (R468). -/
def lcPermits (s : State) (mode : Nat) : Bool :=
  match s.fuses.lc with
  | 1 => true
  | 2 => true
  | 4 => false
  | _ => mode == 2 || mode == 4

/-- REFUSE_WHY of a request, if it is refused. -/
def modeRefused (s : State) (target : Nat) (r : Requester) : Option Nat :=
  if !policyAllows s 2 r then some 3
  else if 5 ≤ target then some 1
  else if isSet s F.CFG_MODE_STAT_PEND then some 2
  else if !lcPermits s target then some 6
  else if !isMaster s then some 4
  else match s.modes.overlays.find? (fun o => o.1 == target) with
    | none => some 5
    | some o => if modePlanOk s.modes.base o.2 then none else some 5

/-- A change becomes pending, asked for here or by a message with the stamp `by_` (R77, R183 steps 1 and 2). -/
def pendMode (s : State) (target asked : Nat) (by_ : Option Stamp) : State :=
  let s := setF (raise s F.CFG_MODE_STAT_PEND) F.CFG_MODE_STAT_TARGET target
  let s := setFrame (stampCaused s srcConfig (.modeRequest target) by_) { s.frame with modeAskedAt := asked }
  if servesRequests target then s else raise s F.ADM_SHUT_MODE

/-- MODE_REQUEST. A tick master announces the change to its span, and a change of period that it brings (R50, R182, R352); to a mode that serves
no requests, only when its own accepted requests have completed (R183; DESIGN CHOICE, log entry 109). -/
def modeRequest (target : Nat) (r : Requester) (s : State) : State :=
  match modeRefused s target r with
  | some why =>
    let s := if why = 3 then deny s 2 r else s
    setF (raise s F.CFG_STAT_MODE_REFUSED) F.CFG_MODE_STAT_REFUSE_WHY why
  | none =>
    let s := pendMode s target (frameNow s) none
    if inSpan s && !servesRequests target && !s.adm.reqs.isEmpty then setFrame s { s.frame with modeHeld := true } else announceMode s

/-- Idle content that the new mode excludes is discarded (R183 step 5); which idle pane holds an excluded configuration is a DESIGN CHOICE (log entry
109). -/
def discardExcluded (s : State) (mode : Nat) : State :=
  let c := casement s (idleCase s)
  let out (m : Nat) : Bool := !bitOf m mode
  let s := if (c.complete || isSet s F.CFG_STAT_LOADING) && out c.cfg.modeMask then
      clearLens (setCasement s (idleCase s) {}) (idleCase s)
    else s
  let p := pane s (idlePane s)
  let s := if c.complete && out c.cfg.modeMask && p.model == c.cfg.modelId && p.epoch == c.cfg.epoch then
      clearLoaded (setPane s (idlePane s) {}) (idlePane s)
    else s
  dropExcluded s

/-- The comparisons with the plan are made again for every resident epoch of every model that it names (R158): each configuration that fails is
rejected and counted, and is not one that has passed any more; its model is unusable, and no naming of it stands. -/
def recheckPlan (s : State) : State :=
  renewNaming ((s.mem.recs.filter (fun r => (entryOf s.mem r.model r.epoch).near && (planModelFor s.adm.plan r.model).isSome)).foldl (fun s r =>
    let bad := r.checked.filterMap (fun cid => (cfgBytes s r cid).bind (fun b =>
      (checkConfig b.rd (checkContext s r b.len b.west none false)).map (fun f => (cid, f))))
    let badRoute := r.routeOk && (match routeBytes s r with
      | some b => !routeOk b.rd b.len (spanSize s) (planModelFor s.adm.plan r.model)
      | none => false)
    let s := bad.foldl (fun s p => rejectConfig s p.2 p.1) s
    let s := setMem s (recUpd s.mem r.model r.epoch (fun r =>
      { r with checked := r.checked.filter (fun c => !bad.any (fun p => p.1 == c)), routeOk := r.routeOk && !badRoute }))
    if bad.isEmpty && !badRoute then s else markUnusable s r.model r.epoch) s)

/-- What a new span overlay starts afresh: losses are forgotten (R378). -/
def freshSpan (s : State) : State :=
  let s := (List.range 32).foldl (fun s k => setF s (F.SPAN_LOST k) 0) s
  let s := lower (lower s F.SPAN_STAT_DEGRADED) F.SPAN_STAT_ON_ALT
  let s := setBool s F.TICK_STAT_LOCKED (isSet s F.TICK_STAT_MASTER)
  setSpan s { s.span with
    reports := [], decided := [], soloFrames := [], alignLost := [], skip := 0, rerunEmpty := 0, rerunNow := false, replayAt := 0, held := none, decideWait := false, noReplay := false, lossAt := none,
    soloRun := 0, soloStreams := [], solo := false, load := none, loadFrames := false, masterSeenAt := devNow s, pathLostAt := none }

/-- MODE_CHANGE_APPLY: the change applies at the tick that opened the present, empty, frame (R183 steps 3 to 6). -/
def modeChangeApply (s : State) : State :=
  if !changeDue s (frameNow s) || s.frame.prevAborted || s.frame.hasLive || getF s F.TICK_CIF_CIF ≠ 0 then s
  else
    let target := getF s F.CFG_MODE_STAT_TARGET
    let old := spanKey s
    let before := s
    let s := applyMode false target s
    let s := if spanKey s = old ∧ ¬ inSpan s then s else freshSpan s
    let s := (List.range 16).foldl retrainPort s
    let s := setF s F.TICK_NEXT (getF s F.TICK_LAST + periodNs s)
    let s := recheckPlan (rebasePlan (discardExcluded (failInfeasible before s) target))
    let s := lower s F.CFG_MODE_STAT_PEND
    let s := if periodNs s = periodNs before then s else setF s F.TICK_PERIOD_AT (frameNow s)
    let s := setF (raise s F.CFG_STAT_MODE_DONE) F.CFG_MODE_AT (frameNow s)
    planPoints (showCap (bootCap (stampEvent s srcConfig (.modeChange target))))

end Sys2Proof.Machine
end

