-- ==== Sys2Proof/Machine/Span.lean ====
section
/-! DEFINITION. Spans: control messages received, the master's decision on a frame, lost members, the loss of the master, span
loads (R64 to R70, R77, R303, R307, R351 to R382). -/
namespace Sys2Proof.Machine

/-- A cause by its number (R397). -/
def Cause.ofNum (n : Nat) : Cause :=
  [.ok, .extent, .capacity, .classCause, .power, .link, .memberLoss, .reset, .nearLoss, .schedule, .security, .drain].getD n .ok

/-- Something has been heard from the master (R379). -/
def hearMaster (s : State) (m : CtrlMsg) : State :=
  if m.from_ = getF s F.SPAN_ROLES_MASTER then
    setSpan s { s.span with masterSeenAt := devNow s, pathLostAt := if isDeputy s then s.span.pathLostAt else none }
  else s

/-- Takes a message out of those that a port has delivered; one that comes by itself is counted as received now. -/
def takeMsg (s : State) (m : CtrlMsg) : State :=
  let s := if s.span.inbox.contains m then setSpan s { s.span with inbox := s.span.inbox.erase m } else bump s F.SPAN_CNT_CTRL_RX
  hearMaster s m

/-! ### Stretches (R68 to R70) -/

/-- STRETCH_REQ: the master, or a module that is its own, accepts it or counts it as late. -/
def stretchReq (m : CtrlMsg) (s : State) : State :=
  if m.msg ≠ 0x01 ∨ ¬ isMaster s then s
  else acceptStretch (takeMsg s m) ⟨m.tick, bitsOf m.arg 31 0, Cause.ofNum (bitsOf m.arg 39 32), m.from_, some m.stamp⟩

/-- STRETCH_GRANT. -/
def stretchGrant (m : CtrlMsg) (s : State) : State :=
  if m.msg ≠ 0x02 ∨ isMaster s then s
  else takeGrant (takeMsg s m) { tick := m.tick, dt := bitsOf m.arg 63 0, amountUs := bitsOf m.arg 95 64,
                                 cause := Cause.ofNum (bitsOf m.arg 103 96), ord := bitsOf m.arg 119 104 } (some m.stamp)

/-! ### The decision on a frame (R370 to R374) -/

/-- The streams with a request in the frame that this member committed as number `f`, or that waits for a decision here. -/
def frameStreams (s : State) (f : Nat) : List (Nat × Nat) :=
  ((s.adm.reqs.filter (fun r => (r.committed.isSome && r.commitFrame == f) ||
    (s.span.decideWait && r.open && r.frame == some s.adm.nextIdx))).map (fun r => (r.d.client, r.d.stream))).eraseDups

def breakStreams (s : State) (c : Cause) (l : List (Nat × Nat)) (by_ : Option Stamp) : State :=
  l.foldl (fun s k => breakStream s c k.1 k.2 by_) s

/-- The frame in progress counts as skipped, or as an empty frame run `again`: its plan index is carried again, it is faulted and aborts; no notice is
sent. -/
def skipCurrent (s : State) (again : Bool) : State :=
  match s.adm.frameIdx with
  | some i =>
    let s := setSpan { s with adm := { s.adm with nextIdx := i, frameIdx := none } } { s.span with rerunNow := again }
    if s.frame.hasLive then
      markFaulted (setFrame (setSpan s { s.span with muted := true }) { s.frame with nextRuns := true }) (stampNow s srcTick)
    else s
  | none => s

/-- A member that waits for the decision on its aborted frame `f` replays it in frame `f` + `skipped`, which is the present one where it has been
kept for that, or its requests fail (R175, R370, R373); on content that has been discarded it replays nothing (R296). -/
def replayOrFail (s : State) (c : Cause) (f skipped : Nat) (alone fail : Bool) (by_ : Option Stamp) : State :=
  let now := s.frame.waiting && decide (f + skipped ≤ frameNow s) && !s.adm.ejecting
  let s := setSpan s { s.span with
    decideWait := false, solo := alone && !fail, replayAt := f + skipped, recvs := if alone then s.span.held.getD s.span.recvs else s.span.recvs, held := none }
  if fail then replayFail (endWaiting s) c s.adm.nextIdx by_
  else if !(casement s (liveCase s)).complete || !(pane s (livePane s)).complete then
    setFrame (endWaiting s) { (endWaiting s).frame with firstAbort := none, replays := 0 }
  else if now then showEmpty (openLive s true false)
  else setFrame (endWaiting s) { (endWaiting s).frame with replayPending := true }

/-- What a decision on a frame that has been replayed `n` times leaves in the registers. -/
def showDecision (s : State) (f kind n : Nat) (c : Cause) : State :=
  let s := setF (setF s F.SPAN_DECIDE_KIND kind) F.SPAN_DECIDE_CAUSE c.num
  let s := setF (setF s F.SPAN_DECIDE_COUNT (min 3 n)) F.SPAN_DECIDE_TICK f
  raise s F.SPAN_STAT_REPLAY

/-- A decision or notice that comes after the first drain sample of the frame that it concerns (R372). -/
def countLateGuard (s : State) (late : Bool) : State :=
  if late then bump (raise s F.SPAN_STAT_GUARD_LATE) F.SPAN_CNT_GUARD_LATE else s

/-- The replays so far of the frame that a decision concerns, counted span-wide (R373): a member that waits has them in its frame, one that skips in its
count of the others' replays, any other in what it reported last. -/
def replaysOf (s : State) : Nat := if s.span.decideWait then s.frame.replays else if s.span.skipping then s.span.soloRun else s.span.lastReplays

/-- Applies the decision on frame `f` (R370 to R374): kind 1 ALL, 2 SOLO; `skipped` frames that the members that aborted spend from frame `f` + 1
on; `split` that the span has diverged; `by_` the stamp of the message that caused it. A decision concerns the frame after `f` (R372), and a
frame in progress counts among those skipped. -/
def applyDecision (s : State) (f kind skipped : Nat) (c : Cause) (split : Bool) (by_ : Option Stamp) : State :=
  let out := match s.span.lastOut with
    | some (t, o) => if t = f then o else 0
    | none => 0
  let past := decide (f < frameNow s)
  let s := countLateGuard s (decide (f + 1 < frameNow s) || past && s.frame.sampled)
  let n := replaysOf s
  let limit := decide (getF s F.CFG_REPLAY_CFG ≤ n)
  if split then
    let l := frameStreams s f
    let s := bump (raise (showDecision s f 1 n c) F.SPAN_STAT_SPLIT) F.SPAN_CNT_SPLIT
    breakStreams (if s.span.decideWait then replayOrFail s c f skipped false true by_ else s) c l by_
  else if kind = 1 then
    let s := bump (showDecision s f 1 n c) F.SPAN_CNT_REPLAY_ALL
    if s.span.decideWait then replayOrFail s c f skipped false limit by_
    else if out = 3 ∧ limit = false then
      let s := setSpan s { s.span with rerunEmpty := if past then skipped - 1 else skipped, rerunIdx := s.span.lastIdx }
      if past then skipCurrent s (skipped == 1) else s
    else s
  else if s.span.decideWait then
    let l := frameStreams s f
    let s := bump (showDecision s f 2 n c) F.SPAN_CNT_REPLAY_SOLO
    let s := replayOrFail s c f skipped true limit by_
    if limit then breakStreams s c l by_ else s
  else
    let l := if s.span.skipping then s.span.soloStreams else frameStreams s f
    let s := showDecision s f 3 n c
    if limit then breakStreams (setSpan s { s.span with skipping := false, soloRun := 0, soloStreams := [] }) c l by_
    else
      let s := addF (setSpan s { s.span with skipping := true, soloRun := n + 1, soloStreams := l }) F.SPAN_CNT_SKIP skipped
      if past then
        let s := skipCurrent s false
        setSpan s { s.span with skip := s.span.skip + (skipped - 1) }
      else setSpan s { s.span with skip := s.span.skip + skipped }

/-- Members whose report of frame `f` the master needs. -/
def reportersOf (s : State) (f : Nat) : List Nat :=
  let all := match s.span.soloFrames.find? (fun p => p.1 == f) with
    | some (_, l) => l
    | none => List.range (getF s F.SPAN_ID_SIZE)
  all.filter (fun i => !isLost s i)

/-- The master decides on frame `f` once it holds every report of it (R370), takes the cause from the report with the lowest
ordinal, and tells every member. A frame that some members replay alone, and those they spend on it, need their reports only. The members that aborted
spend one frame, the next, or two where one of them overran, or where the decision comes only after the next frame has ended (DESIGN CHOICE,
log entry 45). -/
def decideFrame (by_ : Option Stamp) (s : State) (f : Nat) : State :=
  let need := reportersOf s f
  let rs := s.span.reports.filter (fun r => r.tick == f && need.contains r.ord)
  if s.span.decided.contains f || !need.all (fun i => rs.any (fun r => r.ord == i)) then s
  else
    let alone := s.span.soloFrames.any (fun p => p.1 == f)
    let bad := rs.filter (fun r => r.outcome == 1 || r.outcome == 2)
    let s := setSpan s { s.span with decided := (s.span.decided ++ [f]).drop (s.span.decided.length - 7),
                                     reports := s.span.reports.filter (fun r => decide (r.tick ≠ f)) }
    if bad.isEmpty then s
    else
      let first := bad.foldl (fun b r => if r.ord < b.ord then r else b) (bad.headD ⟨0, f, 1, 0, false, 0, {}⟩)
      let notice := !alone && rs.any (fun r => r.notice)
      let all := !alone && rs.all (fun r => r.outcome == 1 || r.outcome == 2)
      let kind : Nat := if notice || all then 1 else 2
      let split := notice && rs.any (fun r => r.outcome == 0)
      let skipped : Nat := if bad.any (fun r => r.outcome == 2) || decide (f + 1 < frameNow s) then 2 else 1
      let again := bad.all (fun r => decide (r.replays < getF s F.CFG_REPLAY_CFG))
      let by_ := (by_.toList ++ rs.map (fun r => r.stamp)).foldl (fun a b => if a.before b then b else a) first.stamp
      let spent := if kind = 2 then skipped else skipped - 1
      let alonePlan := s.span.soloFrames ++ (List.range spent).map (fun k => (f + 1 + k, bad.map (fun r => r.ord)))
      let s := if again ∧ ¬ split then setSpan s { s.span with soloFrames := alonePlan.drop (alonePlan.length - 8) } else s
      let s := eventToAll s srcTick (some by_) 0x05 f (kind + first.cause * 2 ^ 8 + skipped * 2 ^ 16 + (if split then 2 ^ 24 else 0))
      applyDecision s f kind skipped (Cause.ofNum first.cause) split (some by_)

/-- Frames of which the master holds a report. -/
def decidePending (s : State) (by_ : Option Stamp) : State := ((s.span.reports.map (fun r => r.tick)).eraseDups).foldl (decideFrame by_) s

/-- FRAME_REPORT: the master keeps a member's report, its own is there already, and decides if it now can. -/
def frameReport (m : CtrlMsg) (s : State) : State :=
  if m.msg ≠ 0x03 ∨ ¬ inSpan s ∨ ¬ isMaster s then s
  else if m.from_ = ownOrd s then decideFrame none s m.tick
  else
    let s := takeMsg s m
    let r : FrameReport := { ord := m.from_, tick := m.tick, outcome := bitsOf m.arg 7 0, cause := bitsOf m.arg 15 8,
                             notice := decide (bitsOf m.arg 23 16 ≠ 0), replays := bitsOf m.arg 31 24, stamp := m.stamp }
    let s := if s.span.reports.any (fun q => q.ord == r.ord && q.tick == r.tick) then s
      else setSpan s { s.span with reports := s.span.reports ++ [r] }
    decideFrame none s m.tick

/-- FAULT_NOTICE: a member marks its own frame of that tick faulted; the master passes the notice on to every member (R368). The member's own
notice, which comes back with the master's, was counted as it was sent (DEDUCED, log entry 108). -/
def faultNotice (m : CtrlMsg) (s : State) : State :=
  if m.msg ≠ 0x04 ∨ ¬ inSpan s then s
  else
    let s := takeMsg s m
    let s := if isMaster s then forwardDown s (ctrlBytes { m with to_ := 0xFFFF }) else s
    if m.from_ = ownOrd s then s
    else
      let s := bump (raise (stampCaused s srcTick (.member m.from_ 4) (some m.stamp)) F.SPAN_STAT_NOTICE) F.SPAN_CNT_NOTICE
      let s := countLateGuard s (decide (m.tick < frameNow s) || s.frame.sampled)
      if m.tick = frameNow s then markFaulted (setSpan s { s.span with noticed := true }) m.stamp else s

/-- DECISION. -/
def decision (m : CtrlMsg) (s : State) : State :=
  if m.msg ≠ 0x05 ∨ ¬ inSpan s ∨ isMaster s then s
  else applyDecision (takeMsg s m) m.tick (bitsOf m.arg 7 0) (bitsOf m.arg 23 16) (Cause.ofNum (bitsOf m.arg 15 8)) (bitOf m.arg 24) (some m.stamp)

/-! ### Losing a member (R375 to R380) -/

/-- Whether the live configuration's transfers exchange data with member `x`. -/
def exchangesWith (s : State) (x : Nat) : Bool :=
  (liveCfg s).transfers.any (fun t => (t.engine == 4 || t.engine == 5) &&
    (let r := xferOf s t.ref
     let g := s.span.groups.getD (bitsOf r 75 64) 0
     x == ownOrd s || bitsOf r 33 24 == x ||
       (bitsOf r 23 21 != 0 && (List.range (bitsOf g 20 10)).any (fun i => bitsOf g 9 0 + i * bitsOf g 30 21 == x))))

/-- Whether a request is of a span model: one whose active or pinned epoch has SPAN = 1. -/
def spanRequest (s : State) (r : Req) : Bool :=
  let spanOf (e : Nat) : Bool := ((recFind s.mem r.d.model e).map (fun k => k.span)).getD false
  spanOf r.epoch || (match dirActive s.mem r.d.model with
    | some i => spanOf (dirGet s.mem i).epoch
    | none => false)

/-- R376: member `x` is lost with a cause of R375, from tick `at_` on; `by_` is the stamp of the message that says so, if one does
(R77). -/
def memberLost (s : State) (x cause at_ : Nat) (abort : Bool) (by_ : Option Stamp) : State :=
  let runs := s.frame.hasLive && s.frame.state != .tickWait
  let aborts := runs && (abort || exchangesWith s x)
  let t := stampAfter s srcTick by_
  let s := stampCaused s srcTick (.member x cause) by_
  let s := capture s [F.SPAN_STAT_MEMBER_LOST, F.SPAN_STAT_ISOLATED]
    [(F.SPAN_LOSS_CAUSE, cause), (F.SPAN_LOSS_ABORTED, if aborts then 1 else 0), (F.SPAN_LOSS_ORD, x), (F.SPAN_LOSS_TICK, at_)]
  let s := raise (raise s (if cause = 6 then F.SPAN_STAT_ISOLATED else F.SPAN_STAT_MEMBER_LOST)) F.SPAN_STAT_DEGRADED
  let s := bump (setBitF s (F.SPAN_LOST (x / 32)) (x % 32) true) F.SPAN_CNT_LOSS
  let s := if aborts then markFaulted (setSpan s { s.span with noReplay := true }) t else s
  let waits := s.span.decideWait || s.frame.replayPending
  let s := if waits && exchangesWith s x then dropFrame (setSpan s { s.span with decideWait := false, solo := false }) s.adm.nextIdx else s
  let s := failWhere s .memberLoss (spanRequest s) by_
  let s := if isMaster s then endLoadFailed s 0 false by_ else loadFail s 0
  let s := setSpan s { s.span with lossAt := some (match s.span.lossAt with
    | some t => min t at_
    | none => at_) }
  failUnmet s by_

/-- The master declares a member lost, tells every member, and decides on the frames that waited for its report. -/
def declareLost (s : State) (x cause at_ : Nat) (abort : Bool) (by_ : Option Stamp) : State :=
  if isLost s x || getF s F.SPAN_ID_SIZE ≤ x then s
  else
    let s := eventToAll s srcTick by_ 0x09 (frameNow s) (x + cause * 2 ^ 16 + at_ % 2 ^ 48 * 2 ^ 24 + (if abort then 2 ^ 72 else 0))
    decidePending (memberLost s x cause at_ abort by_) by_

/-- ALIGN_REPORT: the master notes since which frame a member has been out of alignment, or that it is locked again. -/
def alignReport (m : CtrlMsg) (s : State) : State :=
  if m.msg ≠ 0x06 ∨ ¬ inSpan s ∨ ¬ isMaster s then s
  else
    let s := takeMsg s m
    let others := s.span.alignLost.filter (fun p => decide (p.1 ≠ m.from_))
    if bitOf m.arg 16 then setSpan s { s.span with alignLost := others }
    else if s.span.alignLost.any (fun p => p.1 == m.from_) then s
    else setSpan s { s.span with alignLost := others ++ [(m.from_, frameNow s)] }

/-- ALIGN_GRACE_EXPIRY (R375, cause 4). -/
def alignGraceExpiry (ord : Nat) (s : State) : State :=
  if inSpan s && isMaster s && s.span.alignLost.any (fun p => p.1 == ord && decide (p.2 + getF s F.SPAN_CFG_ALIGN_GRACE < frameNow s)) then
    declareLost (setSpan s { s.span with alignLost := s.span.alignLost.filter (fun p => decide (p.1 ≠ ord)) }) ord 4 (frameNow s + 1) false none
  else s

/-- Whether the master holds, or has decided with, a member's report of a frame, or needs none. -/
def reported (s : State) (ord f : Nat) : Bool :=
  s.span.decided.contains f || !(reportersOf s f).contains ord || s.span.reports.any (fun r => r.ord == ord && r.tick == f)

/-- MEMBER_REPORT_MISSING (R375, cause 3). -/
def memberReportMissing (ord : Nat) (s : State) : State :=
  let n := frameNow s
  if inSpan s && isMaster s && decide (2 ≤ n) && ord != ownOrd s && !reported s ord (n - 1) && !reported s ord (n - 2) then
    declareLost s ord 3 (n + 1) false none
  else s

/-- LINK_LOST: [0] port, [1:2] peer, [3] kind. A port DOWN while both ends still report costs the higher ordinal (R375, causes 2
and 5). -/
def linkLost (m : CtrlMsg) (s : State) : State :=
  if m.msg ≠ 0x07 ∨ ¬ inSpan s ∨ ¬ isMaster s then s
  else
    let s := takeMsg s m
    let peer := bitsOf m.arg 23 8
    let both := decide (1 ≤ frameNow s) && reported s m.from_ (frameNow s - 1) && reported s peer (frameNow s - 1)
    if bitsOf m.arg 31 24 = 1 && both then declareLost s (max m.from_ peer) 5 (frameNow s + 1) false (some m.stamp)
    else declareLost s peer 2 (frameNow s + 1) false (some m.stamp)

/-- LEAVE: the sender is lost at its finish tick (R375, cause 1). -/
def leave (m : CtrlMsg) (s : State) : State :=
  if m.msg ≠ 0x08 ∨ ¬ inSpan s ∨ ¬ isMaster s then s
  else declareLost (takeMsg s m) m.from_ 1 (bitsOf m.arg 47 0) (bitOf m.arg 48) (some m.stamp)

/-- MEMBER_LOST. -/
def memberLostMsg (m : CtrlMsg) (s : State) : State :=
  if m.msg ≠ 0x09 ∨ ¬ inSpan s ∨ isMaster s then s
  else memberLost (takeMsg s m) (bitsOf m.arg 15 0 % 1024) (bitsOf m.arg 23 16) (bitsOf m.arg 71 24) (bitOf m.arg 72) (some m.stamp)

/-- The member handles itself as lost (R377). -/
def isolate (s : State) : State :=
  if isLost s (ownOrd s) then s else memberLost s (ownOrd s) 6 (frameNow s + 1) false none

/-- SELF_ISOLATION: neither parent can be reached. -/
def selfIsolation (s : State) : State :=
  let alt := isSet s F.SPAN_TREE_ALT_VALID && portUp s (getF s F.SPAN_TREE_ALT_PORT)
  if inSpan s && !isMaster s && !portUp s (getF s F.SPAN_TREE_PARENT_PORT) && !alt then isolate s else s

/-! ### The loss of the tick master (R379) -/

/-- TAKEOVER. -/
def takeover (m : CtrlMsg) (s : State) : State :=
  if m.msg ≠ 0x0C ∨ ¬ inSpan s ∨ isMaster s then s
  else
    let s := setF (takeMsg s m) F.SPAN_ROLES_MASTER (bitsOf m.arg 15 0)
    setSpan s { s.span with masterSeenAt := devNow s, pathLostAt := none }

/-- Whether the deputy has to take the old master as lost. -/
def masterGone (s : State) : Bool :=
  (match s.span.pathLostAt with
   | some t => decide (t + 2000000 ≤ devNow s)
   | none => false) || decide (s.span.masterSeenAt + 3000 * getF s F.TICK_SYNC_CFG ≤ devNow s)

/-- MASTER_LOSS_TIMEOUT: the deputy takes over; ticks go on from the next one that the old master scheduled. -/
def masterLossTimeout (s : State) : State :=
  if !isDeputy s || isMaster s || !masterGone s then s
  else
    let old := getF s F.SPAN_ROLES_MASTER
    let s := setF (eventToAll s srcTick none 0x0C (frameNow s) (ownOrd s)) F.SPAN_ROLES_MASTER (ownOrd s)
    let s := setF (setF s F.TICK_SYNC_SYNC_PORT 0) F.TICK_SYNC_DEPTH 0
    let s := setF (raise (raise (raise s F.SPAN_STAT_TAKEOVER) F.TICK_STAT_MASTER) F.TICK_STAT_LOCKED) F.SPAN_STAT_ROLE 1
    declareLost (setSpan s { s.span with pathLostAt := none }) old 3 (frameNow s + 1) false none

/-- TAKEOVER_TIMEOUT. -/
def takeoverTimeout (s : State) : State :=
  match s.span.pathLostAt with
  | some t => if inSpan s && !isMaster s && decide (t + 5000000 ≤ devNow s) then isolate s else s
  | none => s

/-! ### Announced changes (R50, R182, R303, R307, R352) -/

/-- ANNOUNCE: [0] subject, [1:6] apply tick, [7:31] operands. -/
def announce (m : CtrlMsg) (s : State) : State :=
  if m.msg ≠ 0x0A ∨ ¬ inSpan s ∨ isMaster s then s
  else
    let s := takeMsg s m
    let a : Announced := ⟨bitsOf m.arg 7 0, bitsOf m.arg 55 8, bitsOf m.arg 255 56⟩
    let s := setSpan s { s.span with announced := s.span.announced ++ [a] }
    if a.subject = 1 then setF (setF s F.TICK_PERIOD_NEXT_US a.operand) F.TICK_PERIOD_AT a.tick
    else if a.subject = 2 then pendMode s a.operand (a.tick - 2) (some m.stamp) else s

/-- The shards of an epoch whose home is this member, from shard `k` up. -/
def homeShardsFrom (s : State) (r : EpochRec) (k : Nat) : List Nat :=
  (List.range r.shards.length).filter (fun i => decide (k ≤ i) && decide ((r.shards.getD i {}).home = ownOrd s))

/-- The load frames of a span load begin: units are reserved for the shards that this member keeps, and a home reads its own from Store in shard
order (R307 steps 1 and 2). While another load runs, none begins (DESIGN CHOICE, log entry 110). -/
def beginSpanLoad (s : State) (model epoch : Nat) : State :=
  match recFind s.mem model epoch with
  | none => s
  | some r =>
    if !r.span || s.span.load.isSome || (entryOf s.mem model epoch).near then s
    else
      let s := raise (setSpan s { s.span with load := some { model := model, epoch := epoch }, loadFrames := true }) F.WGT_STAT_SPAN_LOADING
      let (ok, t) := reserveWith s (placeEpoch s model epoch (keptShard s r))
      if ok then ((homeShardsFrom t r 0).flatMap (fun k => (r.shards.getD k {}).runs)).foldl readRun t else loadReport t 0xFFFF 1

/-- The load frames end (R307 step 5): every member sets NEAR, or the load has failed. -/
def endSpanLoad (s : State) (model epoch : Nat) (failed : Bool) : State :=
  let s := setSpan s { s.span with loadFrames := false }
  match s.span.load, recFind s.mem model epoch with
  | some l, some r =>
    if l.model ≠ model ∨ l.epoch ≠ epoch then s
    else if failed then loadFail s 0
    else
      let s := raise (lower (setSpan s { s.span with load := none }) F.WGT_STAT_SPAN_LOADING) F.WGT_STAT_SPAN_LOAD_DONE
      if epochChecked s r then setMem s (dirUpdEpoch s.mem model epoch (fun e => { e with near := true })) else s
  | _, _ => s

/-- ANNOUNCE_APPLY: at its tick a change that has been announced applies. -/
def announceApply (subject : Nat) (s : State) : State :=
  match s.span.announced.find? (fun a => a.subject == subject && decide (a.tick ≤ frameNow s)) with
  | none => s
  | some a =>
    let t := setSpan s { s.span with announced := s.span.announced.erase a }
    let model := bitsOf a.operand 31 0
    let epoch := bitsOf a.operand 47 32
    match subject with
    | 1 => periodChange t
    | 2 => modeChangeApply t
    | 3 => keepTransom (dropStage (switchNow t model epoch) model epoch) model epoch
    | 4 => beginSpanLoad t model epoch
    | 5 => endSpanLoad t model epoch (bitOf a.operand 48)
    | _ => t

/-! ### The sums of the collectives (R360, R362) -/

/-- The rounding mode of a group's combining additions (R360). -/
def groupRnd (g : Nat) : Rnd := rndOfCode (bitsOf g 34 32)

/-- The ring's sum of chunk `c` over the parts of positions 0 to G − 1: from position c + 1 round to position c (R362). -/
def ringSum (mode : Rnd) (x : List Word) (c : Nat) : Word :=
  let at_ (k : Nat) : Word := x.getD ((c + k) % x.length) 0#32
  (List.range (x.length - 1)).foldl (fun acc k => addF32 mode acc (at_ (k + 2))) (at_ 1)

/-- The tree's sum by position: neighbouring nodes are added level by level, a node without a partner passes unchanged (R144, R362). -/
def nodeSum (mode : Rnd) (x : List Word) : Word := ((List.range x.length).foldl (fun v _ => pairSums mode v) x).headD 0#32

/-- The sum of chunk `c` of a collective over group record `g` from the parts of its positions (R362). Each addition of it is an array
word of some member's pattern, whose RND the compiler takes from the group. -/
def collectiveSum (g : Nat) (x : List Word) (c : Nat) : Word :=
  if bitOf g 31 then nodeSum (groupRnd g) x else ringSum (groupRnd g) x c

/-! ### Span loads (R307, R364) -/

/-- LOAD_REPORT: a target that holds and has checked every shard that it keeps reports so; the master passes the reports of its
members on to all. -/
def loadReportMsg (m : CtrlMsg) (s : State) : State :=
  if m.msg ≠ 0x0B ∨ ¬ inSpan s then s
  else
    let v := bitsOf m.arg 23 16
    if m.from_ = ownOrd s then
      match s.span.load.bind (fun l => recFind s.mem l.model l.epoch) with
      | some r =>
        let told := (s.span.load.map (fun l => l.held.contains (ownOrd s))).getD true
        if v = 2 && (loadTargets s r).contains (ownOrd s) && epochChecked s r && !told then
          let s := setSpan s { s.span with load := s.span.load.map (fun l => if isMaster s then l else { l with held := l.held ++ [ownOrd s] }) }
          loadReport s 0xFFFF 2
        else s
      | none => s
    else
      let s := takeMsg s m
      let s := if isMaster s then forwardDown s (ctrlBytes { m with to_ := 0xFFFF }) else s
      noteLoadReport s m.from_ (bitsOf m.arg 15 0) v (bitOf m.arg 24) (some m.stamp)

/-- Cuts a byte stream into flits (R321). -/
def cutAll (type chan : Nat) (b : List Byte) : List Flit :=
  let n := ceilDiv b.length 242
  (List.range n).map (fun i =>
    let p := (b.drop (242 * i)).take 242
    { type := type, last := decide (i + 1 = n), len := p.length, chan := chan, off := i, payload := p })

/-- The header of a piece (R364). -/
def pieceHeader (shard piece n clen : Nat) : List Byte := leBytes shard 2 ++ leBytes piece 2 ++ leBytes n 4 ++ leBytes clen 4 ++ leBytes 0 4

/-- REGION and ADDR of the block at byte `off` of a loaded shard: at the shard's home it came from its own Store, with its LBA; elsewhere it came over
a link, and the model shows region 0 and the offset (R282; DESIGN CHOICE, log entry 110). -/
def loadedFrom (s : State) (h : ShardRec) (off : Nat) : Nat × Nat := if h.home = ownOrd s then (7, (blockAt h (off / 4096)).2) else (0, off)

/-- A defective block of a loaded shard: the capture, the count, and the report to its home. -/
def loadDefect (s : State) (k : Nat) (h : ShardRec) (off : Nat) : State :=
  let x := loadedFrom s h off
  loadReport (bump (memEvent s F.MEM_STAT_CODEC_FAIL 7 h.side 0 x.1 x.2) F.MEM_CNT_CODEC_FAIL) k 1

/-- A target holds every piece of shard `k`: it is decompressed into Near and checked (R288, R307 steps 3 and 4). -/
def placeLoaded (s : State) (l : SpanLoadSt) (k : Nat) (h : ShardRec) (bytes : List Byte) : State :=
  let s := setSpan s { s.span with load := some { l with pieces := l.pieces.filter (fun p => decide (p.1 ≠ k)) } }
  let raw := bytes.map BitVec.toNat
  match decompress h.ulen raw with
  | none => loadDefect s k h (badBlock (ceilDiv h.ulen 65536) h.ulen 0 raw)
  | some out =>
    if crc32 out ≠ h.crc then
      loadDefect (bump (wgtEvent s F.WGT_STAT_CRC_FAIL 3 l.model l.epoch k) F.WGT_CNT_CRC_FAIL) k h 0
    else setMem (fillNear s h out) (shardUpd (fillNear s h out).mem l.model l.epoch k (fun h => { h with written := true, digestOk := false, fromBulk := false }))

/-- A target keeps a piece; with the last one it has the shard. -/
def takePiece (s : State) (l : SpanLoadSt) (r : EpochRec) (k piece : Nat) (bytes : List Byte) : State :=
  match r.shards[k]? with
  | none => s
  | some h =>
    if !keptShard s r h || h.written || !h.placed || l.pieces.any (fun p => p.1 == k && p.2.1 == piece) then s
    else
      let l := { l with pieces := l.pieces ++ [(k, piece, bytes)] }
      let mine := l.pieces.filter (fun p => p.1 == k)
      let n := (mine.map (fun p => p.2.2.length)).sum
      if n < h.clen then setSpan s { s.span with load := some l }
      else placeLoaded s l k h ((List.range mine.length).flatMap (fun i => ((mine.find? (fun p => p.2.1 == i)).map (fun p => p.2.2)).getD []))

/-- The length of a piece of a compressed shard (R364). -/
def pieceLen (clen piece : Nat) : Nat := min 15859696 (clen - 15859696 * piece)

/-- The shard and piece that a home sends next: its shards once in shard order, then the shards to be sent again, each in a load frame
later than the one in which a target reported it (R307 step 4, R364). -/
def nextPiece (s : State) (r : EpochRec) (l : SpanLoadSt) : Option (Nat × Nat) :=
  match homeShardsFrom s r l.cursor.1 with
  | k :: _ => some (k, if k = l.cursor.1 then l.cursor.2 else 0)
  | [] => (l.again.find? (fun a => decide (a.2.1 < frameNow s))).map (fun a => (a.1, a.2.2))

/-- The home's place in its order once it has sent a piece. -/
def afterPiece (s : State) (r : EpochRec) (l : SpanLoadSt) (k piece : Nat) : SpanLoadSt :=
  let last := decide ((r.shards.getD k {}).clen ≤ 15859696 * (piece + 1))
  if (homeShardsFrom s r l.cursor.1).isEmpty then
    { l with again := if last then l.again.filter (fun a => decide (a.1 ≠ k)) else l.again.map (fun a => if a.1 = k then (k, a.2.1, piece + 1) else a) }
  else { l with cursor := if last then (k + 1, 0) else (k, piece + 1) }

/-- Whether a channel can be a load channel of this home: the spec gives no table that assigns them, so that the command names one that this
module's channel table does not give to its span receive engine (R338, R364). DESIGN CHOICE (log 103). -/
def loadChannel (s : State) (chan : Nat) : Bool :=
  let e := smapGet zeroNat s.span.chans chan
  !bitOf e 23 || decide (bitsOf e 22 21 = 1)

/-- Whether a channel is still to come in this load frame: pieces go across the channels by ascending number, one on each (R364). -/
def channelLeft (s : State) (l : SpanLoadSt) (chan : Nat) : Bool :=
  l.sentOn.all (fun p => decide (p.2 ≠ frameNow s) || decide (p.1 < chan))

/-- Whether the load frames of a span load are running and the present frame is one of them, with no live side. -/
def inLoadFrame (s : State) : Bool :=
  s.span.loadFrames && !s.frame.hasLive &&
    (match s.adm.frameIdx with
     | some i => (planFrameEntry s.adm.plan i).kind == 1
     | none => false)

/-- A home sends piece `piece` of shard `k` on a channel, and keeps it if it is itself a target (R307 step 2, R364). -/
def sendPiece (s : State) (l : SpanLoadSt) (r : EpochRec) (k piece port chan : Nat) (bytes : List Byte) : State :=
  let h := r.shards.getD k {}
  match lostBlock s h with
  | some (c, lba) => storeFailed s c lba l.model l.epoch
  | none =>
    let n := pieceLen h.clen piece
    let b := (bytes ++ List.replicate n 0#8).take n
    let l := { afterPiece s r l k piece with sentOn := l.sentOn.filter (fun p => decide (p.2 = frameNow s)) ++ [(chan, frameNow s)] }
    let s := setSpan s { s.span with load := some l }
    let q := link s port
    takePiece (setLink s port { q with dataQ := q.dataQ ++ cutAll 2 chan (pieceHeader k piece n h.clen ++ b) }) l r k piece b

/-- SPAN_LOAD: in a load frame a home sends one piece on a load channel, or a target takes one. -/
def spanLoad (x : LoadStep) (s : State) : State :=
  match s.span.load with
  | none => s
  | some l =>
    match recFind s.mem l.model l.epoch with
    | none => s
    | some r =>
      match x with
      | .send port chan bytes =>
        if !inLoadFrame s || l.ending || 16 ≤ port || !loadChannel s chan || !channelLeft s l chan then s
        else match nextPiece s r l with
          | some (k, piece) => sendPiece s l r k piece port chan bytes
          | none => s
      | .staged chan =>
        match s.span.recvs.find? (fun i => i.ref == 65536 + chan) with
        | none => s
        | some i =>
          if !i.last then s
          else
            let s := setSpan s { s.span with recvs := s.span.recvs.erase i }
            let rd := listReader i.bytes
            takePiece s l r (leRead rd 0 2) (leRead rd 2 2) ((i.bytes.drop 16).take (leRead rd 4 4))

end Sys2Proof.Machine
end

