-- ==== Sys2Proof/Machine/Reset.lean ====
section
/-! DEFINITION. Module resets, failed starts, safe mode, and power (R23, R278, R438, R443, R444, R448 to R450, R461, R467, R470, R471,
R480, R527 to R533, R537). -/
namespace Sys2Proof.Machine

def setBoot (s : State) (b : BootSt) : State := { s with boot := b }
def setPins (s : State) (x : PinSt) : State := { s with pins := x }
def setFuses (s : State) (x : FuseSt) : State := { s with fuses := x }

/-! ### Rails (R528 to R530) -/

/-- The rails that the module switches, in the order of steps 3 to 8 of R529. -/
def railOrder : List Nat := [14, 13, 1, 2, 12, 10, 11, 6, 4, 5, 9, 7, 8, 0]

/-- A rail turns on or off. -/
def setRail (on : Bool) (s : State) (r : Nat) : State :=
  if bitOf s.pins.rails r = on then s
  else emit (setPins s { s.pins with rails := if on then s.pins.rails + 2 ^ r else s.pins.rails - 2 ^ r }) (.rail r on)

/-- The rails of a mask turn on, in order. -/
def railsOn (mask : Nat) (s : State) : State := (railOrder.filter (bitOf mask)).foldl (setRail true) s

/-- Every rail that the module switches and that is not in a mask turns off, in reverse order. -/
def railsOff (keep : Nat) (s : State) : State := (railOrder.reverse.filter (fun r => !bitOf keep r)).foldl (setRail false) s

/-! ### What a reset leaves (R23, R449) -/

/-- Whether `key` is a sticky field's (R23). -/
def stickyKey (key : Nat) : Bool :=
  regTable.any (fun r => r.fields.any (fun f =>
    f.keep && key % 32 == f.keyLo && decide (f.keyOff ≤ key / 32) && idxDelta r.dims (key / 32 - f.keyOff)))

/-- The first fuse step of a pending transition, where it is still to be done: the next STORE_GEN fuse (R470, R471). -/
def burnStoreGen (s : State) : State :=
  match s.boot.lc with
  | some j => if j.genDone then s else
      raise (setFuses (setBoot s { s.boot with lc := some { j with genDone := true } }) { s.fuses with storeGen := s.fuses.storeGen + 1 }) F.SEC_LC_GEN_DONE
  | none => s

/-- A reset, or a loss of power, in the course of step 1 with a transition pending: whether the STORE_GEN fuse has been burned by then is open (R471; DESIGN
CHOICE, log entry 97: a free bit says so). -/
def interruptFuses (s : State) : State :=
  if s.boot.phase = .running ∧ getF s F.BOOT_STAT_STEP = 1 ∧ s.boot.lc.isSome then
    let (x, s) := freeVal s 1
    if x = 1 then burnStoreGen s else s
  else s

/-- A module reset: every field takes its reset value but the sticky ones of a warm reset, memories and units start afresh, and
the boot record stays. Store's catalogue is not the module's to lose; the waiting commands stay. Until ticks resume after a warm reset the
tick number is the old one, so that the counts of stamps of its frame go on and no stamp is given twice (R73, R74). PWR_STAT.LOUVRE shows the filtered
level at once, where its Reset column has 0 and its description the level present (DESIGN CHOICE, log entry 107). -/
def moduleReset (cold : Bool) (reason : Nat) (s : State) : State :=
  let s := interruptFuses s
  let due := (if isSet s F.ARR_RETIRE_PEND then [getF s F.ARR_RETIRE_COL] else []) ++ (if isSet s F.ARR_RETIRE_QPEND then [getF s F.ARR_RETIRE_QCOL] else [])
  let b := s.boot
  let s := { s with
    flds := if cold then [] else s.flds.filter (fun p => stickyKey p.1)
    hiLatch := []
    frame := {}
    cells := []
    mem := { catalogue := s.mem.catalogue }
    wgt := {}
    adm := {}
    links := []
    span := {}
    pwr := {}
    modes := {}
    boot := if cold then { catalogueKey := b.catalogueKey } else
      { safe := b.safe, tripReset := reason == 4 || (b.tripReset && b.phase != .ready), fails := b.fails, retired := b.retired ++ due, clearAsked := b.clearAsked, lc := b.lc, debugNext := b.debugNext, debugOpenings := b.debugOpenings,
        relaxed := b.relaxed, catalogueKey := b.catalogueKey, ticked := b.ticked,
        coldStart := b.coldStart, sessions := b.sessions, ejectSeen := b.ejectSeen && b.phase != .ready }
    irq := {}
    stw := {}
    spdm := { eid := 0 }
    stampCnt := if cold then [] else s.stampCnt
    stampAhead := if cold then [] else s.stampAhead
    caps := [] }
  let s := setPins s { s.pins with storePerst := 0xF, xspiRst := true, storeRefclk := 0 }
  let s := setF s F.BOOT_RESET_REASON reason
  let s := if cold then s else setF s F.BOOT_RESET_COUNT (min 0xFFFF (getF s F.BOOT_RESET_COUNT + 1))
  setF s F.PWR_STAT_LOUVRE s.pins.louvre

/-- A condition holds the module in reset (R533). -/
def held (s : State) : Bool := !s.pins.aux || !s.pins.modPg || s.pins.sysRst || s.pins.perst

/-- Step `k` begins. -/
def beginStep (s : State) (k : Nat) : State :=
  setBool (setBoot (setF s F.BOOT_STAT_STEP k) { s.boot with phase := .running, stepAt := devNow s }) F.MEM_STAT_WIPE_BUSY (decide (k = 8))

/-- A start begins: every rail is on, rail 0 at the voltage of OP_MIN's point, and XSPI_RST_N is released (R529, R532); step 1 takes the exclusions in
force, and opens debug for a token (R480). -/
def beginStart (s : State) : State :=
  if held s then s
  else
    let s := railsOn 0xFFFF (setPins s { s.pins with coldDue := false, xspiRst := false })
    let s := setPwr s { s.pwr with railMv := s.fuses.vid.getD (getF s F.PWR_RANGE_OP_MIN) 550 }
    let s := setBoot s { s.boot with
      noPolicy := true, nearOut := getF s F.BOOT_EXCL_NEAR_OUT, nearCons := isSet s F.BOOT_EXCL_NEAR_CONS, bulkOut := getF s F.BOOT_EXCL_BULK_OUT,
      bulkGrade := getF s F.BOOT_EXCL_BULK_GRADE, portsFailed := getF s F.BOOT_EXCL_PORTS_FAILED }
    let s := if s.boot.debugNext then
        raise (raise (setBoot s { s.boot with debugNext := false, debugOpenings := s.boot.debugOpenings + 1 }) F.SEC_STAT_DEBUG_OPEN) F.SEC_STAT_DEBUG_OPENED
      else s
    beginStep (stampEvent s srcBoot (.boot 1)) 1

/-- A warm reset with its reason, and the start that follows it where nothing holds the module. -/
def warmReset (reason : Nat) (s : State) : State := beginStart (moduleReset false reason s)

/-! ### Failed starts and safe mode (R450, R461, R464, R467) -/

/-- Rails that may stay up in safe mode: not the array's, the Near stacks' and Bulk's (R467, R528; log entry 97). -/
def safeRails : Nat := 0xFC0E

/-- Safe mode: stewards in reset, everything but the always-on domain and the security controller unpowered. -/
def enterSafe (s : State) : State :=
  let s := { s with frame := {}, cells := [], mem := { catalogue := s.mem.catalogue }, wgt := {}, adm := {}, links := [], span := {}, modes := {}, stw := {}, irq := {} }
  let s := lower (setF (raise s F.BOOT_STAT_SAFE) F.DEV_CAP1_STEWARD_UP 0) F.TICK_STAT_RUNNING
  let s := lower (setF (setF (setF s F.DEV_CAP1_LINK_UP 0) F.DEV_CAP0_NEAR_PRESENT 0) F.DEV_CAP0_BULK_PRESENT 0) F.SEC_STAT_STORE_KEY
  let s := railsOff safeRails (setPins (setF s F.DEV_CAP2 0) { s.pins with storePerst := 0xF, storeRefclk := 0 })
  let s := lower (setF (lower s F.ARR_STAT_RUNNING) F.MEM_STORE_LINK_DRIVES 0) F.MEM_STAT_STORE_UP
  setBoot (stampEvent s srcBoot (.boot 16)) { s.boot with phase := .safe, safe := true }

/-- Failed starts of the run at a step. -/
def failsAt (s : State) (k : Nat) : Nat := smapGet zeroNat s.boot.fails k

/-- The slot that is not `n`. -/
def otherSlot (n : Nat) : Nat := 1 - n

/-- What a failed start leaves in the boot record. -/
def recordFail (s : State) (step cause : Nat) : State :=
  let s := setF (setF s F.BOOT_REC_FAIL_STEP step) F.BOOT_REC_FAIL_CAUSE cause
  let s := if step = 2 ∨ step = 3 ∨ (step = 6 ∧ cause = 10) then setBitF s F.BOOT_REC_SLOTS_FAILED (getF s F.BOOT_STAT_SLOT) true else s
  let key : Nat := if step = 6 ∧ cause = 10 then 16 else step
  let s := setBoot s { s.boot with fails := smapSet zeroNat s.boot.fails key (failsAt s key + 1) }
  let s := if step = 6 ∧ cause ≠ 10 then
      let down := ((List.range 16).filter (fun p => portEnabled s p && !portUp s p)).foldl (fun m p => m + 2 ^ p) 0
      setBoot s { s.boot with relaxed := Nat.lor s.boot.relaxed down }
    else s
  setF s F.BOOT_REC_FAIL_COUNT (min 3 (getF s F.BOOT_REC_FAIL_COUNT + 1))

/-- A step of the start in progress fails: the third failed start of a run, and a failed self-test, end in safe mode; else a warm reset follows
10 ms later. -/
def failStart (s : State) (cause : Nat) : State :=
  let s := stampEvent (recordFail s (getF s F.BOOT_STAT_STEP) cause) srcBoot (.boot (32 + cause))
  let s := if cause = 2 then raise s F.SEC_SELFTEST_FAIL else s
  if cause = 2 ∨ getF s F.BOOT_REC_FAIL_COUNT = 3 then enterSafe s
  else setBoot s { s.boot with phase := .failWait, failAt := devNow s }

/-- A reset of REASON 6: the start that it interrupts counts as failed at its step, with a cause of which the spec states no code; the third failed start
of the run ends in safe mode (R450, R461, R467; log entry 97). -/
def watchdogReset (s : State) : State :=
  if s.boot.phase ≠ .running then warmReset 6 s
  else
    let (c, s) := freeVal s 5
    let s := recordFail s (getF s F.BOOT_STAT_STEP) c
    if getF s F.BOOT_REC_FAIL_COUNT = 3 then enterSafe (moduleReset false 6 s) else warmReset 6 s

/-- BOOT_RETRY_RESET: 10 ms after a failed step. -/
def bootRetryReset (s : State) : State :=
  if s.boot.phase = .failWait ∧ s.boot.failAt + 10000000 ≤ devNow s then warmReset 5 s else s

/-- A restart: FAIL_COUNT and SLOTS_FAILED are cleared, and the exclusions too where that was asked (R466, R486). -/
def restart (s : State) : State :=
  let s := setBoot (setF (setF s F.BOOT_REC_FAIL_COUNT 0) F.BOOT_REC_SLOTS_FAILED 0) { s.boot with fails := [], relaxed := 0, safe := false }
  let s := if s.boot.clearAsked then
      let s := setF (lower (setF s F.BOOT_EXCL_NEAR_OUT 0) F.BOOT_EXCL_NEAR_CONS) F.BOOT_EXCL_BULK_OUT 0
      setBoot (setF (setF s F.BOOT_EXCL_BULK_GRADE 0) F.BOOT_EXCL_PORTS_FAILED 0) { s.boot with clearAsked := false }
    else s
  warmReset 7 s

/-! ### Power and the pins that hold the module (R438, R443, R527 to R533, R537) -/

/-- The rails that need the auxiliary input only: 3, VDD_AON, and 15, that input (R528). -/
def auxRails : Nat := 0x8008

/-- The module is powered: neither Off, nor without its auxiliary input. -/
def powered (s : State) : Bool := s.pins.aux && s.pins.main && s.pins.modPg && !s.pins.powering

/-- The rails turn off, and MOD_PG falls: what the module held is lost, and it is in reset. -/
def powerOff (s : State) : State :=
  let s := railsOff auxRails (interruptFuses s)
  let s := setPins s { s.pins with modPg := false, powering := false, storePerst := 0xF, xspiRst := true, storeRefclk := 0 }
  let s := setPwr s { s.pwr with dormant := false }
  let s := { s with frame := {}, cells := [], mem := { catalogue := s.mem.catalogue }, links := [], adm := {}, span := {}, wgt := {}, stw := {}, spdm := {} }
  setBoot (lower (lower s F.TICK_STAT_RUNNING) F.BOOT_STAT_READY) { s.boot with phase := .held }

/-- A 12-bit two's-complement temperature as eighths of a degree. -/
def tempOf (x : Nat) : Int := if x < 2048 then x else (x : Int) - 4096

/-- A temperature at which a trip comparator fires: 110 °C (R438). -/
def trips (t : Nat) : Bool := decide (880 ≤ tempOf t)

/-- THERMAL_TRIP: a comparator fires, or in Dormant an HBM stack's flag (log entry 107); without effect where THERMTRIP_N is asserted already, or the
always-on domain is unpowered (R438, R537). -/
def thermalTrip (s : State) : State :=
  if !s.pins.aux || s.pins.thermTrip then s
  else
    let s := powerOff (lower (raise (stampEvent s srcAlwaysOn (.power 1)) F.BOOT_REC_TRIP) F.BOOT_REC_SUPPLY)
    setPins s { s.pins with thermTrip := true, blocked := true }

/-- The input stage is on (R527). -/
def inputStage (s : State) : Bool := s.pins.aux && s.pins.main && !s.pins.blocked && !s.pins.thermTrip

/-- SUPPLY_FAIL: the 54 V input is below 38 V: the input stage turns off, and every rail with it. It is also the removal that ends a trip. -/
def supplyFail (s : State) : State :=
  if !s.pins.main then s
  else
    let live := inputStage s
    let s := setPins s { s.pins with main := false, blocked := false, thermTrip := false, powering := false }
    if live then powerOff (lower (raise (stampEvent s srcAlwaysOn (.power 2)) F.BOOT_REC_SUPPLY) F.BOOT_REC_TRIP) else s

/-- AUX_POWER_LOSS: the always-on domain goes down with everything else; THERMTRIP_N and MOD_PG read as the board's pull-ups. -/
def auxPowerLoss (s : State) : State :=
  if !s.pins.aux then s
  else
    let s := setRail false (powerOff s) 3
    let s := setPins s { s.pins with aux := false, rails := 0, modPg := true, thermTrip := false, blocked := false }
    { s with flds := [], boot := { catalogueKey := s.boot.catalogueKey } }

/-- The sequence of R529 begins where R527 lets the input stage enable. -/
def powerUp (s : State) : State :=
  if s.pins.aux && s.pins.main && !s.pins.blocked && !s.pins.thermTrip then setPins s { s.pins with powering := true, modPg := false } else s

/-- AUX_POWER_ON: a cold reset. -/
def auxPowerOn (s : State) : State :=
  if s.pins.aux then s
  else
    let s := moduleReset true 1 (setPins s { s.pins with aux := true, coldDue := true, rails := auxRails, modPg := false })
    powerUp s

/-- MAIN_POWER_ON: the 54 V input has risen above 42 V on both connectors: leaving Off is a reset with REASON 4, or the cold one that
auxiliary power began. -/
def mainPowerOn (s : State) : State :=
  if s.pins.main then s
  else
    let s := setPins s { s.pins with main := true }
    if !s.pins.aux || s.pins.thermTrip || s.pins.blocked then s
    else if s.pins.coldDue then powerUp s
    else powerUp (moduleReset false 4 s)

/-- RAIL_START_FAIL: a rail does not come up: those before it in the order have, and turn off again in reverse; the sequence stops until the 54 V input has
been removed and restored (R529). Which rail it is, is a free value (DESIGN CHOICE, log entry 97). -/
def railStartFail (s : State) : State :=
  if s.pins.powering then
    let (k, s) := freeVal s 4
    let s := (railOrder.take (k % 14)).foldl (setRail true) s
    let s := railsOff auxRails s
    setPins s { s.pins with powering := false, blocked := true, modPg := false }
  else s

/-- Rails that are up in Dormant (R530). -/
def dormantRails : Nat := 0xA078

/-- RAIL_OUT_OF_REGULATION: MOD_PG falls, and the module is in reset until it rises again. No code of R448 names this reset: REASON
is a free value. -/
def railOutOfRegulation (r : Nat) (s : State) : State :=
  if !powered s || 16 ≤ r || !bitOf s.pins.rails r then s
  else
    let (why, s) := freeVal s 4
    let s := moduleReset false why s
    setPins s { s.pins with modPg := false, powering := true }

/-- An assertion of a reset pin while MOD_PG is high is a reset; in the same always-on cycle as the other pin's, REASON is 3. -/
def resetPin (reason : Nat) (s : State) : State :=
  if !powered s then s
  else
    let meets := s.boot.phase = .held ∧ s.pins.resetAt / 40 = devNow s / 40 ∧ getF s F.BOOT_RESET_REASON = 3
    let s := if meets then s else if s.boot.phase = .held then setF s F.BOOT_RESET_REASON reason else moduleReset false reason s
    setPins s { s.pins with resetAt := devNow s }

/-- SYS_RST_N: asserted or released for at least 1 µs. -/
def sysRstN (asserted : Bool) (s : State) : State :=
  if !asserted then setPins s { s.pins with sysRst := false }
  else if s.pins.sysRst then s
  else
    let s := resetPin 3 s
    setPins s { s.pins with sysRst := true }

/-- PERST_N. -/
def perstN (asserted : Bool) (s : State) : State :=
  if !asserted then setPins s { s.pins with perst := false }
  else if s.pins.perst then s
  else
    let s := resetPin 2 s
    setPins s { s.pins with perst := true }

/-- START: the power-up sequence, where one is in progress, releases MOD_PG; when nothing holds the module in reset, the boot steps begin,
with every rail on: a reset pin ends Dormant too (DEDUCED, log entry 97). -/
def start (s : State) : State :=
  let s := if s.pins.powering then
      let s := railsOn 0xFFFF s
      setPins s { s.pins with powering := false, modPg := true } else s
  if s.boot.phase = .held then beginStart s else s

end Sys2Proof.Machine
end

