-- ==== Sys2Proof/Machine/Boot.lean ====
section
/-! DEFINITION. Images and the boot steps (R451 to R466, R470 to R474, R478). -/
namespace Sys2Proof.Machine

/-! ### Images (R453 to R455) -/

/-- The slot's bytes in the NOR. -/
def slotBytes (s : State) (n : Nat) : List Byte := if n = 0 then s.nor.slot0 else s.nor.slot1

def setSlotBytes (s : State) (n : Nat) (b : List Byte) : State :=
  { s with nor := if n = 0 then { s.nor with slot0 := b } else { s.nor with slot1 := b } }

def slice (b : List Byte) (o n : Nat) : List Byte := (b.drop o).take n
def zeros (b : List Byte) : Bool := b.all (fun x => x == 0#8)

def imgSvn (b : List Byte) : Nat := leRead (listReader b) 8 4
def imgRelease (b : List Byte) : Nat := leRead (listReader b) 12 4
def imgLen (b : List Byte) : Nat := leRead (listReader b) 16 4
def imgFactory (b : List Byte) : Bool := bitOf (leRead (listReader b) 6 2) 0
def imgCommit (b : List Byte) : Bool := bitOf (leRead (listReader b) 6 2) 1

/-- Section entry `j`: its offset, length and digest (R454). -/
def secEntry (b : List Byte) (j : Nat) : Nat × Nat × Nat :=
  (leRead (listReader b) (64 + 64 * j) 4, leRead (listReader b) (68 + 64 * j) 4, beNat (slice b (80 + 64 * j) 48))

def secBytes (b : List Byte) (j : Nat) : List Byte := slice b (secEntry b j).1 (secEntry b j).2.1

/-- TAG, FORMAT and every reserved byte (R453, R454). -/
def imgHeaderOk (b : List Byte) : Bool :=
  let rd := listReader b
  leRead rd 0 4 == 0x5139464C && leRead rd 4 2 == 1 && leRead rd 6 2 / 4 == 0 && decide (imgSvn b ≤ 63) &&
  zeros (slice b 20 44) && zeros (slice b 576 448) && zeros (slice b 1536 2560) && zeros (slice b 512 64) &&
  (List.range 7).all (fun j => zeros (slice b (72 + 64 * j) 8)) && (!imgFactory b || zeros (slice b 1280 256))

/-- Sections within IMAGE_LEN, at multiples of 4,096, apart from each other; only an overlay's may be empty. -/
def imgSectionsOk (b : List Byte) : Bool :=
  let l := (List.range 7).map (secEntry b)
  decide ((secEntry b 0).2.1 ≠ 0) && decide ((secEntry b 1).2.1 ≠ 0) &&
  l.all (fun x => x.1 % 4096 == 0 && decide (x.1 + x.2.1 ≤ imgLen b)) &&
  noPair (fun x y : Nat × Nat × Nat => decide (x.1 < y.1 + y.2.1) && decide (y.1 < x.1 + x.2.1)) (l.filter (fun x => decide (x.2.1 ≠ 0)))

def imgDigestsOk (b : List Byte) : Bool :=
  (List.range 7).all (fun j => (secEntry b j).2.1 == 0 || sha384 (secBytes b j) == (secEntry b j).2.2)

/-- The signatures that the life-cycle state asks for. -/
def imgSignedOk (s : State) (b : List Byte) : Bool :=
  let fac := imgFactory b
  let v := sigOk (slice b 1024 256) (slice b 0 (if fac then 576 else 128)) Config.vendorKh.toNat
  match s.fuses.lc with
  | 0 => fac && v
  | 3 => fac && v
  | 1 => !fac && v && sigOk (slice b 1280 256) (slice b 0 64 ++ slice b 128 448) (ownerKh s)
  | 2 => !fac && v && sigOk (slice b 1280 256) (slice b 0 64 ++ slice b 128 448) (ownerKh s)
  | _ => false

/-- What is wrong with an image, by the codes of BOOT_UPD_STAT.RESULT; none where the slot is valid for the present state (R455). In the
error state no digest can be checked (R485). -/
def imageFault (s : State) (b : List Byte) : Option Nat :=
  if b.length < 4096 || 117440512 < imgLen b || b.length < imgLen b then some 2
  else if !imgHeaderOk b || !imgSectionsOk b then some 3
  else if isSet s F.SEC_SELFTEST_FAIL || !imgDigestsOk b then some 4
  else if !imgSignedOk s b then some 5
  else if imgSvn b < s.fuses.svn then some 6
  else none

def slotValid (s : State) (n : Nat) : Bool := (imageFault s (slotBytes s n)).isNone

def showSlots (s : State) : State := setBool (setBool s F.BOOT_SLOT_VALID0 (slotValid s 0)) F.BOOT_SLOT_VALID1 (slotValid s 1)

/-! ### The steps -/

/-- What a step comes to: the state, or the cause of its failure and the state that it leaves. -/
abbrev StepEnd := Except (Nat × State) State

/-- The fused fields (R459). -/
def loadFuses (s : State) : State :=
  let f := s.fuses
  let s := setF (setF (setF s F.SEC_LC_STATE f.lc) F.SEC_LC_OWNER_SLOT (f.owners.length - 1)) F.SEC_GEN_OWNERS f.owners.length
  let s := setF (setF (setF s F.SEC_GEN_STORE_GEN f.storeGen) F.SEC_SERIAL f.serial) F.SEC_ROM_REV f.romRev
  let s := setF (setF (setF s F.BOOT_SLOT_SVN_MIN f.svn) F.PWR_FUSED_EMAX f.eMax) F.PWR_FUSED_POTHER0_DW f.pOther0
  let s := (List.range 16).foldl (fun s p => setF s (F.TEL_VID p) (f.vid.getD p 0)) (setF s F.TEL_PGRADE f.pgrade)
  if s.boot.coldStart then
    setF (setF (setF s F.ARR_COLMAP_EXCL0 (f.excluded.getD 0 0x7F)) F.ARR_COLMAP_EXCL1 (f.excluded.getD 1 0x7F)) F.DEV_CAP0_SPARE_LEFT (2 - min 2 f.excluded.length)
  else s

/-- A new nonce (R470). -/
def drawNonce (s : State) : State :=
  (List.range 4).foldl (fun s i =>
    let (x, s) := freeVal s 32
    setF s (F.SEC_LC_NONCE i) x) s

/-- The fuse steps of a pending transition, from the first that is not done (R469 to R471). -/
def lcFuses (s : State) : State :=
  match s.boot.lc with
  | some j =>
    let s := burnStoreGen s
    let f := s.fuses
    let s := setFuses s { f with
      lc := j.target, uds := if j.target = 4 then 2 ^ 256 - 1 else f.uds, owners := match j.ownerKh with
        | some k => f.owners ++ [k]
        | none => f.owners }
    let s := lower (lower (setBoot s { s.boot with lc := none }) F.SEC_LC_PEND) F.SEC_LC_GEN_DONE
    stampEvent (raise s F.SEC_STAT_LC_DONE) srcSecurity (.security 1)
  | none => s

/-- Step 1. Where a test fails, no cryptographic service follows: no fuse is burned, no nonce drawn, and no fused field loads, for the step
does not complete (R23, R485). -/
def stepRom (d : BootData) (s : State) : StepEnd :=
  let s := setF (setF (raise s F.SEC_SELFTEST_DONE) F.SEC_SELFTEST_PASSED (d.tests % 64)) F.DEV_POS s.pins.bpos
  if d.tests % 64 ≠ 63 then .error (2, s)
  else
    let s := drawNonce (loadFuses (lcFuses s))
    let s := setBoot s { s.boot with coldStart := false }
    .ok (if s.fuses.lc = 0 then raise s F.SEC_STAT_DEBUG_OPEN else s)

/-- The slot that a start uses (R465). -/
def chooseSlot (s : State) : Option Nat :=
  let p := getF s F.BOOT_SLOT_PREF
  if !bitF s F.BOOT_REC_SLOTS_FAILED p then some p
  else if !bitF s F.BOOT_REC_SLOTS_FAILED (otherSlot p) then some (otherSlot p) else none

/-- A private key from 448 bits of KDF output, by extra random bits (R474). -/
def privateKey (k : Nat) : Nat := k % 2 ^ 448 % (p384N - 1) + 1

/-- The DeviceID private key (R474). -/
def deviceKey (s : State) : Nat := privateKey (Config.kdf (s.fuses.uds) "DEVID" [])

/-- The alias private key of the image in the slot that runs: it carries the firmware section's digest, the SVN and the debug state (R474, R480). -/
def aliasKey (s : State) (b : List Byte) : Nat :=
  privateKey (Config.kdf (deviceKey s) "ALIAS"
    ((leBytes (secEntry b 0).2.2 48).reverse ++ leBytes (imgSvn b) 4 ++ leBytes (getF s F.SEC_STAT_DEBUG_OPEN) 1))

/-- Step 2: what the check of both slots finds is shown, also where it finds none to run. -/
def stepImage (s : State) : StepEnd :=
  let s := raise (setF s F.BOOT_NOR_SIZE_MIB s.nor.sizeMib) F.BOOT_NOR_OCTAL
  if s.nor.sizeMib < 256 || 1024 < s.nor.sizeMib then .error (3, s)
  else
    let s := showSlots s
    match chooseSlot s with
    | none => .error (4, s)
    | some n =>
      let b := slotBytes s n
      if slotValid s n then
        .ok (setBoot { s with spdm := { s.spdm with alias_ := some (aliasKey s b) } } { s.boot with image :=
          { svn := imgSvn b, release := imgRelease b, commitSvn := imgCommit b, digests := (List.range 7).map (fun j => (secEntry b j).2.2) } })
      else .error (4, s)

/-- Records of section `j`. -/
def secRecords (b : List Byte) (j : Nat) : Option (List ModeRecord) :=
  let x := secBytes b j
  recordsOf (listReader x) x.length 0 x.length

/-- A section whose records all keep R457 and whose plan keeps R391. -/
def sectionOk (inBase : Bool) (base l : List ModeRecord) : Bool := l.all (recordOk inBase) && modePlanOk base l

/-- The Store key is available (R474). -/
def storeKeyAvailable (s : State) : Bool := (s.fuses.lc == 1 || s.fuses.lc == 2) && !isSet s F.SEC_STAT_DEBUG_OPEN

/-- Lanes of the widest link that the base configuration's bifurcation leaves (R254). -/
def storeLanes (s : State) : Nat := match getF s F.MEM_STORE_LINK_BIFUR with
  | 0 => 16
  | 1 => 8
  | _ => 4

/-- Step 3. -/
def stepFirmware (s : State) : StepEnd :=
  let b := slotBytes s (getF s F.BOOT_STAT_SLOT)
  match secRecords b 1 with
  | none => .error (6, s)
  | some base =>
    if !sectionOk true [] base then .error (6, s)
    else
      let ovl := (List.range 5).filterMap (fun m => if (secEntry b (2 + m)).2.1 = 0 then none
        else match secRecords b (2 + m) with
          | some l => if sectionOk false base l then some (m, l) else none
          | none => none)
      let bad := ((List.range 5).filter (fun m => !ovl.any (fun o => o.1 == m))).foldl (fun a m => a + 2 ^ m) 0
      let s := setF s F.BOOT_REC_OVL_BAD bad
      let mode := match lastRecord 9 base [] with
        | some r => leRead (listReader r.body) 0 1
        | none => 2
      if (lastRecord 9 base []).isSome && !ovl.any (fun o => o.1 == mode) then .error (6, s)
      else
        let s := { s with modes := { base := base, overlays := ovl } }
        let s := imageDefaults.foldl (fun s p => setF s p.1 p.2) s
        let s := match lastRecord 8 base [] with
          | some r => setF s F.SEC_POLICY (leRead (listReader r.body) 0 8)
          | none => s
        let s := applyMode true mode (setF (setF s F.BOOT_FW s.boot.image.release) F.BOOT_SLOT_SVN s.boot.image.svn)
        let ns := match lastRecord 6 base [] with
          | some r => (bodyWords 8 r.body).map (fun w => bitsOf w 31 0)
          | none => []
        let s := setBoot s { s.boot with initMode := mode, storeNs := ns, noPolicy := false }
        let lo := getF s F.PWR_RANGE_OP_MIN
        let s := setF (setF (setF (setF s F.PWR_OP_CUR lo) F.PWR_OP_TARGET lo) F.PWR_OP_CEIL lo) F.PWR_OP_RAIL_MV (opMv s lo)
        let s := setF s F.PWR_VREG 0xFFFFFF
        let s := showCap (setPwr s { s.pwr with rackCap := 10 * getF s F.PWR_CAP_CFG_BOOT_W, railMv := opMv s lo })
        let s := (List.range 4).foldl (fun s n => startCount (setF s (F.STW_CORE_STATE n) 1) n) (setF s F.DEV_CAP1_STEWARD_UP 0xF)
        let s := setPins s { s.pins with storeRefclk := 2 ^ (16 / storeLanes s) - 1 }
        let s := setBool s F.SEC_STAT_STORE_KEY (storeKeyAvailable s)
        .ok (allLatches.foldl (fun s p => if isSet s (latchField p) then senseLine s (latchSource p) true else s) s)

/-- Stacks or ports of a mask that are not in another. -/
def without (n a b : Nat) : Nat := ((List.range n).filter (fun i => bitOf a i && !bitOf b i)).foldl (fun m i => m + 2 ^ i) 0

/-- Whether a side has no stack in a mask. -/
def sideEmpty (m : Nat) : Bool := m % 16 == 0 || m / 16 % 16 == 0

/-- Step 4. -/
def stepNear (d : BootData) (s : State) : StepEnd :=
  let n := failsAt s 4
  let want := without 8 0xFF s.boot.nearOut
  let got := Nat.land want (d.near % 256)
  let s := setBoot s { s.boot with nearCons := s.boot.nearCons || decide (1 ≤ n) }
  if got = want then .ok (setF s F.DEV_CAP0_NEAR_PRESENT got)
  else if n < 2 || sideEmpty got then .error (7, s)
  else .ok (setF (setBoot s { s.boot with nearOut := without 8 0xFF got }) F.DEV_CAP0_NEAR_PRESENT got)

/-- Sides all of whose channels trained. -/
def sidesOf (bulk : Nat) : Nat := (if bulk % 256 = 255 then 1 else 0) + (if bulk / 256 % 256 = 255 then 2 else 0)

/-- Packages of a mask of sides. -/
def packagesOf (sides : Nat) : Nat := (if bitOf sides 0 then 0xFF else 0) + (if bitOf sides 1 then 0xFF00 else 0)

/-- A channel-table entry that keeps R338 and R339. -/
def channelOk (c : Nat × Nat) : Bool :=
  let e := c.2
  decide (bitsOf e 22 21 < 2) && bitsOf e 31 24 == 0 &&
    (!bitOf e 23 || (List.range 16).all (fun q => !bitOf e q || decide (q / 8 = bitsOf e 20 17 / 8)))

/-- A span transfer record that keeps R357, a group record that keeps R360. -/
def xferOk (groups : List Nat) (x : Nat) : Bool :=
  decide (1 ≤ xferLen x) && decide (xferLen x ≤ 15859712) && xferLen x % 32 == 0 && bitsOf x 63 58 == 0 && bitsOf x 127 90 == 0 &&
    (bitsOf x 23 21 == 0 || bitsOf x 23 21 == 1 || decide (bitsOf x 75 64 < groups.length))

def groupOk (size g : Nat) : Bool :=
  let n := bitsOf g 20 10
  decide (1 ≤ n) && decide (n ≤ 1024) && decide (1 ≤ bitsOf g 30 21) && decide (bitsOf g 34 32 < 5) && g / 2 ^ 35 == 0 &&
    decide (bitsOf g 9 0 + (n - 1) * bitsOf g 30 21 < size)

/-- The tables of step 6. -/
def tablesOk (s : State) : Bool :=
  s.span.chans.all channelOk && s.span.xfers.all (xferOk s.span.groups) && s.span.groups.all (groupOk (max 1 (getF s F.SPAN_ID_SIZE)))

/-- Step 6 begins: where the tables hold, every enabled port that boot has not left in FAILED begins to train, with a new session number (R329,
R333, R460). -/
def beginLinks (s : State) : State :=
  if !tablesOk s then s
  else (List.range 16).foldl (fun s p =>
    if !portEnabled s p then s
    else if bitOf s.boot.portsFailed p then setF s (F.LNK_STAT_STATE p) 7
    else
      let (x, s) := if bitOf s.boot.sessions p then (getF s (F.LNK_SESSION_OWN p) + 1, s) else freeVal s 16
      let s := setBoot s { s.boot with sessions := Nat.lor s.boot.sessions (2 ^ p) }
      beginTraining (setF s (F.LNK_SESSION_OWN p) x) p 1) s

/-- Step 5; step 6 follows. -/
def stepBulk (d : BootData) (s : State) : StepEnd :=
  let n := failsAt s 5
  let want := without 2 3 s.boot.bulkOut
  let got := Nat.land want (sidesOf d.bulk)
  let s := setBoot s { s.boot with bulkGrade := max s.boot.bulkGrade (min n 2) }
  if got ≠ want ∧ n < 2 then .error (8, s)
  else
    let s := setF (setF (setBoot s { s.boot with bulkOut := without 2 3 got }) F.DEV_CAP0_BULK_PRESENT (packagesOf got)) F.MEM_BULK_STAT_SIDE_UP got
    .ok (beginLinks s)

/-- Step 6. -/
def stepLink (s : State) : StepEnd :=
  if !tablesOk s then .error (10, s)
  else
    let down := (List.range 16).filter (fun p => portEnabled s p && !portUp s p && portState s p != 7)
    if down.isEmpty then .ok s
    else if failsAt s 6 < 2 then .error (9, s)
    else .ok (down.foldl (fun s p =>
      setBoot (setF s (F.LNK_STAT_STATE p) 7) { s.boot with portsFailed := s.boot.portsFailed + 2 ^ p }) s)

/-- Excluded columns. -/
def excluded (s : State) (col : Nat) : Bool := getF s F.ARR_COLMAP_EXCL0 == col || getF s F.ARR_COLMAP_EXCL1 == col

/-- Step 7: retirements that were pending or queued at the reset count as defects found (R121, R462). All 16 decompression engines are
taken as up: the spec gives no test that leaves one out (R34; DESIGN CHOICE, log entry 97). -/
def stepSelftest (d : BootData) (s : State) : StepEnd :=
  let cols := ((s.boot.retired ++ d.defects).eraseDups).filter (fun c => decide (c < 66) && !excluded s c)
  if getF s F.DEV_CAP0_SPARE_LEFT < cols.length then .error (11, s)
  else .ok (setF (setBoot (cols.foldl excludeColumn s) { s.boot with retired := [] }) F.DEV_CAP2 0xFFFF)

/-- The Near units that stewards have written in full before the wipe keep their content; every other byte is zero (R278). -/
def wipeNear (s : State) : State :=
  let full := s.mem.early.filter (fun p => earlyFull s.mem (p.1 / unitBytes))
  lower (setMem s { s.mem with near := full.foldl (fun m p => smapSet zeroByte m p.1 (BitVec.ofNat 8 (p.2 - 1))) s.mem.near, early := [] })
    F.MEM_STAT_WIPE_BUSY

/-- Step 8. -/
def stepWipe (d : BootData) (s : State) : StepEnd :=
  let before := lower s F.MEM_STAT_WIPE_BUSY
  let s := wipeNear s
  let badN := Nat.land (getF s F.DEV_CAP0_NEAR_PRESENT) (d.wipeNear % 256)
  let badB := Nat.land (getF s F.MEM_BULK_STAT_SIDE_UP) (d.wipeBulk % 4)
  if badN = 0 ∧ badB = 0 then .ok s
  else if failsAt s 8 = 0 then .error (12, before)
  else
    let near := without 8 (getF s F.DEV_CAP0_NEAR_PRESENT) badN
    let sides := without 2 (getF s F.MEM_BULK_STAT_SIDE_UP) badB
    let s := setBoot s { s.boot with nearOut := Nat.lor s.boot.nearOut badN, bulkOut := Nat.lor s.boot.bulkOut badB }
    let s := setF (setF (setF s F.DEV_CAP0_NEAR_PRESENT near) F.DEV_CAP0_BULK_PRESENT (packagesOf sides)) F.MEM_BULK_STAT_SIDE_UP sides
    .ok (if sideEmpty near then raise s F.ADM_SHUT_SIDE else s)

/-- What the present Store key is derived from (R474). -/
def storeKeyId (s : State) : Nat × Nat := (s.fuses.owners.length, s.fuses.storeGen)

/-- Whether a controller can meet the settings of R255: a transfer of 128 KiB, 8 I/O queue pairs of depth 1,024, a metadata buffer of its own, and no
protection information. -/
def meetsSettings (x : CtrlData) : Bool :=
  (x.mdts == 0 || decide (131072 ≤ x.mdts)) && decide (8 ≤ x.pairs) && decide (1024 ≤ x.depth) && x.sepMeta && x.protOff

/-- The listed controllers that answer: each is asked for its controller and namespace data and for its number of queues (R255). -/
def identifyController (s : State) (c : Nat) : State :=
  emit (emit (emit s (.nvme c 0 true 0x06 1)) (.nvme c (s.boot.storeNs.getD c 0) true 0x06 0)) (.nvme c 0 true 0x09 7)

/-- The queue pairs of a controller that meets the settings: 8 completion queues, each with its submission queue (R255). -/
def attachController (s : State) (c : Nat) : State :=
  (List.range 8).foldl (fun s q => emit (emit s (.nvme c 0 true 0x05 (q + 1))) (.nvme c 0 true 0x01 (q + 1))) s

/-- Whether a link of the Store port can have trained so (R254). -/
def storeLinkOk (s : State) (d : BootData) : Bool :=
  [16, 8, 4, 2, 1].contains d.width && decide (d.width ≤ storeLanes s) && decide (1 ≤ d.speed) && decide (d.speed ≤ 6)

/-- Step 9. -/
def stepStore (d : BootData) (s : State) : StepEnd :=
  if !isSet s F.SEC_STAT_STORE_KEY || decide (2 ≤ failsAt s 9) then .ok (setBoot s { s.boot with noStore := true })
  else
    let there := if storeLinkOk s d then (List.range s.boot.storeNs.length).filter (bitOf d.drives) else []
    let s := there.foldl identifyController s
    let drives := ((there.filter (fun c => meetsSettings (d.ctrls.getD c {}))).map (fun c => 2 ^ c)).sum
    let size := addressed storeLimit (((List.range 16).filter (bitOf drives)).map (fun c => (c, d.blocks.getD c 0)))
    let blocks := (size.map (fun x => x.2)).sum
    let s := setPins s { s.pins with storePerst := 16 - 2 ^ (16 / storeLanes s) }
    let s := setBool (setF s F.MEM_STORE_LINK_DRIVES drives) F.MEM_STAT_STORE_UP (decide (drives ≠ 0))
    let s := if storeLinkOk s d then
        setBool (setF (setF s F.MEM_STORE_LINK_WIDTH d.width) F.MEM_STORE_LINK_SPEED d.speed) F.MEM_STORE_LINK_FLIT (decide (d.speed = 6)) else s
    let s := setF s F.MEM_STORE_SIZE (blocks / 262144)
    let s := setCatalogue s { s.mem.catalogue with drives := size }
    let s := ((List.range 16).filter (bitOf drives)).foldl attachController s
    if drives = 0 then .ok s
    else if d.authentic && s.boot.catalogueKey == some (storeKeyId s) then
      let s := setCatalogue s { s.mem.catalogue with wgenHigh := headerWgen s.mem.catalogue d.headBad }
      .ok (s.mem.catalogue.epochs.foldl (fun s r => createEntry s r (smapGet zeroNat s.mem.catalogue.transoms r.model == r.epoch &&
        s.mem.catalogue.transoms.any (fun t => t.1 == r.model))) s)
    else
      let s := setCatalogue s { drives := size }
      .ok (raise (setBoot s { s.boot with catalogueKey := some (storeKeyId s) }) F.BOOT_STAT_STORE_EMPTY)

/-- The exclusions that step 10 leaves in force (R466). -/
def adoptExclusions (s : State) : State :=
  let b := s.boot
  let s := setF (setBool (setF s F.BOOT_EXCL_NEAR_OUT b.nearOut) F.BOOT_EXCL_NEAR_CONS b.nearCons) F.BOOT_EXCL_BULK_OUT b.bulkOut
  let s := setF (setF s F.BOOT_EXCL_BULK_GRADE b.bulkGrade) F.BOOT_EXCL_PORTS_FAILED b.portsFailed
  if b.nearOut = 0 ∧ !b.nearCons ∧ b.bulkOut = 0 ∧ b.bulkGrade = 0 ∧ b.portsFailed = 0 then s else raise s F.BOOT_STAT_DEGRADED

/-- Ticks begin: a module that is its own tick master opens a frame at once, tick 0 of a new origin or the tick that follows its record; a
span member takes number, schedule and origin from the tick master (R61 to R63). Tick 0 falls at the origin itself (DESIGN CHOICE, log
94), and the step of device time at a join is taken forwards only (R60; log 94). A new tick number starts the counts of stamps afresh
(R73); the number of a first start is that of its boot events. -/
def beginTicks (d : BootData) (s : State) : State :=
  let before := frameNow s
  let s := if isMaster s then
      let s := if s.boot.ticked then setF s F.TICK_NOW (frameNow s + 1) else setF (setF s F.TICK_NOW 0) F.TICK_ORIGIN (devNow s)
      setF (setF s F.TICK_LAST (devNow s)) F.TICK_NEXT (devNow s + periodNs s)
    else
      let s := setF (setF s F.TICK_DT (max (devNow s) d.joinDt)) F.TICK_NOW (if s.boot.ticked then max (frameNow s + 1) d.joinTick else d.joinTick)
      setF (setF (setF s F.TICK_NEXT d.joinNext) F.TICK_LAST (d.joinNext - periodNs s)) F.TICK_ORIGIN d.joinOrigin
  let s := if frameNow s = before then s else freshStamps (setF s F.TICK_CIF_CIF 0)
  let s := raise (setBoot s { s.boot with ticked := true }) F.TICK_STAT_RUNNING
  let s := { s with adm := { s.adm with frameIdx := some 0, nextIdx := 1 } }
  let s := openEmpty (pulse (stampEvent s srcTick .tick) 0x18)
  setSpan s { s.span with masterSeenAt := devNow s }

/-- Step 10: READY. -/
def stepReady (d : BootData) (s : State) : State :=
  let s := if lcPermits s s.boot.initMode then s else raise (showCap (bootCap (applyMode false 2 s))) F.BOOT_STAT_MODE_SUBST
  let s := beginTicks d (adoptExclusions s)
  let s := if s.boot.ejectSeen then raise (raise s F.ADM_SHUT_EJECT) F.BOOT_REC_EJECT else s
  let s := if s.boot.image.commitSvn && decide (s.fuses.svn < s.boot.image.svn) then
      setF (setFuses s { s.fuses with svn := s.boot.image.svn }) F.BOOT_SLOT_SVN_MIN s.boot.image.svn else s
  let s := if s.adm.recoverAsked then raise s F.ADM_STAT_RECOVERING else s
  let s := setF (setF (raise s F.BOOT_STAT_READY) F.BOOT_REC_FAIL_COUNT 0) F.BOOT_REC_SLOTS_FAILED 0
  stampEvent (setBoot s { s.boot with phase := .ready, fails := [], relaxed := 0, ejectSeen := false }) srcBoot (.boot 10)

/-- The limit of a step, in ms (R460). -/
def stepLimit (k : Nat) : Nat := [0, 100, 500, 300, 800, 800, 200, 400, 1500, 6000].getD k 0

/-- What the present step does. -/
def stepEffect (k : Nat) (d : BootData) (s : State) : StepEnd :=
  match k with
  | 1 => stepRom d s
  | 2 => stepImage s
  | 3 => stepFirmware s
  | 4 => stepNear d s
  | 5 => stepBulk d s
  | 6 => stepLink s
  | 7 => stepSelftest d s
  | 8 => stepWipe d s
  | 9 => stepStore d s
  | _ => .ok (stepReady d s)

/-- A step completes: its time and number are recorded and the next begins; but a module in Decommissioned, or one that has not left safe mode by a
restart or a cold reset, goes to safe mode (R467). -/
def endStep (s : State) (k : Nat) : State :=
  let s := setF (setF s (F.BOOT_STEP k) (devNow s)) F.BOOT_REC_LAST_STEP k
  if k = 1 ∧ (s.fuses.lc = 4 ∨ s.boot.safe) then enterSafe s
  else if 10 ≤ k then s
  else beginStep s (k + 1)

/-- Before its step 2 runs, a start shows its slot. -/
def showSlot (s : State) (k : Nat) : State :=
  if k = 2 then
    match chooseSlot s with
    | some n => setF s F.BOOT_STAT_SLOT n
    | none => s
  else s

/-- BOOT_STEP_COMPLETE: the step in progress ends; past its limit it has failed with TIMEOUT. The array self-test ends with the last winning commit of its
batch, whose tiles give the verdict (R496). -/
def bootStepComplete (d : BootData) (s : State) : State :=
  if s.boot.phase ≠ .running then s
  else
    let k := getF s F.BOOT_STAT_STEP
    let s := showSlot s k
    if k = 6 ∧ !tablesOk s then failStart s 10
    else if 1 ≤ k ∧ k < 10 ∧ s.boot.stepAt + 1000000 * stepLimit k < devNow s then failStart s 14
    else if k = 7 ∧ s.stw.closed ≠ 1 then s
    else match stepEffect k d s with
      | .ok t => endStep t k
      | .error (c, t) => failStart t c

/-- BOOT_STEP_FAIL: the step in progress fails with a cause: at step 6 with ROUTES, where its tables do not hold. At a third start without a port, step 6
passes. -/
def bootStepFail (cause : Nat) (s : State) : State :=
  let k := getF s F.BOOT_STAT_STEP
  if s.boot.phase ≠ .running ∨ cause = 0 ∨ 15 ≤ cause ∨ k = 10 then s
  else if k = 6 ∧ !tablesOk s then failStart s 10
  else if k = 6 ∧ cause = 9 ∧ 2 ≤ failsAt s 6 then bootStepComplete {} s
  else failStart (showSlot s k) cause

/-! ### BOOT_CTL and image updates (R478, R486) -/

/-- BOOT_CTL is acted on in maintenance and in safe mode only. -/
def bootCtlServed (s : State) : Bool := inMaintenance s && s.boot.phase == .ready || s.boot.phase == .safe

/-- BOOT_CTL_RESTART, asked for by a requester. -/
def bootCtlRestart (r : Requester) (s : State) : State :=
  if !policyAllows s 8 r then deny s 8 r else if bootCtlServed s then restart s else s

/-- CLEAR_EXCL. -/
def clearExcl (r : Requester) (s : State) : State :=
  if !policyAllows s 8 r then deny s 8 r else if bootCtlServed s then setBoot s { s.boot with clearAsked := true } else s

/-- BOOT_UPD_START: ignored while BUSY; a denied one ends with RESULT 1. The slot that is not running is erased. -/
def bootUpdStart (r : Requester) (s : State) : State :=
  if s.boot.phase == .held then s
  else if isSet s F.BOOT_UPD_STAT_BUSY then (if policyAllows s 7 r then s else deny s 7 r)
  else if !policyAllows s 7 r then raise (setF (deny s 7 r) F.BOOT_UPD_STAT_RESULT 1) F.BOOT_STAT_UPD_DONE
  else if 117440512 < getF s F.BOOT_UPD_LEN || getF s F.BOOT_UPD_LEN < 4096 then raise (setF s F.BOOT_UPD_STAT_RESULT 2) F.BOOT_STAT_UPD_DONE
  else
    let n := otherSlot (getF s F.BOOT_STAT_SLOT)
    let s := setF (setF (raise s F.BOOT_UPD_STAT_BUSY) F.BOOT_UPD_STAT_RESULT 0) F.BOOT_UPD_STAT_KIB_DONE 0
    setSlotBytes (setBoot s { s.boot with update := some ⟨n⟩ }) n []

/-- IMAGE_UPDATE_DONE: the image that host memory held at BOOT_UPD_ADDR has been written, or the NOR failed, and `image` is what had been written. A
slot that fails its check loses its header. -/
def imageUpdateDone (image : List Byte) (norError : Bool) (s : State) : State :=
  match s.boot.update with
  | none => s
  | some j =>
    let len := getF s F.BOOT_UPD_LEN
    let b := image.take len ++ List.replicate (len - image.length) 0#8
    let why := if norError then some 7 else imageFault s b
    let s := match why with
      | none => setSlotBytes s j.slot b
      | some _ => s
    let s := setF (setF (lower s F.BOOT_UPD_STAT_BUSY) F.BOOT_UPD_STAT_RESULT (why.getD 0)) F.BOOT_UPD_STAT_KIB_DONE (if norError then min len image.length / 1024 else len / 1024)
    showSlots (raise (setBoot s { s.boot with update := none }) F.BOOT_STAT_UPD_DONE)

end Sys2Proof.Machine
end

