-- ==== Sys2Proof/Machine/Power.lean ====
section
/-! DEFINITION. The power controller's commands: the estimator, the cap, ramps, droop, throttling, regulator phases, Dormant, and the monitors
(R419 to R447). -/
namespace Sys2Proof.Machine

/-! ### Estimates and measurements (R423 to R425, R427, R428) -/

/-- The calibration gain G. -/
def gain (s : State) : Rat := (getF s F.PWR_CAL : Rat) / 16384

/-- (V ÷ V14)² at the array rail. -/
def voltScale (s : State) : Rat := let r : Rat := (s.pwr.railMv : Rat) / opMv s 14; r * r

/-- The phase whose point the array runs at: where no schedule runs, the last one that ran. -/
def nowPhase (s : State) : Nat :=
  if frameRuns s then phaseAt (liveCfg s).phases s.frame.sched else (s.pwr.rest.getLast?.map (fun x => x.k)).getD 0

/-- Adds an array-rail estimate to the phase's sum, as energy per 1,000 ac at V14 (R428). -/
def gatherEnergy (s : State) (arr : Rat) : State :=
  let v := voltScale s
  if !s.frame.hasLive || v = 0 then s
  else
    let k := nowPhase s
    let e := arr * 1000 * (if s.pwr.droop then 2 else 1) / opMhz (getF s F.PWR_OP_CUR) / v
    let l := if s.pwr.sums.any (fun x => x.1 == k) then s.pwr.sums.map (fun x => if x.1 = k then (k, x.2.1 + e, x.2.2 + 1) else x) else s.pwr.sums ++ [(k, e, 1)]
    setPwr s { s.pwr with sums := l }

/-- The mean of a list. -/
def meanOf (l : List Rat) : Rat := l.sum / l.length

/-- The fast guard: one point down for the rest of the phase (R427). -/
def fastGuard (s : State) : State :=
  let l := s.pwr.est.take 8
  let cur := nowOp s
  if l.length < 8 || decide (meanOf l ≤ capTarget s) || decide (cur ≤ getF s F.PWR_RANGE_OP_MIN) then s
  else
    let s := setPwr s { s.pwr with guardMax := some (cur - 1), guardPhase := nowPhase s }
    planPoints (bump (raise s F.PWR_STAT_GUARD) F.PWR_CNT_GUARD)

/-- The sum of one cluster's counts, each times its fused coefficient. -/
def clusterPower (f : Estimator) (c : ClusterCount) : Rat :=
  ((c.mac.zip f.mac).map (fun p => (p.1 : Rat) * p.2)).sum + c.vec * f.vec + c.sram * f.sram + c.moved * f.moved

/-- The leakage of a cluster at its temperature, from the fused table. -/
def clusterLeak (s : State) (c : Nat) : Rat :=
  let l := s.fuses.estimator.leak
  l.getD (min (tempOf (getF s (F.TEL_TEMP_TEMP c)) / 8).toNat (l.length - 1)) 0

/-- The array die's part of the estimate, before the gain (R423). -/
def arrayPower (s : State) : Rat :=
  (s.pwr.counts.map (fun x => clusterPower s.fuses.estimator x.2)).sum * voltScale s + ((List.range 64).map (clusterLeak s)).sum

/-- The port dies' part. -/
def portPower (s : State) (a : Activity) : Rat :=
  let f := s.fuses.estimator
  a.near * f.near + a.bulk * f.bulk + a.cross * f.cross + a.lane * f.lane

/-- ESTIMATOR_UPDATE: every 1 µs. The estimate takes the counts gathered since the last one. -/
def estimatorUpdate (a : Activity) (s : State) : State :=
  let arr := arrayPower s * gain s
  let s := gatherEnergy s arr
  let s := setPwr s { s.pwr with counts := [], est := (arr + portPower s a * gain s) :: s.pwr.est.take 99 }
  fastGuard s

/-- The nearest multiple of 2^−14, ties to even, as a count of them. -/
def roundGain (x : Rat) : Nat :=
  let y := x * 16384
  let n := y.floor.toNat
  let r := y - n
  if r < 1 / 2 then n else if 1 / 2 < r then n + 1 else n + n % 2

/-- G after a measurement; where no estimate stands against it the spec states no value. -/
def nextGain (s : State) (m : Nat) : Nat × State :=
  let e := if s.pwr.est.isEmpty then 0 else meanOf s.pwr.est
  let (raw, s) := if e = 0 then freeVal s 16 else (roundGain (gain s + ((m : Rat) / e * gain s - gain s) / 16), s)
  (max 0x3000 (min 0x5000 raw), s)

/-- POWER_MEASUREMENT: input power `m` in 0.1 W and array-rail current `amps` in 0.1 A. -/
def powerMeasurement (m amps : Nat) (s : State) : State :=
  let before := s
  let est : Rat := if s.pwr.est.isEmpty then 0 else meanOf s.pwr.est
  let s := setF (setF s F.PWR_MEAS_MEAS_DW (min m 65535)) F.PWR_MEAS_EST_DW (min est.floor.toNat 65535)
  let s := if 64 ≤ s.pwr.calHeld then s
    else
      let (g, s) := nextGain s m
      let s := setF s F.PWR_CAL g
      let n := if g = 0x3000 ∨ g = 0x5000 then s.pwr.calHeld + 1 else 0
      let s := setPwr s { s.pwr with calHeld := n }
      if n = 64 then stampEvent (raise s F.PWR_STAT_CAL_FAULT) srcPower (.power 3) else s
  let other := (1000 * m - s.pwr.railMv * amps) / 1000
  replanMoved before (setPwr s { s.pwr with others := (s.pwr.others ++ [other]).drop (s.pwr.others.length + 1 - 10) })

/-! ### The cap (R426, R434, R439) -/

/-- A cap command: target and slew in W and W/ms (R426). -/
def capCommand (target slew : Nat) (s : State) : State :=
  let t := max 350 (min 1200 target)
  let old := effectiveCap s
  let s := if 10 * t < s.pwr.rackCap then countFall s else s
  let s := setF (setF s F.PWR_CAP_TARGET_W t) F.PWR_CAP_CFG_SLEW slew
  if slew = 0 then capChanged old (setPwr s { s.pwr with rackCap := 10 * t }) else s

/-- CAP_SLEW_STEP: at the start of a measurement window. -/
def capSlewStep (s : State) : State :=
  let n := getF s F.PWR_CAP_CFG_SLEW
  let t := 10 * getF s F.PWR_CAP_TARGET_W
  let c := s.pwr.rackCap
  if n = 0 ∨ t = 0 ∨ c = t then s
  else capChanged (effectiveCap s) (setPwr s { s.pwr with rackCap := if c < t then min t (c + n) else max t (c - n) })

/-- RAIL_READING: rail `r` reads `mv` and `da` tenths of an ampere. -/
def railReading (r mv da : Nat) (s : State) : State :=
  if 16 ≤ r then s else setF (setF s (F.TEL_RAIL_V r) (min mv 65535)) (F.TEL_RAIL_I r) (min da 65535)

/-- OP_RAMP_STEP: the array rail is at `mv`. The frequency steps up one point where the rail has reached that point's voltage and the
predicted power there is within the cap target, or OP_MIN allows it, never above the point chosen (R421, R422, R434). The rail is never below the voltage of the point
that the array runs at. -/
def opRampStep (mv : Nat) (s : State) : State :=
  if mv < opMv s (getF s F.PWR_OP_CUR) then s
  else
  let s := setPwr s { s.pwr with railMv := mv }
  let p := nowOp s + 1
  if p ≤ getF s F.PWR_OP_TARGET ∧ opMv s p ≤ mv ∧ (p ≤ getF s F.PWR_RANGE_OP_MIN ∨ predAt s (nowEnergy s) p mv ≤ capTarget s) then setOp s p else s

/-- REGULATOR_PHASE_FAULT: the cap falls to the power at which the predicted current is 90 % of what the remaining phases deliver. -/
def regulatorPhaseFault (n : Nat) (s : State) : State :=
  if 24 ≤ n || !bitF s F.PWR_VREG n then s
  else
    let old := effectiveCap s
    let s := raise (setBitF s F.PWR_VREG n false) F.PWR_STAT_PHASE_LOSS
    let remain := ((List.range 24).filter (bitF s F.PWR_VREG)).length
    let cap : Rat := ((remain * 45 * opMv s (getF s F.PWR_OP_TARGET) : Nat) : Rat) / 100 + pOther s
    let s := setPwr s { s.pwr with phaseCap := some (min cap.floor.toNat (s.pwr.phaseCap.getD 12000)) }
    capChanged old (countFall (stampEvent s srcPower (.power 4)))

/-! ### Droop (R432, R433) -/

/-- The voltage below which monitor `v` is in a droop: DROOP_MV below the setpoint, which is, on the array die, the array rail's as it slews, and on
a port die the nominal 750 mV of that die's rail (R421, R432, R528; log 107). -/
def droopMv (s : State) (v : Nat) : Nat := (if v < 24 then min s.pwr.railMv (getF s F.PWR_OP_RAIL_MV) else 750) - getF s F.PWR_DROOP_CFG

/-- Monitor `v` has a reading, below its threshold. -/
def readsLow (s : State) (v : Nat) : Bool := s.pwr.vmonSeen.testBit v && decide (getF s (F.TEL_VMON_NOW_MV v) < droopMv s v)

/-- DROOP: monitor `v` finds its rail below the setpoint less DROOP_MV. -/
def droop (v : Nat) (s : State) : State :=
  if 32 ≤ v then s
  else
    let s := bump (raise s (F.TEL_VMON_DROOP v)) (F.TEL_DROOP_CNT v)
    if 24 ≤ v || s.pwr.droop then s
    else setPwr (bump (raise s F.PWR_STAT_DROOP) F.PWR_CNT_DROOP) { s.pwr with droop := true, droopAc := 0 }

/-- DROOP_END: the array has run at least 32 ac stretched, `ac` of them outside schedule cycles, and every array-die monitor has been clear for
16; not while a monitor in a droop still reads low. What the stretch has cost outside schedule cycles is lost progress too (R431). -/
def droopEnd (ac : Nat) (s : State) : State :=
  if !s.pwr.droop || s.pwr.droopAc + ac < 32 || (List.range 24).any (fun v => isSet s (F.TEL_VMON_DROOP v) && readsLow s v) then s
  else
    let s := (List.range 24).foldl (fun s v => lower s (F.TEL_VMON_DROOP v)) (addF s F.PWR_DROOP_AC ac)
    let lag := s.pwr.lag + (ac : Rat) / opMhz (getF s F.PWR_OP_CUR)
    let s := match s.pwr.opWait with
      | some op => setF s F.PWR_OP_CUR op
      | none => s
    let s := setPwr s { s.pwr with droop := false, droopAc := 0, opWait := none, lag := lag }
    if 1 < lag then planPoints s else s

/-! ### Monitors and throttling (R437, R445, R447) -/

/-- The hottest valid cluster: its index and reading. -/
def hottest (s : State) : Nat × Int :=
  (List.range 64).foldl (fun b c =>
    let t := tempOf (getF s (F.TEL_TEMP_TEMP c))
    if isSet s (F.TEL_TEMP_VALID c) && decide (b.2 < t) then (c, t) else b) (0, -2049)

/-- Whether a test holds of the hottest die reading, and one of any Near stack's. -/
def dieTemp (s : State) : Int :=
  max (hottest s).2 (max (tempOf (getF s F.TEL_PORT_TEMP_EAST)) (tempOf (getF s F.TEL_PORT_TEMP_WEST)))

def nearTemps (s : State) : List Nat := ((List.range 8).filter (fun n => isSet s (F.TEL_HBM_TEMP_VALID n))).map (fun n => getF s (F.TEL_HBM_TEMP_TEMP_C n))

/-- A temperature is at or above its threshold. -/
def overTemp (s : State) : Bool :=
  decide (8 * (getF s F.PWR_THERM_THROTTLE_C : Int) ≤ dieTemp s) || (nearTemps s).any (fun t => decide (getF s F.PWR_THERM_HBM_C ≤ t))

/-- Every temperature is HYST_C or more below its threshold. -/
def coolTemp (s : State) : Bool :=
  let h := getF s F.PWR_THERM_HYST_C
  decide (dieTemp s ≤ 8 * ((getF s F.PWR_THERM_THROTTLE_C : Int) - h)) && (nearTemps s).all (fun t => decide (t + h ≤ getF s F.PWR_THERM_HBM_C))

/-- Shows the hottest cluster, and keeps the peak. -/
def showHottest (s : State) : State :=
  let (c, t) := hottest s
  if t < -2048 then s
  else
    let raw := (t % 4096).toNat
    let s := setF (setF s F.TEL_TEMP_MAX_CLUSTER c) F.TEL_TEMP_MAX_TEMP raw
    if !s.pwr.peakSeen ∨ tempOf (getF s F.TEL_TEMP_PEAK_TEMP) < t then
      setPwr (setF (setF s F.TEL_TEMP_PEAK_CLUSTER c) F.TEL_TEMP_PEAK_TEMP raw) { s.pwr with peakSeen := true } else s

/-- What a reading stores: a monitor that reads below its threshold is in a droop, and one that does not is out of it (R432, R447). -/
def storeReading (r : Reading) (s : State) : State :=
  match r with
  | .cluster c t => if 64 ≤ c then s else showHottest (setF (raise s (F.TEL_TEMP_VALID c)) (F.TEL_TEMP_TEMP c) t)
  | .ports e w => setF (setF s F.TEL_PORT_TEMP_EAST e) F.TEL_PORT_TEMP_WEST w
  | .aon t => setF s F.TEL_AON_TEMP t
  | .near n c => if 8 ≤ n then s else setF (raise s (F.TEL_HBM_TEMP_VALID n)) (F.TEL_HBM_TEMP_TEMP_C n) c
  | .volts v mv => if 32 ≤ v then s else
      let s := setF (setPwr s { s.pwr with vmonSeen := s.pwr.vmonSeen ||| 2 ^ v }) (F.TEL_VMON_NOW_MV v) mv
      let s := if mv % 4096 < getF s (F.TEL_VMON_MIN_MV v) then setF s (F.TEL_VMON_MIN_MV v) mv else s
      if !readsLow s v then lower s (F.TEL_VMON_DROOP v) else if isSet s (F.TEL_VMON_DROOP v) then s else droop v s
  | .process d m mhz => if 3 ≤ d ∨ 8 ≤ m then s else setF s (F.TEL_PMON d m) (min mhz 65535)

/-- The readings that the trip comparators look at: of a cluster and of the port dies, in Dormant of the always-on sensor (R438). -/
def tripReadings (s : State) (r : Reading) : List Nat :=
  match r with
  | .cluster c t => if c < 64 then [t] else []
  | .ports e w => [e, w]
  | .aon t => if s.pwr.dormant then [t] else []
  | _ => []

/-- MONITOR_UPDATE. A reading of 110 °C or more is a thermal trip. -/
def monitorUpdate (r : Reading) (s : State) : State :=
  let s := storeReading r s
  let cool := coolTemp s
  let s := setPwr s { s.pwr with
    hot := s.pwr.hot && overTemp s
    coolSince := if cool then (match s.pwr.coolSince with
      | some t => some t
      | none => some (devNow s)) else none }
  if (tripReadings s r).any trips then thermalTrip s else s

/-- Points by which throttling can lower the ceiling of phase `k` of the live configuration, down to OP_MIN. -/
def throttleRoom (s : State) (k : Nat) : Nat := capCeil s (energyOf s (liveCfg s).modelId (liveCfg s).configId k) - getF s F.PWR_RANGE_OP_MIN

/-- THROTTLE_STEP: at once when a reading passes its threshold, and 100 µs after each step while one is there. -/
def throttleStep (s : State) : State :=
  if !overTemp s || (s.pwr.hot && decide (devNow s < s.pwr.throttleAt + 100000)) then s
  else
    let s := if isSet s F.PWR_STAT_THROTTLING then s
      else raise (bump (raise s F.PWR_STAT_THROTTLE) F.PWR_CNT_THROTTLE) F.PWR_STAT_THROTTLING
    planPoints (setPwr s { s.pwr with
      throttle := (List.range 16).map (fun k => min (throttled s k + 1) (throttleRoom s k)), throttleAt := devNow s, hot := true })

/-- THROTTLE_RELEASE_STEP: after 100 µs below the hysteresis, and 100 µs after each step while every reading stays there. -/
def throttleReleaseStep (s : State) : State :=
  match s.pwr.coolSince with
  | none => s
  | some t =>
    if !isSet s F.PWR_STAT_THROTTLING || !coolTemp s || devNow s < t + 100000 || devNow s < s.pwr.throttleAt + 100000 then s
    else
      let l := (List.range 16).map (fun k => min (throttled s k) (throttleRoom s k) - 1)
      let s := setPwr s { s.pwr with throttle := l, throttleAt := devNow s }
      planPoints (if l.all (· == 0) then lower s F.PWR_STAT_THROTTLING else s)

/-- TEL_CLEAR: the bits of TEL_CLR. -/
def telClear (droop min_ peak : Bool) (s : State) : State :=
  let s := if droop then (List.range 32).foldl (fun s v => setF s (F.TEL_DROOP_CNT v) 0) s else s
  let s := if min_ then (List.range 32).foldl (fun s v => setF s (F.TEL_VMON_MIN_MV v) 0xFFF) s else s
  if peak then setF (setF s F.TEL_TEMP_PEAK_CLUSTER (getF s F.TEL_TEMP_MAX_CLUSTER)) F.TEL_TEMP_PEAK_TEMP (getF s F.TEL_TEMP_MAX_TEMP) else s

/-! ### The louvre (R435, R436, R535) -/

/-- The louvre pins take the levels of `level`; one that this asserts sets its latch (R512). -/
def louvrePins (s : State) (level : Nat) : State :=
  let a := bitOf level 0
  let b := bitOf level 1
  let t := setPins s { s.pins with louvre0 := a, louvre1 := b, louvre := level }
  let t := if a && !s.pins.louvre0 then latchEdge t .louvre0 else t
  if b && !s.pins.louvre1 then latchEdge t .louvre1 else t

/-- LOUVRE_CHANGE: a level that both pins have held for 1 µs takes effect. -/
def louvreChange (level : Nat) (s : State) : State :=
  if 4 ≤ level ∨ level = s.pins.louvre then s
  else
    let s := louvrePins s level
    let oldCap := louvreCap s
    let s := bump (raise (setF s F.PWR_STAT_LOUVRE level) F.PWR_STAT_LOUVRE_CHG) F.PWR_CNT_LOUVRE
    let s := if louvreCap s < oldCap then countFall s else s
    planPoints (showCap s)

/-! ### Dormant (R442, R443) -/

/-- The delivery stage of the interrupt controller starts afresh: nothing is in service, and nothing held (R501, R515). -/
def freshDelivery (s : State) : State :=
  let s := (List.range 8).foldl (fun s k => setF s (F.IRQ_INSVC k) 0) s
  (List.range 4).foldl (fun s t => setF (setF s (F.TGT_RUN_DEPTH t) 0) (F.TGT_RUN_RUN t) 0) { s with irq := { s.irq with nested := [], heldUntil := [] } }

/-- Why a Dormant request is refused. -/
def dormantRefused (s : State) (r : Requester) : Option Nat :=
  if !policyAllows s 3 r then some 4
  else if !inMaintenance s then some 1
  else if inSpan s then some 2
  else if !s.adm.reqs.isEmpty then some 3
  else none

/-- DORMANT_REQUEST: an accepted one saves the directory, takes the ports DOWN, and switches off all but the always-on domain.
Register fields on the port clock keep their values, for a wake is no reset (R35; DESIGN CHOICE, log entry 97); but the delivery stage of the interrupt
controller and the ticket counter start afresh, and what waits in the mailbox is not served. Fetches that
wait or run are abandoned (DESIGN CHOICE, log entry 110). -/
def dormantRequest (r : Requester) (s : State) : State :=
  if s.boot.phase ≠ .ready ∨ s.pwr.dormant then s
  else match dormantRefused s r with
    | some why => setF (if why = 4 then deny s 3 r else s) F.PWR_DORMANT_REFUSE_WHY why
    | none =>
      let s := setF s F.PWR_DORMANT_REFUSE_WHY 0
      let s := s.mem.jobs.foldl (fun s j => abandonFetch s j.model j.epoch) s
      let s := ((List.range 16).filter (portEnabled s)).foldl (fun s p => setBitF (enterDown s p) F.DEV_CAP1_LINK_UP p false) s
      let s := lower (setF s F.DEV_CAP1_STEWARD_UP 0) F.TICK_STAT_RUNNING
      let s := freshDelivery (freshTickets (answerWaiting s 7))
      let s := { s with frame := {}, cells := [], spdm := { eid := s.spdm.eid, alias_ := s.spdm.alias_ } }
      let s := railsOff dormantRails s
      stampEvent (setPwr s { s.pwr with dormant := true }) srcAlwaysOn (.power 5)

/-- A wake: the directory is restored with BULK cleared, the ports train, ticks resume with a greater number, in maintenance mode. -/
def wakeUp (s : State) : State :=
  if !s.pwr.dormant then s
  else
    let s := railsOn 0xFFFF (setPwr s { s.pwr with dormant := false })
    let m := s.mem
    let s := setMem s { m with
      bulk := [], dir := ((m.dir.map Prod.fst).foldl (fun m i => dirUpd m i (fun e => { e with bulk := false })) m).dir,
      recs := m.recs.map (fun r => { r with shards := r.shards.map (fun h => { h with inBulk := false, bulkUnits := [], fromBulk := false }) }) }
    let s := ((List.range 16).filter (portEnabled s)).foldl (fun s p => if portState s p = 7 then s else beginTraining s p 1) s
    let s := (List.range 4).foldl (fun s n => if getF s (F.STW_CORE_STATE n) = 1 then startCount (setBitF s F.DEV_CAP1_STEWARD_UP n true) n else s) s
    let s := setF (setF (setF s F.TICK_NOW (frameNow s + 1)) F.TICK_LAST (devNow s)) F.TICK_NEXT (devNow s + periodNs s)
    let s := freshStamps (setF s F.TICK_CIF_CIF 0)
    let s := raise (raise s F.TICK_STAT_RUNNING) F.PWR_STAT_WAKE
    let s := if s.boot.ejectSeen then raise (setBoot s { s.boot with ejectSeen := false }) F.ADM_SHUT_EJECT else s
    let n := s.adm.nextIdx
    let s := { s with adm := { s.adm with frameIdx := some n, nextIdx := n + 1 } }
    openEmpty (pulse (stampEvent (stampEvent s srcTick .tick) srcAlwaysOn (.power 6)) 0x18)

end Sys2Proof.Machine
end

