-- ==== Sys2Proof/Machine/Stewards.lean ====
section
/-! DEFINITION. The stewards' watchdogs (R488 to R491, R500). -/
namespace Sys2Proof.Machine

/-! ### Watchdogs (R489 to R491) -/

/-- A list of numbers in ascending order. -/
def insertUp (x : Nat) : List Nat → List Nat
  | [] => [x]
  | y :: l => if x ≤ y then x :: y :: l else y :: insertUp x l

def sortUp (l : List Nat) : List Nat := l.foldr insertUp []

/-- The tickets of a steward that is reset go to the reclaim list (R500). -/
def reclaimTickets (s : State) (n : Nat) : State :=
  let l := sortUp ((heldBy s n).filter (fun t => !s.stw.done.contains t))
  let s := setStw s { s.stw with holds := s.stw.holds.filter (fun h => h.2 != n), reclaim := s.stw.reclaim ++ l, history := s.stw.history ++ l }
  showHolds (if l.isEmpty then s else addF (raise s F.STW_STAT_RECLAIM) F.STW_CNT_RECLAIM l.length)

/-- A steward is in service unless it is left out. -/
def inService (s : State) (n : Nat) : Bool := getF s (F.STW_CORE_STATE n) != 2

/-- The steward that does the duty of steward `d` (R488): itself while it runs, else the lowest-numbered running one other than steward 3, or for the duty
of steward 3 the highest-numbered one. -/
def dutySteward (s : State) (d : Nat) : Option Nat :=
  let up := (List.range 4).filter (bitF s F.DEV_CAP1_STEWARD_UP)
  if up.contains d then some d else if d = 3 then up.getLast? else (up.filter (fun n => n != 3)).head?

/-- Whether a steward was reset alone at `t` or later. -/
def resetSince (s : State) (n t : Nat) : Bool := s.stw.resetAt.any (fun r => r.1 == n && decide (t ≤ r.2))

/-- A steward is reset alone (R490), and the mailbox requests that it was to serve end with BUSY; a third time within 10 s it is left out; a second one left out, or every one reset within 1 ms, is a module
reset (R491). -/
def resetSteward (s : State) (n : Nat) : State :=
  let now := devNow s
  let serves := dutySteward s 3 == some n
  let s := setF (setBitF s F.DEV_CAP1_STEWARD_UP n false) (F.STW_CORE_STATE n) 0
  let s := reclaimTickets s n
  let s := bump (bump (raise s F.STW_STAT_STW_RESET) F.STW_CNT_RESET) (F.STW_CORE_RESETS n)
  let s := if serves then answerWaiting s 4 else s
  let s := (List.range 16).foldl (fun s p =>
    setLink s p { link s p with reqs := (link s p).reqs.filter (fun q => decide (q.requester ≠ .steward n)) }) s
  let s := setStw s { s.stw with
    resetAt := s.stw.resetAt ++ [(n, now)], warned := s.stw.warned.filter (fun m => m != n), waiting := s.stw.waiting.filter (fun m => m != n) }
  let s := stampEvent s (srcSteward n) (.steward 1 n)
  let s := if 3 ≤ (s.stw.resetAt.filter (fun r => r.1 == n && decide (now ≤ r.2 + 10000000000))).length then
      raise (setF s (F.STW_CORE_STATE n) 2) F.STW_STAT_STW_OUT else s
  let out := ((List.range 4).filter (fun m => !inService s m)).length
  let all := ((List.range 4).filter (inService s)).all (fun m => resetSince s m (now - 1000000))
  if 2 ≤ out || all then watchdogReset s else s

/-- When the present count of a steward's watchdog began: at its start, its last expiry, or the restart by its firmware at `restartAt`, where that is
later. -/
def countFrom (s : State) (n restartAt : Nat) : Nat :=
  let c := ((s.stw.countAt.find? (fun p => p.1 == n)).map (fun p => p.2)).getD 0
  if c < restartAt ∧ restartAt ≤ devNow s then restartAt else c

/-- WATCHDOG_EXPIRY of a steward, PERIOD_MS after its count began; `restartAt` is when its firmware last restarted the watchdog. The first expiry restarts
the count; one after it without a restart in between resets the steward (R489). -/
def watchdogExpiry (n restartAt : Nat) (s : State) : State :=
  if 4 ≤ n || !bitF s F.DEV_CAP1_STEWARD_UP n || decide (devNow s < countFrom s n restartAt + 1000000 * getF s F.STW_WDOG) then s
  else if s.stw.warned.contains n && countFrom s n restartAt == countFrom s n 0 then resetSteward s n
  else
    let s := startCount s n
    raise (setStw s { s.stw with warned := s.stw.warned ++ [n] }) F.STW_STAT_WDOG_WARN

/-- STEWARD_RESTART: within 5 ms the steward runs again. -/
def stewardRestart (n : Nat) (s : State) : State :=
  if 4 ≤ n || getF s (F.STW_CORE_STATE n) != 0 || !(s.stw.resetAt.any (fun r => r.1 == n)) then s
  else startCount (setBitF (setF s (F.STW_CORE_STATE n) 1) F.DEV_CAP1_STEWARD_UP n true) n

end Sys2Proof.Machine
end

