-- ==== Sys2Proof/Machine/Eject.lean ====
section
/-! DEFINITION. The pins with latches, the eject steps and the wake alarm (R380, R416, R443, R463, R502, R512, R527, R537). -/
namespace Sys2Proof.Machine

/-- A pin takes its level; an asserting edge sets its latch (R512). -/
def pinEdge (s t : State) (was asserted : Bool) (p : LatchPin) : State := if was = asserted then s else if asserted then latchEdge t p else t

/-- PIN_LATCH_EDGE: an edge of a pin that has a latch, or the I3C WAKE command; in Dormant an asserting wake edge wakes the module. EJECT_WARNING is the
asserting edge of EJECT_WARN_N. -/
def pinLatchEdge (e : LatchPin × Bool) (s : State) : State :=
  let (p, asserted) := e
  if !s.pins.aux then s
  else
    match p with
    | .eject => if asserted then s else setPins s { s.pins with ejectWarn := false }
    | .wake => if !asserted || s.pins.wakeLine then setPins s { s.pins with wakeLine := asserted }
      else wakeUp (latchEdge (setPins s { s.pins with wakeLine := true }) .wake)
    | .i3cWake => if asserted then wakeUp (latchEdge s .i3cWake) else s
    | .louvre0 => pinEdge s (setPins s { s.pins with louvre0 := asserted }) s.pins.louvre0 asserted .louvre0
    | .louvre1 => pinEdge s (setPins s { s.pins with louvre1 := asserted }) s.pins.louvre1 asserted .louvre1

/-- WAKE_ALARM: device time has reached PWR_WAKE_AT. -/
def wakeAlarm (s : State) : State :=
  let t := getF s F.PWR_WAKE_AT
  if !s.pins.aux || t = 0 || devNow s < t then s else wakeUp (pulse s 0x15)

/-- SUPPLY_LOW: the 54 V input has been between 38 V and 40 V for 10 µs. -/
def supplyLow (s : State) : State := if inputStage s then pulse s 0x16 else s

/-- The LEAVE of an ejected member (R375, R380): it finishes its present frame, whose end is the finish
tick, or aborts it, whose own tick is. -/
def sendLeave (s : State) (t : Stamp) (finishes : Bool) : State :=
  if !inSpan s then s
  else
    let arg := (if finishes then frameNow s + 1 else frameNow s) % 2 ^ 48 + (if finishes then 0 else 2 ^ 48)
    if isMaster s then leave { msg := 0x08, from_ := ownOrd s, to_ := 0xFFFE, tick := frameNow s, stamp := t, arg := arg } s
    else toMaster s t 0x08 (frameNow s) arg

/-- EJECT_WARNING: the latch edge. During a start and in Dormant it is recorded; else the shutter closes, and the present frame is finished where its
ending tick falls within EJECT_FINISH_US, or marked faulted, without a replay. -/
def ejectWarning (s : State) : State :=
  if !s.pins.aux || s.pins.ejectWarn then s
  else
    let s := latchEdge (setPins s { s.pins with ejectWarn := true }) .eject
    if s.boot.phase ≠ .ready ∨ s.pwr.dormant then raise (setBoot s { s.boot with ejectSeen := true }) F.BOOT_REC_EJECT
    else if s.adm.ejecting then s
    else
      let s := raise { s with adm := { s.adm with ejecting := true } } F.ADM_SHUT_EJECT
      let finishes := decide (getF s F.TICK_NEXT ≤ devNow s + 1000 * getF s F.SPAN_CFG_EJECT_FINISH_US)
      let t := stampNow s srcAlwaysOn
      let s := if finishes then s else markFaulted (setSpan s { s.span with noReplay := true }) t
      sendLeave (stampEvent s srcAlwaysOn (.shutter 1)) t finishes

/-- The frame of the eject edge has ended: at its tick, or by its abort; or nothing runs (R399, R416). -/
def frameEnded (s : State) : Bool := !s.frame.hasLive || (s.frame.state == .tickWait && s.frame.lastAborted) || s.frame.state == .notRunning

/-- EJECT_FINISH: after the end of the current frame its results count as written; every other accepted request fails with MEMBER_LOSS; all records
are written, submission rings are read no more, and in a span SPAN_STAT.LEAVE is set. -/
def ejectFinish (s : State) : State :=
  if !s.adm.ejecting || s.adm.stopped || !frameEnded s then s
  else
    let s := setReqs s (s.adm.reqs.map (fun r => if r.committed.isSome then { r with visible := true } else r))
    let s := failEvery s .memberLoss (fun _ => true)
    let s := completeAll s.adm.reqs.length s
    let s := if inSpan s then raise s F.SPAN_STAT_LEAVE else s
    raise { s with adm := { s.adm with stopped := true } } F.ADM_STAT_EJECTED

end Sys2Proof.Machine
end

