-- ==== Sys2Proof/Machine/BootCommands.lean ====
section
/-! DEFINITION. The meanings of the commands of eject, supplies, resets and boot. -/
namespace Sys2Proof.Machine

/-- EJECT_WARNING (R416). -/
def execEjectWarning (s : State) : Host.Outcome State Fault Refusal :=
  .next (ejectWarning s)

/-- EJECT_FINISH (R416). -/
def execEjectFinish (s : State) : Host.Outcome State Fault Refusal :=
  .next (ejectFinish s)

/-- PIN_LATCH_EDGE (R512). -/
def execPinLatchEdge (p : LatchPin × Bool) (s : State) : Host.Outcome State Fault Refusal :=
  .next (pinLatchEdge p s)

/-- WAKE_ALARM (R443). -/
def execWakeAlarm (s : State) : Host.Outcome State Fault Refusal :=
  .next (wakeAlarm s)

/-- THERMAL_TRIP (R438). -/
def execThermalTrip (s : State) : Host.Outcome State Fault Refusal :=
  .next (thermalTrip s)

/-- SUPPLY_LOW (R527). -/
def execSupplyLow (s : State) : Host.Outcome State Fault Refusal :=
  .next (supplyLow s)

/-- SUPPLY_FAIL (R527). -/
def execSupplyFail (s : State) : Host.Outcome State Fault Refusal :=
  .next (supplyFail s)

/-- AUX_POWER_LOSS (R530). -/
def execAuxPowerLoss (s : State) : Host.Outcome State Fault Refusal :=
  .next (auxPowerLoss s)

/-- AUX_POWER_ON (R529). -/
def execAuxPowerOn (s : State) : Host.Outcome State Fault Refusal :=
  .next (auxPowerOn s)

/-- MAIN_POWER_ON (R529). -/
def execMainPowerOn (s : State) : Host.Outcome State Fault Refusal :=
  .next (mainPowerOn s)

/-- RAIL_START_FAIL (R529). -/
def execRailStartFail (s : State) : Host.Outcome State Fault Refusal :=
  .next (railStartFail s)

/-- RAIL_OUT_OF_REGULATION (R530). -/
def execRailOutOfRegulation (r : Nat) (s : State) : Host.Outcome State Fault Refusal :=
  .next (railOutOfRegulation r s)

/-- SYS_RST_N (R533). -/
def execSysRstN (asserted : Bool) (s : State) : Host.Outcome State Fault Refusal :=
  .next (sysRstN asserted s)

/-- PERST_N (R533). -/
def execPerstN (asserted : Bool) (s : State) : Host.Outcome State Fault Refusal :=
  .next (perstN asserted s)

/-- START (R460). -/
def execStart (s : State) : Host.Outcome State Fault Refusal :=
  .next (start s)

/-- BOOT_STEP_COMPLETE (R460). -/
def execBootStepComplete (d : BootData) (s : State) : Host.Outcome State Fault Refusal :=
  .next (bootStepComplete d s)

/-- BOOT_STEP_FAIL (R461). -/
def execBootStepFail (cause : Nat) (s : State) : Host.Outcome State Fault Refusal :=
  .next (bootStepFail cause s)

/-- BOOT_RETRY_RESET (R461). -/
def execBootRetryReset (s : State) : Host.Outcome State Fault Refusal :=
  .next (bootRetryReset s)

/-- BOOT_CTL_RESTART (R486). -/
def execBootCtlRestart (r : Requester) (s : State) : Host.Outcome State Fault Refusal :=
  .next (bootCtlRestart r s)

/-- CLEAR_EXCL (R466). -/
def execClearExcl (r : Requester) (s : State) : Host.Outcome State Fault Refusal :=
  .next (clearExcl r s)

/-- BOOT_UPD_START (R478). -/
def execBootUpdStart (r : Requester) (s : State) : Host.Outcome State Fault Refusal :=
  .next (bootUpdStart r s)

/-- IMAGE_UPDATE_DONE (R478). -/
def execImageUpdateDone (image : List Byte) (norError : Bool) (s : State) : Host.Outcome State Fault Refusal :=
  .next (imageUpdateDone image norError s)

end Sys2Proof.Machine
end

