-- ==== Sys2Proof/Machine/FrameCommands.lean ====
section
/-! DEFINITION. The meanings of the commands of the tick, the frame engine, configurations and modes. -/
namespace Sys2Proof.Machine

/-- TICK (R62). -/
def execTick (s : State) : Host.Outcome State Fault Refusal :=
  .next (tick s)

/-- PERIOD_CHANGE (R50). -/
def execPeriodChange (s : State) : Host.Outcome State Fault Refusal :=
  .next (periodChange s)

/-- SCHEDULE_CYCLE (R109). -/
def execScheduleCycle (x : CycleInput) (s : State) : Host.Outcome State Fault Refusal :=
  .next (scheduleCycle x s)

/-- INGRESS_SHUTTER_CLOSE (R164). -/
def execIngressShutterClose (s : State) : Host.Outcome State Fault Refusal :=
  .next (ingressShutterClose s)

/-- DRAIN_SAMPLE (R166). -/
def execDrainSample (edge output : Bool) (s : State) : Host.Outcome State Fault Refusal :=
  .next (drainSample edge output s)

/-- DRAIN_VERDICT (R166). -/
def execDrainVerdict (s : State) : Host.Outcome State Fault Refusal :=
  .next (drainVerdict s)

/-- DRAIN_HOLD_TIMEOUT (R171). -/
def execDrainHoldTimeout (s : State) : Host.Outcome State Fault Refusal :=
  .next (drainHoldTimeout s)

/-- EMPTY_FRAME_FLIP (R179). -/
def execEmptyFrameFlip (s : State) : Host.Outcome State Fault Refusal :=
  .next (emptyFrameFlip s)

/-- FRAME_NAMING (R162). -/
def execFrameNaming (fold : Option FoldAsk) (s : State) : Host.Outcome State Fault Refusal :=
  .next (frameNaming fold s)

/-- CASEMENT_LOAD_DONE (R161). -/
def execCasementLoadDone (nearUe : Bool) (s : State) : Host.Outcome State Fault Refusal :=
  .next (casementLoadDone nearUe s)

/-- PANE_LOAD_DONE (R163). -/
def execPaneLoadDone (s : State) : Host.Outcome State Fault Refusal :=
  .next (paneLoadDone s)

/-- CHECK_ONLY_PASS (R158). -/
def execCheckOnlyPass (model epoch : Nat) (cid : Option Nat) (nearUe : Bool) (s : State) : Host.Outcome State Fault Refusal :=
  .next (checkOnlyPass model epoch cid nearUe s)

/-- MODE_REQUEST (R182). -/
def execModeRequest (target : Nat) (r : Requester) (s : State) : Host.Outcome State Fault Refusal :=
  .next (modeRequest target r s)

/-- MODE_CHANGE_APPLY (R183). -/
def execModeChangeApply (s : State) : Host.Outcome State Fault Refusal :=
  .next (modeChangeApply s)

/-- COLUMN_RETIREMENT (R121). -/
def execColumnRetirement (s : State) : Host.Outcome State Fault Refusal :=
  .next (columnRetirement s)

/-- CYCLE_IN_FRAME_SATURATION (R54). -/
def execCycleInFrameSaturation (s : State) : Host.Outcome State Fault Refusal :=
  .next (cifSaturate s)

end Sys2Proof.Machine
end

