-- ==== Sys2Proof/Machine/InterruptCommands.lean ====
section
/-! DEFINITION. The meanings of the commands of the interrupt controller. -/
namespace Sys2Proof.Machine

/-- IRQ_FILTER_CHANGE (R504). -/
def execIrqFilterChange (n : Nat) (level : Bool) (s : State) : Host.Outcome State Fault Refusal :=
  .next (irqFilterChange n level s)

/-- IRQ_PEND_SET (R504). -/
def execIrqPendSet (r : Requester) (k v : Nat) (s : State) : Host.Outcome State Fault Refusal :=
  .next (irqPendSet r k v s)

/-- IRQ_PEND_CLR (R504). -/
def execIrqPendClr (r : Requester) (k v : Nat) (s : State) : Host.Outcome State Fault Refusal :=
  .next (irqPendClr r k v s)

/-- CLAIM (R506). -/
def execClaim (t : Nat) (s : State) : Host.Outcome State Fault Refusal :=
  .next (claim t s)

/-- COMPLETE (R507). -/
def execComplete (t : Nat) (n : Nat × Bool) (s : State) : Host.Outcome State Fault Refusal :=
  .next (completeSource t n.1 n.2 s)

/-- MSIX_SEND (R509). -/
def execMsixSend (s : State) : Host.Outcome State Fault Refusal :=
  .next (msixSend s)

/-- HOST_EOI (R509). -/
def execHostEoi (n : Nat) (s : State) : Host.Outcome State Fault Refusal :=
  .next (hostEoi n s)

/-- MODERATION_EXPIRY (R508). -/
def execModerationExpiry (t : Nat) (s : State) : Host.Outcome State Fault Refusal :=
  .next (moderationExpiry t s)

/-- MSIX_MASK_WRITE (R511). -/
def execMsixMaskWrite (v : Option Nat) (mask : Bool) (s : State) : Host.Outcome State Fault Refusal :=
  .next (msixMaskWrite v mask s)

end Sys2Proof.Machine
end

