-- ==== Sys2Proof/Machine/RegView.lean ====
section
/-! DEFINITION. What a read of the control window returns, and does (R20, R21, R46, R47, R83, R463, R467). -/
namespace Sys2Proof.Machine

/-! ### What is served -/

/-- Whether the window answers at all: after the end of step 1, and not in Dormant (R463). -/
def windowUp (s : State) : Bool :=
  !s.pwr.dormant && (match s.boot.phase with
    | .held => false
    | .running => decide (1 < getF s F.BOOT_STAT_STEP)
    | .failWait => decide (1 < getF s F.BOOT_STAT_STEP)
    | _ => true)

/-- DEV, BOOT, SEC and TEL. -/
def earlyBlock (off : Nat) : Bool :=
  decide (off < 0x10000) || (decide (0x120000 ≤ off) && decide (off < 0x160000)) || (decide (0x1A0000 ≤ off) && decide (off < 0x1C0000))

/-- Whether the block of an offset is served; else it reads as reserved (R463, R467). -/
def blockServed (s : State) (off : Nat) : Bool :=
  windowUp s && (earlyBlock off || (match s.boot.phase with
    | .running => decide (3 < getF s F.BOOT_STAT_STEP)
    | .failWait => decide (3 < getF s F.BOOT_STAT_STEP)
    | .ready => true
    | _ => false))

/-- Blocks in which a read of a _LO register latches its _HI register. -/
def latchBlock (off : Nat) : Bool :=
  [(0x10000, 0x20000), (0x20000, 0x40000), (0x40000, 0x60000), (0x60000, 0x80000), (0x80000, 0xA0000), (0xA0000, 0xB0000),
   (0xC0000, 0xE0000), (0xE0000, 0x100000), (0x100000, 0x120000), (0x120000, 0x140000)].any (fun b => decide (b.1 ≤ off) && decide (off < b.2))

/-- The _HI register of a _LO register. -/
def hiOf (off : Nat) : Option Nat :=
  if !latchBlock off then none
  else if off = 0x60010 then some 0x60014
  else match findReg (off + 4) with
    | some (r, d) => if r.fields.any (fun f => f.shift == 32 && f.keyOff + d == off) then some (off + 4) else none
    | none => none

/-! ### Views: registers whose state the model holds elsewhere -/

/-- Units of Near that shards of epochs hold: of resident ones, or of those still being fetched (R274). -/
def nearShardUnits (s : State) (resident : Bool) : Nat :=
  (s.mem.recs.map (fun r => if (entryOf s.mem r.model r.epoch).near = resident then
    ((r.shards.filter (fun h => h.placed)).map (fun h => h.nearUnits.length)).sum else 0)).sum

def nearStateUnits (s : State) : Nat := (s.mem.regions.map (fun r => r.units.length)).sum

def nearSysUnits (s : State) : Nat := ((allStacks s).map (fun n => (systemUnits s n).length)).sum

def bulkUsedUnits (s : State) : Nat := (heldBulk s.mem 0).length + (heldBulk s.mem 1).length

/-- The MEM capacity registers, in their order. -/
def capacityWord (s : State) (i : Nat) : Nat :=
  let sides := ((List.range 2).filter (bulkSideUp s)).length
  match i with
  | 0 => ((allStacks s).map (freeCount s s.mem)).sum
  | 1 => nearShardUnits s true
  | 2 => nearStateUnits s
  | 3 => nearSysUnits s
  | 4 => nearShardUnits s false
  | 5 => sides * bulkSideUnits - bulkUsedUnits s
  | _ => bulkUsedUnits s

/-- Fetch jobs of a queue. -/
def jobCount (s : State) (fromStore : Bool) : Nat := (s.mem.jobs.filter (fun j => j.fromStore == fromStore)).length

/-- MEM_DECOMP: while a fetch runs, the engines of each die that one of its shards is still to be written on decode its blocks, which are
spread over all of them (R269, R270; DESIGN CHOICE, log entry 66: between two commands of a fetch they are at work). -/
def decompBusy (s : State) : Nat :=
  let needs (side : Nat) : Bool := s.mem.jobs.any (fun j => (runningJob s j.model j.epoch).isSome &&
    ((recFind s.mem j.model j.epoch).getD {}).shards.any (fun h => h.side == side && h.placed && !h.written))
  ((List.range 16).filter (fun n => bitF s F.DEV_CAP2 n && needs (n / 8))).foldl (fun m n => m + 2 ^ n) 0

/-- The cell that ARR_CELL_SEL names. -/
def selectedCell (s : State) : Cell := getCell s (getF s F.ARR_CELL_SEL)

/-- The sequencer states' codes. -/
def SeqState.code : SeqState → Nat
  | .run => 0 | .wait => 1 | .phaseWait => 2 | .halted => 3 | .haltedFault => 4

def noWord64 (_ : Nat) : Word64 := 0#64

/-- A list of fields of `w` bits, the first lowest. -/
def packBits (w : Nat) : List Nat → Nat
  | [] => 0
  | x :: l => x % 2 ^ w + 2 ^ w * packBits w l

/-- ARR_CELL_SEQ, ARR_CELL_PORT and ARR_CELL_TOK; what SEQ shows once PC has passed 1,023 is a DESIGN CHOICE (log entry 96). -/
def cellSeqWord (s : State) : Nat :=
  let c := selectedCell s
  let w := smapGet noWord64 c.pat (1024 * getF s F.ARR_STAT_LIVE_CASEMENT + c.pc)
  let loops := ((c.loops.filter (fun l => l.2.active)).map (fun l => 2 ^ l.1)).sum
  c.pc % 1024 + pwPhase w * 2 ^ 11 + c.seq.code * 2 ^ 15 + loops * 2 ^ 18

def cellPortWord (s : State) : Nat :=
  let c := selectedCell s
  let l := [c.inN, c.inE, c.inS, c.inW]
  packBits 3 (l.map (fun i => i.queue.length) ++ l.map (fun i => i.skew))

def cellTokWord (s : State) : Nat :=
  let c := selectedCell s
  packBits 4 ([c.inN, c.inE, c.inS, c.inW].map (fun i => i.toks.length))

/-- ARR_QBUSY. -/
def queueBusyWord (s : State) : Nat :=
  let ins := fun (c : Cell) => [c.inN, c.inE, c.inS, c.inW]
  let busy := s.cells.filter (fun p => (ins p.2).any (fun i => !i.queue.isEmpty || !i.toks.isEmpty))
  let pass := s.cells.any (fun p => (ins p.2).any (fun i => i.pass.dv || i.pass.tv))
  busy.length + (if pass then 2 ^ 16 else 0)

/-- Registers of a port whose state the link holds, by port offset. -/
def portWord (s : State) (p o : Nat) : Option Nat :=
  let l := link s p
  match o with
  | 0x1C => some ((match l.buf with | f :: _ => f.seq | [] => l.txNext) + l.txNext * 2 ^ 16)
  | 0x20 => some (l.rxExpect + l.buf.length * 2 ^ 16 + (if l.discard then 2 ^ 25 else 0))
  | 0x84 => some (smapGet zeroNat s.span.chans (getF s (F.LNK_RT_SEL p)))
  | _ => none

/-- A slot of the learning table. -/
def learnSlot (s : State) : Option LearnEntry :=
  (s.pwr.learn.find? (fun p => p.1 == getF s F.PWR_LEARN_SEL_ENTRY)).map (fun p => p.2)

/-- A value of the power controller as a 16-bit register shows it: whole units, saturating. -/
def shownRat (x : Rat) : Nat := min 65535 x.floor.toNat

/-- PWR_LEARN_DATA. -/
def learnWord (s : State) : Nat :=
  match learnSlot s with
  | some e => shownRat (e.e.getD (getF s F.PWR_LEARN_SEL_PHASE) 0) + min 255 e.frames * 2 ^ 16 + 2 ^ 24
  | none => 0

/-- What measurement `index` covers (R483). -/
def measured (s : State) (index : Nat) : List Nat :=
  let i := s.boot.image
  match index with
  | 1 => [getF s F.SEC_ROM_REV, Config.romDigest.toNat]
  | 2 => [i.digests.getD 0 0, i.svn]
  | 3 => [i.digests.getD 1 0]
  | 4 => (List.range 5).map (fun k => i.digests.getD (2 + k) 0)
  | 5 => [getF s F.CFG_MODE, i.digests.getD (2 + getF s F.CFG_MODE) 0]
  | 6 => [s.fuses.lc, s.fuses.owners.length, s.fuses.storeGen, s.fuses.svn]
  | 7 => [getF s F.SEC_STAT_DEBUG_OPEN, s.boot.debugOpenings]
  | 8 => [getF s F.BOOT_REC_FAIL_COUNT, getF s F.BOOT_EXCL_NEAR_OUT, getF s F.BOOT_EXCL_NEAR_CONS, getF s F.BOOT_EXCL_BULK_OUT,
          getF s F.BOOT_EXCL_BULK_GRADE, getF s F.BOOT_EXCL_PORTS_FAILED, getF s F.ARR_COLMAP_EXCL0, getF s F.ARR_COLMAP_EXCL1]
  | _ => []

/-- The bytes of a measurement's digest; a measurement that does not exist reads as zeros. -/
def measureBytes (s : State) (index : Nat) : List Byte :=
  if 1 ≤ index && index ≤ 8 then (leBytes (Config.measure index (measured s index)).toNat 48).reverse else []

/-- Word `w` of a digest, little-endian over its bytes (R487). -/
def measureWord (s : State) : Nat :=
  leRead (listReader (measureBytes s (getF s F.SEC_MEAS_SEL_INDEX))) (4 * getF s F.SEC_MEAS_SEL_WORD) 4

/-- One bit as a number. -/
def bitNat (b : Bool) : Nat := if b then 1 else 0

/-- The pins that have latches, as IRQ_PINS shows them. -/
def pinsWord (s : State) : Nat := packBits 1 [bitNat s.pins.ejectWarn, bitNat s.pins.wakeLine, bitNat s.pins.louvre0, bitNat s.pins.louvre1]

/-- TGT_STAT. -/
def targetStatWord (s : State) (t : Nat) : Nat :=
  let h := moderated s t
  bitNat (s.stw.waiting.contains t) + 2 * bitNat h + 4 * bitNat (inputAsserted s t || (t == 4 && !s.adm.announce.isEmpty && !h))

/-- The word of a span table that a SEL register names. -/
def spanXferWord (s : State) : Nat := s.span.xfers.getD (getF s F.SPAN_XFER_SEL_INDEX) 0 / 2 ^ (32 * getF s F.SPAN_XFER_SEL_WORD) % 2 ^ 32
def spanGroupWord (s : State) : Nat := s.span.groups.getD (getF s F.SPAN_GROUP_SEL_INDEX) 0 / 2 ^ (32 * getF s F.SPAN_GROUP_SEL_WORD) % 2 ^ 32

/-- A digest-scrub tile is running: a steward holds a ticket of an open batch of KIND 2 (R296, R308). -/
def scrubRuns (s : State) : Bool := isSet s F.STW_BATCH_OPEN && getF s F.STW_BATCH_KIND == 2 && !s.stw.holds.isEmpty

/-- What the state that the model holds elsewhere adds to a register's stored word. -/
def viewWord (s : State) (off : Nat) : Nat :=
  if 0xA0000 ≤ off && off < 0xB0000 then (portWord s (off / 0x1000 - 0xA0) (off % 0x1000)).getD 0
  else if 0x60020 ≤ off && off ≤ 0x60038 then capacityWord s ((off - 0x60020) / 4)
  else if 0x180200 ≤ off && off < 0x1802A0 && off % 0x20 == 0x14 then targetStatWord s ((off - 0x180200) / 0x20)
  else match off with
    | 0x40028 => queueBusyWord s
    | 0x40034 => cellSeqWord s
    | 0x40038 => cellPortWord s
    | 0x4003C => cellTokWord s
    | 0x80000 => 4 * bitNat (scrubRuns s)
    | 0x60000 => (if jobCount s false = 0 then 0 else 1) + (if jobCount s true = 0 then 0 else 2)
    | 0x60058 => min 65535 (jobCount s false) + min 65535 (jobCount s true) * 2 ^ 16
    | 0x600B0 => decompBusy s
    | 0x60068 => (s.mem.dir.filter (fun e => e.2.valid)).length
    | 0xC0034 => spanXferWord s
    | 0xC003C => spanGroupWord s
    | 0xE0000 => if shutterClosed s then 0 else 1
    | 0xE0050 => s.adm.reqs.length
    | 0xE0058 => s.adm.streams.length
    | 0x100084 => learnWord s
    | 0x100088 => ((learnSlot s).map (fun e => e.model)).getD 0
    | 0x10008C => ((learnSlot s).map (fun e => e.config)).getD 0
    | 0x100090 => shownRat (pOther s)
    | 0x140084 => measureWord s
    | 0x160000 => 16 * packBits 1 ((List.range 4).map (fun n => bitNat (s.stw.waiting.contains n)))
    | 0x160010 => peekWord s
    | 0x180404 => pinsWord s
    | _ => 0

/-! ### The table windows (R47, R262, R412) -/

/-- The bytes of a directory entry. -/
def dirBytes (e : DirEntry) : List Byte :=
  leBytes e.modelId 4 ++ leBytes e.epoch 2 ++
  leBytes (bitNat e.valid + 2 * bitNat e.active + 4 * bitNat e.unusable + 8 * bitNat e.fetch) 1 ++
  leBytes (bitNat e.near + 2 * bitNat e.bulk + 4 * bitNat e.store) 1 ++ leBytes e.pin 3 ++ [0#8] ++ leBytes e.lastUse 4 ++
  leBytes e.map 4 ++ leBytes e.shards 2 ++ leBytes e.gen 2 ++ leBytes e.nearSize 4 ++ leBytes e.bulkSize 4

/-- The bytes of a client table entry. -/
def clientBytes (c : ClientRec) : List Byte :=
  leBytes c.admitted 6 ++ leBytes c.completed 6 ++ leBytes c.refused 6 ++ leBytes c.late 6 ++
  leBytes (bitNat c.valid + 2 * bitNat c.firm + 4 * bitNat c.std) 1 ++ [0#8] ++ leBytes c.gen 2 ++ leBytes c.list 2 ++ leBytes c.maxout 2

/-- A word of the directory window or the client window. -/
def windowWord (s : State) (off : Nat) : Nat :=
  if off < 0x800000 then leRead (listReader (dirBytes (dirGet s.mem ((off - 0x400000) / 32)))) (off % 32) 4
  else leRead (listReader (clientBytes (clientRec s ((off - 0x800000) / 32)))) (off % 32) 4

def inWindow (off : Nat) : Bool := decide (0x400000 ≤ off) && decide (off < 0x820000)

/-! ### Reads -/

/-- The set and clear addresses of pending and enable bits read as those bits (R21, R505). -/
def bitAlias (off : Nat) : Nat :=
  if 0x180020 ≤ off && off < 0x180060 then 0x180000 + off % 0x20
  else if 0x180080 ≤ off && off < 0x1800C0 then 0x180060 + off % 0x20
  else off

/-- What the register at a word offset holds now; 0 where there is none. -/
def regWord (s : State) (at_ : Nat) : Nat :=
  let off := bitAlias at_
  if !blockServed s off then 0
  else if inWindow off then windowWord s off
  else match findReg off with
    | some (r, d) => (storedWord s r d + viewWord s off) % 2 ^ 32
    | none => 0

/-- Words that the _HI registers hold latched. -/
def hiHeld (s : State) (off : Nat) : Option Nat := (s.hiLatch.find? (fun h => h.1 == off)).map (fun h => h.2)

def dropHi (s : State) (off : Nat) : State := { s with hiLatch := s.hiLatch.filter (fun h => h.1 != off) }

/-- Latches a _HI register. -/
def latchHi (s : State) (hi : Nat) : State := { s with hiLatch := (hi, regWord s hi) :: s.hiLatch.filter (fun h => h.1 != hi) }

/-- A read of the word at an offset by a requester: the value, and what it does. A read of TGT_CLAIM claims (R506); a steward's read of
STW_TICKET takes a ticket (R497). -/
def readWord (s : State) (r : Requester) (off : Nat) : Nat × State :=
  if !blockServed s off then (0, s)
  else if 0x180200 ≤ off && off < 0x1802A0 && off % 0x20 == 4 then claimRead s ((off - 0x180200) / 0x20)
  else match off, r with
    | 0x160010, .steward n => if n < 4 then ticketGrant s n else (peekWord s, s)
    | _, _ =>
      match hiHeld s off with
      | some v => (v, dropHi s off)
      | none =>
        let v := regWord s off
        match hiOf off with
        | some hi => (v, latchHi s hi)
        | none => (v, s)

/-- A read of 1, 2 or 4 bytes returns the addressed bytes (R20). -/
def readBytes (s : State) (r : Requester) (off size : Nat) : Nat × State :=
  let a := off / 4 * 4
  let (w, s) := readWord s r a
  if off % 4 + size ≤ 4 then (w / 256 ^ (off % 4) % 256 ^ size, s)
  else
    let (w2, s) := readWord s r (a + 4)
    ((w + w2 * 2 ^ 32) / 256 ^ (off % 4) % 256 ^ size, s)

/-- LO_REGISTER_READ: a read of any register. Where the window does not answer, nothing happens. -/
def loRegisterRead (r : Requester) (off size : Nat) (s : State) : State :=
  if !windowUp s || (size != 1 && size != 2 && size != 4) || 0x1000000 ≤ off then s
  else
    let (v, s) := readBytes s r off size
    emit s (.readDone r off v)

end Sys2Proof.Machine
end

