-- ==== Sys2Proof/Machine/RegWrite.lean ====
section
/-! DEFINITION. What a write to the control window does (R20 to R22, R46, R47, R289, R383, R417, R418, R476, R477, R503). -/
namespace Sys2Proof.Machine

/-! ### Who may write (R43, R476, R477) -/

/-- Notes a denial that no action of R476 governs: the spec gives it no action number. -/
def denyOther (s : State) (r : Requester) : State :=
  let (a, s) := freeVal s 4
  deny s a r

def inRange (off lo hi : Nat) : Bool := decide (lo ≤ off) && decide (off < hi)

/-- The update registers and BOOT_SLOT. -/
def updateReg (off : Nat) : Bool := off == 0x12000C || inRange off 0x120020 0x120030

/-- The action that governs a write of a register, if one does. WGT_CMD's is that of the command. -/
def writeAction (off v : Nat) : Option Nat :=
  if off = 0x80004 then (match v % 8 with
    | 1 => some 0 | 2 => some 0 | 3 => some 1 | 4 => some 1 | 5 => some 1 | 6 => some 1 | _ => none)
  else if off = 0x20044 then some 2
  else if off = 0x10002C then some 3
  else if updateReg off then some 7
  else if off = 0x120014 then some 8
  else match findReg off with
    | some (r, _) => if r.fields.any (fun f => f.acc = .rwl) then some 10 else none
    | none => none

/-- Writes whose denial the command itself reports: WGT_CMD, CFG_MODE_REQ, PWR_DORMANT, BOOT_CTL, BOOT_UPD_CMD. -/
def deniesItself (off w : Nat) : Bool := off == 0x80004 || off == 0x20044 || (off == 0x10002C || off == 0x12002C) && bitOf w 0

/-- Why a requester may not write: the action that denies it, or that none permits it. -/
inductive WriteDenial where
  | action (a : Nat)
  | noAction
  deriving DecidableEq, Repr

/-- The host writes what no action governs; over the management interface only a session does; another module's steward needs action 9 as
well. -/
def writeDenied (s : State) (r : Requester) (off v : Nat) : Option WriteDenial :=
  if r = .board ∧ ¬ policyAllows s 9 r then some (.action 9)
  else match writeAction off v with
    | some a => if policyAllows s a r then none else some (.action a)
    | none => if r = .mgmt then some .noAction else none

/-! ### Plain fields (R21, R22) -/

/-- Life-cycle states in which RWL fields are written. -/
def rwlOpen (s : State) : Bool := decide (s.fuses.lc < 2)

/-- Registers whose bits [11:0] must be 0. -/
def pageReg (off : Nat) : Bool :=
  off == 0x80014 || off == 0x120020 || off == 0xE0010 || off == 0xE0030 ||
  (inRange off 0xE1000 0xE2000 && (off % 0x40 == 0x04 || off % 0x40 == 0x0C || off % 0x40 == 0x14))

/-- Writes one field. -/
def writeField (v d : Nat) (s : State) (f : FieldSpec) : State :=
  let x := bitsOf v (f.lo + f.width - 1) f.lo
  match f.acc with
  | .ro => s
  | .wo => s
  | .rw => if f.legalValue x then fieldSet s f d x else s
  | .rwl => if rwlOpen s && f.legalValue x then fieldSet s f d x else s
  | .w1c => if x = 0 then s else fieldSet s f d 0
  | .w1s => if x = 0 then s else fieldSet s f d x

/-- Writes a register's fields; an encoding of a page address or of a range of points that must not be leaves its fields as they are. -/
def writeFields (s : State) (off v : Nat) : State :=
  match findReg off with
  | none => s
  | some (r, d) =>
    if pageReg off && v % 4096 != 0 then s
    else
      let t := r.fields.foldl (writeField v d) s
      if off = 0x100008 ∧ getF t F.PWR_RANGE_OP_MAX < getF t F.PWR_RANGE_OP_MIN then
        setF (setF t F.PWR_RANGE_OP_MIN (getF s F.PWR_RANGE_OP_MIN)) F.PWR_RANGE_OP_MAX (getF s F.PWR_RANGE_OP_MAX)
      else t

/-! ### Registers whose write is a command -/

/-- A write of the power settings: the cap and the ceilings that they move take effect at once (R422, R426, R429, R431). -/
def powerSettings (off v : Nat) (s : State) : State := planPoints (showCap (bootCap (writeFields s off v)))

/-- A write of WGT_CMD: a denied command ends with RESULT 1, and is only denied while another runs (R289, R290, R477). -/
def writeWgtCmd (r : Requester) (v : Nat) (s : State) : State :=
  let op := v % 8
  let busy := isSet s F.WGT_CMD_STAT_BUSY
  match writeDenied s r 0x80004 v with
  | some (.action a) => if busy then deny s a r else setResult (startWgt op (deny s a r)) 1
  | some .noAction => if busy || op = 0 || 7 ≤ op then denyOther s r else setResult (startWgt op (denyOther s r)) 1
  | none => if busy then s else startWgt op s

/-- The journal registers (R407, R417, R418). -/
def writeJournal (off v : Nat) (s : State) : State :=
  if off = 0xE0020 then retireWrite false v s
  else if off = 0xE0040 then retireWrite true v s
  else if off = 0xE001C ∨ off = 0xE003C then (if journalOpen s || s.adm.recovered then writeFields s off v else s)
  else if !journalOpen s || (pageReg off && v % 4096 != 0) then s
  else
    let s := writeFields s off v
    match off with
    | 0xE0010 => { s with adm := { s.adm with ajBaseLo := true } }
    | 0xE0014 => { s with adm := { s.adm with ajBaseHi := true } }
    | 0xE0030 => { s with adm := { s.adm with cjBaseLo := true } }
    | 0xE0034 => { s with adm := { s.adm with cjBaseHi := true } }
    | _ => s

def journalReg (off : Nat) : Bool := inRange off 0xE0010 0xE0024 || inRange off 0xE0030 0xE0044

/-- A register of ring set `k`, at offset `o` of the set (R383, R384). -/
def writeRing (k o v off : Nat) (s : State) : State :=
  match o with
  | 0x00 => if bitOf v 0 then ringEnable k v s else ringDisable k v s
  | 0x1C => subDoorbell k (v % 65536) s
  | 0x28 => rcptHeadWrite k (v % 65536) none s
  | 0x30 => cmplHeadWrite k (v % 65536) none s
  | _ => if isSet s (F.RING_CTL_ENABLE k) then s else writeFields s off v

/-- A register of port `p`, at port offset `o` (R344 to R347). Every port's block shows the one selector of the channel table (R349). -/
def writePort (p o v off : Nat) (s : State) : State :=
  match o with
  | 0x04 =>
    let was := isSet s (F.LNK_CTL_TEST p)
    let s := setF s (F.LNK_CTL_STD_RATE p) (bitsOf v 2 2)
    let s := if bitOf v 0 then linkTestEnter p s else if was || portState s p = 4 then linkTestLeave p s else s
    let s := if bitOf v 1 then linkRetrainCmd p s else s
    if bitOf v 3 then lossBase p s else s
  | 0x2C => linkCountClear p (bitOf v 2) (bitOf v 1) (bitOf v 0) s
  | 0x80 => (List.range 16).foldl (fun s q => setF s (F.LNK_RT_SEL q) (v % 65536)) s
  | 0x28 => (List.range 8).foldl (fun s l => showLoss s p l) (writeFields s off v)
  | _ =>
    let s := writeFields s off v
    if inRange o 0x100 0x300 && o % 0x40 == 0x30 && bitOf v 0 then eyeScanStart p ((o - 0x100) / 0x40) s else s

/-- A register of the interrupt controller (R503 to R512). -/
def writeIrq (r : Requester) (o v off : Nat) (s : State) : State :=
  if inRange o 0x20 0x40 then irqPendSet r ((o - 0x20) / 4) v s
  else if inRange o 0x40 0x60 then irqPendClr r ((o - 0x40) / 4) v s
  else if inRange o 0x80 0xA0 then irqEnable r ((o - 0x80) / 4) v true s
  else if inRange o 0xA0 0xC0 then irqEnable r ((o - 0xA0) / 4) v false s
  else if inRange o 0x200 0x2A0 && o % 0x20 == 8 then completeSource ((o - 0x200) / 0x20) (v % 256) false s
  else if o = 0x300 then hostEoi (v % 256) s
  else if o = 0x400 then
    (allLatches.filter (fun p => isSet s (latchField p))).foldl (fun s p => if isSet s (latchField p) then s else senseLine s (latchSource p) false)
      (writeFields s off v)
  else if inRange o 0x1000 0x1400 then
    let n := (o - 0x1000) / 4
    if mayWriteSource s r n then levelPends (writeFields s off v) n else s
  else if inRange o 0x10000 0x11000 && o % 16 == 12 then msixMaskWrite (some ((o - 0x10000) / 16)) (bitOf v 0) s
  else writeFields s off v

/-- A register of the stewards' block: only a steward opens a batch or commits a tile (R496, R499). -/
def writeStw (r : Requester) (off v : Nat) (s : State) : State :=
  match off, r with
  | 0x160014, .steward n => tileCommit n (v % 2 ^ 20) s
  | 0x160014, _ => s
  | 0x160040, .steward _ => batchOpen (bitsOf v 22 21) (bitsOf v 20 0) s
  | 0x160040, _ => s
  | _, _ => writeFields s off v

/-- A permitted write of a register. -/
def writeReg (r : Requester) (off v : Nat) (s : State) : State :=
  if inRange off 0xA0000 0xB0000 then writePort (off / 0x1000 - 0xA0) (off % 0x1000) v off s
  else if journalReg off then writeJournal off v s
  else if inRange off 0xE1000 0xE2000 then writeRing ((off - 0xE1000) / 0x40) (off % 0x40) v off s
  else if inRange off 0x160000 0x180000 then writeStw r off v s
  else if inRange off 0x180000 0x1A0000 then writeIrq r (off - 0x180000) v off s
  else if inRange off 0x100008 0x10001C then powerSettings off v s
  else match off with
    | 0x1001C => if bitOf v 0 then tickCapture s else s
    | 0x20044 => modeRequest (v % 8) r s
    | 0x80004 => writeWgtCmd r v s
    | 0xE0008 => if bitOf v 0 then recover s else s
    | 0x10002C => if bitOf v 0 then dormantRequest r s else s
    | 0x120014 =>
      let s := if bitOf v 1 then clearExcl r s else s
      if bitOf v 0 then bootCtlRestart r s else s
    | 0x12002C => if bitOf v 0 then bootUpdStart r s else s
    | 0x1A0500 => telClear (bitOf v 2) (bitOf v 1) (bitOf v 0) s
    | _ => writeFields s off v

/-- Whether a write of `size` bytes at an offset reaches a register (R20, R47). -/
def writeReaches (s : State) (off size : Nat) : Bool :=
  size == 4 && off % 4 == 0 && blockServed s off && !inWindow off && (findReg off).isSome || size == 4 && off % 4 == 0 && blockServed s off && bitAlias off != off

/-- A write by a requester. A denied one is discarded, but where the command itself ends as denied (R477). A write of either half of a pair
drops what its _HI register holds latched. -/
def regWrite (r : Requester) (off size v : Nat) (s : State) : State :=
  if !writeReaches s off size then s
  else
    let w := v % 2 ^ 32
    let s := dropHi s off
    let s := match hiOf off with
      | some hi => dropHi s hi
      | none => s
    match writeDenied s r off w with
    | none => writeReg r off w s
    | some (.action a) => if deniesItself off w && a != 9 then writeReg r off w s else deny s a r
    | some .noAction => if deniesItself off w then writeReg r off w s else denyOther s r

/-- The bits of the register at `off` that a write of 1 clears and hardware sets. -/
def w1cBits (off : Nat) : Nat :=
  if inRange off 0x180040 0x180060 then 2 ^ 32 - 1
  else match findReg off with
    | some (r, _) => ((r.fields.filter (fun f => f.acc = .w1c)).map (fun f => 2 ^ f.lo * (2 ^ f.width - 1))).sum
    | none => 0

/-- What is left of a written value where hardware set the bits `met` in the write's own cycle: a bit that a 1 would clear stays (R24). -/
def unmetValue (off v met : Nat) : Nat := v ^^^ (v &&& met &&& w1cBits off)

/-- Captures that an event of the write's own cycle held back, and whose status bits from before it the write `full` clears, load that event. -/
def loadMet (full s : State) : State :=
  s.caps.foldl (fun s c =>
    if c.cycle = cycleNow full ∧ !c.before.isEmpty ∧ !c.before.any (isSet full) then setFields s c.vals else s) s

/-- A ring set that halts in the cycle of the write that disables it stays halted (R25, R387). -/
def keepHalt (off met : Nat) (old s : State) : State :=
  let k := (off - 0xE1000) / 0x40
  if inRange off 0xE1000 0xE2000 && off % 0x40 == 0 && bitOf met 1 && isSet old (F.RING_CTL_HALT k) then raise s (F.RING_CTL_HALT k) else s

/-- REGISTER_WRITE. `met` names the bits that hardware set in the cycle in which the write takes effect; the command of the event stands
before this one in the queue, so that a set by this write prevails over a clear of the same cycle (R24, R25, log entry 84). An event whose bit
would have been set after the last one was cleared is captured (R49, R124, R185, R282, R309, R350, R382, R418, R487). -/
def registerWrite (r : Requester) (off size v met : Nat) (s : State) : State :=
  let t := regWrite r off size (unmetValue off v met) s
  if met &&& w1cBits off = 0 then keepHalt off met s t else loadMet (regWrite r off size v s) t

end Sys2Proof.Machine
end

