-- ==== Sys2Proof/Machine/Board.lean ====
section
/-! DEFINITION. Accesses to board addresses (R39 to R44, R49, R246 to R248, R341). -/
namespace Sys2Proof.Machine

def BoardOp.isWrite : BoardOp → Bool
  | .read _ => false
  | .write _ => true

/-- Words of an access. -/
def BoardOp.count : BoardOp → Nat
  | .read n => n
  | .write d => d.length

/-- The bits of DEV_AERR. -/
inductive AddrError where
  | range | region | denied | sramMode
  deriving DecidableEq, Repr

def AddrError.bit : AddrError → Fld
  | .range => F.DEV_AERR_RANGE
  | .region => F.DEV_AERR_REGION
  | .denied => F.DEV_AERR_DENIED
  | .sramMode => F.DEV_AERR_SRAM_MODE

/-- The bits that guard the capture (R49). -/
def addrErrorBits : List Fld := [F.DEV_AERR_RANGE, F.DEV_AERR_REGION, F.DEV_AERR_DENIED, F.DEV_AERR_SRAM_MODE]

/-- A refused access in DEV_AERR (R44, R49): the capture, the bit, the count. -/
def logAddrError (s : State) (e : AddrError) (addr src : Nat) (write : Bool) : State :=
  let s := capture s addrErrorBits
    [(F.DEV_AERR_LO, bitsOf addr 31 0), (F.DEV_AERR_HI_ADDR_HI, bitsOf addr 47 32), (F.DEV_AERR_HI_SRC_ORD, src), (F.DEV_AERR_HI_WRITE, bitNat write)]
  bump (raise s e.bit) F.DEV_AERR_CNT

/-! ### What may be accessed (R40, R41, R43, R248) -/

/-- Whether byte `o` of a region exists. -/
def boardByteOk (s : State) (region o : Nat) : Bool :=
  match region with
  | 0 => decide (o < 2 ^ 30) && decide (bitsOf o 17 14 < 12)
  | 1 => decide (o / 0xC00000000 < 8) && stackUp s (o / 0xC00000000)
  | 2 => decide (o / 0x8000000000 < 2) && bulkSideUp s (o / 0x8000000000)
  | _ => decide (o < 0x1000000)

/-- What R43 and the policy refuse to a requester. -/
def boardDenied (s : State) (r : Requester) (region o : Nat) (op : BoardOp) : Option AddrError :=
  match r with
  | .steward _ =>
    match region with
    | 0 => if inMaintenance s then none else some .sramMode
    | 2 => if op.isWrite then some .denied else none
    | _ => none
  | .board =>
    match region with
    | 0 => some (if inMaintenance s then .denied else .sramMode)
    | 4 =>
      match op with
      | .read _ => none
      | .write d => if ((List.range d.length).any (fun i => (writeDenied s .board (o + 4 * i) (d.getD i 0)).isSome)) then some .denied else none
    | _ => if op.isWrite || !inMaintenance s then some .denied else none
  | _ => some .denied

/-- Why an access is handled under R44, if it is: a reserved region, then an offset out of range, then R43. -/
def boardError (s : State) (r : Requester) (addr : Nat) (op : BoardOp) : Option AddrError :=
  let region := bitsOf addr 44 42
  let o := bitsOf addr 41 0
  if region = 3 || 5 ≤ region then some .region
  else if !(List.range (4 * op.count)).all (fun i => boardByteOk s region (o + i)) then some .range
  else boardDenied s r region o op

/-! ### Serving an access -/

/-- Byte `o` of cell SRAM (R41): a bank byte of a cell. -/
def sramByte (s : State) (o : Nat) : Nat :=
  (sramWord (getCell s (o / 2 ^ 18)) (bitsOf o 17 14 * 512 + bitsOf o 13 5)).toNat / 256 ^ (o % 32) % 256

/-- Writes byte `o` of cell SRAM. -/
def sramByteStore (s : State) (o v : Nat) : State :=
  let c := getCell s (o / 2 ^ 18)
  let key := bitsOf o 17 14 * 512 + bitsOf o 13 5
  let w := (sramWord c key).toNat
  let old := w / 256 ^ (o % 32) % 256
  setCell s (o / 2 ^ 18) (sramStore c key (BitVec.ofNat 256 (w - old * 256 ^ (o % 32) + v % 256 * 256 ^ (o % 32))))

/-- The memory wipe of this start, or of one that has failed before it, has not ended: a unit of Near reads as zeros until it has been written in full (R278). -/
def beforeWipe (s : State) : Bool := (s.boot.phase == .running || s.boot.phase == .failWait || s.boot.phase == .safe) && decide (getF s F.BOOT_STAT_STEP ≤ 8)

/-- A byte of a memory region, by region-0, region-1 or region-2 offset. -/
def boardByte (s : State) (region o : Nat) : Nat :=
  match region with
  | 0 => sramByte s o
  | 1 => if beforeWipe s then (if earlyFull s.mem (o / unitBytes) then smapGet zeroNat s.mem.early o - 1 else 0) else (smapGet zeroByte s.mem.near o).toNat
  | _ => (smapGet zeroByte s.mem.bulk o).toNat

def boardByteStore (region : Nat) (s : State) (o v : Nat) : State :=
  if region = 0 then sramByteStore s o v
  else if beforeWipe s then setMem s { s.mem with early := smapSet zeroNat s.mem.early o (1 + v % 256) }
  else setMem s { s.mem with near := smapSet zeroByte s.mem.near o (BitVec.ofNat 8 v) }

/-- One word read at region offset `o`. The control window reads as BAR0 does (R20). -/
def boardReadWord (r : Requester) (region : Nat) (s : State) (o : Nat) : Nat × State :=
  if region = 4 then readBytes s r o 4 else (leRead (boardByte s region) o 4, s)

def boardWriteWord (r : Requester) (region : Nat) (s : State) (o v : Nat) : State :=
  if region = 4 then regWrite r o 4 v s
  else (List.range 4).foldl (fun s i => boardByteStore region s (o + i) (v / 256 ^ i)) s

/-- Serves an access that R43 permits: the words read. A write to the control window that is not of one word is discarded (R20). -/
def boardServe (r : Requester) (region o : Nat) (op : BoardOp) (s : State) : List Nat × State :=
  match op with
  | .read n => (List.range n).foldl (fun (x : List Nat × State) i =>
      let (v, t) := boardReadWord r region x.2 (o + 4 * i)
      (x.1 ++ [v], t)) ([], s)
  | .write d => if region = 4 ∧ d.length ≠ 1 then ([], s) else ([], (List.range d.length).foldl (fun s i => boardWriteWord r region s (o + 4 * i) (d.getD i 0)) s)

/-- Words that a refused access returns (R44). -/
def BoardOp.zeros : BoardOp → List Nat
  | .read n => List.replicate n 0
  | .write _ => []

/-- An access to this module's own regions: whether it ends with an error completion, and what it reads. A write of the control window that
the policy denies is noted there too, once (R477). -/
def serveBoard (r : Requester) (src addr : Nat) (op : BoardOp) (s : State) : (Bool × List Nat) × State :=
  match boardError s r addr op with
  | some e =>
    let o := bitsOf addr 41 0
    let s := match e, r, op with
      | .denied, .board, .write d =>
        if bitsOf addr 44 42 = 4 then
          match (List.range d.length).find? (fun i => (writeDenied s .board (o + 4 * i) (d.getD i 0)).isSome) with
          | some i => regWrite .board (o + 4 * i) 4 (d.getD i 0) s
          | none => s
        else s
      | _, _, _ => s
    ((true, op.zeros), logAddrError s e addr src op.isWrite)
  | none =>
    let (l, t) := boardServe r (bitsOf addr 44 42) (bitsOf addr 41 0) op s
    ((false, l), t)

/-! ### Over the mesh (R42, R341) -/

/-- The mesh port that leads to board ordinal `ord`. -/
def meshPort (s : State) (ord : Nat) : Nat := (ord + 15 - getF s F.DEV_POS) % 8

/-- The payload of a BOARD flit. -/
def boardPayload (op tag words status addr : Nat) (data : List Nat) : List Byte :=
  leBytes op 1 ++ leBytes tag 1 ++ leBytes words 1 ++ leBytes status 1 ++ leBytes addr 6 ++ data.flatMap (fun w => leBytes w 4)

/-- A tag that no outstanding request of the port uses. -/
def freeTag (l : LinkSt) : Option Nat :=
  ((List.range 256).map (fun i => (l.nextTag + i) % 256)).find? (fun t => !l.reqs.any (fun q => q.tag == t))

/-- A request leaves for another module; a port that is not UP ends it at once with an error completion. -/
def sendRequest (r : Requester) (addr : Nat) (op : BoardOp) (s : State) : State :=
  let p := meshPort s (bitsOf addr 47 45)
  if !portUp s p then bump (emit s (.boardDone r true op.zeros)) (F.LNK_CNT_BOARD_ERR p)
  else
    let l := link s p
    match freeTag l with
    | none => s
    | some t =>
      let b := match op with
        | .read n => boardPayload 1 t n 0 addr []
        | .write d => boardPayload 2 t d.length 0 addr d
      setLink s p { l with
        boardQ := l.boardQ ++ [b], nextTag := (t + 1) % 256,
        reqs := l.reqs ++ [{ tag := t, requester := r, sentAt := devNow s, write := op.isWrite }] }

/-- BOARD_ACCESS: an access of 1 to 32 words by a requester on the board; `src` is the ordinal of the module that issues it. -/
def boardAccess (r : Requester) (src addr : Nat) (op : BoardOp) (s : State) : State :=
  if !windowUp s || op.count = 0 || 32 < op.count || 2 ^ 48 ≤ addr then s
  else if bitsOf addr 47 45 = getF s F.DEV_POS then
    let (x, s) := serveBoard r (src % 8) addr op s
    match r with
    | .steward _ => emit s (.boardDone r x.1 x.2)
    | _ => s
  else match r with
    | .steward _ => sendRequest r addr op s
    | _ => s

/-- BOARD_REQUEST_TIMEOUT: requests without a response for 10 µs. -/
def boardRequestTimeout (p : Nat) (s : State) : State :=
  failBoardReqs s p (fun q => decide (q.sentAt + 10000 ≤ devNow s))

end Sys2Proof.Machine
end

