-- ==== Sys2Proof/Machine/LinkRx.lean ====
section
/-! DEFINITION. What a receiver does with a flit slot (R317, R320, R323, R324, R334, R338 to R341, R345, R355, R356, R359). -/
namespace Sys2Proof.Machine

/-! ### Counts of the lanes (R345) -/

/-- One codeword on a lane, by the symbols that arrived wrong: the code corrects up to 15, more make it uncorrectable (R312, R345). -/
def countWord (p l : Nat) (s : State) (n : Nat) : State :=
  let s := bump s (F.LANE_FEC_CW p l)
  if n = 0 then s
  else if 15 < n then bump s (F.LANE_FEC_UNCORR p l)
  else
    let s := addF (bump s (F.LANE_FEC_CORR p l)) (F.LANE_FEC_SYM p l) n
    setF s (F.LANE_FEC_MAXSYM p l) (max (getF s (F.LANE_FEC_MAXSYM p l)) n)

/-! ### DATA and BCAST (R338 to R340, R359) -/

/-- The transfer reference that a channel's engine has bound for the present frame; a solo replay binds none (R357, R364, R371). -/
def boundRef (s : State) (kind chan : Nat) : Option Nat :=
  if kind = 0 then
    if !(s.frame.hasLive || s.frame.waiting) || s.span.solo then none
    else (((liveCfg s).transfers.filter (fun t => t.engine == 4)).map (fun t => t.ref)).find? (fun i =>
      xferChan (xferOf s i) == chan && !bitOf (xferOf s i) 20)
  else if s.span.load.isSome && s.span.loadFrames then some (65536 + chan) else none

/-- Puts a flit's bytes into the stage of its instance; the first flit begins it afresh. -/
def stageFlit (s : State) (ref : Nat) (f : Flit) : State :=
  let i := (s.span.recvs.find? (fun r => r.ref == ref)).getD { ref := ref }
  let rest := s.span.recvs.filter (fun r => !(r.ref == ref))
  if i.done then s
  else
    let i : RecvInst := if f.off = 0 then { ref := ref } else i
    if f.off ≠ i.nextOff then s
    else setSpan s { s.span with recvs := rest ++ [{ i with bytes := i.bytes ++ f.payload, nextOff := f.off + 1, last := f.last }] }

/-- A flit that no route takes (R340). -/
def routeDiscard (s : State) (p : Nat) : State := raise (bump s (F.LNK_CNT_ROUTE p)) (F.LNK_STAT_ROUTE_ERR p)

/-- A DATA or BCAST flit. A forward never crosses between the port dies (R339). -/
def takeData (p : Nat) (f : Flit) (s : State) : State :=
  let e := smapGet zeroNat s.span.chans f.chan
  let ref := if bitOf e 16 then (boundRef s (bitsOf e 22 21) f.chan).map some else some none
  if !bitOf e 23 || bitsOf e 20 17 ≠ p then routeDiscard s p
  else match ref with
    | none => routeDiscard s p
    | some r =>
      let s := match r with
        | some i => stageFlit s i f
        | none => s
      ((List.range 16).filter (fun q => bitOf e q && decide (q / 8 = p / 8))).foldl (fun s q => setLink s q { link s q with dataQ := (link s q).dataQ ++ [f] }) s

/-! ### CTRL (R355, R356) -/

/-- A control message reaches this member. -/
def deliverCtrl (s : State) (m : CtrlMsg) : State :=
  let s := bump s F.SPAN_CNT_CTRL_RX
  setSpan s { s.span with inbox := s.span.inbox ++ [m] }

/-- A CTRL flit: upward to the master, or on to the children and here. -/
def takeCtrl (p : Nat) (f : Flit) (s : State) : State :=
  let m := ctrlOf f.payload
  if f.chan ≠ 0 || f.len ≠ 64 || m.msg = 0 || 0x0C < m.msg then bump s (F.LNK_CNT_ROUTE p)
  else if !inSpan s then s
  else if m.to_ = 0xFFFE then (if isMaster s then deliverCtrl s m else forwardUp s f.payload)
  else
    let s := forwardDown s f.payload
    if m.to_ = 0xFFFF || m.to_ = ownOrd s then deliverCtrl s m else s

/-! ### BOARD (R341) -/

/-- The words of a BOARD payload's data. -/
def boardWords (b : List Byte) (n : Nat) : List Nat := (List.range n).map (fun i => leRead (listReader b) (10 + 4 * i) 4)

/-- A response takes its request off the list. -/
def takeResponse (p tag : Nat) (error : Bool) (words : List Nat) (s : State) : State :=
  let l := link s p
  match l.reqs.find? (fun q => q.tag == tag) with
  | none => s
  | some q => emit (setLink s p { l with reqs := l.reqs.filter (fun r => !(r.tag == tag)) }) (.boardDone q.requester error words)

/-- A BOARD flit on a mesh port: a request is served as a steward's of the module at the port's far end; a response ends its request. -/
def takeBoard (p : Nat) (f : Flit) (s : State) : State :=
  let rd := listReader f.payload
  let op := leRead rd 0 1
  let tag := leRead rd 1 1
  let n := leRead rd 2 1
  let addr := leRead rd 4 6
  if 7 ≤ p then routeDiscard s p
  else if op = 0 || 4 < op || n = 0 || 32 < n then routeDiscard s p
  else if op ≤ 2 then
    let acc := if op = 1 then BoardOp.read n else .write (boardWords f.payload n)
    if bitsOf addr 47 45 ≠ getF s F.DEV_POS then s
    else
      let (x, s) := serveBoard .board ((getF s F.DEV_POS + p + 1) % 8) addr acc s
      let l := link s p
      setLink s p { l with boardQ := l.boardQ ++ [boardPayload (op + 2) tag n (if x.1 then 1 else 0) addr x.2] }
  else takeResponse p tag (leRead rd 3 1 != 0) (if op = 3 then boardWords f.payload n else []) s

/-! ### WIDTH (R334) -/

/-- A confirmation: the receive direction takes its new map from this round on. LNK_FAIL's cause is that of the first lane that this side has
dropped and the map leaves out, else the peer's (R334 step 3, R335, R350). -/
def takeConfirm (s : State) (p m : Nat) : State :=
  let s := setRxMap (abortScans s p m) p m
  let l := link s p
  let (lane, cause) := (l.drops.find? (fun d => !bitOf m d.1)).getD (0, 5)
  let s := setLink s p { l with
    notice := if l.notice = some m then none else l.notice, rxDrop := if l.rxDrop = some m then none else l.rxDrop,
    drops := l.drops.filter (fun d => bitOf m d.1), syncSpan := l.syncSpan || l.syncOpen }
  countWidth s p cause 0 lane

/-- A WIDTH flit: a notice of the receiver of this port's transmit direction, whose ACK has been taken; the confirmation of a change of its
receive direction; the notice of the peer's transmitter that drops a lane of it. -/
def takeWidth (p : Nat) (f : Flit) (s : State) : State :=
  let m := leRead (listReader f.payload) 1 1
  let l := link s p
  let within (map : Nat) : Bool := m != 0 && m != map && Nat.land m map == m
  match leRead (listReader f.payload) 0 1 with
  | 1 => if within (getF s (F.LNK_WIDTH_TX_MAP p)) then beginWidth (takeAck s p (leRead (listReader f.payload) 2 2)) p m 5 0 false else s
  | 2 => if within (getF s (F.LNK_WIDTH_RX_MAP p)) then takeConfirm s p m else s
  | 3 =>
    if within (getF s (F.LNK_WIDTH_RX_MAP p)) then setLink (abortScans s p m) p { l with rxDrop := some m, syncSpan := l.syncSpan || l.syncOpen } else s
  | _ => s

/-! ### TRAIN (R330, R331) -/

/-- A TRAIN flit: the peer's identity. On a port in UP, one with another session number says that the peer has reset: the port leaves UP
(R333; LNK_FAIL cause 8). DEDUCED (log 105). -/
def takeTrain (p : Nat) (f : Flit) (s : State) : State :=
  if f.len ≠ 15 then s
  else if portUp s p then (if trainSession f.payload = getF s (F.LNK_SESSION_PEER p) then s else leaveUp s p 8 0 0)
  else notePeer s p f.payload

/-! ### A slot -/

/-- A sequenced flit that is delivered. -/
def deliverFlit (p : Nat) (f : Flit) (s : State) : State :=
  let l := link s p
  let s := bump (setLink s p { l with rxExpect := (l.rxExpect + 1) % 65536, discard := false }) (F.LNK_CNT_RX p)
  match f.type with
  | 3 => takeCtrl p f s
  | 5 => takeBoard p f s
  | _ => takeData p f s

/-- The receiver calls for a replay and enters DISCARD. -/
def callReplay (s : State) (p : Nat) : State :=
  let l := link s p
  if l.discard then s else setLink s p { l with discard := true, nakDue := true }

/-- A flit with a bad CRC. -/
def badFlit (s : State) (p : Nat) : State := callReplay (bump s (F.LNK_CNT_CRC p)) p

/-- A good flit, once its ACK and NAK have been taken. -/
def takeGood (p : Nat) (f : Flit) (s : State) : State :=
  let l := link s p
  if !sequencedType f.type then (if f.type = 6 then takeWidth p f s else if f.type = 7 then takeTrain p f s else s)
  else if f.seq = l.rxExpect then deliverFlit p f s
  else if l.discard then s
  else if seqAhead l.rxExpect f.seq then bump s (F.LNK_CNT_DUP p)
  else callReplay s p

/-- What the receiver of a port in UP does with a flit slot in its turn (R317, R323, R324). -/
def takeSlot (p : Nat) (bytes : List Byte) (bad : Bool) (s : State) : State :=
  match flitOf bytes with
  | none => badFlit s p
  | some (f, nak, ack) =>
    if bad then badFlit s p
    else
      let s := takeAck (setLink s p { link s p with goodAt := devNow s }) p ack
      let s := if nak then takeNak s p ack else s
      if portUp s p then takeGood p f s else s

/-! ### Codeword pairs and deskew (R315 to R317, R334) -/

/-- The present pair of a receive lane. -/
def laneRx (s : State) (p l : Nat) : LaneRx := ((link s p).lanes.find? (fun x => x.lane == l)).getD { lane := l }

/-- The first slot of a codeword pair: its codewords are counted; one that cannot be corrected, or a header without the alignment pattern
and the lane's number, makes the pair's five flits invalid, and its round count is that which follows the lane's last one. Four pairs in a row
with an uncorrectable codeword, or 16 within 1 ms, drop a lane in use (R334). -/
def beginPair (s : State) (p : Nat) (x : FlitSlot) : State :=
  let s := x.errs.foldl (countWord p x.lane) s
  let old := laneRx s p x.lane
  let lost := x.errs.any (fun n => decide (15 < n))
  let bad := lost || decide (bitsOf x.header 15 0 ≠ 0xC3A5) || decide (bitsOf x.header 18 16 ≠ x.lane)
  let recent := old.times.filter (fun t => decide (devNow s < t + 1000000))
  let new : LaneRx := { lane := x.lane, round := if bad then (old.round + 1) % 256 else bitsOf x.header 31 24, bad := bad,
                        run := if lost then old.run + 1 else 0, times := if lost then recent ++ [devNow s] else recent }
  let s := setLink s p { link s p with lanes := (link s p).lanes.filter (fun y => y.lane != x.lane) ++ [new] }
  if !portUp s p || !bitF s (F.LNK_WIDTH_RX_MAP p) x.lane then s
  else if pairsDrop s p x.lane 2 then dropRxLane s p x.lane 2
  else if pairsDrop s p x.lane 3 then dropRxLane s p x.lane 3
  else s

/-- Receive lanes from which flits are taken: those in use that neither end has dropped. -/
def takenLanes (s : State) (p : Nat) : List Nat :=
  lanesOf (Nat.land (getF s (F.LNK_WIDTH_RX_MAP p)) (Nat.land ((link s p).notice.getD 255) ((link s p).rxDrop.getD 255)))

/-- The place (round, lane, slot) at which the receiver continues: one on a lane that has been dropped is passed over. -/
def settlePlace (lanes : List Nat) (a : Nat × Nat × Nat) : Nat × Nat × Nat :=
  if lanes.contains a.2.1 then a
  else match lanes.find? (fun l => decide (a.2.1 < l)) with
    | some l => (a.1, l, 0)
    | none => ((a.1 + 1) % 256, lanes.headD 0, 0)

/-- The place after a slot (R316). -/
def nextPlace (lanes : List Nat) (a : Nat × Nat × Nat) : Nat × Nat × Nat :=
  if a.2.2 < 4 then (a.1, a.2.1, a.2.2 + 1)
  else match lanes.find? (fun l => decide (a.2.1 < l)) with
    | some l => (a.1, l, 0)
    | none => ((a.1 + 1) % 256, lanes.headD 0, 0)

/-- Takes the slots that have arrived, in the order in which they were sent, as far as they are there (R316). -/
def drainRx (p : Nat) : Nat → State → State
  | 0, s => s
  | n + 1, s =>
    match portUp s p, (link s p).rxAt with
    | true, some a =>
      let l := link s p
      let a := settlePlace (takenLanes s p) a
      match l.rxq.find? (fun x => x.round == a.1 && x.lane == a.2.1 && x.slot == a.2.2) with
      | none => setLink s p { l with rxAt := some a }
      | some x => drainRx p n (takeSlot p x.bytes x.bad (setLink s p { l with rxq := l.rxq.erase x, rxAt := some (nextPlace (takenLanes s p) a) }))
    | _, _ => s

/-- A slot joins those that wait for their turn. Where no pair came before UP, the first that arrives begins the first round; what comes too late for its round, or on a
lane that is not taken, is dropped. -/
def queueRx (s : State) (p : Nat) (x : FlitSlot) : State :=
  let k := laneRx s p x.lane
  let l := link s p
  let first := l.rxAt.getD (k.round, (takenLanes s p).headD 0, 0)
  if !(takenLanes s p).contains x.lane || (l.rxAt.isNone && x.slot ≠ 0) || 128 ≤ (k.round + 256 - first.1) % 256 then s
  else
    let rest := l.rxq.filter (fun y => decide ((y.round + 256 - first.1) % 256 < 128))
    setLink s p { l with rxAt := some first, rxq := rest ++ [⟨k.round, x.lane, x.slot, k.bad, x.bytes⟩] }

/-- A flit slot at a port that trains or is in WIRING: only TRAIN is taken; a bad flit counts (R317, R320). The peer's ACK counts while its session is
the same (R323, R331). -/
def takeTraining (p : Nat) (x : FlitSlot) (s : State) : State :=
  match flitOf x.bytes, (laneRx s p x.lane).bad with
  | some (f, _, ack), false =>
    if f.type ≠ 7 then s
    else takeTrain p f (if trainSession f.payload = getF s (F.LNK_SESSION_PEER p) then takeAck s p ack else s)
  | _, _ => bump s (F.LNK_CNT_CRC p)

/-- FLIT_RECEIVE: one flit slot of a codeword pair. -/
def flitReceive (p : Nat) (x : FlitSlot) (s : State) : State :=
  if !carriesPairs s p then s
  else
    let s := if x.slot = 0 then beginPair s p x else s
    if portUp s p then
      let s := queueRx s p x
      drainRx p ((link s p).rxq.length + 1) s
    else if carriesPairs s p then takeTraining p x s else s

end Sys2Proof.Machine
end

