-- ==== Sys2Proof/Machine/LinkCommands.lean ====
section
/-! DEFINITION. The meanings of the commands of link ports. -/
namespace Sys2Proof.Machine

/-- SYNC_EXCHANGE (R64). -/
def execSyncExchange (p : Nat) (s : State) : Host.Outcome State Fault Refusal :=
  .next (syncExchange p s)

/-- SYNC_RECEIVE (R342). -/
def execSyncReceive (p : Nat) (m : SyncMsg) (arrival : Nat) (s : State) : Host.Outcome State Fault Refusal :=
  .next (syncReceive p m arrival s)

/-- ROUND_TRANSMIT (R321). -/
def execRoundTransmit (p : Nat) (s : State) : Host.Outcome State Fault Refusal :=
  .next (roundTransmit p s)

/-- FLIT_RECEIVE (R324). -/
def execFlitReceive (p : Nat) (x : FlitSlot) (s : State) : Host.Outcome State Fault Refusal :=
  .next (flitReceive p x s)

/-- REPLAY_TIMEOUT (R325). -/
def execReplayTimeout (p : Nat) (s : State) : Host.Outcome State Fault Refusal :=
  .next (replayTimeout p s)

/-- NAK_RESEND_TIMEOUT (R324). -/
def execNakResendTimeout (p : Nat) (s : State) : Host.Outcome State Fault Refusal :=
  .next (nakResendTimeout p s)

/-- LANE_DROP (R334). -/
def execLaneDrop (p l cause : Nat) (s : State) : Host.Outcome State Fault Refusal :=
  .next (laneDrop p l cause s)

/-- PORT_LEAVE_UP (R337). -/
def execPortLeaveUp (p : Nat) (notice : Bool) (s : State) : Host.Outcome State Fault Refusal :=
  .next (portLeaveUp p notice s)

/-- RETRAIN_COMPLETE (R337). -/
def execRetrainComplete (p : Nat) (r : TrainResult) (s : State) : Host.Outcome State Fault Refusal :=
  .next (retrainComplete p r s)

/-- RETRAIN_TIMEOUT (R337). -/
def execRetrainTimeout (p : Nat) (s : State) : Host.Outcome State Fault Refusal :=
  .next (retrainTimeout p s)

/-- DOWN_RETRY (R337). -/
def execDownRetry (p : Nat) (s : State) : Host.Outcome State Fault Refusal :=
  .next (downRetry p s)

/-- LINK_TRAINING (R329). -/
def execLinkTraining (p : Nat) (r : TrainResult) (s : State) : Host.Outcome State Fault Refusal :=
  .next (linkTraining p r s)

/-- TRAINING_TIMEOUT (R332). -/
def execTrainingTimeout (p : Nat) (s : State) : Host.Outcome State Fault Refusal :=
  .next (trainingTimeout p s)

/-- LOSS_BASE (R347). -/
def execLossBase (p : Nat) (s : State) : Host.Outcome State Fault Refusal :=
  .next (lossBase p s)

/-- LOSS_ESTIMATE_UPDATE (R347). -/
def execLossEstimateUpdate (p l est : Nat) (s : State) : Host.Outcome State Fault Refusal :=
  .next (lossEstimateUpdate p l est s)

/-- LINK_RETRAIN_CMD (R336). -/
def execLinkRetrainCmd (p : Nat) (s : State) : Host.Outcome State Fault Refusal :=
  .next (linkRetrainCmd p s)

/-- LINK_TEST_ENTER (R344). -/
def execLinkTestEnter (p : Nat) (s : State) : Host.Outcome State Fault Refusal :=
  .next (linkTestEnter p s)

/-- LINK_TEST_LEAVE (R344). -/
def execLinkTestLeave (p : Nat) (s : State) : Host.Outcome State Fault Refusal :=
  .next (linkTestLeave p s)

/-- LINK_COUNT_CLEAR (R345). -/
def execLinkCountClear (p : Nat) (eye lane port : Bool) (s : State) : Host.Outcome State Fault Refusal :=
  .next (linkCountClear p eye lane port s)

/-- EYE_SCAN_START (R346). -/
def execEyeScanStart (p l : Nat) (s : State) : Host.Outcome State Fault Refusal :=
  .next (eyeScanStart p l s)

/-- EYE_SCAN_DONE (R346). -/
def execEyeScanDone (p l : Nat) (eyes : Option (EyeCounts × EyeCounts × EyeCounts)) (s : State) : Host.Outcome State Fault Refusal :=
  .next (eyeScanDone p l eyes s)

/-- PRBS_CHECKER_LOCK (R344). -/
def execPrbsCheckerLock (p l bits rx : Nat) (s : State) : Host.Outcome State Fault Refusal :=
  .next (prbsCheckerLock p l ((List.range bits).map (bitOf rx)) s)

end Sys2Proof.Machine
end

