-- ==== Sys2Proof/Machine/Mailbox.lean ====
section
/-! DEFINITION. The management mailbox (R470, R479, R480, R492 to R495). -/
namespace Sys2Proof.Machine

/-! ### Serving a request -/

/-- The mailbox is served: by the steward whose duty it is, in safe mode by the security controller, in Dormant by the always-on domain (R488, R495). -/
def mboxUp (s : State) : Bool :=
  s.pwr.dormant || s.boot.phase == .safe || (s.boot.phase != .held && (dutySteward s 3).isSome)

/-- What the checks that every command shares find: served here, reserved bytes, and the LENGTH of the arguments. -/
def mboxCheck (served : Bool) (len : List Nat) (q : MboxReq) : Option Nat :=
  if !served then some 7
  else if q.reserved ≠ 0 then some 3
  else if !len.contains q.length || q.length ≠ q.args.length then some 2
  else none

/-- A command: `safe`, that safe mode serves it, `len` the lengths that its arguments may have. A command that resets the module is answered
before the reset (R494); so each command gives its answer and the state before the reset, and what resets. -/
def mailbox (safe : Bool) (len : List Nat) (q : MboxReq) (serve : Requester → State → MboxEnd × State) (after : State → State) (s : State) : State :=
  match mboxWho s q with
  | none => s
  | some r =>
    let served := !s.pwr.dormant && (safe || s.boot.phase != .safe)
    match mboxCheck served len q with
    | some e => respond r q { result := e } s
    | none =>
      let (e, s) := serve r s
      let s := respond r q e s
      if e.result = 0 then after s else s

/-- A number among the arguments, little-endian. -/
def argAt (q : MboxReq) (o n : Nat) : Nat := leRead (listReader q.args) o n

/-- A command under action `a`. -/
def underAction (a : Nat) (r : Requester) (f : State → MboxEnd × State) (s : State) : MboxEnd × State :=
  if policyAllows s a r then f s else ({ result := 1 }, deny s a r)

/-! ### Registers and commands of other blocks -/

/-- The words from `off` on. -/
def readWords (r : Requester) (off : Nat) : Nat → State → List Byte × State
  | 0, s => ([], s)
  | n + 1, s =>
    let (v, s) := readWord s r off
    let (l, s) := readWords r (off + 4) n s
    (leBytes v 4 ++ l, s)

/-- DEV and TEL, which action 11 opens. -/
def telemetryBlock (off : Nat) : Bool := decide (off < 0x10000) || inRange off 0x1A0000 0x1C0000

/-- REG_READ. -/
def serveRegRead (q : MboxReq) (r : Requester) (s : State) : MboxEnd × State :=
  let off := argAt q 0 4
  let n := argAt q 4 1
  let last := off + 4 * n - 4
  if s.boot.phase = .safe ∧ ¬ (earlyBlock off ∧ earlyBlock last) then ({ result := 7 }, s)
  else if n = 0 ∨ 16 < n ∨ off % 4 ≠ 0 ∨ 0x1000000 < off + 4 * n then ({ result := 5 }, s)
  else
    let go : State → MboxEnd × State := fun s =>
      let (l, s) := readWords r off n s
      ({ data := l }, s)
    if telemetryBlock off && telemetryBlock last then underAction 11 r go s
    else if r = .mgmt then ({ result := 1 }, denyOther s r)
    else go s

/-- The reason with which a block refuses a register's command, or 0: a mode request's and a Dormant request's. -/
def writeRefused (s : State) (r : Requester) (off v : Nat) : Nat :=
  if off = 0x20044 then (modeRefused s (v % 8) r).getD 0
  else if off = 0x10002C ∧ v % 2 = 1 then (dormantRefused s r).getD 0
  else 0

/-- REG_WRITE. -/
def serveRegWrite (q : MboxReq) (r : Requester) (s : State) : MboxEnd × State :=
  let off := argAt q 0 4
  let v := argAt q 4 4
  if !writeReaches s off 4 then ({ result := 5 }, s)
  else
    let e : MboxEnd := match writeDenied s r off v with
      | some _ => { result := 1 }
      | none => let why := writeRefused s r off v
                if why = 0 then {} else { result := 6, reason := why }
    (e, regWrite r off 4 v s)

/-- CAP: a slew that the register cannot hold is out of range. -/
def serveCap (q : MboxReq) (r : Requester) (s : State) : MboxEnd × State :=
  underAction 4 r (fun s =>
    if 4095 < argAt q 2 2 then ({ result := 5 }, s)
    else
      let s := capCommand (argAt q 0 2) (argAt q 2 2) s
      ({ data := leBytes (effectiveCap s / 10) 2 }, s)) s

/-- RETIRE_COL. -/
def serveRetireCol (q : MboxReq) (r : Requester) (s : State) : MboxEnd × State :=
  underAction 5 r (fun s =>
    let col := argAt q 0 1
    if 65 < col ∨ getF s F.ARR_COLMAP_EXCL0 = col ∨ getF s F.ARR_COLMAP_EXCL1 = col then ({ result := 5 }, s)
    else ({}, needRetire s col)) s

/-! ### The tally (R230, R231) -/

/-- The routing layers of a model, by the route table of an epoch in Near: the active one's, else the first one's (DESIGN CHOICE, log entry 110:
R230 and R231 do not say which epoch's table gives the tally's layout). -/
def routeRecs (s : State) (model : Nat) : List RouteRec :=
  let l := s.mem.recs.filter (fun r => r.model == model && (entryOf s.mem r.model r.epoch).near && (routeBytes s r).isSome)
  let r := match l.find? (fun r => (entryOf s.mem r.model r.epoch).active) with
    | some r => some r
    | none => l.head?
  match r with
  | some r => (match routeBytes s r with
    | some b => (List.range (leRead b.rd 4 2)).map (routeRec b.rd)
    | none => [])
  | none => []

/-- The bytes of a tally region that the last commit left. -/
def tallyBytes (s : State) (g : StateRegion) (o n : Nat) : List Byte := (List.range n).map (fun i => regionByte s g (o + i))

/-- TALLY_READ. -/
def serveTallyRead (q : MboxReq) (r : Requester) (s : State) : MboxEnd × State :=
  underAction 6 r (fun s =>
    let model := argAt q 0 4
    match regionFind s.mem (.model model), (routeRecs s model)[argAt q 4 2]? with
    | some g, some l =>
      let first := argAt q 6 2
      let n := argAt q 8 2
      if 256 < n ∨ l.e < first + n then ({ result := 5 }, s)
      else ({ data := leBytes g.lastFrame 6 ++ leBytes 0 2 ++ tallyBytes s g l.tallyOff 16 ++
                tallyBytes s g (l.tallyOff + 16 + 16 * first) (16 * n) }, s)
    | _, _ => ({ result := 5 }, s)) s

/-- Writes byte `i` of a count into the committed copy, and, where the frame in progress has written its line, of what that frame has added
into its copy. -/
def clearByte (o run : Nat) (m : MemSt) (owner : RegionOwner) (i : Nat) : MemSt :=
  match regionFind m owner with
  | none => m
  | some g =>
    let a := o + i
    let half := lineHalf g (a / 512)
    let m := { m with near := writeBytes (regionAddr g half) m.near a [0#8] }
    if g.written.contains (a / 512) then { m with near := writeBytes (regionAddr g (!half)) m.near a [(leBytes run 4).getD i 0#8] } else m

/-- Takes the committed frames out of one count; `run` is what the frame in progress has added to it, which stays (R231). -/
def clearCount (run : List (Nat × Nat)) (o : Nat) (m : MemSt) (owner : RegionOwner) : MemSt :=
  (List.range 4).foldl (fun m i => clearByte o (min (2 ^ 32 - 1) (smapGet zeroNat run o)) m owner i) m

/-- The byte offsets of a layer's counts. -/
def countOffsets (l : RouteRec) : List Nat := (List.range (4 + 4 * l.e)).map (fun i => l.tallyOff + 4 * i)

/-- TALLY_CLEAR: it takes its stamp as the mailbox decodes it. -/
def serveTallyClear (q : MboxReq) (r : Requester) (s : State) : MboxEnd × State :=
  underAction 6 r (fun s =>
    let model := argAt q 0 4
    let layer := argAt q 4 2
    let l := routeRecs s model
    let chosen := if layer = 0xFFFF then l else (match l[layer]? with
      | some x => [x]
      | none => [])
    if (regionFind s.mem (.model model)).isNone ∨ chosen.isEmpty then ({ result := 5 }, s)
    else
      let st := stampNow s srcMgmt
      let m := (chosen.flatMap countOffsets).foldl (fun m o => clearCount s.frame.tallyRun o m (.model model)) s.mem
      ({ data := stampBytes st }, stampEvent (setMem s m) srcMgmt (.tally model))) s

/-! ### Tokens (R469, R470, R479, R480) -/

/-- A token as the mailbox lays it out: target, serial, nonce, the new owner key hash where the target is Provisioned, then a signature block of
the form of R454. -/
structure Token where
  target : Nat
  serial : Nat
  nonce : Nat
  ownerKh : Option Nat
  body : List Byte
  sig : List Byte
  deriving DecidableEq, Repr

def tokenOf (b : List Byte) : Token :=
  let target := leRead (listReader b) 0 1
  let n := if target = 1 then 73 else 25
  { target := target, serial := leRead (listReader b) 1 8, nonce := leRead (listReader b) 9 16,
    ownerKh := if target = 1 then some (beNat (slice b 25 48)) else none, body := b.take n, sig := b.drop n }

/-- The lengths of tokens. -/
def tokenLens : List Nat := [329, 281]

def tokenLenOk (b : List Byte) : Bool := b.length == (if leRead (listReader b) 0 1 = 1 then 329 else 281)

/-- The nonce in force. -/
def nonceNow (s : State) : Nat := ((List.range 4).map (fun i => getF s (F.SEC_LC_NONCE i) * 2 ^ (32 * i))).sum

/-- Who signs a transition: true for the vendor key, false for the owner's; none where the transition does not exist. -/
def lcSigner (old new : Nat) : Option Bool :=
  match old, new with
  | 0, 1 => some true
  | 1, 2 => some false
  | 2, 3 => some false
  | 3, 1 => some true
  | 0, 4 => some true
  | 3, 4 => some true
  | 1, 4 => some false
  | 2, 4 => some false
  | _, _ => none

def signerKh (s : State) (vendor : Bool) : Nat := if vendor then Config.vendorKh.toNat else ownerKh s

/-- SEC_LC_WHY of a life-cycle request, if it is refused. -/
def lcRefused (s : State) (r : Requester) (t : Token) : Option Nat :=
  let calm := s.boot.phase == .safe || (inMaintenance s && s.boot.phase == .ready)
  if r ≠ .session then some 7
  else if isSet s F.SEC_LC_PEND then some 5
  else if !calm || !s.adm.reqs.isEmpty then some 6
  else match lcSigner s.fuses.lc t.target with
    | none => some 1
    | some v =>
      if t.serial ≠ s.fuses.serial then some 4
      else if t.nonce ≠ nonceNow s then some 3
      else if !sigOk t.sig t.body (signerKh s v) then some 2
      else if t.target = 1 ∧ 4 ≤ s.fuses.owners.length then some 8
      else if 31 ≤ s.fuses.storeGen then some 9
      else none

/-- LC_REQUEST: every request replaces the nonce. -/
def serveLcRequest (q : MboxReq) (r : Requester) (s : State) : MboxEnd × State :=
  let t := tokenOf q.args
  if !tokenLenOk q.args then ({ result := 2 }, s)
  else
    let why := lcRefused s r t
    let s := drawNonce s
    match why with
    | some w =>
      let s := stampEvent (setF (raise s F.SEC_STAT_LC_REFUSED) F.SEC_LC_WHY w) srcSecurity (.security 2)
      if w = 7 then ({ result := 1 }, denyOther s r) else ({ result := 6, reason := w }, s)
    | none =>
      let s := setF (setF (raise s F.SEC_LC_PEND) F.SEC_LC_TARGET t.target) F.SEC_LC_WHY 0
      ({}, setBoot s { s.boot with lc := some { target := t.target, ownerKh := t.ownerKh } })

/-- The target byte of a token that opens debug. -/
def debugTarget : Nat := 0xFF

/-- Whether a debug token opens debug: in Provisioned an owner's, in Returned a vendor's (R468). -/
def debugRefused (s : State) (t : Token) : Option Nat :=
  let signer : Option Bool := match s.fuses.lc with
    | 1 => some false
    | 3 => some true
    | _ => none
  match signer with
  | none => some 1
  | some v =>
    if t.target ≠ debugTarget then some 1
    else if t.serial ≠ s.fuses.serial then some 4
    else if t.nonce ≠ nonceNow s then some 3
    else if !sigOk t.sig t.body (signerKh s v) then some 2
    else none

/-- DEBUG_TOKEN. -/
def serveDebugToken (q : MboxReq) (r : Requester) (s : State) : MboxEnd × State :=
  let t := tokenOf q.args
  if !tokenLenOk q.args then ({ result := 2 }, s)
  else if r ≠ .session then ({ result := 1 }, denyOther s r)
  else
    let why := debugRefused s t
    let s := drawNonce s
    match why with
    | some w => ({ result := 6, reason := w }, s)
    | none => ({}, setBoot s { s.boot with debugNext := true })

/-! ### RESTART, IMAGE_UPDATE, WAKE -/

/-- RESTART: as BOOT_CTL.RESTART, in maintenance and safe mode. -/
def serveRestart (r : Requester) (s : State) : MboxEnd × State :=
  underAction 8 r (fun s => if bootCtlServed s then ({}, s) else ({ result := 6 }, s)) s

/-- IMAGE_UPDATE: as the writes of BOOT_UPD_ADDR, BOOT_UPD_LEN and BOOT_UPD_CMD. -/
def serveImageUpdate (q : MboxReq) (r : Requester) (s : State) : MboxEnd × State :=
  let addr := argAt q 0 8
  if !policyAllows s 7 r then ({ result := 1 }, bootUpdStart r s)
  else if isSet s F.BOOT_UPD_STAT_BUSY then ({ result := 6 }, s)
  else if addr % 4096 ≠ 0 then ({ result := 5 }, s)
  else ({}, bootUpdStart r (setF (setF s F.BOOT_UPD_ADDR addr) F.BOOT_UPD_LEN (argAt q 8 4)))

/-- WAKE: the I3C wake command; in Dormant only the always-on domain is there to serve it, without a session. -/
def serveWake (q : MboxReq) (s : State) : State :=
  if s.pwr.dormant then
    match mboxCheck true [0] q with
    | some e => respond .mgmt q { result := e } s
    | none => pinLatchEdge (.i3cWake, true) (respond .mgmt q {} s)
  else mailbox false [0] q (fun _ s => ({}, pinLatchEdge (.i3cWake, true) s)) id s

/-! ### The commands of R493, and the mailbox -/

/-- Serves one request, by its COMMAND; a reserved one ends with COMMAND. -/
def serveOne (q : MboxReq) (s : State) : State :=
  if !mboxUp s then s
  else match q.command with
    | 0x01 => mailbox true [5] q (serveRegRead q) id s
    | 0x02 => mailbox false [8] q (serveRegWrite q) id s
    | 0x03 => mailbox false [4] q (serveCap q) id s
    | 0x04 => mailbox false [1] q (serveRetireCol q) id s
    | 0x05 => mailbox false [10] q (serveTallyRead q) id s
    | 0x06 => mailbox false [6] q (serveTallyClear q) id s
    | 0x07 => mailbox true tokenLens q (serveLcRequest q) (warmReset 8) s
    | 0x08 => mailbox true tokenLens q (serveDebugToken q) (warmReset 9) s
    | 0x09 => mailbox true [0] q serveRestart restart s
    | 0x0A => mailbox true [12] q (serveImageUpdate q) id s
    | 0x10 => serveWake q s
    | _ => mailbox false [q.length] q (fun _ s => ({ result := 3 }, s)) id s

/-- Serves the oldest request that waits. -/
def serveNext (s : State) : State :=
  match s.stw.mbox with
  | [] => s
  | q :: l => serveOne q (setStw s { s.stw with mbox := l })

/-- Serves `n` requests that wait, in their order. -/
def serveWaiting : Nat → State → State
  | 0, s => s
  | n + 1, s => serveWaiting n (serveNext s)

/-- A request arrives. In the mailbox of the stewards at most four wait, and a fifth ends with BUSY; one that is to be served now is served after
those that wait (R494). In safe mode and in Dormant none waits (R495). -/
def mboxArrive (q : MboxReq) (s : State) : State :=
  if !mboxUp s || (mboxWho s q).isNone then s
  else if !stewardsServe s then serveOne q s
  else
    let s := raise s F.STW_STAT_MBOX_REQ
    if 4 ≤ s.stw.mbox.length then (match mboxWho s q with
      | some r => respond r q { result := if q.reserved = 0 then 4 else 3 } s
      | none => s)
    else if q.later then setStw s { s.stw with mbox := s.stw.mbox ++ [q] }
    else serveOne q (serveWaiting s.stw.mbox.length s)

/-- The codes of R493. -/
def mboxCodes : List Nat := [0x01, 0x02, 0x03, 0x04, 0x05, 0x06, 0x07, 0x08, 0x09, 0x0A, 0x10]

/-- A message to the mailbox as the command of the row `code`: with that COMMAND, or a reserved one, which every row may bring. -/
def mboxRow (code : Nat) (q : MboxReq) (s : State) : State :=
  if q.vendor ≠ 0x4851 || (mboxCodes.contains q.command && q.command != code) then s else mboxArrive q s

def regRead (q : MboxReq) (s : State) : State := mboxRow 0x01 q s
def regWriteMbox (q : MboxReq) (s : State) : State := mboxRow 0x02 q s
def cap (q : MboxReq) (s : State) : State := mboxRow 0x03 q s
def retireCol (q : MboxReq) (s : State) : State := mboxRow 0x04 q s
def tallyRead (q : MboxReq) (s : State) : State := mboxRow 0x05 q s
def tallyClear (q : MboxReq) (s : State) : State := mboxRow 0x06 q s
def lcRequest (q : MboxReq) (s : State) : State := mboxRow 0x07 q s
def debugToken (q : MboxReq) (s : State) : State := mboxRow 0x08 q s
def restartMbox (q : MboxReq) (s : State) : State := mboxRow 0x09 q s
def imageUpdate (q : MboxReq) (s : State) : State := mboxRow 0x0A q s
def wake (q : MboxReq) (s : State) : State := mboxRow 0x10 q s

end Sys2Proof.Machine
end

