-- ==== Sys2Proof/Machine/MailboxCommands.lean ====
section
/-! DEFINITION. The meanings of the commands of the mailbox. -/
namespace Sys2Proof.Machine

/-- REG_READ (R493). -/
def execRegRead (q : MboxReq) (s : State) : Host.Outcome State Fault Refusal :=
  .next (regRead q s)

/-- REG_WRITE (R493). -/
def execRegWrite (q : MboxReq) (s : State) : Host.Outcome State Fault Refusal :=
  .next (regWriteMbox q s)

/-- CAP (R426). -/
def execCap (q : MboxReq) (s : State) : Host.Outcome State Fault Refusal :=
  .next (cap q s)

/-- RETIRE_COL (R493). -/
def execRetireCol (q : MboxReq) (s : State) : Host.Outcome State Fault Refusal :=
  .next (retireCol q s)

/-- TALLY_READ (R231). -/
def execTallyRead (q : MboxReq) (s : State) : Host.Outcome State Fault Refusal :=
  .next (tallyRead q s)

/-- TALLY_CLEAR (R231). -/
def execTallyClear (q : MboxReq) (s : State) : Host.Outcome State Fault Refusal :=
  .next (tallyClear q s)

/-- LC_REQUEST (R470). -/
def execLcRequest (q : MboxReq) (s : State) : Host.Outcome State Fault Refusal :=
  .next (lcRequest q s)

/-- DEBUG_TOKEN (R480). -/
def execDebugToken (q : MboxReq) (s : State) : Host.Outcome State Fault Refusal :=
  .next (debugToken q s)

/-- RESTART (R493). -/
def execRestart (q : MboxReq) (s : State) : Host.Outcome State Fault Refusal :=
  .next (restartMbox q s)

/-- IMAGE_UPDATE (R493). -/
def execImageUpdate (q : MboxReq) (s : State) : Host.Outcome State Fault Refusal :=
  .next (imageUpdate q s)

/-- WAKE (R495). -/
def execWake (q : MboxReq) (s : State) : Host.Outcome State Fault Refusal :=
  .next (wake q s)

end Sys2Proof.Machine
end

