-- ==== Sys2Proof/Machine/Spdm.lean ====
section
/-! DEFINITION. The management interface below the mailbox: MCTP control and the SPDM responder (R474, R481 to R485). -/
namespace Sys2Proof.Machine

def setSpdm (s : State) (x : SpdmSt) : State := { s with spdm := x }

/-- The management interface answers: the security controller is powered. -/
def mgmtUp (s : State) : Bool := !s.pwr.dormant && s.boot.phase != .held

/-- Cryptographic services: not in the error state, and not in Decommissioned. -/
def cryptoUp (s : State) : Bool := !isSet s F.SEC_SELFTEST_FAIL && decide (s.fuses.lc ≠ 4)

/-! ### MCTP control (R481) -/

/-- SET_ENDPOINT_ID. -/
def setEndpointId (op eid : Nat) (s : State) : State :=
  if !mgmtUp s then s
  else if op < 2 ∧ 8 ≤ eid ∧ eid < 255 then emit (setSpdm s { s.spdm with eid := eid }) (.mctp 0 (leBytes 0 1 ++ leBytes eid 1 ++ leBytes 0 1))
  else emit s (.mctp 2 [])

/-- GET_ENDPOINT_ID. -/
def getEndpointId (s : State) : State :=
  if !mgmtUp s then s else emit s (.mctp 0 (leBytes s.spdm.eid 1 ++ leBytes 0 2))

/-- Message types supported beside MCTP control. -/
def mctpTypes : List Nat := [0x05, 0x06, 0x7E]

/-- GET_MCTP_VERSION_SUPPORT of a message type: 1.3 for the base and for control; the spec states no version of the others' bindings. -/
def getMctpVersionSupport (type : Nat) (s : State) : State :=
  if !mgmtUp s then s
  else if type = 0xFF ∨ type = 0 then emit s (.mctp 0 (leBytes 1 1 ++ [0xF1#8, 0xF3#8, 0xF0#8, 0x00#8]))
  else if mctpTypes.contains type then
    let (v, s) := freeVal s 32
    emit s (.mctp 0 (leBytes 1 1 ++ leBytes v 4))
  else emit s (.mctp 0x80 [])

/-- GET_MESSAGE_TYPE_SUPPORT. -/
def getMessageTypeSupport (s : State) : State :=
  if !mgmtUp s then s else emit s (.mctp 0 (leBytes mctpTypes.length 1 ++ mctpTypes.flatMap (fun t => leBytes t 1)))

/-! ### SPDM outside a session (R482, R483) -/

/-- An ERROR response. -/
def spdmError (q : SpdmReq) (code : Nat) (s : State) : State := emit s (.spdm q.session 0x7F code 0 [])

/-- `n` octets of which the spec states no value: nonces, keys, signatures. -/
def freeBytes : Nat → State → List Byte × State
  | 0, s => ([], s)
  | n + 1, s =>
    let (v, s) := freeVal s 8
    let (l, s) := freeBytes n s
    (leBytes v 1 ++ l, s)

/-- The chain of certificate slot 0. -/
def certChain (s : State) : List Byte :=
  match s.spdm.alias_ with
  | some n => s.nor.identity ++ Config.aliasCert (deviceKey s) n
  | none => s.nor.identity

def chainDigest (s : State) : List Byte := (leBytes (sha384 (certChain s)) 48).reverse

/-- GET_VERSION: 1.2; negotiation starts afresh. -/
def getVersion (q : SpdmReq) (s : State) : State :=
  if !mgmtUp s then s else emit (setSpdm s { s.spdm with stage := 1 }) (.spdm q.session 0x04 0 0 (leBytes 0 1 ++ leBytes 1 1 ++ leBytes 0x1200 2))

/-- CERT, CHAL, MEAS with signature, ENCRYPT, MAC, KEY_EX, HBEAT and KEY_UPD. -/
def capabilityFlags : Nat := 2 ^ 1 + 2 ^ 2 + 2 ^ 4 + 2 ^ 6 + 2 ^ 7 + 2 ^ 9 + 2 ^ 13 + 2 ^ 14

/-- GET_CAPABILITIES. -/
def getCapabilities (q : SpdmReq) (s : State) : State :=
  if !mgmtUp s then s
  else if s.spdm.stage = 0 then spdmError q 4 s
  else emit (setSpdm s { s.spdm with stage := max 2 s.spdm.stage }) (.spdm q.session 0x61 0 0 (leBytes capabilityFlags 4))

/-- NEGOTIATE_ALGORITHMS: ECDSA P-384, SHA-384, secp384r1, AES-256-GCM. -/
def negotiateAlgorithms (q : SpdmReq) (s : State) : State :=
  if !mgmtUp s then s
  else if s.spdm.stage < 2 then spdmError q 4 s
  else emit (setSpdm s { s.spdm with stage := 3 }) (.spdm q.session 0x63 0 0 (leBytes 0x80 4 ++ leBytes 2 4 ++ leBytes 0x10 2 ++ leBytes 2 2))

/-- Requests need negotiated algorithms; those that only read certificates, digests and unsigned measurements need no key, and safe mode serves them too
(R467, R483). -/
def spdmReads (s : State) : Bool := s.spdm.stage == 3 && !isSet s F.SEC_SELFTEST_FAIL

/-- Requests that use a key need the alias key (R474). -/
def spdmReady (s : State) : Bool := spdmReads s && cryptoUp s && s.spdm.alias_.isSome

/-- GET_DIGESTS. -/
def getDigests (q : SpdmReq) (s : State) : State :=
  if !mgmtUp s then s
  else if !spdmReads s then spdmError q 4 s
  else emit s (.spdm q.session 0x01 0 1 (chainDigest s))

/-- GET_CERTIFICATE of `len` octets of slot P1's chain from `off`: slot 0 alone holds one. -/
def getCertificate (q : SpdmReq) (off len : Nat) (s : State) : State :=
  if !mgmtUp s then s
  else if !spdmReads s then spdmError q 4 s
  else
    let c := certChain s
    if q.p1 ≠ 0 ∨ c.length ≤ off then spdmError q 1 s
    else
      let part := slice c off (min len 65535)
      emit s (.spdm q.session 0x02 0 0 (leBytes part.length 2 ++ leBytes (c.length - off - part.length) 2 ++ part))

/-- CHALLENGE: digest, nonce, signature. -/
def challenge (q : SpdmReq) (s : State) : State :=
  if !mgmtUp s then s
  else if !spdmReady s then spdmError q 4 s
  else if q.p1 ≠ 0 then spdmError q 1 s
  else
    let (l, s) := freeBytes 128 s
    emit s (.spdm q.session 0x03 0 1 (chainDigest s ++ l))

/-- A measurement block: its index and digest. -/
def measureBlock (s : State) (index : Nat) : List Byte := leBytes index 1 ++ measureBytes s index

/-- GET_MEASUREMENTS: the block of index P2, every block for 0xFF, only their number for 0; signed where bit 0 of P1 asks for it. -/
def getMeasurements (q : SpdmReq) (s : State) : State :=
  if !mgmtUp s then s
  else if !spdmReads s || (q.p1 % 2 = 1 && !spdmReady s) then spdmError q 4 s
  else if 8 < q.p2 ∧ q.p2 ≠ 0xFF then spdmError q 1 s
  else
    let data := if q.p2 = 0 then [] else if q.p2 = 0xFF then (List.range 8).flatMap (fun i => measureBlock s (i + 1)) else measureBlock s q.p2
    let n := if q.p2 = 0 then 8 else 0
    let (sig, s) := if q.p1 % 2 = 1 then freeBytes 128 s else ([], s)
    emit s (.spdm q.session 0x60 n 0 (data ++ sig))

/-! ### Secured sessions (R482) -/

/-- Stores the sessions, and shows how many are open. -/
def setSessions (s : State) (l : List SpdmSession) : State :=
  let n := (l.filter (fun x => x.open_)).length
  setF (setBool (setSpdm s { s.spdm with sessions := l }) F.SEC_STAT_SESSION (decide (n ≠ 0))) F.SEC_SPDM_SESSIONS n

/-- KEY_EXCHANGE: a session begins, at most two at once; the response announces the heartbeat period of 60 s. -/
def keyExchange (q : SpdmReq) (s : State) : State :=
  if !mgmtUp s then s
  else if !spdmReady s ∨ q.session.isSome then spdmError q 4 s
  else if q.p2 ≠ 0 then spdmError q 1 s
  else if 2 ≤ s.spdm.sessions.length then spdmError q 0x0A s
  else
    let id := s.spdm.nextId
    let s := setSpdm s { s.spdm with nextId := id + 1, sessions := s.spdm.sessions ++ [{ id := id }] }
    let (l, s) := freeBytes 272 s
    emit s (.spdm (some id) 0x64 60 0 (leBytes id 2 ++ l))

/-- FINISH: the key exchange of a session is confirmed, and the session is open; one that does not verify ends it. -/
def finish (q : SpdmReq) (verified : Bool) (s : State) : State :=
  if !mgmtUp s then s
  else match q.session with
    | none => spdmError q 4 s
    | some id =>
      if !cryptoUp s || !s.spdm.sessions.any (fun x => x.id == id && !x.open_) then spdmError q 4 s
      else if verified then
        let s := setSessions s (s.spdm.sessions.map (fun x => if x.id = id then { x with open_ := true, beatAt := devNow s } else x))
        emit s (.spdm q.session 0x65 0 0 [])
      else spdmError q 6 (setSessions s (s.spdm.sessions.filter (fun x => x.id != id)))

/-- A request of an open session: what it does there, and its acknowledgement. -/
def inSession (q : SpdmReq) (code : Nat) (f : SpdmSession → Option SpdmSession) (s : State) : State :=
  if !mgmtUp s then s
  else match q.session with
    | none => spdmError q 4 s
    | some id =>
      if !cryptoUp s || !sessionOpen s id then spdmError q 4 s
      else emit (setSessions s (s.spdm.sessions.filterMap (fun x => if x.id = id then f x else some x))) (.spdm q.session code q.p1 q.p2 [])

/-- HEARTBEAT. -/
def heartbeat (q : SpdmReq) (s : State) : State := inSession q 0x68 (fun x => some { x with beatAt := devNow s }) s

/-- KEY_UPDATE: P1 names the operation: update, update all, or verify. -/
def keyUpdate (q : SpdmReq) (s : State) : State :=
  if q.p1 = 0 ∨ 3 < q.p1 then (if mgmtUp s then spdmError q 1 s else s)
  else inSession q 0x69 (fun x => some (if q.p1 = 3 then x else { x with keyUpdates := x.keyUpdates + 1 })) s

/-- END_SESSION. -/
def endSession (q : SpdmReq) (s : State) : State := inSession q 0x6C (fun _ => none) s

/-- HEARTBEAT_EXPIRY: a session without a heartbeat for its period of 60 s ends. -/
def heartbeatExpiry (id : Nat) (s : State) : State :=
  if !mgmtUp s then s
  else setSessions s (s.spdm.sessions.filter (fun x => !(x.id == id && x.open_ && decide (x.beatAt + 60000000000 ≤ devNow s))))

/-- ENTROPY_HEALTH_TEST_FAIL: the error state (R485). -/
def entropyHealthTestFail (s : State) : State :=
  if !mgmtUp s then s
  else
    let s := raise (setSessions s []) F.SEC_SELFTEST_FAIL
    if s.boot.phase = .running then failStart s 2
    else if s.boot.phase = .safe then setF s F.BOOT_REC_FAIL_CAUSE 2
    else enterSafe (stampEvent (setF s F.BOOT_REC_FAIL_CAUSE 2) srcSecurity (.security 3))

end Sys2Proof.Machine
end

