-- ==== Sys2Proof/Machine/ManagementCommands.lean ====
section
/-! DEFINITION. The meanings of the commands of MCTP control and SPDM. -/
namespace Sys2Proof.Machine

/-- SET_ENDPOINT_ID (R481). -/
def execSetEndpointId (op eid : Nat) (s : State) : Host.Outcome State Fault Refusal :=
  .next (setEndpointId op eid s)

/-- GET_ENDPOINT_ID (R481). -/
def execGetEndpointId (s : State) : Host.Outcome State Fault Refusal :=
  .next (getEndpointId s)

/-- GET_MCTP_VERSION_SUPPORT (R481). -/
def execGetMctpVersionSupport (type : Nat) (s : State) : Host.Outcome State Fault Refusal :=
  .next (getMctpVersionSupport type s)

/-- GET_MESSAGE_TYPE_SUPPORT (R481). -/
def execGetMessageTypeSupport (s : State) : Host.Outcome State Fault Refusal :=
  .next (getMessageTypeSupport s)

/-- GET_CERTIFICATE (R482). -/
def execGetCertificate (q : SpdmReq) (off len : Nat) (s : State) : Host.Outcome State Fault Refusal :=
  .next (getCertificate q off len s)

/-- CHALLENGE (R482). -/
def execChallenge (q : SpdmReq) (s : State) : Host.Outcome State Fault Refusal :=
  .next (challenge q s)

/-- GET_MEASUREMENTS (R483). -/
def execGetMeasurements (q : SpdmReq) (s : State) : Host.Outcome State Fault Refusal :=
  .next (getMeasurements q s)

/-- KEY_EXCHANGE (R482). -/
def execKeyExchange (q : SpdmReq) (s : State) : Host.Outcome State Fault Refusal :=
  .next (keyExchange q s)

/-- HEARTBEAT (R482). -/
def execHeartbeat (q : SpdmReq) (s : State) : Host.Outcome State Fault Refusal :=
  .next (heartbeat q s)

/-- KEY_UPDATE (R482). -/
def execKeyUpdate (q : SpdmReq) (s : State) : Host.Outcome State Fault Refusal :=
  .next (keyUpdate q s)

/-- ENTROPY_HEALTH_TEST_FAIL (R485). -/
def execEntropyHealthTestFail (s : State) : Host.Outcome State Fault Refusal :=
  .next (entropyHealthTestFail s)

/-- GET_VERSION (R482). -/
def execGetVersion (q : SpdmReq) (s : State) : Host.Outcome State Fault Refusal :=
  .next (getVersion q s)

/-- GET_CAPABILITIES (R482). -/
def execGetCapabilities (q : SpdmReq) (s : State) : Host.Outcome State Fault Refusal :=
  .next (getCapabilities q s)

/-- NEGOTIATE_ALGORITHMS (R482). -/
def execNegotiateAlgorithms (q : SpdmReq) (s : State) : Host.Outcome State Fault Refusal :=
  .next (negotiateAlgorithms q s)

/-- GET_DIGESTS (R482). -/
def execGetDigests (q : SpdmReq) (s : State) : Host.Outcome State Fault Refusal :=
  .next (getDigests q s)

/-- FINISH (R482). -/
def execFinish (q : SpdmReq) (verified : Bool) (s : State) : Host.Outcome State Fault Refusal :=
  .next (finish q verified s)

/-- END_SESSION (R482). -/
def execEndSession (q : SpdmReq) (s : State) : Host.Outcome State Fault Refusal :=
  .next (endSession q s)

/-- HEARTBEAT_EXPIRY (R482). -/
def execHeartbeatExpiry (id : Nat) (s : State) : Host.Outcome State Fault Refusal :=
  .next (heartbeatExpiry id s)

end Sys2Proof.Machine
end

