-- ==== Sys2Proof/Machine/PowerCommands.lean ====
section
/-! DEFINITION. The meanings of the commands of power and thermal control. -/
namespace Sys2Proof.Machine

/-- LOUVRE_CHANGE (R436). -/
def execLouvreChange (level : Nat) (s : State) : Host.Outcome State Fault Refusal :=
  .next (louvreChange level s)

/-- DORMANT_REQUEST (R442). -/
def execDormantRequest (r : Requester) (s : State) : Host.Outcome State Fault Refusal :=
  .next (dormantRequest r s)

/-- ESTIMATOR_UPDATE (R423). -/
def execEstimatorUpdate (a : Activity) (s : State) : Host.Outcome State Fault Refusal :=
  .next (estimatorUpdate a s)

/-- POWER_MEASUREMENT (R425). -/
def execPowerMeasurement (m amps : Nat) (s : State) : Host.Outcome State Fault Refusal :=
  .next (powerMeasurement m amps s)

/-- CAP_SLEW_STEP (R426). -/
def execCapSlewStep (s : State) : Host.Outcome State Fault Refusal :=
  .next (capSlewStep s)

/-- RAIL_READING (R424). -/
def execRailReading (r mv da : Nat) (s : State) : Host.Outcome State Fault Refusal :=
  .next (railReading r mv da s)

/-- OP_RAMP_STEP (R421). -/
def execOpRampStep (mv : Nat) (s : State) : Host.Outcome State Fault Refusal :=
  .next (opRampStep mv s)

/-- DROOP (R432). -/
def execDroop (v : Nat) (s : State) : Host.Outcome State Fault Refusal :=
  .next (droop v s)

/-- DROOP_END (R432). -/
def execDroopEnd (ac : Nat) (s : State) : Host.Outcome State Fault Refusal :=
  .next (droopEnd ac s)

/-- THROTTLE_STEP (R437). -/
def execThrottleStep (s : State) : Host.Outcome State Fault Refusal :=
  .next (throttleStep s)

/-- THROTTLE_RELEASE_STEP (R437). -/
def execThrottleReleaseStep (s : State) : Host.Outcome State Fault Refusal :=
  .next (throttleReleaseStep s)

/-- REGULATOR_PHASE_FAULT (R439). -/
def execRegulatorPhaseFault (n : Nat) (s : State) : Host.Outcome State Fault Refusal :=
  .next (regulatorPhaseFault n s)

/-- TEL_CLEAR (R447). -/
def execTelClear (droop min_ peak : Bool) (s : State) : Host.Outcome State Fault Refusal :=
  .next (telClear droop min_ peak s)

/-- MONITOR_UPDATE (R445). -/
def execMonitorUpdate (r : Reading) (s : State) : Host.Outcome State Fault Refusal :=
  .next (monitorUpdate r s)

end Sys2Proof.Machine
end

