-- ==== Sys2Proof/Machine/RegisterCommands.lean ====
section
/-! DEFINITION. The meanings of the commands of register accesses and board accesses. -/
namespace Sys2Proof.Machine

/-- REGISTER_WRITE (R21). -/
def execRegisterWrite (r : Requester) (off size : Nat) (v : Nat × Nat) (s : State) : Host.Outcome State Fault Refusal :=
  .next (registerWrite r off size v.1 v.2 s)

/-- LO_REGISTER_READ (R83). -/
def execLoRegisterRead (r : Requester) (off size : Nat) (s : State) : Host.Outcome State Fault Refusal :=
  .next (loRegisterRead r off size s)

/-- TICK_CAPTURE (R83). -/
def execTickCapture (s : State) : Host.Outcome State Fault Refusal :=
  .next (tickCapture s)

/-- BOARD_ACCESS (R44). -/
def execBoardAccess (r : Requester) (src addr : Nat) (op : BoardOp) (s : State) : Host.Outcome State Fault Refusal :=
  .next (boardAccess r src addr op s)

/-- BOARD_REQUEST_TIMEOUT (R341). -/
def execBoardRequestTimeout (p : Nat) (s : State) : Host.Outcome State Fault Refusal :=
  .next (boardRequestTimeout p s)

end Sys2Proof.Machine
end

