-- ==== Sys2Proof/Machine/SpanCommands.lean ====
section
/-! DEFINITION. The meanings of the commands of spans: control messages, announcements, span loads. -/
namespace Sys2Proof.Machine

/-- STRETCH_REQ (R68). -/
def execStretchReq (m : CtrlMsg) (s : State) : Host.Outcome State Fault Refusal :=
  .next (stretchReq m s)

/-- STRETCH_GRANT (R69). -/
def execStretchGrant (m : CtrlMsg) (s : State) : Host.Outcome State Fault Refusal :=
  .next (stretchGrant m s)

/-- FRAME_REPORT (R370). -/
def execFrameReport (m : CtrlMsg) (s : State) : Host.Outcome State Fault Refusal :=
  .next (frameReport m s)

/-- FAULT_NOTICE (R368). -/
def execFaultNotice (m : CtrlMsg) (s : State) : Host.Outcome State Fault Refusal :=
  .next (faultNotice m s)

/-- DECISION (R370). -/
def execDecision (m : CtrlMsg) (s : State) : Host.Outcome State Fault Refusal :=
  .next (decision m s)

/-- ALIGN_REPORT (R375). -/
def execAlignReport (m : CtrlMsg) (s : State) : Host.Outcome State Fault Refusal :=
  .next (alignReport m s)

/-- ALIGN_GRACE_EXPIRY (R375). -/
def execAlignGraceExpiry (ord : Nat) (s : State) : Host.Outcome State Fault Refusal :=
  .next (alignGraceExpiry ord s)

/-- MEMBER_REPORT_MISSING (R375). -/
def execMemberReportMissing (ord : Nat) (s : State) : Host.Outcome State Fault Refusal :=
  .next (memberReportMissing ord s)

/-- LINK_LOST (R375). -/
def execLinkLost (m : CtrlMsg) (s : State) : Host.Outcome State Fault Refusal :=
  .next (linkLost m s)

/-- LEAVE (R375). -/
def execLeave (m : CtrlMsg) (s : State) : Host.Outcome State Fault Refusal :=
  .next (leave m s)

/-- MEMBER_LOST (R376). -/
def execMemberLost (m : CtrlMsg) (s : State) : Host.Outcome State Fault Refusal :=
  .next (memberLostMsg m s)

/-- SELF_ISOLATION (R377). -/
def execSelfIsolation (s : State) : Host.Outcome State Fault Refusal :=
  .next (selfIsolation s)

/-- ANNOUNCE (R352). -/
def execAnnounce (m : CtrlMsg) (s : State) : Host.Outcome State Fault Refusal :=
  .next (announce m s)

/-- ANNOUNCE_APPLY (R303). -/
def execAnnounceApply (subject : Nat) (s : State) : Host.Outcome State Fault Refusal :=
  .next (announceApply subject s)

/-- LOAD_REPORT (R364). -/
def execLoadReport (m : CtrlMsg) (s : State) : Host.Outcome State Fault Refusal :=
  .next (loadReportMsg m s)

/-- TAKEOVER (R379). -/
def execTakeover (m : CtrlMsg) (s : State) : Host.Outcome State Fault Refusal :=
  .next (takeover m s)

/-- MASTER_LOSS_TIMEOUT (R379). -/
def execMasterLossTimeout (s : State) : Host.Outcome State Fault Refusal :=
  .next (masterLossTimeout s)

/-- TAKEOVER_TIMEOUT (R379). -/
def execTakeoverTimeout (s : State) : Host.Outcome State Fault Refusal :=
  .next (takeoverTimeout s)

/-- SPAN_RECEIVE_COMPLETE (R359). -/
def execSpanReceiveComplete (ref : Nat) (s : State) : Host.Outcome State Fault Refusal :=
  .next (spanReceiveComplete ref s)

/-- SPAN_LOAD (R307). -/
def execSpanLoad (x : LoadStep) (s : State) : Host.Outcome State Fault Refusal :=
  .next (spanLoad x s)

end Sys2Proof.Machine
end

