-- ==== Sys2Proof/Machine/StewardCommands.lean ====
section
/-! DEFINITION. The meanings of the commands of stewards and tickets. -/
namespace Sys2Proof.Machine

/-- WATCHDOG_EXPIRY (R489). -/
def execWatchdogExpiry (n restartAt : Nat) (s : State) : Host.Outcome State Fault Refusal :=
  .next (watchdogExpiry n restartAt s)

/-- STEWARD_RESTART (R489). -/
def execStewardRestart (n : Nat) (s : State) : Host.Outcome State Fault Refusal :=
  .next (stewardRestart n s)

/-- BATCH_OPEN (R496). -/
def execBatchOpen (kind count : Nat) (s : State) : Host.Outcome State Fault Refusal :=
  .next (batchOpen kind count s)

/-- TICKET_READ (R497). -/
def execTicketRead (n : Nat) (s : State) : Host.Outcome State Fault Refusal :=
  .next (ticketRead n s)

/-- TICKET_PEEK (R498). -/
def execTicketPeek (r : Requester) (s : State) : Host.Outcome State Fault Refusal :=
  .next (ticketPeek r s)

/-- TILE_COMMIT (R499). -/
def execTileCommit (n t : Nat) (s : State) : Host.Outcome State Fault Refusal :=
  .next (tileCommit n t s)

end Sys2Proof.Machine
end

