-- ==== Sys2Proof/Machine/TierCommands.lean ====
section
/-! DEFINITION. The meanings of the commands of memory tiers. -/
namespace Sys2Proof.Machine

/-- FETCH_COMPLETE (R269). -/
def execFetchComplete (model epoch : Nat) (s : State) : Host.Outcome State Fault Refusal :=
  .next (fetchComplete model epoch s)

/-- SHARD_WRITTEN (R288). -/
def execShardWritten (model epoch k : Nat) (bytes : Option (List Byte)) (s : State) : Host.Outcome State Fault Refusal :=
  .next (shardWritten model epoch k bytes s)

/-- DIGEST_COMPLETE (R294). -/
def execDigestComplete (model epoch k : Nat) (s : State) : Host.Outcome State Fault Refusal :=
  .next (digestComplete model epoch k s)

/-- FETCH_BOUND_EXPIRY (R267). -/
def execFetchBoundExpiry (model epoch : Nat) (s : State) : Host.Outcome State Fault Refusal :=
  .next (fetchBoundExpiry model epoch s)

/-- STORE_READ_COMPLETE (R260). -/
def execStoreReadComplete (ctrl lba model epoch : Nat) (e : ReadEnd) (s : State) : Host.Outcome State Fault Refusal :=
  .next (storeReadComplete ctrl lba model epoch e s)

/-- STORE_READ_TIMEOUT (R255). -/
def execStoreReadTimeout (ctrl lba model epoch : Nat) (s : State) : Host.Outcome State Fault Refusal :=
  .next (storeReadTimeout ctrl lba model epoch s)

/-- STORE_CONTROLLER_DROP (R260). -/
def execStoreControllerDrop (ctrl : Nat) (s : State) : Host.Outcome State Fault Refusal :=
  .next (storeControllerDrop ctrl s)

/-- LOG_PAGE_POLL (R255). -/
def execLogPagePoll (s : State) : Host.Outcome State Fault Refusal :=
  .next (logPagePoll s)

/-- NEAR_READ_UNCORRECTABLE (R239). -/
def execNearReadUncorrectable (n addr : Nat) (errs : List Nat) (onDie : Nat) (s : State) : Host.Outcome State Fault Refusal :=
  .next (nearReadUncorrectable n addr errs onDie s)

/-- NEAR_STACK_LOSS (R239). -/
def execNearStackLoss (n : Nat) (s : State) : Host.Outcome State Fault Refusal :=
  .next (nearStackLoss n s)

/-- BULK_SIDE_LOSS (R244). -/
def execBulkSideLoss (side : Nat) (s : State) : Host.Outcome State Fault Refusal :=
  .next (bulkSideLoss side s)

/-- PATROL_SCRUB (R240). -/
def execPatrolScrub (nearCe bulkCe : Nat) (s : State) : Host.Outcome State Fault Refusal :=
  .next (patrolScrub nearCe bulkCe s)

/-- DIGEST_SCRUB_TILE (R296). -/
def execDigestScrubTile (tile : Nat × Nat) (model epoch k : Nat) (bad : Bool) (s : State) : Host.Outcome State Fault Refusal :=
  .next (digestScrubTile tile.1 tile.2 model epoch k bad s)

/-- DECOMP_ENGINE_FAIL (R270). -/
def execDecompEngineFail (n : Nat) (s : State) : Host.Outcome State Fault Refusal :=
  .next (decompEngineFail n s)

/-- BULK_READ_UNCORRECTABLE (R243). -/
def execBulkReadUncorrectable (side addr : Nat) (word : Nat × Nat) (errs : List Nat) (s : State) : Host.Outcome State Fault Refusal :=
  .next (bulkReadUncorrectable side addr word.1 word.2 errs s)

end Sys2Proof.Machine
end

