-- ==== Sys2Proof/Machine/WeightCommands.lean ====
section
/-! DEFINITION. The meanings of the commands of weight commands. -/
namespace Sys2Proof.Machine

/-- INGEST (R291). -/
def execIngest (image : List Byte) (s : State) : Host.Outcome State Fault Refusal :=
  .next (ingest image s)

/-- RETIRE (R292). -/
def execRetire (s : State) : Host.Outcome State Fault Refusal :=
  .next (retire s)

/-- SWITCH (R301). -/
def execSwitch (resident : Bool) (s : State) : Host.Outcome State Fault Refusal :=
  .next (switch resident s)

/-- STAGE (R300). -/
def execStage (s : State) : Host.Outcome State Fault Refusal :=
  .next (stage s)

/-- UNSTAGE (R300). -/
def execUnstage (s : State) : Host.Outcome State Fault Refusal :=
  .next (unstage s)

/-- QUERY (R290). -/
def execQuery (s : State) : Host.Outcome State Fault Refusal :=
  .next (query s)

/-- WGT_CMD_END (R289). -/
def execWgtCmdEnd (s : State) : Host.Outcome State Fault Refusal :=
  .next (wgtCmdEnd s)

end Sys2Proof.Machine
end

