-- ==== Sys2Proof/Machine/Dispatch.lean ====
section
/-! DEFINITION. What each command does to everything but the queue: one direct call of its meaning for each. -/
namespace Sys2Proof.Machine

def exec (i : Instr) (s : State) : Host.Outcome State Fault Refusal :=
  match i with
  | .registerWrite r off size v => Sys2Proof.Machine.execRegisterWrite r off size v s
  | .loRegisterRead r off size => Sys2Proof.Machine.execLoRegisterRead r off size s
  | .tickCapture => Sys2Proof.Machine.execTickCapture s
  | .boardAccess r src addr op => Sys2Proof.Machine.execBoardAccess r src addr op s
  | .boardRequestTimeout p => Sys2Proof.Machine.execBoardRequestTimeout p s
  | .tick => Sys2Proof.Machine.execTick s
  | .periodChange => Sys2Proof.Machine.execPeriodChange s
  | .scheduleCycle x => Sys2Proof.Machine.execScheduleCycle x s
  | .ingressShutterClose => Sys2Proof.Machine.execIngressShutterClose s
  | .drainSample edge output => Sys2Proof.Machine.execDrainSample edge output s
  | .drainVerdict => Sys2Proof.Machine.execDrainVerdict s
  | .drainHoldTimeout => Sys2Proof.Machine.execDrainHoldTimeout s
  | .emptyFrameFlip => Sys2Proof.Machine.execEmptyFrameFlip s
  | .frameNaming fold => Sys2Proof.Machine.execFrameNaming fold s
  | .casementLoadDone nearUe => Sys2Proof.Machine.execCasementLoadDone nearUe s
  | .paneLoadDone => Sys2Proof.Machine.execPaneLoadDone s
  | .checkOnlyPass model epoch cid nearUe => Sys2Proof.Machine.execCheckOnlyPass model epoch cid nearUe s
  | .modeRequest target r => Sys2Proof.Machine.execModeRequest target r s
  | .modeChangeApply => Sys2Proof.Machine.execModeChangeApply s
  | .stretchReq m => Sys2Proof.Machine.execStretchReq m s
  | .stretchGrant m => Sys2Proof.Machine.execStretchGrant m s
  | .frameReport m => Sys2Proof.Machine.execFrameReport m s
  | .faultNotice m => Sys2Proof.Machine.execFaultNotice m s
  | .decision m => Sys2Proof.Machine.execDecision m s
  | .alignReport m => Sys2Proof.Machine.execAlignReport m s
  | .alignGraceExpiry ord => Sys2Proof.Machine.execAlignGraceExpiry ord s
  | .memberReportMissing ord => Sys2Proof.Machine.execMemberReportMissing ord s
  | .linkLost m => Sys2Proof.Machine.execLinkLost m s
  | .leave m => Sys2Proof.Machine.execLeave m s
  | .memberLost m => Sys2Proof.Machine.execMemberLost m s
  | .selfIsolation => Sys2Proof.Machine.execSelfIsolation s
  | .announce m => Sys2Proof.Machine.execAnnounce m s
  | .announceApply subject => Sys2Proof.Machine.execAnnounceApply subject s
  | .loadReport m => Sys2Proof.Machine.execLoadReport m s
  | .takeover m => Sys2Proof.Machine.execTakeover m s
  | .masterLossTimeout => Sys2Proof.Machine.execMasterLossTimeout s
  | .takeoverTimeout => Sys2Proof.Machine.execTakeoverTimeout s
  | .spanReceiveComplete ref => Sys2Proof.Machine.execSpanReceiveComplete ref s
  | .syncExchange p => Sys2Proof.Machine.execSyncExchange p s
  | .syncReceive p m arrival => Sys2Proof.Machine.execSyncReceive p m arrival s
  | .roundTransmit p => Sys2Proof.Machine.execRoundTransmit p s
  | .flitReceive p x => Sys2Proof.Machine.execFlitReceive p x s
  | .replayTimeout p => Sys2Proof.Machine.execReplayTimeout p s
  | .nakResendTimeout p => Sys2Proof.Machine.execNakResendTimeout p s
  | .laneDrop p l cause => Sys2Proof.Machine.execLaneDrop p l cause s
  | .portLeaveUp p notice => Sys2Proof.Machine.execPortLeaveUp p notice s
  | .retrainComplete p r => Sys2Proof.Machine.execRetrainComplete p r s
  | .retrainTimeout p => Sys2Proof.Machine.execRetrainTimeout p s
  | .downRetry p => Sys2Proof.Machine.execDownRetry p s
  | .linkTraining p r => Sys2Proof.Machine.execLinkTraining p r s
  | .trainingTimeout p => Sys2Proof.Machine.execTrainingTimeout p s
  | .lossBase p => Sys2Proof.Machine.execLossBase p s
  | .lossEstimateUpdate p l est => Sys2Proof.Machine.execLossEstimateUpdate p l est s
  | .linkRetrainCmd p => Sys2Proof.Machine.execLinkRetrainCmd p s
  | .linkTestEnter p => Sys2Proof.Machine.execLinkTestEnter p s
  | .linkTestLeave p => Sys2Proof.Machine.execLinkTestLeave p s
  | .linkCountClear p eye lane port => Sys2Proof.Machine.execLinkCountClear p eye lane port s
  | .eyeScanStart p l => Sys2Proof.Machine.execEyeScanStart p l s
  | .eyeScanDone p l eyes => Sys2Proof.Machine.execEyeScanDone p l eyes s
  | .run x => Sys2Proof.Machine.execRun x s
  | .close x => Sys2Proof.Machine.execClose x s
  | .subDoorbell r tail => Sys2Proof.Machine.execSubDoorbell r tail s
  | .ringEnable r v => Sys2Proof.Machine.execRingEnable r v s
  | .ringDisable r v => Sys2Proof.Machine.execRingDisable r v s
  | .rcptHeadWrite r head refused => Sys2Proof.Machine.execRcptHeadWrite r head refused s
  | .cmplHeadWrite r head refused => Sys2Proof.Machine.execCmplHeadWrite r head refused s
  | .retireWrite cj hi => Sys2Proof.Machine.execRetireWrite cj hi s
  | .recover => Sys2Proof.Machine.execRecover s
  | .recoveryComplete accs comps => Sys2Proof.Machine.execRecoveryComplete accs comps s
  | .completionRecord aseq refused => Sys2Proof.Machine.execCompletionRecord aseq refused s
  | .fetchComplete model epoch => Sys2Proof.Machine.execFetchComplete model epoch s
  | .shardWritten model epoch k bytes => Sys2Proof.Machine.execShardWritten model epoch k bytes s
  | .digestComplete model epoch k => Sys2Proof.Machine.execDigestComplete model epoch k s
  | .fetchBoundExpiry model epoch => Sys2Proof.Machine.execFetchBoundExpiry model epoch s
  | .storeReadComplete ctrl lba model epoch e => Sys2Proof.Machine.execStoreReadComplete ctrl lba model epoch e s
  | .storeReadTimeout ctrl lba model epoch => Sys2Proof.Machine.execStoreReadTimeout ctrl lba model epoch s
  | .storeControllerDrop ctrl => Sys2Proof.Machine.execStoreControllerDrop ctrl s
  | .logPagePoll => Sys2Proof.Machine.execLogPagePoll s
  | .nearReadUncorrectable n addr errs onDie => Sys2Proof.Machine.execNearReadUncorrectable n addr errs onDie s
  | .nearStackLoss n => Sys2Proof.Machine.execNearStackLoss n s
  | .bulkSideLoss side => Sys2Proof.Machine.execBulkSideLoss side s
  | .patrolScrub nearCe bulkCe => Sys2Proof.Machine.execPatrolScrub nearCe bulkCe s
  | .ingest image => Sys2Proof.Machine.execIngest image s
  | .retire => Sys2Proof.Machine.execRetire s
  | .switch resident => Sys2Proof.Machine.execSwitch resident s
  | .stage => Sys2Proof.Machine.execStage s
  | .unstage => Sys2Proof.Machine.execUnstage s
  | .query => Sys2Proof.Machine.execQuery s
  | .wgtCmdEnd => Sys2Proof.Machine.execWgtCmdEnd s
  | .spanLoad x => Sys2Proof.Machine.execSpanLoad x s
  | .digestScrubTile tile model epoch k bad => Sys2Proof.Machine.execDigestScrubTile tile model epoch k bad s
  | .ejectWarning => Sys2Proof.Machine.execEjectWarning s
  | .ejectFinish => Sys2Proof.Machine.execEjectFinish s
  | .pinLatchEdge p => Sys2Proof.Machine.execPinLatchEdge p s
  | .wakeAlarm => Sys2Proof.Machine.execWakeAlarm s
  | .louvreChange level => Sys2Proof.Machine.execLouvreChange level s
  | .dormantRequest r => Sys2Proof.Machine.execDormantRequest r s
  | .estimatorUpdate a => Sys2Proof.Machine.execEstimatorUpdate a s
  | .powerMeasurement m amps => Sys2Proof.Machine.execPowerMeasurement m amps s
  | .capSlewStep => Sys2Proof.Machine.execCapSlewStep s
  | .railReading r mv da => Sys2Proof.Machine.execRailReading r mv da s
  | .opRampStep mv => Sys2Proof.Machine.execOpRampStep mv s
  | .droop v => Sys2Proof.Machine.execDroop v s
  | .droopEnd ac => Sys2Proof.Machine.execDroopEnd ac s
  | .throttleStep => Sys2Proof.Machine.execThrottleStep s
  | .throttleReleaseStep => Sys2Proof.Machine.execThrottleReleaseStep s
  | .thermalTrip => Sys2Proof.Machine.execThermalTrip s
  | .regulatorPhaseFault n => Sys2Proof.Machine.execRegulatorPhaseFault n s
  | .supplyLow => Sys2Proof.Machine.execSupplyLow s
  | .supplyFail => Sys2Proof.Machine.execSupplyFail s
  | .auxPowerLoss => Sys2Proof.Machine.execAuxPowerLoss s
  | .auxPowerOn => Sys2Proof.Machine.execAuxPowerOn s
  | .mainPowerOn => Sys2Proof.Machine.execMainPowerOn s
  | .railStartFail => Sys2Proof.Machine.execRailStartFail s
  | .railOutOfRegulation r => Sys2Proof.Machine.execRailOutOfRegulation r s
  | .sysRstN asserted => Sys2Proof.Machine.execSysRstN asserted s
  | .perstN asserted => Sys2Proof.Machine.execPerstN asserted s
  | .start => Sys2Proof.Machine.execStart s
  | .bootStepComplete d => Sys2Proof.Machine.execBootStepComplete d s
  | .bootStepFail cause => Sys2Proof.Machine.execBootStepFail cause s
  | .bootRetryReset => Sys2Proof.Machine.execBootRetryReset s
  | .bootCtlRestart r => Sys2Proof.Machine.execBootCtlRestart r s
  | .clearExcl r => Sys2Proof.Machine.execClearExcl r s
  | .bootUpdStart r => Sys2Proof.Machine.execBootUpdStart r s
  | .imageUpdateDone image norError => Sys2Proof.Machine.execImageUpdateDone image norError s
  | .watchdogExpiry n restartAt => Sys2Proof.Machine.execWatchdogExpiry n restartAt s
  | .columnRetirement => Sys2Proof.Machine.execColumnRetirement s
  | .batchOpen kind count => Sys2Proof.Machine.execBatchOpen kind count s
  | .ticketRead n => Sys2Proof.Machine.execTicketRead n s
  | .ticketPeek r => Sys2Proof.Machine.execTicketPeek r s
  | .tileCommit n t => Sys2Proof.Machine.execTileCommit n t s
  | .irqFilterChange n level => Sys2Proof.Machine.execIrqFilterChange n level s
  | .irqPendSet r k v => Sys2Proof.Machine.execIrqPendSet r k v s
  | .irqPendClr r k v => Sys2Proof.Machine.execIrqPendClr r k v s
  | .claim t => Sys2Proof.Machine.execClaim t s
  | .complete t n => Sys2Proof.Machine.execComplete t n s
  | .msixSend => Sys2Proof.Machine.execMsixSend s
  | .hostEoi n => Sys2Proof.Machine.execHostEoi n s
  | .moderationExpiry t => Sys2Proof.Machine.execModerationExpiry t s
  | .msixMaskWrite v mask => Sys2Proof.Machine.execMsixMaskWrite v mask s
  | .regRead q => Sys2Proof.Machine.execRegRead q s
  | .regWrite q => Sys2Proof.Machine.execRegWrite q s
  | .cap q => Sys2Proof.Machine.execCap q s
  | .retireCol q => Sys2Proof.Machine.execRetireCol q s
  | .tallyRead q => Sys2Proof.Machine.execTallyRead q s
  | .tallyClear q => Sys2Proof.Machine.execTallyClear q s
  | .lcRequest q => Sys2Proof.Machine.execLcRequest q s
  | .debugToken q => Sys2Proof.Machine.execDebugToken q s
  | .restart q => Sys2Proof.Machine.execRestart q s
  | .imageUpdate q => Sys2Proof.Machine.execImageUpdate q s
  | .wake q => Sys2Proof.Machine.execWake q s
  | .setEndpointId op eid => Sys2Proof.Machine.execSetEndpointId op eid s
  | .getEndpointId => Sys2Proof.Machine.execGetEndpointId s
  | .getMctpVersionSupport type => Sys2Proof.Machine.execGetMctpVersionSupport type s
  | .getMessageTypeSupport => Sys2Proof.Machine.execGetMessageTypeSupport s
  | .getCertificate q off len => Sys2Proof.Machine.execGetCertificate q off len s
  | .challenge q => Sys2Proof.Machine.execChallenge q s
  | .getMeasurements q => Sys2Proof.Machine.execGetMeasurements q s
  | .keyExchange q => Sys2Proof.Machine.execKeyExchange q s
  | .heartbeat q => Sys2Proof.Machine.execHeartbeat q s
  | .keyUpdate q => Sys2Proof.Machine.execKeyUpdate q s
  | .telClear droop min_ peak => Sys2Proof.Machine.execTelClear droop min_ peak s
  | .decompEngineFail n => Sys2Proof.Machine.execDecompEngineFail n s
  | .bulkReadUncorrectable side addr word errs => Sys2Proof.Machine.execBulkReadUncorrectable side addr word errs s
  | .monitorUpdate r => Sys2Proof.Machine.execMonitorUpdate r s
  | .prbsCheckerLock p l bits rx => Sys2Proof.Machine.execPrbsCheckerLock p l bits rx s
  | .stewardRestart n => Sys2Proof.Machine.execStewardRestart n s
  | .entropyHealthTestFail => Sys2Proof.Machine.execEntropyHealthTestFail s
  | .cycleInFrameSaturation => Sys2Proof.Machine.execCycleInFrameSaturation s
  | .getVersion q => Sys2Proof.Machine.execGetVersion q s
  | .getCapabilities q => Sys2Proof.Machine.execGetCapabilities q s
  | .negotiateAlgorithms q => Sys2Proof.Machine.execNegotiateAlgorithms q s
  | .getDigests q => Sys2Proof.Machine.execGetDigests q s
  | .finish q verified => Sys2Proof.Machine.execFinish q verified s
  | .endSession q => Sys2Proof.Machine.execEndSession q s
  | .heartbeatExpiry id => Sys2Proof.Machine.execHeartbeatExpiry id s

end Sys2Proof.Machine
end

