-- ==== Sys2Proof/Machine/Idle.lean ====
section
/-! DEFINITION. What happens while no command waits (R60, R441). -/
namespace Sys2Proof.Machine

/-- While a request waits in the mailbox, the oldest is served (R494). Else device time moves on by one count of its clock: 1 ns, or 40 ns in Dormant. It
stands while the auxiliary input is out. -/
def idle (s : State) : State :=
  if !s.stw.mbox.isEmpty then serveNext s
  else if s.pins.aux then setF s F.TICK_DT (devNow s + (if s.pwr.dormant then 40 else 1)) else s

end Sys2Proof.Machine
end

