-- ==== Sys2Proof/Safety.lean ====
section
/-! DEFINITION. What statements about the module are made of: the canonical form of its maps, and that nothing but some fields changed. -/
namespace Sys2Proof.Machine

/-- The register fields, the tiers' memories and the directory are in canonical form: keys strictly rising, no entry at its default. -/
def State.fieldsCanonical (s : State) : Bool := smapWf fldReset s.flds

def State.memoryCanonical (s : State) : Bool := Memory.wf s.mem.near && Memory.wf s.mem.bulk && smapWf noEntry s.mem.dir && smapWf zeroNat s.mem.early

def State.unitsCanonical (s : State) : Bool := smapWf (idleCell s) s.cells && smapWf freshLink s.links

def State.tablesCanonical (s : State) : Bool :=
  smapWf noPane s.frame.panes && smapWf noCasement s.frame.casements && smapWf freshRing s.adm.rings && smapWf noClient s.adm.clients &&
    smapWf noStack s.irq.nested && smapWf zeroNat s.irq.heldUntil && smapWf zeroNat s.stampCnt

/-- Every register field outside `fs` reads as before. -/
def fieldsKept (fs : List Fld) (s t : State) : Prop := ∀ f : Fld, (∀ g ∈ fs, g.key ≠ f.key) → getF t f = getF s f

/-- Every byte of Near and of Bulk reads as before. -/
def tiersKept (s t : State) : Prop :=
  (∀ a, smapGet zeroByte t.mem.near a = smapGet zeroByte s.mem.near a) ∧ ∀ a, smapGet zeroByte t.mem.bulk a = smapGet zeroByte s.mem.bulk a

/-- Fields that show what stewards hold. -/
def heldFields : List Fld := [F.STW_CORE_HELD 0, F.STW_CORE_HELD 1, F.STW_CORE_HELD 2, F.STW_CORE_HELD 3, F.STW_RECLAIM_LEN]

/-- Fields that show the mailbox's traffic, and those that show a denial. -/
def mboxFields : List Fld := [F.STW_STAT_MBOX_REQ, F.STW_STAT_MBOX_DONE, F.STW_CNT_MBOX, F.STW_CNT_MBOX_ERR]

def denyFields : List Fld := [F.SEC_STAT_DENY, F.SEC_DENY_CNT, F.SEC_DENY_CAP_REQUESTER, F.SEC_DENY_CAP_ACTION]

/-- What the always-on domain alone does not hold is lost: cells, tiers, frames, requests, ports and the span start afresh; Store's catalogue stays. -/
def unitsLost (s t : State) : Prop :=
  t.cells = [] ∧ t.mem = { catalogue := s.mem.catalogue } ∧ t.frame = {} ∧ t.adm = {} ∧ t.links = [] ∧ t.span = {} ∧ t.wgt = {}

/-- What a warm reset leaves of the register fields but those in `fs`: sticky ones stay, every other takes its reset value; the reset is counted. -/
def warmFields (fs : List Fld) (s t : State) : Prop :=
  getF t F.BOOT_RESET_COUNT = min 0xFFFF (getF s F.BOOT_RESET_COUNT + 1) ∧
    ∀ f : Fld, (∀ g ∈ [F.BOOT_RESET_REASON, F.BOOT_RESET_COUNT, F.PWR_STAT_LOUVRE] ++ fs, g.key ≠ f.key) →
      getF t f = if stickyKey f.key then getF s f else fldReset f.key

/-- The counters that each bit of LNK_CNT_CLR clears: of the port, of a lane, of a lane's eyes. -/
def portCounters (p : Nat) : List Fld :=
  [F.LNK_CNT_TX p, F.LNK_CNT_RX p, F.LNK_CNT_CRC p, F.LNK_CNT_NAK p, F.LNK_CNT_REPLAY p, F.LNK_CNT_REPLAY_FLIT p,
   F.LNK_CNT_DUP p, F.LNK_CNT_ROUTE p, F.LNK_CNT_WIDTH p, F.LNK_CNT_RETRAIN p, F.LNK_CNT_BOARD_ERR p, F.LNK_CNT_SYNC_MISS p]

def laneCounters (p l : Nat) : List Fld :=
  [F.LANE_PRBS_ERR p l, F.LANE_PRBS_BITS p l, F.LANE_FEC_CW p l, F.LANE_FEC_CORR p l, F.LANE_FEC_UNCORR p l, F.LANE_FEC_SYM p l, F.LANE_FEC_MAXSYM p l]

def eyeFields (p l : Nat) : List Fld :=
  [F.LANE_EYE_UPPER_BOTTOM p l, F.LANE_EYE_UPPER_TOP p l, F.LANE_EYE_UPPER_RIGHT p l, F.LANE_EYE_UPPER_LEFT p l,
   F.LANE_EYE_MIDDLE_BOTTOM p l, F.LANE_EYE_MIDDLE_TOP p l, F.LANE_EYE_MIDDLE_RIGHT p l, F.LANE_EYE_MIDDLE_LEFT p l,
   F.LANE_EYE_LOWER_BOTTOM p l, F.LANE_EYE_LOWER_TOP p l, F.LANE_EYE_LOWER_RIGHT p l, F.LANE_EYE_LOWER_LEFT p l]

/-- A port out of service, on its way to state `st`: it carries no lane, knows no peer, and is not shown as up. -/
def portOut (t : State) (p st : Nat) : Prop :=
  portState t p = st ∧ getF t (F.LNK_WIDTH_TX_MAP p) = 0 ∧ getF t (F.LNK_WIDTH_RX_MAP p) = 0 ∧ isSet t (F.LNK_PEER_VALID p) = false ∧
    bitF t F.DEV_CAP1_LINK_UP p = false

/-- A port that has left UP to train again with its replay buffer and sequence numbers kept; `cause` shows where no earlier event is captured. -/
def leftUp (s t : State) (p cause : Nat) : Prop :=
  portOut t p 6 ∧ isSet t (F.LNK_STAT_DOWN p) = true ∧ getF t (F.LNK_CNT_RETRAIN p) = satAdd 32 (getF s (F.LNK_CNT_RETRAIN p)) 1 ∧
    (isSet s (F.LNK_STAT_WIDTH_CHG p) = false → isSet s (F.LNK_STAT_DOWN p) = false → getF t (F.LNK_FAIL_CAUSE p) = cause) ∧
    (link t p).buf = (link s p).buf ∧ (link t p).txNext = (link s p).txNext ∧ (link t p).rxExpect = (link s p).rxExpect ∧
    (link t p).leftAt = getF s F.TICK_DT ∧ (link t p).reqs = []

/-- What a round of port `p` sends: five slots on each lane, with the flits that `pick` names by their place in the round, behind the lane's pair header. -/
def roundOut (p round ack : Nat) (lanes : List Nat) (pick : Nat → Flit) : List OutMsg :=
  (List.range lanes.length).flatMap (fun k => .pair p (lanes.getD k 0) (0xC3A5 + lanes.getD k 0 * 2 ^ 16 + round * 2 ^ 24) ::
    (List.range 5).map (fun i => .flit p (lanes.getD k 0) false ack (pick (5 * k + i))))

/-- A slot of a receive lane's present pair, not its first, reaches a port in UP in its turn (R316): nothing waits before it. -/
def inTurn (s : State) (p : Nat) (x : FlitSlot) : Prop :=
  portUp s p = true ∧ 0 < x.slot ∧ x.lane ∈ takenLanes s p ∧ (link s p).rxq = [] ∧
    (link s p).rxAt = some ((laneRx s p x.lane).round, x.lane, x.slot)

/-- Member `x` has been declared lost with a cause of R375, from tick `at_` on; the capture shows the first such event. -/
def lostNow (s t : State) (x cause at_ : Nat) : Prop :=
  isLost t x = true ∧ isSet t F.SPAN_STAT_DEGRADED = true ∧
    isSet t (if cause = 6 then F.SPAN_STAT_ISOLATED else F.SPAN_STAT_MEMBER_LOST) = true ∧
    getF t F.SPAN_CNT_LOSS = satAdd 32 (getF s F.SPAN_CNT_LOSS) 1 ∧
    (isSet s F.SPAN_STAT_MEMBER_LOST = false → isSet s F.SPAN_STAT_ISOLATED = false → getF t F.SPAN_LOSS_CAUSE = cause % 8 ∧
      getF t F.SPAN_LOSS_ORD = x ∧ getF t F.SPAN_LOSS_TICK = at_ % 2 ^ 48) ∧
    t.span.lossAt = some (match s.span.lossAt with
      | some n => min n at_
      | none => at_)

/-- The module is in READY with a steward up, and a mailbox request by `r` passes the checks that every command shares, but for its length; its LENGTH counts
its operands, and it is the one request present. -/
def mboxOpen (s : State) (q : MboxReq) (r : Requester) : Prop :=
  s.pwr.dormant = false ∧ s.boot.phase = .ready ∧ getF s F.DEV_CAP1_STEWARD_UP ≠ 0 ∧ mboxWho s q = some r ∧ q.vendor = 0x4851 ∧ q.reserved = 0 ∧
    q.length = q.args.length ∧ q.later = false ∧ s.stw.mbox = []

/-- The response to a mailbox request (R492): COMMAND with bit 7 set, SEQ, LENGTH, RESULT, REASON, results. -/
def mboxAnswer (r : Requester) (q : MboxReq) (result reason : Nat) (data : List Byte) : OutMsg :=
  .mailbox r 0x4851 (leBytes (Nat.lor 128 q.command) 1 ++ leBytes q.seq 1 ++ leBytes data.length 2 ++ leBytes result 1 ++ leBytes reason 3 ++ data)

/-- The STORE_GEN fuse of a life-cycle transition is being burnt: the module is in boot step 1 with one pending. -/
def burning (s : State) : Prop := s.boot.phase = .running ∧ getF s F.BOOT_STAT_STEP = 1 ∧ s.boot.lc ≠ none

/-- The fuses stay, but for that STORE_GEN fuse, of which a free value says whether it is burnt (log entry 97). -/
def fusesStay (s t : State) : Prop := t.fuses = s.fuses ∨ (burning s ∧ t.fuses = { s.fuses with storeGen := s.fuses.storeGen + 1 })

end Sys2Proof.Machine
end

