-- ==== Sys2Proof/Certificates/Slice0/Obligations.lean ====
section
/-! DEFINITION. The statements for the provers. -/
open Sys2Proof Sys2Proof.Machine

/-! ### The queue and the state as a whole -/

/-- The command at the front of the queue is the one that a step runs, on the queue's rest. The queue is the model's own.
With no command waiting a step serves the oldest mailbox request that waits (log entry 85), else passes one count of the clock of device time and
changes nothing else (the model's choice, log entry 2). -/
def Obligations.StepRunsTheQueue : Prop :=
  (∀ (c : Instr) (l : List Instr) (s : State), step { s with pending := c :: l } = exec c { s with pending := l }) ∧
  ((∀ (s : State) (q : MboxReq) (l : List MboxReq), s.pending = [] → s.stw.mbox = q :: l →
      step s = .next (serveOne q { s with stw := { s.stw with mbox := l } })) ∧
    ∀ s : State, s.fieldsCanonical = true → s.pending = [] → s.stw.mbox = [] → ∃ t, step s = .next t ∧
      getF t F.TICK_DT = (if s.pins.aux then (getF s F.TICK_DT + if s.pwr.dormant then 40 else 1) % 2 ^ 64 else getF s F.TICK_DT) ∧
      fieldsKept [F.TICK_DT] s t ∧ t = { s with flds := t.flds })

/-- Every command is taken in every state: none is refused, none stops the module. No rule says so: that a command whose conditions do not hold changes
nothing is the model's choice (log entry 3). -/
def Obligations.EveryCommandAnswers : Prop :=
  ∀ (c : Instr) (s : State), ∃ t, exec c s = .next t

/-- Fields that the register tables give a reset value, at that value after a cold reset.
The reset state is in canonical form. -/
def Obligations.ResetValues : Prop :=
  (getF State.reset F.DEV_ID_VENDOR_TAG = 0x4851 ∧ getF State.reset F.DEV_ID_PRODUCT = 0x9 ∧
    getF State.reset F.PWR_CAL = 0x4000 ∧ getF State.reset F.BOOT_RESET_REASON = 1 ∧ getF State.reset F.SEC_SPDM_VERSION = 0x12 ∧
    getF State.reset F.ADM_SHUT_RECOVERY = 1 ∧ getF State.reset F.ADM_SHUT_JOURNAL = 1 ∧ getF State.reset F.ARR_RETIRE_COL = 0x7F ∧
    getF State.reset F.CFG_NEXT_EMPTY = 1 ∧ getF State.reset F.SPAN_SLACK_MIN_PCT = 0xFF ∧
    (∀ n, n < 16 → getF State.reset (F.LNK_LOSS_CFG n) = 20) ∧ (∀ v, v < 256 → getF State.reset (F.MSIX_CTL v) = 1) ∧
    (∀ r, r < 64 → getF State.reset (F.RING_CTL_ANY r) = 1) ∧ (∀ v, v < 32 → getF State.reset (F.TEL_VMON_MIN_MV v) = 0xFFF) ∧
    (∀ a, smapGet zeroByte State.reset.mem.near a = 0#8) ∧ ∀ a, smapGet zeroByte State.reset.mem.bulk a = 0#8) ∧
  (State.reset.fieldsCanonical = true ∧ State.reset.memoryCanonical = true ∧ State.reset.unitsCanonical = true ∧
      State.reset.tablesCanonical = true)

/-- Every step keeps the register fields in canonical form. -/
def Obligations.StepKeepsFieldsCanonical : Prop :=
  ∀ s t : State, s.fieldsCanonical = true → step s = .next t → t.fieldsCanonical = true

/-- Every step keeps in canonical form: the tiers' memories and the directory; the cells and the ports; the panes, casements, ring sets, clients, interrupt
stacks, moderation times and stamp counts. -/
def Obligations.StepKeepsTheOtherMapsCanonical : Prop :=
  (∀ s t : State, s.memoryCanonical = true → step s = .next t → t.memoryCanonical = true) ∧
  (∀ s t : State, s.unitsCanonical = true → step s = .next t → t.unitsCanonical = true) ∧
  (∀ s t : State, s.tablesCanonical = true → step s = .next t → t.tablesCanonical = true)

/-! ### Registers and board accesses -/

/-- R20, R21, R24, R49: what a host write does to a read-write register, to a read-only one, to bits that a 1 clears, of which one that hardware sets in
the write's own cycle stays, and its event's capture is loaded where the write would have cleared the last of them; and with a wrong size or
alignment; every other field, and the rest of the module, stays.
R83: a read of TICK_NOW_LO answers its word and latches TICK_NOW_HI, so that the next read of TICK_NOW_HI answers the high half of the
same value, whatever the tick number is by then.
R83: a capture loads the tick number, the cycle-in-frame and the device time. -/
def Obligations.RegistersAreReadAndWritten : Prop :=
  (∀ (s : State) (v met : Nat), s.fieldsCanonical = true → windowUp s = true → v < 2 ^ 32 →
      (∃ t, exec (.registerWrite .host 0x28 4 (v, met)) s = .next t ∧ getF t F.DEV_SCRATCH = v ∧ fieldsKept [F.DEV_SCRATCH] s t ∧
        t = { s with flds := t.flds, hiLatch := t.hiLatch }) ∧
      (∃ t, exec (.registerWrite .host 0x0 4 (v, met)) s = .next t ∧ fieldsKept [] s t ∧ t = { s with flds := t.flds, hiLatch := t.hiLatch }) ∧
      (∀ bits, bits = [(F.DEV_AERR_RANGE, 0), (F.DEV_AERR_REGION, 1), (F.DEV_AERR_DENIED, 2), (F.DEV_AERR_SRAM_MODE, 3)] → ∃ t,
        exec (.registerWrite .host 0x18 4 (v, met)) s = .next t ∧
        (∀ p ∈ bits, isSet t p.1 = (isSet s p.1 && (!bitOf v p.2 || bitOf met p.2))) ∧
        t = { s with flds := t.flds, hiLatch := t.hiLatch } ∧
        (s.caps = [] → fieldsKept addrErrorBits s t) ∧
        ∀ before lo hi src w, s.caps = [⟨addrErrorBits, cycleNow s, before,
            [(F.DEV_AERR_LO, lo), (F.DEV_AERR_HI_ADDR_HI, hi), (F.DEV_AERR_HI_SRC_ORD, src), (F.DEV_AERR_HI_WRITE, w)]⟩] →
          before ≠ [] → (∀ f ∈ before, f ∈ addrErrorBits) →
          (∃ p ∈ bits, isSet s p.1 = true ∧ bitOf v p.2 = true ∧ bitOf met p.2 = true) → (∀ p ∈ bits, isSet s p.1 = true → bitOf v p.2 = true) →
          getF t F.DEV_AERR_LO = lo % 2 ^ 32 ∧ getF t F.DEV_AERR_HI_ADDR_HI = hi % 2 ^ 16 ∧ getF t F.DEV_AERR_HI_SRC_ORD = src % 8 ∧
          getF t F.DEV_AERR_HI_WRITE = w % 2 ∧
          fieldsKept (addrErrorBits ++ [F.DEV_AERR_LO, F.DEV_AERR_HI_ADDR_HI, F.DEV_AERR_HI_SRC_ORD, F.DEV_AERR_HI_WRITE]) s t) ∧
      ∀ off size, size ≠ 4 ∨ off % 4 ≠ 0 → exec (.registerWrite .host off size (v, met)) s = .next s) ∧
  (∀ (s : State) (r : Requester) (later : Nat), s.fieldsCanonical = true → blockServed s 0x10010 = true → hiHeld s 0x10010 = none →
      getF s F.TICK_NOW < 2 ^ 48 →
      ∃ t u, exec (.loRegisterRead r 0x10010 4) s = .next t ∧
        t = { s with hiLatch := t.hiLatch, out := s.out ++ [.readDone r 0x10010 (getF s F.TICK_NOW % 2 ^ 32)] } ∧
        exec (.loRegisterRead r 0x10014 4) (setF t F.TICK_NOW later) = .next u ∧
        u.out = t.out ++ [.readDone r 0x10014 (getF s F.TICK_NOW / 2 ^ 32)]) ∧
  (∀ s : State, s.fieldsCanonical = true → ∃ t, exec .tickCapture s = .next t ∧
      getF t F.TICK_CAP_NUM = getF s F.TICK_NOW % 2 ^ 48 ∧ getF t F.TICK_CAP_CIF_CIF = getF s F.TICK_CIF_CIF % 2 ^ 25 ∧
      getF t F.TICK_CAP_CIF_HELD = (if getF s F.TICK_CIF_CIF = 0x1FFFFFF then 1 else 0) ∧ getF t F.TICK_CAP_DT = getF s F.TICK_DT % 2 ^ 64 ∧
      fieldsKept [F.TICK_CAP_NUM, F.TICK_CAP_CIF_CIF, F.TICK_CAP_CIF_HELD, F.TICK_CAP_DT] s t ∧ t = { s with flds := t.flds })

/-! ### Stewards and the ticket counter -/

/-- R22, R496: with no batch open, a batch of 1 to 1,048,576 tiles opens with nothing done, held or reclaimed and ticket 0 next; the rest stays. A
reserved KIND or COUNT leaves its own field as it is and the other takes effect; where one of the two then holds no value of R496, no batch opens.
R497: a steward's read of STW_TICKET grants the head of the reclaim list, else the next fresh ticket, else answers EMPTY, and with 16
tickets held EMPTY and HELD_FULL.
R496, R499: the first commit of a tile that the steward holds wins, releases the ticket everywhere and counts; the commit of the last tile
closes the batch; a later commit, or one of a ticket never held, is discarded as a duplicate. -/
def Obligations.BatchesHandOutTickets : Prop :=
  (∀ (s : State) (kind count k c : Nat), s.fieldsCanonical = true → isSet s F.STW_BATCH_OPEN = false →
      k = (if 1 ≤ kind ∧ kind ≤ 3 then kind else getF s F.STW_BATCH_KIND) →
      c = (if 1 ≤ count ∧ count ≤ 1048576 then count else getF s F.STW_BATCH_COUNT) →
      (k = 0 ∨ c = 0 → ∃ t, exec (.batchOpen kind count) s = .next t ∧ isSet t F.STW_BATCH_OPEN = false ∧ getF t F.STW_BATCH_KIND = k ∧
        getF t F.STW_BATCH_COUNT = c ∧ fieldsKept [F.STW_BATCH_KIND, F.STW_BATCH_COUNT] s t ∧ t = { s with flds := t.flds }) ∧
      (k ≠ 0 → c ≠ 0 → ∃ t, exec (.batchOpen kind count) s = .next t ∧ isSet t F.STW_BATCH_OPEN = true ∧ getF t F.STW_BATCH_KIND = k ∧
        getF t F.STW_BATCH_COUNT = c ∧ getF t F.STW_NEXT = 0 ∧ getF t F.STW_DONE = 0 ∧ t.stw.done = [] ∧ t.stw.holds = [] ∧
        t.stw.reclaim = [] ∧ getF t F.STW_RECLAIM_LEN = 0 ∧
        fieldsKept (heldFields ++ [F.STW_BATCH_OPEN, F.STW_BATCH_KIND, F.STW_BATCH_COUNT, F.STW_NEXT, F.STW_DONE, F.STW_COMMIT_RES_VALID 0,
          F.STW_COMMIT_RES_VALID 1, F.STW_COMMIT_RES_VALID 2, F.STW_COMMIT_RES_VALID 3]) s t ∧
        t = { s with flds := t.flds, stw := { t.stw with
          warned := s.stw.warned, countAt := s.stw.countAt, resetAt := s.stw.resetAt, waiting := s.stw.waiting, mbox := s.stw.mbox,
          closed := s.stw.closed } })) ∧
  (∀ (s : State) (n : Nat), s.fieldsCanonical = true → n < 4 → isSet s F.STW_BATCH_OPEN = true → getF s F.STW_BATCH_COUNT ≤ 1048576 →
      (∀ k l, s.stw.reclaim = k :: l → (heldBy s n).length < 16 → ∃ t, exec (.ticketRead n) s = .next t ∧
        t.out = s.out ++ [.readDone (.steward n) 0x160010 (2 ^ 30 + k)] ∧ t.stw = { s.stw with reclaim := l, holds := s.stw.holds ++ [(k, n)] } ∧
        fieldsKept heldFields s t ∧ t = { s with flds := t.flds, stw := t.stw, out := t.out }) ∧
      (s.stw.reclaim = [] → getF s F.STW_NEXT < getF s F.STW_BATCH_COUNT → (heldBy s n).length < 16 → ∃ t, exec (.ticketRead n) s = .next t ∧
        t.out = s.out ++ [.readDone (.steward n) 0x160010 (getF s F.STW_NEXT)] ∧ getF t F.STW_NEXT = getF s F.STW_NEXT + 1 ∧
        t.stw = { s.stw with holds := s.stw.holds ++ [(getF s F.STW_NEXT, n)] } ∧ fieldsKept (F.STW_NEXT :: heldFields) s t ∧
        t = { s with flds := t.flds, stw := t.stw, out := t.out }) ∧
      (s.stw.reclaim = [] → getF s F.STW_BATCH_COUNT ≤ getF s F.STW_NEXT → (heldBy s n).length < 16 → ∃ t, exec (.ticketRead n) s = .next t ∧
        t.out = s.out ++ [.readDone (.steward n) 0x160010 (2 ^ 31)] ∧ t.stw = s.stw ∧ fieldsKept heldFields s t ∧
        t = { s with flds := t.flds, out := t.out }) ∧
      (16 ≤ (heldBy s n).length → ∃ t, exec (.ticketRead n) s = .next t ∧
        t = { s with out := s.out ++ [.readDone (.steward n) 0x160010 (2 ^ 31 + 2 ^ 29)] })) ∧
  (∀ (s : State) (n k : Nat), s.fieldsCanonical = true → n < 4 → k < 1048576 →
      (isSet s F.STW_BATCH_OPEN = true → k < getF s F.STW_BATCH_COUNT → (k, n) ∈ s.stw.holds → k ∉ s.stw.done →
        s.stw.done.length < 2 ^ 20 → ∃ t, exec (.tileCommit n k) s = .next t ∧
          t.stw = { s.stw with done := s.stw.done ++ [k], holds := s.stw.holds.filter (fun h => h.1 != k), closed :=
            if s.stw.done.length + 1 < getF s F.STW_BATCH_COUNT then s.stw.closed else getF s F.STW_BATCH_KIND } ∧
          isSet t (F.STW_COMMIT_RES_VALID n) = true ∧ isSet t (F.STW_COMMIT_RES_WON n) = true ∧ getF t (F.STW_COMMIT_RES_TICKET n) = k ∧
          getF t F.STW_CNT_COMMIT = satAdd 32 (getF s F.STW_CNT_COMMIT) 1 ∧ getF t F.STW_DONE = s.stw.done.length + 1 ∧
          isSet t F.STW_BATCH_OPEN = decide (s.stw.done.length + 1 < getF s F.STW_BATCH_COUNT) ∧
          (getF s F.STW_BATCH_COUNT ≤ s.stw.done.length + 1 → isSet t F.STW_STAT_BATCH_DONE = true ∧
            (getF s F.STW_BATCH_ID < 2 ^ 32 - 1 → getF t F.STW_BATCH_ID = getF s F.STW_BATCH_ID + 1)) ∧
          fieldsKept (heldFields ++ [F.STW_COMMIT_RES_VALID n, F.STW_COMMIT_RES_WON n, F.STW_COMMIT_RES_TICKET n, F.STW_CNT_COMMIT, F.STW_DONE,
            F.STW_BATCH_OPEN, F.STW_STAT_BATCH_DONE, F.STW_BATCH_ID]) s t ∧ t = { s with flds := t.flds, stw := t.stw }) ∧
      (k ∈ s.stw.done ∨ ((k, n) ∉ s.stw.holds ∧ k ∉ s.stw.history) → ∃ t, exec (.tileCommit n k) s = .next t ∧ isSet t F.STW_STAT_DUP = true ∧
        getF t F.STW_CNT_DUP = satAdd 32 (getF s F.STW_CNT_DUP) 1 ∧ isSet t (F.STW_COMMIT_RES_VALID n) = true ∧
        isSet t (F.STW_COMMIT_RES_WON n) = false ∧ getF t (F.STW_COMMIT_RES_TICKET n) = k ∧
        fieldsKept [F.STW_COMMIT_RES_VALID n, F.STW_COMMIT_RES_WON n, F.STW_COMMIT_RES_TICKET n, F.STW_STAT_DUP, F.STW_CNT_DUP] s t ∧
        t = { s with flds := t.flds }))

/-- R498: a read of STW_TICKET by the host, the management interface or another module's steward answers what a steward's read would return next,
with NEXT_ONLY, and changes nothing: the head of the reclaim list, else the next fresh ticket, else EMPTY, as with no batch open. -/
def Obligations.TicketPeeksGrantNothing : Prop :=
  ∀ (s : State) (r : Requester),
    (isSet s F.STW_BATCH_OPEN = false → exec (.ticketPeek r) s = .next { s with out := s.out ++ [.readDone r 0x160010 (2 ^ 31 + 2 ^ 28)] }) ∧
    (isSet s F.STW_BATCH_OPEN = true →
      (∀ k l, s.stw.reclaim = k :: l → exec (.ticketPeek r) s = .next { s with out := s.out ++ [.readDone r 0x160010 (2 ^ 30 + k + 2 ^ 28)] }) ∧
      (s.stw.reclaim = [] → getF s F.STW_NEXT < getF s F.STW_BATCH_COUNT →
        exec (.ticketPeek r) s = .next { s with out := s.out ++ [.readDone r 0x160010 (getF s F.STW_NEXT + 2 ^ 28)] }) ∧
      (s.stw.reclaim = [] → getF s F.STW_BATCH_COUNT ≤ getF s F.STW_NEXT →
        exec (.ticketPeek r) s = .next { s with out := s.out ++ [.readDone r 0x160010 (2 ^ 31 + 2 ^ 28)] }))

/-- R489 to R491: a watchdog that counts PERIOD_MS from the steward's last restart, or from its last expiry, warns at the first expiry; a second one
without a restart between resets the steward alone, which clears its STEWARD_UP bit, reclaims its tickets, counts, and answers with RESULT 4 what waits in
the mailbox that it serves; the steward that has restarted is up again and its watchdog counts anew. The firmware's restarts are the operand `b` (log
entry 80), which steward serves the mailbox is R488's. -/
def Obligations.WatchdogResetsOneSteward : Prop :=
  ∀ (s : State) (n b : Nat), s.fieldsCanonical = true → n < 4 →
    (getF s F.TICK_DT < countFrom s n b + 1000000 * getF s F.STW_WDOG → exec (.watchdogExpiry n b) s = .next s) ∧
    (bitF s F.DEV_CAP1_STEWARD_UP n = true → countFrom s n b + 1000000 * getF s F.STW_WDOG ≤ getF s F.TICK_DT →
      n ∉ s.stw.warned ∨ countFrom s n b ≠ countFrom s n 0 → ∃ t, exec (.watchdogExpiry n b) s = .next t ∧
      isSet t F.STW_STAT_WDOG_WARN = true ∧ n ∈ t.stw.warned ∧ countFrom t n 0 = getF s F.TICK_DT ∧
      fieldsKept [F.STW_STAT_WDOG_WARN] s t ∧
      t = { s with flds := t.flds, stw := { s.stw with warned := t.stw.warned, countAt := t.stw.countAt } }) ∧
    (bitF s F.DEV_CAP1_STEWARD_UP n = true → getF s F.DEV_CAP1_STEWARD_UP < 16 → n ∈ s.stw.warned → countFrom s n b = countFrom s n 0 →
      countFrom s n b + 1000000 * getF s F.STW_WDOG ≤ getF s F.TICK_DT → s.stw.resetAt = [] →
      (∀ m, m < 4 → getF s (F.STW_CORE_STATE m) = 1) → ∃ t, exec (.watchdogExpiry n b) s = .next t ∧
        bitF t F.DEV_CAP1_STEWARD_UP n = false ∧ getF t (F.STW_CORE_STATE n) = 0 ∧ isSet t F.STW_STAT_STW_RESET = true ∧
        getF t F.STW_CNT_RESET = satAdd 32 (getF s F.STW_CNT_RESET) 1 ∧ heldBy t n = [] ∧ n ∉ t.stw.warned ∧ t.boot = s.boot ∧ t.mem = s.mem ∧
        t.cells = s.cells ∧ (∀ k, (k, n) ∈ s.stw.holds → k ∉ s.stw.done → k ∈ t.stw.reclaim ∧ k ∈ t.stw.history) ∧
        (dutySteward s 3 = some n → t.stw.mbox = [] ∧
          ∀ q r, s.stw.mbox = [q] → mboxWho s q = some r → t.out = s.out ++ [mboxAnswer r q 4 0 []]) ∧
        (dutySteward s 3 ≠ some n → t.stw.mbox = s.stw.mbox ∧ t.out = s.out)) ∧
    (getF s (F.STW_CORE_STATE n) = 0 → (∃ x, (n, x) ∈ s.stw.resetAt) → ∃ t, exec (.stewardRestart n) s = .next t ∧
      bitF t F.DEV_CAP1_STEWARD_UP n = true ∧ getF t (F.STW_CORE_STATE n) = 1 ∧ n ∉ t.stw.warned ∧ countFrom t n 0 = getF s F.TICK_DT ∧
      fieldsKept [F.STW_CORE_STATE n, F.DEV_CAP1_STEWARD_UP] s t ∧
      t = { s with flds := t.flds, stw := { s.stw with warned := t.stw.warned, countAt := t.stw.countAt } })

/-! ### Interrupts -/

/-- R504: the filtered line of a source that no status bit or latch drives takes its level, and the pending bit is set by a rise, or at level
sensing by a line at 1; the line of a source that a bit drives takes that bit; no other pending or line bit changes.
R503, R504: writes of 1 set and clear pending bits, of the host only for sources routed to it; a clear leaves a level source whose line is 1
pending; bits written as 0 stay. -/
def Obligations.LinesAndWritesSetPendingBits : Prop :=
  (∀ (s : State) (n : Nat), s.fieldsCanonical = true → n < 256 →
      (∀ level, sourceBit n = none → pulseSource n = true → ∃ t, exec (.irqFilterChange n level) s = .next t ∧ lineBit t n = level ∧
        pendBit t n = (pendBit s n || level && (!lineBit s n || !isEdge s n)) ∧
        (∀ m, m < 256 → m ≠ n → pendBit t m = pendBit s m ∧ lineBit t m = lineBit s m) ∧
        fieldsKept [F.IRQ_LINE (n / 32), F.IRQ_PEND (n / 32)] s t ∧ t = { s with flds := t.flds }) ∧
      ∀ level f, sourceBit n = some f → ∃ t, exec (.irqFilterChange n level) s = .next t ∧ lineBit t n = isSet s f ∧
        pendBit t n = (pendBit s n || isSet s f && (!lineBit s n || !isEdge s n)) ∧
        (∀ m, m < 256 → m ≠ n → pendBit t m = pendBit s m ∧ lineBit t m = lineBit s m) ∧
        fieldsKept [F.IRQ_LINE (n / 32), F.IRQ_PEND (n / 32)] s t ∧ t = { s with flds := t.flds }) ∧
  (∀ (s : State) (r : Requester) (k v : Nat), s.fieldsCanonical = true → k < 8 →
      (∃ t, exec (.irqPendSet r k v) s = .next t ∧
        (∀ j, j < 32 → pendBit t (32 * k + j) = (pendBit s (32 * k + j) || bitOf v j && mayWriteSource s r (32 * k + j))) ∧
        fieldsKept [F.IRQ_PEND k] s t ∧ t = { s with flds := t.flds }) ∧
      ∃ t, exec (.irqPendClr r k v) s = .next t ∧
        (∀ j, j < 32 → pendBit t (32 * k + j) = (pendBit s (32 * k + j) && !(bitOf v j && mayWriteSource s r (32 * k + j) &&
          (isEdge s (32 * k + j) || !lineBit s (32 * k + j))))) ∧
        fieldsKept [F.IRQ_PEND k] s t ∧ t = { s with flds := t.flds })

/-- R506: a claim at a steward target answers the eligible source of the highest priority, the lowest number among equals, pushes its priority,
marks it in service and clears an edge source's pending bit, at a target that is held by moderation too, and ends its wait for an interrupt (the model's
choices, log entry 80); with nothing eligible it answers 0 and changes nothing.
R507, R509: a completion of the source claimed last ends its service and pops its priority, any other one is counted and changes nothing else;
the host's end of interrupt ends the service of a level source routed to it. -/
def Obligations.ClaimsAndCompletions : Prop :=
  (∀ (s : State) (k : Nat), s.fieldsCanonical = true → k < 4 →
      (∀ n, n < 256 → eligible s k n = true → (targetStack s k).length < 15 → getF s (F.IRQ_SRC_PRIO n) < 16 →
        (∀ m, m < 256 → eligible s k m = true → getF s (F.IRQ_SRC_PRIO m) < getF s (F.IRQ_SRC_PRIO n) ∨
          (getF s (F.IRQ_SRC_PRIO m) = getF s (F.IRQ_SRC_PRIO n) ∧ n ≤ m)) →
        ∃ t, exec (.claim k) s = .next t ∧ t.out = s.out ++ [.readDone (.steward k) (0x180204 + 0x20 * k) (256 + n)] ∧ insvc t n = true ∧
          pendBit t n = (pendBit s n && !isEdge s n) ∧ targetStack t k = (n, getF s (F.IRQ_SRC_PRIO n)) :: targetStack s k ∧
          getF t (F.TGT_RUN_RUN k) = getF s (F.IRQ_SRC_PRIO n) ∧ getF t (F.TGT_RUN_DEPTH k) = (targetStack s k).length + 1 ∧
          getF t (F.TGT_CNT_DELIVER k) = satAdd 32 (getF s (F.TGT_CNT_DELIVER k)) 1 ∧
          fieldsKept [F.IRQ_PEND (n / 32), F.IRQ_INSVC (n / 32), F.TGT_RUN_RUN k, F.TGT_RUN_DEPTH k, F.TGT_CNT_DELIVER k] s t ∧
          t = { s with flds := t.flds, irq := t.irq, stw := { s.stw with waiting := s.stw.waiting.filter (fun m => m != k) }, out := t.out }) ∧
      ((∀ m, m < 256 → eligible s k m = false) →
        exec (.claim k) s = .next { s with out := s.out ++ [.readDone (.steward k) (0x180204 + 0x20 * k) 0] })) ∧
  (∀ (s : State) (k n : Nat), s.fieldsCanonical = true → s.tablesCanonical = true → k < 4 → n < 256 →
      (∀ p l, targetStack s k = (n, p) :: l → l.length < 16 → (l.headD (0, 0)).2 < 16 → ∀ waits, ∃ t, exec (.complete k (n, waits)) s = .next t ∧
        targetStack t k = l ∧ (k ∈ t.stw.waiting ↔ k ∈ s.stw.waiting ∨ (waits = true ∧ l = [])) ∧ insvc t n = false ∧ getF t (F.TGT_RUN_RUN k) = (l.headD (0, 0)).2 ∧ getF t (F.TGT_RUN_DEPTH k) = l.length ∧
        (∀ m, m < 256 → m ≠ n → insvc t m = insvc s m) ∧ fieldsKept [F.IRQ_INSVC (n / 32), F.TGT_RUN_RUN k, F.TGT_RUN_DEPTH k] s t ∧
        t = { s with flds := t.flds, irq := t.irq, stw := { s.stw with waiting := t.stw.waiting } }) ∧
      ((∀ p l, targetStack s k ≠ (n, p) :: l) → ∀ waits, ∃ t, exec (.complete k (n, waits)) s = .next t ∧
        getF t (F.TGT_CNT_BADCOMP k) = satAdd 32 (getF s (F.TGT_CNT_BADCOMP k)) 1 ∧ fieldsKept [F.TGT_CNT_BADCOMP k] s t ∧
        t = { s with flds := t.flds }) ∧
      (isEdge s n = false → getF s (F.IRQ_SRC_TARGET n) = 4 → ∃ t, exec (.hostEoi n) s = .next t ∧ insvc t n = false ∧
        fieldsKept [F.IRQ_INSVC (n / 32)] s t ∧ t = { s with flds := t.flds }))

/-- R508 to R511: the bridge sends one message for the announcement at the front, else for the best eligible source (that announcements go before
sources is the model's choice, log entry 80), on a vector that is not masked; a masked vector notes it; clearing the mask sends it; the end of moderation is noted. -/
def Obligations.MessagesAreSent : Prop :=
  ∀ s : State, s.fieldsCanonical = true → s.tablesCanonical = true →
    (∀ r l, s.adm.announce = r :: l → moderated s 4 = false → s.irq.funcMask = false → isSet s (F.MSIX_CTL (getF s (F.RING_CTL_VEC r))) = false →
      ∃ t, exec .msixSend s = .next t ∧
        t.out = s.out ++ [.msix (getF s (F.MSIX_ADDRESS (getF s (F.RING_CTL_VEC r)))) (getF s (F.MSIX_DATA (getF s (F.RING_CTL_VEC r)))) {}] ∧
        t.adm.announce = l.filter (fun q => getF s (F.RING_CTL_VEC q) != getF s (F.RING_CTL_VEC r)) ∧
        getF t (F.TGT_CNT_DELIVER 4) = satAdd 32 (getF s (F.TGT_CNT_DELIVER 4)) 1 ∧ fieldsKept [F.TGT_CNT_DELIVER 4] s t ∧
        t = { s with flds := t.flds, irq := { s.irq with heldUntil := t.irq.heldUntil }, adm := { s.adm with announce := t.adm.announce }, out := t.out }) ∧
    (∀ n, s.adm.announce = [] → moderated s 4 = false → bestSource s 4 = some n → s.irq.funcMask = false →
      isSet s (F.MSIX_CTL (getF s (F.IRQ_SRC_HOST_VEC n))) = false → ∃ t, exec .msixSend s = .next t ∧
        t.out = s.out ++ [.msix (getF s (F.MSIX_ADDRESS (getF s (F.IRQ_SRC_HOST_VEC n)))) (getF s (F.MSIX_DATA (getF s (F.IRQ_SRC_HOST_VEC n)))) {}] ∧
        (isEdge s n = true → pendBit t n = false ∧ insvc t n = insvc s n) ∧ (isEdge s n = false → pendBit t n = pendBit s n ∧ insvc t n = true) ∧
        getF t (F.TGT_CNT_DELIVER 4) = satAdd 32 (getF s (F.TGT_CNT_DELIVER 4)) 1 ∧
        fieldsKept [F.IRQ_PEND (n / 32), F.IRQ_INSVC (n / 32), F.TGT_CNT_DELIVER 4] s t ∧
        t = { s with flds := t.flds, irq := { s.irq with heldUntil := t.irq.heldUntil }, out := t.out }) ∧
    (∀ v, v < 256 → s.irq.funcMask = false → bitF s (F.MSIX_PBA (v / 32)) (v % 32) = true → ∃ t l, exec (.msixMaskWrite (some v) false) s = .next t ∧
      getF t (F.MSIX_CTL v) = 0 ∧ bitF t (F.MSIX_PBA (v / 32)) (v % 32) = false ∧ t.out = s.out ++ l ∧
      .msix (getF s (F.MSIX_ADDRESS v)) (getF s (F.MSIX_DATA v)) {} ∈ l ∧ t = { s with flds := t.flds, out := t.out }) ∧
    ∀ k, k < 5 → moderated s k = false → ∃ t, exec (.moderationExpiry k) s = .next t ∧ (∀ v, moderated (setF t F.TICK_DT v) k = false) ∧
      fieldsKept [] s t ∧ t = { s with irq := { s.irq with heldUntil := t.irq.heldUntil } }

/-! ### The management interface and the mailbox -/

/-- R481: the endpoint takes an assigned ID and reports it, the versions of MCTP, and the three message types beside control; none of it changes
anything else. Response layouts are the model's (log entries 15, 16). -/
def Obligations.MctpControlAnswers : Prop :=
  ∀ s : State, mgmtUp s = true →
    (∀ op eid, op < 2 → 8 ≤ eid → eid < 255 → ∃ d, exec (.setEndpointId op eid) s =
      .next { s with spdm := { s.spdm with eid := eid }, out := s.out ++ [.mctp 0 d] }) ∧
    (∃ d, exec .getEndpointId s = .next { s with out := s.out ++ [.mctp 0 (BitVec.ofNat 8 s.spdm.eid :: d)] }) ∧
    (∀ type, type = 0 ∨ type = 0xFF → exec (.getMctpVersionSupport type) s =
      .next { s with out := s.out ++ [.mctp 0 [0x01#8, 0xF1#8, 0xF3#8, 0xF0#8, 0x00#8]] }) ∧
    (∀ type, type = 0x05 ∨ type = 0x06 ∨ type = 0x7E → ∃ t d, exec (.getMctpVersionSupport type) s = .next t ∧ d.length = 4 ∧
      t = { s with out := s.out ++ [.mctp 0 (0x01#8 :: d)], freeCtr := t.freeCtr }) ∧
    exec .getMessageTypeSupport s = .next { s with out := s.out ++ [.mctp 0 [0x03#8, 0x05#8, 0x06#8, 0x7E#8]] }

/-- R482: version, capabilities, algorithms in that order; then digests and the chain of certificate slot 0 may be read. Codes and layouts of the
responses are the model's (log entry 15).
R482, R483: a challenge is answered with the chain's digest and 128 octets that no rule states; measurements with the block asked for, or all
eight, signed where that is asked; unsigned ones, the digests and the certificates also where the start derived no alias key (R467). -/
def Obligations.SpdmAnswers : Prop :=
  (∀ (s : State) (q : SpdmReq), mgmtUp s = true →
      (exec (.getVersion q) s = .next { s with
        spdm := { s.spdm with stage := 1 }, out := s.out ++ [.spdm q.session 0x04 0 0 [0x00#8, 0x01#8, 0x00#8, 0x12#8]] }) ∧
      (1 ≤ s.spdm.stage → exec (.getCapabilities q) s = .next { s with
        spdm := { s.spdm with stage := max 2 s.spdm.stage }, out := s.out ++ [.spdm q.session 0x61 0 0 [0xD6#8, 0x62#8, 0x00#8, 0x00#8]] }) ∧
      (2 ≤ s.spdm.stage → ∃ d, exec (.negotiateAlgorithms q) s = .next { s with
        spdm := { s.spdm with stage := 3 }, out := s.out ++ [.spdm q.session 0x63 0 0 d] }) ∧
      (spdmReads s = true → exec (.getDigests q) s = .next { s with out := s.out ++ [.spdm q.session 0x01 0 1 (chainDigest s)] }) ∧
      (spdmReads s = true → q.p1 = 0 → ∀ off len, off < (certChain s).length → len < 65536 → ∃ d, exec (.getCertificate q off len) s = .next { s with
        out := s.out ++ [.spdm q.session 0x02 0 0 (d ++ ((certChain s).drop off).take len)] } ∧ d.length = 4)) ∧
  (∀ (s : State) (q : SpdmReq), mgmtUp s = true → spdmReads s = true →
      (spdmReady s = true → q.p1 = 0 → ∃ t d, exec (.challenge q) s = .next t ∧ d.length = 128 ∧
        t = { s with out := s.out ++ [.spdm q.session 0x03 0 1 (chainDigest s ++ d)], freeCtr := t.freeCtr }) ∧
      (spdmReady s = true ∨ q.p1 % 2 = 0 → 1 ≤ q.p2 → q.p2 ≤ 8 → ∃ t d, exec (.getMeasurements q) s = .next t ∧ d.length = (if q.p1 % 2 = 1 then 128 else 0) ∧
        t = { s with out := s.out ++ [.spdm q.session 0x60 0 0 (BitVec.ofNat 8 q.p2 :: measureBytes s q.p2 ++ d)], freeCtr := t.freeCtr }) ∧
      (spdmReady s = true ∨ q.p1 % 2 = 0 → q.p2 = 0xFF → ∃ t d, exec (.getMeasurements q) s = .next t ∧
        t = { s with out := s.out ++ [.spdm q.session 0x60 0 0 d], freeCtr := t.freeCtr } ∧ 8 * 49 ≤ d.length))

/-- R482: at most two sessions; a finished key exchange opens one, a heartbeat and a key update keep it, an end and a heartbeat not given for 60 s
close it; SEC_STAT.SESSION and SEC_SPDM.SESSIONS follow. Whether FINISH verifies is the command's operand (log entry 17).
R485: a health test of the entropy source that fails in service is the error state: safe mode with cause SELFTEST, no session left; what the
stewards' domain held is lost, all rails but the always-on domain's and the security controller's go down, the boot NOR and the fuses stay. Which rails stay
(0xFC0E), the drives' reset and their clock are the model's choice (log entry 97). -/
def Obligations.SessionsAndSafeMode : Prop :=
  (∀ (s : State) (q : SpdmReq), s.fieldsCanonical = true → mgmtUp s = true → s.spdm.sessions.length ≤ 2 →
      let open_ := fun l : List SpdmSession => (l.filter (fun x => x.open_)).length
      let shows := fun (l : List SpdmSession) (t : State) => t.spdm = { s.spdm with sessions := l } ∧ getF t F.SEC_SPDM_SESSIONS = open_ l ∧
        isSet t F.SEC_STAT_SESSION = decide (0 < open_ l) ∧ fieldsKept [F.SEC_SPDM_SESSIONS, F.SEC_STAT_SESSION] s t ∧
        t = { s with flds := t.flds, spdm := t.spdm, out := t.out }
      (spdmReady s = true → q.session = none → q.p2 = 0 → s.spdm.sessions.length < 2 → ∃ t, exec (.keyExchange q) s = .next t ∧
        t.spdm = { s.spdm with nextId := s.spdm.nextId + 1, sessions := s.spdm.sessions ++ [{ id := s.spdm.nextId }] } ∧
        t = { s with spdm := t.spdm, out := t.out, freeCtr := t.freeCtr }) ∧
      (∀ id, cryptoUp s = true → q.session = some id → (∃ x ∈ s.spdm.sessions, x.id = id ∧ x.open_ = false) → ∃ t, exec (.finish q true) s = .next t ∧
        shows (s.spdm.sessions.map (fun x => if x.id = id then { x with open_ := true, beatAt := getF s F.TICK_DT } else x)) t) ∧
      (∀ id, cryptoUp s = true → q.session = some id → sessionOpen s id = true →
        (∃ t, exec (.heartbeat q) s = .next t ∧ shows (s.spdm.sessions.map (fun x => if x.id = id then { x with beatAt := getF s F.TICK_DT } else x)) t) ∧
        (q.p1 = 1 ∨ q.p1 = 2 → ∃ t, exec (.keyUpdate q) s = .next t ∧
          shows (s.spdm.sessions.map (fun x => if x.id = id then { x with keyUpdates := x.keyUpdates + 1 } else x)) t) ∧
        (q.p1 = 3 → ∃ t, exec (.keyUpdate q) s = .next t ∧ shows s.spdm.sessions t) ∧
        ∃ t, exec (.endSession q) s = .next t ∧ shows (s.spdm.sessions.filter (fun x => x.id != id)) t) ∧
      ∀ id, ∃ t, exec (.heartbeatExpiry id) s = .next t ∧
        shows (s.spdm.sessions.filter (fun x => !(x.id == id && x.open_ && decide (x.beatAt + 60000000000 ≤ getF s F.TICK_DT)))) t) ∧
  (∀ s : State, s.fieldsCanonical = true → mgmtUp s = true → s.boot.phase = .ready → s.pins.rails < 2 ^ 16 → ∃ t, exec .entropyHealthTestFail s = .next t ∧
      isSet t F.SEC_SELFTEST_FAIL = true ∧ t.boot.phase = .safe ∧ isSet t F.BOOT_STAT_SAFE = true ∧ getF t F.BOOT_REC_FAIL_CAUSE = 2 ∧
      t.spdm.sessions = [] ∧ cryptoUp t = false ∧ t.cells = [] ∧ t.mem.near = [] ∧ t.mem.bulk = [] ∧ t.nor = s.nor ∧ t.fuses = s.fuses ∧
      t.pins = { s.pins with rails := Nat.land s.pins.rails 0xFC0E, storePerst := 0xF, storeRefclk := 0 })

/-- R492 to R494: in READY with a steward up, a request that passes the common checks is answered with its SEQ, COMMAND with bit 7 set and RESULT, and
is counted; REG_READ of DEV_ID, REG_WRITE of DEV_SCRATCH in a session, CAP and RETIRE_COL of a column in use have their effects; without the
policy's action the result is DENIED and SEC_STAT.DENY is set. -/
def Obligations.MailboxServesRegistersAndCap : Prop :=
  ∀ (s : State) (q : MboxReq) (r : Requester), s.fieldsCanonical = true → mboxOpen s q r →
    (q.command = 1 → q.args = [0#8, 0#8, 0#8, 0#8, 1#8] → policyAllows s 11 r = true → hiHeld s 0 = none → ∃ t, exec (.regRead q) s = .next t ∧
      t.out = s.out ++ [mboxAnswer r q 0 0 (leBytes (getF s F.DEV_ID_PRODUCT % 2 ^ 16 + getF s F.DEV_ID_VENDOR_TAG % 2 ^ 16 * 2 ^ 16) 4)] ∧
      getF t F.STW_CNT_MBOX = satAdd 32 (getF s F.STW_CNT_MBOX) 1 ∧ fieldsKept mboxFields s t ∧ t = { s with flds := t.flds, out := t.out }) ∧
    (q.command = 1 → q.args = [0#8, 0#8, 0#8, 0#8, 1#8] → policyAllows s 11 r = false → ∃ t, exec (.regRead q) s = .next t ∧
      t.out = s.out ++ [mboxAnswer r q 1 0 []] ∧ isSet t F.SEC_STAT_DENY = true ∧
      getF t F.SEC_DENY_CNT = satAdd 32 (getF s F.SEC_DENY_CNT) 1 ∧ getF t F.STW_CNT_MBOX_ERR = satAdd 32 (getF s F.STW_CNT_MBOX_ERR) 1 ∧
      fieldsKept (mboxFields ++ denyFields) s t ∧ t = { s with flds := t.flds, out := t.out, caps := t.caps }) ∧
    (∀ v, q.command = 2 → r = .session → v < 2 ^ 32 → q.args = leBytes 0x28 4 ++ leBytes v 4 → ∃ t, exec (.regWrite q) s = .next t ∧
      t.out = s.out ++ [mboxAnswer r q 0 0 []] ∧ getF t F.DEV_SCRATCH = v ∧ fieldsKept (F.DEV_SCRATCH :: mboxFields) s t ∧
      t = { s with flds := t.flds, hiLatch := t.hiLatch, out := t.out }) ∧
    (∀ w slew, q.command = 3 → w < 65536 → slew < 4096 → q.args = leBytes w 2 ++ leBytes slew 2 → policyAllows s 4 r = true → ∃ t l, exec (.cap q) s = .next t ∧
      getF t F.PWR_CAP_TARGET_W = max 350 (min 1200 w) ∧ getF t F.PWR_CAP_CFG_SLEW = slew ∧
      t.pwr.rackCap = (if slew = 0 then 10 * max 350 (min 1200 w) else s.pwr.rackCap) ∧
      t.out = l ++ [mboxAnswer r q 0 0 (leBytes (effectiveCap t / 10) 2)] ∧ t.mem = s.mem ∧ t.cells = s.cells) ∧
    (∀ c, q.command = 4 → c < 66 → q.args = [BitVec.ofNat 8 c] → policyAllows s 5 r = true → getF s F.ARR_COLMAP_EXCL0 ≠ c → getF s F.ARR_COLMAP_EXCL1 ≠ c →
      isSet s F.ARR_RETIRE_PEND = true → isSet s F.ARR_RETIRE_QPEND = false → getF s F.ARR_RETIRE_COL ≠ c → 2 ≤ getF s F.DEV_CAP0_SPARE_LEFT →
      ∃ t, exec (.retireCol q) s = .next t ∧ t.out = s.out ++ [mboxAnswer r q 0 0 []] ∧ isSet t F.ARR_RETIRE_QPEND = true ∧
        getF t F.ARR_RETIRE_QCOL = c ∧ fieldsKept ([F.ARR_RETIRE_QPEND, F.ARR_RETIRE_QCOL] ++ mboxFields) s t ∧ t = { s with flds := t.flds, out := t.out })

/-- R230, R231, R493: TALLY_READ answers the header and the records asked for of a layer's block as the last commit left them; TALLY_CLEAR
leaves the current copy of every count of the layer at 0, and in a line that the frame in progress has written the count that this frame has
added, in a region whose copies lie apart, and changes no byte outside the block's two copies. -/
def Obligations.TallyIsReadAndCleared : Prop :=
  ∀ (s : State) (q : MboxReq) (r : Requester) (model layer : Nat) (g : StateRegion) (x : RouteRec), s.fieldsCanonical = true →
    s.memoryCanonical = true → mboxOpen s q r → policyAllows s 6 r = true → model < 2 ^ 32 → layer < 0xFFFF →
    regionFind s.mem (.model model) = some g → (routeRecs s model)[layer]? = some x →
    (∀ first n, q.command = 5 → first < 65536 → n ≤ 256 → first + n ≤ x.e → q.args = leBytes model 4 ++ leBytes layer 2 ++ leBytes first 2 ++ leBytes n 2 →
      ∃ t, exec (.tallyRead q) s = .next t ∧
        t.out = s.out ++ [mboxAnswer r q 0 0 (leBytes g.lastFrame 6 ++ leBytes 0 2 ++ tallyBytes s g x.tallyOff 16 ++
          tallyBytes s g (x.tallyOff + 16 + 16 * first) (16 * n))] ∧
        fieldsKept mboxFields s t ∧ t = { s with flds := t.flds, out := t.out }) ∧
    (q.command = 6 → q.args = leBytes model 4 ++ leBytes layer 2 → x.tallyOff + 16 + 16 * x.e ≤ g.size →
      (∀ h k i j, i < g.size → j < g.size → regionAddr g h i = regionAddr g k j → h = k ∧ i = j) → ∃ t, exec (.tallyClear q) s = .next t ∧
      t.out = s.out ++ [mboxAnswer r q 0 0 (stampBytes (stampNow s srcMgmt))] ∧
      (∀ i, i < 16 + 16 * x.e → regionByte t g (x.tallyOff + i) = 0#8) ∧
      (∀ k i, k < 4 + 4 * x.e → i < 4 → g.written.contains ((x.tallyOff + 4 * k + i) / 512) = true →
        smapGet zeroByte t.mem.near (regionAddr g (!lineHalf g ((x.tallyOff + 4 * k + i) / 512)) (x.tallyOff + 4 * k + i)) =
          BitVec.ofNat 8 (min (2 ^ 32 - 1) (smapGet zeroNat s.frame.tallyRun (x.tallyOff + 4 * k)) / 256 ^ i)) ∧
      (∀ a, (∀ i, i < 16 + 16 * x.e → ∀ h, a ≠ regionAddr g h (x.tallyOff + i)) → smapGet zeroByte t.mem.near a = smapGet zeroByte s.mem.near a) ∧
      t.mem = { s.mem with near := t.mem.near } ∧
      fieldsKept mboxFields s t ∧
      t = { s with flds := t.flds, mem := t.mem, out := t.out, events := t.events, stampCnt := t.stampCnt })

/-- R469, R470, R478, R480, R493, R494: a token that nothing refuses is answered and a warm reset of its REASON follows, a life-cycle one leaving the
transition pending for that start's step 1, a debug one opening debug; RESTART does as BOOT_CTL.RESTART, IMAGE_UPDATE starts an update of the
slot that is not running, WAKE latches. The layout of tokens is the model's (log entry 18). -/
def Obligations.MailboxResetsUpdatesAndWakes : Prop :=
  ∀ (s : State) (q : MboxReq) (r : Requester), s.fieldsCanonical = true → mboxOpen s q r →
    (q.command = 7 → r = .session → tokenLenOk q.args = true → lcRefused s r (tokenOf q.args) = none → held s = false → ∃ t l, exec (.lcRequest q) s = .next t ∧
      t.out = s.out ++ mboxAnswer r q 0 0 [] :: l ∧ getF t F.BOOT_RESET_REASON = 8 ∧ t.boot.phase = .running ∧
      t.boot.lc = some { target := (tokenOf q.args).target, ownerKh := (tokenOf q.args).ownerKh } ∧
      isSet t F.SEC_LC_PEND = true ∧ t.fuses = s.fuses ∧ t.mem.near = [] ∧ t.mem.bulk = [] ∧ t.cells = [] ∧ t.nor = s.nor) ∧
    (q.command = 8 → r = .session → tokenLenOk q.args = true → debugRefused s (tokenOf q.args) = none → held s = false → ∃ t l, exec (.debugToken q) s = .next t ∧
      t.out = s.out ++ mboxAnswer r q 0 0 [] :: l ∧ getF t F.BOOT_RESET_REASON = 9 ∧ isSet t F.SEC_STAT_DEBUG_OPEN = true ∧
      isSet t F.SEC_STAT_DEBUG_OPENED = true ∧ t.boot.debugOpenings = s.boot.debugOpenings + 1 ∧ t.boot.debugNext = false ∧ t.nor = s.nor) ∧
    (q.command = 9 → q.args = [] → policyAllows s 8 r = true → getF s F.CFG_MODE = 2 → ∃ t l, exec (.restart q) s = .next t ∧
      t.out = s.out ++ mboxAnswer r q 0 0 [] :: l ∧ getF t F.BOOT_RESET_REASON = 7 ∧ getF t F.BOOT_REC_FAIL_COUNT = 0 ∧
      getF t F.BOOT_REC_SLOTS_FAILED = 0 ∧ t.mem.near = [] ∧ t.mem.bulk = [] ∧ t.cells = [] ∧ t.nor = s.nor ∧ t.mem.catalogue = s.mem.catalogue) ∧
    (∀ addr len, q.command = 10 → q.args = leBytes addr 8 ++ leBytes len 4 → addr < 2 ^ 64 → addr % 4096 = 0 → 4096 ≤ len → len ≤ 117440512 →
      policyAllows s 7 r = true → isSet s F.BOOT_UPD_STAT_BUSY = false → getF s F.BOOT_STAT_SLOT < 2 → ∃ t, exec (.imageUpdate q) s = .next t ∧
      t.out = s.out ++ [mboxAnswer r q 0 0 []] ∧ isSet t F.BOOT_UPD_STAT_BUSY = true ∧ getF t F.BOOT_UPD_ADDR = addr ∧
      getF t F.BOOT_UPD_LEN = len ∧ t.boot.update = some ⟨1 - getF s F.BOOT_STAT_SLOT⟩ ∧ slotBytes t (1 - getF s F.BOOT_STAT_SLOT) = [] ∧
      slotBytes t (getF s F.BOOT_STAT_SLOT) = slotBytes s (getF s F.BOOT_STAT_SLOT) ∧
      fieldsKept ([F.BOOT_UPD_ADDR, F.BOOT_UPD_LEN, F.BOOT_UPD_STAT_BUSY, F.BOOT_UPD_STAT_RESULT, F.BOOT_UPD_STAT_KIB_DONE] ++ mboxFields) s t ∧
      t = { s with flds := t.flds, nor := t.nor, boot := t.boot, out := t.out }) ∧
    (q.command = 16 → q.args = [] → s.pins.aux = true → ∃ t, exec (.wake q) s = .next t ∧ t.out = s.out ++ [mboxAnswer r q 0 0 []] ∧
      isSet t F.IRQ_LATCH_I3C_WAKE = true ∧ lineBit t 0x14 = true ∧ (lineBit s 0x14 = false → pendBit t 0x14 = true) ∧
      t = { s with flds := t.flds, out := t.out })

/-! ### Power and temperature -/

/-- R424, R438, R445, R447: a reading is stored where its register is, with the minimum voltage, the hottest cluster and the peak; TEL_CLR resets what its
bits name; nothing else changes but what the throttling watches; a reading of 110 °C or more trips. The threshold below which a voltage reading is a
droop, 0 mV among them, is the model's choice (log entry 107). -/
def Obligations.ReadingsAreStored : Prop :=
  ∀ s : State, s.fieldsCanonical = true →
    (∀ r mv da, r < 16 → ∃ t, exec (.railReading r mv da) s = .next t ∧ getF t (F.TEL_RAIL_V r) = min mv 65535 ∧ getF t (F.TEL_RAIL_I r) = min da 65535 ∧
      fieldsKept [F.TEL_RAIL_V r, F.TEL_RAIL_I r] s t ∧ t = { s with flds := t.flds }) ∧
    (∀ c x, c < 64 → x < 4096 → (∀ d, d < 64 → getF s (F.TEL_TEMP_TEMP d) < 4096) → tempOf x < 880 → ∃ t,
      exec (.monitorUpdate (.cluster c x)) s = .next t ∧
      getF t (F.TEL_TEMP_TEMP c) = x ∧ isSet t (F.TEL_TEMP_VALID c) = true ∧
      (∀ d, d < 64 → isSet t (F.TEL_TEMP_VALID d) = true → tempOf (getF t (F.TEL_TEMP_TEMP d)) ≤ tempOf (getF t F.TEL_TEMP_MAX_TEMP)) ∧
      fieldsKept [F.TEL_TEMP_TEMP c, F.TEL_TEMP_VALID c, F.TEL_TEMP_MAX_CLUSTER, F.TEL_TEMP_MAX_TEMP, F.TEL_TEMP_PEAK_CLUSTER, F.TEL_TEMP_PEAK_TEMP] s t ∧
      t = { s with flds := t.flds, pwr := { s.pwr with hot := t.pwr.hot, coolSince := t.pwr.coolSince, peakSeen := t.pwr.peakSeen } }) ∧
    (∀ c x, c < 64 → x < 4096 → 880 ≤ tempOf x → s.pins.aux = true → s.pins.thermTrip = false → ∃ t, exec (.monitorUpdate (.cluster c x)) s = .next t ∧
      getF t (F.TEL_TEMP_TEMP c) = x ∧ isSet t F.BOOT_REC_TRIP = true ∧ t.pins.thermTrip = true ∧ t.pins.modPg = false ∧ t.boot.phase = .held ∧ unitsLost s t) ∧
    (∀ v mv, v < 32 → mv < 4096 → getF s (F.TEL_VMON_MIN_MV v) < 4096 → ∃ t, exec (.monitorUpdate (.volts v mv)) s = .next t ∧
      getF t (F.TEL_VMON_NOW_MV v) = mv ∧ getF t (F.TEL_VMON_MIN_MV v) = min mv (getF s (F.TEL_VMON_MIN_MV v)) ∧
      isSet t (F.TEL_VMON_DROOP v) = decide (mv < droopMv s v) ∧
      (isSet s (F.TEL_VMON_DROOP v) = false → isSet t (F.TEL_VMON_DROOP v) = true →
        getF t (F.TEL_DROOP_CNT v) = satAdd 32 (getF s (F.TEL_DROOP_CNT v)) 1) ∧
      fieldsKept [F.TEL_VMON_NOW_MV v, F.TEL_VMON_MIN_MV v, F.TEL_VMON_DROOP v, F.TEL_DROOP_CNT v, F.PWR_STAT_DROOP, F.PWR_CNT_DROOP] s t) ∧
    (∀ n c, n < 8 → c < 256 → ∃ t, exec (.monitorUpdate (.near n c)) s = .next t ∧ getF t (F.TEL_HBM_TEMP_TEMP_C n) = c ∧
      isSet t (F.TEL_HBM_TEMP_VALID n) = true ∧ fieldsKept [F.TEL_HBM_TEMP_TEMP_C n, F.TEL_HBM_TEMP_VALID n] s t) ∧
    (∀ e w, e < 4096 → w < 4096 → tempOf e < 880 → tempOf w < 880 → ∃ t, exec (.monitorUpdate (.ports e w)) s = .next t ∧ getF t F.TEL_PORT_TEMP_EAST = e ∧
      getF t F.TEL_PORT_TEMP_WEST = w ∧ fieldsKept [F.TEL_PORT_TEMP_EAST, F.TEL_PORT_TEMP_WEST] s t) ∧
    (∀ x, x < 4096 → s.pwr.dormant = false ∨ tempOf x < 880 → ∃ t, exec (.monitorUpdate (.aon x)) s = .next t ∧ getF t F.TEL_AON_TEMP = x ∧ fieldsKept [F.TEL_AON_TEMP] s t) ∧
    (∀ d m x, d < 3 → m < 8 → ∃ t, exec (.monitorUpdate (.process d m x)) s = .next t ∧ getF t (F.TEL_PMON d m) = min x 65535 ∧
      fieldsKept [F.TEL_PMON d m] s t) ∧
    ∀ a b c, ∃ t, exec (.telClear a b c) s = .next t ∧
      (∀ v, v < 32 → getF t (F.TEL_DROOP_CNT v) = (if a then 0 else getF s (F.TEL_DROOP_CNT v)) ∧
        getF t (F.TEL_VMON_MIN_MV v) = (if b then 0xFFF else getF s (F.TEL_VMON_MIN_MV v))) ∧
      (c = true → getF t F.TEL_TEMP_PEAK_TEMP = getF s F.TEL_TEMP_MAX_TEMP % 4096) ∧
      fieldsKept ([F.TEL_TEMP_PEAK_CLUSTER, F.TEL_TEMP_PEAK_TEMP] ++ (List.range 32).map F.TEL_DROOP_CNT ++ (List.range 32).map F.TEL_VMON_MIN_MV) s t ∧
      t = { s with flds := t.flds }

/-- R426, R434 to R436, R439: a slewed cap moves by its step to its target and no further; a lost regulator phase lowers the cap to the power at 90 %
of what the remaining phases carry; a louvre level sets the louvre's cap, and level 3 the lowest point; the effective cap is shown. That powers
and caps are rounded down where they are stored and shown is the model's choice (log entry 67). -/
def Obligations.CapFollowsSlewPhasesAndLouvre : Prop :=
  ∀ s : State, s.fieldsCanonical = true →
    (∀ n g, getF s F.PWR_CAP_CFG_SLEW = n → 10 * getF s F.PWR_CAP_TARGET_W = g → n ≠ 0 → g ≠ 0 → s.pwr.rackCap ≠ g → ∃ t,
      exec .capSlewStep s = .next t ∧ t.pwr.rackCap = (if s.pwr.rackCap < g then min g (s.pwr.rackCap + n) else max g (s.pwr.rackCap - n)) ∧
      getF t F.PWR_CAP_EFFECTIVE_W = effectiveCap t / 10 ∧ t.mem = s.mem ∧ t.cells = s.cells ∧ t.boot = s.boot) ∧
    (∀ n, n < 24 → bitF s F.PWR_VREG n = true → getF s F.PWR_VREG < 2 ^ 24 → ∃ t, exec (.regulatorPhaseFault n) s = .next t ∧
      bitF t F.PWR_VREG n = false ∧ (∀ m, m < 24 → m ≠ n → bitF t F.PWR_VREG m = bitF s F.PWR_VREG m) ∧ isSet t F.PWR_STAT_PHASE_LOSS = true ∧
      (∀ c : Rat, c = ((((List.range 24).filter (bitF t F.PWR_VREG)).length * 45 * opMv s (getF s F.PWR_OP_TARGET) : Nat) : Rat) →
        t.pwr.phaseCap = some (min (c / 100 + pOther s).floor.toNat (s.pwr.phaseCap.getD 12000))) ∧
      getF t F.PWR_CAP_EFFECTIVE_W = effectiveCap t / 10 ∧ getF t F.PWR_CNT_CAP = satAdd 32 (getF s F.PWR_CNT_CAP) 1 ∧ t.mem = s.mem ∧ t.cells = s.cells) ∧
    ∀ level, level < 4 → level ≠ s.pins.louvre → ∃ t, exec (.louvreChange level) s = .next t ∧ getF t F.PWR_STAT_LOUVRE = level ∧
      t.pins.louvre = level ∧ t.pins.louvre0 = bitOf level 0 ∧ t.pins.louvre1 = bitOf level 1 ∧ isSet t F.PWR_STAT_LOUVRE_CHG = true ∧
      getF t F.PWR_CNT_LOUVRE = satAdd 32 (getF s F.PWR_CNT_LOUVRE) 1 ∧ getF t F.PWR_CAP_EFFECTIVE_W = effectiveCap t / 10 ∧
      (level = 3 → s.pwr.droop = false → getF t F.PWR_OP_CUR ≤ getF t F.PWR_RANGE_OP_MIN) ∧ t.mem = s.mem ∧ t.cells = s.cells

/-- R432, R433: a droop at an array monitor begins a stretch, a later one in the stretch only sets its own bit and count (log entry 71: PWR_CNT_DROOP counts
stretches); the stretch ends after 32 ac, when
no array monitor in a droop reads low, with every array monitor's bit cleared, its cycles counted and a change of point that waited for its end made.
R437: a reading at its threshold lowers the ceilings by one point, down to OP_MIN, again 100 µs later while it lasts; 100 µs below the hysteresis
raise them by one, and the step that leaves none lowered ends throttling. -/
def Obligations.DroopsAndThrottling : Prop :=
  (∀ s : State, s.fieldsCanonical = true →
      (∀ v, v < 32 → ∃ t, exec (.droop v) s = .next t ∧ isSet t (F.TEL_VMON_DROOP v) = true ∧
        getF t (F.TEL_DROOP_CNT v) = satAdd 32 (getF s (F.TEL_DROOP_CNT v)) 1 ∧
        (v < 24 → s.pwr.droop = false → isSet t F.PWR_STAT_DROOP = true ∧ getF t F.PWR_CNT_DROOP = satAdd 32 (getF s F.PWR_CNT_DROOP) 1 ∧
          t.pwr = { s.pwr with droop := true, droopAc := 0 }) ∧
        (24 ≤ v ∨ s.pwr.droop = true → getF t F.PWR_CNT_DROOP = getF s F.PWR_CNT_DROOP ∧ t.pwr = s.pwr) ∧
        fieldsKept [F.TEL_VMON_DROOP v, F.TEL_DROOP_CNT v, F.PWR_STAT_DROOP, F.PWR_CNT_DROOP] s t ∧ t = { s with flds := t.flds, pwr := t.pwr }) ∧
      (∀ ac v, v < 24 → isSet s (F.TEL_VMON_DROOP v) = true → readsLow s v = true → exec (.droopEnd ac) s = .next s) ∧
      (∀ ac, s.pwr.droopAc + ac < 32 → exec (.droopEnd ac) s = .next s) ∧
      ∀ ac, s.pwr.droop = true → 32 ≤ s.pwr.droopAc + ac → (∀ v, v < 24 → isSet s (F.TEL_VMON_DROOP v) = true → readsLow s v = false) → ∃ t,
        exec (.droopEnd ac) s = .next t ∧ t.pwr.droop = false ∧ t.pwr.opWait = none ∧
        (∀ v, v < 24 → isSet t (F.TEL_VMON_DROOP v) = false) ∧ getF t F.PWR_DROOP_AC = satAdd 64 (getF s F.PWR_DROOP_AC) ac ∧
        (s.pwr.lag + (ac : Rat) / opMhz (getF s F.PWR_OP_CUR) ≤ 1 → ∀ op, s.pwr.opWait = some op → getF t F.PWR_OP_CUR = op % 16) ∧ t.mem = s.mem ∧ t.cells = s.cells) ∧
  (∀ s : State, s.fieldsCanonical = true →
      (overTemp s = true → (s.pwr.hot = false ∨ s.pwr.throttleAt + 100000 ≤ getF s F.TICK_DT) → ∃ t, exec .throttleStep s = .next t ∧
        isSet t F.PWR_STAT_THROTTLING = true ∧ t.pwr.hot = true ∧ t.pwr.throttleAt = getF s F.TICK_DT ∧
        (∀ k, k < 16 → throttled t k = min (throttled s k + 1) (throttleRoom s k)) ∧
        (∀ p : PhaseLeft, p.k < 16 → p.e = energyOf s (liveCfg s).modelId (liveCfg s).configId p.k → getF s F.PWR_STAT_LOUVRE ≠ 3 → s.pwr.guardMax = none →
          phaseCeil t p = max (getF s F.PWR_RANGE_OP_MIN) (phaseCeil s p - 1)) ∧
        (isSet s F.PWR_STAT_THROTTLING = false → isSet t F.PWR_STAT_THROTTLE = true ∧
          getF t F.PWR_CNT_THROTTLE = satAdd 32 (getF s F.PWR_CNT_THROTTLE) 1) ∧ t.mem = s.mem ∧ t.cells = s.cells) ∧
      ∀ c, s.pwr.coolSince = some c → isSet s F.PWR_STAT_THROTTLING = true → coolTemp s = true → c + 100000 ≤ getF s F.TICK_DT →
        s.pwr.throttleAt + 100000 ≤ getF s F.TICK_DT → ∃ t, exec .throttleReleaseStep s = .next t ∧
          (∀ k, k < 16 → throttled t k = min (throttled s k) (throttleRoom s k) - 1) ∧
          (∀ p : PhaseLeft, p.k < 16 → p.e = energyOf s (liveCfg s).modelId (liveCfg s).configId p.k → getF s F.PWR_STAT_LOUVRE ≠ 3 → s.pwr.guardMax = none →
            phaseCeil t p = min (capCeil s p.e) (phaseCeil s p + 1)) ∧
          t.pwr.throttleAt = getF s F.TICK_DT ∧ (isSet t F.PWR_STAT_THROTTLING = true ↔ ∃ k, k < 16 ∧ throttled t k ≠ 0) ∧ t.mem = s.mem ∧
          t.cells = s.cells)

/-- R421, R423, R425, R427, R428: the frequency rises by one point where the rail has its voltage and the power fits; the estimator keeps its last 100
estimates, each the calibrated sum of its terms; a measurement is shown, keeps the gain between 0.75 and 1.25 and the last ten values of P_other. -/
def Obligations.EstimatesAndRamps : Prop :=
  ∀ s : State, s.fieldsCanonical = true →
    (∀ mv, getF s F.PWR_OP_CUR < getF s F.PWR_OP_TARGET → getF s F.PWR_OP_TARGET < 16 → opMv s (getF s F.PWR_OP_CUR + 1) ≤ mv → opMv s (getF s F.PWR_OP_CUR) ≤ mv →
      getF s F.PWR_OP_CUR + 1 ≤ getF s F.PWR_RANGE_OP_MIN ∨ predAt s (nowEnergy s) (getF s F.PWR_OP_CUR + 1) mv ≤ capTarget s →
      s.pwr.opWait = none → s.pwr.droop = false → ∃ t, exec (.opRampStep mv) s = .next t ∧ getF t F.PWR_OP_CUR = getF s F.PWR_OP_CUR + 1 ∧
        t.pwr = { s.pwr with railMv := mv } ∧ fieldsKept [F.PWR_OP_CUR] s t ∧ t = { s with flds := t.flds, pwr := t.pwr }) ∧
    (∀ mv, s.pwr.opWait = none → opMv s (getF s F.PWR_OP_CUR) ≤ mv → mv < opMv s (getF s F.PWR_OP_CUR + 1) →
      exec (.opRampStep mv) s = .next { s with pwr := { s.pwr with railMv := mv } }) ∧
    (∀ mv, mv < opMv s (getF s F.PWR_OP_CUR) → exec (.opRampStep mv) s = .next s) ∧
    (∀ a : Activity, ∃ t, exec (.estimatorUpdate a) s = .next t ∧
      (∀ v g : Rat, v = (s.pwr.railMv : Rat) / opMv s 14 → g = (getF s F.PWR_CAL : Rat) / 16384 →
        t.pwr.est = (((s.pwr.counts.map (fun x => clusterPower s.fuses.estimator x.2)).sum * (v * v) + ((List.range 64).map (clusterLeak s)).sum) * g +
          portPower s a * g) :: s.pwr.est.take 99) ∧ t.pwr.counts = [] ∧ t.mem = s.mem ∧ t.cells = s.cells) ∧
    ∀ m amps, ∃ t, exec (.powerMeasurement m amps) s = .next t ∧ getF t F.PWR_MEAS_MEAS_DW = min m 65535 ∧
      (s.pwr.calHeld < 64 → 0x3000 ≤ getF t F.PWR_CAL ∧ getF t F.PWR_CAL ≤ 0x5000) ∧
      (s.pwr.others.length < 10 → t.pwr.others = s.pwr.others ++ [(1000 * m - s.pwr.railMv * amps) / 1000]) ∧
      (s.pwr.others.length = 10 → t.pwr.others = s.pwr.others.drop 1 ++ [(1000 * m - s.pwr.railMv * amps) / 1000]) ∧ t.mem = s.mem ∧ t.cells = s.cells

/-! ### Resets, power and starts -/

/-- R438, R443, R527, R530, R537: a thermal trip records itself, asserts THERMTRIP_N and switches off all rails but those of the auxiliary input, and
a second one has no effect; a supply failure does so without a trip; loss of the auxiliary input takes the always-on domain down; a low supply only
raises source 0x16. -/
def Obligations.SupplyFailuresTurnRailsOff : Prop :=
  ∀ s : State, s.fieldsCanonical = true →
    (s.pins.aux = true → s.pins.thermTrip = false → s.pins.rails < 2 ^ 16 → ∃ t, exec .thermalTrip s = .next t ∧
      t.pins = { s.pins with
        rails := Nat.land s.pins.rails 0x8008, modPg := false, powering := false, storePerst := 0xF, xspiRst := true, storeRefclk := 0, thermTrip := true, blocked := true } ∧
      isSet t F.BOOT_REC_TRIP = true ∧ isSet t F.BOOT_REC_SUPPLY = false ∧ isSet t F.TICK_STAT_RUNNING = false ∧
      t.boot = { s.boot with phase := .held, lc := t.boot.lc } ∧ unitsLost s t ∧
      fieldsKept [F.BOOT_REC_TRIP, F.BOOT_REC_SUPPLY, F.TICK_STAT_RUNNING, F.BOOT_STAT_READY, F.SEC_LC_GEN_DONE] s t ∧ fusesStay s t ∧ t.nor = s.nor ∧ t.irq = s.irq) ∧
    (s.pins.thermTrip = true → exec .thermalTrip s = .next s) ∧
    (inputStage s = true → s.pins.rails < 2 ^ 16 → ∃ t, exec .supplyFail s = .next t ∧
      t.pins = { s.pins with
        main := false, rails := Nat.land s.pins.rails 0x8008, modPg := false, powering := false, storePerst := 0xF, xspiRst := true, storeRefclk := 0, thermTrip := false, blocked := false } ∧
      isSet t F.BOOT_REC_SUPPLY = true ∧ isSet t F.BOOT_REC_TRIP = false ∧ t.boot = { s.boot with phase := .held, lc := t.boot.lc } ∧ unitsLost s t ∧
      fieldsKept [F.BOOT_REC_TRIP, F.BOOT_REC_SUPPLY, F.TICK_STAT_RUNNING, F.BOOT_STAT_READY, F.SEC_LC_GEN_DONE] s t ∧ fusesStay s t ∧ t.nor = s.nor ∧ t.irq = s.irq) ∧
    (s.pins.main = true → inputStage s = false → exec .supplyFail s =
      .next { s with pins := { s.pins with main := false, blocked := false, thermTrip := false, powering := false } }) ∧
    (inputStage s = true → getF s (F.IRQ_SRC_FILTER 0x16) ≤ 1 → ∃ t, exec .supplyLow s = .next t ∧ pendBit t 0x16 = (pendBit s 0x16 || !lineBit s 0x16 || !isEdge s 0x16) ∧
      lineBit t 0x16 = false ∧ fieldsKept [F.IRQ_LINE 0, F.IRQ_PEND 0] s t ∧ t = { s with flds := t.flds }) ∧
    (s.pins.aux = true → ∃ t, exec .auxPowerLoss s = .next t ∧ t.flds = [] ∧ t.boot = { catalogueKey := s.boot.catalogueKey } ∧ unitsLost s t ∧
      t.pins = { s.pins with
        aux := false, rails := 0, modPg := true, powering := false, storePerst := 0xF, xspiRst := true, storeRefclk := 0, thermTrip := false, blocked := false } ∧ fusesStay s t ∧ t.nor = s.nor)

/-- R448, R449, R527, R529, R530: auxiliary power begins a cold reset, in which every field takes its reset value; the 54 V input restored under
auxiliary power is a warm reset of REASON 4; a rail that fails its start (which one is a free value, log entry 97) stops the sequence until the input is
removed; a rail out of regulation takes MOD_PG down, and the REASON of that reset is a free value (log entry 75). -/
def Obligations.PowerComesUp : Prop :=
  ∀ s : State, s.fieldsCanonical = true →
    (s.pins.aux = false → ∃ t, exec .auxPowerOn s = .next t ∧ getF t F.BOOT_RESET_REASON = 1 ∧
      (∀ f : Fld, (∀ g ∈ [F.BOOT_RESET_REASON, F.PWR_STAT_LOUVRE], g.key ≠ f.key) → getF t f = fldReset f.key) ∧
      t.pins.aux = true ∧ t.pins.coldDue = true ∧ t.pins.rails = 0x8008 ∧ t.pins.modPg = false ∧
      (s.pins.main = true → s.pins.blocked = false → s.pins.thermTrip = false → t.pins.powering = true) ∧ unitsLost s t ∧
      t.boot = { catalogueKey := s.boot.catalogueKey } ∧ fusesStay s t ∧ t.nor = s.nor) ∧
    (s.pins.main = false → s.pins.aux = true → s.pins.thermTrip = false → s.pins.blocked = false → s.pins.coldDue = false → ∃ t,
      exec .mainPowerOn s = .next t ∧ t.pins = { s.pins with
        main := true, powering := true, modPg := false, storePerst := 0xF, xspiRst := true, storeRefclk := 0 } ∧ getF t F.BOOT_RESET_REASON = 4 ∧ warmFields [F.SEC_LC_GEN_DONE] s t ∧ unitsLost s t ∧ t.boot.phase = .held ∧ fusesStay s t ∧ t.nor = s.nor) ∧
    (s.pins.powering = true → s.pins.rails < 2 ^ 16 → ∃ t, exec .railStartFail s = .next t ∧
      t.pins = { s.pins with powering := false, blocked := true, rails := Nat.land s.pins.rails 0x8008, modPg := false } ∧
      t = { s with pins := t.pins, out := t.out, freeCtr := t.freeCtr }) ∧
    ∀ r, r < 16 → powered s = true → bitOf s.pins.rails r = true → ∃ t, exec (.railOutOfRegulation r) s = .next t ∧
      t.pins = { s.pins with modPg := false, powering := true, storePerst := 0xF, xspiRst := true, storeRefclk := 0 } ∧
      warmFields [F.SEC_LC_GEN_DONE] s t ∧ unitsLost s t ∧ t.boot.phase = .held ∧
      getF t F.BOOT_RESET_REASON = (Config.freeValue s.freeCtr).toNat % 16 ∧ fusesStay s t ∧ t.nor = s.nor

/-- R448, R449, R533: a reset pin asserted while MOD_PG is high is a warm reset of its REASON, that of SYS_RST_N where both begin in one always-on
cycle; its release changes the pin alone; when nothing holds the module every rail is up, rail 0 at OP_MIN's point, and the first boot step begins; a
pending life-cycle transition waits for the end of that step. Which rails and clocks START brings up, and what a reset leaves of a STORE_GEN fuse that it
catches being burnt (R470, R471), are the model's choices (log entry 97). -/
def Obligations.ResetPinsHoldTheModule : Prop :=
  ∀ s : State, s.fieldsCanonical = true →
    (powered s = true → s.boot.phase ≠ .held → s.pins.sysRst = false → ∃ t, exec (.sysRstN true) s = .next t ∧ getF t F.BOOT_RESET_REASON = 3 ∧
      t.pins = { s.pins with sysRst := true, resetAt := getF t F.TICK_DT, storePerst := 0xF, xspiRst := true, storeRefclk := 0 } ∧ getF t F.TICK_DT = getF s F.TICK_DT ∧
      warmFields [F.SEC_LC_GEN_DONE] s t ∧ unitsLost s t ∧ t.boot.phase = .held ∧ fusesStay s t ∧ t.nor = s.nor) ∧
    (powered s = true → s.boot.phase ≠ .held → s.pins.perst = false → ∃ t, exec (.perstN true) s = .next t ∧ getF t F.BOOT_RESET_REASON = 2 ∧
      t.pins = { s.pins with perst := true, resetAt := getF t F.TICK_DT, storePerst := 0xF, xspiRst := true, storeRefclk := 0 } ∧
      warmFields [F.SEC_LC_GEN_DONE] s t ∧ unitsLost s t ∧ t.boot.phase = .held ∧ fusesStay s t ∧ t.nor = s.nor) ∧
    (powered s = true → s.boot.phase = .held → s.pins.resetAt = getF s F.TICK_DT → getF s F.BOOT_RESET_REASON = 3 → s.pins.perst = false →
      exec (.perstN true) s = .next { s with pins := { s.pins with perst := true } }) ∧
    exec (.sysRstN false) s = .next { s with pins := { s.pins with sysRst := false } } ∧
    exec (.perstN false) s = .next { s with pins := { s.pins with perst := false } } ∧
    (s.boot.phase = .held → s.pins.aux = true → s.pins.powering = true ∨ s.pins.modPg = true → s.pins.sysRst = false → s.pins.perst = false →
      s.pins.rails < 2 ^ 16 → ∃ t, exec .start s = .next t ∧ t.boot.phase = .running ∧ getF t F.BOOT_STAT_STEP = 1 ∧ t.boot.stepAt = getF s F.TICK_DT ∧
      t.pins = { s.pins with powering := false, modPg := true, coldDue := false, xspiRst := false, rails := Nat.lor s.pins.rails 0x7FF7 } ∧
      t.pwr = { s.pwr with railMv := s.fuses.vid.getD (getF s F.PWR_RANGE_OP_MIN) 550 } ∧ t.boot.lc = s.boot.lc ∧ t.fuses = s.fuses ∧
      t.boot.debugNext = false ∧ t.nor = s.nor ∧ t.mem = s.mem ∧ fieldsKept [F.BOOT_STAT_STEP, F.SEC_STAT_DEBUG_OPEN, F.SEC_STAT_DEBUG_OPENED, F.MEM_STAT_WIPE_BUSY] s t) ∧
    (s.boot.phase = .held → s.pins.aux = true → s.pins.powering = false → s.pins.sysRst = true ∨ s.pins.perst = true → exec .start s = .next s)

/-- R461, R466, R467, R486: 10 ms after a failed step a warm reset of REASON 5 begins a new start; BOOT_CTL.RESTART clears the run of failed starts and
is a reset of REASON 7; CLEAR_EXCL waits for that restart; a requester whom the policy does not permit is denied. -/
def Obligations.RestartsFollow : Prop :=
  ∀ s : State, s.fieldsCanonical = true →
    (s.boot.phase = .failWait → s.boot.failAt + 10000000 ≤ getF s F.TICK_DT → held s = false → ∃ t, exec .bootRetryReset s = .next t ∧
      getF t F.BOOT_RESET_REASON = 5 ∧ t.boot.phase = .running ∧ getF t F.BOOT_STAT_STEP = 1 ∧ t.boot.fails = s.boot.fails ∧
      getF t F.BOOT_REC_FAIL_COUNT = getF s F.BOOT_REC_FAIL_COUNT ∧ getF t F.TICK_DT = getF s F.TICK_DT ∧
      warmFields [F.BOOT_STAT_STEP, F.SEC_LC_GEN_DONE, F.SEC_STAT_DEBUG_OPEN, F.SEC_STAT_DEBUG_OPENED] s t ∧ unitsLost s t ∧ t.nor = s.nor) ∧
    (s.boot.phase = .failWait → getF s F.TICK_DT < s.boot.failAt + 10000000 → exec .bootRetryReset s = .next s) ∧
    ∀ r : Requester, (bootCtlServed s = true → policyAllows s 8 r = true → held s = false → ∃ t, exec (.bootCtlRestart r) s = .next t ∧
        getF t F.BOOT_RESET_REASON = 7 ∧ t.boot.phase = .running ∧ getF t F.BOOT_STAT_STEP = 1 ∧ t.boot.fails = [] ∧ t.boot.clearAsked = false ∧
        getF t F.BOOT_REC_FAIL_COUNT = 0 ∧ getF t F.BOOT_REC_SLOTS_FAILED = 0 ∧
        (s.boot.clearAsked = true → getF t F.BOOT_EXCL_NEAR_OUT = 0 ∧ getF t F.BOOT_EXCL_BULK_OUT = 0 ∧ getF t F.BOOT_EXCL_PORTS_FAILED = 0 ∧
          t.boot.nearOut = 0 ∧ t.boot.bulkOut = 0 ∧ t.boot.portsFailed = 0) ∧ unitsLost s t ∧ t.nor = s.nor) ∧
      (bootCtlServed s = true → policyAllows s 8 r = true → exec (.clearExcl r) s = .next { s with boot := { s.boot with clearAsked := true } }) ∧
      (policyAllows s 8 r = false → exec (.clearExcl r) s = .next (deny s 8 r) ∧ exec (.bootCtlRestart r) s = .next (deny s 8 r)) ∧
      (policyAllows s 8 r = true → bootCtlServed s = false → exec (.clearExcl r) s = .next s ∧ exec (.bootCtlRestart r) s = .next s)

/-- R460 to R462, R466, R467: a step that completes is recorded and the next begins; the last one opens READY; a step past its limit fails with
TIMEOUT; a step that fails records step, cause and count, and the third failed start ends in safe mode, an earlier one in a wait. R469 to R471, R485,
R496: step 1 burns the fuses of a pending transition only where every self-test has passed; step 7 waits for its closed batch. DEV_CAP2 after step 7 is
log entry 97, WIPE_BUSY from its end on log entry 66. -/
def Obligations.BootStepsFollow : Prop :=
  ∀ (s : State) (d : BootData), s.fieldsCanonical = true → s.boot.phase = .running →
    (getF s F.BOOT_STAT_STEP = 1 → getF s F.TICK_DT ≤ s.boot.stepAt + 100000000 →
      (d.tests % 64 ≠ 63 → ∃ t, exec (.bootStepComplete d) s = .next t ∧ t.boot.phase = .safe ∧ getF t F.BOOT_REC_FAIL_CAUSE = 2 ∧
        isSet t F.SEC_SELFTEST_FAIL = true ∧ t.boot.lc = s.boot.lc ∧ t.fuses = s.fuses ∧ getF t F.SEC_LC_STATE = getF s F.SEC_LC_STATE ∧
        getF t F.SEC_SERIAL = getF s F.SEC_SERIAL) ∧
      (d.tests % 64 = 63 → s.boot.safe = false → ∀ j, s.boot.lc = some j → j.genDone = false → j.target < 4 → ∃ t,
        exec (.bootStepComplete d) s = .next t ∧ getF t F.BOOT_STAT_STEP = 2 ∧ t.boot.phase = .running ∧ t.boot.lc = none ∧
        t.fuses = { s.fuses with lc := j.target, storeGen := s.fuses.storeGen + 1, owners := s.fuses.owners ++ j.ownerKh.toList } ∧
        isSet t F.SEC_STAT_LC_DONE = true ∧ isSet t F.SEC_LC_PEND = false ∧ getF t F.SEC_LC_STATE = j.target ∧ t.nor = s.nor ∧ t.mem = s.mem)) ∧
    (getF s F.BOOT_STAT_STEP = 4 → getF s F.TICK_DT ≤ s.boot.stepAt + 800000000 → s.boot.nearOut = 0 → d.near = 0xFF → ∃ t,
      exec (.bootStepComplete d) s = .next t ∧ getF t F.DEV_CAP0_NEAR_PRESENT = 0xFF ∧ getF t (F.BOOT_STEP 4) = getF s F.TICK_DT % 2 ^ 64 ∧
      getF t F.BOOT_REC_LAST_STEP = 4 ∧ getF t F.BOOT_STAT_STEP = 5 ∧ t.boot.phase = .running ∧
      fieldsKept [F.DEV_CAP0_NEAR_PRESENT, F.BOOT_STEP 4, F.BOOT_REC_LAST_STEP, F.BOOT_STAT_STEP, F.MEM_STAT_WIPE_BUSY] s t ∧ t = { s with flds := t.flds, boot := t.boot }) ∧
    (getF s F.BOOT_STAT_STEP = 7 → getF s F.TICK_DT ≤ s.boot.stepAt + 400000000 → s.stw.closed ≠ 1 → exec (.bootStepComplete d) s = .next s) ∧
    (getF s F.BOOT_STAT_STEP = 7 → getF s F.TICK_DT ≤ s.boot.stepAt + 400000000 → s.stw.closed = 1 → s.boot.retired = [] → d.defects = [] → ∃ t,
      exec (.bootStepComplete d) s = .next t ∧ getF t F.DEV_CAP2 = 0xFFFF ∧ getF t (F.BOOT_STEP 7) = getF s F.TICK_DT % 2 ^ 64 ∧
      getF t F.BOOT_REC_LAST_STEP = 7 ∧ getF t F.BOOT_STAT_STEP = 8 ∧ isSet t F.MEM_STAT_WIPE_BUSY = true ∧
      t.boot.phase = .running ∧ fieldsKept [F.DEV_CAP2, F.BOOT_STEP 7, F.BOOT_REC_LAST_STEP, F.BOOT_STAT_STEP, F.MEM_STAT_WIPE_BUSY] s t ∧
      t = { s with flds := t.flds, boot := t.boot }) ∧
    (getF s F.BOOT_STAT_STEP = 8 → getF s F.TICK_DT ≤ s.boot.stepAt + 1500000000 → d.wipeNear = 0 → d.wipeBulk = 0 → s.mem.early = [] → ∃ t,
      exec (.bootStepComplete d) s = .next t ∧ isSet t F.MEM_STAT_WIPE_BUSY = false ∧ getF t (F.BOOT_STEP 8) = getF s F.TICK_DT % 2 ^ 64 ∧
      getF t F.BOOT_REC_LAST_STEP = 8 ∧ getF t F.BOOT_STAT_STEP = 9 ∧ t.boot.phase = .running ∧
      fieldsKept [F.MEM_STAT_WIPE_BUSY, F.BOOT_STEP 8, F.BOOT_REC_LAST_STEP, F.BOOT_STAT_STEP] s t ∧ t = { s with flds := t.flds, boot := t.boot }) ∧
    (getF s F.BOOT_STAT_STEP = 10 → ∃ t, exec (.bootStepComplete d) s = .next t ∧ t.boot.phase = .ready ∧ t.boot.fails = [] ∧
      isSet t F.BOOT_STAT_READY = true ∧ getF t F.BOOT_REC_FAIL_COUNT = 0 ∧ getF t F.BOOT_REC_SLOTS_FAILED = 0 ∧ getF t F.BOOT_REC_LAST_STEP = 10 ∧
      (s.boot.ejectSeen = true → isSet t F.ADM_SHUT_EJECT = true) ∧ t.boot.ejectSeen = false ∧ t.nor = s.nor) ∧
    (getF s F.BOOT_STAT_STEP = 6 → tablesOk s = false → ∀ cause, 0 < cause → cause < 15 → ∃ t, exec (.bootStepComplete d) s = .next t ∧
      exec (.bootStepFail cause) s = .next t ∧ getF t F.BOOT_REC_FAIL_STEP = 6 ∧ getF t F.BOOT_REC_FAIL_CAUSE = 10 ∧
      getF t F.BOOT_REC_FAIL_COUNT = min 3 (getF s F.BOOT_REC_FAIL_COUNT + 1)) ∧
    (∀ k, 2 < k → k < 10 → getF s F.BOOT_STAT_STEP = k → (k = 6 → tablesOk s = true) → s.boot.stepAt + 1000000 * stepLimit k < getF s F.TICK_DT → ∃ t,
      exec (.bootStepComplete d) s = .next t ∧ getF t F.BOOT_REC_FAIL_STEP = k ∧ getF t F.BOOT_REC_FAIL_CAUSE = 14 ∧
      getF t F.BOOT_REC_FAIL_COUNT = min 3 (getF s F.BOOT_REC_FAIL_COUNT + 1)) ∧
    ∀ k cause, k < 16 → 0 < cause → cause < 15 → getF s F.BOOT_STAT_STEP = k → k ≠ 10 →
      (k = 6 → tablesOk s = true ∧ (cause = 9 → failsAt s 6 < 2)) → ∃ t, exec (.bootStepFail cause) s = .next t ∧
      getF t F.BOOT_REC_FAIL_STEP = k ∧ getF t F.BOOT_REC_FAIL_CAUSE = cause ∧
      getF t F.BOOT_REC_FAIL_COUNT = min 3 (getF s F.BOOT_REC_FAIL_COUNT + 1) ∧ (cause = 2 ∨ 2 ≤ getF s F.BOOT_REC_FAIL_COUNT →
        t.boot.phase = .safe ∧ isSet t F.BOOT_STAT_SAFE = true ∧ getF t F.DEV_CAP1_STEWARD_UP = 0 ∧ isSet t F.TICK_STAT_RUNNING = false ∧ unitsLost s t) ∧
      (cause ≠ 2 → getF s F.BOOT_REC_FAIL_COUNT < 2 → t.boot.phase = .failWait ∧ t.boot.failAt = getF s F.TICK_DT ∧
        fieldsKept [F.BOOT_REC_FAIL_STEP, F.BOOT_REC_FAIL_CAUSE, F.BOOT_REC_FAIL_COUNT, F.BOOT_REC_SLOTS_FAILED, F.BOOT_STAT_SLOT] s t ∧
        t.mem = s.mem ∧ t.cells = s.cells) ∧ (cause = 2 → isSet t F.SEC_SELFTEST_FAIL = true) ∧ t.fuses = s.fuses ∧ t.nor = s.nor

/-- R455, R478: an update erases the slot that is not running and holds BUSY; when it is done a slot that passes its check holds the image, one that
does not is left as the start of the update left it (erased as a whole: log entry 90), and RESULT says which; the running slot never changes. -/
def Obligations.ImageUpdatesWriteTheOtherSlot : Prop :=
  ∀ s : State, s.fieldsCanonical = true →
    (∀ r : Requester, isSet s F.BOOT_UPD_STAT_BUSY = false → s.boot.phase ≠ .held → getF s F.BOOT_STAT_SLOT < 2 →
      (policyAllows s 7 r = true → 4096 ≤ getF s F.BOOT_UPD_LEN → getF s F.BOOT_UPD_LEN ≤ 117440512 → ∃ t, exec (.bootUpdStart r) s = .next t ∧
        isSet t F.BOOT_UPD_STAT_BUSY = true ∧ getF t F.BOOT_UPD_STAT_RESULT = 0 ∧ getF t F.BOOT_UPD_STAT_KIB_DONE = 0 ∧
        t.boot = { s.boot with update := some ⟨1 - getF s F.BOOT_STAT_SLOT⟩ } ∧ slotBytes t (1 - getF s F.BOOT_STAT_SLOT) = [] ∧
        slotBytes t (getF s F.BOOT_STAT_SLOT) = slotBytes s (getF s F.BOOT_STAT_SLOT) ∧
        fieldsKept [F.BOOT_UPD_STAT_BUSY, F.BOOT_UPD_STAT_RESULT, F.BOOT_UPD_STAT_KIB_DONE] s t ∧
        t = { s with flds := t.flds, nor := t.nor, boot := t.boot }) ∧
      (policyAllows s 7 r = true → getF s F.BOOT_UPD_LEN < 4096 → ∃ t, exec (.bootUpdStart r) s = .next t ∧ getF t F.BOOT_UPD_STAT_RESULT = 2 ∧
        isSet t F.BOOT_STAT_UPD_DONE = true ∧ fieldsKept [F.BOOT_UPD_STAT_RESULT, F.BOOT_STAT_UPD_DONE] s t ∧ t = { s with flds := t.flds }) ∧
      (policyAllows s 7 r = false → ∃ t, exec (.bootUpdStart r) s = .next t ∧ getF t F.BOOT_UPD_STAT_RESULT = 1 ∧
        isSet t F.BOOT_STAT_UPD_DONE = true ∧ t.nor = s.nor)) ∧
    (∀ r : Requester, isSet s F.BOOT_UPD_STAT_BUSY = true → s.boot.phase ≠ .held →
      (policyAllows s 7 r = true → exec (.bootUpdStart r) s = .next s) ∧ (policyAllows s 7 r = false → exec (.bootUpdStart r) s = .next (deny s 7 r))) ∧
    ∀ j image norError b, s.boot.update = some j → j.slot < 2 → b = image.take (getF s F.BOOT_UPD_LEN) ++ List.replicate (getF s F.BOOT_UPD_LEN - image.length) 0#8 →
      ∃ t, exec (.imageUpdateDone image norError) s = .next t ∧ isSet t F.BOOT_UPD_STAT_BUSY = false ∧ isSet t F.BOOT_STAT_UPD_DONE = true ∧
        getF t F.BOOT_UPD_STAT_RESULT = (if norError then 7 else (imageFault s b).getD 0) ∧ t.boot = { s.boot with update := none } ∧
        slotBytes t j.slot = (if norError = false ∧ imageFault s b = none then b else slotBytes s j.slot) ∧
        slotBytes t (1 - j.slot) = slotBytes s (1 - j.slot) ∧
        fieldsKept [F.BOOT_UPD_STAT_BUSY, F.BOOT_UPD_STAT_RESULT, F.BOOT_UPD_STAT_KIB_DONE, F.BOOT_STAT_UPD_DONE, F.BOOT_SLOT_VALID0, F.BOOT_SLOT_VALID1] s t ∧
        t = { s with flds := t.flds, nor := t.nor, boot := t.boot }

/-- R442, R443, R512: a Dormant request is refused with its reason, or switches off all but the always-on domain with Near in self-refresh; device
time's alarm and a wake edge wake the module in maintenance mode with Bulk lost and ticks running on; an edge always sets its latch.
R375, R380, R416, R463: an eject warning sets its latch; in READY it closes the shutter, during a start it is only recorded; at the end of the
frame every record is written and submission rings are read no more. -/
def Obligations.DormancyAndEjection : Prop :=
  (∀ s : State, s.fieldsCanonical = true →
      (∀ r : Requester, s.boot.phase = .ready → s.pwr.dormant = false →
        (policyAllows s 3 r = false → ∃ t, exec (.dormantRequest r) s = .next t ∧ getF t F.PWR_DORMANT_REFUSE_WHY = 4 ∧
          isSet t F.SEC_STAT_DENY = true ∧ t.pwr = s.pwr ∧ t.pins = s.pins ∧ t.mem = s.mem) ∧
        (policyAllows s 3 r = true → inMaintenance s = false → ∃ t, exec (.dormantRequest r) s = .next t ∧ getF t F.PWR_DORMANT_REFUSE_WHY = 1 ∧
          fieldsKept [F.PWR_DORMANT_REFUSE_WHY] s t ∧ t = { s with flds := t.flds }) ∧
        (dormantRefused s r = none → s.mem.jobs = [] → s.pins.rails < 2 ^ 16 → ∃ t, exec (.dormantRequest r) s = .next t ∧ t.pwr = { s.pwr with dormant := true } ∧
          t.pins = { s.pins with rails := Nat.land s.pins.rails 0xA078 } ∧ getF t F.PWR_DORMANT_REFUSE_WHY = 0 ∧ isSet t F.TICK_STAT_RUNNING = false ∧
          getF t F.DEV_CAP1_STEWARD_UP = 0 ∧ getF t F.TICK_DT = getF s F.TICK_DT ∧ t.cells = [] ∧ t.mem = s.mem ∧ t.nor = s.nor ∧ t.fuses = s.fuses)) ∧
      (s.pins.aux = true → s.pwr.dormant = true → 0 < getF s F.PWR_WAKE_AT → getF s F.PWR_WAKE_AT ≤ getF s F.TICK_DT → s.pins.rails < 2 ^ 16 → ∃ t,
        exec .wakeAlarm s = .next t ∧
        t.pwr.dormant = false ∧ t.pins = { s.pins with rails := Nat.lor s.pins.rails 0x7FF7 } ∧ isSet t F.PWR_STAT_WAKE = true ∧ isSet t F.TICK_STAT_RUNNING = true ∧
        getF t F.TICK_NOW = (getF s F.TICK_NOW + 1) % 2 ^ 48 ∧ getF t F.CFG_MODE = getF s F.CFG_MODE ∧ t.mem.near = s.mem.near ∧ t.mem.bulk = [] ∧
        (∀ k, (smapGet noEntry t.mem.dir k).bulk = false) ∧ (s.boot.ejectSeen = true → isSet t F.ADM_SHUT_EJECT = true) ∧ t.nor = s.nor) ∧
      (s.pins.aux = true → s.pwr.dormant = true → s.pins.wakeLine = false → ∃ t, exec (.pinLatchEdge (.wake, true)) s = .next t ∧ t.pwr.dormant = false ∧
        isSet t F.IRQ_LATCH_WAKE = true ∧ isSet t F.PWR_STAT_WAKE = true) ∧
      (s.pins.aux = true → s.pwr.dormant = false → ∀ p : LatchPin, p ≠ .eject → (p = .wake → s.pins.wakeLine = false) →
        (p = .louvre0 → s.pins.louvre0 = false) → (p = .louvre1 → s.pins.louvre1 = false) → ∃ t, exec (.pinLatchEdge (p, true)) s = .next t ∧
        isSet t (latchField p) = true ∧ lineBit t (latchSource p) = true ∧ (lineBit s (latchSource p) = false → pendBit t (latchSource p) = true) ∧
        fieldsKept [latchField p, F.IRQ_LINE 0, F.IRQ_PEND 0] s t ∧ t = { s with flds := t.flds, pins := t.pins }) ∧
      (s.pins.aux = true → ∀ p : LatchPin, ∃ t, exec (.pinLatchEdge (p, false)) s = .next t ∧ t = { s with pins := t.pins } ∧
        (p = .eject → t.pins.ejectWarn = false) ∧ (p = .wake → t.pins.wakeLine = false) ∧ (p = .louvre0 → t.pins.louvre0 = false) ∧
        (p = .louvre1 → t.pins.louvre1 = false))) ∧
  (∀ s : State, s.fieldsCanonical = true →
      (s.pins.aux = true → s.pins.ejectWarn = false → s.boot.phase ≠ .ready → ∃ t, exec .ejectWarning s = .next t ∧ isSet t F.IRQ_LATCH_EJECT = true ∧ isSet t F.BOOT_REC_EJECT = true ∧
        t.boot = { s.boot with ejectSeen := true } ∧ t.adm = s.adm ∧
        fieldsKept [F.BOOT_REC_EJECT, F.IRQ_LATCH_EJECT, F.IRQ_LINE 0, F.IRQ_PEND 0] s t ∧
        t = { s with flds := t.flds, pins := t.pins, boot := t.boot }) ∧
      (s.pins.aux = true → s.pins.ejectWarn = false → s.boot.phase = .ready → s.pwr.dormant = false → s.adm.ejecting = false → s.frame.hasLive = false → inSpan s = false → ∃ t,
        exec .ejectWarning s = .next t ∧ isSet t F.ADM_SHUT_EJECT = true ∧ t.adm = { s.adm with ejecting := true } ∧ isSet t F.IRQ_LATCH_EJECT = true ∧
        t.pins = { s.pins with ejectWarn := true } ∧ t.mem = s.mem ∧ t.cells = s.cells ∧ t.boot = s.boot) ∧
      (s.adm.ejecting = true → s.adm.stopped = false → frameEnded s = true → s.adm.reqs = [] → ∃ t, exec .ejectFinish s = .next t ∧
        isSet t F.ADM_STAT_EJECTED = true ∧ isSet t F.SPAN_STAT_LEAVE = (isSet s F.SPAN_STAT_LEAVE || inSpan s) ∧ t.adm.stopped = true ∧
        fieldsKept [F.ADM_STAT_EJECTED, F.SPAN_STAT_LEAVE] s t ∧ t.mem = s.mem ∧ t.out = s.out) ∧
      (s.adm.ejecting = false → exec .ejectFinish s = .next s))

/-! ### Link ports -/

/-- R320: what a sender writes into the 256 bytes of a flit is what a receiver reads from them, at every value that each field admits.
R355: the 64 bytes of a control message give the message back, at every value that each field admits. -/
def Obligations.EncodingsRoundTrip : Prop :=
  (∀ (f : Flit) (nak : Bool) (ack : Nat), f.type < 8 → f.len = f.payload.length → f.len ≤ 242 → f.seq < 65536 → f.chan < 65536 → f.off < 65536 →
      ack < 65536 → flitOf (flitBytes nak ack f) = some (f, nak, ack)) ∧
  (∀ m : CtrlMsg, m.msg < 256 → m.from_ < 65536 → m.to_ < 65536 → m.tick < 2 ^ 48 → m.stamp.tick < 2 ^ 48 → m.stamp.cif < 2 ^ 25 →
      m.stamp.src < 65536 → m.stamp.seq < 2 ^ 32 → m.arg < 2 ^ 256 → ctrlOf (ctrlBytes m) = m ∧ (ctrlBytes m).length = 64)

/-- R315, R318, R321, R322, R329: a round sends five slots on each lane behind a pair header with the lane and the round count; with nothing to send
all are IDLE; a control message waits first and enters the replay buffer; a replay sends the buffered flit again; a port that trains sends TRAIN.
R324, R325: without progress for REPLAY_NS the replay buffer is sent again from its oldest flit, and the eighth such replay makes the port leave UP;
a receiver that discards asks again after NAK_NS. -/
def Obligations.RoundsAndReplayTimers : Prop :=
  (∀ (s : State) (p : Nat) (l : LinkSt) (lanes : List Nat), s.fieldsCanonical = true → s.unitsCanonical = true → p < 16 → l = link s p →
      (portUp s p = true → lanes = lanesOf (getF s (F.LNK_WIDTH_TX_MAP p)) → l.confirm = none → l.notice = none → l.syncDue = false →
        l.nakDue = false → l.dataQ = [] → l.boardQ = [] → s.span.sends = [] →
        (l.buf = [] → l.tx = .normal → l.ctrlQ = [] → ∃ t, exec (.roundTransmit p) s = .next t ∧ link t p = { l with round := (l.round + 1) % 256 } ∧
          t.out = s.out ++ roundOut p l.round l.rxExpect lanes (fun _ => {}) ∧
          (∀ q, q ≠ p → link t q = link s q) ∧ t = { s with links := t.links, out := t.out }) ∧
        (∀ b f, l.buf = [] → l.tx = .normal → lanes ≠ [] → l.ctrlQ = [b] → f = { ctrlFlit b with seq := l.txNext } → ∃ t,
          exec (.roundTransmit p) s = .next t ∧ t.out = s.out ++ roundOut p l.round l.rxExpect lanes (fun i => if i = 0 then f else {}) ∧
          link t p = { l with ctrlQ := [], buf := [f], txNext := (l.txNext + 1) % 65536, progressAt := getF s F.TICK_DT, round := (l.round + 1) % 256 } ∧
          getF t (F.LNK_CNT_TX p) = satAdd 64 (getF s (F.LNK_CNT_TX p)) 1 ∧ (∀ q, q ≠ p → link t q = link s q) ∧ fieldsKept [F.LNK_CNT_TX p] s t ∧
          t = { s with flds := t.flds, links := t.links, out := t.out }) ∧
        ∀ f, l.buf = [f] → l.tx = .replay f.seq → l.txNext = (f.seq + 1) % 65536 → lanes ≠ [] → l.ctrlQ = [] → ∃ t, exec (.roundTransmit p) s = .next t ∧
          t.out = s.out ++ roundOut p l.round l.rxExpect lanes (fun i => if i = 0 then f else {}) ∧
          link t p = { l with tx := .normal, round := (l.round + 1) % 256 } ∧
          getF t (F.LNK_CNT_REPLAY_FLIT p) = satAdd 32 (getF s (F.LNK_CNT_REPLAY_FLIT p)) 1 ∧ fieldsKept [F.LNK_CNT_REPLAY_FLIT p] s t) ∧
      (portState s p = 2 ∨ portState s p = 5 ∨ (portState s p = 6 ∧ l.rxGood ≠ 0) →
        lanes = (match l.train with
          | some b => lanesOf (trainMap b)
          | none => List.range 8) → ∃ t, exec (.roundTransmit p) s = .next t ∧
        t.out = s.out ++ roundOut p l.round l.rxExpect lanes (fun _ => { type := 7, len := 15, payload := trainPayload s p }) ∧
        link t p = { l with round := (l.round + 1) % 256 } ∧ (∀ q, q ≠ p → link t q = link s q) ∧ t = { s with links := t.links, out := t.out })) ∧
  (∀ (s : State) (p : Nat) (l : LinkSt), s.fieldsCanonical = true → s.unitsCanonical = true → p < 16 → portUp s p = true → l = link s p →
      (∀ f rest, l.buf = f :: rest → l.tx = .normal → l.progressAt + getF s (F.LNK_TIMER_REPLAY_NS p) ≤ getF s F.TICK_DT → ∃ t,
        exec (.replayTimeout p) s = .next t ∧
        (l.replays < 7 → link t p = { l with tx := .replay f.seq, replays := l.replays + 1, progressAt := getF s F.TICK_DT } ∧
          getF t (F.LNK_CNT_REPLAY p) = satAdd 32 (getF s (F.LNK_CNT_REPLAY p)) 1 ∧ fieldsKept [F.LNK_CNT_REPLAY p] s t ∧
          t = { s with flds := t.flds, links := t.links }) ∧ (7 ≤ l.replays → leftUp s t p 7 ∧ t.mem = s.mem ∧ t.cells = s.cells)) ∧
      (getF s F.TICK_DT < l.progressAt + getF s (F.LNK_TIMER_REPLAY_NS p) → exec (.replayTimeout p) s = .next s) ∧
      (l.discard = true → l.nakDue = false → l.nakAt + getF s (F.LNK_TIMER_NAK_NS p) ≤ getF s F.TICK_DT →
        exec (.nakResendTimeout p) s = .next (setLink s p { l with nakDue := true })))

/-- R317, R334, R345: a codeword that the decoder cannot correct is counted and invalidates its pair; whatever their bytes, each of the pair's flits
counts as a flit with a bad CRC, as one whose bytes fail the check does, and in UP calls for a replay; a port that trains counts them too. A fourth
such pair in a row drops the lane. -/
def Obligations.BadPairsInvalidateTheirFlits : Prop :=
  ∀ (s : State) (p : Nat) (x : FlitSlot) (l : LinkSt) (k : LaneRx), s.fieldsCanonical = true → s.unitsCanonical = true → p < 16 →
    l = link s p → k = laneRx s p x.lane →
    (∀ n m, portUp s p = true → x.slot = 0 → x.lane < 8 → x.errs = [n, m] → 15 < n ∨ 15 < m → l.rxq = [] →
      (k.run < 3 → k.times.length < 15 → ∃ t, exec (.flitReceive p x) s = .next t ∧ (laneRx t p x.lane).bad = true ∧
        (laneRx t p x.lane).run = k.run + 1 ∧ (laneRx t p x.lane).round = (k.round + 1) % 256 ∧
        getF t (F.LANE_FEC_CW p x.lane) = satAdd 64 (getF s (F.LANE_FEC_CW p x.lane)) 2 ∧
        getF t (F.LANE_FEC_UNCORR p x.lane) = satAdd 32 (getF s (F.LANE_FEC_UNCORR p x.lane)) (if 15 < n ∧ 15 < m then 2 else 1) ∧
        (l.rxAt = some ((k.round + 1) % 256, x.lane, 0) → x.lane ∈ takenLanes s p →
          getF t (F.LNK_CNT_CRC p) = satAdd 32 (getF s (F.LNK_CNT_CRC p)) 1) ∧
        fieldsKept (F.LNK_CNT_CRC p :: laneCounters p x.lane) s t ∧ t = { s with flds := t.flds, links := t.links }) ∧
      (k.run = 3 → l.notice = none → getF s (F.LNK_WIDTH_RX_MAP p) < 256 → bitF s (F.LNK_WIDTH_RX_MAP p) x.lane = true →
        getF s (F.LNK_WIDTH_RX_MAP p) ≠ 2 ^ x.lane → ∃ t, exec (.flitReceive p x) s = .next t ∧
        (link t p).notice = some (getF s (F.LNK_WIDTH_RX_MAP p) - 2 ^ x.lane) ∧ (link t p).drops = l.drops ++ [(x.lane, 2)] ∧
        t.mem = s.mem ∧ t.cells = s.cells)) ∧
    (portState s p = 2 ∨ portState s p = 5 → 0 < x.slot → k.bad = true ∨ flitOf x.bytes = none →
      exec (.flitReceive p x) s = .next (bump s (F.LNK_CNT_CRC p))) ∧
    (inTurn s p x → k.bad = true →
      (∃ t, exec (.flitReceive p x) s = .next t ∧ getF t (F.LNK_CNT_CRC p) = satAdd 32 (getF s (F.LNK_CNT_CRC p)) 1 ∧
        link t p = { l with discard := true, nakDue := l.nakDue || !l.discard, rxAt := some (nextPlace (takenLanes s p) (k.round, x.lane, x.slot)) } ∧
        (∀ q, q ≠ p → link t q = link s q) ∧ fieldsKept [F.LNK_CNT_CRC p] s t ∧ t = { s with flds := t.flds, links := t.links }) ∧
      ∀ b, flitOf b = none → exec (.flitReceive p { x with bytes := b }) s = exec (.flitReceive p x) s)

/-- R316, R320, R323, R324, R338 to R340: of the slots in their turn a bad one calls for a replay; a flit that came before is counted and dropped, one
that skips a number calls for a replay; the expected one is passed on to the ports of its channel on the same port die, and one without a route is
discarded. A slot that is not yet in its turn waits. -/
def Obligations.FlitsAreReceivedInOrder : Prop :=
  ∀ (s : State) (p : Nat) (x : FlitSlot) (l : LinkSt) (place : Nat × Nat × Nat), s.fieldsCanonical = true → s.unitsCanonical = true → p < 16 →
    inTurn s p x → l = link s p → place = nextPlace (takenLanes s p) ((laneRx s p x.lane).round, x.lane, x.slot) → (laneRx s p x.lane).bad = false →
    (flitOf x.bytes = none → ∃ t, exec (.flitReceive p x) s = .next t ∧
      getF t (F.LNK_CNT_CRC p) = satAdd 32 (getF s (F.LNK_CNT_CRC p)) 1 ∧
      link t p = { l with discard := true, nakDue := l.nakDue || !l.discard, rxAt := some place } ∧ (∀ q, q ≠ p → link t q = link s q) ∧
      fieldsKept [F.LNK_CNT_CRC p] s t ∧ t = { s with flds := t.flds, links := t.links }) ∧
    (∀ n, n < 5 → x.slot < n → exec (.flitReceive p { x with slot := n }) s =
      .next (setLink s p { l with rxq := [⟨(laneRx s p x.lane).round, x.lane, n, false, x.bytes⟩] })) ∧
    ∀ f ack, flitOf x.bytes = some (f, false, ack) → l.buf = [] →
      (sequencedType f.type = true → f.seq ≠ l.rxExpect → l.discard = false → ∃ t, exec (.flitReceive p x) s = .next t ∧
        (seqAhead l.rxExpect f.seq = true → getF t (F.LNK_CNT_DUP p) = satAdd 32 (getF s (F.LNK_CNT_DUP p)) 1 ∧
          link t p = { l with goodAt := getF s F.TICK_DT, rxAt := some place }) ∧
        (seqAhead l.rxExpect f.seq = false → getF t (F.LNK_CNT_DUP p) = getF s (F.LNK_CNT_DUP p) ∧
          link t p = { l with goodAt := getF s F.TICK_DT, discard := true, nakDue := true, rxAt := some place }) ∧
        fieldsKept [F.LNK_CNT_DUP p] s t ∧ t = { s with flds := t.flds, links := t.links }) ∧
      (f.type = 1 ∨ f.type = 2 → f.seq = l.rxExpect → ∀ e, e = smapGet zeroNat s.span.chans f.chan → ∃ t, exec (.flitReceive p x) s = .next t ∧
        (link t p).rxExpect = (l.rxExpect + 1) % 65536 ∧ (link t p).discard = false ∧ (link t p).rxAt = some place ∧
        getF t (F.LNK_CNT_RX p) = satAdd 64 (getF s (F.LNK_CNT_RX p)) 1 ∧
        (bitOf e 23 = true → bitsOf e 20 17 = p → bitOf e 16 = false →
          (∀ q, q < 16 → (link t q).dataQ = if bitOf e q = true ∧ q / 8 = p / 8 then (link s q).dataQ ++ [f] else (link s q).dataQ) ∧
          fieldsKept [F.LNK_CNT_RX p] s t) ∧
        (bitOf e 23 = false → getF t (F.LNK_CNT_ROUTE p) = satAdd 32 (getF s (F.LNK_CNT_ROUTE p)) 1 ∧ isSet t (F.LNK_STAT_ROUTE_ERR p) = true ∧
          fieldsKept [F.LNK_CNT_RX p, F.LNK_CNT_ROUTE p, F.LNK_STAT_ROUTE_ERR p] s t) ∧ t.mem = s.mem ∧ t.cells = s.cells)

/-- R325, R329, R332, R334, R335, R337: a receiver that drops a lane gives notice of the map without it; a transmitter that drops one sends
the notice in a round of its own, then changes its map with a confirmation in the first slot and counts the change; a last lane, silence for
5 µs and a notice that cannot be answered leave UP; 2 ms without UP end in DOWN, which keeps the replay buffer, and from which the port
trains again every 100 ms. The kinds of WIDTH are the model's (log entry 36), so are the rounds of notice and confirmation (37), the flits dropped at
DOWN (41) and the IDLE slots between (105). -/
def Obligations.PortsLeaveAndTry : Prop :=
  ∀ (s : State) (p : Nat) (l : LinkSt), s.fieldsCanonical = true → s.unitsCanonical = true → p < 16 → l = link s p →
    (portUp s p = true → ∀ n cause m, n < 8 → 0 < cause → cause < 4 → m = l.notice.getD (getF s (F.LNK_WIDTH_RX_MAP p)) → bitOf m n = true →
      (cause = 1 ∨ pairsDrop s p n cause = true → ∃ t, exec (.laneDrop p n cause) s = .next t ∧
        (m ≠ 2 ^ n → link t p = { l with notice := some (m - 2 ^ n), drops := l.drops ++ [(n, cause)], syncSpan := l.syncSpan || l.syncOpen } ∧
          fieldsKept [F.LANE_STAT_SIGNAL p n, F.LANE_EYE_CTL_BUSY p n, F.LANE_EYE_CTL_ABORTED p n] s t ∧ t = { s with flds := t.flds, links := t.links }) ∧
        (m = 2 ^ n → leftUp s t p cause) ∧ t.mem = s.mem ∧ t.cells = s.cells) ∧
      (cause ≠ 1 → pairsDrop s p n cause = false → exec (.laneDrop p n cause) s = .next s)) ∧
    (portUp s p = true → l.tx = .normal → ∀ n m, n < 8 → m = getF s (F.LNK_WIDTH_TX_MAP p) → m < 256 → bitOf m n = true → ∃ t,
      exec (.laneDrop p n 4) s = .next t ∧
      (m ≠ 2 ^ n → t = setLink s p { l with tx := .width (m - 2 ^ n) (oldest l) 4 n true, syncSpan := l.syncSpan || l.syncOpen }) ∧
      (m = 2 ^ n → leftUp s t p 4) ∧ t.mem = s.mem ∧ t.cells = s.cells) ∧
    (portUp s p = true → ∀ m q c x, l.tx = .width m q c x true → l.confirm = none → l.notice = none → l.syncDue = false → l.nakDue = false → ∃ t lanes,
      lanes = lanesOf (getF s (F.LNK_WIDTH_TX_MAP p)) ∧ exec (.roundTransmit p) s = .next t ∧
      t.out = s.out ++ roundOut p l.round l.rxExpect lanes (fun i => if i % 5 = 0 ∧ bitOf m (lanes.getD (i / 5) 0) = true then widthFlit 3 m l.rxExpect else {}) ∧
      link t p = { l with tx := .width m q c x false, round := (l.round + 1) % 256 } ∧ t = { s with links := t.links, out := t.out }) ∧
    (portUp s p = true → ∀ m q c x, l.tx = .width m q c x false → 0 < m → m < 256 → l.buf = [] ∨ l.replays < 7 → s.span.sends = [] → ∃ t k rest,
      exec (.roundTransmit p) s = .next t ∧ lanesOf m = k :: rest ∧ getF t (F.LNK_WIDTH_TX_MAP p) = m ∧ isSet t (F.LNK_STAT_WIDTH_CHG p) = true ∧
      getF t (F.LNK_CNT_WIDTH p) = satAdd 32 (getF s (F.LNK_CNT_WIDTH p)) 1 ∧
      (∃ out, t.out = s.out ++ .pair p k (0xC3A5 + k * 2 ^ 16 + l.round * 2 ^ 24) :: .flit p k l.nakDue l.rxExpect (widthFlit 2 m l.rxExpect) :: out) ∧
      (link t p).confirm = none ∧ (link t p).round = (l.round + 1) % 256 ∧ t.mem = s.mem ∧ t.cells = s.cells) ∧
    (portUp s p = true → ∃ t, exec (.portLeaveUp p true) s = .next t ∧ leftUp s t p 5 ∧ t.mem = s.mem ∧ t.cells = s.cells) ∧
    (portUp s p = true → l.goodAt + 5000 ≤ getF s F.TICK_DT → ∃ t, exec (.portLeaveUp p false) s = .next t ∧ leftUp s t p 6 ∧ t.mem = s.mem ∧
      t.cells = s.cells) ∧
    (portState s p = 6 → l.leftAt + 2000000 ≤ getF s F.TICK_DT → ∃ t, exec (.retrainTimeout p) s = .next t ∧ portOut t p 0 ∧ (link t p).buf = l.buf ∧
      (link t p).txNext = l.txNext ∧ (link t p).rxExpect = l.rxExpect ∧ (link t p).dataQ = [] ∧ (link t p).boardQ = [] ∧ (link t p).wasDown = true ∧
      (inSpan s = true → isMaster s = true → ∃ m : CtrlMsg, t.span.inbox = s.span.inbox ++ [m] ∧ m.msg = 7 ∧ m.from_ = ownOrd s ∧ bitsOf m.arg 7 0 = p ∧
        bitsOf m.arg 31 24 = 1) ∧ t.mem = s.mem ∧ t.cells = s.cells) ∧
    (portState s p = 0 → portEnabled s p = true → l.trainAt + 100000000 ≤ getF s F.TICK_DT → ∃ t, exec (.downRetry p) s = .next t ∧ portOut t p 1 ∧
      (link t p).trainAt = getF s F.TICK_DT ∧ t = { s with flds := t.flds, links := t.links }) ∧
    (portState s p = 1 ∨ portState s p = 2 → l.trainAt + 100000000 ≤ getF s F.TICK_DT → ∃ t, exec (.trainingTimeout p) s = .next t ∧ portOut t p 0 ∧
      (link t p).buf = l.buf ∧ t = { s with flds := t.flds, links := t.links })

/-- R328 to R333, R337: with good lanes a port goes from TRAIN to ALIGN; a TRAIN flit records its sender; with the expected peer and lanes
enough the port comes UP with the map and the session found, replay resuming with the session that was known, everything starting afresh with a
new one, and after DOWN, with the session known, the buffer dropped and the numbers going on with the oldest flit's (log entry 41); another peer is shown as WIRING; too few lanes leave the port where it is. -/
def Obligations.TrainingBringsPortsUp : Prop :=
  ∀ (s u : State) (p : Nat) (r : TrainResult) (l : LinkSt) (c : Instr), s.fieldsCanonical = true → s.unitsCanonical = true → p < 16 → l = link u p →
    (∀ g, g = laneMap r.lanes (laneUsable r.lanes) →
      (portState s p = 1 ∨ portState s p = 6 → g ≠ 0 → ∃ t, exec (.linkTraining p r) s = .next t ∧
        portState t p = (if portState s p = 1 then 2 else 6) ∧ (link t p).rxGood = g ∧ (link t p).alignAt = getF s F.TICK_DT ∧
        (link t p).buf = (link s p).buf ∧ getF t (F.LNK_RTT_RTT_NS p) = r.rttNs % 2 ^ (F.LNK_RTT_RTT_NS p).width ∧
        t = { s with flds := t.flds, links := t.links }) ∧
      (portState s p = 1 ∨ portState s p = 6 → g = 0 → ∃ t, exec (.linkTraining p r) s = .next t ∧
        fieldsKept ((List.range 8).flatMap (laneCounters p)) s t ∧ t = { s with flds := t.flds }) ∧
      (portState s p = 1 ∨ portState s p = 6 → ∃ t, exec (.linkTraining p r) s = .next t ∧ ∀ n x, n < 8 → r.lanes[n]? = some x →
        getF t (F.LANE_FEC_CW p n) = satAdd 64 (getF s (F.LANE_FEC_CW p n)) x.words ∧
        getF t (F.LANE_FEC_UNCORR p n) = satAdd 32 (getF s (F.LANE_FEC_UNCORR p n)) x.bad)) ∧
    (∀ (x : FlitSlot) (f : Flit) (nak : Bool) (ack : Nat), portState s p = 2 ∨ portState s p = 5 → 0 < x.slot → (laneRx s p x.lane).bad = false →
      (link s p).buf = [] → flitOf x.bytes = some (f, nak, ack) → f.type = 7 → f.len = 15 → ∃ t, exec (.flitReceive p x) s = .next t ∧
      isSet t (F.LNK_PEER_VALID p) = true ∧ link t p = { link s p with train := some f.payload } ∧
      getF t (F.LNK_PEER_PORT p) = leRead (listReader f.payload) 0 1 % 16 ∧
      fieldsKept [F.LNK_PEER_VALID p, F.LNK_PEER_PORT p, F.LNK_PEER_BOARD p, F.LNK_PEER_MEMBER p] s t ∧ t = { s with flds := t.flds, links := t.links }) ∧
    ((c = .linkTraining p r ∧ portState s p = 2 ∧ u = s ∧ getF s F.TICK_DT ≤ l.alignAt + 1000000) ∨
        (c = .retrainComplete p r ∧ portState s p = 6 ∧ u = noteLanes s p r) → l.rxGood < 256 → ∀ b, l.train = some b →
      (peerExpected s p b = true → widthEnough u p b = true → ∃ t, exec c s = .next t ∧ portState t p = 3 ∧ isSet t (F.LNK_STAT_UP p) = true ∧
        bitF t F.DEV_CAP1_LINK_UP p = true ∧ getF t (F.LNK_WIDTH_TX_MAP p) = trainMap b ∧ getF t (F.LNK_WIDTH_RX_MAP p) = l.rxGood ∧
        getF t (F.LNK_SESSION_PEER p) = trainSession b ∧ (link t p).wasDown = false ∧
        (getF s (F.LNK_SESSION_PEER p) = trainSession b → l.wasDown = false → (link t p).buf = l.buf ∧ (link t p).txNext = l.txNext ∧
          (link t p).rxExpect = l.rxExpect ∧ ∀ f rest, l.buf = f :: rest → (link t p).tx = .replay f.seq ∧ (link t p).replays = l.replays + 1 ∧
            getF t (F.LNK_CNT_REPLAY p) = satAdd 32 (getF s (F.LNK_CNT_REPLAY p)) 1) ∧
        (getF s (F.LNK_SESSION_PEER p) = trainSession b → l.wasDown = true → (link t p).buf = [] ∧ (link t p).rxExpect = l.rxExpect ∧
          (link t p).txNext = (l.buf.head?.map (fun f => f.seq)).getD l.txNext ∧ (link t p).tx = .normal) ∧
        (getF s (F.LNK_SESSION_PEER p) ≠ trainSession b → (link t p).buf = [] ∧ (link t p).txNext = 0 ∧ (link t p).rxExpect = 0 ∧
          (link t p).tx = .normal) ∧
        (getF s (F.LNK_SESSION_PEER p) ≠ trainSession b → l.everUp = true → isSet t (F.LNK_STAT_SESSION p) = true) ∧ t.mem = s.mem ∧ t.cells = s.cells) ∧
      (peerExpected s p b = false → ∃ t, exec c s = .next t ∧ portState t p = 5 ∧ isSet t (F.LNK_STAT_WIRING p) = true ∧ t = { u with flds := t.flds }) ∧
      (peerExpected s p b = true → widthEnough u p b = false → exec c s = .next u))

/-- R336, R344, R345: a commanded retrain in maintenance mode, which in TEST goes to TRAIN (log entry 40); TEST entered and left; LNK_CNT_CLR clears the
counts that its bits name and no others.
R344, R346, R347: in loopback a lane's checker locks on its own pattern and counts no error, a locked one counts every bit that differs from the
pattern, its reference running on freely (log entry 105); an eye scan's start, its margins as far out as the points are open, its abortion; loss estimates of converged lanes and their baseline. -/
def Obligations.LanesAreControlledAndMeasured : Prop :=
  (∀ (s : State) (p : Nat), s.fieldsCanonical = true → s.unitsCanonical = true → p < 16 →
      (inMaintenance s = true → portEnabled s p = true → ∃ t, exec (.linkRetrainCmd p) s = .next t ∧
        portOut t p (if portState s p = 3 ∨ portState s p = 6 then 6 else 1) ∧
        getF t (F.LNK_CNT_RETRAIN p) = satAdd 32 (getF s (F.LNK_CNT_RETRAIN p)) 1 ∧ (link t p).buf = (link s p).buf ∧
        (portState s p = 4 → (link t p).tests = []) ∧ t.mem = s.mem ∧ t.cells = s.cells) ∧
      (inMaintenance s = false → exec (.linkRetrainCmd p) s = .next s) ∧
      (portState s p ≠ 4 → ∃ t, exec (.linkTestEnter p) s = .next t ∧ isSet t (F.LNK_CTL_TEST p) = true ∧
        (inMaintenance s = true ∨ portState s p = 0 ∨ portState s p = 7 → portOut t p 4) ∧
        (inMaintenance s = false → portState s p ≠ 0 → portState s p ≠ 7 → fieldsKept [F.LNK_CTL_TEST p] s t ∧ t = { s with flds := t.flds }) ∧
        t.mem = s.mem ∧ t.cells = s.cells) ∧
      (portState s p = 4 → portEnabled s p = true → ∃ t, exec (.linkTestLeave p) s = .next t ∧ portOut t p 1 ∧ isSet t (F.LNK_CTL_TEST p) = false ∧
        (∀ l, l < 8 → isSet t (F.LANE_STAT_PRBS_LOCK p l) = false) ∧ t = { s with flds := t.flds, links := t.links }) ∧
      ∀ eye lane port, ∃ t, exec (.linkCountClear p eye lane port) s = .next t ∧
        (∀ f ∈ portCounters p, getF t f = if port then 0 else getF s f) ∧
        (∀ l, l < 8 → (∀ f ∈ laneCounters p l, getF t f = if lane then 0 else getF s f) ∧ ∀ f ∈ eyeFields p l, getF t f = if eye then 0 else getF s f) ∧
        fieldsKept (portCounters p ++ (List.range 8).flatMap (laneCounters p) ++ (List.range 8).flatMap (eyeFields p)) s t ∧ t = { s with flds := t.flds }) ∧
  (∀ (s : State) (p l : Nat), s.fieldsCanonical = true → p < 16 → l < 8 →
      (∀ bits v rx pat, portState s p = 4 → rx = (List.range bits).map (bitOf v) → pat = getF s (F.LANE_PRBS_CTL_PATTERN p l) → 0 < pat → pat < 6 → isSet s (F.LANE_PRBS_CTL_CHK p l) = true →
        (getF s (F.LANE_PRBS_CTL_LOOP p l) = 1 → isSet s (F.LANE_PRBS_CTL_GEN p l) = true → (link s p).tests = [] → (prbsTaps pat).1 + 64 ≤ bits → ∃ t,
          exec (.prbsCheckerLock p l bits v) s = .next t ∧ isSet t (F.LANE_STAT_PRBS_LOCK p l) = true ∧
          getF t (F.LANE_PRBS_BITS p l) = (getF s (F.LANE_PRBS_BITS p l) + (bits - ((prbsTaps pat).1 + 64))) % 2 ^ 64 ∧
          getF t (F.LANE_PRBS_ERR p l) = satAdd 32 (getF s (F.LANE_PRBS_ERR p l)) 0 ∧
          t.out = s.out ++ [.prbs p l (pam4 (prbsBits pat bits (laneTest s p l pat).gen).1)] ∧
          fieldsKept [F.LANE_STAT_PRBS_LOCK p l, F.LANE_PRBS_BITS p l, F.LANE_PRBS_ERR p l] s t ∧ t = { s with flds := t.flds, links := t.links, out := t.out }) ∧
        (∀ x, getF s (F.LANE_PRBS_CTL_LOOP p l) = 0 → isSet s (F.LANE_PRBS_CTL_GEN p l) = false → (link s p).tests = [(l, x)] → x.pattern = pat → 64 ≤ x.run → ∃ t,
          exec (.prbsCheckerLock p l bits v) s = .next t ∧ isSet t (F.LANE_STAT_PRBS_LOCK p l) = true ∧
          getF t (F.LANE_PRBS_BITS p l) = (getF s (F.LANE_PRBS_BITS p l) + bits) % 2 ^ 64 ∧
          getF t (F.LANE_PRBS_ERR p l) = satAdd 32 (getF s (F.LANE_PRBS_ERR p l)) ((rx.zip (prbsBits pat bits x.ref).1).filter (fun q => q.1 != q.2)).length ∧
          fieldsKept [F.LANE_STAT_PRBS_LOCK p l, F.LANE_PRBS_BITS p l, F.LANE_PRBS_ERR p l] s t ∧ t = { s with flds := t.flds, links := t.links })) ∧
      (isSet s (F.LANE_EYE_CTL_BUSY p l) = false → ∃ t, exec (.eyeScanStart p l) s = .next t ∧ isSet t (F.LANE_EYE_CTL_BUSY p l) = true ∧
        isSet t (F.LANE_EYE_CTL_DONE p l) = false ∧ isSet t (F.LANE_EYE_CTL_ABORTED p l) = false ∧
        fieldsKept [F.LANE_EYE_CTL_BUSY p l, F.LANE_EYE_CTL_DONE p l, F.LANE_EYE_CTL_ABORTED p l] s t ∧ t = { s with flds := t.flds }) ∧
      (isSet s (F.LANE_EYE_CTL_BUSY p l) = true → exec (.eyeScanStart p l) s = .next s ∧
        (∀ (u m d : EyeCounts) (n : List Nat → Nat), (∀ c, n c = min 255 ((c.takeWhile (fun e => decide (min e (2 ^ (16 + 2 * getF s (F.LANE_EYE_CTL_DWELL p l))) ≤
            getF s (F.LANE_EYE_CTL_ERR_LIMIT p l)))).length)) → ∃ t, exec (.eyeScanDone p l (some (u, m, d))) s = .next t ∧
          isSet t (F.LANE_EYE_CTL_BUSY p l) = false ∧ isSet t (F.LANE_EYE_CTL_DONE p l) = true ∧
          getF t (F.LANE_EYE_UPPER_TOP p l) = n u.top ∧ getF t (F.LANE_EYE_UPPER_BOTTOM p l) = n u.bottom ∧
          getF t (F.LANE_EYE_UPPER_LEFT p l) = n u.left ∧ getF t (F.LANE_EYE_UPPER_RIGHT p l) = n u.right ∧
          getF t (F.LANE_EYE_MIDDLE_TOP p l) = n m.top ∧ getF t (F.LANE_EYE_MIDDLE_BOTTOM p l) = n m.bottom ∧
          getF t (F.LANE_EYE_MIDDLE_LEFT p l) = n m.left ∧ getF t (F.LANE_EYE_MIDDLE_RIGHT p l) = n m.right ∧
          getF t (F.LANE_EYE_LOWER_TOP p l) = n d.top ∧ getF t (F.LANE_EYE_LOWER_BOTTOM p l) = n d.bottom ∧
          getF t (F.LANE_EYE_LOWER_LEFT p l) = n d.left ∧ getF t (F.LANE_EYE_LOWER_RIGHT p l) = n d.right ∧
          fieldsKept ([F.LANE_EYE_CTL_BUSY p l, F.LANE_EYE_CTL_DONE p l] ++ eyeFields p l) s t ∧ t = { s with flds := t.flds }) ∧
        ∃ t, exec (.eyeScanDone p l none) s = .next t ∧ isSet t (F.LANE_EYE_CTL_BUSY p l) = false ∧ isSet t (F.LANE_EYE_CTL_ABORTED p l) = true ∧
          fieldsKept [F.LANE_EYE_CTL_BUSY p l, F.LANE_EYE_CTL_ABORTED p l] s t ∧ t = { s with flds := t.flds }) ∧
      (∀ est, bitOf (link s p).converged l = false → exec (.lossEstimateUpdate p l est) s = .next s) ∧
      (∀ est, bitOf (link s p).converged l = true → ∃ t, exec (.lossEstimateUpdate p l est) s = .next t ∧ getF t (F.LANE_LOSS_EST p l) = min est 1023 ∧
        isSet t (F.LANE_STAT_LOSS_HIGH p l) =
          (decide (getF s (F.LANE_LOSS_BASE p l) ≠ 0) && decide (getF s (F.LANE_LOSS_BASE p l) + getF s (F.LNK_LOSS_CFG p) < min est 1023)) ∧
        (isSet t (F.LANE_STAT_LOSS_HIGH p l) = true → isSet t (F.LNK_STAT_LOSS_HIGH p) = true) ∧
        fieldsKept [F.LANE_LOSS_EST p l, F.LANE_STAT_LOSS_HIGH p l, F.LNK_STAT_LOSS_HIGH p] s t ∧ t = { s with flds := t.flds }) ∧
      ∃ t, exec (.lossBase p) s = .next t ∧ (∀ n, n < 8 → getF t (F.LANE_LOSS_BASE p n) = getF s (F.LANE_LOSS_EST p n) % 1024 ∧
          getF t (F.LANE_LOSS_EST p n) = getF s (F.LANE_LOSS_EST p n)) ∧
        fieldsKept ([F.LNK_STAT_LOSS_HIGH p] ++ (List.range 8).map (F.LANE_LOSS_BASE p) ++ (List.range 8).map (F.LANE_STAT_LOSS_HIGH p)) s t ∧
        t = { s with flds := t.flds })

/-- R64 to R66, R335, R342: a SYNC flit becomes due on a port of the tree, INTERVAL_US after the last one; what comes from the parent shows half the
difference of the delays, three offsets above 40 ns lose alignment, eight within 8 ns gain it; an exchange across a lane change only counts as
missed. The rounding of the offset is log entry 39, that a member that is not locked loses alignment too is log entry 94. -/
def Obligations.SyncExchangesAlign : Prop :=
  ∀ (s : State) (p : Nat) (l : LinkSt), s.fieldsCanonical = true → s.unitsCanonical = true → p < 16 → portUp s p = true → inSpan s = true → l = link s p →
    (bitF s F.SPAN_TREE_CHILDREN p = true ∨ (isMaster s = false ∧ p = syncPort s) →
      (∀ t, l.syncAt = some t → t + 1000 * getF s F.TICK_SYNC_CFG ≤ getF s F.TICK_DT) →
      exec (.syncExchange p) s = .next (setLink s p { l with syncDue := true, syncOpen := true, syncAt := some (getF s F.TICK_DT) })) ∧
    (∀ t, l.syncAt = some t → getF s F.TICK_DT < t + 1000 * getF s F.TICK_SYNC_CFG → exec (.syncExchange p) s = .next s) ∧
    (∀ m arrival, l.syncSpan = true → ∃ t, exec (.syncReceive p m arrival) s = .next t ∧
      getF t (F.LNK_CNT_SYNC_MISS p) = satAdd 32 (getF s (F.LNK_CNT_SYNC_MISS p)) 1 ∧ (link t p).syncSpan = false ∧ (link t p).syncOpen = false ∧
      fieldsKept [F.LNK_CNT_SYNC_MISS p] s t ∧ t = { s with flds := t.flds, links := t.links }) ∧
    ∀ (m : SyncMsg) (arrival : Nat) (off : Int), l.syncSpan = false → isMaster s = false → p = syncPort s → m.echoTx ≠ 0 →
      off = (((m.echoRx : Int) - m.echoTx) - ((arrival : Int) - m.tTx)) / 2 → off.natAbs ≤ 32767 → ∃ t, exec (.syncReceive p m arrival) s = .next t ∧
      (getF t F.TICK_SYNC_OFFSET_NS : Int) = off % 65536 ∧ (link t p).echoTx = m.tTx ∧ (link t p).echoRx = arrival ∧
      t.span.masterSeenAt = getF s F.TICK_DT ∧ t.span.goodSync = (if off.natAbs ≤ 8 then s.span.goodSync + 1 else 0) ∧
      t.span.badSync = (if 40 < off.natAbs then s.span.badSync + 1 else 0) ∧
      (40 < off.natAbs → s.span.badSync = 2 → isSet t F.TICK_STAT_LOCKED = false ∧
        isSet t F.TICK_STAT_ALIGN_LOSS = true ∧ getF t F.TICK_CNT_ALIGN = satAdd 32 (getF s F.TICK_CNT_ALIGN) 1) ∧
      (off.natAbs ≤ 8 → 7 ≤ s.span.goodSync → isSet t F.TICK_STAT_LOCKED = true) ∧ t.mem = s.mem ∧ t.cells = s.cells

/-- R40 to R44, R49, R278, R341: a steward's access to Near of its own module reads and writes its bytes; before the wipe of boot a unit that is not
written in full reads as zeros; a refused access changes nothing but DEV_AERR and ends with an error completion; an access to another module leaves as
a request with a tag, or fails at once where its port is not UP; a request without an answer for 10 µs ends with an error. -/
def Obligations.BoardAccessesEnd : Prop :=
  ∀ (s : State) (k src addr o : Nat), s.fieldsCanonical = true → s.unitsCanonical = true → s.memoryCanonical = true → windowUp s = true → addr < 2 ^ 48 →
    o = bitsOf addr 41 0 →
    (∀ n, 0 < n → n ≤ 32 → bitsOf addr 47 45 = getF s F.DEV_POS → bitsOf addr 44 42 = 1 → beforeWipe s = false →
      boardError s (.steward k) addr (.read n) = none →
      exec (.boardAccess (.steward k) src addr (.read n)) s = .next { s with out := s.out ++ [.boardDone (.steward k) false
        ((List.range n).map (fun i => leRead (fun a => (smapGet zeroByte s.mem.near a).toNat) (o + 4 * i) 4))] }) ∧
    (∀ d : List Nat, 0 < d.length → d.length ≤ 32 → bitsOf addr 47 45 = getF s F.DEV_POS → bitsOf addr 44 42 = 1 → beforeWipe s = false →
      boardError s (.steward k) addr (.write d) = none → ∃ t, exec (.boardAccess (.steward k) src addr (.write d)) s = .next t ∧
      t.out = s.out ++ [.boardDone (.steward k) false []] ∧
      (∀ i j, i < d.length → j < 4 → smapGet zeroByte t.mem.near (o + 4 * i + j) = BitVec.ofNat 8 (d.getD i 0 / 256 ^ j)) ∧
      (∀ a, a < o ∨ o + 4 * d.length ≤ a → smapGet zeroByte t.mem.near a = smapGet zeroByte s.mem.near a) ∧
      t = { s with mem := { s.mem with near := t.mem.near }, out := t.out }) ∧
    (∀ d : List Nat, 0 < d.length → d.length ≤ 32 → bitsOf addr 47 45 = getF s F.DEV_POS → bitsOf addr 44 42 = 1 → beforeWipe s = true →
      boardError s (.steward k) addr (.write d) = none → ∃ t, exec (.boardAccess (.steward k) src addr (.write d)) s = .next t ∧
      t.out = s.out ++ [.boardDone (.steward k) false []] ∧
      (∀ i j, i < d.length → j < 4 → smapGet zeroNat t.mem.early (o + 4 * i + j) = 1 + d.getD i 0 / 256 ^ j % 256) ∧
      (∀ i, earlyFull t.mem (i / unitBytes) = false → boardByte t 1 i = 0) ∧
      t = { s with mem := { s.mem with early := t.mem.early }, out := t.out }) ∧
    (∀ op e, 0 < op.count → op.count ≤ 32 → bitsOf addr 47 45 = getF s F.DEV_POS → boardError s (.steward k) addr op = some e → ∃ t,
      exec (.boardAccess (.steward k) src addr op) s = .next t ∧ t.out = s.out ++ [.boardDone (.steward k) true op.zeros] ∧ isSet t e.bit = true ∧
      getF t F.DEV_AERR_CNT = satAdd 32 (getF s F.DEV_AERR_CNT) 1 ∧
      ((∀ f ∈ addrErrorBits, isSet s f = false) → getF t F.DEV_AERR_LO = addr % 2 ^ 32 ∧ getF t F.DEV_AERR_HI_ADDR_HI = addr / 2 ^ 32 % 2 ^ 16 ∧
        getF t F.DEV_AERR_HI_SRC_ORD = src % 8 ∧ isSet t F.DEV_AERR_HI_WRITE = op.isWrite) ∧
      fieldsKept [e.bit, F.DEV_AERR_CNT, F.DEV_AERR_LO, F.DEV_AERR_HI_ADDR_HI, F.DEV_AERR_HI_SRC_ORD, F.DEV_AERR_HI_WRITE] s t ∧
      t = { s with flds := t.flds, out := t.out, caps := t.caps }) ∧
    (∀ op p, 0 < op.count → op.count ≤ 32 → bitsOf addr 47 45 ≠ getF s F.DEV_POS → p = meshPort s (bitsOf addr 47 45) →
      (portUp s p = false → ∃ t, exec (.boardAccess (.steward k) src addr op) s = .next t ∧ t.out = s.out ++ [.boardDone (.steward k) true op.zeros] ∧
        getF t (F.LNK_CNT_BOARD_ERR p) = satAdd 32 (getF s (F.LNK_CNT_BOARD_ERR p)) 1 ∧ t = { s with flds := t.flds, out := t.out }) ∧
      (∀ tag, portUp s p = true → freeTag (link s p) = some tag → ∃ t, exec (.boardAccess (.steward k) src addr op) s = .next t ∧
        (link t p).reqs = (link s p).reqs ++ [{ tag := tag, requester := .steward k, sentAt := getF s F.TICK_DT, write := op.isWrite }] ∧
        (link t p).boardQ.length = (link s p).boardQ.length + 1 ∧ t = { s with links := t.links })) ∧
    ∀ p, p < 16 → ∃ t, exec (.boardRequestTimeout p) s = .next t ∧
      (link t p).reqs = (link s p).reqs.filter (fun q => !decide (q.sentAt + 10000 ≤ getF s F.TICK_DT)) ∧
      t.out = s.out ++ ((link s p).reqs.filter (fun q => decide (q.sentAt + 10000 ≤ getF s F.TICK_DT))).map (fun q => .boardDone q.requester true []) ∧
      fieldsKept [F.LNK_CNT_BOARD_ERR p] s t ∧ t = { s with flds := t.flds, links := t.links, out := t.out }

/-! ### Ticks, frames, the array and modes -/

/-- R54, R62, R71, R85, R179: a tick numbers the next frame, starts its cycle-in-frame at 0 and schedules the tick after it; an empty frame
takes its plan index and resets every cell's sequencer, its memories kept; a side that was flipped to runs; a frame still running overruns
and aborts. That TICK moves device time to the tick is log entry 50.
R50, R53, R54, R179: the announced period applies at its tick, and no frame that it makes infeasible runs; the cycle-in-frame holds at its top; an
empty frame flips to an idle side that is ready in time, in 72 ac, its drain check passing at once. The flip as one step is log entry 52, a frame that
the new period makes infeasible log entry 94. -/
def Obligations.TicksOpenFrames : Prop :=
  (∀ s : State, s.fieldsCanonical = true → s.unitsCanonical = true → isSet s F.TICK_STAT_RUNNING = true → inSpan s = false →
      isSet s F.CFG_MODE_STAT_PEND = false → s.span.decideWait = false → s.span.rerunEmpty = 0 → s.span.skip = 0 → s.frame.replayPending = false →
      s.frame.modeHeld = false → s.frame.waiting = false → s.adm.ejecting = false → s.span.lossAt = none →
      (s.frame.hasLive = false → s.frame.nextRuns = false → s.adm.reqs = [] → s.adm.frames = [] → s.mem.jobs = [] → ∃ t, exec .tick s = .next t ∧
        getF t F.TICK_NOW = (getF s F.TICK_NOW + 1) % 2 ^ 48 ∧ getF t F.TICK_CIF_CIF = 0 ∧ getF t F.TICK_LAST = getF s F.TICK_NEXT % 2 ^ 64 ∧
        getF t F.TICK_NEXT = (getF t F.TICK_LAST + 1000 * getF s F.TICK_PERIOD_PERIOD_US) % 2 ^ 64 ∧
        getF t F.TICK_DT = max (getF s F.TICK_DT) (getF s F.TICK_NEXT) % 2 ^ 64 ∧ t.frame.state = .tickWait ∧ t.frame.hasLive = false ∧
        getF t F.CFG_CNT_EMPTY = satAdd 32 (getF s F.CFG_CNT_EMPTY) 1 ∧ t.adm.frameIdx = some s.adm.nextIdx ∧ t.adm.nextIdx = s.adm.nextIdx + 1 ∧
        (∀ n, getCell t n = cellTickReset (getCell s n)) ∧ t.mem = s.mem) ∧
      (s.frame.hasLive = false ∨ s.frame.state = .tickWait → s.frame.nextRuns = true → ∃ t, exec .tick s = .next t ∧
        getF t F.TICK_NOW = (getF s F.TICK_NOW + 1) % 2 ^ 48 ∧ getF t F.TICK_CIF_CIF = 0 ∧ getF t F.TICK_LAST = getF s F.TICK_NEXT % 2 ^ 64 ∧
        t.frame.state = .running ∧ t.frame.hasLive = true ∧ t.frame.sched = 0 ∧ getF t F.TICK_FRAME = liveLen s % 2 ^ 25 ∧
        isSet t F.ARR_STAT_RUNNING = true ∧ t.adm.frameIdx = some s.adm.nextIdx ∧ getF t F.CFG_REPLAY = 0) ∧
      (s.frame.hasLive = true → s.frame.state ≠ .tickWait → ∃ t, exec .tick s = .next t ∧ isSet t F.TICK_STAT_OVERRUN = true ∧
        getF t F.TICK_CNT_OVERRUN = satAdd 32 (getF s F.TICK_CNT_OVERRUN) 1 ∧ isSet t F.CFG_STAT_ABORT = true ∧
        getF t F.TICK_NOW = (getF s F.TICK_NOW + 1) % 2 ^ 48 ∧ t.frame.hasLive = false ∧ t.frame.staged = [] ∧ t.frame.rowBus = [])) ∧
  (∀ s : State, s.fieldsCanonical = true → isSet s F.TICK_STAT_RUNNING = true →
      (getF s F.TICK_PERIOD_NEXT_US ≠ getF s F.TICK_PERIOD_PERIOD_US → getF s F.TICK_PERIOD_NEXT_US < 2 ^ 14 → getF s F.TICK_PERIOD_AT = getF s F.TICK_NOW →
        getF s F.TICK_CIF_CIF ≤ 64 → s.frame.sched = 0 → isSet s F.CFG_MODE_STAT_PEND = false → ∃ t, exec .periodChange s = .next t ∧
        getF t F.TICK_PERIOD_PERIOD_US = getF s F.TICK_PERIOD_NEXT_US ∧
        (s.frame.hasLive = false → getF t F.TICK_NEXT = (getF s F.TICK_LAST + 1000 * getF s F.TICK_PERIOD_NEXT_US) % 2 ^ 64) ∧
        (opMhz (getF s F.PWR_RANGE_OP_MAX) * getF s F.TICK_PERIOD_NEXT_US < liveLen s →
          (s.frame.hasLive = true → s.frame.state ≠ .tickWait → t.frame.hasLive = false) ∧ (s.frame.hasLive = false → t.frame.nextRuns = false)) ∧
        (s.adm.reqs = [] → s.frame.named = none → s.frame.hasLive = false → s.frame.nextRuns = false →
          fieldsKept [F.TICK_PERIOD_PERIOD_US, F.TICK_NEXT, F.CFG_STAT_IDLE_READY, F.PWR_OP_TARGET, F.PWR_OP_RAIL_MV, F.PWR_OP_CUR, F.PWR_OP_CEIL,
            F.PWR_OP_FLOOR_OP] s t ∧ t.mem = s.mem ∧
          t.cells = s.cells ∧ t.frame = s.frame)) ∧
      (getF s F.TICK_PERIOD_AT ≠ getF s F.TICK_NOW → exec .periodChange s = .next s) ∧
      (∃ t, exec .cycleInFrameSaturation s = .next t ∧ getF t F.TICK_CIF_CIF = 0x1FFFFFF ∧ isSet t F.TICK_STAT_CIF_HELD = true ∧
        fieldsKept [F.TICK_CIF_CIF, F.TICK_STAT_CIF_HELD] s t ∧ t = { s with flds := t.flds }) ∧
      (s.frame.hasLive = false → s.frame.state = .tickWait → s.frame.nextRuns = false → s.frame.replayPending = false → s.span.decideWait = false →
        idleReadyNow s = true → getF s F.TICK_DT + ceilDiv 72000 (opMhz (getF s F.PWR_OP_CUR)) ≤ getF s F.TICK_NEXT →
        getF s F.TICK_CIF_CIF + 72 < 0x1FFFFFF → ∃ t,
        exec .emptyFrameFlip s = .next t ∧ t.frame.nextRuns = true ∧ t.frame.named = none ∧ t.frame.state = .tickWait ∧ t.frame.sched = 0 ∧
        getF t F.TICK_CIF_CIF = getF s F.TICK_CIF_CIF + 72 ∧ getF t F.CFG_DRAIN_FIRST_COND = 0 ∧ getF t F.CFG_DRAIN_LAST_COND = 0 ∧ getF t F.CFG_HOLD_AC = 0 ∧
        getF t F.ARR_STAT_LIVE_CASEMENT =
          (if isSet s F.CFG_NEXT_CASEMENT_FLIP then 1 - getF s F.ARR_STAT_LIVE_CASEMENT else getF s F.ARR_STAT_LIVE_CASEMENT) ∧
        getF t F.ARR_STAT_LIVE_PANE = if isSet s F.CFG_NEXT_PANE_FLIP then 1 - getF s F.ARR_STAT_LIVE_PANE else getF s F.ARR_STAT_LIVE_PANE))

/-- R164 to R173: the shutter closes at L − D; a sample notes the conditions; 8 ac later the verdict commits and flips the frame, holds it
or aborts it; a hold that has lasted D aborts with cause DRAIN, and so does the frame whose verdict still says HOLD then. That flip and abort are one
step with the verdict is log entry 52. -/
def Obligations.DrainChecksDecide : Prop :=
  ∀ s : State, s.fieldsCanonical = true → s.frame.hasLive = true →
    (s.frame.state = .running ∨ s.frame.state = .drainHold → liveLen s - liveDrain s ≤ s.frame.sched → ∃ t, exec .ingressShutterClose s = .next t ∧
      isSet t F.TICK_CIF_DRAIN = true ∧ t.frame = { s.frame with ingressClosed := true } ∧ fieldsKept [F.TICK_CIF_DRAIN] s t ∧
      t = { s with flds := t.flds, frame := t.frame }) ∧
    (∀ edge output, (s.frame.state = .running ∧ s.frame.sched = liveLen s - 72 ∧ s.frame.samples = []) → ∃ t,
      exec (.drainSample edge output) s = .next t ∧ t.frame.samples = [⟨drainConds s edge output, idleReadyNow s, getF s F.TICK_CIF_CIF⟩] ∧
      t.frame.sampled = true ∧ t.frame.idleSealed = true ∧ fieldsKept [] s t ∧ t.mem = s.mem ∧ t.cells = s.cells) ∧
    (∀ x rest, s.frame.state = .running → s.frame.sched = schedOfVerdict s → s.frame.samples = x :: rest → x.at_ + 8 ≤ getF s F.TICK_CIF_CIF →
      x.conds < 256 → s.frame.verdictSeen = false → s.mem.switches = [] → ∃ t, exec .drainVerdict s = .next t ∧ getF t F.CFG_DRAIN_FIRST_COND = x.conds ∧
      (bitOf x.conds 7 = true ∨ bitOf x.conds 0 = true ∨ bitOf x.conds 1 = true → isSet t F.CFG_STAT_ABORT = true ∧
        getF t F.CFG_CNT_ABORT = satAdd 32 (getF s F.CFG_CNT_ABORT) 1 ∧ getF t F.CFG_DRAIN_LAST_COND = x.conds ∧ t.frame.state = .tickWait ∧
        t.frame.lastAborted = true ∧ t.frame.staged = [] ∧ t.frame.rowBus = []) ∧
      (x.conds = 0 → t.frame.state = .tickWait ∧ getF t F.CFG_DRAIN_LAST_COND = 0 ∧ getF t F.CFG_CNT_ABORT = getF s F.CFG_CNT_ABORT ∧
        (t.frame.nextRuns = true ↔ (x.ready = true ∧ s.frame.named ≠ none) ∨ s.frame.nextRuns = true) ∧
        ∀ r ∈ s.adm.reqs, r.open = true → zeroExtent s r.d = false → s.frame.liveReqs.contains r.aseq = true →
          ∃ q ∈ t.adm.reqs, q.aseq = r.aseq ∧ q.committed.isSome = true ∧ q.commitFrame = getF s F.TICK_NOW) ∧
      (x.conds ≠ 0 → bitOf x.conds 7 = false → bitOf x.conds 0 = false → bitOf x.conds 1 = false → t.frame.state = .drainHold ∧ t.frame.holdAc = 0 ∧
        t.frame.samples = rest ∧ isSet t F.CFG_STAT_IN_HOLD = true ∧ getF t F.CFG_CNT_ABORT = getF s F.CFG_CNT_ABORT ∧ t.cells = s.cells)) ∧
    (∀ x rest, s.frame.state = .drainHold → s.frame.samples = x :: rest → x.at_ + 8 ≤ getF s F.TICK_CIF_CIF → x.conds < 256 → x.conds ≠ 0 →
      s.frame.verdictSeen = true → bitOf x.conds 7 = false → bitOf x.conds 0 = false → bitOf x.conds 1 = false → ∃ t, exec .drainVerdict s = .next t ∧
      (s.frame.holdAc < liveDrain s → t = { s with frame := { s.frame with samples := rest } }) ∧
      (liveDrain s ≤ s.frame.holdAc → isSet t F.CFG_STAT_ABORT = true ∧ getF t F.CFG_CNT_ABORT = satAdd 32 (getF s F.CFG_CNT_ABORT) 1 ∧
        getF t F.CFG_DRAIN_LAST_COND = x.conds ∧ t.frame.state = .tickWait ∧ t.frame.lastAborted = true ∧ t.frame.staged = [])) ∧
    (s.frame.state = .drainHold → liveDrain s ≤ s.frame.holdAc → ∃ t, exec .drainHoldTimeout s = .next t ∧ isSet t F.CFG_STAT_ABORT = true ∧
      getF t F.CFG_CNT_ABORT = satAdd 32 (getF s F.CFG_CNT_ABORT) 1 ∧ t.frame.state = .tickWait ∧ t.frame.lastAborted = true ∧ t.frame.staged = []) ∧
    (s.frame.holdAc < liveDrain s → exec .drainHoldTimeout s = .next s)

/-- R56, R58, R87, R109, R161, R170, R224, R359: a schedule cycle runs where no gate holds and the routing stage that its configuration has there is
served, and moves the schedule and the cycle-in-frame on; at a closed gate the schedule stops, and time and the pane loaders go on; so they do
after the verdict; a hold counts its ac. A receive instance whose bytes are all there is complete. That a cycle without its routing stage does not pass is
the model's choice (log entry 99), and so is that the command advances device time (log entry 50). -/
def Obligations.ScheduleCyclesPass : Prop :=
  ∀ s : State, s.fieldsCanonical = true → isSet s F.TICK_STAT_RUNNING = true → isSet s F.CFG_STAT_LOADING = false →
    getF s F.TICK_CIF_CIF + 1 < 0x1FFFFFF →
    (∀ x, s.frame.state = .tickWait → ∃ t, exec (.scheduleCycle x) s = .next t ∧ getF t F.TICK_CIF_CIF = getF s F.TICK_CIF_CIF + 1 ∧
      getF t F.TICK_DT = (getF s F.TICK_DT + (s.frame.acRest + if s.pwr.droop then 2000 else 1000) / opMhz (getF s F.PWR_OP_CUR)) % 2 ^ 64 ∧
      (x.paneWrites = [] ∨ isSet s F.CFG_STAT_PANE_LOADING = false →
        t.frame = { s.frame with acRest := (s.frame.acRest + if s.pwr.droop then 2000 else 1000) % opMhz (getF s F.PWR_OP_CUR) } ∧
        fieldsKept [F.TICK_CIF_CIF, F.TICK_DT, F.PWR_DROOP_AC, F.PWR_OP_TARGET, F.PWR_OP_RAIL_MV] s t ∧ t.cells = s.cells ∧ t.mem = s.mem ∧
        t.out = s.out)) ∧
    (∀ x k, s.frame.state = .running ∨ s.frame.state = .gateHold → s.frame.sched < schedOfVerdict s → phaseBegins s = some k → gateOpen s k = false →
      stagesServed (serveRoutes s x) = true → ∃ t, exec (.scheduleCycle x) s = .next t ∧ t.frame.state = .gateHold ∧ t.frame.gateHeld = true ∧
      t.frame.sched = s.frame.sched ∧ isSet t F.TICK_STAT_HOLD = true ∧ isSet t F.ARR_STAT_RUNNING = false ∧
      getF t F.TICK_CIF_CIF = getF s F.TICK_CIF_CIF + 1 ∧
      (x.gateWaitNs = 0 → s.pwr.droop = false → x.paneWrites = [] ∨ isSet s F.CFG_STAT_PANE_LOADING = false → t.cells = s.cells ∧ t.mem = s.mem ∧
        t.out = s.out)) ∧
    (∀ x, s.frame.state = .running ∨ s.frame.state = .gateHold → s.frame.sched < schedOfVerdict s →
      (phaseBegins s = none ∨ ∃ k, phaseBegins s = some k ∧ gateOpen s k = true) → stagesServed (serveRoutes s x) = true → ∃ t,
      exec (.scheduleCycle x) s = .next t ∧ t.frame.state = .running ∧ t.frame.sched = s.frame.sched + 1 ∧
      getF t F.TICK_CIF_CIF = getF s F.TICK_CIF_CIF + 1 ∧ isSet t F.ARR_STAT_RUNNING = true ∧ isSet t F.TICK_STAT_HOLD = false) ∧
    (∀ x, s.frame.state = .running ∨ s.frame.state = .gateHold → stagesServed (serveRoutes s x) = false → exec (.scheduleCycle x) s = .next s) ∧
    (∀ x, s.frame.state = .running → schedOfVerdict s ≤ s.frame.sched → exec (.scheduleCycle x) s = .next s) ∧
    (∀ x, s.frame.state = .drainHold → liveDrain s ≤ s.frame.holdAc → exec (.scheduleCycle x) s = .next s) ∧
    (∀ x, s.frame.state = .drainHold → s.frame.holdAc < liveDrain s → ∃ t, exec (.scheduleCycle x) s = .next t ∧ t.frame.state = .drainHold ∧
      t.frame.sched = s.frame.sched ∧ t.frame.holdAc = s.frame.holdAc + 1 ∧ getF t F.TICK_CIF_CIF = getF s F.TICK_CIF_CIF + 1) ∧
    ∀ ref r, s.span.recvs.find? (fun i => i.ref == ref) = some r → r.done = false → r.last = true → r.bytes.length = xferLen (xferOf s ref) → ∃ t,
      exec (.spanReceiveComplete ref) s = .next t ∧
      t.span.recvs = s.span.recvs.map (fun i => if i.ref = ref then { i with done := true } else i) ∧
      t = { s with span := { s.span with recvs := t.span.recvs, minSlack := t.span.minSlack } }

/-- R102, R109, R112, R153: the sequencer of a cell on whose inputs nothing arrives and to which nothing lands: beyond LEN it halts; a word
of a later phase waits, one of an earlier phase halts the cell with PHASE_LATE; CTL LOOP opens a level; the END of a level with repetitions
left goes back to its start. -/
def Obligations.SequencersFollowThePattern : Prop :=
  ∀ (c : Cell) (cell phase casement pane : Nat), c.effects = [] → c.inN = {} → c.inE = {} → c.inS = {} → c.inW = {} → c.seq = .run → c.pc ≤ 1023 →
    (fetchWord c casement = none → (cellCycle cell phase casement pane [] { cell := c }).work.cell = { c with seq := .halted } ∧
      (cellCycle cell phase casement pane [] { cell := c }).outs = List.replicate 4 {}) ∧
    ∀ w, fetchWord c casement = some w →
      (phase < pwPhase w → (cellCycle cell phase casement pane [] { cell := c }).work.cell = { c with seq := .phaseWait } ∧
        (cellCycle cell phase casement pane [] { cell := c }).work.faults = []) ∧
      (pwPhase w < phase → (cellCycle cell phase casement pane [] { cell := c }).work.cell = { c with seq := .haltedFault } ∧
        (cellCycle cell phase casement pane [] { cell := c }).work.faults = [(.phaseLate, 5)]) ∧
      (pwPhase w = phase → pwClass w = .ctl → pwOp w = 0 → pwEnd w = false →
        (cellCycle cell phase casement pane [] { cell := c }).work.cell =
          { c with pc := c.pc + 1, loops := smapSet idleLoop c.loops (ctlSel w) ⟨true, c.pc + 1, 0, ctlIter w - 1⟩ }) ∧
      (pwPhase w = phase → pwClass w = .move → pwOp w = 0 → pwSrcA w = 0 → pwSrcB w = 0 → pwEnd w = true → 0 < (smapGet idleLoop c.loops (pwLvl w)).rem →
        smapSorted c.loops = true → (cellCycle cell phase casement pane [] { cell := c }).work.cell.pc = (smapGet idleLoop c.loops (pwLvl w)).ls ∧
        smapGet idleLoop (cellCycle cell phase casement pane [] { cell := c }).work.cell.loops (pwLvl w) =
          { smapGet idleLoop c.loops (pwLvl w) with
            rem := (smapGet idleLoop c.loops (pwLvl w)).rem - 1, idx := (smapGet idleLoop c.loops (pwLvl w)).idx + 1 })

/-- R121, R154, R157 to R163, R185: what is named is what the plan gives, until the next frame's problem table is sealed, from when on what is named
stays or falls (R193, log entry 109), and loads of it that have lapsed begin again; a load that passes
its checks leaves the configuration complete in the idle casement, one that fails is rejected with its reason; a pane load completes the
idle pane; a checked configuration is noted; a column with errors is retired, queued, or finds no spare. -/
def Obligations.LoadsAndChecks : Prop :=
  ∀ s : State, s.fieldsCanonical = true → s.tablesCanonical = true →
    (∀ x, x = (if s.frame.idleSealed = true ∧ (planNaming s none).isSome = true then s.frame.named else planNaming s none) →
      isSet s F.TICK_STAT_RUNNING = true → s.frame.lastAborted = false → s.frame.replayPending = false →
      s.span.decideWait = false → ∃ t, exec (.frameNaming none) s = .next t ∧ t.frame.named = x ∧
      (s.frame.named = x → loadsLapsed s = false → getF s F.PWR_STAT_STATE ≠ 1 → t = s) ∧
      (x.isSome = true → getF t F.PWR_STAT_STATE ≠ 1) ∧
      (s.frame.named = x → loadsLapsed s = true →
        isSet t F.CFG_STAT_LOADING = true ∨ isSet t F.CFG_STAT_PANE_LOADING = true ∨ idleReadyNow t = true) ∧ t.mem = s.mem ∧ t.adm = s.adm) ∧
    (s.frame.lastAborted = true ∨ s.frame.replayPending = true ∨ s.span.decideWait = true → exec (.frameNaming none) s = .next s) ∧
    (∀ nearUe x r b, isSet s F.CFG_STAT_LOADING = true → s.frame.named = some x → recFind s.mem x.model x.epoch = some r → cfgBytes s r x.configId = some b →
      ∃ t, exec (.casementLoadDone nearUe) s = .next t ∧ isSet t F.CFG_STAT_LOADING = false ∧
      (checkConfig b.rd (checkContext s r b.len b.west (some (getF s F.CFG_MODE)) nearUe) = none →
        smapGet noCasement t.frame.casements (1 - getF s F.ARR_STAT_LIVE_CASEMENT) =
          { smapGet noCasement s.frame.casements (1 - getF s F.ARR_STAT_LIVE_CASEMENT) with cfg := loadedConfig b.rd x.epoch, complete := true } ∧
        getF t F.CFG_CNT_LOAD = satAdd 32 (getF s F.CFG_CNT_LOAD) 1) ∧
      (∀ f, checkConfig b.rd (checkContext s r b.len b.west (some (getF s F.CFG_MODE)) nearUe) = some f → isSet t F.CFG_STAT_REJECT = true ∧
        getF t F.CFG_CNT_REJECT = satAdd 32 (getF s F.CFG_CNT_REJECT) 1 ∧
        (isSet s F.CFG_STAT_REJECT = false → getF t F.CFG_REJ_INFO_REASON = f.reason % 16 ∧ getF t F.CFG_REJ_ID = x.configId % 2 ^ 32) ∧
        t.frame.casements = s.frame.casements) ∧ t.mem = s.mem) ∧
    (∀ x r b, isSet s F.CFG_STAT_PANE_LOADING = true → s.frame.named = some x → recFind s.mem x.model x.epoch = some r → cfgBytes s r x.configId = some b →
      ∃ t, exec .paneLoadDone s = .next t ∧ isSet t F.CFG_STAT_PANE_LOADING = false ∧
      smapGet noPane t.frame.panes (1 - getF s F.ARR_STAT_LIVE_PANE) =
        { smapGet noPane s.frame.panes (1 - getF s F.ARR_STAT_LIVE_PANE) with complete := true } ∧ t.mem = s.mem ∧ t.adm = s.adm) ∧
    (∀ model epoch c nearUe r b, recFind s.mem model epoch = some r → r.shards.all (fun h => h.written || !keptShard s r h) = true →
      (keptConfigs s r).contains c = true → cfgBytes s r c = some b → ∃ t, exec (.checkOnlyPass model epoch (some c) nearUe) s = .next t ∧
      (checkConfig b.rd (checkContext s r b.len b.west none nearUe) = none → t.flds = s.flds ∧
        ∃ q, recFind t.mem model epoch = some q ∧ q.checked.contains c = true) ∧
      (checkConfig b.rd (checkContext s r b.len b.west none nearUe) ≠ none → isSet t F.CFG_STAT_REJECT = true ∧
        getF t F.CFG_CNT_REJECT = satAdd 32 (getF s F.CFG_CNT_REJECT) 1)) ∧
    (∀ model epoch c nearUe r, recFind s.mem model epoch = some r → (keptConfigs s r).contains c = false →
      exec (.checkOnlyPass model epoch (some c) nearUe) s = .next s) ∧
    (∀ model epoch nearUe r b, recFind s.mem model epoch = some r → r.shards.all (fun h => h.written || !keptShard s r h) = true →
      (r.objects.filter (fun o => o.kind == 3)).all (keepsObject s r) = true → routeBytes s r = some b → ∃ t,
      exec (.checkOnlyPass model epoch none nearUe) s = .next t ∧ t.flds = s.flds ∧
      (nearUe = false → routeOk b.rd b.len (spanSize s) (planModelFor s.adm.plan model) = true → t.adm = s.adm ∧
        ∃ q, recFind t.mem model epoch = some q ∧ q.routeOk = true) ∧
      (nearUe = true ∨ routeOk b.rd b.len (spanSize s) (planModelFor s.adm.plan model) = false → t = markUnusable s model epoch)) ∧
    ∀ c rest, s.frame.retireDue = c :: rest → c < 66 → getF s F.ARR_RETIRE_COL ≠ c → getF s F.ARR_RETIRE_QCOL ≠ c → getF s F.ARR_COLMAP_EXCL0 ≠ c →
      getF s F.ARR_COLMAP_EXCL1 ≠ c → ∃ t, exec .columnRetirement s = .next t ∧ t.frame = { s.frame with retireDue := rest } ∧
      (0 < unclaimed s → isSet s F.ARR_RETIRE_PEND = false → isSet t F.ARR_RETIRE_PEND = true ∧ getF t F.ARR_RETIRE_COL = c ∧
        isSet t F.CFG_STAT_IDLE_READY = idleReadyNow t ∧
        fieldsKept [F.ARR_RETIRE_PEND, F.ARR_RETIRE_COL, F.CFG_STAT_IDLE_READY, F.CFG_STAT_LOAD_DONE] s t) ∧
      (0 < unclaimed s → isSet s F.ARR_RETIRE_PEND = true → isSet t F.ARR_RETIRE_QPEND = true ∧ getF t F.ARR_RETIRE_QCOL = c ∧
        fieldsKept [F.ARR_RETIRE_QPEND, F.ARR_RETIRE_QCOL] s t) ∧
      (unclaimed s = 0 → isSet t F.ADM_SHUT_SPARE = true ∧ fieldsKept [F.ADM_SHUT_SPARE] s t) ∧ t.mem = s.mem ∧ t.cells = s.cells

/-- R182, R183: a refused request shows why and changes nothing else; an accepted one is pending, its shutter closed where the new mode
serves none and the new mode's period announced where it differs; two ticks later the mode changes at a tick with the new mode's settings,
unless the frame before aborted. -/
def Obligations.ModesChange : Prop :=
  ∀ s : State, s.fieldsCanonical = true →
    (∀ target r why, modeRefused s target r = some why → ∃ t, exec (.modeRequest target r) s = .next t ∧ isSet t F.CFG_STAT_MODE_REFUSED = true ∧
      getF t F.CFG_MODE_STAT_REFUSE_WHY = why ∧ fieldsKept ([F.CFG_STAT_MODE_REFUSED, F.CFG_MODE_STAT_REFUSE_WHY] ++ denyFields) s t ∧
      t = { s with flds := t.flds, caps := t.caps }) ∧
    (∀ target r, modeRefused s target r = none → inSpan s = false → ∃ t, exec (.modeRequest target r) s = .next t ∧ isSet t F.CFG_MODE_STAT_PEND = true ∧
      getF t F.CFG_MODE_STAT_TARGET = target ∧ (servesRequests target = false → isSet t F.ADM_SHUT_MODE = true) ∧
      (modePeriod s target = getF s F.TICK_PERIOD_PERIOD_US → getF t F.TICK_PERIOD_NEXT_US = getF s F.TICK_PERIOD_NEXT_US ∧
        getF t F.TICK_PERIOD_AT = getF s F.TICK_PERIOD_AT) ∧
      (modePeriod s target ≠ getF s F.TICK_PERIOD_PERIOD_US → getF t F.TICK_PERIOD_NEXT_US = modePeriod s target ∧
        getF t F.TICK_PERIOD_AT = (getF s F.TICK_NOW + 2) % 2 ^ 48) ∧
      t.frame = { s.frame with modeAskedAt := getF s F.TICK_NOW, modeHeld := false } ∧
      fieldsKept [F.CFG_MODE_STAT_PEND, F.CFG_MODE_STAT_TARGET, F.ADM_SHUT_MODE, F.TICK_PERIOD_NEXT_US, F.TICK_PERIOD_AT] s t ∧
      t.mem = s.mem ∧ t.adm = s.adm ∧ t.cells = s.cells) ∧
    (changeDue s (getF s F.TICK_NOW) = true → s.frame.prevAborted = false → s.frame.hasLive = false → getF s F.TICK_CIF_CIF = 0 → ∃ t, exec .modeChangeApply s = .next t ∧
      getF t F.CFG_MODE = getF s F.CFG_MODE_STAT_TARGET % 8 ∧ isSet t F.CFG_MODE_STAT_PEND = false ∧
      isSet t F.ADM_SHUT_MODE = !servesRequests (getF s F.CFG_MODE_STAT_TARGET) ∧
      isSet t F.CFG_STAT_MODE_DONE = true ∧ getF t F.CFG_MODE_AT = getF s F.TICK_NOW % 2 ^ 48) ∧
    (changeDue s (getF s F.TICK_NOW) = false ∨ s.frame.prevAborted = true → exec .modeChangeApply s = .next s)

/-! ### Spans -/

/-- R67 to R70, R77: the master grants the largest amount asked for, cut to MAX_US, the lowest ordinal's among equals, tells its children with a stamp
no earlier than the request's and reschedules its tick; a request after the cutoff, or for another tick (log entry 94), is counted as late. A member takes a grant of the coming tick, never
earlier than its own; a late one costs its lock. -/
def Obligations.StretchesAreGranted : Prop :=
  ∀ (s : State) (m : CtrlMsg), s.fieldsCanonical = true → s.unitsCanonical = true → inSpan s = true →
    (isMaster s = true → m.msg = 1 →
      (∀ amount dt, m.tick = getF s F.TICK_NOW + 1 →
        getF s F.TICK_DT + 1000 * getF s F.TICK_STRETCH_CFG_CUTOFF_US < getF s F.TICK_NEXT →
        amount = min (bitsOf m.arg 31 0) (getF s F.TICK_STRETCH_CFG_MAX_US) → 0 < amount →
        dt = getF s F.TICK_LAST + 1000 * getF s F.TICK_PERIOD_PERIOD_US + 1000 * amount → getF s F.TICK_NEXT ≤ dt →
        (∀ g, s.span.granted = some g → g.tick = m.tick → g.amountUs < bitsOf m.arg 31 0 ∨ (g.amountUs = bitsOf m.arg 31 0 ∧ m.from_ < g.ord)) → ∃ t,
        exec (.stretchReq m) s = .next t ∧ isSet t F.TICK_STAT_STRETCH_PEND = true ∧ getF t F.TICK_NEXT = dt % 2 ^ 64 ∧
        t.span.granted = some ⟨m.tick, bitsOf m.arg 31 0, Cause.ofNum (bitsOf m.arg 39 32), m.from_, some m.stamp⟩ ∧
        t.span.grant = some ⟨m.tick, dt, amount, Cause.ofNum (bitsOf m.arg 39 32), m.from_⟩ ∧
        (∀ p ∈ childPorts s, (link t p).ctrlQ = (link s p).ctrlQ ++ [ctrlBytes ⟨2, getF s F.SPAN_ID_ORD, 0xFFFF, m.tick, stampAfter s srcTick (some m.stamp),
          dt + amount * 2 ^ 64 + (Cause.ofNum (bitsOf m.arg 39 32)).num * 2 ^ 96 + m.from_ * 2 ^ 104⟩]) ∧
        (bitsOf m.arg 39 32 = 4 → isSet t F.PWR_STAT_NARROW = true ∧ t.pwr.powerGrant = true) ∧ t.frame = s.frame ∧ t.adm = s.adm ∧ t.mem = s.mem ∧
        t.cells = s.cells ∧ fieldsKept [F.TICK_STAT_STRETCH_PEND, F.TICK_NEXT, F.SPAN_CNT_CTRL_RX, F.SPAN_CNT_CTRL_TX, F.PWR_STAT_NARROW,
          F.ADM_STAT_NARROWED] s t) ∧
      (∀ g, m.tick = getF s F.TICK_NOW + 1 → getF s F.TICK_DT + 1000 * getF s F.TICK_STRETCH_CFG_CUTOFF_US < getF s F.TICK_NEXT →
        s.span.granted = some g → g.tick = m.tick → bitsOf m.arg 31 0 < g.amountUs ∨ (bitsOf m.arg 31 0 = g.amountUs ∧ g.ord ≤ m.from_) → ∃ t,
        exec (.stretchReq m) s = .next t ∧ fieldsKept [F.SPAN_CNT_CTRL_RX] s t ∧ t.span.granted = s.span.granted ∧ t.span.grant = s.span.grant ∧
        t.links = s.links ∧ t.frame = s.frame ∧ t.adm = s.adm ∧ t.mem = s.mem) ∧
      (m.tick ≠ getF s F.TICK_NOW + 1 ∨ getF s F.TICK_NEXT ≤ getF s F.TICK_DT + 1000 * getF s F.TICK_STRETCH_CFG_CUTOFF_US → ∃ t,
        exec (.stretchReq m) s = .next t ∧ getF t F.TICK_CNT_LATE_REQ = satAdd 32 (getF s F.TICK_CNT_LATE_REQ) 1 ∧
        fieldsKept [F.TICK_CNT_LATE_REQ, F.SPAN_CNT_CTRL_RX] s t ∧ t.span.granted = s.span.granted ∧ t.links = s.links ∧ t.frame = s.frame ∧
        t.adm = s.adm ∧ t.mem = s.mem)) ∧
    (isMaster s = false → m.msg = 2 →
      (m.tick = getF s F.TICK_NOW + 1 → getF s F.TICK_NEXT ≤ bitsOf m.arg 63 0 → ∃ t, exec (.stretchGrant m) s = .next t ∧
        isSet t F.TICK_STAT_STRETCH_PEND = true ∧ getF t F.TICK_NEXT = bitsOf m.arg 63 0 ∧
        t.span.grant = some ⟨m.tick, bitsOf m.arg 63 0, bitsOf m.arg 95 64, Cause.ofNum (bitsOf m.arg 103 96), bitsOf m.arg 119 104⟩ ∧
        (bitsOf m.arg 103 96 = 4 → isSet t F.PWR_STAT_NARROW = true ∧ t.pwr.powerGrant = true) ∧ t.links = s.links ∧ t.frame = s.frame ∧
        fieldsKept [F.TICK_STAT_STRETCH_PEND, F.TICK_NEXT, F.SPAN_CNT_CTRL_RX, F.PWR_STAT_NARROW, F.ADM_STAT_NARROWED] s t) ∧
      (m.tick ≤ getF s F.TICK_NOW → ∃ t, exec (.stretchGrant m) s = .next t ∧ isSet t F.TICK_STAT_LATE_GRANT = true ∧
        isSet t F.TICK_STAT_ALIGN_LOSS = true ∧ isSet t F.TICK_STAT_LOCKED = false ∧ getF t F.TICK_CNT_ALIGN = satAdd 32 (getF s F.TICK_CNT_ALIGN) 1 ∧
        t.span.grant = s.span.grant ∧ t.frame = s.frame ∧ t.adm = s.adm ∧ t.mem = s.mem ∧ fieldsKept [F.TICK_STAT_LATE_GRANT,
          F.TICK_STAT_ALIGN_LOSS, F.TICK_STAT_LOCKED, F.TICK_CNT_ALIGN, F.SPAN_CNT_CTRL_RX, F.SPAN_CNT_CTRL_TX] s t))

/-- R367 to R373: the master keeps a member's report until it holds every one; a frame that all committed is decided in silence, one that
all aborted is replayed by all, with the lowest ordinal's cause, and every child hears so; the bit for a split and how late decisions act are the
model's (log entry 45), that a member takes no notice of its own is log entry 108. A notice faults the running frame of its tick. A
member replays as the decision says, in the frame that waited for it where that one's turn has come. -/
def Obligations.FramesAreDecided : Prop :=
  ∀ (s : State) (m : CtrlMsg), s.fieldsCanonical = true → s.unitsCanonical = true → inSpan s = true →
    (∀ r : FrameReport, isMaster s = true → m.msg = 3 → m.from_ ≠ getF s F.SPAN_ID_ORD →
      r = ⟨m.from_, m.tick, bitsOf m.arg 7 0, bitsOf m.arg 15 8, decide (bitsOf m.arg 23 16 ≠ 0), bitsOf m.arg 31 24, m.stamp⟩ →
      (∀ q ∈ s.span.reports, q.ord = m.from_ → q.tick ≠ m.tick) → m.tick ∉ s.span.decided →
      ((∃ i ∈ reportersOf s m.tick, i ≠ m.from_ ∧ ∀ q ∈ s.span.reports, q.ord = i → q.tick ≠ m.tick) → ∃ t, exec (.frameReport m) s = .next t ∧
        t.span.reports = s.span.reports ++ [r] ∧ t.span.decided = s.span.decided ∧ t.frame = s.frame ∧ t.adm = s.adm ∧ t.mem = s.mem ∧
        t.links = s.links ∧ fieldsKept [F.SPAN_CNT_CTRL_RX] s t) ∧
      ((∀ i ∈ reportersOf s m.tick, ∃ q ∈ s.span.reports ++ [r], q.ord = i ∧ q.tick = m.tick) → m.from_ ∈ reportersOf s m.tick →
        (∀ q ∈ s.span.reports ++ [r], q.tick = m.tick → q.outcome = 0 ∨ q.outcome = 3) → ∃ t, exec (.frameReport m) s = .next t ∧
        t.span.decided = (s.span.decided ++ [m.tick]).drop (s.span.decided.length - 7) ∧
        t.span.reports = s.span.reports.filter (fun q => decide (q.tick ≠ m.tick)) ∧ t.frame = s.frame ∧ t.adm = s.adm ∧ t.mem = s.mem ∧
        t.links = s.links ∧ fieldsKept [F.SPAN_CNT_CTRL_RX] s t) ∧
      ((∀ i ∈ reportersOf s m.tick, ∃ q ∈ s.span.reports ++ [r], q.ord = i ∧ q.tick = m.tick) → m.from_ ∈ reportersOf s m.tick →
        (∀ q ∈ s.span.reports ++ [r], q.tick = m.tick → q.ord ∈ reportersOf s m.tick ∧ (q.outcome = 1 ∨ q.outcome = 2)) →
        (∀ p ∈ s.span.soloFrames, p.1 ≠ m.tick) → ∃ t, exec (.frameReport m) s = .next t ∧ isSet t F.SPAN_STAT_REPLAY = true ∧
        getF t F.SPAN_DECIDE_KIND = 1 ∧ getF t F.SPAN_DECIDE_TICK = m.tick % 2 ^ 48 ∧
        getF t F.SPAN_CNT_REPLAY_ALL = satAdd 32 (getF s F.SPAN_CNT_REPLAY_ALL) 1 ∧
        (∃ q ∈ s.span.reports ++ [r], q.tick = m.tick ∧ (∀ q' ∈ s.span.reports ++ [r], q'.tick = m.tick → q.ord ≤ q'.ord) ∧
          getF t F.SPAN_DECIDE_CAUSE = (Cause.ofNum q.cause).num) ∧
        t.span.decided = (s.span.decided ++ [m.tick]).drop (s.span.decided.length - 7) ∧
        ∀ p ∈ childPorts s, ∃ (d : CtrlMsg) (rest : List (List Byte)), (link t p).ctrlQ = (link s p).ctrlQ ++ ctrlBytes d :: rest ∧ d.msg = 5 ∧ d.tick = m.tick ∧ d.to_ = 0xFFFF ∧
          bitsOf d.arg 7 0 = 1)) ∧
    (m.msg = 4 → m.from_ ≠ ownOrd s → ∃ t, exec (.faultNotice m) s = .next t ∧ isSet t F.SPAN_STAT_NOTICE = true ∧
      getF t F.SPAN_CNT_NOTICE = satAdd 32 (getF s F.SPAN_CNT_NOTICE) 1 ∧ t.frame = s.frame ∧ t.adm = s.adm ∧ t.mem = s.mem ∧ t.cells = s.cells ∧
      (m.tick = getF s F.TICK_NOW → t.span.noticed = true ∧
        (s.frame.hasLive = true → s.frame.state = .running → isSet t F.ARR_STAT_FRAME_FAULTED = true ∧ isSet t F.ARR_STAT_FAULT = true)) ∧
      (m.tick ≠ getF s F.TICK_NOW → t.span.noticed = s.span.noticed ∧ isSet t F.ARR_STAT_FRAME_FAULTED = isSet s F.ARR_STAT_FRAME_FAULTED) ∧
      (∀ p ∈ childPorts s, (link t p).ctrlQ = (link s p).ctrlQ ++ if isMaster s then [ctrlBytes { m with to_ := 0xFFFF }] else [])) ∧
    (m.msg = 4 → m.from_ = ownOrd s → ∃ t, exec (.faultNotice m) s = .next t ∧ getF t F.SPAN_CNT_NOTICE = getF s F.SPAN_CNT_NOTICE ∧
      t.span.noticed = s.span.noticed ∧ isSet t F.ARR_STAT_FRAME_FAULTED = isSet s F.ARR_STAT_FRAME_FAULTED ∧ t.frame = s.frame ∧ t.adm = s.adm) ∧
    (isMaster s = false → m.msg = 5 → bitOf m.arg 24 = false →
      (bitsOf m.arg 7 0 = 1 → s.span.decideWait = true → s.frame.waiting = true → s.adm.ejecting = false → m.tick + bitsOf m.arg 23 16 ≤ getF s F.TICK_NOW →
        (casement s (liveCase s)).complete = true → (pane s (livePane s)).complete = true → s.frame.replays < getF s F.CFG_REPLAY_CFG → ∃ t,
        exec (.decision m) s = .next t ∧ t.span.decideWait = false ∧ t.span.solo = false ∧ t.frame.state = .running ∧ t.frame.hasLive = true ∧
        t.frame.waiting = false ∧ t.frame.replays = s.frame.replays + 1 ∧ t.adm.frameIdx = some s.adm.nextIdx) ∧
      (bitsOf m.arg 7 0 = 1 → s.span.decideWait = true → s.frame.waiting = false → (casement s (liveCase s)).complete = true →
        (pane s (livePane s)).complete = true → ∃ t, exec (.decision m) s = .next t ∧ isSet t F.SPAN_STAT_REPLAY = true ∧
        getF t F.SPAN_DECIDE_KIND = 1 ∧ getF t F.SPAN_CNT_REPLAY_ALL = satAdd 32 (getF s F.SPAN_CNT_REPLAY_ALL) 1 ∧ t.span.decideWait = false ∧
        t.span.solo = false ∧ (s.frame.replays < getF s F.CFG_REPLAY_CFG → t.frame = { s.frame with replayPending := true } ∧ t.adm = s.adm) ∧
        (getF s F.CFG_REPLAY_CFG ≤ s.frame.replays → t.frame.replayPending = false ∧ isSet t F.CFG_STAT_REPLAY_FAIL = true ∧
          getF t F.CFG_REPLAY = 0)) ∧
      (bitsOf m.arg 7 0 = 2 → s.span.decideWait = true → s.frame.waiting = false → (casement s (liveCase s)).complete = true → (pane s (livePane s)).complete = true →
        s.frame.replays < getF s F.CFG_REPLAY_CFG → ∃ t, exec (.decision m) s = .next t ∧
        getF t F.SPAN_DECIDE_KIND = 2 ∧ getF t F.SPAN_CNT_REPLAY_SOLO = satAdd 32 (getF s F.SPAN_CNT_REPLAY_SOLO) 1 ∧ t.span.decideWait = false ∧
        t.span.solo = true ∧ t.frame = { s.frame with replayPending := true } ∧ t.adm = s.adm ∧ t.mem = s.mem) ∧
      (∀ n, n = (if s.span.skipping then s.span.soloRun else s.span.lastReplays) → bitsOf m.arg 7 0 = 2 → s.span.decideWait = false →
        n < getF s F.CFG_REPLAY_CFG → ∃ t, exec (.decision m) s = .next t ∧
        getF t F.SPAN_DECIDE_KIND = 3 ∧ getF t F.SPAN_CNT_SKIP = satAdd 32 (getF s F.SPAN_CNT_SKIP) (bitsOf m.arg 23 16) ∧
        t.span.soloRun = n + 1 ∧ t.span.skipping = true ∧ t.adm.reqs = s.adm.reqs ∧ t.mem = s.mem))

/-- R375 to R377: the master notes who is out of alignment; it declares a member lost for its grace, its missing reports, a lost port or its
own leaving; a member takes that over, and holds itself lost where no parent, or no master, can be reached. -/
def Obligations.MembersAreLost : Prop :=
  ∀ s : State, s.fieldsCanonical = true → inSpan s = true → getF s F.SPAN_ID_SIZE ≤ 1024 →
    (isMaster s = true →
      (∀ m : CtrlMsg, m.msg = 6 → ∃ t, exec (.alignReport m) s = .next t ∧
        t.span.alignLost = (if bitOf m.arg 16 then s.span.alignLost.filter (fun p => decide (p.1 ≠ m.from_))
          else if s.span.alignLost.any (fun p => p.1 == m.from_) then s.span.alignLost else s.span.alignLost ++ [(m.from_, getF s F.TICK_NOW)]) ∧
        fieldsKept [F.SPAN_CNT_CTRL_RX] s t ∧ t.frame = s.frame ∧ t.adm = s.adm ∧ t.mem = s.mem ∧ t.links = s.links) ∧
      (∀ x, isLost s x = false → x < getF s F.SPAN_ID_SIZE →
        (∀ n, (x, n) ∈ s.span.alignLost → n + getF s F.SPAN_CFG_ALIGN_GRACE < getF s F.TICK_NOW → ∃ t, exec (.alignGraceExpiry x) s = .next t ∧
          lostNow s t x 4 (getF s F.TICK_NOW + 1)) ∧
        (∀ n, getF s F.TICK_NOW = n + 2 → x ≠ getF s F.SPAN_ID_ORD → reported s x (n + 1) = false → reported s x n = false → ∃ t,
          exec (.memberReportMissing x) s = .next t ∧ lostNow s t x 3 (n + 3)) ∧
        (∀ m : CtrlMsg, m.msg = 7 → bitsOf m.arg 23 8 = x → bitsOf m.arg 31 24 ≠ 1 → ∃ t, exec (.linkLost m) s = .next t ∧
          lostNow s t x 2 (getF s F.TICK_NOW + 1)) ∧
        (∀ m : CtrlMsg, m.msg = 7 → max m.from_ (bitsOf m.arg 23 8) = x → bitsOf m.arg 31 24 = 1 → 1 ≤ getF s F.TICK_NOW →
          reported s m.from_ (getF s F.TICK_NOW - 1) = true → reported s (bitsOf m.arg 23 8) (getF s F.TICK_NOW - 1) = true → ∃ t,
          exec (.linkLost m) s = .next t ∧ lostNow s t x 5 (getF s F.TICK_NOW + 1)) ∧
        ∀ m : CtrlMsg, m.msg = 8 → m.from_ = x → ∃ t, exec (.leave m) s = .next t ∧ lostNow s t x 1 (bitsOf m.arg 47 0))) ∧
    (isMaster s = false →
      (∀ m : CtrlMsg, m.msg = 9 → bitsOf m.arg 15 0 < 1024 → ∃ t, exec (.memberLost m) s = .next t ∧
        lostNow s t (bitsOf m.arg 15 0) (bitsOf m.arg 23 16) (bitsOf m.arg 71 24) ∧
        ∀ r ∈ s.adm.reqs, r.open = true → r.d.op ≠ 2 → zeroExtent s r.d = false → spanRequest s r = true → s.span.decideWait = false → s.frame.replayPending = false →
          ∃ q ∈ t.adm.reqs, q.aseq = r.aseq ∧ q.d = r.d ∧ q.failed.isSome = true) ∧
      (getF s F.SPAN_ID_ORD < 1024 → isLost s (getF s F.SPAN_ID_ORD) = false →
        (portUp s (getF s F.SPAN_TREE_PARENT_PORT) = false →
          isSet s F.SPAN_TREE_ALT_VALID = false ∨ portUp s (getF s F.SPAN_TREE_ALT_PORT) = false → ∃ t, exec .selfIsolation s = .next t ∧
          lostNow s t (getF s F.SPAN_ID_ORD) 6 (getF s F.TICK_NOW + 1)) ∧
        ∀ n, s.span.pathLostAt = some n → n + 5000000 ≤ getF s F.TICK_DT → ∃ t, exec .takeoverTimeout s = .next t ∧
          lostNow s t (getF s F.SPAN_ID_ORD) 6 (getF s F.TICK_NOW + 1)))

/-- R379: a member follows the deputy that takes over; the deputy takes over when the master is gone, keeps the tick that it scheduled, and
declares it lost. R352: an announced change is noted; at its tick a period applies, a switch moves ACTIVE; before, nothing happens. The
operands of ANNOUNCE are the model's layout (log entry 44). -/
def Obligations.MasterAndAnnouncements : Prop :=
  ∀ s : State, s.fieldsCanonical = true → s.memoryCanonical = true → inSpan s = true →
    (∀ m : CtrlMsg, isMaster s = false → m.msg = 0x0C → bitsOf m.arg 15 0 < 1024 → ∃ t, exec (.takeover m) s = .next t ∧
      getF t F.SPAN_ROLES_MASTER = bitsOf m.arg 15 0 ∧ t.span.masterSeenAt = getF s F.TICK_DT ∧ t.span.pathLostAt = none ∧
      fieldsKept [F.SPAN_ROLES_MASTER, F.SPAN_CNT_CTRL_RX] s t ∧ t.frame = s.frame ∧ t.adm = s.adm ∧ t.mem = s.mem ∧ t.links = s.links) ∧
    (∀ old, s.frame.waiting = false → isDeputy s = true → isMaster s = false → masterGone s = true → getF s F.SPAN_ROLES_MASTER = old → old < getF s F.SPAN_ID_SIZE →
      getF s F.SPAN_ID_SIZE ≤ 1024 → isLost s old = false → getF s F.SPAN_ID_ORD < 1024 → ∃ t, exec .masterLossTimeout s = .next t ∧
      getF t F.SPAN_ROLES_MASTER = getF s F.SPAN_ID_ORD ∧ isSet t F.SPAN_STAT_TAKEOVER = true ∧ isSet t F.TICK_STAT_MASTER = true ∧ isSet t F.TICK_STAT_LOCKED = true ∧
      getF t F.SPAN_STAT_ROLE = 1 ∧ getF t F.TICK_SYNC_SYNC_PORT = 0 ∧ getF t F.TICK_SYNC_DEPTH = 0 ∧ getF t F.TICK_NEXT = getF s F.TICK_NEXT ∧ lostNow s t old 3 (getF s F.TICK_NOW + 1)) ∧
    (masterGone s = false → exec .masterLossTimeout s = .next s) ∧
    (∀ m : CtrlMsg, isMaster s = false → m.msg = 0x0A → ∃ t, exec (.announce m) s = .next t ∧
      t.span.announced = s.span.announced ++ [⟨bitsOf m.arg 7 0, bitsOf m.arg 55 8, bitsOf m.arg 255 56⟩] ∧
      (bitsOf m.arg 7 0 = 1 → getF t F.TICK_PERIOD_NEXT_US = bitsOf m.arg 255 56 % 2 ^ 14 ∧ getF t F.TICK_PERIOD_AT = bitsOf m.arg 55 8) ∧
      (bitsOf m.arg 7 0 = 2 → isSet t F.CFG_MODE_STAT_PEND = true ∧ getF t F.CFG_MODE_STAT_TARGET = bitsOf m.arg 255 56 % 8) ∧
      fieldsKept [F.TICK_PERIOD_NEXT_US, F.TICK_PERIOD_AT, F.CFG_MODE_STAT_PEND, F.CFG_MODE_STAT_TARGET, F.ADM_SHUT_MODE, F.SPAN_CNT_CTRL_RX] s t ∧
      t.mem = s.mem ∧ t.links = s.links) ∧
    (∀ x, (∀ a ∈ s.span.announced, a.subject = x → getF s F.TICK_NOW < a.tick) → exec (.announceApply x) s = .next s) ∧
    ∀ a, s.span.announced.find? (fun b => b.subject == a.subject && decide (b.tick ≤ getF s F.TICK_NOW)) = some a →
      (a.subject = 1 → isSet s F.TICK_STAT_RUNNING = true → getF s F.TICK_PERIOD_NEXT_US ≠ getF s F.TICK_PERIOD_PERIOD_US →
        getF s F.TICK_PERIOD_NEXT_US < 2 ^ 14 → getF s F.TICK_PERIOD_AT = getF s F.TICK_NOW → getF s F.TICK_CIF_CIF ≤ 64 → s.frame.sched = 0 →
        isSet s F.CFG_MODE_STAT_PEND = false → ∃ t, exec (.announceApply 1) s = .next t ∧
        getF t F.TICK_PERIOD_PERIOD_US = getF s F.TICK_PERIOD_NEXT_US ∧
        (s.frame.hasLive = false → getF t F.TICK_NEXT = (getF s F.TICK_LAST + 1000 * getF s F.TICK_PERIOD_NEXT_US) % 2 ^ 64) ∧
        t.span.announced = s.span.announced.erase a ∧ t.mem = s.mem) ∧
      (a.subject = 3 → s.mem.switches = [] → getF s F.CFG_MODE ≠ 2 → ∃ t, exec (.announceApply 3) s = .next t ∧
        isSet t F.WGT_STAT_SWITCH_DONE = true ∧ getF t F.WGT_CNT_SWITCH = satAdd 32 (getF s F.WGT_CNT_SWITCH) 1 ∧
        t.span.announced = s.span.announced.erase a ∧
        ∀ i ∈ dirWays (bitsOf a.operand 31 0), (dirGet s.mem i).valid = true → (dirGet s.mem i).modelId = bitsOf a.operand 31 0 →
          (dirGet t.mem i).active = ((dirGet s.mem i).epoch == bitsOf a.operand 47 32))

/-- R307, R364: load frames begin at their tick with the member's shards placed, and end with NEAR set or the load failed; a home sends its
next piece on a channel once a load frame; a target keeps a piece, and writes the shard once it is whole and its check passes; targets'
reports are noted. The operands of ANNOUNCE are log entry 44, the channels of a load log entry 103. -/
def Obligations.SpanLoadsRun : Prop :=
  ∀ s : State, s.fieldsCanonical = true → s.memoryCanonical = true → s.unitsCanonical = true → inSpan s = true →
    (∀ a r model epoch, s.span.announced.find? (fun b => b.subject == a.subject && decide (b.tick ≤ getF s F.TICK_NOW)) = some a →
      model = bitsOf a.operand 31 0 → epoch = bitsOf a.operand 47 32 → recFind s.mem model epoch = some r →
      (∀ m, a.subject = 4 → r.span = true → s.span.load = none → (entryOf s.mem model epoch).near = false →
        placeEpoch s model epoch (keptShard s r) s.mem = some m → ∃ t, exec (.announceApply 4) s = .next t ∧
        isSet t F.WGT_STAT_SPAN_LOADING = true ∧ t.span.load = some { model := model, epoch := epoch } ∧ t.span.loadFrames = true ∧ t.mem = m ∧
        t.adm = s.adm ∧ fieldsKept [F.WGT_STAT_SPAN_LOADING, F.MEM_CNT_EVICT_NEAR] s t) ∧
      (∀ l, a.subject = 5 → s.span.load = some l → l.model = model → l.epoch = epoch → ∃ t, exec (.announceApply 5) s = .next t ∧
        isSet t F.WGT_STAT_SPAN_LOADING = false ∧ t.span.load = none ∧ t.span.loadFrames = false ∧
        (bitOf a.operand 48 = true → isSet t F.WGT_STAT_SPAN_LOAD_FAIL = true) ∧
        (bitOf a.operand 48 = false → isSet t F.WGT_STAT_SPAN_LOAD_DONE = true ∧
          (epochChecked s r = true → (dirFind s.mem model epoch).isSome = true → (entryOf t.mem model epoch).near = true)))) ∧
    (∀ l r, s.span.load = some l → recFind s.mem l.model l.epoch = some r →
      (∀ m : CtrlMsg, m.msg = 0x0B → bitsOf m.arg 23 16 = 2 → m.from_ ≠ getF s F.SPAN_ID_ORD → m.from_ ∉ l.held →
        isMaster s = false ∨ (∃ i ∈ loadTargets s r, i ≠ m.from_ ∧ i ∉ l.held) → ∃ t, exec (.loadReport m) s = .next t ∧
        t.span.load = some { l with held := l.held ++ [m.from_] } ∧ t.mem = s.mem ∧ fieldsKept [F.SPAN_CNT_CTRL_RX] s t ∧
        ∀ p ∈ childPorts s, (link t p).ctrlQ = (link s p).ctrlQ ++ if isMaster s then [ctrlBytes { m with to_ := 0xFFFF }] else []) ∧
      (∀ k piece port chan bytes h, inLoadFrame s = true → l.ending = false → port < 16 → loadChannel s chan = true → channelLeft s l chan = true →
        nextPiece s r l = some (k, piece) → h = r.shards.getD k {} →
        (∀ c lba, lostBlock s h = some (c, lba) → exec (.spanLoad (.send port chan bytes)) s = .next (storeFailed s c lba l.model l.epoch)) ∧
        (lostBlock s h = none → ∃ t, exec (.spanLoad (.send port chan bytes)) s = .next t ∧
          (link t port).dataQ = (link s port).dataQ ++ cutAll 2 chan (pieceHeader k piece (pieceLen h.clen piece) h.clen ++
            (bytes ++ List.replicate (pieceLen h.clen piece) 0#8).take (pieceLen h.clen piece)) ∧
          (keptShard s r h = false → t.mem = s.mem ∧ t.flds = s.flds ∧ t.span.load = some { afterPiece s r l k piece with
            sentOn := l.sentOn.filter (fun p => decide (p.2 = getF s F.TICK_NOW)) ++ [(chan, getF s F.TICK_NOW)] }))) ∧
      (∀ port chan bytes, inLoadFrame s = false ∨ l.ending = true ∨ channelLeft s l chan = false → exec (.spanLoad (.send port chan bytes)) s = .next s) ∧
      ∀ chan k piece bytes i h, s.span.recvs.find? (fun j => j.ref == 65536 + chan) = some i → i.last = true → k < 65536 → piece < 65536 →
        bytes.length < 2 ^ 32 → i.bytes = pieceHeader k piece bytes.length h.clen ++ bytes → r.shards[k]? = some h → keptShard s r h = true →
        h.written = false → h.placed = true → (∀ p ∈ l.pieces, p.1 ≠ k) →
        (bytes.length < h.clen → ∃ t, exec (.spanLoad (.staged chan)) s = .next t ∧
          t.span = { s.span with recvs := s.span.recvs.erase i, load := some { l with pieces := l.pieces ++ [(k, piece, bytes)] } } ∧
          t = { s with span := t.span }) ∧
        (∀ out, bytes.length = h.clen → piece = 0 → decompress h.ulen (bytes.map BitVec.toNat) = some out → crc32 out = h.crc → ∃ t,
          exec (.spanLoad (.staged chan)) s = .next t ∧ t.flds = s.flds ∧ t.span.recvs = s.span.recvs.erase i ∧
          (∃ q, recFind t.mem l.model l.epoch = some q ∧ (q.shards.getD k {}).written = true) ∧ t.mem.bulk = s.mem.bulk ∧ t.mem.dir = s.mem.dir))

/-! ### Admission, rings and journals -/

/-- R385, R387, R390, R396, R403: a descriptor that fails a check is refused with its cause and leaves no request; a CLOSE, or a RUN on a
resident epoch with an open stream and a frame in time, is accepted: a record, a receipt and a request with its promise; a RUN pins its
epoch. A failed read halts the set, and so does a receipt that the host bus refuses: its record stands and the request is not accepted (log
92). -/
def Obligations.DescriptorsAreDecided : Prop :=
  ∀ (s : State) (x : DescRead) (r : Nat) (d : Descriptor), s.fieldsCanonical = true → s.memoryCanonical = true → s.tablesCanonical = true →
    nextRing s = some r → d = descriptorOf x.bytes →
    (x.failed = true → isSet s F.ADM_STAT_RING_ERR = false → ∃ t, exec (.run x) s = .next t ∧ exec (.close x) s = .next t ∧
      isSet t (F.RING_CTL_HALT r) = true ∧ isSet t F.ADM_STAT_RING_ERR = true ∧ getF t F.ADM_RCAP_RING = r ∧ getF t F.ADM_RCAP_KIND = 0 ∧
      getF t F.ADM_RCAP_INDEX = getF s (F.SUB_HEAD r) % 2 ^ 16 ∧ t.adm = s.adm ∧ t.mem = s.mem ∧ t.out = s.out ∧
      fieldsKept [F.RING_CTL_HALT r, F.ADM_STAT_RING_ERR, F.ADM_RCAP_RING, F.ADM_RCAP_KIND, F.ADM_RCAP_INDEX] s t) ∧
    (x.failed = false → x.refused = false →
      (∀ c, earlyRefusal s r d = some c → ∃ t, (if d.op = 2 then exec (.close x) s else exec (.run x) s) = .next t ∧
        getF t (F.SUB_HEAD r) = (getF s (F.SUB_HEAD r) + 1) % ringSize s r % 2 ^ 16 ∧
        getF t F.ADM_CNT_DESC = satAdd 32 (getF s F.ADM_CNT_DESC) 1 ∧ getF t F.ADM_CNT_REFUSE = satAdd 32 (getF s F.ADM_CNT_REFUSE) 1 ∧
        getF t (F.ADM_CNT_CAUSE c.num) = satAdd 32 (getF s (F.ADM_CNT_CAUSE c.num)) 1 ∧ t.adm.reqs = s.adm.reqs ∧
        t.adm.streams = s.adm.streams ∧ t.adm.frames = s.adm.frames ∧ t.mem = s.mem ∧ t.adm.lastSet = r ∧
        (d.client < 4096 → (clientRec t d.client).refused = satAdd 48 (clientRec s d.client).refused 1) ∧
        t.out = s.out ++ [.hostWrite (getF s (F.RCPT_BASE r) + 64 * getF s (F.RCPT_TAIL r)) (withPhase
          (receiptEntry 2 r (getF s (F.SUB_HEAD r)) d 0 c 0 0 (7 + 16 * c.over false) (stampNow s srcAdmission)) 16 (ringSt s r).rcptPhase) {}] ∧
        getF t (F.RCPT_TAIL r) = (getF s (F.RCPT_TAIL r) + 1) % ringSize s r % 2 ^ 16 ∧
        fieldsKept [F.SUB_HEAD r, F.ADM_CNT_DESC, F.ADM_CNT_REFUSE, F.ADM_CNT_CAUSE c.num, F.ADM_STAT_JRNL_FULL, F.RCPT_TAIL r] s t) ∧
      (d.op = 2 → earlyRefusal s r d = none → ∃ t, exec (.close x) s = .next t ∧
        t.adm.reqs = s.adm.reqs ++ [{ aseq := getF s F.ADM_AJ_NEXT, ring := r, subidx := getF s (F.SUB_HEAD r), d := d, promised := closePromise s d }] ∧
        getF t F.ADM_AJ_NEXT = (getF s F.ADM_AJ_NEXT + 1) % 2 ^ 64 ∧ getF t F.ADM_CNT_RECEIPT = satAdd 32 (getF s F.ADM_CNT_RECEIPT) 1 ∧
        (clientRec t d.client).admitted = satAdd 48 (clientRec s d.client).admitted 1 ∧
        t.out = s.out ++ [.hostWrite (ajSlot s (getF s F.ADM_AJ_NEXT)) (acceptanceRecord x.bytes (getF s F.ADM_AJ_NEXT) (closePromise s d) 0 r false
            (getF s (F.SUB_HEAD r)) (stampNow s srcAdmission)) {},
          .hostWrite (getF s (F.RCPT_BASE r) + 64 * getF s (F.RCPT_TAIL r)) (withPhase (receiptEntry 1 r (getF s (F.SUB_HEAD r)) d
            (getF s F.ADM_AJ_NEXT) .ok 0 (closePromise s d) 0 (stampNow s srcAdmission)) 16 (ringSt s r).rcptPhase) {}] ∧
        t.mem = s.mem ∧ fieldsKept [F.SUB_HEAD r, F.ADM_CNT_DESC, F.ADM_CNT_RECEIPT, F.ADM_AJ_NEXT, F.RCPT_TAIL r] s t) ∧
      (∀ y : DescRead, d.op = 2 → earlyRefusal s r d = none → y = { x with refused := true } → isSet s F.ADM_STAT_RING_ERR = false → ∃ t,
        exec (.close y) s = .next t ∧ isSet t (F.RING_CTL_HALT r) = true ∧ isSet t F.ADM_STAT_RING_ERR = true ∧ getF t F.ADM_RCAP_RING = r ∧
        getF t F.ADM_RCAP_KIND = 1 ∧ getF t F.ADM_AJ_NEXT = (getF s F.ADM_AJ_NEXT + 1) % 2 ^ 64 ∧ t.adm.reqs = s.adm.reqs ∧ t.adm.clients = s.adm.clients ∧
        getF t F.ADM_CNT_RECEIPT = getF s F.ADM_CNT_RECEIPT ∧ t.mem = s.mem ∧
        t.out = s.out ++ [.hostWrite (ajSlot s (getF s F.ADM_AJ_NEXT)) (acceptanceRecord x.bytes (getF s F.ADM_AJ_NEXT) (closePromise s d) 0 r false
          (getF s (F.SUB_HEAD r)) (stampNow s srcAdmission)) {}]) ∧
      (∀ (y : DescRead) (c : Cause), earlyRefusal s r d = some c → y = { x with refused := true } → ∃ t,
        (if d.op = 2 then exec (.close y) s else exec (.run y) s) = .next t ∧ isSet t (F.RING_CTL_HALT r) = true ∧ isSet t F.ADM_STAT_RING_ERR = true ∧
        getF t F.ADM_CNT_REFUSE = getF s F.ADM_CNT_REFUSE ∧ t.adm.clients = s.adm.clients ∧ t.adm.reqs = s.adm.reqs ∧ t.mem = s.mem ∧ t.out = s.out ∧
        getF t (F.RCPT_TAIL r) = getF s (F.RCPT_TAIL r)) ∧
      ∀ i e idx n promise, d.op = 1 → earlyRefusal s r d = none → (findStream s d).isSome = true → modelRegionNeed s s.mem d.model = none →
        dirActive s.mem d.model = some i → e = dirGet s.mem i → e.pin < 16777215 → e.unusable = false → (entryOf s.mem d.model e.epoch).near = true →
        s.span.lossAt = none → narrowed s = false ∨ d.firm = true → chooseFrame s d e.epoch none s.adm.plan.horizon (narrowed s) = some (idx, n) →
        promise = n + 1 + s.adm.plan.slackF → promise ≤ getF s F.TICK_NOW + (if d.firm then s.adm.plan.firmF else s.adm.plan.stdF) →
        (∀ y : DescRead, y = { x with refused := true } → s.mem.switches = [] → dirFind s.mem d.model e.epoch = some i → ∃ t,
          exec (.run y) s = .next t ∧ isSet t (F.RING_CTL_HALT r) = true ∧
          getF t F.ADM_AJ_NEXT = (getF s F.ADM_AJ_NEXT + 1) % 2 ^ 64 ∧ t.adm.reqs = s.adm.reqs ∧ t.adm.frames = s.adm.frames ∧
          (dirGet t.mem i).pin = e.pin) ∧ ∃ t,
        exec (.run x) s = .next t ∧
        (∃ q : Req, q = { aseq := getF s F.ADM_AJ_NEXT, ring := r, d := d, epoch := e.epoch, promised := promise, pinned := true, frame := some idx } ∧
          t.adm.reqs = s.adm.reqs ++ [{ q with subidx := getF s (F.SUB_HEAD r) }]) ∧
        (∃ f ∈ t.adm.frames, f.idx = idx ∧ getF s F.ADM_AJ_NEXT ∈ f.reqs) ∧ (dirGet t.mem i).pin = e.pin + 1 ∧
        (∀ k, k ≠ i → dirGet t.mem k = dirGet s.mem k) ∧ tiersKept s t ∧ t.adm.streams = s.adm.streams ∧
        getF t F.ADM_AJ_NEXT = (getF s F.ADM_AJ_NEXT + 1) % 2 ^ 64 ∧
        t.out = s.out ++ [.hostWrite (ajSlot s (getF s F.ADM_AJ_NEXT)) (acceptanceRecord x.bytes (getF s F.ADM_AJ_NEXT) promise e.epoch r false
            (getF s (F.SUB_HEAD r)) (stampNow s srcAdmission)) {},
          .hostWrite (getF s (F.RCPT_BASE r) + 64 * getF s (F.RCPT_TAIL r)) (withPhase (receiptEntry 1 r (getF s (F.SUB_HEAD r)) d
            (getF s F.ADM_AJ_NEXT) .ok e.epoch promise 0 (stampNow s srcAdmission)) 16 (ringSt s r).rcptPhase) {}] ∧
        fieldsKept [F.SUB_HEAD r, F.ADM_CNT_DESC, F.ADM_CNT_RECEIPT, F.ADM_AJ_NEXT, F.RCPT_TAIL r, F.MEM_CNT_EVICT_NEAR] s t)

/-- R383 to R387: a doorbell in range takes the new tail, any other halts the set; ENABLE turning to 1 zeroes every head and tail and begins
first passes; a write with ENABLE 0 stops the set and clears HALT; a freed entry lets a waiting one be written. -/
def Obligations.RingsFollowTheirRegisters : Prop :=
  ∀ (s : State) (r : Nat), s.fieldsCanonical = true → s.tablesCanonical = true → r < 64 →
    (∀ tail, tail < 2 ^ 16 → ringLive s r = true →
      (tail < ringSize s r → unread s r (getF s (F.SUB_DB r)) ≤ unread s r tail → ∃ t, exec (.subDoorbell r tail) s = .next t ∧
        getF t (F.SUB_DB r) = tail ∧ fieldsKept [F.SUB_DB r] s t ∧ t = { s with flds := t.flds }) ∧
      (ringSize s r ≤ tail ∨ unread s r tail < unread s r (getF s (F.SUB_DB r)) → isSet s F.ADM_STAT_RING_ERR = false → ∃ t,
        exec (.subDoorbell r tail) s = .next t ∧ getF t (F.SUB_DB r) = tail ∧
        isSet t (F.RING_CTL_HALT r) = true ∧ isSet t F.ADM_STAT_RING_ERR = true ∧ getF t F.ADM_RCAP_RING = r ∧ getF t F.ADM_RCAP_KIND = 3 ∧
        getF t F.ADM_RCAP_INDEX = tail ∧
        fieldsKept [F.SUB_DB r, F.RING_CTL_HALT r, F.ADM_STAT_RING_ERR, F.ADM_RCAP_RING, F.ADM_RCAP_KIND, F.ADM_RCAP_INDEX] s t ∧ t.adm = s.adm)) ∧
    (∀ v, bitOf v 0 = true →
      (isSet s (F.RING_CTL_ENABLE r) = false → (ringSt s r).waitRcpt = [] → (ringSt s r).waitCmpl = [] → ∃ t, exec (.ringEnable r v) s = .next t ∧
        isSet t (F.RING_CTL_ENABLE r) = true ∧ (∀ f ∈ [F.SUB_DB r, F.SUB_HEAD r, F.RCPT_TAIL r, F.RCPT_HEAD r, F.CMPL_TAIL r, F.CMPL_HEAD r],
          getF t f = 0) ∧ (ringSt t r).rcptPhase = true ∧ (ringSt t r).cmplPhase = true ∧ t.out = s.out ∧
        getF t (F.RING_CTL_SIZE r) = (if 4 ≤ bitsOf v 7 3 ∧ bitsOf v 7 3 ≤ 16 then bitsOf v 7 3 else getF s (F.RING_CTL_SIZE r)) ∧
        getF t (F.RING_CTL_CLIENT r) = bitsOf v 19 8 ∧ fieldsKept [F.RING_CTL_ENABLE r, F.RING_CTL_ANY r, F.RING_CTL_VEC r, F.RING_CTL_CLIENT r,
          F.RING_CTL_SIZE r, F.SUB_DB r, F.SUB_HEAD r, F.RCPT_TAIL r, F.RCPT_HEAD r, F.CMPL_TAIL r, F.CMPL_HEAD r] s t) ∧
      (isSet s (F.RING_CTL_ENABLE r) = true → ∃ t, exec (.ringEnable r v) s = .next t ∧ getF t (F.RING_CTL_CLIENT r) = bitsOf v 19 8 ∧
        getF t (F.RING_CTL_VEC r) = bitsOf v 27 20 ∧ getF t (F.RING_CTL_ANY r) = bitsOf v 28 28 ∧
        fieldsKept [F.RING_CTL_ANY r, F.RING_CTL_VEC r, F.RING_CTL_CLIENT r] s t ∧ t = { s with flds := t.flds })) ∧
    (∀ v, bitOf v 0 = false → ∃ t, exec (.ringDisable r v) s = .next t ∧ isSet t (F.RING_CTL_ENABLE r) = false ∧
      isSet t (F.RING_CTL_HALT r) = false ∧ fieldsKept [F.RING_CTL_ENABLE r, F.RING_CTL_HALT r, F.RING_CTL_ANY r, F.RING_CTL_VEC r,
        F.RING_CTL_CLIENT r, F.RING_CTL_SIZE r] s t ∧ t = { s with flds := t.flds }) ∧
    ∀ head, head < 2 ^ 16 →
      ((ringSt s r).waitRcpt = [] → ∃ t, exec (.rcptHeadWrite r head false) s = .next t ∧ getF t (F.RCPT_HEAD r) = head ∧
        fieldsKept [F.RCPT_HEAD r] s t ∧ t = { s with flds := t.flds }) ∧
      (∀ e, (ringSt s r).waitRcpt = [e] → ringLive s r = true → (getF s (F.RCPT_TAIL r) + 1) % ringSize s r ≠ head → ∃ t,
        exec (.rcptHeadWrite r head false) s = .next t ∧ (ringSt t r).waitRcpt = [] ∧
        getF t (F.RCPT_TAIL r) = (getF s (F.RCPT_TAIL r) + 1) % ringSize s r % 2 ^ 16 ∧ r ∈ t.adm.announce ∧
        t.out = s.out ++ [.hostWrite (getF s (F.RCPT_BASE r) + 64 * getF s (F.RCPT_TAIL r)) (withPhase e 16 (ringSt s r).rcptPhase) {}] ∧
        fieldsKept [F.RCPT_HEAD r, F.RCPT_TAIL r] s t) ∧
      ((ringSt s r).waitCmpl = [] → ∃ t, exec (.cmplHeadWrite r head false) s = .next t ∧ getF t (F.CMPL_HEAD r) = head ∧
        fieldsKept [F.CMPL_HEAD r] s t ∧ t = { s with flds := t.flds }) ∧
      ∀ e, (ringSt s r).waitCmpl = [e] → ringLive s r = true → (getF s (F.CMPL_TAIL r) + 1) % ringSize s r ≠ head → ∃ t,
        exec (.cmplHeadWrite r head false) s = .next t ∧ (ringSt t r).waitCmpl = [] ∧
        getF t (F.CMPL_TAIL r) = (getF s (F.CMPL_TAIL r) + 1) % ringSize s r % 2 ^ 16 ∧ r ∈ t.adm.announce ∧
        t.out = s.out ++ [.hostWrite (getF s (F.CMPL_BASE r) + 64 * getF s (F.CMPL_TAIL r))
          (withCrc ((withPhase e 27 (ringSt s r).cmplPhase).take 60)) {}] ∧ fieldsKept [F.CMPL_HEAD r, F.CMPL_TAIL r] s t

/-- R398 to R402, R407 to R412, R418: a retire point moves while the journals are open or within its journal; RECOVER starts the recovery,
whose end, once its batch of tiles (KIND 3) is closed, counts from the valid records and takes every request without a completion again; a completion is recorded with its status,
counted, unpinned, and frees its request. -/
def Obligations.JournalsAndCompletions : Prop :=
  ∀ s : State, s.fieldsCanonical = true → s.memoryCanonical = true → s.tablesCanonical = true →
    (∀ hi v, v = hi % 2 ^ 32 * 2 ^ 32 + getF s F.ADM_AJ_RETIRE % 2 ^ 32 → ∃ t, exec (.retireWrite false hi) s = .next t ∧
      (journalOpen s = true ∨ (s.adm.recovered = true ∧ s.adm.ajRetire ≤ v ∧ v ≤ getF s F.ADM_AJ_NEXT) →
        getF t F.ADM_AJ_RETIRE = v ∧ t.adm = { s.adm with ajRetire := v }) ∧
      (journalOpen s = false → s.adm.recovered = false ∨ v < s.adm.ajRetire ∨ getF s F.ADM_AJ_NEXT < v →
        getF t F.ADM_AJ_RETIRE = s.adm.ajRetire % 2 ^ 64 ∧ t.adm = s.adm) ∧ fieldsKept [F.ADM_AJ_RETIRE] s t ∧ t.mem = s.mem) ∧
    (∀ hi v, v = hi % 2 ^ 32 * 2 ^ 32 + getF s F.ADM_CJ_RETIRE % 2 ^ 32 → journalOpen s = true → ∃ t, exec (.retireWrite true hi) s = .next t ∧
      getF t F.ADM_CJ_RETIRE = v ∧ t.adm = { s.adm with cjRetire := v } ∧ fieldsKept [F.ADM_CJ_RETIRE] s t) ∧
    (journalsNamed s = true → s.adm.recoverAsked = false → ∃ t, exec .recover s = .next t ∧ isSet t F.ADM_SHUT_JOURNAL = false ∧
      t.adm = { s.adm with recoverAsked := true } ∧ (isSet s F.BOOT_STAT_READY = true → isSet t F.ADM_STAT_RECOVERING = true) ∧
      fieldsKept [F.ADM_SHUT_JOURNAL, F.ADM_STAT_RECOVERING] s t) ∧
    (journalsNamed s = false ∨ s.adm.recoverAsked = true → exec .recover s = .next s) ∧
    (∀ accs comps, s.stw.closed ≠ 3 → exec (.recoveryComplete accs comps) s = .next s) ∧
    (∀ accs comps a c todo, s.stw.closed = 3 → s.adm.recoverAsked = true → s.adm.recovered = false → isSet s F.BOOT_STAT_READY = true →
      a = scanSlots 256 128 s.adm.ajRetire (accs.take (2 ^ getF s F.ADM_AJ_SIZE)) →
      c = scanSlots 64 16 s.adm.cjRetire (comps.take (2 ^ getF s F.ADM_CJ_SIZE)) →
      todo = a.filter (fun b => !(c.map (fun k => leRead (listReader k) 8 8)).contains (leRead (listReader b) 128 8)) → ∃ t,
      exec (.recoveryComplete accs comps) s = .next t ∧ t.adm.recovered = true ∧ isSet t F.ADM_STAT_RECOVER_DONE = true ∧
      isSet t F.ADM_STAT_RECOVERING = false ∧ isSet t F.ADM_SHUT_RECOVERY = false ∧ getF t F.ADM_RECOV = todo.length % 2 ^ 24 ∧
      getF t F.ADM_AJ_NEXT = (s.adm.ajRetire + a.length) % 2 ^ 64 ∧ getF t F.ADM_CJ_NEXT = (s.adm.cjRetire + c.length) % 2 ^ 64 ∧
      t.adm.reqs.length = s.adm.reqs.length + todo.length ∧
      ∀ b ∈ todo, ∃ q ∈ t.adm.reqs, q.aseq = leRead (listReader b) 128 8 ∧ q.d = descriptorOf b ∧ q.rerun = true) ∧
    ∀ (q : Req) (n status : Nat) (cause : Cause) (y : Nat) (st : Stamp), s.adm.reqs.find? (fun p => p.aseq == q.aseq) = some q →
      completable s q = true → s.mem.switches = [] → n = getF s F.ADM_CJ_NEXT →
      ((q.d.op ≠ 2 ∧ q.failed = none ∧ q.committed = some st ∧ q.causes = [] ∧ q.rerun = false ∧ q.commitFrame + 1 ≤ q.promised ∧
          status = 0 ∧ cause = .ok ∧ y = 0) ∨
        (q.d.op ≠ 2 ∧ q.failed = none ∧ q.committed = some st ∧ q.causes = [] ∧ q.rerun = false ∧ q.promised < q.commitFrame + 1 ∧ q.moved = none ∧
          status = 1 ∧ cause = .schedule ∧ y = yieldOf q.d + 16 * 3) ∨
        (q.d.op ≠ 2 ∧ q.failed = some st ∧ (∃ c, q.causes = [c] ∧ c.failed = true ∧ cause = c.cause ∧ y = yieldOf q.d + 16 * c.cause.over c.trip) ∧
          status = 2) ∨
        (q.d.op = 2 ∧ q.causes = [] ∧ st = stampNow s srcAdmission ∧ status = 0 ∧ cause = .ok ∧ y = 0)) → ∃ t,
      exec (.completionRecord q.aseq false) s = .next t ∧ getF t F.ADM_CJ_NEXT = (n + 1) % 2 ^ 64 ∧
      t.adm.reqs = s.adm.reqs.filter (fun p => decide (p.aseq ≠ q.aseq)) ∧
      (∃ rest, t.out = s.out ++ [.hostWrite (cjSlot s n) (withCrc (completionBody q n status cause y st)) {}] ++ rest) ∧
      getF t F.ADM_CNT_OK = (if status = 0 then satAdd 32 (getF s F.ADM_CNT_OK) 1 else getF s F.ADM_CNT_OK) ∧
      getF t F.ADM_CNT_LATE = (if status = 1 then satAdd 32 (getF s F.ADM_CNT_LATE) 1 else getF s F.ADM_CNT_LATE) ∧
      getF t F.ADM_CNT_FAILED = (if status = 2 then satAdd 32 (getF s F.ADM_CNT_FAILED) 1 else getF s F.ADM_CNT_FAILED) ∧
      getF t (F.ADM_CNT_CAUSE cause.num) = satAdd 32 (getF s (F.ADM_CNT_CAUSE cause.num)) 1 ∧
      (q.d.client < 4096 → (clientRec t q.d.client).completed = satAdd 48 (clientRec s q.d.client).completed 1) ∧
      (q.d.op ≠ 2 → q.pinned = true → (entryOf t.mem q.d.model q.epoch).pin = (entryOf s.mem q.d.model q.epoch).pin - 1) ∧
      (q.d.op = 2 → t.adm.streams = s.adm.streams.filter (fun z => !(z.client == q.d.client && z.stream == q.d.stream))) ∧ tiersKept s t

/-! ### The memory tiers and weights -/

/-- R266, R267, R273, R288, R293, R294: a shard that decompresses and passes its CRC is in Near, byte by byte, and nothing else there
changes; one that fails from Store makes its epoch unusable, one that fails from Bulk clears BULK and is fetched again from Store; one whose
bytes fail to cross to its side ends its fetch; digests are compared; a checked epoch becomes resident and leaves its queue; a fetch past
its bound is counted once. -/
def Obligations.FetchesComplete : Prop :=
  ∀ (s : State) (model epoch : Nat) (r : EpochRec), s.fieldsCanonical = true → s.memoryCanonical = true → recFind s.mem model epoch = some r →
    (dirFind s.mem model epoch).isSome = true →
    (∀ j k h bytes raw, runningJob s model epoch = some j → r.shards[k]? = some h → h.placed = true → h.written = false →
      raw = ((if j.fromStore then (bytes ++ List.replicate h.clen 0#8).take h.clen else bulkShard s h).map BitVec.toNat) →
      (j.fromStore = true → lostBlock s h = none) →
      (crosses j.fromStore h = true → exec (.shardWritten model epoch k none) s = .next (missFetch s model epoch)) ∧
      (∀ out, j.fromStore = true → decompress h.ulen raw = some out → crc32 out = h.crc → out.length ≤ unitBytes * h.nearUnits.length →
        h.nearUnits.Nodup → ∃ t, exec (.shardWritten model epoch k (some bytes)) s = .next t ∧ t.adm = s.adm ∧
        (∃ q, recFind t.mem model epoch = some q ∧ (q.shards.getD k {}).written = true ∧ (q.shards.getD k {}).fromBulk = false) ∧
        (∀ o, o < out.length → smapGet zeroByte t.mem.near (nearAddr h.nearStack h.nearUnits o) = BitVec.ofNat 8 (out.getD o 0)) ∧
        ∀ a, (∀ o, o < out.length → nearAddr h.nearStack h.nearUnits o ≠ a) → smapGet zeroByte t.mem.near a = smapGet zeroByte s.mem.near a) ∧
      (∀ out, j.fromStore = false → decompress h.ulen raw = some out → crc32 out = h.crc → out.length ≤ unitBytes * h.nearUnits.length →
        h.nearUnits.Nodup → ∃ t, exec (.shardWritten model epoch k (some bytes)) s = .next t ∧ t.flds = s.flds ∧ t.adm = s.adm ∧ t.mem.dir = s.mem.dir ∧
        t.mem.bulk = s.mem.bulk ∧ (∃ q, recFind t.mem model epoch = some q ∧ q.shards = r.shards.set k { h with written := true, digestOk := false, fromBulk := true }) ∧
        (∀ o, o < out.length → smapGet zeroByte t.mem.near (nearAddr h.nearStack h.nearUnits o) = BitVec.ofNat 8 (out.getD o 0)) ∧
        ∀ a, (∀ o, o < out.length → nearAddr h.nearStack h.nearUnits o ≠ a) → smapGet zeroByte t.mem.near a = smapGet zeroByte s.mem.near a) ∧
      (∀ out, j.fromStore = true → decompress h.ulen raw = some out → crc32 out ≠ h.crc → ∃ t,
        exec (.shardWritten model epoch k (some bytes)) s = .next t ∧ isSet t F.WGT_STAT_CRC_FAIL = true ∧
        getF t F.WGT_CNT_CRC_FAIL = satAdd 32 (getF s F.WGT_CNT_CRC_FAIL) 1 ∧ isSet t F.MEM_STAT_CODEC_FAIL = true ∧
        getF t F.MEM_CNT_CODEC_FAIL = satAdd 32 (getF s F.MEM_CNT_CODEC_FAIL) 1 ∧ (entryOf t.mem model epoch).unusable = true ∧
        t.mem.bulk = s.mem.bulk) ∧
      (j.fromStore = false → decompress h.ulen raw = none → ∃ t, exec (.shardWritten model epoch k (some bytes)) s = .next t ∧
        isSet t F.MEM_STAT_CODEC_FAIL = true ∧
        getF t F.MEM_CNT_CODEC_FAIL = satAdd 32 (getF s F.MEM_CNT_CODEC_FAIL) 1 ∧ (entryOf t.mem model epoch).bulk = false ∧
        ((entryOf s.mem model epoch).store = true → ∃ i ∈ t.mem.jobs, i.model = model ∧ i.epoch = epoch ∧ i.fromStore = true)) ∧
      (∀ out, j.fromStore = false → decompress h.ulen raw = some out → crc32 out ≠ h.crc → ∃ t,
        exec (.shardWritten model epoch k (some bytes)) s = .next t ∧ isSet t F.WGT_STAT_CRC_FAIL = true ∧
        getF t F.WGT_CNT_CRC_FAIL = satAdd 32 (getF s F.WGT_CNT_CRC_FAIL) 1 ∧ isSet t F.MEM_STAT_CODEC_FAIL = true ∧
        getF t F.MEM_CNT_CODEC_FAIL = satAdd 32 (getF s F.MEM_CNT_CODEC_FAIL) 1 ∧ (entryOf t.mem model epoch).bulk = false ∧
        ((entryOf s.mem model epoch).store = true → ∃ i ∈ t.mem.jobs, i.model = model ∧ i.epoch = epoch ∧ i.fromStore = true))) ∧
    (∀ k h, r.shards[k]? = some h → r.q5 = true → h.written = true → h.digestOk = false →
      (nearDigest s h = h.digest → ∃ t, exec (.digestComplete model epoch k) s = .next t ∧ t.flds = s.flds ∧ tiersKept s t ∧ t.mem.dir = s.mem.dir ∧
        ∃ q, recFind t.mem model epoch = some q ∧ q.shards = r.shards.set k { h with digestOk := true }) ∧
      (nearDigest s h ≠ h.digest → s.span.load.filter (fun l => l.model == model && l.epoch == epoch) = none → h.fromBulk = true → ∃ t,
        exec (.digestComplete model epoch k) s = .next t ∧ isSet t F.WGT_STAT_DIGEST_FAIL = true ∧
        getF t F.WGT_CNT_DIGEST_FAIL = satAdd 32 (getF s F.WGT_CNT_DIGEST_FAIL) 1 ∧ (entryOf t.mem model epoch).bulk = false) ∧
      (nearDigest s h ≠ h.digest → s.span.load.filter (fun l => l.model == model && l.epoch == epoch) = none → h.fromBulk = false → ∃ t, exec (.digestComplete model epoch k) s = .next t ∧
        isSet t F.WGT_STAT_DIGEST_FAIL = true ∧ getF t F.WGT_CNT_DIGEST_FAIL = satAdd 32 (getF s F.WGT_CNT_DIGEST_FAIL) 1 ∧
        (entryOf t.mem model epoch).unusable = true)) ∧
    (∀ j, runningJob s model epoch = some j → epochChecked s r = true → ∃ t, exec (.fetchComplete model epoch) s = .next t ∧
      (entryOf t.mem model epoch).near = true ∧ (entryOf t.mem model epoch).fetch = false ∧
      ((entryOf t.mem model epoch).bulk = true ↔ (entryOf s.mem model epoch).bulk = true ∨ ∀ h ∈ r.shards, h.inBulk = true) ∧
      t.mem.jobs.map (fun i : FetchJob => { i with issued := false }) =
        (s.mem.jobs.filter (fun i => !(i.model == model && i.epoch == epoch))).map (fun i : FetchJob => { i with issued := false }) ∧ tiersKept s t ∧ t.adm = s.adm ∧
      (if j.fromStore then getF t F.MEM_CNT_FETCH_STORE = satAdd 32 (getF s F.MEM_CNT_FETCH_STORE) 1
        else getF t F.MEM_CNT_FETCH_BULK = satAdd 32 (getF s F.MEM_CNT_FETCH_BULK) 1) ∧
      fieldsKept [F.MEM_CNT_FETCH_STORE, F.MEM_CNT_FETCH_BULK, busyF j.fromStore] s t) ∧
    ((∃ j ∈ s.mem.jobs, j.model = model ∧ j.epoch = epoch ∧ j.bound ≤ getF s F.TICK_DT) →
      (∃ j ∈ s.mem.jobs, j.model = model ∧ j.epoch = epoch ∧ j.missed = false) → ∃ t, exec (.fetchBoundExpiry model epoch) s = .next t ∧
      getF t F.MEM_CNT_FETCH_OVER = satAdd 32 (getF s F.MEM_CNT_FETCH_OVER) 1 ∧ fieldsKept [F.MEM_CNT_FETCH_OVER] s t ∧
      (∀ j ∈ t.mem.jobs, j.model = model → j.epoch = epoch → j.missed = true) ∧ t.adm = s.adm ∧ tiersKept s t) ∧
    ((∀ j ∈ s.mem.jobs, j.model = model → j.epoch = epoch → getF s F.TICK_DT < j.bound) ∨
      (∀ j ∈ s.mem.jobs, j.model = model → j.epoch = epoch → j.missed = true) → exec (.fetchBoundExpiry model epoch) s = .next s)

/-- R255, R260: a failed Store read is tried once more, one that times out is aborted first; the second failure is counted and clears STORE;
a dropped controller leaves the drives, and Store with the last of them; a poll asks every attached controller for both log pages. -/
def Obligations.StoreReadsEnd : Prop :=
  ∀ s : State, s.fieldsCanonical = true → s.memoryCanonical = true →
    (∀ ctrl lba model epoch, readsStore s model epoch = true →
      (∃ t, exec (.storeReadComplete ctrl lba model epoch .ok) s = .next t ∧ t = { s with mem := t.mem } ∧
        t.mem = { s.mem with retries := s.mem.retries.filter (fun r => !(r.1 == ctrl && r.2.1 == lba)) }) ∧
      ((ctrl, lba, false) ∉ s.mem.retries → ∃ t, exec (.storeReadComplete ctrl lba model epoch .error) s = .next t ∧
        t.out = s.out ++ [.nvme ctrl (s.boot.storeNs.getD ctrl 0) false 2 lba] ∧ (ctrl, lba, false) ∈ t.mem.retries ∧ t.flds = s.flds ∧ t.mem.dir = s.mem.dir ∧ tiersKept s t) ∧
      ((ctrl, lba, false) ∉ s.mem.retries → ∃ t, exec (.storeReadTimeout ctrl lba model epoch) s = .next t ∧
        t.out = s.out ++ [.nvme ctrl 0 true 8 lba, .nvme ctrl (s.boot.storeNs.getD ctrl 0) false 2 lba] ∧ (ctrl, lba, false) ∈ t.mem.retries ∧ t.flds = s.flds ∧ tiersKept s t) ∧
      ((ctrl, lba, true) ∉ s.mem.retries → ∃ t, exec (.storeReadComplete ctrl lba model epoch .tagFail) s = .next t ∧
        t.out = s.out ++ [.nvme ctrl (s.boot.storeNs.getD ctrl 0) false 2 lba] ∧ (ctrl, lba, true) ∈ t.mem.retries ∧ t.flds = s.flds ∧ tiersKept s t) ∧
      ((runningJob s model epoch).isSome = true → (dirFind s.mem model epoch).isSome = true →
        ((ctrl, lba, false) ∈ s.mem.retries → ∃ t, exec (.storeReadComplete ctrl lba model epoch .error) s = .next t ∧
          isSet t F.MEM_STAT_STORE_ERR = true ∧ getF t F.MEM_CNT_STORE_ERR = satAdd 32 (getF s F.MEM_CNT_STORE_ERR) 1 ∧
          (entryOf t.mem model epoch).store = false ∧
          ((∀ j ∈ s.mem.jobs, j.model = model ∧ j.epoch = epoch) → t.out = s.out)) ∧
        ((ctrl, lba, true) ∈ s.mem.retries → ∃ t, exec (.storeReadComplete ctrl lba model epoch .tagFail) s = .next t ∧
          isSet t F.MEM_STAT_TAG_FAIL = true ∧ getF t F.MEM_CNT_TAG_FAIL = satAdd 32 (getF s F.MEM_CNT_TAG_FAIL) 1 ∧
          (entryOf t.mem model epoch).unusable = true)) ∧
      ((runningJob s model epoch) = none → (dirFind s.mem model epoch).isSome = true → (ctrl, lba, false) ∈ s.mem.retries → ∃ t,
        exec (.storeReadComplete ctrl lba model epoch .error) s = .next t ∧ isSet t F.MEM_STAT_STORE_ERR = true ∧
        getF t F.MEM_CNT_STORE_ERR = satAdd 32 (getF s F.MEM_CNT_STORE_ERR) 1 ∧ (entryOf t.mem model epoch).unusable = true)) ∧
    (∀ ctrl, ctrl < 16 → ∃ t, exec (.storeControllerDrop ctrl) s = .next t ∧ bitF t F.MEM_STORE_LINK_DRIVES ctrl = false ∧
      (∀ c, c < 16 → c ≠ ctrl → bitF t F.MEM_STORE_LINK_DRIVES c = bitF s F.MEM_STORE_LINK_DRIVES c) ∧
      isSet t F.MEM_STAT_STORE_UP = decide (getF t F.MEM_STORE_LINK_DRIVES ≠ 0) ∧
      ((∀ r ∈ s.mem.recs, readsStore s r.model r.epoch = false) → fieldsKept [F.MEM_STORE_LINK_DRIVES, F.MEM_STAT_STORE_UP] s t ∧ t.mem = s.mem ∧
        t.out = s.out)) ∧
    ∃ t, exec .logPagePoll s = .next t ∧ t = { s with out := t.out } ∧
      t.out = s.out ++ ((List.range 16).filter (bitF s F.MEM_STORE_LINK_DRIVES)).flatMap (fun c => [.nvme c 0 true 2 1, .nvme c 0 true 2 2])

/-- R237, R239, R243, R244, R296: a line decodes within 2t + e ≤ 32; one that one erased die explains costs that die, else its stack or
side: its content is gone, its epochs are no longer there, and the shutter closes with the side's last stack. Reads and patrols count
corrections; a scrub's tile commits its ticket, and one that fails discards the copy; an engine that fails is out. That lost content goes at once is log
entry 87, that a corrected read comes by the rows for uncorrectable ones log entry 65. -/
def Obligations.TiersLoseAndScrub : Prop :=
  ∀ s : State, s.fieldsCanonical = true → s.memoryCanonical = true →
    (∀ errs : List Nat, errs.length = 16 → (lineDecodes errs [] = true ↔ 2 * errs.sum ≤ 32) ∧
      ∀ d, d < 16 → (lineDecodes errs [d] = true ↔ 2 * (errs.set d 0).sum + 18 ≤ 32)) ∧
    (∀ n addr errs onDie, addr / 0xC00000000 ≠ n → exec (.nearReadUncorrectable n addr errs onDie) s = .next s) ∧
    (∀ n addr errs onDie erased, n < 8 → addr / 0xC00000000 = n → stackUp s n = true → erased = (if bitF s F.MEM_NEAR_STAT_ERASED n then [getF s (F.MEM_NEAR_DIE n)] else []) →
      (lineDecodes errs erased = true → (∃ e ∈ errs, e ≠ 0) → ∃ t, exec (.nearReadUncorrectable n addr errs onDie) s = .next t ∧
        isSet t F.MEM_STAT_NEAR_CE = true ∧ getF t F.MEM_NEAR_CE_CNT = satAdd 32 (getF s F.MEM_NEAR_CE_CNT) (onDie + 1) ∧ t = { s with flds := t.flds, caps := t.caps }) ∧
      (∀ die, erased = [] → lineDecodes errs [] = false → rescuing errs [] = [die] → ∃ t,
        exec (.nearReadUncorrectable n addr errs onDie) s = .next t ∧ getF t F.MEM_NEAR_CE_CNT = satAdd 32 (getF s F.MEM_NEAR_CE_CNT) onDie ∧
        bitF t F.MEM_NEAR_STAT_ERASED n = true ∧ getF t (F.MEM_NEAR_DIE n) = die ∧ isSet t F.MEM_STAT_NEAR_ERASE = true ∧ t.mem = s.mem ∧
        t.adm = s.adm ∧ ((∀ f ∈ memStatBits, isSet s f = false) → onDie = 0 → getF t F.MEM_ECAP_INFO_KIND = 1 ∧ getF t F.MEM_ECAP_INFO_UNIT = n ∧
          getF t F.MEM_ECAP_INFO_REGION = 1 ∧ getF t F.MEM_ECAP_ADDR = addr % 2 ^ 44) ∧ fieldsKept [F.MEM_NEAR_STAT_ERASED, F.MEM_NEAR_DIE n,
          F.MEM_STAT_NEAR_ERASE, F.MEM_STAT_NEAR_CE, F.MEM_NEAR_CE_CNT, F.MEM_ECAP_INFO_KIND, F.MEM_ECAP_INFO_UNIT, F.MEM_ECAP_INFO_DIE, F.MEM_ECAP_INFO_REGION, F.MEM_ECAP_ADDR] s t) ∧
      ∀ c, c = .nearStackLoss n ∨ (c = .nearReadUncorrectable n addr errs onDie ∧ lineDecodes errs erased = false ∧
          (erased ≠ [] ∨ ∀ die, rescuing errs [] ≠ [die])) → ∃ t, exec c s = .next t ∧ isSet t F.MEM_STAT_NEAR_LOSS = true ∧
        stackUp t n = false ∧ (∀ k, k < 8 → k ≠ n → stackUp t k = stackUp s k) ∧
        (∀ a, a / 0xC00000000 = n → smapGet zeroByte t.mem.near a = 0#8) ∧
        (∀ r ∈ s.mem.recs, inStack r n = true → (entryOf t.mem r.model r.epoch).near = false) ∧
        (sideStacks t (n / 4) = [] → isSet t F.ADM_SHUT_SIDE = true) ∧
        (frameUses s n = true → s.frame.hasLive = true → s.frame.state = .running → isSet t F.ARR_STAT_FRAME_FAULTED = true)) ∧
    (∀ side addr group rank errs erased, side < 2 → group < 2 → rank < 2 → bulkSideUp s side = true → bitsOf addr 39 39 = side →
      bitsOf addr 9 9 = group → erased = erasedInWord s side group rank →
      (lineDecodes errs erased = true → (∃ e ∈ errs, e ≠ 0) → ∃ t, exec (.bulkReadUncorrectable side addr (group, rank) errs) s = .next t ∧
        isSet t F.MEM_STAT_BULK_CE = true ∧ getF t F.MEM_BULK_CE_CNT = satAdd 32 (getF s F.MEM_BULK_CE_CNT) 1 ∧ t = { s with flds := t.flds, caps := t.caps }) ∧
      (∀ x y, bitsOf x 39 39 ≠ side ∨ bitsOf x 9 9 ≠ y → exec (.bulkReadUncorrectable side x (y, rank) errs) s = .next s) ∧
      (∀ d p, lineDecodes errs erased = false → rescuing errs erased = [d] → p = wordPackage side d → bitF s F.MEM_BULK_STAT_ERASED p = false → ∃ t,
        exec (.bulkReadUncorrectable side addr (group, rank) errs) s = .next t ∧
        bitF t F.MEM_BULK_STAT_ERASED p = true ∧ getF t (F.MEM_BULK_DIE p) = wordDie group rank d ∧ isSet t F.MEM_STAT_BULK_ERASE = true ∧
        t.mem = s.mem ∧ t.adm = s.adm) ∧
      ∀ c, c = .bulkSideLoss side ∨ (c = .bulkReadUncorrectable side addr (group, rank) errs ∧ lineDecodes errs erased = false ∧
          ∀ d, rescuing errs erased = [d] → bitF s F.MEM_BULK_STAT_ERASED (wordPackage side d) = true) → ∃ t,
        exec c s = .next t ∧ isSet t F.MEM_STAT_BULK_LOSS = true ∧
        bulkSideUp t side = false ∧ (∀ a, a / 0x8000000000 = side → smapGet zeroByte t.mem.bulk a = 0#8) ∧
        (∀ r ∈ s.mem.recs, (∃ h ∈ r.shards, h.bulkSide = side ∧ h.bulkUnits ≠ []) → (entryOf t.mem r.model r.epoch).bulk = false)) ∧
    (∀ nearCe bulkCe, ∃ t, exec (.patrolScrub nearCe bulkCe) s = .next t ∧ t = { s with flds := t.flds, caps := t.caps } ∧
      (0 < nearCe → isSet t F.MEM_STAT_NEAR_CE = true ∧ getF t F.MEM_NEAR_CE_CNT = satAdd 32 (getF s F.MEM_NEAR_CE_CNT) nearCe) ∧
      (0 < bulkCe → isSet t F.MEM_STAT_BULK_CE = true ∧ getF t F.MEM_BULK_CE_CNT = satAdd 32 (getF s F.MEM_BULK_CE_CNT) bulkCe) ∧
      (nearCe = 0 → bulkCe = 0 → t = s)) ∧
    (∀ stw n model epoch k bad, scrubTicket s stw n = false → exec (.digestScrubTile (stw, n) model epoch k bad) s = .next (tileCommit stw n s)) ∧
    (∀ stw n model epoch k r h u, scrubTicket s stw n = true → u = tileCommit stw n s → recFind s.mem model epoch = some r → r.shards[k]? = some h →
      r.q5 = true → (entryOf s.mem model epoch).near = true → h.written = true →
      (nearDigest s h = h.digest → ∃ t, exec (.digestScrubTile (stw, n) model epoch k false) s = .next t ∧
        getF t F.WGT_CNT_SCRUB = satAdd 32 (getF s F.WGT_CNT_SCRUB) 1 ∧ fieldsKept [F.WGT_CNT_SCRUB, F.WGT_SCRUB_PASS] u t ∧ tiersKept s t ∧
        t.mem.dir = s.mem.dir ∧ t.adm = s.adm ∧ t.stw = u.stw) ∧
      ∀ bad, bad = true ∨ nearDigest s h ≠ h.digest → ∃ t, exec (.digestScrubTile (stw, n) model epoch k bad) s = .next t ∧
        isSet t F.WGT_STAT_DIGEST_FAIL = true ∧ getF t F.WGT_CNT_DIGEST_FAIL = satAdd 32 (getF s F.WGT_CNT_DIGEST_FAIL) 1 ∧
        getF t F.WGT_CNT_SCRUB = satAdd 32 (getF s F.WGT_CNT_SCRUB) 1 ∧ (entryOf t.mem model epoch).near = false ∧ t.stw = u.stw) ∧
    ∀ n, n < 16 → ∃ t, exec (.decompEngineFail n) s = .next t ∧ bitF t F.DEV_CAP2 n = false ∧
      (∀ k, k < 16 → k ≠ n → bitF t F.DEV_CAP2 k = bitF s F.DEV_CAP2 k) ∧ fieldsKept [F.DEV_CAP2] s t ∧ t = { s with flds := t.flds }

/-- R289, R290, R300 to R304, R306, R308: a command's end shows its RESULT; QUERY shows the model's switch and the epoch; STAGE pins and
calls for a fetch, UNSTAGE unpins; SWITCH moves ACTIVE at once where room allows, later where only draining gives it, and in a span by an
announcement, whose operand is the model's layout (log entry 44). -/
def Obligations.WeightCommandsRun : Prop :=
  ∀ (s : State) (model epoch : Nat), s.fieldsCanonical = true → s.memoryCanonical = true → isSet s F.WGT_CMD_STAT_BUSY = true →
    getF s F.WGT_CMD_MODEL = model → getF s F.WGT_CMD_EPOCH = epoch →
    (∀ v, s.wgt.result = some v → v < 32 → s.wgt.op < 8 → ∃ t, exec .wgtCmdEnd s = .next t ∧ isSet t F.WGT_CMD_STAT_BUSY = false ∧
      getF t F.WGT_CMD_STAT_OP = s.wgt.op ∧ getF t F.WGT_CMD_STAT_RESULT = v ∧ isSet t F.WGT_STAT_CMD_DONE = true ∧
      (isSet t F.WGT_STAT_CMD_FAIL = true ↔ v ≠ 0 ∨ isSet s F.WGT_STAT_CMD_FAIL = true) ∧ t.wgt = { s.wgt with result := none } ∧
      fieldsKept [F.WGT_CMD_STAT_BUSY, F.WGT_CMD_STAT_OP, F.WGT_CMD_STAT_RESULT, F.WGT_STAT_CMD_DONE, F.WGT_STAT_CMD_FAIL] s t ∧ t.mem = s.mem) ∧
    (s.wgt.result = none → exec .wgtCmdEnd s = .next s ∧
      (s.wgt.op = 6 → ∃ t, exec .query s = .next t ∧ t.wgt.result = some 0 ∧
        getF t F.WGT_Q_EPOCH_ACTIVE = ((dirActive s.mem model).map (fun i => (dirGet s.mem i).epoch)).getD 0 % 2 ^ 16 ∧
        (∀ w, s.mem.switches.find? (fun w => w.model == model) = some w → getF t F.WGT_Q_EPOCH_PEND_EPOCH = w.target % 2 ^ 16 ∧
          getF t F.WGT_Q_DRAIN = w.drain % 2 ^ 48) ∧ (isSet t F.WGT_Q_INFO_REGISTERED = true ↔ (dirFind s.mem model epoch).isSome = true) ∧
        getF t F.WGT_Q_INFO_PIN = (entryOf s.mem model epoch).pin % 2 ^ 24 ∧ fieldsKept [F.WGT_Q_EPOCH_ACTIVE, F.WGT_Q_EPOCH_PEND_EPOCH,
          F.WGT_Q_DRAIN, F.WGT_Q_INFO_REGISTERED, F.WGT_Q_INFO_STAGED, F.WGT_Q_INFO_PIN] s t ∧ t.mem = s.mem ∧ t.adm = s.adm) ∧
      ∀ i e r, getF s F.CFG_MODE ≠ 2 → getF s F.CFG_MODE ≠ 4 → dirFind s.mem model epoch = some i → e = dirGet s.mem i →
        recFind s.mem model epoch = some r →
        (s.wgt.op = 4 → r.span = false → e.unusable = false → r.stagePin = false →
          (e.near = true → ∃ t, exec .stage s = .next t ∧ t.wgt.result = some 0 ∧ dirGet t.mem i = { e with pin := e.pin + 1, gen := (e.gen + 1) % 65536 } ∧
            (∃ q, recFind t.mem model epoch = some q ∧ q.stagePin = true) ∧ t.flds = s.flds ∧ tiersKept s t ∧ t.mem.jobs = s.mem.jobs) ∧
          (∀ m, e.near = false → e.fetch = false → placeEpoch s model epoch (fun _ => true)
              (dirUpd (recUpd s.mem model epoch (fun r => { r with stagePin := true })) i (fun e => { e with pin := e.pin + 1 })) = some m → ∃ t,
            exec .stage s = .next t ∧ t.wgt.result = some 0 ∧ (entryOf t.mem model epoch).fetch = true ∧ (entryOf t.mem model epoch).pin = e.pin + 1 ∧
            (∃ j, t.mem.jobs.map (fun i : FetchJob => { i with issued := false }) =
              (s.mem.jobs ++ [j]).map (fun i : FetchJob => { i with issued := false }) ∧ j.model = model ∧ j.epoch = epoch ∧ j.fromStore = !e.bulk ∧
              j.bound = fetchBound s (getF s F.TICK_DT) e r.q5) ∧ getF t (busyF (!e.bulk)) = fetchBound s (getF s F.TICK_DT) e r.q5 % 2 ^ 64)) ∧
        (s.wgt.op = 5 → r.stagePin = true → s.mem.switches = [] → ∃ t, exec .unstage s = .next t ∧ t.wgt.result = some 0 ∧
          (dirGet t.mem i).pin = e.pin - 1 ∧ (∃ q, recFind t.mem model epoch = some q ∧ q.stagePin = false) ∧ t.flds = s.flds ∧ tiersKept s t) ∧
        (s.wgt.op = 3 → isMaster s = true → e.active = false → switchRefused s model e ((dirActive s.mem model).map (dirGet s.mem)) = none →
          (inSpan s = true → e.near = true → ∃ t, exec (.switch true) s = .next t ∧ t.wgt.result = some 0 ∧ t.mem = s.mem ∧
            t.span.announced = s.span.announced ++ [⟨3, getF s F.TICK_NOW + 2, model + epoch * 2 ^ 32⟩]) ∧
          ∀ n f v o b, inSpan s = false → r.stagePin = false → switchTerms s model epoch (dirActive s.mem model) = (n, f, v, o) →
            (n ≤ f + v → ∃ t, exec (.switch b) s = .next t ∧ t.wgt.result = some 0 ∧ isSet t F.WGT_STAT_SWITCH_DONE = true ∧
              getF t F.WGT_CNT_SWITCH = satAdd 32 (getF s F.WGT_CNT_SWITCH) 1 ∧ t.mem.switches = s.mem.switches ∧ tiersKept s t ∧
              (∀ k ∈ dirWays model, (dirGet s.mem k).valid = true → (dirGet s.mem k).modelId = model →
                (dirGet t.mem k).active = ((dirGet s.mem k).epoch == epoch)) ∧ fieldsKept [F.WGT_STAT_SWITCH_DONE, F.WGT_CNT_SWITCH] s t) ∧
            (∀ j, f + v < n → n ≤ f + v + o → dirActive s.mem model = some j → isCandidate s s.mem j = false → ∃ t, exec (.switch b) s = .next t ∧
              t.wgt.result = some 0 ∧ isSet t F.WGT_STAT_SWITCH_PEND = true ∧ getF t F.WGT_CNT_DEFER = satAdd 32 (getF s F.WGT_CNT_DEFER) 1 ∧
              t.mem.switches = s.mem.switches ++ [⟨model, (dirGet s.mem j).epoch, epoch, drainTick s model (dirGet s.mem j).epoch⟩] ∧
              fieldsKept [F.WGT_STAT_SWITCH_PEND, F.WGT_Q_EPOCH_PEND_EPOCH, F.WGT_CNT_DEFER] s t ∧ tiersKept s t)))

/-- R290 to R292: INGEST refuses a bad manifest, and takes an image all of whose shards pass: its epoch is registered, in Store alone,
active where the model had no other; RETIRE forgets an epoch that is not active. -/
def Obligations.EpochsComeAndGo : Prop :=
  ∀ s : State, s.fieldsCanonical = true → s.memoryCanonical = true → isSet s F.WGT_CMD_STAT_BUSY = true → s.wgt.result = none →
    (∀ image, s.wgt.op = 1 →
      (getF s F.CFG_MODE ≠ 2 → ∃ t, exec (.ingest image) s = .next t ∧ t.wgt.result = some 1 ∧ getF t F.WGT_ING_PROG = 0 ∧
        fieldsKept [F.WGT_ING_PROG] s t ∧ t.mem = s.mem ∧ t.out = s.out) ∧
      (getF s F.CFG_MODE = 2 → manifestOk (listReader image) (getF s F.WGT_ING_LEN) = false → ∃ t, exec (.ingest image) s = .next t ∧
        t.wgt.result = some 2 ∧ getF t F.WGT_ING_PROG = 0 ∧ fieldsKept [F.WGT_ING_PROG] s t ∧ t.mem = s.mem ∧ t.out = s.out) ∧
      ∀ m : Manifest, getF s F.CFG_MODE = 2 → m = manifestOf (listReader image) → manifestOk (listReader image) (getF s F.WGT_ING_LEN) = true →
        shardsOk (listReader image) m (getF s F.WGT_ING_LEN) (spanSize s) = true → objectsOk (listReader image) m = true →
        ingestRefused s m = none → (∀ k h, m.ep.shards[k]? = some h → checkShard m.ep.q5 h (bytesAt (listReader image) (m.offs.getD k 0) h.clen) = 0) →
        ∃ t, exec (.ingest image) s = .next t ∧ t.wgt.result = some 0 ∧ getF t F.WGT_CNT_INGEST = satAdd 32 (getF s F.WGT_CNT_INGEST) 1 ∧
        (∃ i, dirFind t.mem m.ep.model m.ep.epoch = some i ∧ (dirGet t.mem i).store = true ∧ (dirGet t.mem i).near = false ∧
          (dirGet t.mem i).bulk = false ∧ (dirGet t.mem i).shards = m.ep.shards.length ∧
          ((dirGet t.mem i).active = true ↔ dirActive s.mem m.ep.model = none ∨ m.activate = true)) ∧
        (∃ r, t.mem.recs = s.mem.recs ++ [r] ∧ r.model = m.ep.model ∧ r.epoch = m.ep.epoch ∧ r.objects = m.ep.objects ∧
          r.shards.length = m.ep.shards.length) ∧ t.mem.catalogue.wgenHigh = s.mem.catalogue.wgenHigh + 1 ∧ tiersKept s t ∧ t.adm = s.adm ∧
        fieldsKept [F.WGT_ING_PROG, F.WGT_CNT_INGEST, F.WGT_STAT_SWITCH_DONE, F.WGT_CNT_SWITCH] s t) ∧
    ∀ i model epoch, s.wgt.op = 2 → getF s F.WGT_CMD_MODEL = model → getF s F.WGT_CMD_EPOCH = epoch →
      (getF s F.CFG_MODE ≠ 2 → ∃ t, exec .retire s = .next t ∧ t.wgt = { s.wgt with result := some 1 } ∧ t = { s with wgt := t.wgt }) ∧
      (getF s F.CFG_MODE = 2 → dirFind s.mem model epoch = some i → (dirGet s.mem i).active = true → ∃ t, exec .retire s = .next t ∧
        t.wgt = { s.wgt with result := some 11 } ∧ t = { s with wgt := t.wgt }) ∧
      (getF s F.CFG_MODE = 2 → dirFind s.mem model epoch = some i → (dirGet s.mem i).active = false →
        (∀ r, recFind s.mem model epoch = some r → r.stagePin = false) → s.mem.switches = [] → ∃ t, exec .retire s = .next t ∧
        t.wgt.result = some 0 ∧ getF t F.WGT_CNT_RETIRE = satAdd 32 (getF s F.WGT_CNT_RETIRE) 1 ∧ (dirGet t.mem i).valid = false ∧
        (∀ k, k ≠ i → dirGet t.mem k = dirGet s.mem k) ∧ recFind t.mem model epoch = none ∧
        t.mem.catalogue.epochs = s.mem.catalogue.epochs.filter (fun e => !(e.model == model && e.epoch == epoch)) ∧
        t.mem.jobs.map (fun j : FetchJob => { j with issued := false }) =
          (s.mem.jobs.filter (fun j => !(j.model == model && j.epoch == epoch))).map (fun j : FetchJob => { j with issued := false }) ∧ tiersKept s t ∧
        fieldsKept [F.WGT_CNT_RETIRE, F.MEM_BUSY_BULK, F.MEM_BUSY_STORE] s t)

/-! ### Numbers and routing -/

/-- R131: an exact sum or difference that is zero has sign + in every mode except toward −∞, and the sum of two zeros of one sign keeps that sign;
a product of zero has the exclusive-or of the operands' signs; a zero keeps its sign in every format that has one. -/
def Obligations.SignsOfZero : Prop :=
  (∀ (mode : Rnd) (s t : Bool) (m n : Nat) (e f : Int),
      (if s then -1 else 1 : ℚ) * m * 2 ^ e + (if t then -1 else 1 : ℚ) * n * 2 ^ f = 0 →
      ∃ b, addVal mode (.fin s m e) (.fin t n f) = .fin (if m = 0 ∧ n = 0 ∧ s = t then s else decide (mode = .down)) 0 b) ∧
  (∀ (s t : Bool) (m n : Nat) (e f : Int), m = 0 ∨ n = 0 → ∃ b, mulVal (.fin s m e) (.fin t n f) = .fin (s != t) 0 b) ∧
  (∀ (f : ElemFmt) (mode : Rnd) (s : Bool) (e : Int), encodeElem f mode (.fin s 0 e) = if f = .int8 then 0 else signCode f s 0) ∧
  ∀ (mode : Rnd) (a b : Word), a.toNat / 2 ^ 23 % 256 ≠ 255 → b.toNat / 2 ^ 23 % 256 ≠ 255 →
    (∀ z, z = (if mode = .down then 0x80000000#32 else 0#32) → subF32 mode a a = z ∧ addF32 mode a (a ^^^ 0x80000000#32) = z) ∧
    (a.toNat % 2 ^ 31 = 0 → addF32 mode a a = a ∧ mulF32 mode a b = (a ^^^ b) &&& 0x80000000#32 ∧
      mulF32 mode b a = (a ^^^ b) &&& 0x80000000#32)

/-- R133: an element of any format converts to a binary32 lane of the same value, in every mode, and so does each lane of a word source; no rounding
on the way in. R127, R130: what a format represents exactly, and so what an encoding decodes to, rounds back to that encoding in every
mode, and a NaN to the canonical one. -/
def Obligations.ConversionsAreExact : Prop :=
  (∀ (f : ElemFmt) (mode : Rnd) (c : Nat) (x : FVal), x = f32 (roundF32 mode (decodeElem f c)) →
    (decodeElem f c = .nan → x = .nan) ∧ (∀ s, decodeElem f c = .inf s → x = .inf s) ∧
    (∀ s m e, decodeElem f c = .fin s m e → ∃ n g, x = .fin s n g ∧ (m : ℚ) * 2 ^ e = n * 2 ^ g)) ∧
  (∀ (f : ElemFmt) (lane : Nat) (d : Word256) (i : Nat) (v x : FVal), i < 32 → (vecSpan f lane).2 ≤ i →
    i < (vecSpan f lane).2 + (vecSpan f lane).1 → v = decodeElem f (packedElem d f.width (i - (vecSpan f lane).2)) →
    x = f32 ((wordToLanes f lane d).getD i 0#32) →
    (v = .nan → x = .nan) ∧ (∀ s, v = .inf s → x = .inf s) ∧
    (∀ s m e, v = .fin s m e → ∃ n g, x = .fin s n g ∧ (m : ℚ) * 2 ^ e = n * 2 ^ g)) ∧
  ∀ (f : ElemFmt) (mode : Rnd) (c : Nat), c < 2 ^ f.width →
    encodeElem f mode (decodeElem f c) = if decodeElem f c = .nan then nanCode f else c

/-- R221: each served choice ends in exactly one place and each place holds one choice; a token never holds two places of one expert; its primary
choices and fallback candidates are distinct, and each candidate is tried at most once; an expert never fills more than C places; choices account for
themselves: tokens × K are the served and the dropped ones, the served ones PRIMARY and FALLBACK over the experts, the dropped ones DROPPED. -/
def Obligations.RoutedChoicesAccount : Prop :=
  ∀ (l : RouteLayer) (ts : List RouteToken) (a : Assign), l.k + l.d ≤ l.experts → a = assignHalf l ts →
    (a.placed.map (fun p => (p.token, p.choice))).Nodup ∧ (a.placed.map (fun p => (p.expert, p.place))).Nodup ∧
    (a.placed.map (fun p => (p.token, p.expert))).Nodup ∧ (∀ p ∈ a.placed, p.place < l.c ∧ p.token < ts.length ∧ p.choice < l.k) ∧
    (∀ e, usedPlaces a e ≤ l.c) ∧ (∀ t ∈ ts, (primaryChoices l t ++ fallbackChoices l t).Nodup) ∧
    (∀ (b c : Assign) (i : Nat) (t : RouteToken) (f : Nat), c = assignToken l b (i, t) → f ∈ fallbackChoices l t →
      c.overflow.count f + c.placed.countP (fun p => p.expert == f) ≤ b.overflow.count f + b.placed.countP (fun p => p.expert == f) + 1) ∧
    ts.length * l.k = a.placed.length + a.dropped.length ∧
    a.placed.length = ((List.range l.experts).map (fun e => a.placed.countP (fun p => p.expert == e && !p.fallback) +
      a.placed.countP (fun p => p.expert == e && p.fallback))).sum ∧
    a.dropped.length = ((List.range l.experts).map (fun e => a.dropped.countP (fun d => d.2 == e))).sum
end

