-- ==== Sys2Proof/Laws/SMap.lean ====
section
/-! SUPPORT. Laws of sparse maps: what a read gives after a write, and that every operation keeps the canonical form. -/
namespace Sys2Proof.Laws
open Sys2Proof.Machine

variable {α : Type}

/-- Keys of a sorted map are above the first one. -/
theorem smapSorted_cons {k : Nat} {v : α} {m : List (Nat × α)} :
    smapSorted ((k, v) :: m) = true ↔ (∀ p ∈ m, k < p.1) ∧ smapSorted m = true := by
  simp [smapSorted]

/-- A key below every listed one reads as its default. -/
theorem smapGet_below (d : Nat → α) : ∀ (m : List (Nat × α)) (k : Nat), (∀ p ∈ m, k < p.1) → smapGet d m k = d k
  | [], _, _ => rfl
  | (k', v) :: m, k, h => by
    have h0 := h (k', v) (by simp)
    simp only [smapGet, if_neg (Nat.ne_of_lt h0)]
    exact smapGet_below d m k (fun p hp => h p (List.mem_cons_of_mem _ hp))

theorem smapGet_erase_same (d : Nat → α) : ∀ (m : List (Nat × α)) (k : Nat), smapSorted m = true → smapGet d (smapErase m k) k = d k
  | [], _, _ => rfl
  | (k', v) :: m, k, h => by
    obtain ⟨h1, h2⟩ := smapSorted_cons.1 h
    by_cases e : k = k'
    · subst e
      simpa [smapErase] using smapGet_below d m k h1
    · by_cases l : k < k'
      · have : ∀ p ∈ (k', v) :: m, k < p.1 := by
          intro p hp
          rcases List.mem_cons.1 hp with rfl | hp
          · exact l
          · exact Nat.lt_trans l (h1 p hp)
        simpa [smapErase, e, l] using smapGet_below d ((k', v) :: m) k this
      · simpa [smapErase, e, l, smapGet] using smapGet_erase_same d m k h2

theorem smapGet_erase_other (d : Nat → α) : ∀ (m : List (Nat × α)) (k j : Nat), j ≠ k → smapGet d (smapErase m k) j = smapGet d m j
  | [], _, _, _ => rfl
  | (k', v) :: m, k, j, h => by
    by_cases e : k = k'
    · subst e
      simp [smapErase, smapGet, h]
    · by_cases l : k < k'
      · simp [smapErase, e, l]
      · simp only [smapErase, if_neg e, if_neg l, smapGet]
        rw [smapGet_erase_other d m k j h]

theorem smapGet_put_same (d : Nat → α) : ∀ (m : List (Nat × α)) (k : Nat) (v : α), smapGet d (smapPut m k v) k = v
  | [], k, v => by simp [smapPut, smapGet]
  | (k', v') :: m, k, v => by
    by_cases e : k = k'
    · simp [smapPut, e, smapGet]
    · by_cases l : k < k'
      · simp [smapPut, e, l, smapGet]
      · simp only [smapPut, if_neg e, if_neg l, smapGet]
        exact smapGet_put_same d m k v

theorem smapGet_put_other (d : Nat → α) : ∀ (m : List (Nat × α)) (k j : Nat) (v : α), j ≠ k → smapGet d (smapPut m k v) j = smapGet d m j
  | [], k, j, v, h => by simp [smapPut, smapGet, h]
  | (k', v') :: m, k, j, v, h => by
    by_cases e : k = k'
    · subst e
      simp [smapPut, smapGet, h]
    · by_cases l : k < k'
      · simp [smapPut, e, l, smapGet, h]
      · simp only [smapPut, if_neg e, if_neg l, smapGet]
        rw [smapGet_put_other d m k j v h]

/-- A read after a write of the same key gives the value written. -/
theorem smapGet_set_same [DecidableEq α] (d : Nat → α) (m : List (Nat × α)) (k : Nat) (v : α) (h : smapSorted m = true) :
    smapGet d (smapSet d m k v) k = v := by
  unfold smapSet
  split
  · next e => rw [smapGet_erase_same d m k h, e]
  · exact smapGet_put_same d m k v

/-- A write leaves every other key as it is. -/
theorem smapGet_set_other [DecidableEq α] (d : Nat → α) (m : List (Nat × α)) (k j : Nat) (v : α) (h : j ≠ k) :
    smapGet d (smapSet d m k v) j = smapGet d m j := by
  unfold smapSet
  split
  · exact smapGet_erase_other d m k j h
  · exact smapGet_put_other d m k j v h

theorem mem_smapErase {p : Nat × α} : ∀ {m : List (Nat × α)} {k : Nat}, p ∈ smapErase m k → p ∈ m
  | [], _, h => by simp [smapErase] at h
  | (k', v) :: m, k, h => by
    unfold smapErase at h
    split at h
    · exact List.mem_cons_of_mem _ h
    · split at h
      · exact h
      · rcases List.mem_cons.1 h with rfl | h
        · simp
        · exact List.mem_cons_of_mem _ (mem_smapErase h)

theorem mem_smapPut {p : Nat × α} : ∀ {m : List (Nat × α)} {k : Nat} {v : α}, p ∈ smapPut m k v → p = (k, v) ∨ p ∈ m
  | [], k, v, h => by simpa [smapPut] using h
  | (k', v') :: m, k, v, h => by
    unfold smapPut at h
    split at h
    · rcases List.mem_cons.1 h with h | h
      · exact .inl h
      · exact .inr (List.mem_cons_of_mem _ h)
    · split at h
      · rcases List.mem_cons.1 h with h | h
        · exact .inl h
        · exact .inr h
      · rcases List.mem_cons.1 h with rfl | h
        · exact .inr (by simp)
        · exact (mem_smapPut h).imp id (List.mem_cons_of_mem _)

theorem smapSorted_erase : ∀ (m : List (Nat × α)) (k : Nat), smapSorted m = true → smapSorted (smapErase m k) = true
  | [], _, _ => rfl
  | (k', v) :: m, k, h => by
    obtain ⟨h1, h2⟩ := smapSorted_cons.1 h
    unfold smapErase
    split
    · exact h2
    · split
      · exact h
      · exact smapSorted_cons.2 ⟨fun p hp => h1 p (mem_smapErase hp), smapSorted_erase m k h2⟩

theorem smapSorted_put : ∀ (m : List (Nat × α)) (k : Nat) (v : α), smapSorted m = true → smapSorted (smapPut m k v) = true
  | [], k, v, _ => by simp [smapPut, smapSorted]
  | (k', v') :: m, k, v, h => by
    obtain ⟨h1, h2⟩ := smapSorted_cons.1 h
    unfold smapPut
    split
    · next e => exact smapSorted_cons.2 ⟨fun p hp => e ▸ h1 p hp, h2⟩
    · next e =>
      split
      · next l =>
        refine smapSorted_cons.2 ⟨fun p hp => ?_, h⟩
        rcases List.mem_cons.1 hp with rfl | hp
        · exact l
        · exact Nat.lt_trans l (h1 p hp)
      · next l =>
        refine smapSorted_cons.2 ⟨fun p hp => ?_, smapSorted_put m k v h2⟩
        rcases mem_smapPut hp with rfl | hp
        · show k' < k
          omega
        · exact h1 p hp

/-- What the canonical form says. -/
theorem smapWf_iff [DecidableEq α] {d : Nat → α} {m : List (Nat × α)} :
    smapWf d m = true ↔ smapSorted m = true ∧ ∀ p ∈ m, p.2 ≠ d p.1 := by
  simp [smapWf]

/-- A write keeps the canonical form. -/
theorem smapWf_set [DecidableEq α] {d : Nat → α} {m : List (Nat × α)} (k : Nat) (v : α) (h : smapWf d m = true) :
    smapWf d (smapSet d m k v) = true := by
  obtain ⟨h1, h2⟩ := smapWf_iff.1 h
  unfold smapSet
  split
  · exact smapWf_iff.2 ⟨smapSorted_erase m k h1, fun p hp => h2 p (mem_smapErase hp)⟩
  · next e =>
    refine smapWf_iff.2 ⟨smapSorted_put m k v h1, fun p hp => ?_⟩
    rcases mem_smapPut hp with rfl | hp
    · exact e
    · exact h2 p hp

theorem smapSorted_filter (f : Nat × α → Bool) : ∀ (m : List (Nat × α)), smapSorted m = true → smapSorted (m.filter f) = true
  | [], _ => rfl
  | (k, v) :: m, h => by
    obtain ⟨h1, h2⟩ := smapSorted_cons.1 h
    rw [List.filter_cons]
    split
    · exact smapSorted_cons.2 ⟨fun p hp => h1 p (List.mem_of_mem_filter hp), smapSorted_filter f m h2⟩
    · exact smapSorted_filter f m h2

/-- Leaving entries out keeps the canonical form. -/
theorem smapWf_filter [DecidableEq α] {d : Nat → α} {m : List (Nat × α)} (f : Nat × α → Bool) (h : smapWf d m = true) :
    smapWf d (m.filter f) = true := by
  obtain ⟨h1, h2⟩ := smapWf_iff.1 h
  exact smapWf_iff.2 ⟨smapSorted_filter f m h1, fun p hp => h2 p (List.mem_of_mem_filter hp)⟩

theorem smapSorted_map {β : Type} (g : Nat × α → β) : ∀ (m : List (Nat × α)), smapSorted m = true → smapSorted (m.map (fun p => (p.1, g p))) = true
  | [], _ => rfl
  | (k, v) :: m, h => by
    obtain ⟨h1, h2⟩ := smapSorted_cons.1 h
    refine smapSorted_cons.2 ⟨fun p hp => ?_, smapSorted_map g m h2⟩
    obtain ⟨q, hq, rfl⟩ := List.mem_map.1 hp
    exact h1 q hq

/-- Equal reads at every key make canonical maps equal lists: the form has one list for each content. -/
theorem smapWf_ext [DecidableEq α] {d : Nat → α} : ∀ {m n : List (Nat × α)}, smapWf d m = true → smapWf d n = true →
    (∀ k, smapGet d m k = smapGet d n k) → m = n
  | [], [], _, _, _ => rfl
  | [], (k, v) :: n, _, hn, h => by
    have := (smapWf_iff.1 hn).2 (k, v) (by simp)
    have e := h k
    simp [smapGet] at e
    exact absurd e.symm this
  | (k, v) :: m, [], hm, _, h => by
    have := (smapWf_iff.1 hm).2 (k, v) (by simp)
    have e := h k
    simp [smapGet] at e
    exact absurd e this
  | (k, v) :: m, (j, w) :: n, hm, hn, h => by
    obtain ⟨sm, dm⟩ := smapWf_iff.1 hm
    obtain ⟨sn, dn⟩ := smapWf_iff.1 hn
    obtain ⟨m1, m2⟩ := smapSorted_cons.1 sm
    obtain ⟨n1, n2⟩ := smapSorted_cons.1 sn
    have vk := dm (k, v) (by simp)
    have wj := dn (j, w) (by simp)
    have kj : k = j := by
      rcases Nat.lt_trichotomy k j with l | e | l
      · have e := h k
        have below : ∀ p ∈ (j, w) :: n, k < p.1 := by
          intro p hp
          rcases List.mem_cons.1 hp with rfl | hp
          · exact l
          · exact Nat.lt_trans l (n1 p hp)
        rw [smapGet_below d _ k below] at e
        simp [smapGet] at e
        exact absurd e vk
      · exact e
      · have e := h j
        have below : ∀ p ∈ (k, v) :: m, j < p.1 := by
          intro p hp
          rcases List.mem_cons.1 hp with rfl | hp
          · exact l
          · exact Nat.lt_trans l (m1 p hp)
        rw [smapGet_below d _ j below] at e
        simp [smapGet] at e
        exact absurd e.symm wj
    subst kj
    have vw : v = w := by simpa [smapGet] using h k
    subst vw
    have hm' : smapWf d m = true := smapWf_iff.2 ⟨m2, fun p hp => dm p (List.mem_cons_of_mem _ hp)⟩
    have hn' : smapWf d n = true := smapWf_iff.2 ⟨n2, fun p hp => dn p (List.mem_cons_of_mem _ hp)⟩
    rw [smapWf_ext hm' hn' (fun q => ?_)]
    by_cases e : q = k
    · subst e
      rw [smapGet_below d m q m1, smapGet_below d n q n1]
    · simpa [smapGet, e] using h q

end Sys2Proof.Laws
end

