-- ==== Sys2Proof/Laws/Memory.lean ====
section
/-! SUPPORT. The memory operations keep the canonical form, and what a byte reads as after them. -/
namespace Sys2Proof.Laws
open Sys2Proof.Machine

/-- One byte written. -/
theorem memory_wf_set {m : List Host.Cell} (a : Nat) (b : Byte) (h : Memory.wf m = true) : Memory.wf (smapSet zeroByte m a b) = true :=
  smapWf_set a b h

theorem memory_wf_writeBytes (addr : Nat → Nat) : ∀ (bs : List Byte) (m : List Host.Cell) (o : Nat), Memory.wf m = true →
    Memory.wf (writeBytes addr m o bs) = true
  | [], _, _, h => h
  | b :: bs, _, o, h => memory_wf_writeBytes addr bs _ (o + 1) (memory_wf_set (addr o) b h)

theorem memory_wf_clearUnits {m : List Host.Cell} (base : Nat) (units : List Nat) (h : Memory.wf m = true) :
    Memory.wf (clearUnits m base units) = true := smapWf_filter _ h

theorem memory_wf_filter {m : List Host.Cell} (f : Host.Cell → Bool) (h : Memory.wf m = true) : Memory.wf (m.filter f) = true :=
  smapWf_filter f h

theorem memory_wf_reset : Memory.wf State.reset.mem.near = true ∧ Memory.wf State.reset.mem.bulk = true := ⟨rfl, rfl⟩

/-- A byte outside the addresses written reads as before. -/
theorem writeBytes_other (addr : Nat → Nat) (a : Nat) : ∀ (bs : List Byte) (m : List Host.Cell) (o : Nat),
    (∀ i, i < bs.length → a ≠ addr (o + i)) → smapGet zeroByte (writeBytes addr m o bs) a = smapGet zeroByte m a
  | [], _, _, _ => rfl
  | b :: bs, m, o, h => by
    have h0 : a ≠ addr o := by simpa using h 0 (by simp)
    rw [writeBytes, writeBytes_other addr a bs _ (o + 1), smapGet_set_other _ _ _ _ _ h0]
    intro i hi
    have := h (i + 1) (by simpa using hi)
    rwa [show o + (i + 1) = o + 1 + i by omega] at this

/-- Equal reads at every address make two tiers' memories equal data. -/
theorem memory_wf_ext {m n : List Host.Cell} (hm : Memory.wf m = true) (hn : Memory.wf n = true)
    (h : ∀ a, smapGet zeroByte m a = smapGet zeroByte n a) : m = n := smapWf_ext hm hn h

end Sys2Proof.Laws
end

