-- ==== Sys2Proof/Laws/State.lean ====
section
/-! SUPPORT. What each update of the state leaves in each field: one lemma for each field and update. -/
namespace Sys2Proof.Laws
open Sys2Proof.Machine

variable (s : State)

@[simp] theorem setF_pending (f : Fld) (v : Nat) : (setF s f v).pending = s.pending := rfl
@[simp] theorem setF_flds (f : Fld) (v : Nat) : (setF s f v).flds = smapSet fldReset s.flds f.key (v % 2 ^ f.width) := rfl
@[simp] theorem setF_hiLatch (f : Fld) (v : Nat) : (setF s f v).hiLatch = s.hiLatch := rfl
@[simp] theorem setF_frame (f : Fld) (v : Nat) : (setF s f v).frame = s.frame := rfl
@[simp] theorem setF_cells (f : Fld) (v : Nat) : (setF s f v).cells = s.cells := rfl
@[simp] theorem setF_mem (f : Fld) (v : Nat) : (setF s f v).mem = s.mem := rfl
@[simp] theorem setF_wgt (f : Fld) (v : Nat) : (setF s f v).wgt = s.wgt := rfl
@[simp] theorem setF_adm (f : Fld) (v : Nat) : (setF s f v).adm = s.adm := rfl
@[simp] theorem setF_out (f : Fld) (v : Nat) : (setF s f v).out = s.out := rfl
@[simp] theorem setF_links (f : Fld) (v : Nat) : (setF s f v).links = s.links := rfl
@[simp] theorem setF_span (f : Fld) (v : Nat) : (setF s f v).span = s.span := rfl
@[simp] theorem setF_pwr (f : Fld) (v : Nat) : (setF s f v).pwr = s.pwr := rfl
@[simp] theorem setF_modes (f : Fld) (v : Nat) : (setF s f v).modes = s.modes := rfl
@[simp] theorem setF_pins (f : Fld) (v : Nat) : (setF s f v).pins = s.pins := rfl
@[simp] theorem setF_fuses (f : Fld) (v : Nat) : (setF s f v).fuses = s.fuses := rfl
@[simp] theorem setF_nor (f : Fld) (v : Nat) : (setF s f v).nor = s.nor := rfl
@[simp] theorem setF_boot (f : Fld) (v : Nat) : (setF s f v).boot = s.boot := rfl
@[simp] theorem setF_irq (f : Fld) (v : Nat) : (setF s f v).irq = s.irq := rfl
@[simp] theorem setF_stw (f : Fld) (v : Nat) : (setF s f v).stw = s.stw := rfl
@[simp] theorem setF_spdm (f : Fld) (v : Nat) : (setF s f v).spdm = s.spdm := rfl
@[simp] theorem setF_stampCnt (f : Fld) (v : Nat) : (setF s f v).stampCnt = s.stampCnt := rfl
@[simp] theorem setF_events (f : Fld) (v : Nat) : (setF s f v).events = s.events := rfl
@[simp] theorem setF_freeCtr (f : Fld) (v : Nat) : (setF s f v).freeCtr = s.freeCtr := rfl

@[simp] theorem setMem_pending (m : MemSt) : (setMem s m).pending = s.pending := rfl
@[simp] theorem setMem_flds (m : MemSt) : (setMem s m).flds = s.flds := rfl
@[simp] theorem setMem_hiLatch (m : MemSt) : (setMem s m).hiLatch = s.hiLatch := rfl
@[simp] theorem setMem_frame (m : MemSt) : (setMem s m).frame = s.frame := rfl
@[simp] theorem setMem_cells (m : MemSt) : (setMem s m).cells = s.cells := rfl
@[simp] theorem setMem_mem (m : MemSt) : (setMem s m).mem = m := rfl
@[simp] theorem setMem_wgt (m : MemSt) : (setMem s m).wgt = s.wgt := rfl
@[simp] theorem setMem_adm (m : MemSt) : (setMem s m).adm = s.adm := rfl
@[simp] theorem setMem_out (m : MemSt) : (setMem s m).out = s.out := rfl
@[simp] theorem setMem_links (m : MemSt) : (setMem s m).links = s.links := rfl
@[simp] theorem setMem_span (m : MemSt) : (setMem s m).span = s.span := rfl
@[simp] theorem setMem_pwr (m : MemSt) : (setMem s m).pwr = s.pwr := rfl
@[simp] theorem setMem_modes (m : MemSt) : (setMem s m).modes = s.modes := rfl
@[simp] theorem setMem_pins (m : MemSt) : (setMem s m).pins = s.pins := rfl
@[simp] theorem setMem_fuses (m : MemSt) : (setMem s m).fuses = s.fuses := rfl
@[simp] theorem setMem_nor (m : MemSt) : (setMem s m).nor = s.nor := rfl
@[simp] theorem setMem_boot (m : MemSt) : (setMem s m).boot = s.boot := rfl
@[simp] theorem setMem_irq (m : MemSt) : (setMem s m).irq = s.irq := rfl
@[simp] theorem setMem_stw (m : MemSt) : (setMem s m).stw = s.stw := rfl
@[simp] theorem setMem_spdm (m : MemSt) : (setMem s m).spdm = s.spdm := rfl
@[simp] theorem setMem_stampCnt (m : MemSt) : (setMem s m).stampCnt = s.stampCnt := rfl
@[simp] theorem setMem_events (m : MemSt) : (setMem s m).events = s.events := rfl
@[simp] theorem setMem_freeCtr (m : MemSt) : (setMem s m).freeCtr = s.freeCtr := rfl

@[simp] theorem setLink_pending (n : Nat) (l : LinkSt) : (setLink s n l).pending = s.pending := rfl
@[simp] theorem setLink_flds (n : Nat) (l : LinkSt) : (setLink s n l).flds = s.flds := rfl
@[simp] theorem setLink_hiLatch (n : Nat) (l : LinkSt) : (setLink s n l).hiLatch = s.hiLatch := rfl
@[simp] theorem setLink_frame (n : Nat) (l : LinkSt) : (setLink s n l).frame = s.frame := rfl
@[simp] theorem setLink_cells (n : Nat) (l : LinkSt) : (setLink s n l).cells = s.cells := rfl
@[simp] theorem setLink_mem (n : Nat) (l : LinkSt) : (setLink s n l).mem = s.mem := rfl
@[simp] theorem setLink_wgt (n : Nat) (l : LinkSt) : (setLink s n l).wgt = s.wgt := rfl
@[simp] theorem setLink_adm (n : Nat) (l : LinkSt) : (setLink s n l).adm = s.adm := rfl
@[simp] theorem setLink_out (n : Nat) (l : LinkSt) : (setLink s n l).out = s.out := rfl
@[simp] theorem setLink_links (n : Nat) (l : LinkSt) : (setLink s n l).links = smapSet freshLink s.links n l := rfl
@[simp] theorem setLink_span (n : Nat) (l : LinkSt) : (setLink s n l).span = s.span := rfl
@[simp] theorem setLink_pwr (n : Nat) (l : LinkSt) : (setLink s n l).pwr = s.pwr := rfl
@[simp] theorem setLink_modes (n : Nat) (l : LinkSt) : (setLink s n l).modes = s.modes := rfl
@[simp] theorem setLink_pins (n : Nat) (l : LinkSt) : (setLink s n l).pins = s.pins := rfl
@[simp] theorem setLink_fuses (n : Nat) (l : LinkSt) : (setLink s n l).fuses = s.fuses := rfl
@[simp] theorem setLink_nor (n : Nat) (l : LinkSt) : (setLink s n l).nor = s.nor := rfl
@[simp] theorem setLink_boot (n : Nat) (l : LinkSt) : (setLink s n l).boot = s.boot := rfl
@[simp] theorem setLink_irq (n : Nat) (l : LinkSt) : (setLink s n l).irq = s.irq := rfl
@[simp] theorem setLink_stw (n : Nat) (l : LinkSt) : (setLink s n l).stw = s.stw := rfl
@[simp] theorem setLink_spdm (n : Nat) (l : LinkSt) : (setLink s n l).spdm = s.spdm := rfl
@[simp] theorem setLink_stampCnt (n : Nat) (l : LinkSt) : (setLink s n l).stampCnt = s.stampCnt := rfl
@[simp] theorem setLink_events (n : Nat) (l : LinkSt) : (setLink s n l).events = s.events := rfl
@[simp] theorem setLink_freeCtr (n : Nat) (l : LinkSt) : (setLink s n l).freeCtr = s.freeCtr := rfl

@[simp] theorem setSpan_pending (x : SpanSt) : (setSpan s x).pending = s.pending := rfl
@[simp] theorem setSpan_flds (x : SpanSt) : (setSpan s x).flds = s.flds := rfl
@[simp] theorem setSpan_hiLatch (x : SpanSt) : (setSpan s x).hiLatch = s.hiLatch := rfl
@[simp] theorem setSpan_frame (x : SpanSt) : (setSpan s x).frame = s.frame := rfl
@[simp] theorem setSpan_cells (x : SpanSt) : (setSpan s x).cells = s.cells := rfl
@[simp] theorem setSpan_mem (x : SpanSt) : (setSpan s x).mem = s.mem := rfl
@[simp] theorem setSpan_wgt (x : SpanSt) : (setSpan s x).wgt = s.wgt := rfl
@[simp] theorem setSpan_adm (x : SpanSt) : (setSpan s x).adm = s.adm := rfl
@[simp] theorem setSpan_out (x : SpanSt) : (setSpan s x).out = s.out := rfl
@[simp] theorem setSpan_links (x : SpanSt) : (setSpan s x).links = s.links := rfl
@[simp] theorem setSpan_span (x : SpanSt) : (setSpan s x).span = x := rfl
@[simp] theorem setSpan_pwr (x : SpanSt) : (setSpan s x).pwr = s.pwr := rfl
@[simp] theorem setSpan_modes (x : SpanSt) : (setSpan s x).modes = s.modes := rfl
@[simp] theorem setSpan_pins (x : SpanSt) : (setSpan s x).pins = s.pins := rfl
@[simp] theorem setSpan_fuses (x : SpanSt) : (setSpan s x).fuses = s.fuses := rfl
@[simp] theorem setSpan_nor (x : SpanSt) : (setSpan s x).nor = s.nor := rfl
@[simp] theorem setSpan_boot (x : SpanSt) : (setSpan s x).boot = s.boot := rfl
@[simp] theorem setSpan_irq (x : SpanSt) : (setSpan s x).irq = s.irq := rfl
@[simp] theorem setSpan_stw (x : SpanSt) : (setSpan s x).stw = s.stw := rfl
@[simp] theorem setSpan_spdm (x : SpanSt) : (setSpan s x).spdm = s.spdm := rfl
@[simp] theorem setSpan_stampCnt (x : SpanSt) : (setSpan s x).stampCnt = s.stampCnt := rfl
@[simp] theorem setSpan_events (x : SpanSt) : (setSpan s x).events = s.events := rfl
@[simp] theorem setSpan_freeCtr (x : SpanSt) : (setSpan s x).freeCtr = s.freeCtr := rfl

@[simp] theorem setFrame_pending (x : FrameSt) : (setFrame s x).pending = s.pending := rfl
@[simp] theorem setFrame_flds (x : FrameSt) : (setFrame s x).flds = s.flds := rfl
@[simp] theorem setFrame_hiLatch (x : FrameSt) : (setFrame s x).hiLatch = s.hiLatch := rfl
@[simp] theorem setFrame_frame (x : FrameSt) : (setFrame s x).frame = x := rfl
@[simp] theorem setFrame_cells (x : FrameSt) : (setFrame s x).cells = s.cells := rfl
@[simp] theorem setFrame_mem (x : FrameSt) : (setFrame s x).mem = s.mem := rfl
@[simp] theorem setFrame_wgt (x : FrameSt) : (setFrame s x).wgt = s.wgt := rfl
@[simp] theorem setFrame_adm (x : FrameSt) : (setFrame s x).adm = s.adm := rfl
@[simp] theorem setFrame_out (x : FrameSt) : (setFrame s x).out = s.out := rfl
@[simp] theorem setFrame_links (x : FrameSt) : (setFrame s x).links = s.links := rfl
@[simp] theorem setFrame_span (x : FrameSt) : (setFrame s x).span = s.span := rfl
@[simp] theorem setFrame_pwr (x : FrameSt) : (setFrame s x).pwr = s.pwr := rfl
@[simp] theorem setFrame_modes (x : FrameSt) : (setFrame s x).modes = s.modes := rfl
@[simp] theorem setFrame_pins (x : FrameSt) : (setFrame s x).pins = s.pins := rfl
@[simp] theorem setFrame_fuses (x : FrameSt) : (setFrame s x).fuses = s.fuses := rfl
@[simp] theorem setFrame_nor (x : FrameSt) : (setFrame s x).nor = s.nor := rfl
@[simp] theorem setFrame_boot (x : FrameSt) : (setFrame s x).boot = s.boot := rfl
@[simp] theorem setFrame_irq (x : FrameSt) : (setFrame s x).irq = s.irq := rfl
@[simp] theorem setFrame_stw (x : FrameSt) : (setFrame s x).stw = s.stw := rfl
@[simp] theorem setFrame_spdm (x : FrameSt) : (setFrame s x).spdm = s.spdm := rfl
@[simp] theorem setFrame_stampCnt (x : FrameSt) : (setFrame s x).stampCnt = s.stampCnt := rfl
@[simp] theorem setFrame_events (x : FrameSt) : (setFrame s x).events = s.events := rfl
@[simp] theorem setFrame_freeCtr (x : FrameSt) : (setFrame s x).freeCtr = s.freeCtr := rfl

@[simp] theorem setPwr_pending (x : PwrSt) : (setPwr s x).pending = s.pending := rfl
@[simp] theorem setPwr_flds (x : PwrSt) : (setPwr s x).flds = s.flds := rfl
@[simp] theorem setPwr_hiLatch (x : PwrSt) : (setPwr s x).hiLatch = s.hiLatch := rfl
@[simp] theorem setPwr_frame (x : PwrSt) : (setPwr s x).frame = s.frame := rfl
@[simp] theorem setPwr_cells (x : PwrSt) : (setPwr s x).cells = s.cells := rfl
@[simp] theorem setPwr_mem (x : PwrSt) : (setPwr s x).mem = s.mem := rfl
@[simp] theorem setPwr_wgt (x : PwrSt) : (setPwr s x).wgt = s.wgt := rfl
@[simp] theorem setPwr_adm (x : PwrSt) : (setPwr s x).adm = s.adm := rfl
@[simp] theorem setPwr_out (x : PwrSt) : (setPwr s x).out = s.out := rfl
@[simp] theorem setPwr_links (x : PwrSt) : (setPwr s x).links = s.links := rfl
@[simp] theorem setPwr_span (x : PwrSt) : (setPwr s x).span = s.span := rfl
@[simp] theorem setPwr_pwr (x : PwrSt) : (setPwr s x).pwr = x := rfl
@[simp] theorem setPwr_modes (x : PwrSt) : (setPwr s x).modes = s.modes := rfl
@[simp] theorem setPwr_pins (x : PwrSt) : (setPwr s x).pins = s.pins := rfl
@[simp] theorem setPwr_fuses (x : PwrSt) : (setPwr s x).fuses = s.fuses := rfl
@[simp] theorem setPwr_nor (x : PwrSt) : (setPwr s x).nor = s.nor := rfl
@[simp] theorem setPwr_boot (x : PwrSt) : (setPwr s x).boot = s.boot := rfl
@[simp] theorem setPwr_irq (x : PwrSt) : (setPwr s x).irq = s.irq := rfl
@[simp] theorem setPwr_stw (x : PwrSt) : (setPwr s x).stw = s.stw := rfl
@[simp] theorem setPwr_spdm (x : PwrSt) : (setPwr s x).spdm = s.spdm := rfl
@[simp] theorem setPwr_stampCnt (x : PwrSt) : (setPwr s x).stampCnt = s.stampCnt := rfl
@[simp] theorem setPwr_events (x : PwrSt) : (setPwr s x).events = s.events := rfl
@[simp] theorem setPwr_freeCtr (x : PwrSt) : (setPwr s x).freeCtr = s.freeCtr := rfl

@[simp] theorem setBoot_pending (b : BootSt) : (setBoot s b).pending = s.pending := rfl
@[simp] theorem setBoot_flds (b : BootSt) : (setBoot s b).flds = s.flds := rfl
@[simp] theorem setBoot_hiLatch (b : BootSt) : (setBoot s b).hiLatch = s.hiLatch := rfl
@[simp] theorem setBoot_frame (b : BootSt) : (setBoot s b).frame = s.frame := rfl
@[simp] theorem setBoot_cells (b : BootSt) : (setBoot s b).cells = s.cells := rfl
@[simp] theorem setBoot_mem (b : BootSt) : (setBoot s b).mem = s.mem := rfl
@[simp] theorem setBoot_wgt (b : BootSt) : (setBoot s b).wgt = s.wgt := rfl
@[simp] theorem setBoot_adm (b : BootSt) : (setBoot s b).adm = s.adm := rfl
@[simp] theorem setBoot_out (b : BootSt) : (setBoot s b).out = s.out := rfl
@[simp] theorem setBoot_links (b : BootSt) : (setBoot s b).links = s.links := rfl
@[simp] theorem setBoot_span (b : BootSt) : (setBoot s b).span = s.span := rfl
@[simp] theorem setBoot_pwr (b : BootSt) : (setBoot s b).pwr = s.pwr := rfl
@[simp] theorem setBoot_modes (b : BootSt) : (setBoot s b).modes = s.modes := rfl
@[simp] theorem setBoot_pins (b : BootSt) : (setBoot s b).pins = s.pins := rfl
@[simp] theorem setBoot_fuses (b : BootSt) : (setBoot s b).fuses = s.fuses := rfl
@[simp] theorem setBoot_nor (b : BootSt) : (setBoot s b).nor = s.nor := rfl
@[simp] theorem setBoot_boot (b : BootSt) : (setBoot s b).boot = b := rfl
@[simp] theorem setBoot_irq (b : BootSt) : (setBoot s b).irq = s.irq := rfl
@[simp] theorem setBoot_stw (b : BootSt) : (setBoot s b).stw = s.stw := rfl
@[simp] theorem setBoot_spdm (b : BootSt) : (setBoot s b).spdm = s.spdm := rfl
@[simp] theorem setBoot_stampCnt (b : BootSt) : (setBoot s b).stampCnt = s.stampCnt := rfl
@[simp] theorem setBoot_events (b : BootSt) : (setBoot s b).events = s.events := rfl
@[simp] theorem setBoot_freeCtr (b : BootSt) : (setBoot s b).freeCtr = s.freeCtr := rfl

@[simp] theorem setPins_pending (x : PinSt) : (setPins s x).pending = s.pending := rfl
@[simp] theorem setPins_flds (x : PinSt) : (setPins s x).flds = s.flds := rfl
@[simp] theorem setPins_hiLatch (x : PinSt) : (setPins s x).hiLatch = s.hiLatch := rfl
@[simp] theorem setPins_frame (x : PinSt) : (setPins s x).frame = s.frame := rfl
@[simp] theorem setPins_cells (x : PinSt) : (setPins s x).cells = s.cells := rfl
@[simp] theorem setPins_mem (x : PinSt) : (setPins s x).mem = s.mem := rfl
@[simp] theorem setPins_wgt (x : PinSt) : (setPins s x).wgt = s.wgt := rfl
@[simp] theorem setPins_adm (x : PinSt) : (setPins s x).adm = s.adm := rfl
@[simp] theorem setPins_out (x : PinSt) : (setPins s x).out = s.out := rfl
@[simp] theorem setPins_links (x : PinSt) : (setPins s x).links = s.links := rfl
@[simp] theorem setPins_span (x : PinSt) : (setPins s x).span = s.span := rfl
@[simp] theorem setPins_pwr (x : PinSt) : (setPins s x).pwr = s.pwr := rfl
@[simp] theorem setPins_modes (x : PinSt) : (setPins s x).modes = s.modes := rfl
@[simp] theorem setPins_pins (x : PinSt) : (setPins s x).pins = x := rfl
@[simp] theorem setPins_fuses (x : PinSt) : (setPins s x).fuses = s.fuses := rfl
@[simp] theorem setPins_nor (x : PinSt) : (setPins s x).nor = s.nor := rfl
@[simp] theorem setPins_boot (x : PinSt) : (setPins s x).boot = s.boot := rfl
@[simp] theorem setPins_irq (x : PinSt) : (setPins s x).irq = s.irq := rfl
@[simp] theorem setPins_stw (x : PinSt) : (setPins s x).stw = s.stw := rfl
@[simp] theorem setPins_spdm (x : PinSt) : (setPins s x).spdm = s.spdm := rfl
@[simp] theorem setPins_stampCnt (x : PinSt) : (setPins s x).stampCnt = s.stampCnt := rfl
@[simp] theorem setPins_events (x : PinSt) : (setPins s x).events = s.events := rfl
@[simp] theorem setPins_freeCtr (x : PinSt) : (setPins s x).freeCtr = s.freeCtr := rfl

@[simp] theorem setFuses_pending (x : FuseSt) : (setFuses s x).pending = s.pending := rfl
@[simp] theorem setFuses_flds (x : FuseSt) : (setFuses s x).flds = s.flds := rfl
@[simp] theorem setFuses_hiLatch (x : FuseSt) : (setFuses s x).hiLatch = s.hiLatch := rfl
@[simp] theorem setFuses_frame (x : FuseSt) : (setFuses s x).frame = s.frame := rfl
@[simp] theorem setFuses_cells (x : FuseSt) : (setFuses s x).cells = s.cells := rfl
@[simp] theorem setFuses_mem (x : FuseSt) : (setFuses s x).mem = s.mem := rfl
@[simp] theorem setFuses_wgt (x : FuseSt) : (setFuses s x).wgt = s.wgt := rfl
@[simp] theorem setFuses_adm (x : FuseSt) : (setFuses s x).adm = s.adm := rfl
@[simp] theorem setFuses_out (x : FuseSt) : (setFuses s x).out = s.out := rfl
@[simp] theorem setFuses_links (x : FuseSt) : (setFuses s x).links = s.links := rfl
@[simp] theorem setFuses_span (x : FuseSt) : (setFuses s x).span = s.span := rfl
@[simp] theorem setFuses_pwr (x : FuseSt) : (setFuses s x).pwr = s.pwr := rfl
@[simp] theorem setFuses_modes (x : FuseSt) : (setFuses s x).modes = s.modes := rfl
@[simp] theorem setFuses_pins (x : FuseSt) : (setFuses s x).pins = s.pins := rfl
@[simp] theorem setFuses_fuses (x : FuseSt) : (setFuses s x).fuses = x := rfl
@[simp] theorem setFuses_nor (x : FuseSt) : (setFuses s x).nor = s.nor := rfl
@[simp] theorem setFuses_boot (x : FuseSt) : (setFuses s x).boot = s.boot := rfl
@[simp] theorem setFuses_irq (x : FuseSt) : (setFuses s x).irq = s.irq := rfl
@[simp] theorem setFuses_stw (x : FuseSt) : (setFuses s x).stw = s.stw := rfl
@[simp] theorem setFuses_spdm (x : FuseSt) : (setFuses s x).spdm = s.spdm := rfl
@[simp] theorem setFuses_stampCnt (x : FuseSt) : (setFuses s x).stampCnt = s.stampCnt := rfl
@[simp] theorem setFuses_events (x : FuseSt) : (setFuses s x).events = s.events := rfl
@[simp] theorem setFuses_freeCtr (x : FuseSt) : (setFuses s x).freeCtr = s.freeCtr := rfl

@[simp] theorem setReqs_pending (l : List Req) : (setReqs s l).pending = s.pending := rfl
@[simp] theorem setReqs_flds (l : List Req) : (setReqs s l).flds = s.flds := rfl
@[simp] theorem setReqs_hiLatch (l : List Req) : (setReqs s l).hiLatch = s.hiLatch := rfl
@[simp] theorem setReqs_frame (l : List Req) : (setReqs s l).frame = s.frame := rfl
@[simp] theorem setReqs_cells (l : List Req) : (setReqs s l).cells = s.cells := rfl
@[simp] theorem setReqs_mem (l : List Req) : (setReqs s l).mem = s.mem := rfl
@[simp] theorem setReqs_wgt (l : List Req) : (setReqs s l).wgt = s.wgt := rfl
@[simp] theorem setReqs_adm (l : List Req) : (setReqs s l).adm = { s.adm with reqs := l } := rfl
@[simp] theorem setReqs_out (l : List Req) : (setReqs s l).out = s.out := rfl
@[simp] theorem setReqs_links (l : List Req) : (setReqs s l).links = s.links := rfl
@[simp] theorem setReqs_span (l : List Req) : (setReqs s l).span = s.span := rfl
@[simp] theorem setReqs_pwr (l : List Req) : (setReqs s l).pwr = s.pwr := rfl
@[simp] theorem setReqs_modes (l : List Req) : (setReqs s l).modes = s.modes := rfl
@[simp] theorem setReqs_pins (l : List Req) : (setReqs s l).pins = s.pins := rfl
@[simp] theorem setReqs_fuses (l : List Req) : (setReqs s l).fuses = s.fuses := rfl
@[simp] theorem setReqs_nor (l : List Req) : (setReqs s l).nor = s.nor := rfl
@[simp] theorem setReqs_boot (l : List Req) : (setReqs s l).boot = s.boot := rfl
@[simp] theorem setReqs_irq (l : List Req) : (setReqs s l).irq = s.irq := rfl
@[simp] theorem setReqs_stw (l : List Req) : (setReqs s l).stw = s.stw := rfl
@[simp] theorem setReqs_spdm (l : List Req) : (setReqs s l).spdm = s.spdm := rfl
@[simp] theorem setReqs_stampCnt (l : List Req) : (setReqs s l).stampCnt = s.stampCnt := rfl
@[simp] theorem setReqs_events (l : List Req) : (setReqs s l).events = s.events := rfl
@[simp] theorem setReqs_freeCtr (l : List Req) : (setReqs s l).freeCtr = s.freeCtr := rfl

@[simp] theorem setRing_pending (r : Nat) (x : RingSt) : (setRing s r x).pending = s.pending := rfl
@[simp] theorem setRing_flds (r : Nat) (x : RingSt) : (setRing s r x).flds = s.flds := rfl
@[simp] theorem setRing_hiLatch (r : Nat) (x : RingSt) : (setRing s r x).hiLatch = s.hiLatch := rfl
@[simp] theorem setRing_frame (r : Nat) (x : RingSt) : (setRing s r x).frame = s.frame := rfl
@[simp] theorem setRing_cells (r : Nat) (x : RingSt) : (setRing s r x).cells = s.cells := rfl
@[simp] theorem setRing_mem (r : Nat) (x : RingSt) : (setRing s r x).mem = s.mem := rfl
@[simp] theorem setRing_wgt (r : Nat) (x : RingSt) : (setRing s r x).wgt = s.wgt := rfl
@[simp] theorem setRing_adm (r : Nat) (x : RingSt) : (setRing s r x).adm = { s.adm with rings := smapSet freshRing s.adm.rings r x } := rfl
@[simp] theorem setRing_out (r : Nat) (x : RingSt) : (setRing s r x).out = s.out := rfl
@[simp] theorem setRing_links (r : Nat) (x : RingSt) : (setRing s r x).links = s.links := rfl
@[simp] theorem setRing_span (r : Nat) (x : RingSt) : (setRing s r x).span = s.span := rfl
@[simp] theorem setRing_pwr (r : Nat) (x : RingSt) : (setRing s r x).pwr = s.pwr := rfl
@[simp] theorem setRing_modes (r : Nat) (x : RingSt) : (setRing s r x).modes = s.modes := rfl
@[simp] theorem setRing_pins (r : Nat) (x : RingSt) : (setRing s r x).pins = s.pins := rfl
@[simp] theorem setRing_fuses (r : Nat) (x : RingSt) : (setRing s r x).fuses = s.fuses := rfl
@[simp] theorem setRing_nor (r : Nat) (x : RingSt) : (setRing s r x).nor = s.nor := rfl
@[simp] theorem setRing_boot (r : Nat) (x : RingSt) : (setRing s r x).boot = s.boot := rfl
@[simp] theorem setRing_irq (r : Nat) (x : RingSt) : (setRing s r x).irq = s.irq := rfl
@[simp] theorem setRing_stw (r : Nat) (x : RingSt) : (setRing s r x).stw = s.stw := rfl
@[simp] theorem setRing_spdm (r : Nat) (x : RingSt) : (setRing s r x).spdm = s.spdm := rfl
@[simp] theorem setRing_stampCnt (r : Nat) (x : RingSt) : (setRing s r x).stampCnt = s.stampCnt := rfl
@[simp] theorem setRing_events (r : Nat) (x : RingSt) : (setRing s r x).events = s.events := rfl
@[simp] theorem setRing_freeCtr (r : Nat) (x : RingSt) : (setRing s r x).freeCtr = s.freeCtr := rfl

@[simp] theorem emit_pending (m : OutMsg) : (emit s m).pending = s.pending := rfl
@[simp] theorem emit_flds (m : OutMsg) : (emit s m).flds = s.flds := rfl
@[simp] theorem emit_hiLatch (m : OutMsg) : (emit s m).hiLatch = s.hiLatch := rfl
@[simp] theorem emit_frame (m : OutMsg) : (emit s m).frame = s.frame := rfl
@[simp] theorem emit_cells (m : OutMsg) : (emit s m).cells = s.cells := rfl
@[simp] theorem emit_mem (m : OutMsg) : (emit s m).mem = s.mem := rfl
@[simp] theorem emit_wgt (m : OutMsg) : (emit s m).wgt = s.wgt := rfl
@[simp] theorem emit_adm (m : OutMsg) : (emit s m).adm = s.adm := rfl
@[simp] theorem emit_out (m : OutMsg) : (emit s m).out = s.out ++ [m] := rfl
@[simp] theorem emit_links (m : OutMsg) : (emit s m).links = s.links := rfl
@[simp] theorem emit_span (m : OutMsg) : (emit s m).span = s.span := rfl
@[simp] theorem emit_pwr (m : OutMsg) : (emit s m).pwr = s.pwr := rfl
@[simp] theorem emit_modes (m : OutMsg) : (emit s m).modes = s.modes := rfl
@[simp] theorem emit_pins (m : OutMsg) : (emit s m).pins = s.pins := rfl
@[simp] theorem emit_fuses (m : OutMsg) : (emit s m).fuses = s.fuses := rfl
@[simp] theorem emit_nor (m : OutMsg) : (emit s m).nor = s.nor := rfl
@[simp] theorem emit_boot (m : OutMsg) : (emit s m).boot = s.boot := rfl
@[simp] theorem emit_irq (m : OutMsg) : (emit s m).irq = s.irq := rfl
@[simp] theorem emit_stw (m : OutMsg) : (emit s m).stw = s.stw := rfl
@[simp] theorem emit_spdm (m : OutMsg) : (emit s m).spdm = s.spdm := rfl
@[simp] theorem emit_stampCnt (m : OutMsg) : (emit s m).stampCnt = s.stampCnt := rfl
@[simp] theorem emit_events (m : OutMsg) : (emit s m).events = s.events := rfl
@[simp] theorem emit_freeCtr (m : OutMsg) : (emit s m).freeCtr = s.freeCtr := rfl

@[simp] theorem setStw_pending (x : StwSt) : (setStw s x).pending = s.pending := rfl
@[simp] theorem setStw_flds (x : StwSt) : (setStw s x).flds = s.flds := rfl
@[simp] theorem setStw_hiLatch (x : StwSt) : (setStw s x).hiLatch = s.hiLatch := rfl
@[simp] theorem setStw_frame (x : StwSt) : (setStw s x).frame = s.frame := rfl
@[simp] theorem setStw_cells (x : StwSt) : (setStw s x).cells = s.cells := rfl
@[simp] theorem setStw_mem (x : StwSt) : (setStw s x).mem = s.mem := rfl
@[simp] theorem setStw_wgt (x : StwSt) : (setStw s x).wgt = s.wgt := rfl
@[simp] theorem setStw_adm (x : StwSt) : (setStw s x).adm = s.adm := rfl
@[simp] theorem setStw_out (x : StwSt) : (setStw s x).out = s.out := rfl
@[simp] theorem setStw_links (x : StwSt) : (setStw s x).links = s.links := rfl
@[simp] theorem setStw_span (x : StwSt) : (setStw s x).span = s.span := rfl
@[simp] theorem setStw_pwr (x : StwSt) : (setStw s x).pwr = s.pwr := rfl
@[simp] theorem setStw_modes (x : StwSt) : (setStw s x).modes = s.modes := rfl
@[simp] theorem setStw_pins (x : StwSt) : (setStw s x).pins = s.pins := rfl
@[simp] theorem setStw_fuses (x : StwSt) : (setStw s x).fuses = s.fuses := rfl
@[simp] theorem setStw_nor (x : StwSt) : (setStw s x).nor = s.nor := rfl
@[simp] theorem setStw_boot (x : StwSt) : (setStw s x).boot = s.boot := rfl
@[simp] theorem setStw_irq (x : StwSt) : (setStw s x).irq = s.irq := rfl
@[simp] theorem setStw_stw (x : StwSt) : (setStw s x).stw = x := rfl
@[simp] theorem setStw_spdm (x : StwSt) : (setStw s x).spdm = s.spdm := rfl
@[simp] theorem setStw_stampCnt (x : StwSt) : (setStw s x).stampCnt = s.stampCnt := rfl
@[simp] theorem setStw_events (x : StwSt) : (setStw s x).events = s.events := rfl
@[simp] theorem setStw_freeCtr (x : StwSt) : (setStw s x).freeCtr = s.freeCtr := rfl

@[simp] theorem setIrq_pending (x : IrqSt) : (setIrq s x).pending = s.pending := rfl
@[simp] theorem setIrq_flds (x : IrqSt) : (setIrq s x).flds = s.flds := rfl
@[simp] theorem setIrq_hiLatch (x : IrqSt) : (setIrq s x).hiLatch = s.hiLatch := rfl
@[simp] theorem setIrq_frame (x : IrqSt) : (setIrq s x).frame = s.frame := rfl
@[simp] theorem setIrq_cells (x : IrqSt) : (setIrq s x).cells = s.cells := rfl
@[simp] theorem setIrq_mem (x : IrqSt) : (setIrq s x).mem = s.mem := rfl
@[simp] theorem setIrq_wgt (x : IrqSt) : (setIrq s x).wgt = s.wgt := rfl
@[simp] theorem setIrq_adm (x : IrqSt) : (setIrq s x).adm = s.adm := rfl
@[simp] theorem setIrq_out (x : IrqSt) : (setIrq s x).out = s.out := rfl
@[simp] theorem setIrq_links (x : IrqSt) : (setIrq s x).links = s.links := rfl
@[simp] theorem setIrq_span (x : IrqSt) : (setIrq s x).span = s.span := rfl
@[simp] theorem setIrq_pwr (x : IrqSt) : (setIrq s x).pwr = s.pwr := rfl
@[simp] theorem setIrq_modes (x : IrqSt) : (setIrq s x).modes = s.modes := rfl
@[simp] theorem setIrq_pins (x : IrqSt) : (setIrq s x).pins = s.pins := rfl
@[simp] theorem setIrq_fuses (x : IrqSt) : (setIrq s x).fuses = s.fuses := rfl
@[simp] theorem setIrq_nor (x : IrqSt) : (setIrq s x).nor = s.nor := rfl
@[simp] theorem setIrq_boot (x : IrqSt) : (setIrq s x).boot = s.boot := rfl
@[simp] theorem setIrq_irq (x : IrqSt) : (setIrq s x).irq = x := rfl
@[simp] theorem setIrq_stw (x : IrqSt) : (setIrq s x).stw = s.stw := rfl
@[simp] theorem setIrq_spdm (x : IrqSt) : (setIrq s x).spdm = s.spdm := rfl
@[simp] theorem setIrq_stampCnt (x : IrqSt) : (setIrq s x).stampCnt = s.stampCnt := rfl
@[simp] theorem setIrq_events (x : IrqSt) : (setIrq s x).events = s.events := rfl
@[simp] theorem setIrq_freeCtr (x : IrqSt) : (setIrq s x).freeCtr = s.freeCtr := rfl

@[simp] theorem setSpdm_pending (x : SpdmSt) : (setSpdm s x).pending = s.pending := rfl
@[simp] theorem setSpdm_flds (x : SpdmSt) : (setSpdm s x).flds = s.flds := rfl
@[simp] theorem setSpdm_hiLatch (x : SpdmSt) : (setSpdm s x).hiLatch = s.hiLatch := rfl
@[simp] theorem setSpdm_frame (x : SpdmSt) : (setSpdm s x).frame = s.frame := rfl
@[simp] theorem setSpdm_cells (x : SpdmSt) : (setSpdm s x).cells = s.cells := rfl
@[simp] theorem setSpdm_mem (x : SpdmSt) : (setSpdm s x).mem = s.mem := rfl
@[simp] theorem setSpdm_wgt (x : SpdmSt) : (setSpdm s x).wgt = s.wgt := rfl
@[simp] theorem setSpdm_adm (x : SpdmSt) : (setSpdm s x).adm = s.adm := rfl
@[simp] theorem setSpdm_out (x : SpdmSt) : (setSpdm s x).out = s.out := rfl
@[simp] theorem setSpdm_links (x : SpdmSt) : (setSpdm s x).links = s.links := rfl
@[simp] theorem setSpdm_span (x : SpdmSt) : (setSpdm s x).span = s.span := rfl
@[simp] theorem setSpdm_pwr (x : SpdmSt) : (setSpdm s x).pwr = s.pwr := rfl
@[simp] theorem setSpdm_modes (x : SpdmSt) : (setSpdm s x).modes = s.modes := rfl
@[simp] theorem setSpdm_pins (x : SpdmSt) : (setSpdm s x).pins = s.pins := rfl
@[simp] theorem setSpdm_fuses (x : SpdmSt) : (setSpdm s x).fuses = s.fuses := rfl
@[simp] theorem setSpdm_nor (x : SpdmSt) : (setSpdm s x).nor = s.nor := rfl
@[simp] theorem setSpdm_boot (x : SpdmSt) : (setSpdm s x).boot = s.boot := rfl
@[simp] theorem setSpdm_irq (x : SpdmSt) : (setSpdm s x).irq = s.irq := rfl
@[simp] theorem setSpdm_stw (x : SpdmSt) : (setSpdm s x).stw = s.stw := rfl
@[simp] theorem setSpdm_spdm (x : SpdmSt) : (setSpdm s x).spdm = x := rfl
@[simp] theorem setSpdm_stampCnt (x : SpdmSt) : (setSpdm s x).stampCnt = s.stampCnt := rfl
@[simp] theorem setSpdm_events (x : SpdmSt) : (setSpdm s x).events = s.events := rfl
@[simp] theorem setSpdm_freeCtr (x : SpdmSt) : (setSpdm s x).freeCtr = s.freeCtr := rfl

@[simp] theorem setWgt_pending (w : WgtSt) : (setWgt s w).pending = s.pending := rfl
@[simp] theorem setWgt_flds (w : WgtSt) : (setWgt s w).flds = s.flds := rfl
@[simp] theorem setWgt_hiLatch (w : WgtSt) : (setWgt s w).hiLatch = s.hiLatch := rfl
@[simp] theorem setWgt_frame (w : WgtSt) : (setWgt s w).frame = s.frame := rfl
@[simp] theorem setWgt_cells (w : WgtSt) : (setWgt s w).cells = s.cells := rfl
@[simp] theorem setWgt_mem (w : WgtSt) : (setWgt s w).mem = s.mem := rfl
@[simp] theorem setWgt_wgt (w : WgtSt) : (setWgt s w).wgt = w := rfl
@[simp] theorem setWgt_adm (w : WgtSt) : (setWgt s w).adm = s.adm := rfl
@[simp] theorem setWgt_out (w : WgtSt) : (setWgt s w).out = s.out := rfl
@[simp] theorem setWgt_links (w : WgtSt) : (setWgt s w).links = s.links := rfl
@[simp] theorem setWgt_span (w : WgtSt) : (setWgt s w).span = s.span := rfl
@[simp] theorem setWgt_pwr (w : WgtSt) : (setWgt s w).pwr = s.pwr := rfl
@[simp] theorem setWgt_modes (w : WgtSt) : (setWgt s w).modes = s.modes := rfl
@[simp] theorem setWgt_pins (w : WgtSt) : (setWgt s w).pins = s.pins := rfl
@[simp] theorem setWgt_fuses (w : WgtSt) : (setWgt s w).fuses = s.fuses := rfl
@[simp] theorem setWgt_nor (w : WgtSt) : (setWgt s w).nor = s.nor := rfl
@[simp] theorem setWgt_boot (w : WgtSt) : (setWgt s w).boot = s.boot := rfl
@[simp] theorem setWgt_irq (w : WgtSt) : (setWgt s w).irq = s.irq := rfl
@[simp] theorem setWgt_stw (w : WgtSt) : (setWgt s w).stw = s.stw := rfl
@[simp] theorem setWgt_spdm (w : WgtSt) : (setWgt s w).spdm = s.spdm := rfl
@[simp] theorem setWgt_stampCnt (w : WgtSt) : (setWgt s w).stampCnt = s.stampCnt := rfl
@[simp] theorem setWgt_events (w : WgtSt) : (setWgt s w).events = s.events := rfl
@[simp] theorem setWgt_freeCtr (w : WgtSt) : (setWgt s w).freeCtr = s.freeCtr := rfl

@[simp] theorem setCell_pending (n : Nat) (c : Cell) : (setCell s n c).pending = s.pending := rfl
@[simp] theorem setCell_flds (n : Nat) (c : Cell) : (setCell s n c).flds = s.flds := rfl
@[simp] theorem setCell_hiLatch (n : Nat) (c : Cell) : (setCell s n c).hiLatch = s.hiLatch := rfl
@[simp] theorem setCell_frame (n : Nat) (c : Cell) : (setCell s n c).frame = s.frame := rfl
@[simp] theorem setCell_cells (n : Nat) (c : Cell) : (setCell s n c).cells = smapSet (idleCell s) s.cells n c := rfl
@[simp] theorem setCell_mem (n : Nat) (c : Cell) : (setCell s n c).mem = s.mem := rfl
@[simp] theorem setCell_wgt (n : Nat) (c : Cell) : (setCell s n c).wgt = s.wgt := rfl
@[simp] theorem setCell_adm (n : Nat) (c : Cell) : (setCell s n c).adm = s.adm := rfl
@[simp] theorem setCell_out (n : Nat) (c : Cell) : (setCell s n c).out = s.out := rfl
@[simp] theorem setCell_links (n : Nat) (c : Cell) : (setCell s n c).links = s.links := rfl
@[simp] theorem setCell_span (n : Nat) (c : Cell) : (setCell s n c).span = s.span := rfl
@[simp] theorem setCell_pwr (n : Nat) (c : Cell) : (setCell s n c).pwr = s.pwr := rfl
@[simp] theorem setCell_modes (n : Nat) (c : Cell) : (setCell s n c).modes = s.modes := rfl
@[simp] theorem setCell_pins (n : Nat) (c : Cell) : (setCell s n c).pins = s.pins := rfl
@[simp] theorem setCell_fuses (n : Nat) (c : Cell) : (setCell s n c).fuses = s.fuses := rfl
@[simp] theorem setCell_nor (n : Nat) (c : Cell) : (setCell s n c).nor = s.nor := rfl
@[simp] theorem setCell_boot (n : Nat) (c : Cell) : (setCell s n c).boot = s.boot := rfl
@[simp] theorem setCell_irq (n : Nat) (c : Cell) : (setCell s n c).irq = s.irq := rfl
@[simp] theorem setCell_stw (n : Nat) (c : Cell) : (setCell s n c).stw = s.stw := rfl
@[simp] theorem setCell_spdm (n : Nat) (c : Cell) : (setCell s n c).spdm = s.spdm := rfl
@[simp] theorem setCell_stampCnt (n : Nat) (c : Cell) : (setCell s n c).stampCnt = s.stampCnt := rfl
@[simp] theorem setCell_events (n : Nat) (c : Cell) : (setCell s n c).events = s.events := rfl
@[simp] theorem setCell_freeCtr (n : Nat) (c : Cell) : (setCell s n c).freeCtr = s.freeCtr := rfl

@[simp] theorem dropHi_pending (off : Nat) : (dropHi s off).pending = s.pending := rfl
@[simp] theorem dropHi_flds (off : Nat) : (dropHi s off).flds = s.flds := rfl
@[simp] theorem dropHi_hiLatch (off : Nat) : (dropHi s off).hiLatch = s.hiLatch.filter (fun h => h.1 != off) := rfl
@[simp] theorem dropHi_frame (off : Nat) : (dropHi s off).frame = s.frame := rfl
@[simp] theorem dropHi_cells (off : Nat) : (dropHi s off).cells = s.cells := rfl
@[simp] theorem dropHi_mem (off : Nat) : (dropHi s off).mem = s.mem := rfl
@[simp] theorem dropHi_wgt (off : Nat) : (dropHi s off).wgt = s.wgt := rfl
@[simp] theorem dropHi_adm (off : Nat) : (dropHi s off).adm = s.adm := rfl
@[simp] theorem dropHi_out (off : Nat) : (dropHi s off).out = s.out := rfl
@[simp] theorem dropHi_links (off : Nat) : (dropHi s off).links = s.links := rfl
@[simp] theorem dropHi_span (off : Nat) : (dropHi s off).span = s.span := rfl
@[simp] theorem dropHi_pwr (off : Nat) : (dropHi s off).pwr = s.pwr := rfl
@[simp] theorem dropHi_modes (off : Nat) : (dropHi s off).modes = s.modes := rfl
@[simp] theorem dropHi_pins (off : Nat) : (dropHi s off).pins = s.pins := rfl
@[simp] theorem dropHi_fuses (off : Nat) : (dropHi s off).fuses = s.fuses := rfl
@[simp] theorem dropHi_nor (off : Nat) : (dropHi s off).nor = s.nor := rfl
@[simp] theorem dropHi_boot (off : Nat) : (dropHi s off).boot = s.boot := rfl
@[simp] theorem dropHi_irq (off : Nat) : (dropHi s off).irq = s.irq := rfl
@[simp] theorem dropHi_stw (off : Nat) : (dropHi s off).stw = s.stw := rfl
@[simp] theorem dropHi_spdm (off : Nat) : (dropHi s off).spdm = s.spdm := rfl
@[simp] theorem dropHi_stampCnt (off : Nat) : (dropHi s off).stampCnt = s.stampCnt := rfl
@[simp] theorem dropHi_events (off : Nat) : (dropHi s off).events = s.events := rfl
@[simp] theorem dropHi_freeCtr (off : Nat) : (dropHi s off).freeCtr = s.freeCtr := rfl

@[simp] theorem latchHi_pending (hi : Nat) : (latchHi s hi).pending = s.pending := rfl
@[simp] theorem latchHi_flds (hi : Nat) : (latchHi s hi).flds = s.flds := rfl
@[simp] theorem latchHi_hiLatch (hi : Nat) : (latchHi s hi).hiLatch = (hi, regWord s hi) :: s.hiLatch.filter (fun h => h.1 != hi) := rfl
@[simp] theorem latchHi_frame (hi : Nat) : (latchHi s hi).frame = s.frame := rfl
@[simp] theorem latchHi_cells (hi : Nat) : (latchHi s hi).cells = s.cells := rfl
@[simp] theorem latchHi_mem (hi : Nat) : (latchHi s hi).mem = s.mem := rfl
@[simp] theorem latchHi_wgt (hi : Nat) : (latchHi s hi).wgt = s.wgt := rfl
@[simp] theorem latchHi_adm (hi : Nat) : (latchHi s hi).adm = s.adm := rfl
@[simp] theorem latchHi_out (hi : Nat) : (latchHi s hi).out = s.out := rfl
@[simp] theorem latchHi_links (hi : Nat) : (latchHi s hi).links = s.links := rfl
@[simp] theorem latchHi_span (hi : Nat) : (latchHi s hi).span = s.span := rfl
@[simp] theorem latchHi_pwr (hi : Nat) : (latchHi s hi).pwr = s.pwr := rfl
@[simp] theorem latchHi_modes (hi : Nat) : (latchHi s hi).modes = s.modes := rfl
@[simp] theorem latchHi_pins (hi : Nat) : (latchHi s hi).pins = s.pins := rfl
@[simp] theorem latchHi_fuses (hi : Nat) : (latchHi s hi).fuses = s.fuses := rfl
@[simp] theorem latchHi_nor (hi : Nat) : (latchHi s hi).nor = s.nor := rfl
@[simp] theorem latchHi_boot (hi : Nat) : (latchHi s hi).boot = s.boot := rfl
@[simp] theorem latchHi_irq (hi : Nat) : (latchHi s hi).irq = s.irq := rfl
@[simp] theorem latchHi_stw (hi : Nat) : (latchHi s hi).stw = s.stw := rfl
@[simp] theorem latchHi_spdm (hi : Nat) : (latchHi s hi).spdm = s.spdm := rfl
@[simp] theorem latchHi_stampCnt (hi : Nat) : (latchHi s hi).stampCnt = s.stampCnt := rfl
@[simp] theorem latchHi_events (hi : Nat) : (latchHi s hi).events = s.events := rfl
@[simp] theorem latchHi_freeCtr (hi : Nat) : (latchHi s hi).freeCtr = s.freeCtr := rfl

@[simp] theorem stampEvent_pending (src : Nat) (k : EventKind) : (stampEvent s src k).pending = s.pending := rfl
@[simp] theorem stampEvent_flds (src : Nat) (k : EventKind) : (stampEvent s src k).flds = s.flds := rfl
@[simp] theorem stampEvent_hiLatch (src : Nat) (k : EventKind) : (stampEvent s src k).hiLatch = s.hiLatch := rfl
@[simp] theorem stampEvent_frame (src : Nat) (k : EventKind) : (stampEvent s src k).frame = s.frame := rfl
@[simp] theorem stampEvent_cells (src : Nat) (k : EventKind) : (stampEvent s src k).cells = s.cells := rfl
@[simp] theorem stampEvent_mem (src : Nat) (k : EventKind) : (stampEvent s src k).mem = s.mem := rfl
@[simp] theorem stampEvent_wgt (src : Nat) (k : EventKind) : (stampEvent s src k).wgt = s.wgt := rfl
@[simp] theorem stampEvent_adm (src : Nat) (k : EventKind) : (stampEvent s src k).adm = s.adm := rfl
@[simp] theorem stampEvent_out (src : Nat) (k : EventKind) : (stampEvent s src k).out = s.out := rfl
@[simp] theorem stampEvent_links (src : Nat) (k : EventKind) : (stampEvent s src k).links = s.links := rfl
@[simp] theorem stampEvent_span (src : Nat) (k : EventKind) : (stampEvent s src k).span = s.span := rfl
@[simp] theorem stampEvent_pwr (src : Nat) (k : EventKind) : (stampEvent s src k).pwr = s.pwr := rfl
@[simp] theorem stampEvent_modes (src : Nat) (k : EventKind) : (stampEvent s src k).modes = s.modes := rfl
@[simp] theorem stampEvent_pins (src : Nat) (k : EventKind) : (stampEvent s src k).pins = s.pins := rfl
@[simp] theorem stampEvent_fuses (src : Nat) (k : EventKind) : (stampEvent s src k).fuses = s.fuses := rfl
@[simp] theorem stampEvent_nor (src : Nat) (k : EventKind) : (stampEvent s src k).nor = s.nor := rfl
@[simp] theorem stampEvent_boot (src : Nat) (k : EventKind) : (stampEvent s src k).boot = s.boot := rfl
@[simp] theorem stampEvent_irq (src : Nat) (k : EventKind) : (stampEvent s src k).irq = s.irq := rfl
@[simp] theorem stampEvent_stw (src : Nat) (k : EventKind) : (stampEvent s src k).stw = s.stw := rfl
@[simp] theorem stampEvent_spdm (src : Nat) (k : EventKind) : (stampEvent s src k).spdm = s.spdm := rfl
@[simp] theorem stampEvent_stampCnt (src : Nat) (k : EventKind) : (stampEvent s src k).stampCnt = smapSet zeroNat s.stampCnt src (smapGet zeroNat s.stampCnt src + 1) := rfl
@[simp] theorem stampEvent_events (src : Nat) (k : EventKind) : (stampEvent s src k).events = s.events ++ [(stampNow s src, k)] := rfl
@[simp] theorem stampEvent_freeCtr (src : Nat) (k : EventKind) : (stampEvent s src k).freeCtr = s.freeCtr := rfl

@[simp] theorem withPending_flds (l : List Instr) : ({ s with pending := l } : State).flds = s.flds := rfl
@[simp] theorem withPending_hiLatch (l : List Instr) : ({ s with pending := l } : State).hiLatch = s.hiLatch := rfl
@[simp] theorem withPending_frame (l : List Instr) : ({ s with pending := l } : State).frame = s.frame := rfl
@[simp] theorem withPending_cells (l : List Instr) : ({ s with pending := l } : State).cells = s.cells := rfl
@[simp] theorem withPending_mem (l : List Instr) : ({ s with pending := l } : State).mem = s.mem := rfl
@[simp] theorem withPending_wgt (l : List Instr) : ({ s with pending := l } : State).wgt = s.wgt := rfl
@[simp] theorem withPending_adm (l : List Instr) : ({ s with pending := l } : State).adm = s.adm := rfl
@[simp] theorem withPending_out (l : List Instr) : ({ s with pending := l } : State).out = s.out := rfl
@[simp] theorem withPending_links (l : List Instr) : ({ s with pending := l } : State).links = s.links := rfl
@[simp] theorem withPending_span (l : List Instr) : ({ s with pending := l } : State).span = s.span := rfl
@[simp] theorem withPending_pwr (l : List Instr) : ({ s with pending := l } : State).pwr = s.pwr := rfl
@[simp] theorem withPending_modes (l : List Instr) : ({ s with pending := l } : State).modes = s.modes := rfl
@[simp] theorem withPending_pins (l : List Instr) : ({ s with pending := l } : State).pins = s.pins := rfl
@[simp] theorem withPending_fuses (l : List Instr) : ({ s with pending := l } : State).fuses = s.fuses := rfl
@[simp] theorem withPending_nor (l : List Instr) : ({ s with pending := l } : State).nor = s.nor := rfl
@[simp] theorem withPending_boot (l : List Instr) : ({ s with pending := l } : State).boot = s.boot := rfl
@[simp] theorem withPending_irq (l : List Instr) : ({ s with pending := l } : State).irq = s.irq := rfl
@[simp] theorem withPending_stw (l : List Instr) : ({ s with pending := l } : State).stw = s.stw := rfl
@[simp] theorem withPending_spdm (l : List Instr) : ({ s with pending := l } : State).spdm = s.spdm := rfl
@[simp] theorem withPending_stampCnt (l : List Instr) : ({ s with pending := l } : State).stampCnt = s.stampCnt := rfl
@[simp] theorem withPending_events (l : List Instr) : ({ s with pending := l } : State).events = s.events := rfl
@[simp] theorem withPending_freeCtr (l : List Instr) : ({ s with pending := l } : State).freeCtr = s.freeCtr := rfl

end Sys2Proof.Laws
end

