-- ==== Sys2Proof/Laws/Ops.lean ====
section
/-! SUPPORT. What the register-field operations do: the field written, every other field, and the canonical form. -/
namespace Sys2Proof.Laws
open Sys2Proof.Machine

/-- A field just written reads as the value cut to its width. -/
theorem getF_setF_same (s : State) (f : Fld) (v : Nat) (h : smapSorted s.flds = true) : getF (setF s f v) f = v % 2 ^ f.width :=
  smapGet_set_same fldReset s.flds f.key _ h

/-- Every other field reads as before. -/
theorem getF_setF_other (s : State) (f g : Fld) (v : Nat) (h : g.key ≠ f.key) : getF (setF s f v) g = getF s g :=
  smapGet_set_other fldReset s.flds f.key g.key _ h

/-- Fields depend on the register fields alone. -/
theorem getF_congr {s t : State} (h : t.flds = s.flds) (f : Fld) : getF t f = getF s f := by unfold getF; rw [h]

theorem setF_sorted (s : State) (f : Fld) (v : Nat) (h : smapSorted s.flds = true) : smapSorted (setF s f v).flds = true := by
  rw [setF_flds]
  unfold smapSet
  split
  · exact smapSorted_erase s.flds f.key h
  · exact smapSorted_put s.flds f.key _ h

/-- The sorted form through an update of the list itself. -/
@[simp] theorem smapSorted_set_fields (m : List (Nat × Nat)) (k v : Nat) (h : smapSorted m = true) : smapSorted (smapSet fldReset m k v) = true := by
  unfold smapSet
  split
  · exact smapSorted_erase m k h
  · exact smapSorted_put m k _ h

/-- Writing a field keeps the canonical form. -/
theorem setF_canonical (s : State) (f : Fld) (v : Nat) (h : smapWf fldReset s.flds = true) : smapWf fldReset (setF s f v).flds = true := by
  rw [setF_flds]
  exact smapWf_set _ _ h

theorem isSet_raise (s : State) (f : Fld) (h : smapSorted s.flds = true) (w : 0 < f.width) : isSet (raise s f) f = true := by
  have : 1 % 2 ^ f.width = 1 := Nat.mod_eq_of_lt (Nat.one_lt_two_pow (by omega))
  simp [isSet, raise, getF_setF_same s f 1 h, this]

theorem isSet_lower (s : State) (f : Fld) (h : smapSorted s.flds = true) : isSet (lower s f) f = false := by
  simp [isSet, lower, getF_setF_same s f 0 h]

/-- A counter saturates. -/
theorem satAdd_le (w x n : Nat) (h : x < 2 ^ w) : satAdd w x n < 2 ^ w := by
  unfold satAdd
  omega

end Sys2Proof.Laws
end

