-- ==== Sys2Proof/WellFormed.lean ====
section
/-! DEFINITION. Well-formed commands: operands within what the spec's numbers, fields and payloads can hold. A command that is not so is no
event of the hardware. -/
namespace Sys2Proof
open Sys2Proof.Machine

/-- A steward of the module: 0 to 3 (R488). -/
def stewardOk (n : Nat) : Bool := decide (n < 4)

def requesterOk : Requester → Bool
  | .steward n => stewardOk n
  | _ => true

/-- An offset in the 16 MiB control window (R19). -/
def offsetOk (off : Nat) : Bool := decide (off < 0x1000000)

/-- Access sizes of the bus. -/
def sizeOk (n : Nat) : Bool := n == 1 || n == 2 || n == 4 || n == 8

/-- A value of `n` bytes. -/
def valueOk (n v : Nat) : Bool := decide (v < 256 ^ n)

/-- 1 to 32 words of 4 B (R341). -/
def boardOpOk : BoardOp → Bool
  | .read n => decide (1 ≤ n) && decide (n ≤ 32)
  | .write d => decide (1 ≤ d.length) && decide (d.length ≤ 32) && d.all (valueOk 4)

def portOk (p : Nat) : Bool := decide (p < 16)
def laneOk (l : Nat) : Bool := decide (l < 8)
def memberOk (n : Nat) : Bool := decide (n < 1024)
def ringOk (r : Nat) : Bool := decide (r < 64)
def driveOk (c : Nat) : Bool := decide (c < 16)

/-- The symbol errors of a line: 18 symbols in each of 16 dies (R237). -/
def lineErrsOk (l : List Nat) : Bool := l.length == 16 && l.all (fun e => decide (e ≤ 18))
def sourceOk (n : Nat) : Bool := decide (n < 256)
def epochOk (model epoch : Nat) : Bool := decide (model < 2 ^ 32) && decide (epoch < 65536)

/-- A control message that its 64 bytes can spell (R355, R356). -/
def ctrlOk (m : CtrlMsg) : Bool :=
  decide (1 ≤ m.msg) && decide (m.msg ≤ 12) && decide (m.from_ < 65536) && decide (m.to_ < 65536) && decide (m.tick < 2 ^ 48) && decide (m.arg < 2 ^ 256)

/-- A slot of a codeword pair; the first carries the 40-bit pair header and the two codewords' counts (R315, R317). -/
def slotOk (x : FlitSlot) : Bool :=
  laneOk x.lane && decide (x.slot < 5) && decide (x.header < 2 ^ 40) && decide (x.bytes.length = 256) && x.errs.all (fun e => decide (e ≤ 544)) &&
  decide (x.errs.length = if x.slot = 0 then 2 else 0)

/-- What the training of 8 lanes measures. -/
def trainOk (r : TrainResult) : Bool := decide (r.lanes.length = 8) && r.lanes.all (fun x => decide (x.bad ≤ x.words))

/-- A descriptor of 128 bytes (R387). -/
def descOk (x : DescRead) : Bool := decide (x.bytes.length = 128)

/-- A piece, and the channel and port that carry it (R364). -/
def loadStepOk : LoadStep → Bool
  | .send port chan bytes => portOk port && decide (chan < 65536) && decide (bytes.length ≤ 15859696)
  | .staged chan => decide (chan < 65536)

/-- A monitor that exists (R434 to R436). -/
def readingOk : Reading → Bool
  | .cluster c t => decide (c < 64) && decide (t < 4096)
  | .ports e w => decide (e < 4096) && decide (w < 4096)
  | .aon t => decide (t < 4096)
  | .near n c => decide (n < 8) && decide (c < 256)
  | .volts v mv => decide (v < 32) && decide (mv < 4096)
  | .process d m _ => decide (d < 3) && decide (m < 8)

/-- A mailbox request: a SEQ of one byte and arguments that LENGTH can give (R492). -/
def mboxOk (q : MboxReq) : Bool := decide (q.vendor < 65536) && decide (8 ≤ q.body.length) && decide (q.body.length < 65544)

/-- An SPDM request: two parameter bytes (R482). -/
def spdmOk (q : SpdmReq) : Bool := decide (q.p1 < 256) && decide (q.p2 < 256)

/-- Whether a command is well-formed. -/
def Instr.wellFormed : Instr → Bool
  | .registerWrite r off size v => requesterOk r && offsetOk off && sizeOk size && valueOk size v.1 && valueOk size v.2
  | .loRegisterRead r off size => requesterOk r && offsetOk off && sizeOk size
  | .tickCapture => true
  | .boardAccess r src addr op => requesterOk r && decide (src < 8) && decide (addr < 2 ^ 48) && boardOpOk op
  | .boardRequestTimeout p => portOk p
  | .tick => true
  | .periodChange => true
  | .scheduleCycle _ => true
  | .ingressShutterClose => true
  | .drainSample _ _ => true
  | .drainVerdict => true
  | .drainHoldTimeout => true
  | .emptyFrameFlip => true
  | .frameNaming _ => true
  | .casementLoadDone _ => true
  | .paneLoadDone => true
  | .checkOnlyPass model epoch _ _ => epochOk model epoch
  | .modeRequest target r => decide (target < 8) && requesterOk r
  | .modeChangeApply => true
  | .stretchReq m => ctrlOk m
  | .stretchGrant m => ctrlOk m
  | .frameReport m => ctrlOk m
  | .faultNotice m => ctrlOk m
  | .decision m => ctrlOk m
  | .alignReport m => ctrlOk m
  | .alignGraceExpiry ord => memberOk ord
  | .memberReportMissing ord => memberOk ord
  | .linkLost m => ctrlOk m
  | .leave m => ctrlOk m
  | .memberLost m => ctrlOk m
  | .selfIsolation => true
  | .announce m => ctrlOk m
  | .announceApply subject => decide (1 ≤ subject) && decide (subject ≤ 5)
  | .loadReport m => ctrlOk m
  | .takeover m => ctrlOk m
  | .masterLossTimeout => true
  | .takeoverTimeout => true
  | .spanReceiveComplete ref => decide (ref < 65536)
  | .syncExchange p => portOk p
  | .syncReceive p _ _ => portOk p
  | .roundTransmit p => portOk p
  | .flitReceive p x => portOk p && slotOk x
  | .replayTimeout p => portOk p
  | .nakResendTimeout p => portOk p
  | .laneDrop p l cause => portOk p && laneOk l && decide (1 ≤ cause) && decide (cause ≤ 4)
  | .portLeaveUp p _ => portOk p
  | .retrainComplete p r => portOk p && trainOk r
  | .retrainTimeout p => portOk p
  | .downRetry p => portOk p
  | .linkTraining p r => portOk p && trainOk r
  | .trainingTimeout p => portOk p
  | .lossBase p => portOk p
  | .lossEstimateUpdate p l est => portOk p && laneOk l && decide (est < 1024)
  | .linkRetrainCmd p => portOk p
  | .linkTestEnter p => portOk p
  | .linkTestLeave p => portOk p
  | .linkCountClear p _ _ _ => portOk p
  | .eyeScanStart p l => portOk p && laneOk l
  | .eyeScanDone p l _ => portOk p && laneOk l
  | .run x => descOk x
  | .close x => descOk x
  | .subDoorbell r tail => ringOk r && decide (tail < 65536)
  | .ringEnable r v => ringOk r && bitOf v 0
  | .ringDisable r v => ringOk r && !bitOf v 0
  | .rcptHeadWrite r head _ => ringOk r && decide (head < 65536)
  | .cmplHeadWrite r head _ => ringOk r && decide (head < 65536)
  | .retireWrite _ _ => true
  | .recover => true
  | .recoveryComplete _ _ => true
  | .completionRecord _ _ => true
  | .fetchComplete model epoch => epochOk model epoch
  | .shardWritten model epoch k _ => epochOk model epoch && decide (k < 65536)
  | .digestComplete model epoch k => epochOk model epoch && decide (k < 65536)
  | .fetchBoundExpiry model epoch => epochOk model epoch
  | .storeReadComplete ctrl _ model epoch _ => driveOk ctrl && epochOk model epoch
  | .storeReadTimeout ctrl _ model epoch => driveOk ctrl && epochOk model epoch
  | .storeControllerDrop ctrl => driveOk ctrl
  | .logPagePoll => true
  | .nearReadUncorrectable n _ errs _ => decide (n < 8) && lineErrsOk errs
  | .nearStackLoss n => decide (n < 8)
  | .bulkSideLoss side => decide (side < 2)
  | .patrolScrub _ _ => true
  | .ingest _ => true
  | .retire => true
  | .switch _ => true
  | .stage => true
  | .unstage => true
  | .query => true
  | .wgtCmdEnd => true
  | .spanLoad x => loadStepOk x
  | .digestScrubTile tile model epoch k _ => stewardOk tile.1 && decide (tile.2 < 2 ^ 20) && epochOk model epoch && decide (k < 65536)
  | .ejectWarning => true
  | .ejectFinish => true
  | .pinLatchEdge _ => true
  | .wakeAlarm => true
  | .louvreChange level => decide (level < 4)
  | .dormantRequest r => requesterOk r
  | .estimatorUpdate _ => true
  | .powerMeasurement _ _ => true
  | .capSlewStep => true
  | .railReading r _ _ => decide (r < 16)
  | .opRampStep _ => true
  | .droop v => decide (v < 32)
  | .droopEnd _ => true
  | .throttleStep => true
  | .throttleReleaseStep => true
  | .thermalTrip => true
  | .regulatorPhaseFault n => decide (n < 24)
  | .supplyLow => true
  | .supplyFail => true
  | .auxPowerLoss => true
  | .auxPowerOn => true
  | .mainPowerOn => true
  | .railStartFail => true
  | .railOutOfRegulation r => decide (r < 16)
  | .sysRstN _ => true
  | .perstN _ => true
  | .start => true
  | .bootStepComplete _ => true
  | .bootStepFail cause => decide (1 ≤ cause) && decide (cause < 15)
  | .bootRetryReset => true
  | .bootCtlRestart r => requesterOk r
  | .clearExcl r => requesterOk r
  | .bootUpdStart r => requesterOk r
  | .imageUpdateDone _ _ => true
  | .watchdogExpiry n _ => stewardOk n
  | .columnRetirement => true
  | .batchOpen kind count => decide (1 ≤ kind) && decide (kind < 4) && decide (1 ≤ count) && decide (count ≤ 1048576)
  | .ticketRead n => stewardOk n
  | .ticketPeek r => requesterOk r
  | .tileCommit n t => stewardOk n && decide (t < 2 ^ 20)
  | .irqFilterChange n _ => sourceOk n
  | .irqPendSet r k v => requesterOk r && decide (k < 8) && decide (v < 2 ^ 32)
  | .irqPendClr r k v => requesterOk r && decide (k < 8) && decide (v < 2 ^ 32)
  | .claim t => decide (t < 4)
  | .complete t n => decide (t < 4) && sourceOk n.1
  | .msixSend => true
  | .hostEoi n => sourceOk n
  | .moderationExpiry t => decide (t < 5)
  | .msixMaskWrite v _ => decide (v.getD 0 < 256)
  | .regRead q => mboxOk q
  | .regWrite q => mboxOk q
  | .cap q => mboxOk q
  | .retireCol q => mboxOk q
  | .tallyRead q => mboxOk q
  | .tallyClear q => mboxOk q
  | .lcRequest q => mboxOk q
  | .debugToken q => mboxOk q
  | .restart q => mboxOk q
  | .imageUpdate q => mboxOk q
  | .wake q => mboxOk q
  | .setEndpointId op eid => decide (op < 256) && decide (eid < 256)
  | .getEndpointId => true
  | .getMctpVersionSupport type => decide (type < 256)
  | .getMessageTypeSupport => true
  | .getCertificate q off len => spdmOk q && decide (off < 65536) && decide (len < 65536)
  | .challenge q => spdmOk q
  | .getMeasurements q => spdmOk q
  | .keyExchange q => spdmOk q
  | .heartbeat q => spdmOk q
  | .keyUpdate q => spdmOk q
  | .telClear _ _ _ => true
  | .decompEngineFail n => decide (n < 16)
  | .bulkReadUncorrectable side _ word errs => decide (side < 2) && decide (word.1 < 2) && decide (word.2 < 2) && lineErrsOk errs
  | .monitorUpdate r => readingOk r
  | .prbsCheckerLock p l bits rx => portOk p && laneOk l && decide (bits % 2 = 0) && decide (rx < 2 ^ bits)
  | .stewardRestart n => stewardOk n
  | .entropyHealthTestFail => true
  | .cycleInFrameSaturation => true
  | .getVersion q => spdmOk q
  | .getCapabilities q => spdmOk q
  | .negotiateAlgorithms q => spdmOk q
  | .getDigests q => spdmOk q
  | .finish q _ => spdmOk q
  | .endSession q => spdmOk q
  | .heartbeatExpiry _ => true

end Sys2Proof
end

