-- ==== Sys2Proof/Tests/Slice0.lean ====
section
/-! SUPPORT. Tests: ill-formed commands that each check of well-formedness refuses, worked examples of the spec, and, for every statement with
hypotheses, a state and operands that meet them clause by clause. Each theorem is checked where it stands, one after the other. -/
set_option Elab.async false
namespace Sys2Proof.Tests
open Sys2Proof Sys2Proof.Machine

/-- A state with some fields set. -/
def st (l : List (Fld × Nat)) (s : State := {}) : State := l.foldl (fun s x => setF s x.1 x.2) s

/-- A module in READY and maintenance mode, its stewards up and its window served. -/
def up : State := st [(F.BOOT_STAT_READY, 1), (F.BOOT_STAT_STEP, 10), (F.DEV_CAP1_STEWARD_UP, 0xF), (F.CFG_MODE, 2)] { boot := { phase := .ready } }

/-- A span of three: its tick master, and the member that is its deputy. -/
def master : State := st [(F.SPAN_STAT_IN_SPAN, 1), (F.SPAN_ID_SIZE, 3), (F.SPAN_ROLES_DEPUTY, 1), (F.SPAN_TREE_CHILDREN, 6), (F.TICK_STAT_RUNNING, 1),
  (F.TICK_NOW, 9), (F.TICK_PERIOD_PERIOD_US, 1000), (F.TICK_PERIOD_NEXT_US, 1000), (F.TICK_LAST, 5000000), (F.TICK_NEXT, 6000000), (F.TICK_DT, 5400000),
  (F.TICK_STRETCH_CFG_MAX_US, 500), (F.TICK_STRETCH_CFG_CUTOFF_US, 100)]
def member : State := st [(F.SPAN_ID_ORD, 1), (F.SPAN_TREE_CHILDREN, 8), (F.SPAN_TREE_PARENT_PORT, 2)] master

/-- A control message. -/
def msg (n from_ tick arg : Nat) : CtrlMsg := { msg := n, from_ := from_, to_ := 0xFFFE, tick := tick, arg := arg }

/-- A mailbox request, as its bytes stand in the message. -/
def mreq (session : Option Nat) (command : Nat) (args : List Byte) : MboxReq :=
  { session := session, body := leBytes command 1 ++ leBytes 255 1 ++ leBytes args.length 2 ++ leBytes 0 4 ++ args }

/-- A directory entry in way `w` of its model's set. -/
def put (w : Nat) (e : DirEntry) (m : MemSt) : MemSt := { m with dir := smapSet noEntry m.dir (8 * dirSet e.modelId + w) { e with valid := true } }

/-- A compressed shard: one block that is stored as it is. -/
def stored : List Byte := [87#8, 89#8, 0#8, 0#8, 4#8, 0#8, 0#8, 0#8, 4#8, 0#8, 0#8, 0#8, 205#8, 251#8, 60#8, 182#8, 1#8, 2#8, 3#8, 4#8]

/-- The image of an epoch with two shards: manifest, shard 0 at 4,096, shard 1 at 8,192. -/
def shard0 : List Byte := leBytes 4789441860458315473953918230704115701889277342464573478869101285154297345358306107603190929445583553262489834641751 48 ++ List.replicate 4048 0#8

def shard1 : List Byte := leBytes 9734007343927426590788935027584882924487519133268080511709671437843956548056129492592836350960851811289102700009815 48

def manifest : List Byte := leBytes 194945683927037229904494028331651893047602424818820208601708444216597963113902310706631736512028221790221792775531673549993308305834362865615147086638774792354626873160972478926637623546967712910266856954792243866127148893718401993084606807633999975759622232980430578258273285143116277860792769213467732951071736281246929392108892485080296121328798670580299464033122613721438970367152727953518120535740782396176227899222826604338258443129064640254573941243165605187885650242810088616546308080694988899225302049159824484299582294349 224 ++ List.replicate 3872 0#8

def image : List Byte := manifest ++ (shard0 ++ shard1)

/-- A plan with one model, one client list and a frame for any model. -/
def onePlan : ServicePlan := { cycle := 1, horizon := 4, stdF := 5, firmF := 5, frames := [{}], models := [{ modelId := 9, qmax := 1 }], lists := [[0]] }

/-- A descriptor of client 7 for model 9 and stream 3. -/
def desc (op : Nat) : List Byte := leBytes op 2 ++ leBytes 7 2 ++ leBytes 9 4 ++ leBytes 3 4 ++ List.replicate 116 0#8

/-- What the image's manifest says. -/
def imageManifest : Manifest :=
  { ep := { model := 1, epoch := 2, shards := [{ ulen := 256, clen := 272, crc := 1905128407 }, { side := 1, ulen := 32, clen := 48, crc := 4138075875 }],
            objects := [{ kind := 1, len := 256, configId := 3 }, { kind := 2, shard := 1, len := 32, configId := 3 }] },
    activate := true, offs := [4096, 8192] }

theorem le_length (n k : Nat) : (leBytes n k).length = k := by induction k generalizing n with
  | zero => rfl
  | succ k ih => rw [leBytes, List.length_cons, ih]

theorem read_after (a b : List Byte) (n o k : Nat) (h : a.length = n) : bytesAt (listReader (a ++ b)) (n + o) k = bytesAt (listReader b) o k := by
  subst h
  simp [bytesAt, listReader, Nat.add_assoc, List.getElem?_append_right]

theorem image_shard0 : bytesAt (listReader image) 4096 272 = [87, 89, 0, 0, 0, 1, 0, 0, 0, 1, 0, 0, 215, 243, 141, 113, 0, 1, 2, 3, 4, 5, 6, 7, 8, 9, 10, 11, 12, 13, 14, 15, 16, 17, 18, 19, 20, 21, 22, 23, 24, 25, 26, 27, 28, 29, 30, 31] ++ List.replicate 224 0 :=
  (read_after manifest (shard0 ++ shard1) 4096 0 272 (by rw [manifest, List.length_append, le_length, List.length_replicate])).trans (by decide +kernel)

theorem image_shard1 : bytesAt (listReader image) 8192 48 = [87, 89, 0, 0, 32, 0, 0, 0, 32, 0, 0, 0, 227, 6, 166, 246, 32, 33, 34, 35, 36, 37, 38, 39, 40, 41, 42, 43, 44, 45, 46, 47, 48, 49, 50, 51, 52, 53, 54, 55, 56, 57, 58, 59, 60, 61, 62, 63] :=
  ((read_after manifest (shard0 ++ shard1) 4096 4096 48 (by rw [manifest, List.length_append, le_length, List.length_replicate])).trans
    (read_after shard0 shard1 4096 0 48 (by rw [shard0, List.length_append, le_length, List.length_replicate]))).trans (by decide +kernel)

set_option maxRecDepth 8192 in
theorem image_shards : ∀ k h, imageManifest.ep.shards[k]? = some h →
    checkShard imageManifest.ep.q5 h (bytesAt (listReader image) (imageManifest.offs.getD k 0) h.clen) = 0 := by
  intro k h hk
  match k with
  | 0 => cases hk; exact (congrArg (checkShard false _) image_shard0).trans (by decide +kernel)
  | 1 => cases hk; exact (congrArg (checkShard false _) image_shard1).trans (by decide +kernel)
  | k + 2 => cases hk

/-- A token that an owner's key signs. -/
def lcToken : List Byte := leBytes 0x8affd89c94056d7b8d304c856ab5b5956a10e70306c17422e28dcca252f81c42584620ffaec57a3f670cc447e563a9548affd89c94056d7b8d304c856ab5b5956a10e70306c17422e28dcca252f81c42584620ffaec57a3f670cc447e563a95400000000000000000000000000000000000000000000000000000000000000e9fb7a7503274a43b6a3a68af25b303d3b859ce549340a75dcb45e8d343697572b2da9662b66ff58f46fddf0b14ce233573e0e38f0132f4e2bbd30b8ea20752a1ced7e342974f7f1dfa594741b59ae7d3f29d456d7f7a06a3d4667440e8cff8c0400000000000000000000000000000000000000000000000102 281

def lcTokenModule : State := { up with fuses := { lc := 1, serial := 1, owners := [0x118ccca0bef793be790a12c3570992949d2345789b92813292ed43381cc37b56c9a4379b6ca9c994a8aa06e6e2f6e4c0] }, spdm := { sessions := [⟨1, true, 0, 0⟩] } }

/-- A token that an owner's key signs. -/
def debugToken : List Byte := leBytes 0x956f9adfb93f3db59758da155af0f3de29fba005f7e6c4132377f01446eca1e0464051252d8c9f2b1b5a442836efee95956f9adfb93f3db59758da155af0f3de29fba005f7e6c4132377f01446eca1e0464051252d8c9f2b1b5a442836efee95000000000000000000000000000000000000000000000000000000000000000ef88e6c936a8ac68529670fdf6ef0a8f9472bd6944ff4d9d0a2d6d852b57dd24084a1762a3aa5a1223dfd7338498e388656cbf4462db9a14e2019721f2908d3d686f0a14d90acb6072592a0372b148698f162c3c15047fb7823caebb9f8d4f704000000000000000000000000000000000000000000000002ff 281

def debugTokenModule : State := { up with fuses := { lc := 1, serial := 2, owners := [0x664dc4252775a1cd727cb447952dc1359e74e3b4cb49a4b45c1f5c5a447f1fe6ed5b4c3f4dd3142fab379d0ae799aead] }, spdm := { sessions := [⟨1, true, 0, 0⟩] } }

/-- A model with one routing layer of one output, whose route table and tallies lie in Near. -/
def tallyRegion : StateRegion := { owner := .model 9, size := 32, stack := 1, units := [3] }

def tallyModule : State :=
  { up with mem := put 0 { modelId := 9, epoch := 2, active := true, near := true } { recs := [{ model := 9, epoch := 2, shards := [{ ulen := 48, nearUnits := [0] }], objects := [{ kind := 3, len := 48 }] }], regions := [tallyRegion], near := ((List.range 48).zip (leBytes 0x100010001000000000000000000000000000100000000 48)).filter (fun c => c.2 != 0#8) }, spdm := { sessions := [⟨1, true, 0, 0⟩] } }

theorem tally_apart : ∀ h k i j, i < tallyRegion.size → j < tallyRegion.size → regionAddr tallyRegion h i = regionAddr tallyRegion k j → h = k ∧ i = j :=
  fun h k i j hi hj => (by decide +kernel : ∀ h k : Bool, ∀ i, i < 32 → ∀ j, j < 32 →
    regionAddr tallyRegion h i = regionAddr tallyRegion k j → h = k ∧ i = j) h k i hi j hj

/-- Cells that hold a configuration with one phase, no pattern word and no transfer, which passes every check. -/
def config : List Host.Cell := ((List.range 304).zip (leBytes 0x10001d9785cf400000000000000000000000000000000000000000000000000000000000000000000000000000000000000000000000000000000000000000000000000000030000001000000000000000100000000000000010000000000000001000000000000000100000000000000000000000000000000000000000000000000000000000000000000000000000000000000000000000000000000000000000000000000000000000000000000000000000000000000000000000000000000000000000000000000000000000000000000000000000000000000000000000000000000004000300000001000000000000000000100000003003e000151394346 304)).filter (fun c => c.2 != 0#8)

def configEpoch : EpochRec :=
  { model := 1, epoch := 2, shards := [{ ulen := 4096, written := true }],
    objects := [{ kind := 1, configId := 3, len := 304 }, { kind := 2, configId := 3, off := 320, len := 32 }] }

def configModule : State :=
  st [(F.CFG_STAT_LOADING, 1), (F.CFG_MODE, 1)] { frame := { named := some ⟨1, 2, 3⟩ }, mem := { recs := [configEpoch], near := config } }

def configBytes : CfgBytes := (cfgBytes configModule configEpoch 3).get (by decide +kernel)

theorem crc_append (a b : List Nat) : crc32 (a ++ b) = Nat.xor (b.foldl crcByte (a.foldl crcByte 0xFFFFFFFF)) 0xFFFFFFFF := by simp [crc32]

theorem config_crc : crc32 (bytesAt configBytes.rd 0 252 ++ (List.range 5).flatMap (fun k => bytesAt configBytes.rd (secOff configBytes.rd k) (secLen configBytes.rd k))) =
    leRead configBytes.rd 252 4 := by
  rw [crc_append, show (bytesAt configBytes.rd 0 252).foldl crcByte 0xFFFFFFFF = 1237089342 by decide +kernel]
  decide +kernel

theorem config_header : headerOk configBytes.rd configBytes.len configBytes.west = true := by
  unfold headerOk
  rw [config_crc]
  decide +kernel

theorem config_records : patRecords configBytes.rd = [] := by decide +kernel

theorem passes (rd : Nat → Nat) (x : CheckContext) (h1 : headerOk rd x.len x.west = true) (hr : patRecords rd = [])
    (h2 : timingOk rd = true ∧ phaseTableOk rd = true ∧ recordFails rd [] = [] ∧ paneMapOk rd (fun i => x.shardWords[i]?) = true ∧
      transfersOk rd (frameLen (cfgPhases rd) (cfgDrain rd)) (cfgDrain rd) (cfgPslots rd) = true ∧
      (leRead rd 12 4 == x.modelId && leRead rd 16 4 == x.layout) = true)
    (h3 : x.mode = none ∨ (x.mode = some 1 ∧ bitOf (cfgModeMask rd) 1 = true)) (h4 : x.nearUe = false) (h5 : x.plan = none)
    (h6 : extentsOk rd none = true) : checkConfig rd x = none := by
  obtain ⟨a, b, c, d, e, f⟩ := h2
  obtain h3 | ⟨h3, g⟩ := h3 <;> simp [checkConfig, checkFails, wordFails, idleWordFails, coveredCells, *]

theorem config_load : checkConfig configBytes.rd (checkContext configModule configEpoch configBytes.len configBytes.west (some (getF configModule F.CFG_MODE)) false) = none :=
  passes _ _ config_header config_records (by decide +kernel) (.inr (by decide +kernel)) rfl (by decide +kernel) (by decide +kernel)

theorem config_check : checkConfig configBytes.rd (checkContext configModule configEpoch configBytes.len configBytes.west none false) = none :=
  passes _ _ config_header config_records (by decide +kernel) (.inl rfl) rfl (by decide +kernel) (by decide +kernel)

/-- An epoch that holds a route table of one layer with one expert, its cells, and a module that checks it. -/
def routeEpoch : EpochRec := { model := 1, epoch := 2, shards := [{ ulen := 52, written := true }], objects := [{ kind := 3, len := 52 }] }

def routeModule : State :=
  { mem := { recs := [routeEpoch], near := ((List.range 52).zip (leBytes 0x30000100010001000000000000000000000000000151395254 52)).filter (fun c => c.2 != 0#8) } }

/-- A module whose plan names for the next frame a configuration that is named already, its loads stopped a tick ago. -/
def lapsedModule : State :=
  st [(F.TICK_STAT_RUNNING, 1), (F.TICK_NOW, 1), (F.CFG_MODE, 1), (F.TICK_PERIOD_PERIOD_US, 16000), (F.CFG_NEXT_CASEMENT_FLIP, 1)]
    { frame := { named := some ⟨1, 2, 3⟩ }, adm := { plan := { cycle := 1, models := [{ modelId := 1 }] }, frames := [{ idx := 0, model := 1, epoch := 2 }] },
      mem := put 0 { modelId := 1, epoch := 2, near := true } { recs := [{ configEpoch with checked := [3] }], near := config } }

/-! ### Well-formedness -/

theorem test_requester_refused :
    (Instr.dormantRequest (.steward 4)).wellFormed = false ∧ (Instr.dormantRequest (.steward 3)).wellFormed = true ∧
    (Instr.dormantRequest .host).wellFormed = true := by decide

theorem test_steward_refused :
    (Instr.ticketRead 4).wellFormed = false ∧ (Instr.watchdogExpiry 4 1).wellFormed = false ∧
    (Instr.stewardRestart 4).wellFormed = false ∧ (Instr.digestScrubTile (4, 0) 1 1 0 false).wellFormed = false ∧
    (Instr.ticketRead 3).wellFormed = true := by decide

theorem test_offset_refused :
    (Instr.registerWrite .host 0x1000000 4 (0, 0)).wellFormed = false ∧ (Instr.loRegisterRead .host 0x1000000 4).wellFormed = false ∧
    (Instr.registerWrite .host 0xFFFFFC 4 (0, 0)).wellFormed = true := by decide

theorem test_size_refused :
    (Instr.registerWrite .host 0 3 (0, 0)).wellFormed = false ∧ (Instr.loRegisterRead .host 0 0).wellFormed = false ∧
    (Instr.loRegisterRead .host 0 8).wellFormed = true := by decide

theorem test_value_refused :
    (Instr.registerWrite .host 0 1 (256, 0)).wellFormed = false ∧ (Instr.registerWrite .host 0 1 (0, 256)).wellFormed = false ∧
    (Instr.registerWrite .host 0 1 (255, 0)).wellFormed = true := by decide

theorem test_board_access_refused :
    (Instr.boardAccess .host 8 0 (.read 1)).wellFormed = false ∧ (Instr.boardAccess .host 0 (2 ^ 48) (.read 1)).wellFormed = false ∧
    (Instr.boardAccess .host 0 0 (.read 0)).wellFormed = false ∧ (Instr.boardAccess .host 0 0 (.read 33)).wellFormed = false ∧
    (Instr.boardAccess .host 0 0 (.write [])).wellFormed = false ∧
    (Instr.boardAccess .host 0 0 (.write [2 ^ 32])).wellFormed = false ∧
    (Instr.boardAccess .host 7 (2 ^ 48 - 1) (.read 32)).wellFormed = true ∧
    (Instr.boardAccess .host 0 0 (.write [2 ^ 32 - 1])).wellFormed = true := by decide

theorem test_port_refused :
    (Instr.boardRequestTimeout 16).wellFormed = false ∧ (Instr.boardRequestTimeout 15).wellFormed = true := by decide

theorem test_lane_refused :
    (Instr.eyeScanStart 0 8).wellFormed = false ∧ (Instr.eyeScanStart 15 7).wellFormed = true := by decide

theorem test_member_refused :
    (Instr.alignGraceExpiry 1024).wellFormed = false ∧ (Instr.memberReportMissing 1023).wellFormed = true := by decide

theorem test_ring_refused :
    (Instr.subDoorbell 64 0).wellFormed = false ∧ (Instr.subDoorbell 0 65536).wellFormed = false ∧
    (Instr.subDoorbell 63 65535).wellFormed = true := by decide

theorem test_ring_control_refused :
    (Instr.ringEnable 0 0).wellFormed = false ∧ (Instr.ringDisable 0 1).wellFormed = false ∧
    (Instr.ringEnable 0 1).wellFormed = true ∧ (Instr.ringDisable 0 2).wellFormed = true := by decide

theorem test_head_refused :
    (Instr.rcptHeadWrite 0 65536 false).wellFormed = false ∧ (Instr.cmplHeadWrite 0 65536 false).wellFormed = false ∧
    (Instr.cmplHeadWrite 63 65535 true).wellFormed = true := by decide

theorem test_drive_refused :
    (Instr.storeReadTimeout 16 0 1 1).wellFormed = false ∧ (Instr.storeControllerDrop 16).wellFormed = false ∧
    (Instr.storeControllerDrop 15).wellFormed = true := by decide

theorem test_source_refused :
    (Instr.irqFilterChange 256 true).wellFormed = false ∧ (Instr.hostEoi 256).wellFormed = false ∧
    (Instr.hostEoi 255).wellFormed = true := by decide

theorem test_epoch_refused :
    (Instr.fetchComplete (2 ^ 32) 0).wellFormed = false ∧ (Instr.fetchComplete 0 65536).wellFormed = false ∧
    (Instr.fetchComplete (2 ^ 32 - 1) 65535).wellFormed = true := by decide

theorem test_shard_refused :
    (Instr.digestComplete 1 1 65536).wellFormed = false ∧ (Instr.digestComplete 1 1 65535).wellFormed = true := by decide

theorem test_control_message_refused :
    (Instr.leave (msg 0 1 9 0)).wellFormed = false ∧ (Instr.leave (msg 13 1 9 0)).wellFormed = false ∧
    (Instr.leave (msg 8 65536 9 0)).wellFormed = false ∧ (Instr.leave (msg 8 1 (2 ^ 48) 0)).wellFormed = false ∧
    (Instr.leave (msg 8 1 9 (2 ^ 256))).wellFormed = false ∧ (Instr.leave (msg 8 65535 (2 ^ 48 - 1) (2 ^ 256 - 1))).wellFormed = true := by decide

theorem test_announced_subject_refused :
    (Instr.announceApply 0).wellFormed = false ∧ (Instr.announceApply 6).wellFormed = false ∧
    (Instr.announceApply 5).wellFormed = true := by decide

theorem test_receive_instance_refused :
    (Instr.spanReceiveComplete 65536).wellFormed = false ∧ (Instr.spanReceiveComplete 65535).wellFormed = true := by decide

theorem test_training_refused :
    (Instr.linkTraining 0 ⟨[], 0⟩).wellFormed = false ∧
    (Instr.retrainComplete 0 ⟨List.replicate 8 ⟨none, 1, 2, 0, 0, 0, 0⟩, 0⟩).wellFormed = false ∧
    (Instr.linkTraining 0 ⟨List.replicate 8 ⟨some 9, 2, 2, 3, 5, 2, 0⟩, 180⟩).wellFormed = true := by decide

theorem test_flit_slot_refused :
    (Instr.flitReceive 0 ⟨8, 1, 0, [], List.replicate 256 0#8⟩).wellFormed = false ∧
    (Instr.flitReceive 0 ⟨0, 1, 0, [], []⟩).wellFormed = false ∧
    (Instr.flitReceive 0 ⟨0, 0, 0, [0], List.replicate 256 0#8⟩).wellFormed = false ∧
    (Instr.flitReceive 0 ⟨7, 0, 2 ^ 40 - 1, [0, 544], List.replicate 256 0#8⟩).wellFormed = true := by decide +kernel

theorem test_lane_drop_cause_refused :
    (Instr.laneDrop 0 0 0).wellFormed = false ∧ (Instr.laneDrop 0 0 5).wellFormed = false ∧ (Instr.laneDrop 0 0 4).wellFormed = true := by decide

theorem test_loss_estimate_refused :
    (Instr.lossEstimateUpdate 0 0 1024).wellFormed = false ∧ (Instr.lossEstimateUpdate 0 0 1023).wellFormed = true := by decide

theorem test_checker_bits_refused :
    (Instr.prbsCheckerLock 0 0 1 1).wellFormed = false ∧ (Instr.prbsCheckerLock 0 0 2 4).wellFormed = false ∧
    (Instr.prbsCheckerLock 0 0 2 3).wellFormed = true := by decide

theorem test_descriptor_refused :
    (Instr.run ⟨[], false, false⟩).wellFormed = false ∧ (Instr.close ⟨[], false, false⟩).wellFormed = false ∧
    (Instr.run ⟨List.replicate 128 0#8, false, false⟩).wellFormed = true := by decide +kernel

theorem test_load_step_refused :
    (Instr.spanLoad (.send 16 0 [])).wellFormed = false ∧ (Instr.spanLoad (.send 0 65536 [])).wellFormed = false ∧
    (Instr.spanLoad (.staged 65536)).wellFormed = false ∧ (Instr.spanLoad (.send 15 65535 [0#8])).wellFormed = true := by decide

theorem test_reading_refused :
    (Instr.monitorUpdate (.cluster 64 0)).wellFormed = false ∧ (Instr.monitorUpdate (.ports 4096 0)).wellFormed = false ∧
    (Instr.monitorUpdate (.aon 4096)).wellFormed = false ∧ (Instr.monitorUpdate (.near 8 0)).wellFormed = false ∧
    (Instr.monitorUpdate (.volts 32 0)).wellFormed = false ∧ (Instr.monitorUpdate (.process 3 0 0)).wellFormed = false ∧
    (Instr.monitorUpdate (.cluster 63 4095)).wellFormed = true := by decide

theorem test_mailbox_refused :
    (Instr.restart { body := List.replicate 7 0#8 }).wellFormed = false ∧
    (Instr.restart { vendor := 65536, body := List.replicate 8 0#8 }).wellFormed = false ∧
    (Instr.restart { vendor := 65535, body := List.replicate 8 0#8 }).wellFormed = true := by decide

theorem test_spdm_refused :
    (Instr.getVersion { p1 := 256 }).wellFormed = false ∧ (Instr.getVersion { p2 := 256 }).wellFormed = false ∧
    (Instr.getCertificate { } 65536 0).wellFormed = false ∧ (Instr.getCertificate { p1 := 255 } 65535 65535).wellFormed = true := by decide

theorem test_mode_refused :
    (Instr.modeRequest 8 .host).wellFormed = false ∧ (Instr.modeRequest 7 .host).wellFormed = true := by decide

theorem test_memory_unit_refused :
    (Instr.nearReadUncorrectable 8 0 (List.replicate 16 0) 0).wellFormed = false ∧
    (Instr.nearReadUncorrectable 0 0 [19] 0).wellFormed = false ∧ (Instr.nearStackLoss 8).wellFormed = false ∧
    (Instr.bulkSideLoss 2).wellFormed = false ∧ (Instr.bulkReadUncorrectable 0 0 (2, 0) (List.replicate 16 0)).wellFormed = false ∧
    (Instr.decompEngineFail 16).wellFormed = false ∧ (Instr.nearStackLoss 7).wellFormed = true ∧
    (Instr.bulkSideLoss 1).wellFormed = true := by decide

theorem test_power_operand_refused :
    (Instr.louvreChange 4).wellFormed = false ∧ (Instr.railReading 16 0 0).wellFormed = false ∧ (Instr.droop 32).wellFormed = false ∧
    (Instr.regulatorPhaseFault 24).wellFormed = false ∧ (Instr.railOutOfRegulation 16).wellFormed = false ∧
    (Instr.droop 31).wellFormed = true := by decide

theorem test_boot_cause_refused :
    (Instr.bootStepFail 0).wellFormed = false ∧ (Instr.bootStepFail 15).wellFormed = false ∧ (Instr.bootStepFail 14).wellFormed = true := by decide

theorem test_batch_refused :
    (Instr.batchOpen 0 1).wellFormed = false ∧ (Instr.batchOpen 4 1).wellFormed = false ∧ (Instr.batchOpen 1 0).wellFormed = false ∧
    (Instr.batchOpen 1 1048577).wellFormed = false ∧ (Instr.batchOpen 3 1048576).wellFormed = true := by decide

theorem test_ticket_refused :
    (Instr.tileCommit 0 (2 ^ 20)).wellFormed = false ∧ (Instr.tileCommit 3 (2 ^ 20 - 1)).wellFormed = true := by decide

theorem test_pending_write_refused :
    (Instr.irqPendSet .host 8 0).wellFormed = false ∧ (Instr.irqPendClr .host 0 (2 ^ 32)).wellFormed = false ∧
    (Instr.irqPendSet .host 7 (2 ^ 32 - 1)).wellFormed = true := by decide

theorem test_target_refused :
    (Instr.claim 4).wellFormed = false ∧ (Instr.complete 4 (0, false)).wellFormed = false ∧
    (Instr.complete 3 (256, true)).wellFormed = false ∧ (Instr.moderationExpiry 5).wellFormed = false ∧
    (Instr.claim 3).wellFormed = true ∧ (Instr.moderationExpiry 4).wellFormed = true := by decide

theorem test_vector_refused :
    (Instr.msixMaskWrite (some 256) true).wellFormed = false ∧ (Instr.msixMaskWrite (some 255) true).wellFormed = true := by decide

theorem test_endpoint_refused :
    (Instr.setEndpointId 256 0).wellFormed = false ∧ (Instr.setEndpointId 0 256).wellFormed = false ∧
    (Instr.getMctpVersionSupport 256).wellFormed = false ∧ (Instr.setEndpointId 255 255).wellFormed = true := by decide

/-! ### Worked examples of the spec -/

/-- 04_number_formats.md, "Worked conversions": 0.3, 500 and 2.5. -/
theorem test_conversions :
    [ElemFmt.bfloat16, .e4m3, .e5m2, .e2m1].map (fun f => encodeElem f (rndOfCode 0) (f32 0x3E99999A#32)) = [0x3E9A, 0x2A, 0x35, 0x1] ∧
    [ElemFmt.bfloat16, .e4m3, .e5m2, .e2m1].map (fun f => encodeElem f (rndOfCode 1) (f32 0x3E99999A#32)) = [0x3E99, 0x29, 0x34, 0x0] ∧
    [ElemFmt.e5m2, .e4m3].map (fun f => encodeElem f (rndOfCode 0) (f32 0x43FA0000#32)) = [0x60, 0x7E] ∧
    [0, 4].map (fun m => encodeElem .e2m1 (rndOfCode m) (f32 0x40200000#32)) = [0x4, 0x5] := by decide +kernel

/-- 04_number_formats.md, the example of a FMT 0xA step: accumulators 1.0 and 2^24. -/
theorem test_mac_step :
    macElem (rndOfCode 0) 0x3F800000#32 [(decodeElem .e2m1 0x3, decodeElem .e2m1 0x5), (decodeElem .e2m1 0xA, decodeElem .e2m1 0x2)]
      (decodeYs8 0x70) (decodeYs8 0x6C) = 0x3FD40000#32 ∧
    [0, 1, 2, 4, 3].map (fun m => macElem (rndOfCode m) 0x4B800000#32 [(decodeElem .e2m1 0x3, decodeElem .e2m1 0x5),
      (decodeElem .e2m1 0xA, decodeElem .e2m1 0x2)] (decodeYs8 0x70) (decodeYs8 0x6C)) =
      [0x4B800000#32, 0x4B800000#32, 0x4B800000#32, 0x4B800000#32, 0x4B800001#32] := by decide +kernel

/-- 04_number_formats.md, the example of the tree of VREDS: 1.0, and 3.0 under RND 0x4. -/
theorem test_tree_sum :
    treeSum (rndOfCode 0) ([0x4B800000#32, 0x3F800000#32, 0x3F800000#32, 0xCB800000#32] ++ List.replicate 28 0#32) = 0x3F800000#32 ∧
    treeSum (rndOfCode 4) ([0x4B800000#32, 0x3F800000#32, 0x3F800000#32, 0xCB800000#32] ++ List.replicate 28 0#32) = 0x40400000#32 := by
  decide +kernel

/-- 07_expert_routing.md, the example of a half: Q0, Q1, Q2, R0, R1 with E = 8, K = 2, D = 1, C = 2. -/
theorem test_routing :
    assignHalf { experts := 8, k := 2, d := 1, c := 2, halves := true } [
      { scores := [0xFF800000#32, 0x3FC00000#32, 0xFF800000#32, 0x40000000#32, 0xFF800000#32, 0xFF800000#32, 0x3F800000#32, 0xFF800000#32] },
      { scores := [0xFF800000#32, 0x3F000000#32, 0xFF800000#32, 0x3FE00000#32, 0xFF800000#32, 0x3FE00000#32, 0xFF800000#32, 0xFF800000#32] },
      { scores := [0x3F666666#32, 0xFF800000#32, 0xFF800000#32, 0x3F8CCCCD#32, 0xFF800000#32, 0x3F99999A#32, 0xFF800000#32, 0x7FC00000#32] },
      { rpos := 1, scores := [0xFF800000#32, 0x3F800000#32, 0xFF800000#32, 0x40400000#32, 0xFF800000#32, 0x40000000#32, 0xFF800000#32, 0xFF800000#32] },
      { rpos := 1, scores := [0xFF800000#32, 0x3F800000#32, 0x3F333333#32, 0xFF800000#32, 0xFF800000#32, 0xFF800000#32, 0x3F4CCCCD#32, 0xFF800000#32] }] =
    { placed := [⟨0, 0, 3, 0, false⟩, ⟨0, 1, 1, 0, false⟩, ⟨1, 0, 3, 1, false⟩, ⟨1, 1, 5, 0, false⟩, ⟨2, 0, 5, 1, false⟩, ⟨2, 1, 0, 0, true⟩,
        ⟨3, 0, 1, 1, true⟩, ⟨4, 0, 2, 0, true⟩, ⟨4, 1, 6, 0, false⟩],
      overflow := [3, 3, 5, 1], dropped := [(3, 5)] } := by decide +kernel

/-- R223: a residual of 1.0, gates 0.5 and 2.0 over 4.0 and -1.0, and a dropped choice. -/
theorem test_combine :
    combineToken [0x3F800000#32] [some (0x3F000000#32, [0x40800000#32]), none, some (0x40000000#32, [0xBF800000#32])] = [0x3F800000#32] := by
  decide +kernel

/-- R362, the example of an all-reduce over four positions: chunks 3 and 1 by ring. -/
theorem test_collective :
    [3, 1].map (collectiveSum 0 [0x4B800000#32, 0x3F800000#32, 0x3F800000#32, 0xCB800000#32]) = [0#32, 0x40000000#32] := by decide +kernel

/-- R257: AES-256-GCM of one zero block under the zero key and IV, as published with the mode. -/
theorem test_seal :
    gcmSeal (List.replicate 32 0) (List.replicate 12 0) [] (List.replicate 16 0) =
    (bigBytes 0xCEA7403D4D606B6E074EC5D3BAF39D18 16, bigBytes 0xD0D1C8A799996BF0265B98B5D48AB919 16) := by decide +kernel

/-- R237: 16 symbol errors decode, 17 do not; with one die erased, 7 do and 8 do not. -/
theorem test_line_decodes :
    [lineDecodes (16 :: List.replicate 15 0) [], lineDecodes (17 :: List.replicate 15 0) [], lineDecodes (7 :: List.replicate 15 0) [3],
      lineDecodes (8 :: List.replicate 15 0) [3], lineDecodes (18 :: List.replicate 15 0) [0]] = [true, false, true, false, true] := by
  decide +kernel

/-- 08_memory_tiers.md: model 0x0001_0000 lies in set 7,788; byte 0x1_2345_6600 of stack 5. -/
theorem test_places : dirSet 0x10000 = 7788 ∧ nearAddr 5 (List.range 4096) 0x123456600 = 0x3D23456600 := by decide +kernel

/-! ### States and operands that meet the hypotheses of the statements, clause by clause -/

theorem test_hypotheses_step_keeps_fields_canonical : ∃ s t : State, s.fieldsCanonical = true ∧ step s = .next t :=
  ⟨up, _, by decide +kernel, rfl⟩

theorem test_hypotheses_step_keeps_the_other_maps_canonical : ∃ s t : State, s.memoryCanonical = true ∧ s.unitsCanonical = true ∧
    s.tablesCanonical = true ∧ step s = .next t :=
  ⟨tallyModule, _, by decide +kernel, by decide +kernel, by decide +kernel, rfl⟩

theorem test_hypotheses_step_runs_the_queue :
    (∃ (s : State) (q : MboxReq) (l : List MboxReq), s.pending = [] ∧ s.stw.mbox = q :: l) ∧
    (∃ (s : State), s.fieldsCanonical = true ∧ s.pending = [] ∧ s.stw.mbox = []) :=
  ⟨⟨({ up with stw := { mbox := [mreq none 1 [0#8, 0#8, 0#8, 0#8, 1#8]] } } : State), (mreq none 1 [0#8, 0#8, 0#8, 0#8, 1#8]), ([] : List MboxReq), by decide +kernel⟩,
    ⟨up, by decide +kernel⟩⟩

theorem test_hypotheses_registers_are_read_and_written :
    (∃ (s : State) (v : Nat) (bits : _), s.fieldsCanonical = true ∧ windowUp s = true ∧ v < 2 ^ 32 ∧
      bits = [(F.DEV_AERR_RANGE, 0), (F.DEV_AERR_REGION, 1), (F.DEV_AERR_DENIED, 2), (F.DEV_AERR_SRAM_MODE, 3)] ∧ s.caps = []) ∧
    (∃ (s : State) (v off size : Nat), s.fieldsCanonical = true ∧ windowUp s = true ∧ v < 2 ^ 32 ∧ (size ≠ 4 ∨ off % 4 ≠ 0)) ∧
    (∃ (s : State), s.fieldsCanonical = true ∧ blockServed s 0x10010 = true ∧ hiHeld s 0x10010 = none ∧ getF s F.TICK_NOW < 2 ^ 48) ∧
    (∃ (s : State), s.fieldsCanonical = true) :=
  ⟨⟨(st [(F.DEV_AERR_RANGE,1),(F.DEV_AERR_DENIED,1)] up), (2^32-1), [(F.DEV_AERR_RANGE, 0), (F.DEV_AERR_REGION, 1), (F.DEV_AERR_DENIED, 2), (F.DEV_AERR_SRAM_MODE, 3)], by decide +kernel⟩,
    ⟨up, 7, 0x28, 2, by decide +kernel⟩,
    ⟨(st [(F.TICK_NOW, 2^48-1)] up), by decide +kernel⟩,
    ⟨(st [(F.TICK_NOW, 5), (F.TICK_CIF_CIF, 0x1FFFFFF), (F.TICK_DT, 77)]), by decide +kernel⟩⟩

theorem test_hypotheses_batches_hand_out_tickets :
    (∃ (s : State) (kind count k c : Nat), s.fieldsCanonical = true ∧ isSet s F.STW_BATCH_OPEN = false ∧ k = (if 1 ≤ kind ∧
      kind ≤ 3 then kind else getF s F.STW_BATCH_KIND) ∧ c = (if 1 ≤ count ∧ count ≤ 1048576 then count else getF s F.STW_BATCH_COUNT) ∧
      (k = 0 ∨ c = 0)) ∧
    (∃ (s : State) (kind count k c : Nat), s.fieldsCanonical = true ∧ isSet s F.STW_BATCH_OPEN = false ∧ k = (if 1 ≤ kind ∧
      kind ≤ 3 then kind else getF s F.STW_BATCH_KIND) ∧ c = (if 1 ≤ count ∧ count ≤ 1048576 then count else getF s F.STW_BATCH_COUNT) ∧ k ≠ 0 ∧
      c ≠ 0) ∧
    (∃ (s : State) (n k : Nat) (l : _), s.fieldsCanonical = true ∧ n < 4 ∧ isSet s F.STW_BATCH_OPEN = true ∧ getF s F.STW_BATCH_COUNT ≤ 1048576 ∧
      s.stw.reclaim = k :: l ∧ (heldBy s n).length < 16) ∧
    (∃ (s : State) (n : Nat), s.fieldsCanonical = true ∧ n < 4 ∧ isSet s F.STW_BATCH_OPEN = true ∧ getF s F.STW_BATCH_COUNT ≤ 1048576 ∧
      s.stw.reclaim = [] ∧ getF s F.STW_NEXT < getF s F.STW_BATCH_COUNT ∧ (heldBy s n).length < 16) ∧
    (∃ (s : State) (n : Nat), s.fieldsCanonical = true ∧ n < 4 ∧ isSet s F.STW_BATCH_OPEN = true ∧ getF s F.STW_BATCH_COUNT ≤ 1048576 ∧
      s.stw.reclaim = [] ∧ getF s F.STW_BATCH_COUNT ≤ getF s F.STW_NEXT ∧ (heldBy s n).length < 16) ∧
    (∃ (s : State) (n : Nat), s.fieldsCanonical = true ∧ n < 4 ∧ isSet s F.STW_BATCH_OPEN = true ∧ getF s F.STW_BATCH_COUNT ≤ 1048576 ∧
      16 ≤ (heldBy s n).length) ∧
    (∃ (s : State) (n k : Nat), s.fieldsCanonical = true ∧ n < 4 ∧ k < 1048576 ∧ isSet s F.STW_BATCH_OPEN = true ∧ k < getF s F.STW_BATCH_COUNT ∧
      (k, n) ∈ s.stw.holds ∧ k ∉ s.stw.done ∧ s.stw.done.length < 2 ^ 20 ∧ getF s F.STW_BATCH_COUNT ≤ s.stw.done.length + 1) ∧
    (∃ (s : State) (n k : Nat), s.fieldsCanonical = true ∧ n < 4 ∧ k < 1048576 ∧ (k ∈ s.stw.done ∨ ((k, n) ∉ s.stw.holds ∧ k ∉ s.stw.history))) :=
  ⟨⟨up, 0, 5, 0, 5, by decide +kernel⟩,
    ⟨(st [(F.STW_NEXT,7),(F.STW_DONE,5)] {stw := {holds := [(3,1)], reclaim := [2], done := [1]}}), 3, 1048576, 3, 1048576, by decide +kernel⟩,
    ⟨(st [(F.STW_BATCH_OPEN, 1), (F.STW_BATCH_COUNT, 3), (F.STW_NEXT, 1)] { stw := { reclaim := [0, 2], holds := [(1, 2)] } }), 3, 0, [2], by decide +kernel⟩,
    ⟨(st [(F.STW_BATCH_OPEN, 1), (F.STW_BATCH_COUNT, 3), (F.STW_NEXT, 2)] { stw := { holds := [(1, 2)] } }), 3, by decide +kernel⟩,
    ⟨(st [(F.STW_BATCH_OPEN, 1), (F.STW_BATCH_COUNT, 3), (F.STW_NEXT, 3)] { stw := { holds := [(1, 2)] } }), 0, by decide +kernel⟩,
    ⟨(st [(F.STW_BATCH_OPEN, 1), (F.STW_BATCH_COUNT, 3), (F.STW_NEXT, 3)] { stw := { holds := (List.range 16).map (fun i => (i, 3)) } }), 3, by decide +kernel⟩,
    ⟨(st [(F.STW_BATCH_OPEN, 1), (F.STW_BATCH_COUNT, 3), (F.STW_NEXT, 3)] { stw := { holds := [(2, 3), (2, 1)], done := [0, 1] } }), 3, 2, by decide +kernel⟩,
    ⟨(st [(F.STW_BATCH_OPEN, 1), (F.STW_BATCH_COUNT, 3), (F.STW_NEXT, 3)] { stw := { done := [2] } }), 3, 2, by decide +kernel⟩⟩

theorem test_hypotheses_ticket_peeks_grant_nothing :
    (∃ (s : State), isSet s F.STW_BATCH_OPEN = false) ∧
    (∃ (s : State) (k : Nat) (l : _), isSet s F.STW_BATCH_OPEN = true ∧ s.stw.reclaim = k :: l) ∧
    (∃ (s : State), isSet s F.STW_BATCH_OPEN = true ∧ s.stw.reclaim = [] ∧ getF s F.STW_NEXT < getF s F.STW_BATCH_COUNT) ∧
    (∃ (s : State), isSet s F.STW_BATCH_OPEN = true ∧ s.stw.reclaim = [] ∧ getF s F.STW_BATCH_COUNT ≤ getF s F.STW_NEXT) :=
  ⟨⟨up, by decide +kernel⟩,
    ⟨(st [(F.STW_BATCH_OPEN, 1), (F.STW_BATCH_COUNT, 3), (F.STW_NEXT, 1)] { stw := { reclaim := [2] } }), 2, ([] : List Nat), by decide +kernel⟩,
    ⟨(st [(F.STW_BATCH_OPEN, 1), (F.STW_BATCH_COUNT, 3), (F.STW_NEXT, 2)] { stw := {} }), by decide +kernel⟩,
    ⟨(st [(F.STW_BATCH_OPEN, 1), (F.STW_BATCH_COUNT, 3), (F.STW_NEXT, 3)] { stw := {} }), by decide +kernel⟩⟩

theorem test_hypotheses_watchdog_resets_one_steward :
    (∃ (s : State) (n b : Nat), s.fieldsCanonical = true ∧ n < 4 ∧ getF s F.TICK_DT < countFrom s n b + 1000000 * getF s F.STW_WDOG) ∧
    (∃ (s : State) (n b : Nat), s.fieldsCanonical = true ∧ n < 4 ∧ bitF s F.DEV_CAP1_STEWARD_UP n = true ∧
      countFrom s n b + 1000000 * getF s F.STW_WDOG ≤ getF s F.TICK_DT ∧ (n ∉ s.stw.warned ∨ countFrom s n b ≠ countFrom s n 0)) ∧
    (∃ (s : State) (n b : Nat), s.fieldsCanonical = true ∧ n < 4 ∧ bitF s F.DEV_CAP1_STEWARD_UP n = true ∧ getF s F.DEV_CAP1_STEWARD_UP < 16 ∧
      n ∈ s.stw.warned ∧ countFrom s n b = countFrom s n 0 ∧ countFrom s n b + 1000000 * getF s F.STW_WDOG ≤ getF s F.TICK_DT ∧ s.stw.resetAt = [] ∧
      (∀ m, m < 4 → getF s (F.STW_CORE_STATE m) = 1) ∧ dutySteward s 3 = some n) ∧
    (∃ (s : State) (n b : Nat), s.fieldsCanonical = true ∧ n < 4 ∧ bitF s F.DEV_CAP1_STEWARD_UP n = true ∧ getF s F.DEV_CAP1_STEWARD_UP < 16 ∧
      n ∈ s.stw.warned ∧ countFrom s n b = countFrom s n 0 ∧ countFrom s n b + 1000000 * getF s F.STW_WDOG ≤ getF s F.TICK_DT ∧ s.stw.resetAt = [] ∧
      (∀ m, m < 4 → getF s (F.STW_CORE_STATE m) = 1) ∧ dutySteward s 3 ≠ some n) ∧
    (∃ (s : State) (n : Nat), s.fieldsCanonical = true ∧ n < 4 ∧ getF s (F.STW_CORE_STATE n) = 0 ∧ (∃ x, (n, x) ∈ s.stw.resetAt)) :=
  ⟨⟨(st [(F.STW_WDOG,100),(F.TICK_DT,100000004)] { up with stw := { warned := [3], countAt := [(3, 5)] } }), 3, 0, by decide +kernel⟩,
    ⟨(st [(F.STW_WDOG,100),(F.TICK_DT,100000005)] { up with stw := { countAt := [(3, 5)] } }), 3, 0, by decide +kernel⟩,
    ⟨(st [(F.STW_CORE_STATE 0,1),(F.STW_CORE_STATE 1,1),(F.STW_CORE_STATE 2,1),(F.STW_CORE_STATE 3,1),(F.STW_WDOG,100),(F.TICK_DT,100000005),(F.STW_BATCH_OPEN,1),(F.STW_BATCH_COUNT,9)] { up with spdm := { sessions := [⟨1, true, 0, 0⟩] }, stw := { mbox := [mreq (some 1) 9 []], warned := [3], countAt := [(3, 5)], holds := [(4, 3), (5, 1), (6, 3)], done := [6] } }), 3, 0, by decide +kernel⟩,
    ⟨(st [(F.STW_CORE_STATE 0,1),(F.STW_CORE_STATE 1,1),(F.STW_CORE_STATE 2,1),(F.STW_CORE_STATE 3,1),(F.STW_WDOG,100),(F.TICK_DT,100000005),(F.STW_BATCH_OPEN,1),(F.STW_BATCH_COUNT,9)] { up with stw := { warned := [2], countAt := [(2, 5)], mbox := [mreq (some 1) 9 []], holds := [(4, 3), (5, 1), (6, 3)], done := [6] } }), 2, 0, by decide +kernel⟩,
    ⟨({ up with stw := { resetAt := [(3, 0)] } } : State), 3, by refine ⟨?_, ?_, ?_, ?a3⟩; (case a3 => exact ⟨0, by decide⟩); all_goals decide +kernel⟩⟩

theorem test_hypotheses_lines_and_writes_set_pending_bits :
    (∃ (s : State) (n : Nat), s.fieldsCanonical = true ∧ n < 256 ∧ sourceBit n = none ∧ pulseSource n = true) ∧
    (∃ (s : State) (n : Nat) (f : _), s.fieldsCanonical = true ∧ n < 256 ∧ sourceBit n = some f) ∧
    (∃ (s : State) (k : Nat), s.fieldsCanonical = true ∧ k < 8) :=
  ⟨⟨up, 0x15, by decide +kernel⟩,
    ⟨(st [(F.IRQ_LATCH_I3C_WAKE,1)]), 0x14, (F.IRQ_LATCH_I3C_WAKE), by decide +kernel⟩,
    ⟨(st [(F.IRQ_PEND 7,5),(F.IRQ_SRC_TARGET 226,4)]), 7, by decide +kernel⟩⟩

theorem test_hypotheses_claims_and_completions :
    (∃ (s : State) (k n : Nat), s.fieldsCanonical = true ∧ k < 4 ∧ n < 256 ∧ eligible s k n = true ∧ (targetStack s k).length < 15 ∧
      getF s (F.IRQ_SRC_PRIO n) < 16 ∧ (∀ m, m < 256 → eligible s k m = true → getF s (F.IRQ_SRC_PRIO m) < getF s (F.IRQ_SRC_PRIO n) ∨ (getF s (F.IRQ_SRC_PRIO m) = getF s (F.IRQ_SRC_PRIO n) ∧ n ≤ m))) ∧
    (∃ (s : State) (k : Nat), s.fieldsCanonical = true ∧ k < 4 ∧ (∀ m, m < 256 → eligible s k m = false)) ∧
    (∃ (s : State) (k n p : Nat) (l : _), s.fieldsCanonical = true ∧ s.tablesCanonical = true ∧ k < 4 ∧ n < 256 ∧ targetStack s k = (n, p) :: l ∧
      l.length < 16 ∧ (l.headD (0, 0)).2 < 16) ∧
    (∃ (s : State) (k n : Nat), s.fieldsCanonical = true ∧ s.tablesCanonical = true ∧ k < 4 ∧ n < 256 ∧ (∀ p l, targetStack s k ≠ (n, p) :: l)) ∧
    (∃ (s : State) (k n : Nat), s.fieldsCanonical = true ∧ s.tablesCanonical = true ∧ k < 4 ∧ n < 256 ∧ isEdge s n = false ∧
      getF s (F.IRQ_SRC_TARGET n) = 4) :=
  ⟨⟨(st [(F.IRQ_PEND 7, 0x80000001), (F.IRQ_EN 7, 0x80000001), (F.IRQ_SRC_TARGET 255, 3), (F.IRQ_SRC_TARGET 224, 3), (F.IRQ_SRC_PRIO 255, 15), (F.IRQ_SRC_PRIO 224, 3), (F.IRQ_SRC_EDGE 255, 1)]), 3, 255, by decide +kernel⟩,
    ⟨up, 0, by decide +kernel⟩,
    ⟨(st [(F.IRQ_INSVC 7,0x80000000),(F.TGT_RUN_RUN 3,9),(F.TGT_RUN_DEPTH 3,2)] { irq := { nested := [(3, [(255, 9), (7, 2)])] } }), 3, 255, 9, [(7, 2)], by decide +kernel⟩,
    ⟨up, 3, 0, by refine ⟨?_, ?_, ?_, ?_, ?a4⟩; (case a4 => intro p l h; rw [show targetStack up 3 = [] by decide +kernel] at h; cases h); all_goals decide +kernel⟩,
    ⟨(st [(F.IRQ_SRC_TARGET 255, 4), (F.IRQ_LINE 7, 0x80000000)]), 0, 255, by decide +kernel⟩⟩

theorem test_hypotheses_messages_are_sent :
    (∃ (s : State) (r : Nat) (l : _), s.fieldsCanonical = true ∧ s.tablesCanonical = true ∧ s.adm.announce = r :: l ∧ moderated s 4 = false ∧
      s.irq.funcMask = false ∧ isSet s (F.MSIX_CTL (getF s (F.RING_CTL_VEC r))) = false) ∧
    (∃ (s : State) (n : Nat), s.fieldsCanonical = true ∧ s.tablesCanonical = true ∧ s.adm.announce = [] ∧ moderated s 4 = false ∧
      bestSource s 4 = some n ∧ s.irq.funcMask = false ∧ isSet s (F.MSIX_CTL (getF s (F.IRQ_SRC_HOST_VEC n))) = false ∧ isEdge s n = true) ∧
    (∃ (s : State) (n : Nat), s.fieldsCanonical = true ∧ s.tablesCanonical = true ∧ s.adm.announce = [] ∧ moderated s 4 = false ∧
      bestSource s 4 = some n ∧ s.irq.funcMask = false ∧ isSet s (F.MSIX_CTL (getF s (F.IRQ_SRC_HOST_VEC n))) = false ∧ isEdge s n = false) ∧
    (∃ (s : State) (v : Nat), s.fieldsCanonical = true ∧ s.tablesCanonical = true ∧ v < 256 ∧ s.irq.funcMask = false ∧
      bitF s (F.MSIX_PBA (v / 32)) (v % 32) = true) ∧
    (∃ (s : State) (k : Nat), s.fieldsCanonical = true ∧ s.tablesCanonical = true ∧ k < 5 ∧ moderated s k = false) :=
  ⟨⟨(st [(F.RING_CTL_VEC 63,255),(F.MSIX_CTL 255,0),(F.MSIX_ADDRESS 255,0xFEE00000),(F.MSIX_DATA 255,9)] { adm := { announce := [63, 2] } }), 63, [2], by decide +kernel⟩,
    ⟨(st [(F.IRQ_SRC_EDGE 255,1),(F.IRQ_PEND 7, 0x80000000), (F.IRQ_EN 7, 0x80000000), (F.IRQ_SRC_TARGET 255, 4), (F.IRQ_SRC_PRIO 255, 2),(F.IRQ_SRC_HOST_VEC 255,255),(F.MSIX_CTL 255,0)]), 255, by decide +kernel⟩,
    ⟨(st [(F.IRQ_PEND 7, 0x80000000), (F.IRQ_EN 7, 0x80000000), (F.IRQ_SRC_TARGET 255, 4), (F.IRQ_SRC_PRIO 255, 2),(F.IRQ_SRC_HOST_VEC 255,255),(F.MSIX_CTL 255,0)]), 255, by decide +kernel⟩,
    ⟨(st [(F.MSIX_PBA 7,0x80000001)]), 255, by decide +kernel⟩,
    ⟨(st [(F.TICK_DT, 10)] { irq := { heldUntil := [(4, 10)] } }), 4, by decide +kernel⟩⟩

theorem test_hypotheses_mctp_control_answers :
    (∃ (s : State) (op eid : Nat), mgmtUp s = true ∧ op < 2 ∧ 8 ≤ eid ∧ eid < 255) ∧
    (∃ (s : State) (type : Nat), mgmtUp s = true ∧ (type = 0 ∨ type = 0xFF)) ∧
    (∃ (s : State) (type : Nat), mgmtUp s = true ∧ (type = 0x05 ∨ type = 0x06 ∨ type = 0x7E)) :=
  ⟨⟨up, 1, 254, by decide +kernel⟩,
    ⟨up, 0xFF, by decide +kernel⟩,
    ⟨up, 0x7E, by decide +kernel⟩⟩

theorem test_hypotheses_spdm_answers :
    (∃ (s : State), mgmtUp s = true ∧ 1 ≤ s.spdm.stage) ∧
    (∃ (s : State), mgmtUp s = true ∧ 2 ≤ s.spdm.stage) ∧
    (∃ (s : State) (q : SpdmReq) (off len : Nat), mgmtUp s = true ∧ spdmReads s = true ∧ q.p1 = 0 ∧ off < (certChain s).length ∧ len < 65536) ∧
    (∃ (s : State) (q : SpdmReq), mgmtUp s = true ∧ spdmReads s = true ∧ spdmReady s = true ∧ q.p1 = 0) ∧
    (∃ (s : State) (q : SpdmReq), mgmtUp s = true ∧ spdmReads s = true ∧ (spdmReady s = true ∨ q.p1 % 2 = 0) ∧ 1 ≤ q.p2 ∧ q.p2 ≤ 8) ∧
    (∃ (s : State) (q : SpdmReq), mgmtUp s = true ∧ spdmReads s = true ∧ (spdmReady s = true ∨ q.p1 % 2 = 0) ∧ q.p2 = 0xFF) :=
  ⟨⟨({ up with spdm := { stage := 1, alias_ := some 1 } } : State), by decide +kernel⟩,
    ⟨({ up with spdm := { stage := 2, alias_ := some 1 } } : State), by decide +kernel⟩,
    ⟨({ up with spdm := { stage := 3, alias_ := some 1 }, nor := { identity := [1#8, 2#8] } } : State), ({} : SpdmReq), 1, 65535, by refine ⟨?_, ?_, ?_, ?a3, ?_⟩; (case a3 => simp [certChain]); all_goals decide +kernel⟩,
    ⟨({ up with spdm := { stage := 3, alias_ := some 1 } } : State), ({} : SpdmReq), by decide +kernel⟩,
    ⟨({ up with spdm := { stage := 3, alias_ := some 1 } } : State), ({ p2 := 8 } : SpdmReq), by decide +kernel⟩,
    ⟨({ up with spdm := { stage := 3, alias_ := some 1 } } : State), ({ p2 := 0xFF } : SpdmReq), by decide +kernel⟩⟩

theorem test_hypotheses_sessions_and_safe_mode :
    (∃ (s : State) (q : SpdmReq), s.fieldsCanonical = true ∧ mgmtUp s = true ∧ s.spdm.sessions.length ≤ 2 ∧ spdmReady s = true ∧ q.session = none ∧
      q.p2 = 0 ∧ s.spdm.sessions.length < 2) ∧
    (∃ (s : State) (q : SpdmReq) (id : Nat), s.fieldsCanonical = true ∧ mgmtUp s = true ∧ s.spdm.sessions.length ≤ 2 ∧ cryptoUp s = true ∧
      q.session = some id ∧ (∃ x ∈ s.spdm.sessions, x.id = id ∧ x.open_ = false)) ∧
    (∃ (s : State) (q : SpdmReq) (id : Nat), s.fieldsCanonical = true ∧ mgmtUp s = true ∧ s.spdm.sessions.length ≤ 2 ∧ cryptoUp s = true ∧
      q.session = some id ∧ sessionOpen s id = true ∧ (q.p1 = 1 ∨ q.p1 = 2)) ∧
    (∃ (s : State) (q : SpdmReq) (id : Nat), s.fieldsCanonical = true ∧ mgmtUp s = true ∧ s.spdm.sessions.length ≤ 2 ∧ cryptoUp s = true ∧
      q.session = some id ∧ sessionOpen s id = true ∧ q.p1 = 3) ∧
    (∃ (s : State), s.fieldsCanonical = true ∧ mgmtUp s = true ∧ s.boot.phase = .ready ∧ s.pins.rails < 2 ^ 16) :=
  ⟨⟨({ up with spdm := { stage := 3, alias_ := some 1, sessions := [⟨6, false, 0, 0⟩] } } : State), ({} : SpdmReq), by decide +kernel⟩,
    ⟨({ up with spdm := { stage := 3, alias_ := some 1, sessions := [⟨6, false, 0, 0⟩] } } : State), ({ session := some 6 } : SpdmReq), 6, by refine ⟨?_, ?_, ?_, ?_, ?_, ?a5⟩; (case a5 => exact ⟨_, .head _, by decide⟩); all_goals decide +kernel⟩,
    ⟨({ up with spdm := { stage := 3, alias_ := some 1, sessions := [⟨6, true, 0, 0⟩] } } : State), ({ session := some 6, p1 := 2 } : SpdmReq), 6, by decide +kernel⟩,
    ⟨({ up with spdm := { stage := 3, alias_ := some 1, sessions := [⟨6, true, 0, 0⟩] } } : State), ({ session := some 6, p1 := 3 } : SpdmReq), 6, by decide +kernel⟩,
    ⟨up, by decide +kernel⟩⟩

theorem test_hypotheses_mailbox_serves_registers_and_cap :
    (∃ (s : State) (q : MboxReq) (r : Requester), s.fieldsCanonical = true ∧ mboxOpen s q r ∧ q.command = 1 ∧ q.args = [0#8, 0#8, 0#8, 0#8, 1#8] ∧
      policyAllows s 11 r = true ∧ hiHeld s 0 = none) ∧
    (∃ (s : State) (q : MboxReq) (r : Requester), s.fieldsCanonical = true ∧ mboxOpen s q r ∧ q.command = 1 ∧ q.args = [0#8, 0#8, 0#8, 0#8, 1#8] ∧
      policyAllows s 11 r = false) ∧
    (∃ (s : State) (q : MboxReq) (r : Requester) (v : _), s.fieldsCanonical = true ∧ mboxOpen s q r ∧ q.command = 2 ∧ r = .session ∧ v < 2 ^ 32 ∧
      q.args = leBytes 0x28 4 ++ leBytes v 4) ∧
    (∃ (s : State) (q : MboxReq) (r : Requester) (w slew : Nat), s.fieldsCanonical = true ∧ mboxOpen s q r ∧ q.command = 3 ∧ w < 65536 ∧
      slew < 4096 ∧ q.args = leBytes w 2 ++ leBytes slew 2 ∧ policyAllows s 4 r = true) ∧
    (∃ (s : State) (q : MboxReq) (r : Requester) (c : Nat), s.fieldsCanonical = true ∧ mboxOpen s q r ∧ q.command = 4 ∧ c < 66 ∧
      q.args = [BitVec.ofNat 8 c] ∧ policyAllows s 5 r = true ∧ getF s F.ARR_COLMAP_EXCL0 ≠ c ∧ getF s F.ARR_COLMAP_EXCL1 ≠ c ∧
      isSet s F.ARR_RETIRE_PEND = true ∧ isSet s F.ARR_RETIRE_QPEND = false ∧ getF s F.ARR_RETIRE_COL ≠ c ∧ 2 ≤ getF s F.DEV_CAP0_SPARE_LEFT) :=
  ⟨⟨(st [(F.SEC_LC_STATE,0)] { up with fuses := { lc := 0 }, spdm := { sessions := [⟨1, true, 0, 0⟩] } }), (mreq (some 1) 1 ([0#8, 0#8, 0#8, 0#8, 1#8])), (Requester.session), by refine ⟨?_, ?a1, ?_, ?_, ?_, ?_⟩; (case a1 => unfold mboxOpen; decide +kernel); all_goals decide +kernel⟩,
    ⟨up, (mreq none 1 ([0#8, 0#8, 0#8, 0#8, 1#8])), (Requester.mgmt), by refine ⟨?_, ?a1, ?_, ?_, ?_⟩; (case a1 => unfold mboxOpen; decide +kernel); all_goals decide +kernel⟩,
    ⟨(st [] { up with spdm := { sessions := [⟨1, true, 0, 0⟩] } }), (mreq (some 1) 2 (leBytes 0x28 4 ++ leBytes (2^32-1) 4)), (Requester.session), (2^32-1), by refine ⟨?_, ?a1, ?_, ?_, ?_, ?_⟩; (case a1 => unfold mboxOpen; decide +kernel); all_goals decide +kernel⟩,
    ⟨(st [] { up with spdm := { sessions := [⟨1, true, 0, 0⟩] } }), (mreq (some 1) 3 (leBytes 65535 2 ++ leBytes 4095 2)), (Requester.session), 65535, 4095, by refine ⟨?_, ?a1, ?_, ?_, ?_, ?_, ?_⟩; (case a1 => unfold mboxOpen; decide +kernel); all_goals decide +kernel⟩,
    ⟨(st [(F.ARR_RETIRE_PEND,1),(F.ARR_RETIRE_COL,3),(F.DEV_CAP0_SPARE_LEFT,2),(F.ARR_COLMAP_EXCL0,0x7F),(F.ARR_COLMAP_EXCL1,0x7F)] { up with spdm := { sessions := [⟨1, true, 0, 0⟩] } }), (mreq (some 1) 4 ([BitVec.ofNat 8 65])), (Requester.session), 65, by refine ⟨?_, ?a1, ?_, ?_, ?_, ?_, ?_, ?_, ?_, ?_, ?_, ?_⟩; (case a1 => unfold mboxOpen; decide +kernel); all_goals decide +kernel⟩⟩

theorem test_hypotheses_tally_is_read_and_cleared :
    (∃ (s : State) (q : MboxReq) (r : Requester) (model layer : Nat) (g : StateRegion) (x : RouteRec) (first n : Nat), s.fieldsCanonical = true ∧
      s.memoryCanonical = true ∧ mboxOpen s q r ∧ policyAllows s 6 r = true ∧ model < 2 ^ 32 ∧ layer < 0xFFFF ∧
      regionFind s.mem (.model model) = some g ∧ (routeRecs s model)[layer]? = some x ∧ q.command = 5 ∧ first < 65536 ∧ n ≤ 256 ∧ first + n ≤ x.e ∧
      q.args = leBytes model 4 ++ leBytes layer 2 ++ leBytes first 2 ++ leBytes n 2) ∧
    (∃ (s : State) (q : MboxReq) (r : Requester) (model layer : Nat) (g : StateRegion) (x : RouteRec), s.fieldsCanonical = true ∧
      s.memoryCanonical = true ∧ mboxOpen s q r ∧ policyAllows s 6 r = true ∧ model < 2 ^ 32 ∧ layer < 0xFFFF ∧
      regionFind s.mem (.model model) = some g ∧ (routeRecs s model)[layer]? = some x ∧ q.command = 6 ∧ q.args = leBytes model 4 ++ leBytes layer 2 ∧
      x.tallyOff + 16 + 16 * x.e ≤ g.size ∧ (∀ h k i j, i < g.size → j < g.size → regionAddr g h i = regionAddr g k j → h = k ∧ i = j)) :=
  ⟨⟨tallyModule, (mreq (some 1) 5 (leBytes 9 4 ++ leBytes 0 2 ++ leBytes 0 2 ++ leBytes 1 2)), (Requester.session), 9, 0, tallyRegion, (⟨0, 1, 1, 0, false, 0, 0, 1, 0, 0, true⟩ : RouteRec), 0, 1, by refine ⟨?_, ?_, ?a2, ?_, ?_, ?_, ?_, ?_, ?_, ?_, ?_, ?_, ?_⟩; (case a2 => unfold mboxOpen; decide +kernel); all_goals decide +kernel⟩,
    ⟨tallyModule, (mreq (some 1) 6 (leBytes 9 4 ++ leBytes 0 2)), (Requester.session), 9, 0, tallyRegion, (⟨0, 1, 1, 0, false, 0, 0, 1, 0, 0, true⟩ : RouteRec), by refine ⟨?_, ?_, ?a2, ?_, ?_, ?_, ?_, ?_, ?_, ?_, ?_, ?a11⟩; (case a2 => unfold mboxOpen; decide +kernel); (case a11 => exact tally_apart); all_goals decide +kernel⟩⟩

theorem test_hypotheses_mailbox_resets_updates_and_wakes :
    (∃ (s : State) (q : MboxReq) (r : Requester), s.fieldsCanonical = true ∧ mboxOpen s q r ∧ q.command = 7 ∧ r = .session ∧
      tokenLenOk q.args = true ∧ lcRefused s r (tokenOf q.args) = none ∧ held s = false) ∧
    (∃ (s : State) (q : MboxReq) (r : Requester), s.fieldsCanonical = true ∧ mboxOpen s q r ∧ q.command = 8 ∧ r = .session ∧
      tokenLenOk q.args = true ∧ debugRefused s (tokenOf q.args) = none ∧ held s = false) ∧
    (∃ (s : State) (q : MboxReq) (r : Requester), s.fieldsCanonical = true ∧ mboxOpen s q r ∧ q.command = 9 ∧ q.args = [] ∧
      policyAllows s 8 r = true ∧ getF s F.CFG_MODE = 2) ∧
    (∃ (s : State) (q : MboxReq) (r : Requester) (addr len : Nat), s.fieldsCanonical = true ∧ mboxOpen s q r ∧ q.command = 10 ∧
      q.args = leBytes addr 8 ++ leBytes len 4 ∧ addr < 2 ^ 64 ∧ addr % 4096 = 0 ∧ 4096 ≤ len ∧ len ≤ 117440512 ∧ policyAllows s 7 r = true ∧
      isSet s F.BOOT_UPD_STAT_BUSY = false ∧ getF s F.BOOT_STAT_SLOT < 2) ∧
    (∃ (s : State) (q : MboxReq) (r : Requester), s.fieldsCanonical = true ∧ mboxOpen s q r ∧ q.command = 16 ∧ q.args = [] ∧ s.pins.aux = true ∧
      lineBit s 0x14 = false) :=
  ⟨⟨lcTokenModule, (mreq (some 1) 7 (lcToken)), (Requester.session), by refine ⟨?_, ?a1, ?_, ?_, ?_, ?_, ?_⟩; (case a1 => unfold mboxOpen; decide +kernel); all_goals decide +kernel⟩,
    ⟨debugTokenModule, (mreq (some 1) 8 (debugToken)), (Requester.session), by refine ⟨?_, ?a1, ?_, ?_, ?_, ?_, ?_⟩; (case a1 => unfold mboxOpen; decide +kernel); all_goals decide +kernel⟩,
    ⟨(st [(F.BOOT_REC_FAIL_COUNT,2)] { up with spdm := { sessions := [⟨1, true, 0, 0⟩] } }), (mreq (some 1) 9 ([])), (Requester.session), by refine ⟨?_, ?a1, ?_, ?_, ?_, ?_⟩; (case a1 => unfold mboxOpen; decide +kernel); all_goals decide +kernel⟩,
    ⟨(st [(F.BOOT_STAT_SLOT,1)] { up with spdm := { sessions := [⟨1, true, 0, 0⟩] } }), (mreq (some 1) 10 (leBytes 0xFFFFFFFFFFFFF000 8 ++ leBytes 117440512 4)), (Requester.session), 0xFFFFFFFFFFFFF000, 117440512, by refine ⟨?_, ?a1, ?_, ?_, ?_, ?_, ?_, ?_, ?_, ?_, ?_⟩; (case a1 => unfold mboxOpen; decide +kernel); all_goals decide +kernel⟩,
    ⟨up, (mreq none 16 ([])), (Requester.mgmt), by refine ⟨?_, ?a1, ?_, ?_, ?_, ?_⟩; (case a1 => unfold mboxOpen; decide +kernel); all_goals decide +kernel⟩⟩

theorem test_hypotheses_readings_are_stored :
    (∃ (s : State) (r : Nat), s.fieldsCanonical = true ∧ r < 16) ∧
    (∃ (s : State) (c x : Nat), s.fieldsCanonical = true ∧ c < 64 ∧ x < 4096 ∧ (∀ d, d < 64 → getF s (F.TEL_TEMP_TEMP d) < 4096) ∧ tempOf x < 880) ∧
    (∃ (s : State) (c x : Nat), s.fieldsCanonical = true ∧ c < 64 ∧ x < 4096 ∧ 880 ≤ tempOf x ∧ s.pins.aux = true ∧ s.pins.thermTrip = false) ∧
    (∃ (s : State) (v mv : Nat), s.fieldsCanonical = true ∧ v < 32 ∧ mv < 4096 ∧ getF s (F.TEL_VMON_MIN_MV v) < 4096) ∧
    (∃ (s : State) (n c : Nat), s.fieldsCanonical = true ∧ n < 8 ∧ c < 256) ∧
    (∃ (s : State) (e w : Nat), s.fieldsCanonical = true ∧ e < 4096 ∧ w < 4096 ∧ tempOf e < 880 ∧ tempOf w < 880) ∧
    (∃ (s : State) (x : Nat), s.fieldsCanonical = true ∧ x < 4096 ∧ (s.pwr.dormant = false ∨ tempOf x < 880)) ∧
    (∃ (s : State) (d m : Nat), s.fieldsCanonical = true ∧ d < 3 ∧ m < 8) ∧
    (∃ (s : State) (c : Bool), s.fieldsCanonical = true ∧ c = true) :=
  ⟨⟨up, 15, by decide +kernel⟩,
    ⟨up, 63, 2048, by decide +kernel⟩,
    ⟨up, 63, 880, by decide +kernel⟩,
    ⟨up, 31, 4095, by decide +kernel⟩,
    ⟨up, 7, 255, by decide +kernel⟩,
    ⟨up, 4095, 879, by decide +kernel⟩,
    ⟨up, 4095, by decide +kernel⟩,
    ⟨up, 2, 7, by decide +kernel⟩,
    ⟨(st [(F.TEL_DROOP_CNT 31,5),(F.TEL_VMON_MIN_MV 31,7),(F.TEL_TEMP_MAX_TEMP,9)]), true, by decide +kernel⟩⟩

theorem test_hypotheses_cap_follows_slew_phases_and_louvre :
    (∃ (s : State) (n g : Nat), s.fieldsCanonical = true ∧ getF s F.PWR_CAP_CFG_SLEW = n ∧ 10 * getF s F.PWR_CAP_TARGET_W = g ∧ n ≠ 0 ∧ g ≠ 0 ∧
      s.pwr.rackCap ≠ g) ∧
    (∃ (s : State) (n : Nat), s.fieldsCanonical = true ∧ n < 24 ∧ bitF s F.PWR_VREG n = true ∧ getF s F.PWR_VREG < 2 ^ 24) ∧
    (∃ (s : State) (level : Nat), s.fieldsCanonical = true ∧ level < 4 ∧ level ≠ s.pins.louvre ∧ level = 3 ∧ s.pwr.droop = false) :=
  ⟨⟨(st [(F.PWR_CAP_CFG_SLEW,4095),(F.PWR_CAP_TARGET_W,400)]), 4095, 4000, by decide +kernel⟩,
    ⟨(st [(F.PWR_VREG,0xFFFFFF),(F.TEL_VID 0,550)]), 23, by decide +kernel⟩,
    ⟨up, 3, by decide +kernel⟩⟩

theorem test_hypotheses_droops_and_throttling :
    (∃ (s : State) (v : Nat), s.fieldsCanonical = true ∧ v < 32 ∧ v < 24 ∧ s.pwr.droop = false) ∧
    (∃ (s : State) (v : Nat), s.fieldsCanonical = true ∧ v < 32 ∧ (24 ≤ v ∨ s.pwr.droop = true)) ∧
    (∃ (s : State) (v : Nat), s.fieldsCanonical = true ∧ v < 24 ∧ isSet s (F.TEL_VMON_DROOP v) = true ∧ readsLow s v = true) ∧
    (∃ (s : State) (ac : Nat), s.fieldsCanonical = true ∧ s.pwr.droopAc + ac < 32) ∧
    (∃ (s : State) (ac : Nat), s.fieldsCanonical = true ∧ s.pwr.droop = true ∧ 32 ≤ s.pwr.droopAc + ac ∧
      (∀ v, v < 24 → isSet s (F.TEL_VMON_DROOP v) = true → readsLow s v = false) ∧ s.pwr.lag + (ac : Rat) / opMhz (getF s F.PWR_OP_CUR) ≤ 1) ∧
    (∃ (s : State), s.fieldsCanonical = true ∧ overTemp s = true ∧ (s.pwr.hot = false ∨ s.pwr.throttleAt + 100000 ≤ getF s F.TICK_DT) ∧
      isSet s F.PWR_STAT_THROTTLING = false) ∧
    (∃ (s : State) (c : Nat), s.fieldsCanonical = true ∧ s.pwr.coolSince = some c ∧ isSet s F.PWR_STAT_THROTTLING = true ∧ coolTemp s = true ∧
      c + 100000 ≤ getF s F.TICK_DT ∧ s.pwr.throttleAt + 100000 ≤ getF s F.TICK_DT) :=
  ⟨⟨up, 23, by decide +kernel⟩,
    ⟨up, 31, by decide +kernel⟩,
    ⟨(st [(F.PWR_OP_RAIL_MV,700),(F.TEL_VMON_DROOP 23,1),(F.TEL_VMON_NOW_MV 23,1)] {pwr := {droop := true, droopAc := 2, railMv := 700, vmonSeen := 2^23}}), 23, by decide +kernel⟩,
    ⟨(st [(F.PWR_OP_RAIL_MV,700),(F.TEL_VMON_DROOP 23,1),(F.TEL_VMON_NOW_MV 23,1)] {pwr := {droop := true, droopAc := 2, railMv := 700, vmonSeen := 2^23}}), 29, by decide +kernel⟩,
    ⟨(st [(F.TEL_VMON_DROOP 23,1)] {pwr := {droop := true, droopAc := 2, opWait := some 7}}), 30, by decide +kernel⟩,
    ⟨(st [(F.PWR_THERM_THROTTLE_C,0),(F.PWR_RANGE_OP_MAX,15),(F.TICK_DT,100000),(F.TEL_TEMP_MAX_TEMP,99)]), by decide +kernel⟩,
    ⟨(st [(F.PWR_STAT_THROTTLING,1),(F.PWR_THERM_THROTTLE_C,255),(F.PWR_THERM_HBM_C,255),(F.TICK_DT,100000)] {pwr := {coolSince := some 0, throttle := [1]}}), 0, by decide +kernel⟩⟩

theorem test_hypotheses_estimates_and_ramps :
    (∃ (s : State) (mv : Nat), s.fieldsCanonical = true ∧ getF s F.PWR_OP_CUR < getF s F.PWR_OP_TARGET ∧ getF s F.PWR_OP_TARGET < 16 ∧
      opMv s (getF s F.PWR_OP_CUR + 1) ≤ mv ∧ opMv s (getF s F.PWR_OP_CUR) ≤ mv ∧
      (getF s F.PWR_OP_CUR + 1 ≤ getF s F.PWR_RANGE_OP_MIN ∨ predAt s (nowEnergy s) (getF s F.PWR_OP_CUR + 1) mv ≤ capTarget s) ∧
      s.pwr.opWait = none ∧ s.pwr.droop = false) ∧
    (∃ (s : State) (mv : Nat), s.fieldsCanonical = true ∧ s.pwr.opWait = none ∧ opMv s (getF s F.PWR_OP_CUR) ≤ mv ∧
      mv < opMv s (getF s F.PWR_OP_CUR + 1)) ∧
    (∃ (s : State) (mv : Nat), s.fieldsCanonical = true ∧ mv < opMv s (getF s F.PWR_OP_CUR)) ∧
    (∃ (s : State), s.fieldsCanonical = true) ∧
    (∃ (s : State), s.fieldsCanonical = true ∧ s.pwr.calHeld < 64) ∧
    (∃ (s : State), s.fieldsCanonical = true ∧ s.pwr.others.length < 10) ∧
    (∃ (s : State), s.fieldsCanonical = true ∧ s.pwr.others.length = 10) :=
  ⟨⟨(st [(F.PWR_OP_TARGET,15),(F.PWR_OP_CUR,14),(F.TEL_VID 15,900)]), 900, by decide +kernel⟩,
    ⟨(st [(F.TEL_VID 1,575)]), 574, by decide +kernel⟩,
    ⟨(st [(F.TEL_VID 0,550)]), 3, by decide +kernel⟩,
    ⟨up, by decide +kernel⟩,
    ⟨up, by decide +kernel⟩,
    ⟨up, by decide +kernel⟩,
    ⟨({pwr := {others := List.replicate 10 3}} : State), by decide +kernel⟩⟩

theorem test_hypotheses_supply_failures_turn_rails_off :
    (∃ (s : State), s.fieldsCanonical = true ∧ s.pins.aux = true ∧ s.pins.thermTrip = false ∧ s.pins.rails < 2 ^ 16) ∧
    (∃ (s : State), s.fieldsCanonical = true ∧ s.pins.thermTrip = true) ∧
    (∃ (s : State), s.fieldsCanonical = true ∧ inputStage s = true ∧ s.pins.rails < 2 ^ 16) ∧
    (∃ (s : State), s.fieldsCanonical = true ∧ s.pins.main = true ∧ inputStage s = false) ∧
    (∃ (s : State), s.fieldsCanonical = true ∧ inputStage s = true ∧ getF s (F.IRQ_SRC_FILTER 0x16) ≤ 1) :=
  ⟨⟨up, by decide +kernel⟩,
    ⟨({ pins := { thermTrip := true } } : State), by decide +kernel⟩,
    ⟨up, by decide +kernel⟩,
    ⟨({ pins := { thermTrip := true, modPg := false, rails := 0x8008 } } : State), by decide +kernel⟩,
    ⟨(st [(F.IRQ_SRC_FILTER 0x16,1)]), by decide +kernel⟩⟩

theorem test_hypotheses_power_comes_up :
    (∃ (s : State), s.fieldsCanonical = true ∧ s.pins.aux = false ∧ s.pins.main = true ∧ s.pins.blocked = false ∧ s.pins.thermTrip = false) ∧
    (∃ (s : State), s.fieldsCanonical = true ∧ s.pins.main = false ∧ s.pins.aux = true ∧ s.pins.thermTrip = false ∧ s.pins.blocked = false ∧
      s.pins.coldDue = false) ∧
    (∃ (s : State), s.fieldsCanonical = true ∧ s.pins.powering = true ∧ s.pins.rails < 2 ^ 16) ∧
    (∃ (s : State) (r : Nat), s.fieldsCanonical = true ∧ r < 16 ∧ powered s = true ∧ bitOf s.pins.rails r = true) :=
  ⟨⟨({ pins := { aux := false, modPg := false, rails := 0 } } : State), by decide +kernel⟩,
    ⟨({ pins := { main := false, modPg := false, coldDue := false, rails := 0 } } : State), by decide +kernel⟩,
    ⟨({ pins := { powering := true } } : State), by decide +kernel⟩,
    ⟨up, 15, by decide +kernel⟩⟩

theorem test_hypotheses_reset_pins_hold_the_module :
    (∃ (s : State), s.fieldsCanonical = true ∧ powered s = true ∧ s.boot.phase ≠ .held ∧ s.pins.sysRst = false) ∧
    (∃ (s : State), s.fieldsCanonical = true ∧ powered s = true ∧ s.boot.phase ≠ .held ∧ s.pins.perst = false) ∧
    (∃ (s : State), s.fieldsCanonical = true ∧ powered s = true ∧ s.boot.phase = .held ∧ s.pins.resetAt = getF s F.TICK_DT ∧
      getF s F.BOOT_RESET_REASON = 3 ∧ s.pins.perst = false) ∧
    (∃ (s : State), s.fieldsCanonical = true ∧ s.boot.phase = .held ∧ s.pins.aux = true ∧ (s.pins.powering = true ∨ s.pins.modPg = true) ∧
      s.pins.sysRst = false ∧ s.pins.perst = false ∧ s.pins.rails < 2 ^ 16) ∧
    (∃ (s : State), s.fieldsCanonical = true ∧ s.boot.phase = .held ∧ s.pins.aux = true ∧ s.pins.powering = false ∧
      (s.pins.sysRst = true ∨ s.pins.perst = true)) :=
  ⟨⟨up, by decide +kernel⟩,
    ⟨up, by decide +kernel⟩,
    ⟨(st [(F.TICK_DT,5),(F.BOOT_RESET_REASON,3)] ({ pins := { resetAt := 5, sysRst := true } })), by decide +kernel⟩,
    ⟨({ pins := {} } : State), by decide +kernel⟩,
    ⟨({ pins := { perst := true } } : State), by decide +kernel⟩⟩

theorem test_hypotheses_restarts_follow :
    (∃ (s : State), s.fieldsCanonical = true ∧ s.boot.phase = .failWait ∧ s.boot.failAt + 10000000 ≤ getF s F.TICK_DT ∧ held s = false) ∧
    (∃ (s : State), s.fieldsCanonical = true ∧ s.boot.phase = .failWait ∧ getF s F.TICK_DT < s.boot.failAt + 10000000) ∧
    (∃ (s : State) (r : Requester), s.fieldsCanonical = true ∧ bootCtlServed s = true ∧ policyAllows s 8 r = true ∧ held s = false ∧
      s.boot.clearAsked = true) ∧
    (∃ (s : State) (r : Requester), s.fieldsCanonical = true ∧ policyAllows s 8 r = false) ∧
    (∃ (s : State) (r : Requester), s.fieldsCanonical = true ∧ policyAllows s 8 r = true ∧ bootCtlServed s = false) :=
  ⟨⟨(st [(F.TICK_DT,10000000)] { boot := { phase := .failWait } }), by decide +kernel⟩,
    ⟨({ boot := { phase := .failWait } } : State), by decide +kernel⟩,
    ⟨({ up with boot := { phase := .ready, clearAsked := true } } : State), (Requester.session), by decide +kernel⟩,
    ⟨up, (Requester.host), by decide +kernel⟩,
    ⟨({} : State), (Requester.steward 0), by decide +kernel⟩⟩

theorem test_hypotheses_boot_steps_follow :
    (∃ (s : State) (d : BootData), s.fieldsCanonical = true ∧ s.boot.phase = .running ∧ getF s F.BOOT_STAT_STEP = 1 ∧
      getF s F.TICK_DT ≤ s.boot.stepAt + 100000000 ∧ d.tests % 64 ≠ 63) ∧
    (∃ (s : State) (d : BootData) (j : LcJob), s.fieldsCanonical = true ∧ s.boot.phase = .running ∧ getF s F.BOOT_STAT_STEP = 1 ∧
      getF s F.TICK_DT ≤ s.boot.stepAt + 100000000 ∧ d.tests % 64 = 63 ∧ s.boot.safe = false ∧ s.boot.lc = some j ∧ j.genDone = false ∧
      j.target < 4) ∧
    (∃ (s : State) (d : BootData), s.fieldsCanonical = true ∧ s.boot.phase = .running ∧ getF s F.BOOT_STAT_STEP = 4 ∧
      getF s F.TICK_DT ≤ s.boot.stepAt + 800000000 ∧ s.boot.nearOut = 0 ∧ d.near = 0xFF) ∧
    (∃ (s : State), s.fieldsCanonical = true ∧ s.boot.phase = .running ∧ getF s F.BOOT_STAT_STEP = 7 ∧ getF s F.TICK_DT ≤ s.boot.stepAt + 400000000 ∧
      s.stw.closed ≠ 1) ∧
    (∃ (s : State) (d : BootData), s.fieldsCanonical = true ∧ s.boot.phase = .running ∧ getF s F.BOOT_STAT_STEP = 7 ∧
      getF s F.TICK_DT ≤ s.boot.stepAt + 400000000 ∧ s.stw.closed = 1 ∧ s.boot.retired = [] ∧ d.defects = []) ∧
    (∃ (s : State) (d : BootData), s.fieldsCanonical = true ∧ s.boot.phase = .running ∧ getF s F.BOOT_STAT_STEP = 8 ∧
      getF s F.TICK_DT ≤ s.boot.stepAt + 1500000000 ∧ d.wipeNear = 0 ∧ d.wipeBulk = 0 ∧ s.mem.early = []) ∧
    (∃ (s : State), s.fieldsCanonical = true ∧ s.boot.phase = .running ∧ getF s F.BOOT_STAT_STEP = 10 ∧ s.boot.ejectSeen = true) ∧
    (∃ (s : State) (cause : Nat), s.fieldsCanonical = true ∧ s.boot.phase = .running ∧ getF s F.BOOT_STAT_STEP = 6 ∧ tablesOk s = false ∧ 0 < cause ∧
      cause < 15) ∧
    (∃ (s : State) (k : Nat), s.fieldsCanonical = true ∧ s.boot.phase = .running ∧ 2 < k ∧ k < 10 ∧ getF s F.BOOT_STAT_STEP = k ∧
      (k = 6 → tablesOk s = true) ∧ s.boot.stepAt + 1000000 * stepLimit k < getF s F.TICK_DT) ∧
    (∃ (s : State) (k cause : Nat), s.fieldsCanonical = true ∧ s.boot.phase = .running ∧ k < 16 ∧ 0 < cause ∧ cause < 15 ∧
      getF s F.BOOT_STAT_STEP = k ∧ k ≠ 10 ∧ (k = 6 → tablesOk s = true ∧ (cause = 9 → failsAt s 6 < 2)) ∧
      (cause = 2 ∨ 2 ≤ getF s F.BOOT_REC_FAIL_COUNT)) ∧
    (∃ (s : State) (k cause : Nat), s.fieldsCanonical = true ∧ s.boot.phase = .running ∧ k < 16 ∧ 0 < cause ∧ cause < 15 ∧
      getF s F.BOOT_STAT_STEP = k ∧ k ≠ 10 ∧ (k = 6 → tablesOk s = true ∧ (cause = 9 → failsAt s 6 < 2)) ∧ cause ≠ 2 ∧
      getF s F.BOOT_REC_FAIL_COUNT < 2) ∧
    (∃ (s : State) (k cause : Nat), s.fieldsCanonical = true ∧ s.boot.phase = .running ∧ k < 16 ∧ 0 < cause ∧ cause < 15 ∧
      getF s F.BOOT_STAT_STEP = k ∧ k ≠ 10 ∧ (k = 6 → tablesOk s = true ∧ (cause = 9 → failsAt s 6 < 2)) ∧ cause = 2) :=
  ⟨⟨(st [(F.BOOT_STAT_STEP,1),(F.TICK_DT,100000000)] { boot := { phase := .running, lc := some ⟨3, none, false⟩ } }), ({ tests := 62 } : BootData), by decide +kernel⟩,
    ⟨(st [(F.BOOT_STAT_STEP,1),(F.TICK_DT,100000000)] { boot := { phase := .running, lc := some ⟨3, none, false⟩ } }), ({ tests := 63 } : BootData), (⟨3, none, false⟩ : LcJob), by decide +kernel⟩,
    ⟨(st [(F.BOOT_STAT_STEP,4),(F.TICK_DT,800000000)] { boot := { phase := .running } }), ({ near := 0xFF } : BootData), by decide +kernel⟩,
    ⟨(st [(F.BOOT_STAT_STEP,7),(F.TICK_DT,400000000)] { boot := { phase := .running } }), by decide +kernel⟩,
    ⟨(st [(F.BOOT_STAT_STEP,7),(F.TICK_DT,400000000)] { boot := { phase := .running }, stw := { closed := 1 } }), ({} : BootData), by decide +kernel⟩,
    ⟨(st [(F.BOOT_STAT_STEP,8),(F.TICK_DT,1500000000)] { boot := { phase := .running } }), ({} : BootData), by decide +kernel⟩,
    ⟨(st [(F.BOOT_STAT_STEP,10),(F.TICK_DT,5)] { boot := { phase := .running, ejectSeen := true } }), by decide +kernel⟩,
    ⟨(st [(F.BOOT_STAT_STEP,6)] { boot := { phase := .running }, span := { xfers := [1] } }), 1, by decide +kernel⟩,
    ⟨(st [(F.BOOT_STAT_STEP,9),(F.TICK_DT,2^60)] { boot := { phase := .running } }), 9, by decide +kernel⟩,
    ⟨(st [(F.BOOT_STAT_STEP,6),(F.TICK_DT,5),(F.BOOT_REC_FAIL_COUNT,2)] { boot := { phase := .running } }), 6, 1, by decide +kernel⟩,
    ⟨(st [(F.BOOT_STAT_STEP,15),(F.TICK_DT,5)] { boot := { phase := .running } }), 15, 14, by decide +kernel⟩,
    ⟨(st [(F.BOOT_STAT_STEP,6),(F.TICK_DT,5)] { boot := { phase := .running } }), 6, 2, by decide +kernel⟩⟩

theorem test_hypotheses_image_updates_write_the_other_slot :
    (∃ (s : State) (r : Requester), s.fieldsCanonical = true ∧ isSet s F.BOOT_UPD_STAT_BUSY = false ∧ s.boot.phase ≠ .held ∧
      getF s F.BOOT_STAT_SLOT < 2 ∧ policyAllows s 7 r = true ∧ 4096 ≤ getF s F.BOOT_UPD_LEN ∧ getF s F.BOOT_UPD_LEN ≤ 117440512) ∧
    (∃ (s : State) (r : Requester), s.fieldsCanonical = true ∧ isSet s F.BOOT_UPD_STAT_BUSY = false ∧ s.boot.phase ≠ .held ∧
      getF s F.BOOT_STAT_SLOT < 2 ∧ policyAllows s 7 r = true ∧ getF s F.BOOT_UPD_LEN < 4096) ∧
    (∃ (s : State) (r : Requester), s.fieldsCanonical = true ∧ isSet s F.BOOT_UPD_STAT_BUSY = false ∧ s.boot.phase ≠ .held ∧
      getF s F.BOOT_STAT_SLOT < 2 ∧ policyAllows s 7 r = false) ∧
    (∃ (s : State) (r : Requester), s.fieldsCanonical = true ∧ isSet s F.BOOT_UPD_STAT_BUSY = true ∧ s.boot.phase ≠ .held ∧
      policyAllows s 7 r = true) ∧
    (∃ (s : State) (r : Requester), s.fieldsCanonical = true ∧ isSet s F.BOOT_UPD_STAT_BUSY = true ∧ s.boot.phase ≠ .held ∧
      policyAllows s 7 r = false) ∧
    (∃ (s : State) (j : UpdateJob) (image : List Byte) (b : _), s.fieldsCanonical = true ∧ s.boot.update = some j ∧ j.slot < 2 ∧
      b = image.take (getF s F.BOOT_UPD_LEN) ++ List.replicate (getF s F.BOOT_UPD_LEN - image.length) 0#8) :=
  ⟨⟨(st [(F.BOOT_STAT_SLOT,1),(F.BOOT_UPD_LEN,117440512)] up), (Requester.session), by decide +kernel⟩,
    ⟨(st [(F.BOOT_UPD_LEN,4095)] up), (Requester.session), by decide +kernel⟩,
    ⟨up, (Requester.host), by decide +kernel⟩,
    ⟨(st [(F.BOOT_UPD_STAT_BUSY,1)] up), (Requester.session), by decide +kernel⟩,
    ⟨(st [(F.BOOT_UPD_STAT_BUSY,1)] up), (Requester.host), by decide +kernel⟩,
    ⟨(st [(F.BOOT_UPD_LEN,3)] { boot := { update := some ⟨1⟩ } }), (⟨1⟩ : UpdateJob), [1#8], [1#8, 0#8, 0#8], by decide +kernel⟩⟩

theorem test_hypotheses_dormancy_and_ejection :
    (∃ (s : State) (r : Requester), s.fieldsCanonical = true ∧ s.boot.phase = .ready ∧ s.pwr.dormant = false ∧ policyAllows s 3 r = false) ∧
    (∃ (s : State) (r : Requester), s.fieldsCanonical = true ∧ s.boot.phase = .ready ∧ s.pwr.dormant = false ∧ policyAllows s 3 r = true ∧
      inMaintenance s = false) ∧
    (∃ (s : State) (r : Requester), s.fieldsCanonical = true ∧ s.boot.phase = .ready ∧ s.pwr.dormant = false ∧ dormantRefused s r = none ∧
      s.mem.jobs = [] ∧ s.pins.rails < 2 ^ 16) ∧
    (∃ (s : State), s.fieldsCanonical = true ∧ s.pins.aux = true ∧ s.pwr.dormant = true ∧ 0 < getF s F.PWR_WAKE_AT ∧
      getF s F.PWR_WAKE_AT ≤ getF s F.TICK_DT ∧ s.pins.rails < 2 ^ 16 ∧ s.boot.ejectSeen = true) ∧
    (∃ (s : State), s.fieldsCanonical = true ∧ s.pins.aux = true ∧ s.pwr.dormant = true ∧ s.pins.wakeLine = false) ∧
    (∃ (s : State) (p : LatchPin), s.fieldsCanonical = true ∧ s.pins.aux = true ∧ s.pwr.dormant = false ∧ p ≠ .eject ∧
      (p = .wake → s.pins.wakeLine = false) ∧ (p = .louvre0 → s.pins.louvre0 = false) ∧ (p = .louvre1 → s.pins.louvre1 = false) ∧
      lineBit s (latchSource p) = false) ∧
    (∃ (s : State) (p : LatchPin), s.fieldsCanonical = true ∧ s.pins.aux = true ∧ p = .eject) ∧
    (∃ (s : State) (p : LatchPin), s.fieldsCanonical = true ∧ s.pins.aux = true ∧ p = .wake) ∧
    (∃ (s : State) (p : LatchPin), s.fieldsCanonical = true ∧ s.pins.aux = true ∧ p = .louvre0) ∧
    (∃ (s : State) (p : LatchPin), s.fieldsCanonical = true ∧ s.pins.aux = true ∧ p = .louvre1) ∧
    (∃ (s : State), s.fieldsCanonical = true ∧ s.pins.aux = true ∧ s.pins.ejectWarn = false ∧ s.boot.phase ≠ .ready) ∧
    (∃ (s : State), s.fieldsCanonical = true ∧ s.pins.aux = true ∧ s.pins.ejectWarn = false ∧ s.boot.phase = .ready ∧ s.pwr.dormant = false ∧
      s.adm.ejecting = false ∧ s.frame.hasLive = false ∧ inSpan s = false) ∧
    (∃ (s : State), s.fieldsCanonical = true ∧ s.adm.ejecting = true ∧ s.adm.stopped = false ∧ frameEnded s = true ∧ s.adm.reqs = []) :=
  ⟨⟨up, (Requester.host), by decide +kernel⟩,
    ⟨(st [(F.CFG_MODE,1)] up), (Requester.session), by decide +kernel⟩,
    ⟨up, (Requester.session), by decide +kernel⟩,
    ⟨(st [(F.TICK_DT,7),(F.PWR_WAKE_AT,7)] { pwr := { dormant := true }, boot := { ejectSeen := true } }), by decide +kernel⟩,
    ⟨({ pwr := { dormant := true } } : State), by decide +kernel⟩,
    ⟨up, (LatchPin.wake), by decide +kernel⟩,
    ⟨({ pins := { wakeLine := true, ejectWarn := true, louvre0 := true } } : State), (LatchPin.eject), by decide +kernel⟩,
    ⟨({ pins := { wakeLine := true, ejectWarn := true, louvre0 := true } } : State), (LatchPin.wake), by decide +kernel⟩,
    ⟨({ pins := { wakeLine := true, ejectWarn := true, louvre0 := true } } : State), (LatchPin.louvre0), by decide +kernel⟩,
    ⟨({ pins := { wakeLine := true, ejectWarn := true, louvre0 := true } } : State), (LatchPin.louvre1), by decide +kernel⟩,
    ⟨({} : State), by decide +kernel⟩,
    ⟨up, by decide +kernel⟩,
    ⟨({ up with adm := { ejecting := true } } : State), by decide +kernel⟩⟩

theorem test_hypotheses_encodings_round_trip :
    (∃ (f : Flit) (ack : Nat), f.type < 8 ∧ f.len = f.payload.length ∧ f.len ≤ 242 ∧ f.seq < 65536 ∧ f.chan < 65536 ∧ f.off < 65536 ∧ ack < 65536) ∧
    (∃ (m : CtrlMsg), m.msg < 256 ∧ m.from_ < 65536 ∧ m.to_ < 65536 ∧ m.tick < 2 ^ 48 ∧ m.stamp.tick < 2 ^ 48 ∧ m.stamp.cif < 2 ^ 25 ∧
      m.stamp.src < 65536 ∧ m.stamp.seq < 2 ^ 32 ∧ m.arg < 2 ^ 256) :=
  ⟨⟨({ type := 7, last := true, len := 242, seq := 65535, chan := 65535, off := 65535, payload := List.replicate 242 9#8 } : Flit), 65535, by decide +kernel⟩,
    ⟨({ msg := 255, from_ := 65535, to_ := 65535, tick := 2^48-1, stamp := ⟨2^48-1, 2^25-1, 65535, true, 2^32-1⟩, arg := 2^256-1 } : CtrlMsg), by decide +kernel⟩⟩

theorem test_hypotheses_rounds_and_replay_timers :
    (∃ (s : State) (p : Nat) (l : LinkSt) (lanes : List Nat), s.fieldsCanonical = true ∧ s.unitsCanonical = true ∧ p < 16 ∧ l = link s p ∧
      portUp s p = true ∧ lanes = lanesOf (getF s (F.LNK_WIDTH_TX_MAP p)) ∧ l.confirm = none ∧ l.notice = none ∧ l.syncDue = false ∧
      l.nakDue = false ∧ l.dataQ = [] ∧ l.boardQ = [] ∧ s.span.sends = [] ∧ l.buf = [] ∧ l.tx = .normal ∧ l.ctrlQ = []) ∧
    (∃ (s : State) (p : Nat) (l : LinkSt) (lanes : List Nat) (b f : _), s.fieldsCanonical = true ∧ s.unitsCanonical = true ∧ p < 16 ∧ l = link s p ∧
      portUp s p = true ∧ lanes = lanesOf (getF s (F.LNK_WIDTH_TX_MAP p)) ∧ l.confirm = none ∧ l.notice = none ∧ l.syncDue = false ∧
      l.nakDue = false ∧ l.dataQ = [] ∧ l.boardQ = [] ∧ s.span.sends = [] ∧ l.buf = [] ∧ l.tx = .normal ∧ lanes ≠ [] ∧ l.ctrlQ = [b] ∧
      f = { ctrlFlit b with seq := l.txNext }) ∧
    (∃ (s : State) (p : Nat) (l : LinkSt) (lanes : List Nat) (f : Flit), s.fieldsCanonical = true ∧ s.unitsCanonical = true ∧ p < 16 ∧ l = link s p ∧
      portUp s p = true ∧ lanes = lanesOf (getF s (F.LNK_WIDTH_TX_MAP p)) ∧ l.confirm = none ∧ l.notice = none ∧ l.syncDue = false ∧
      l.nakDue = false ∧ l.dataQ = [] ∧ l.boardQ = [] ∧ s.span.sends = [] ∧ l.buf = [f] ∧ l.tx = .replay f.seq ∧ l.txNext = (f.seq + 1) % 65536 ∧
      lanes ≠ [] ∧ l.ctrlQ = []) ∧
    (∃ (s : State) (p : Nat) (l : LinkSt) (lanes : List Nat), s.fieldsCanonical = true ∧ s.unitsCanonical = true ∧ p < 16 ∧ l = link s p ∧
      (portState s p = 2 ∨ portState s p = 5 ∨ (portState s p = 6 ∧ l.rxGood ≠ 0)) ∧
      lanes = (match l.train with | some b => lanesOf (trainMap b) | none => List.range 8)) ∧
    (∃ (s : State) (p : Nat) (l : LinkSt) (f : Flit) (rest : _), s.fieldsCanonical = true ∧ s.unitsCanonical = true ∧ p < 16 ∧ portUp s p = true ∧
      l = link s p ∧ l.buf = f :: rest ∧ l.tx = .normal ∧ l.progressAt + getF s (F.LNK_TIMER_REPLAY_NS p) ≤ getF s F.TICK_DT ∧ l.replays < 7) ∧
    (∃ (s : State) (p : Nat) (l : LinkSt) (f : Flit) (rest : _), s.fieldsCanonical = true ∧ s.unitsCanonical = true ∧ p < 16 ∧ portUp s p = true ∧
      l = link s p ∧ l.buf = f :: rest ∧ l.tx = .normal ∧ l.progressAt + getF s (F.LNK_TIMER_REPLAY_NS p) ≤ getF s F.TICK_DT ∧ 7 ≤ l.replays) ∧
    (∃ (s : State) (p : Nat) (l : LinkSt), s.fieldsCanonical = true ∧ s.unitsCanonical = true ∧ p < 16 ∧ portUp s p = true ∧ l = link s p ∧
      getF s F.TICK_DT < l.progressAt + getF s (F.LNK_TIMER_REPLAY_NS p)) ∧
    (∃ (s : State) (p : Nat) (l : LinkSt), s.fieldsCanonical = true ∧ s.unitsCanonical = true ∧ p < 16 ∧ portUp s p = true ∧ l = link s p ∧
      l.discard = true ∧ l.nakDue = false ∧ l.nakAt + getF s (F.LNK_TIMER_NAK_NS p) ≤ getF s F.TICK_DT) :=
  ⟨⟨(st [(F.LNK_STAT_STATE 15, 3), (F.LNK_WIDTH_TX_MAP 15, 0x81), (F.LNK_WIDTH_RX_MAP 15, 0x81)] { links := [(15, ({ round := 255, ctrlQ := [] } : LinkSt))] }), 15, ({ round := 255 } : LinkSt), [0, 7], by decide +kernel⟩,
    ⟨(st [(F.LNK_STAT_STATE 15, 3), (F.LNK_WIDTH_TX_MAP 15, 0x81), (F.LNK_WIDTH_RX_MAP 15, 0x81)] { links := [(15, ({ txNext := 65535, ctrlQ := [List.replicate 64 7#8] } : LinkSt))] }), 15, ({ txNext := 65535, ctrlQ := [List.replicate 64 7#8] } : LinkSt), [0, 7], (List.replicate 64 7#8), ({ ctrlFlit (List.replicate 64 7#8) with seq := 65535 }), by decide +kernel⟩,
    ⟨(st [(F.LNK_STAT_STATE 15, 3), (F.LNK_WIDTH_TX_MAP 15, 0x81), (F.LNK_WIDTH_RX_MAP 15, 0x81)] { links := [(15, ({ txNext := 0, buf := [{ seq := 65535 }], tx := .replay 65535 } : LinkSt))] }), 15, ({ txNext := 0, buf := [{ seq := 65535 }], tx := .replay 65535 } : LinkSt), [0, 7], ({ seq := 65535 } : Flit), by decide +kernel⟩,
    ⟨(st [(F.LNK_STAT_STATE 15, 2)] { links := [(15, ({ round := 255 } : LinkSt))] }), 15, ({ round := 255 } : LinkSt), (List.range 8), by decide +kernel⟩,
    ⟨(st [(F.TICK_DT,40),(F.LNK_TIMER_REPLAY_NS 15,40)] ((st [(F.LNK_STAT_STATE 15, 3), (F.LNK_WIDTH_TX_MAP 15, 0x81), (F.LNK_WIDTH_RX_MAP 15, 0x81)] { links := [(15, ({ buf := [{ seq := 65535 }, {}] } : LinkSt))] }))), 15, ({ buf := [{ seq := 65535 }, {}] } : LinkSt), ({ seq := 65535 } : Flit), [{}], by decide +kernel⟩,
    ⟨(st [(F.TICK_DT,40),(F.LNK_TIMER_REPLAY_NS 15,40)] ((st [(F.LNK_STAT_STATE 15, 3), (F.LNK_WIDTH_TX_MAP 15, 0x81), (F.LNK_WIDTH_RX_MAP 15, 0x81)] { links := [(15, ({ replays := 7, buf := [{ seq := 65535 }, {}] } : LinkSt))] }))), 15, ({ replays := 7, buf := [{ seq := 65535 }, {}] } : LinkSt), ({ seq := 65535 } : Flit), [{}], by decide +kernel⟩,
    ⟨(st [(F.LNK_TIMER_REPLAY_NS 15,40)] ((st [(F.LNK_STAT_STATE 15, 3), (F.LNK_WIDTH_TX_MAP 15, 0x81), (F.LNK_WIDTH_RX_MAP 15, 0x81)] { links := [(15, ({ buf := [{}] } : LinkSt))] }))), 15, ({ buf := [{}] } : LinkSt), by decide +kernel⟩,
    ⟨(st [(F.TICK_DT,40),(F.LNK_TIMER_NAK_NS 15,40)] ((st [(F.LNK_STAT_STATE 15, 3), (F.LNK_WIDTH_TX_MAP 15, 0x81), (F.LNK_WIDTH_RX_MAP 15, 0x81)] { links := [(15, ({ discard := true } : LinkSt))] }))), 15, ({ discard := true } : LinkSt), by decide +kernel⟩⟩

theorem test_hypotheses_bad_pairs_invalidate_their_flits :
    (∃ (s : State) (p : Nat) (x : FlitSlot) (l : LinkSt) (k : LaneRx) (n m : Nat), s.fieldsCanonical = true ∧ s.unitsCanonical = true ∧ p < 16 ∧
      l = link s p ∧ k = laneRx s p x.lane ∧ portUp s p = true ∧ x.slot = 0 ∧ x.lane < 8 ∧ x.errs = [n, m] ∧ (15 < n ∨ 15 < m) ∧ l.rxq = [] ∧
      k.run < 3 ∧ k.times.length < 15 ∧ l.rxAt = some ((k.round + 1) % 256, x.lane, 0) ∧ x.lane ∈ takenLanes s p) ∧
    (∃ (s : State) (p : Nat) (x : FlitSlot) (l : LinkSt) (k : LaneRx) (n m : Nat), s.fieldsCanonical = true ∧ s.unitsCanonical = true ∧ p < 16 ∧
      l = link s p ∧ k = laneRx s p x.lane ∧ portUp s p = true ∧ x.slot = 0 ∧ x.lane < 8 ∧ x.errs = [n, m] ∧ (15 < n ∨ 15 < m) ∧ l.rxq = [] ∧
      k.run = 3 ∧ l.notice = none ∧ getF s (F.LNK_WIDTH_RX_MAP p) < 256 ∧ bitF s (F.LNK_WIDTH_RX_MAP p) x.lane = true ∧
      getF s (F.LNK_WIDTH_RX_MAP p) ≠ 2 ^ x.lane) ∧
    (∃ (s : State) (p : Nat) (x : FlitSlot) (l : LinkSt) (k : LaneRx), s.fieldsCanonical = true ∧ s.unitsCanonical = true ∧ p < 16 ∧ l = link s p ∧
      k = laneRx s p x.lane ∧ (portState s p = 2 ∨ portState s p = 5) ∧ 0 < x.slot ∧ (k.bad = true ∨ flitOf x.bytes = none)) ∧
    (∃ (s : State) (p : Nat) (x : FlitSlot) (l : LinkSt) (k : LaneRx) (b : _), s.fieldsCanonical = true ∧ s.unitsCanonical = true ∧ p < 16 ∧
      l = link s p ∧ k = laneRx s p x.lane ∧ inTurn s p x ∧ k.bad = true ∧ flitOf b = none) :=
  ⟨⟨(st [(F.LNK_STAT_STATE 15, 3), (F.LNK_WIDTH_TX_MAP 15, 0x81), (F.LNK_WIDTH_RX_MAP 15, 0x81)] { links := [(15, ({ rxAt := some (0, 7, 0), lanes := [{ lane := 7, round := 255, run := 2 }] } : LinkSt))] }), 15, ({ lane := 7, slot := 0, header := 0xC3A5 + 7 * 2 ^ 16 + 9 * 2 ^ 24, errs := [16, 0], bytes := [] } : FlitSlot), ({ rxAt := some (0, 7, 0), lanes := [{ lane := 7, round := 255, run := 2 }] } : LinkSt), ({ lane := 7, round := 255, run := 2 } : LaneRx), 16, 0, by decide +kernel⟩,
    ⟨(st [(F.LNK_STAT_STATE 15, 3), (F.LNK_WIDTH_TX_MAP 15, 0x81), (F.LNK_WIDTH_RX_MAP 15, 0x81)] { links := [(15, ({ lanes := [{ lane := 7, round := 255, run := 3 }] } : LinkSt))] }), 15, ({ lane := 7, slot := 0, header := 0xC3A5 + 7 * 2 ^ 16 + 9 * 2 ^ 24, errs := [16, 0], bytes := [] } : FlitSlot), ({ lanes := [{ lane := 7, round := 255, run := 3 }] } : LinkSt), ({ lane := 7, round := 255, run := 3 } : LaneRx), 16, 0, by decide +kernel⟩,
    ⟨(st [(F.LNK_STAT_STATE 15, 2), (F.LNK_WIDTH_TX_MAP 15, 0x81), (F.LNK_WIDTH_RX_MAP 15, 0x81)] { links := [(15, ({ lanes := [{ lane := 7, round := 9, bad := true }], rxAt := some (9, 7, 3) } : LinkSt))] }), 15, ({ lane := 7, slot := 3, header := 0, errs := [], bytes := flitBytes false 65535 ({ type := 2, last := true, len := 1, seq := 7, chan := 5, payload := [9#8] } : Flit) } : FlitSlot), ({ lanes := [{ lane := 7, round := 9, bad := true }], rxAt := some (9, 7, 3) } : LinkSt), ({ lane := 7, round := 9, bad := true } : LaneRx), by decide +kernel⟩,
    ⟨(st [(F.LNK_STAT_STATE 15, 3), (F.LNK_WIDTH_TX_MAP 15, 0x81), (F.LNK_WIDTH_RX_MAP 15, 0x81)] { links := [(15, ({ lanes := [{ lane := 7, round := 9, bad := true }], rxAt := some (9, 7, 3) } : LinkSt))] }), 15, ({ lane := 7, slot := 3, header := 0, errs := [], bytes := flitBytes false 65535 ({ type := 2, last := true, len := 1, seq := 7, chan := 5, payload := [9#8] } : Flit) } : FlitSlot), ({ lanes := [{ lane := 7, round := 9, bad := true }], rxAt := some (9, 7, 3) } : LinkSt), ({ lane := 7, round := 9, bad := true } : LaneRx), ([] : List Byte), by refine ⟨?_, ?_, ?_, ?_, ?_, ?a5, ?_, ?_⟩; (case a5 => unfold inTurn; decide +kernel); all_goals decide +kernel⟩⟩

theorem test_hypotheses_flits_are_received_in_order :
    (∃ (s : State) (p : Nat) (x : FlitSlot) (l : LinkSt) (place : Nat × Nat × Nat), s.fieldsCanonical = true ∧ s.unitsCanonical = true ∧ p < 16 ∧
      inTurn s p x ∧ l = link s p ∧ place = nextPlace (takenLanes s p) ((laneRx s p x.lane).round, x.lane, x.slot) ∧
      (laneRx s p x.lane).bad = false ∧ flitOf x.bytes = none) ∧
    (∃ (s : State) (p : Nat) (x : FlitSlot) (l : LinkSt) (place : Nat × Nat × Nat) (n : Nat), s.fieldsCanonical = true ∧ s.unitsCanonical = true ∧
      p < 16 ∧ inTurn s p x ∧ l = link s p ∧ place = nextPlace (takenLanes s p) ((laneRx s p x.lane).round, x.lane, x.slot) ∧
      (laneRx s p x.lane).bad = false ∧ n < 5 ∧ x.slot < n) ∧
    (∃ (s : State) (p : Nat) (x : FlitSlot) (l : LinkSt) (place : Nat × Nat × Nat) (f : Flit) (ack : Nat), s.fieldsCanonical = true ∧
      s.unitsCanonical = true ∧ p < 16 ∧ inTurn s p x ∧ l = link s p ∧
      place = nextPlace (takenLanes s p) ((laneRx s p x.lane).round, x.lane, x.slot) ∧ (laneRx s p x.lane).bad = false ∧
      flitOf x.bytes = some (f, false, ack) ∧ l.buf = [] ∧ sequencedType f.type = true ∧ f.seq ≠ l.rxExpect ∧ l.discard = false ∧
      seqAhead l.rxExpect f.seq = true) ∧
    (∃ (s : State) (p : Nat) (x : FlitSlot) (l : LinkSt) (place : Nat × Nat × Nat) (f : Flit) (ack : Nat), s.fieldsCanonical = true ∧
      s.unitsCanonical = true ∧ p < 16 ∧ inTurn s p x ∧ l = link s p ∧
      place = nextPlace (takenLanes s p) ((laneRx s p x.lane).round, x.lane, x.slot) ∧ (laneRx s p x.lane).bad = false ∧
      flitOf x.bytes = some (f, false, ack) ∧ l.buf = [] ∧ sequencedType f.type = true ∧ f.seq ≠ l.rxExpect ∧ l.discard = false ∧
      seqAhead l.rxExpect f.seq = false) ∧
    (∃ (s : State) (p : Nat) (x : FlitSlot) (l : LinkSt) (place : Nat × Nat × Nat) (f : Flit) (ack e : Nat), s.fieldsCanonical = true ∧
      s.unitsCanonical = true ∧ p < 16 ∧ inTurn s p x ∧ l = link s p ∧
      place = nextPlace (takenLanes s p) ((laneRx s p x.lane).round, x.lane, x.slot) ∧ (laneRx s p x.lane).bad = false ∧
      flitOf x.bytes = some (f, false, ack) ∧ l.buf = [] ∧ (f.type = 1 ∨ f.type = 2) ∧ f.seq = l.rxExpect ∧ e = smapGet zeroNat s.span.chans f.chan ∧
      bitOf e 23 = true ∧ bitsOf e 20 17 = p ∧ bitOf e 16 = false) ∧
    (∃ (s : State) (p : Nat) (x : FlitSlot) (l : LinkSt) (place : Nat × Nat × Nat) (f : Flit) (ack e : Nat), s.fieldsCanonical = true ∧
      s.unitsCanonical = true ∧ p < 16 ∧ inTurn s p x ∧ l = link s p ∧
      place = nextPlace (takenLanes s p) ((laneRx s p x.lane).round, x.lane, x.slot) ∧ (laneRx s p x.lane).bad = false ∧
      flitOf x.bytes = some (f, false, ack) ∧ l.buf = [] ∧ (f.type = 1 ∨ f.type = 2) ∧ f.seq = l.rxExpect ∧ e = smapGet zeroNat s.span.chans f.chan ∧
      bitOf e 23 = false) :=
  ⟨⟨(st [(F.LNK_STAT_STATE 15, 3), (F.LNK_WIDTH_TX_MAP 15, 0x81), (F.LNK_WIDTH_RX_MAP 15, 0x81)] { links := [(15, ({ rxAt := some (0, 0, 1), rxExpect := 7 } : LinkSt))] }), 15, ({ lane := 0, slot := 1, header := 0, errs := [], bytes := [] } : FlitSlot), ({ rxAt := some (0, 0, 1), rxExpect := 7 } : LinkSt), (0, 0, 2), by refine ⟨?_, ?_, ?_, ?a3, ?_, ?_, ?_, ?_⟩; (case a3 => unfold inTurn; decide +kernel); all_goals decide +kernel⟩,
    ⟨(st [(F.LNK_STAT_STATE 15, 3), (F.LNK_WIDTH_TX_MAP 15, 0x81), (F.LNK_WIDTH_RX_MAP 15, 0x81)] { links := [(15, ({ rxAt := some (0, 0, 1),  } : LinkSt))] }), 15, ({ lane := 0, slot := 1, header := 0, errs := [], bytes := flitBytes false 65535 ({ type := 2, last := true, len := 1, seq := 7, chan := 5, payload := [9#8] } : Flit) } : FlitSlot), ({ rxAt := some (0, 0, 1),  } : LinkSt), (0, 0, 2), 4, by refine ⟨?_, ?_, ?_, ?a3, ?_, ?_, ?_, ?_, ?_⟩; (case a3 => unfold inTurn; decide +kernel); all_goals decide +kernel⟩,
    ⟨(st [(F.LNK_STAT_STATE 15, 3), (F.LNK_WIDTH_TX_MAP 15, 0x81), (F.LNK_WIDTH_RX_MAP 15, 0x81)] { links := [(15, ({ rxAt := some (0, 0, 1), rxExpect := 8 } : LinkSt))] }), 15, ({ lane := 0, slot := 1, header := 0, errs := [], bytes := flitBytes false 65535 ({ type := 2, last := true, len := 1, seq := 7, chan := 5, payload := [9#8] } : Flit) } : FlitSlot), ({ rxAt := some (0, 0, 1), rxExpect := 8 } : LinkSt), (0, 0, 2), ({ type := 2, last := true, len := 1, seq := 7, chan := 5, payload := [9#8] } : Flit), 65535, by refine ⟨?_, ?_, ?_, ?a3, ?_, ?_, ?_, ?_, ?_, ?_, ?_, ?_, ?_⟩; (case a3 => unfold inTurn; decide +kernel); all_goals decide +kernel⟩,
    ⟨(st [(F.LNK_STAT_STATE 15, 3), (F.LNK_WIDTH_TX_MAP 15, 0x81), (F.LNK_WIDTH_RX_MAP 15, 0x81)] { links := [(15, ({ rxAt := some (0, 0, 1), rxExpect := 6 } : LinkSt))] }), 15, ({ lane := 0, slot := 1, header := 0, errs := [], bytes := flitBytes false 65535 ({ type := 2, last := true, len := 1, seq := 7, chan := 5, payload := [9#8] } : Flit) } : FlitSlot), ({ rxAt := some (0, 0, 1), rxExpect := 6 } : LinkSt), (0, 0, 2), ({ type := 2, last := true, len := 1, seq := 7, chan := 5, payload := [9#8] } : Flit), 65535, by refine ⟨?_, ?_, ?_, ?a3, ?_, ?_, ?_, ?_, ?_, ?_, ?_, ?_, ?_⟩; (case a3 => unfold inTurn; decide +kernel); all_goals decide +kernel⟩,
    ⟨(st [(F.LNK_STAT_STATE 15, 3), (F.LNK_WIDTH_TX_MAP 15, 0x81), (F.LNK_WIDTH_RX_MAP 15, 0x81)] { span := { chans := [(5, 10354817)] }, links := [(15, ({ rxAt := some (0, 0, 1), rxExpect := 7 } : LinkSt))] }), 15, ({ lane := 0, slot := 1, header := 0, errs := [], bytes := flitBytes false 65535 ({ type := 2, last := true, len := 1, seq := 7, chan := 5, payload := [9#8] } : Flit) } : FlitSlot), ({ rxAt := some (0, 0, 1), rxExpect := 7 } : LinkSt), (0, 0, 2), ({ type := 2, last := true, len := 1, seq := 7, chan := 5, payload := [9#8] } : Flit), 65535, 10354817, by refine ⟨?_, ?_, ?_, ?a3, ?_, ?_, ?_, ?_, ?_, ?_, ?_, ?_, ?_, ?_, ?_⟩; (case a3 => unfold inTurn; decide +kernel); all_goals decide +kernel⟩,
    ⟨(st [(F.LNK_STAT_STATE 15, 3), (F.LNK_WIDTH_TX_MAP 15, 0x81), (F.LNK_WIDTH_RX_MAP 15, 0x81)] { links := [(15, ({ rxAt := some (0, 0, 1), rxExpect := 7 } : LinkSt))] }), 15, ({ lane := 0, slot := 1, header := 0, errs := [], bytes := flitBytes false 65535 ({ type := 2, last := true, len := 1, seq := 7, chan := 5, payload := [9#8] } : Flit) } : FlitSlot), ({ rxAt := some (0, 0, 1), rxExpect := 7 } : LinkSt), (0, 0, 2), ({ type := 2, last := true, len := 1, seq := 7, chan := 5, payload := [9#8] } : Flit), 65535, 0, by refine ⟨?_, ?_, ?_, ?a3, ?_, ?_, ?_, ?_, ?_, ?_, ?_, ?_, ?_⟩; (case a3 => unfold inTurn; decide +kernel); all_goals decide +kernel⟩⟩

theorem test_hypotheses_ports_leave_and_try :
    (∃ (s : State) (p : Nat) (l : LinkSt) (n cause m : Nat), s.fieldsCanonical = true ∧ s.unitsCanonical = true ∧ p < 16 ∧ l = link s p ∧
      portUp s p = true ∧ n < 8 ∧ 0 < cause ∧ cause < 4 ∧ m = l.notice.getD (getF s (F.LNK_WIDTH_RX_MAP p)) ∧ bitOf m n = true ∧
      (cause = 1 ∨ pairsDrop s p n cause = true) ∧ m ≠ 2 ^ n) ∧
    (∃ (s : State) (p : Nat) (l : LinkSt) (n cause m : Nat), s.fieldsCanonical = true ∧ s.unitsCanonical = true ∧ p < 16 ∧ l = link s p ∧
      portUp s p = true ∧ n < 8 ∧ 0 < cause ∧ cause < 4 ∧ m = l.notice.getD (getF s (F.LNK_WIDTH_RX_MAP p)) ∧ bitOf m n = true ∧
      (cause = 1 ∨ pairsDrop s p n cause = true) ∧ m = 2 ^ n) ∧
    (∃ (s : State) (p : Nat) (l : LinkSt) (n cause m : Nat), s.fieldsCanonical = true ∧ s.unitsCanonical = true ∧ p < 16 ∧ l = link s p ∧
      portUp s p = true ∧ n < 8 ∧ 0 < cause ∧ cause < 4 ∧ m = l.notice.getD (getF s (F.LNK_WIDTH_RX_MAP p)) ∧ bitOf m n = true ∧ cause ≠ 1 ∧
      pairsDrop s p n cause = false) ∧
    (∃ (s : State) (p : Nat) (l : LinkSt) (n m : Nat), s.fieldsCanonical = true ∧ s.unitsCanonical = true ∧ p < 16 ∧ l = link s p ∧
      portUp s p = true ∧ l.tx = .normal ∧ n < 8 ∧ m = getF s (F.LNK_WIDTH_TX_MAP p) ∧ m < 256 ∧ bitOf m n = true ∧ m ≠ 2 ^ n) ∧
    (∃ (s : State) (p : Nat) (l : LinkSt) (n m : Nat), s.fieldsCanonical = true ∧ s.unitsCanonical = true ∧ p < 16 ∧ l = link s p ∧
      portUp s p = true ∧ l.tx = .normal ∧ n < 8 ∧ m = getF s (F.LNK_WIDTH_TX_MAP p) ∧ m < 256 ∧ bitOf m n = true ∧ m = 2 ^ n) ∧
    (∃ (s : State) (p : Nat) (l : LinkSt) (m q c x : Nat), s.fieldsCanonical = true ∧ s.unitsCanonical = true ∧ p < 16 ∧ l = link s p ∧
      portUp s p = true ∧ l.tx = .width m q c x true ∧ l.confirm = none ∧ l.notice = none ∧ l.syncDue = false ∧ l.nakDue = false) ∧
    (∃ (s : State) (p : Nat) (l : LinkSt) (m q c x : Nat), s.fieldsCanonical = true ∧ s.unitsCanonical = true ∧ p < 16 ∧ l = link s p ∧
      portUp s p = true ∧ l.tx = .width m q c x false ∧ 0 < m ∧ m < 256 ∧ (l.buf = [] ∨ l.replays < 7) ∧ s.span.sends = []) ∧
    (∃ (s : State) (p : Nat) (l : LinkSt), s.fieldsCanonical = true ∧ s.unitsCanonical = true ∧ p < 16 ∧ l = link s p ∧ portUp s p = true ∧
      l.goodAt + 5000 ≤ getF s F.TICK_DT) ∧
    (∃ (s : State) (p : Nat) (l : LinkSt), s.fieldsCanonical = true ∧ s.unitsCanonical = true ∧ p < 16 ∧ l = link s p ∧ portState s p = 6 ∧
      l.leftAt + 2000000 ≤ getF s F.TICK_DT ∧ inSpan s = true ∧ isMaster s = true) ∧
    (∃ (s : State) (p : Nat) (l : LinkSt), s.fieldsCanonical = true ∧ s.unitsCanonical = true ∧ p < 16 ∧ l = link s p ∧ portState s p = 0 ∧
      portEnabled s p = true ∧ l.trainAt + 100000000 ≤ getF s F.TICK_DT) ∧
    (∃ (s : State) (p : Nat) (l : LinkSt), s.fieldsCanonical = true ∧ s.unitsCanonical = true ∧ p < 16 ∧ l = link s p ∧
      (portState s p = 1 ∨ portState s p = 2) ∧ l.trainAt + 100000000 ≤ getF s F.TICK_DT) :=
  ⟨⟨(st [(F.LNK_STAT_STATE 15, 3), (F.LNK_WIDTH_TX_MAP 15, 0x81), (F.LNK_WIDTH_RX_MAP 15, 0x81)] { links := [(15, ({ txNext := 3 } : LinkSt))] }), 15, ({ txNext := 3 } : LinkSt), 7, 1, 0x81, by decide +kernel⟩,
    ⟨(st [(F.LNK_STAT_STATE 15, 3), (F.LNK_WIDTH_TX_MAP 15, 0x81), (F.LNK_WIDTH_RX_MAP 15, 0x81)] { links := [(15, ({ notice := some 0x80 } : LinkSt))] }), 15, ({ notice := some 0x80 } : LinkSt), 7, 1, 0x80, by decide +kernel⟩,
    ⟨(st [(F.LNK_STAT_STATE 15, 3), (F.LNK_WIDTH_TX_MAP 15, 0x81), (F.LNK_WIDTH_RX_MAP 15, 0x81)] { links := [(15, ({ txNext := 3, lanes := [{ lane := 7, run := 4 }] } : LinkSt))] }), 15, ({ txNext := 3, lanes := [{ lane := 7, run := 4 }] } : LinkSt), 7, 3, 0x81, by decide +kernel⟩,
    ⟨(st [(F.LNK_STAT_STATE 15, 3), (F.LNK_WIDTH_TX_MAP 15, 0x81), (F.LNK_WIDTH_RX_MAP 15, 0x81)] { links := [(15, ({ txNext := 3 } : LinkSt))] }), 15, ({ txNext := 3 } : LinkSt), 7, 0x81, by decide +kernel⟩,
    ⟨(st [(F.LNK_STAT_STATE 15, 3), (F.LNK_WIDTH_TX_MAP 15, 0x80), (F.LNK_WIDTH_RX_MAP 15, 0x81)] { links := [(15, ({ txNext := 3 } : LinkSt))] }), 15, ({ txNext := 3 } : LinkSt), 7, 0x80, by decide +kernel⟩,
    ⟨(st [(F.LNK_STAT_STATE 15, 3), (F.LNK_WIDTH_TX_MAP 15, 0x81), (F.LNK_WIDTH_RX_MAP 15, 0x81)] { links := [(15, ({ tx := .width 0x80 5 4 0 true } : LinkSt))] }), 15, ({ tx := .width 0x80 5 4 0 true } : LinkSt), 0x80, 5, 4, 0, by decide +kernel⟩,
    ⟨(st [(F.LNK_STAT_STATE 15, 3), (F.LNK_WIDTH_TX_MAP 15, 0x81), (F.LNK_WIDTH_RX_MAP 15, 0x81)] { links := [(15, ({ tx := .width 0x80 5 4 0 false } : LinkSt))] }), 15, ({ tx := .width 0x80 5 4 0 false } : LinkSt), 0x80, 5, 4, 0, by decide +kernel⟩,
    ⟨(st [(F.TICK_DT,5000)] ((st [(F.LNK_STAT_STATE 15, 3), (F.LNK_WIDTH_TX_MAP 15, 0x81), (F.LNK_WIDTH_RX_MAP 15, 0x81)] { links := [(15, ({ txNext := 3 } : LinkSt))] }))), 15, ({ txNext := 3 } : LinkSt), by decide +kernel⟩,
    ⟨(st [(F.LNK_STAT_STATE 15,6),(F.TICK_DT,2000000),(F.LNK_PEER_MEMBER 15,1)] master), 15, ({  } : LinkSt), by decide +kernel⟩,
    ⟨(st [(F.LNK_CFG_CLASS 15,1),(F.TICK_DT,100000000)] {}), 15, ({  } : LinkSt), by decide +kernel⟩,
    ⟨(st [(F.LNK_STAT_STATE 15,2),(F.LNK_CFG_CLASS 15,1),(F.TICK_DT,100000000)] {}), 15, ({  } : LinkSt), by decide +kernel⟩⟩

theorem test_hypotheses_training_brings_ports_up :
    (∃ (s u : State) (p : Nat) (r : TrainResult) (l : LinkSt) (g : Nat), s.fieldsCanonical = true ∧ s.unitsCanonical = true ∧ p < 16 ∧ l = link u p ∧
      g = laneMap r.lanes (laneUsable r.lanes) ∧ (portState s p = 1 ∨ portState s p = 6) ∧ g ≠ 0) ∧
    (∃ (s u : State) (p : Nat) (r : TrainResult) (l : LinkSt) (g : Nat), s.fieldsCanonical = true ∧ s.unitsCanonical = true ∧ p < 16 ∧ l = link u p ∧
      g = laneMap r.lanes (laneUsable r.lanes) ∧ (portState s p = 1 ∨ portState s p = 6) ∧ g = 0) ∧
    (∃ (s u : State) (p : Nat) (l : LinkSt) (x : FlitSlot) (f : Flit) (nak : Bool) (ack : Nat), s.fieldsCanonical = true ∧ s.unitsCanonical = true ∧
      p < 16 ∧ l = link u p ∧ (portState s p = 2 ∨ portState s p = 5) ∧ 0 < x.slot ∧ (laneRx s p x.lane).bad = false ∧ (link s p).buf = [] ∧
      flitOf x.bytes = some (f, nak, ack) ∧ f.type = 7 ∧ f.len = 15) ∧
    (∃ (s u : State) (p : Nat) (r : TrainResult) (l : LinkSt) (c : Instr) (b : _), s.fieldsCanonical = true ∧ s.unitsCanonical = true ∧ p < 16 ∧
      l = link u p ∧ ((c = .linkTraining p r ∧ portState s p = 2 ∧ u = s ∧ getF s F.TICK_DT ≤ l.alignAt + 1000000) ∨ (c = .retrainComplete p r ∧
      portState s p = 6 ∧ u = noteLanes s p r)) ∧ l.rxGood < 256 ∧ l.train = some b ∧ peerExpected s p b = true ∧ widthEnough u p b = true ∧
      getF s (F.LNK_SESSION_PEER p) = trainSession b ∧ l.wasDown = false) ∧
    (∃ (s u : State) (p : Nat) (r : TrainResult) (l : LinkSt) (c : Instr) (b : _), s.fieldsCanonical = true ∧ s.unitsCanonical = true ∧ p < 16 ∧
      l = link u p ∧ ((c = .linkTraining p r ∧ portState s p = 2 ∧ u = s ∧ getF s F.TICK_DT ≤ l.alignAt + 1000000) ∨ (c = .retrainComplete p r ∧
      portState s p = 6 ∧ u = noteLanes s p r)) ∧ l.rxGood < 256 ∧ l.train = some b ∧ peerExpected s p b = true ∧ widthEnough u p b = true ∧
      getF s (F.LNK_SESSION_PEER p) = trainSession b ∧ l.wasDown = true) ∧
    (∃ (s u : State) (p : Nat) (r : TrainResult) (l : LinkSt) (c : Instr) (b : _), s.fieldsCanonical = true ∧ s.unitsCanonical = true ∧ p < 16 ∧
      l = link u p ∧ ((c = .linkTraining p r ∧ portState s p = 2 ∧ u = s ∧ getF s F.TICK_DT ≤ l.alignAt + 1000000) ∨ (c = .retrainComplete p r ∧
      portState s p = 6 ∧ u = noteLanes s p r)) ∧ l.rxGood < 256 ∧ l.train = some b ∧ peerExpected s p b = true ∧ widthEnough u p b = true ∧
      getF s (F.LNK_SESSION_PEER p) ≠ trainSession b) ∧
    (∃ (s u : State) (p : Nat) (r : TrainResult) (l : LinkSt) (c : Instr) (b : _), s.fieldsCanonical = true ∧ s.unitsCanonical = true ∧ p < 16 ∧
      l = link u p ∧ ((c = .linkTraining p r ∧ portState s p = 2 ∧ u = s ∧ getF s F.TICK_DT ≤ l.alignAt + 1000000) ∨ (c = .retrainComplete p r ∧
      portState s p = 6 ∧ u = noteLanes s p r)) ∧ l.rxGood < 256 ∧ l.train = some b ∧ peerExpected s p b = true ∧ widthEnough u p b = true ∧
      getF s (F.LNK_SESSION_PEER p) ≠ trainSession b ∧ l.everUp = true) ∧
    (∃ (s u : State) (p : Nat) (r : TrainResult) (l : LinkSt) (c : Instr) (b : _), s.fieldsCanonical = true ∧ s.unitsCanonical = true ∧ p < 16 ∧
      l = link u p ∧ ((c = .linkTraining p r ∧ portState s p = 2 ∧ u = s ∧ getF s F.TICK_DT ≤ l.alignAt + 1000000) ∨ (c = .retrainComplete p r ∧
      portState s p = 6 ∧ u = noteLanes s p r)) ∧ l.rxGood < 256 ∧ l.train = some b ∧ peerExpected s p b = false) ∧
    (∃ (s u : State) (p : Nat) (r : TrainResult) (l : LinkSt) (c : Instr) (b : _), s.fieldsCanonical = true ∧ s.unitsCanonical = true ∧ p < 16 ∧
      l = link u p ∧ ((c = .linkTraining p r ∧ portState s p = 2 ∧ u = s ∧ getF s F.TICK_DT ≤ l.alignAt + 1000000) ∨ (c = .retrainComplete p r ∧
      portState s p = 6 ∧ u = noteLanes s p r)) ∧ l.rxGood < 256 ∧ l.train = some b ∧ peerExpected s p b = true ∧ widthEnough u p b = false) :=
  ⟨⟨(st [(F.LNK_STAT_STATE 15,1),(F.LNK_CFG_EXP_MEMBER 15,1023),(F.LNK_CFG_EXP_PORT 15,15),(F.LNK_CFG_MIN_WIDTH 15,8),(F.TICK_DT,1000000)] {}), up, 15, ({ lanes := List.replicate 8 ⟨some 9, 1000000000, 0, 3, 5, 2, 40⟩, rttNs := 9 } : TrainResult), (link up 15), 255, by decide +kernel⟩,
    ⟨(st [(F.LNK_STAT_STATE 15,1),(F.LNK_CFG_EXP_MEMBER 15,1023),(F.LNK_CFG_EXP_PORT 15,15),(F.LNK_CFG_MIN_WIDTH 15,8),(F.TICK_DT,1000000)] {}), up, 15, ({ lanes := List.replicate 8 ⟨none, 0, 0, 3, 5, 2, 0⟩, rttNs := 9 } : TrainResult), (link up 15), 0, by decide +kernel⟩,
    ⟨(st [(F.LNK_STAT_STATE 15,2),(F.LNK_CFG_EXP_MEMBER 15,1023),(F.LNK_CFG_EXP_PORT 15,15),(F.LNK_CFG_MIN_WIDTH 15,8),(F.TICK_DT,1000000)] {}), up, 15, (link up 15), ({ lane := 0, slot := 1, header := 0, errs := [], bytes := flitBytes false 65535 ({ type := 7, len := 15, payload := (leBytes 15 1 ++ leBytes 0 1 ++ leBytes 1023 2 ++ leBytes 65535 2 ++ leBytes 0xFF 1 ++ leBytes 9 8) } : Flit) } : FlitSlot), ({ type := 7, len := 15, payload := (leBytes 15 1 ++ leBytes 0 1 ++ leBytes 1023 2 ++ leBytes 65535 2 ++ leBytes 0xFF 1 ++ leBytes 9 8) } : Flit), false, 65535, by decide +kernel⟩,
    ⟨(st [(F.LNK_STAT_STATE 15,6),(F.LNK_CFG_EXP_MEMBER 15,1023),(F.LNK_CFG_EXP_PORT 15,15),(F.LNK_CFG_MIN_WIDTH 15,8),(F.TICK_DT,1000000),(F.LNK_SESSION_PEER 15,65535)] { links := [(15, ({ rxGood := 255, train := some (leBytes 15 1 ++ leBytes 0 1 ++ leBytes 1023 2 ++ leBytes 65535 2 ++ leBytes 0xFF 1 ++ leBytes 9 8), buf := [{ seq := 3 }], txNext := 4 } : LinkSt))] }), (noteLanes (st [(F.LNK_STAT_STATE 15,6),(F.LNK_CFG_EXP_MEMBER 15,1023),(F.LNK_CFG_EXP_PORT 15,15),(F.LNK_CFG_MIN_WIDTH 15,8),(F.TICK_DT,1000000),(F.LNK_SESSION_PEER 15,65535)] { links := [(15, ({ rxGood := 255, train := some (leBytes 15 1 ++ leBytes 0 1 ++ leBytes 1023 2 ++ leBytes 65535 2 ++ leBytes 0xFF 1 ++ leBytes 9 8), buf := [{ seq := 3 }], txNext := 4 } : LinkSt))] }) 15 ({ lanes := List.replicate 8 ⟨some 9, 1000000000, 0, 3, 5, 2, 40⟩, rttNs := 9 } : TrainResult)), 15, ({ lanes := List.replicate 8 ⟨some 9, 1000000000, 0, 3, 5, 2, 40⟩, rttNs := 9 } : TrainResult), (link (noteLanes (st [(F.LNK_STAT_STATE 15,6),(F.LNK_CFG_EXP_MEMBER 15,1023),(F.LNK_CFG_EXP_PORT 15,15),(F.LNK_CFG_MIN_WIDTH 15,8),(F.TICK_DT,1000000),(F.LNK_SESSION_PEER 15,65535)] { links := [(15, ({ rxGood := 255, train := some (leBytes 15 1 ++ leBytes 0 1 ++ leBytes 1023 2 ++ leBytes 65535 2 ++ leBytes 0xFF 1 ++ leBytes 9 8), buf := [{ seq := 3 }], txNext := 4 } : LinkSt))] }) 15 ({ lanes := List.replicate 8 ⟨some 9, 1000000000, 0, 3, 5, 2, 40⟩, rttNs := 9 } : TrainResult)) 15), (Instr.retrainComplete 15 ({ lanes := List.replicate 8 ⟨some 9, 1000000000, 0, 3, 5, 2, 40⟩, rttNs := 9 } : TrainResult)), (leBytes 15 1 ++ leBytes 0 1 ++ leBytes 1023 2 ++ leBytes 65535 2 ++ leBytes 0xFF 1 ++ leBytes 9 8), by decide +kernel⟩,
    ⟨(st [(F.LNK_STAT_STATE 15,6),(F.LNK_CFG_EXP_MEMBER 15,1023),(F.LNK_CFG_EXP_PORT 15,15),(F.LNK_CFG_MIN_WIDTH 15,8),(F.TICK_DT,1000000),(F.LNK_SESSION_PEER 15,65535)] { links := [(15, ({ rxGood := 255, train := some (leBytes 15 1 ++ leBytes 0 1 ++ leBytes 1023 2 ++ leBytes 65535 2 ++ leBytes 0xFF 1 ++ leBytes 9 8), buf := [{ seq := 3 }], txNext := 4, wasDown := true } : LinkSt))] }), (noteLanes (st [(F.LNK_STAT_STATE 15,6),(F.LNK_CFG_EXP_MEMBER 15,1023),(F.LNK_CFG_EXP_PORT 15,15),(F.LNK_CFG_MIN_WIDTH 15,8),(F.TICK_DT,1000000),(F.LNK_SESSION_PEER 15,65535)] { links := [(15, ({ rxGood := 255, train := some (leBytes 15 1 ++ leBytes 0 1 ++ leBytes 1023 2 ++ leBytes 65535 2 ++ leBytes 0xFF 1 ++ leBytes 9 8), buf := [{ seq := 3 }], txNext := 4, wasDown := true } : LinkSt))] }) 15 ({ lanes := List.replicate 8 ⟨some 9, 1000000000, 0, 3, 5, 2, 40⟩, rttNs := 9 } : TrainResult)), 15, ({ lanes := List.replicate 8 ⟨some 9, 1000000000, 0, 3, 5, 2, 40⟩, rttNs := 9 } : TrainResult), (link (noteLanes (st [(F.LNK_STAT_STATE 15,6),(F.LNK_CFG_EXP_MEMBER 15,1023),(F.LNK_CFG_EXP_PORT 15,15),(F.LNK_CFG_MIN_WIDTH 15,8),(F.TICK_DT,1000000),(F.LNK_SESSION_PEER 15,65535)] { links := [(15, ({ rxGood := 255, train := some (leBytes 15 1 ++ leBytes 0 1 ++ leBytes 1023 2 ++ leBytes 65535 2 ++ leBytes 0xFF 1 ++ leBytes 9 8), buf := [{ seq := 3 }], txNext := 4, wasDown := true } : LinkSt))] }) 15 ({ lanes := List.replicate 8 ⟨some 9, 1000000000, 0, 3, 5, 2, 40⟩, rttNs := 9 } : TrainResult)) 15), (Instr.retrainComplete 15 ({ lanes := List.replicate 8 ⟨some 9, 1000000000, 0, 3, 5, 2, 40⟩, rttNs := 9 } : TrainResult)), (leBytes 15 1 ++ leBytes 0 1 ++ leBytes 1023 2 ++ leBytes 65535 2 ++ leBytes 0xFF 1 ++ leBytes 9 8), by decide +kernel⟩,
    ⟨(st [(F.LNK_STAT_STATE 15,2),(F.LNK_CFG_EXP_MEMBER 15,1023),(F.LNK_CFG_EXP_PORT 15,15),(F.LNK_CFG_MIN_WIDTH 15,8),(F.TICK_DT,1000000)] { links := [(15, ({ rxGood := 255, train := some (leBytes 15 1 ++ leBytes 0 1 ++ leBytes 1023 2 ++ leBytes 65535 2 ++ leBytes 0xFF 1 ++ leBytes 9 8) } : LinkSt))] }), (st [(F.LNK_STAT_STATE 15,2),(F.LNK_CFG_EXP_MEMBER 15,1023),(F.LNK_CFG_EXP_PORT 15,15),(F.LNK_CFG_MIN_WIDTH 15,8),(F.TICK_DT,1000000)] { links := [(15, ({ rxGood := 255, train := some (leBytes 15 1 ++ leBytes 0 1 ++ leBytes 1023 2 ++ leBytes 65535 2 ++ leBytes 0xFF 1 ++ leBytes 9 8) } : LinkSt))] }), 15, ({ lanes := List.replicate 8 ⟨some 9, 1000000000, 0, 3, 5, 2, 40⟩, rttNs := 9 } : TrainResult), (link (st [(F.LNK_STAT_STATE 15,2),(F.LNK_CFG_EXP_MEMBER 15,1023),(F.LNK_CFG_EXP_PORT 15,15),(F.LNK_CFG_MIN_WIDTH 15,8),(F.TICK_DT,1000000)] { links := [(15, ({ rxGood := 255, train := some (leBytes 15 1 ++ leBytes 0 1 ++ leBytes 1023 2 ++ leBytes 65535 2 ++ leBytes 0xFF 1 ++ leBytes 9 8) } : LinkSt))] }) 15), (Instr.linkTraining 15 ({ lanes := List.replicate 8 ⟨some 9, 1000000000, 0, 3, 5, 2, 40⟩, rttNs := 9 } : TrainResult)), (leBytes 15 1 ++ leBytes 0 1 ++ leBytes 1023 2 ++ leBytes 65535 2 ++ leBytes 0xFF 1 ++ leBytes 9 8), by decide +kernel⟩,
    ⟨(st [(F.LNK_STAT_STATE 15,2),(F.LNK_CFG_EXP_MEMBER 15,1023),(F.LNK_CFG_EXP_PORT 15,15),(F.LNK_CFG_MIN_WIDTH 15,8),(F.TICK_DT,1000000)] { links := [(15, ({ everUp := true, rxGood := 255, train := some (leBytes 15 1 ++ leBytes 0 1 ++ leBytes 1023 2 ++ leBytes 65535 2 ++ leBytes 0xFF 1 ++ leBytes 9 8) } : LinkSt))] }), (st [(F.LNK_STAT_STATE 15,2),(F.LNK_CFG_EXP_MEMBER 15,1023),(F.LNK_CFG_EXP_PORT 15,15),(F.LNK_CFG_MIN_WIDTH 15,8),(F.TICK_DT,1000000)] { links := [(15, ({ everUp := true, rxGood := 255, train := some (leBytes 15 1 ++ leBytes 0 1 ++ leBytes 1023 2 ++ leBytes 65535 2 ++ leBytes 0xFF 1 ++ leBytes 9 8) } : LinkSt))] }), 15, ({ lanes := List.replicate 8 ⟨some 9, 1000000000, 0, 3, 5, 2, 40⟩, rttNs := 9 } : TrainResult), (link (st [(F.LNK_STAT_STATE 15,2),(F.LNK_CFG_EXP_MEMBER 15,1023),(F.LNK_CFG_EXP_PORT 15,15),(F.LNK_CFG_MIN_WIDTH 15,8),(F.TICK_DT,1000000)] { links := [(15, ({ everUp := true, rxGood := 255, train := some (leBytes 15 1 ++ leBytes 0 1 ++ leBytes 1023 2 ++ leBytes 65535 2 ++ leBytes 0xFF 1 ++ leBytes 9 8) } : LinkSt))] }) 15), (Instr.linkTraining 15 ({ lanes := List.replicate 8 ⟨some 9, 1000000000, 0, 3, 5, 2, 40⟩, rttNs := 9 } : TrainResult)), (leBytes 15 1 ++ leBytes 0 1 ++ leBytes 1023 2 ++ leBytes 65535 2 ++ leBytes 0xFF 1 ++ leBytes 9 8), by decide +kernel⟩,
    ⟨(st [(F.LNK_STAT_STATE 15,2),(F.LNK_CFG_EXP_MEMBER 15,1023),(F.LNK_CFG_EXP_PORT 15,15),(F.LNK_CFG_MIN_WIDTH 15,8),(F.TICK_DT,1000000)] { links := [(15, ({ rxGood := 255, train := some (leBytes 15 1 ++ leBytes 0 1 ++ leBytes 3 2 ++ leBytes 65535 2 ++ leBytes 0xFF 1 ++ leBytes 9 8) } : LinkSt))] }), (st [(F.LNK_STAT_STATE 15,2),(F.LNK_CFG_EXP_MEMBER 15,1023),(F.LNK_CFG_EXP_PORT 15,15),(F.LNK_CFG_MIN_WIDTH 15,8),(F.TICK_DT,1000000)] { links := [(15, ({ rxGood := 255, train := some (leBytes 15 1 ++ leBytes 0 1 ++ leBytes 3 2 ++ leBytes 65535 2 ++ leBytes 0xFF 1 ++ leBytes 9 8) } : LinkSt))] }), 15, ({ lanes := List.replicate 8 ⟨some 9, 1000000000, 0, 3, 5, 2, 40⟩, rttNs := 9 } : TrainResult), (link (st [(F.LNK_STAT_STATE 15,2),(F.LNK_CFG_EXP_MEMBER 15,1023),(F.LNK_CFG_EXP_PORT 15,15),(F.LNK_CFG_MIN_WIDTH 15,8),(F.TICK_DT,1000000)] { links := [(15, ({ rxGood := 255, train := some (leBytes 15 1 ++ leBytes 0 1 ++ leBytes 3 2 ++ leBytes 65535 2 ++ leBytes 0xFF 1 ++ leBytes 9 8) } : LinkSt))] }) 15), (Instr.linkTraining 15 ({ lanes := List.replicate 8 ⟨some 9, 1000000000, 0, 3, 5, 2, 40⟩, rttNs := 9 } : TrainResult)), (leBytes 15 1 ++ leBytes 0 1 ++ leBytes 3 2 ++ leBytes 65535 2 ++ leBytes 0xFF 1 ++ leBytes 9 8), by decide +kernel⟩,
    ⟨(st [(F.LNK_STAT_STATE 15,2),(F.LNK_CFG_EXP_MEMBER 15,1023),(F.LNK_CFG_EXP_PORT 15,15),(F.LNK_CFG_MIN_WIDTH 15,2),(F.TICK_DT,1000000)] { links := [(15, ({ rxGood := 1, train := some (leBytes 15 1 ++ leBytes 0 1 ++ leBytes 1023 2 ++ leBytes 65535 2 ++ leBytes 0xFF 1 ++ leBytes 9 8) } : LinkSt))] }), (st [(F.LNK_STAT_STATE 15,2),(F.LNK_CFG_EXP_MEMBER 15,1023),(F.LNK_CFG_EXP_PORT 15,15),(F.LNK_CFG_MIN_WIDTH 15,2),(F.TICK_DT,1000000)] { links := [(15, ({ rxGood := 1, train := some (leBytes 15 1 ++ leBytes 0 1 ++ leBytes 1023 2 ++ leBytes 65535 2 ++ leBytes 0xFF 1 ++ leBytes 9 8) } : LinkSt))] }), 15, ({ lanes := List.replicate 8 ⟨some 9, 1000000000, 0, 3, 5, 2, 40⟩, rttNs := 9 } : TrainResult), (link (st [(F.LNK_STAT_STATE 15,2),(F.LNK_CFG_EXP_MEMBER 15,1023),(F.LNK_CFG_EXP_PORT 15,15),(F.LNK_CFG_MIN_WIDTH 15,2),(F.TICK_DT,1000000)] { links := [(15, ({ rxGood := 1, train := some (leBytes 15 1 ++ leBytes 0 1 ++ leBytes 1023 2 ++ leBytes 65535 2 ++ leBytes 0xFF 1 ++ leBytes 9 8) } : LinkSt))] }) 15), (Instr.linkTraining 15 ({ lanes := List.replicate 8 ⟨some 9, 1000000000, 0, 3, 5, 2, 40⟩, rttNs := 9 } : TrainResult)), (leBytes 15 1 ++ leBytes 0 1 ++ leBytes 1023 2 ++ leBytes 65535 2 ++ leBytes 0xFF 1 ++ leBytes 9 8), by decide +kernel⟩⟩

theorem test_hypotheses_lanes_are_controlled_and_measured :
    (∃ (s : State) (p : Nat), s.fieldsCanonical = true ∧ s.unitsCanonical = true ∧ p < 16 ∧ inMaintenance s = true ∧ portEnabled s p = true ∧
      portState s p = 4) ∧
    (∃ (s : State) (p : Nat), s.fieldsCanonical = true ∧ s.unitsCanonical = true ∧ p < 16 ∧ inMaintenance s = false) ∧
    (∃ (s : State) (p : Nat), s.fieldsCanonical = true ∧ s.unitsCanonical = true ∧ p < 16 ∧ portState s p ≠ 4 ∧
      (inMaintenance s = true ∨ portState s p = 0 ∨ portState s p = 7)) ∧
    (∃ (s : State) (p : Nat), s.fieldsCanonical = true ∧ s.unitsCanonical = true ∧ p < 16 ∧ portState s p ≠ 4 ∧ inMaintenance s = false ∧
      portState s p ≠ 0 ∧ portState s p ≠ 7) ∧
    (∃ (s : State) (p : Nat), s.fieldsCanonical = true ∧ s.unitsCanonical = true ∧ p < 16 ∧ portState s p = 4 ∧ portEnabled s p = true) ∧
    (∃ (s : State) (p : Nat), s.fieldsCanonical = true ∧ s.unitsCanonical = true ∧ p < 16) ∧
    (∃ (s : State) (p l bits v : Nat) (rx : List Bool) (pat : Nat), s.fieldsCanonical = true ∧ p < 16 ∧ l < 8 ∧ portState s p = 4 ∧
      rx = (List.range bits).map (bitOf v) ∧ pat = getF s (F.LANE_PRBS_CTL_PATTERN p l) ∧ 0 < pat ∧ pat < 6 ∧
      isSet s (F.LANE_PRBS_CTL_CHK p l) = true ∧ getF s (F.LANE_PRBS_CTL_LOOP p l) = 1 ∧ isSet s (F.LANE_PRBS_CTL_GEN p l) = true ∧
      (link s p).tests = [] ∧ (prbsTaps pat).1 + 64 ≤ bits) ∧
    (∃ (s : State) (p l bits v : Nat) (rx : List Bool) (pat : Nat) (x : LaneTest), s.fieldsCanonical = true ∧ p < 16 ∧ l < 8 ∧ portState s p = 4 ∧
      rx = (List.range bits).map (bitOf v) ∧ pat = getF s (F.LANE_PRBS_CTL_PATTERN p l) ∧ 0 < pat ∧ pat < 6 ∧
      isSet s (F.LANE_PRBS_CTL_CHK p l) = true ∧ getF s (F.LANE_PRBS_CTL_LOOP p l) = 0 ∧ isSet s (F.LANE_PRBS_CTL_GEN p l) = false ∧
      (link s p).tests = [(l, x)] ∧ x.pattern = pat ∧ 64 ≤ x.run) ∧
    (∃ (s : State) (p l : Nat), s.fieldsCanonical = true ∧ p < 16 ∧ l < 8 ∧ isSet s (F.LANE_EYE_CTL_BUSY p l) = false) ∧
    (∃ (s : State) (p l : Nat) (n : List Nat → Nat), s.fieldsCanonical = true ∧ p < 16 ∧ l < 8 ∧ isSet s (F.LANE_EYE_CTL_BUSY p l) = true ∧
      (∀ c, n c = min 255 ((c.takeWhile (fun e => decide (min e (2 ^ (16 + 2 * getF s (F.LANE_EYE_CTL_DWELL p l))) ≤ getF s (F.LANE_EYE_CTL_ERR_LIMIT p l)))).length))) ∧
    (∃ (s : State) (p l : Nat), s.fieldsCanonical = true ∧ p < 16 ∧ l < 8 ∧ bitOf (link s p).converged l = false) ∧
    (∃ (s : State) (p l : Nat), s.fieldsCanonical = true ∧ p < 16 ∧ l < 8 ∧ bitOf (link s p).converged l = true) :=
  ⟨⟨(st [(F.LNK_CFG_CLASS 15,1),(F.LNK_STAT_STATE 15,4)] up), 15, by decide +kernel⟩,
    ⟨({} : State), 15, by decide +kernel⟩,
    ⟨up, 15, by decide +kernel⟩,
    ⟨(st [(F.CFG_MODE,1),(F.LNK_STAT_STATE 15,3)] up), 15, by decide +kernel⟩,
    ⟨(st [(F.LNK_CFG_CLASS 15,1),(F.LNK_STAT_STATE 15,4)] up), 15, by decide +kernel⟩,
    ⟨(st [(F.LNK_CNT_TX 15,1),(F.LANE_PRBS_ERR 15 7,1),(F.LANE_EYE_UPPER_TOP 15 7,3)] up), 15, by decide +kernel⟩,
    ⟨(st [(F.LNK_STAT_STATE 15,4),(F.LANE_PRBS_CTL_CHK 15 7,1),(F.LANE_PRBS_CTL_PATTERN 15 7,5),(F.LANE_PRBS_CTL_GEN 15 7,1),(F.LANE_PRBS_CTL_LOOP 15 7,1)] { links := [(15, ({  } : LinkSt))] }), 15, 7, 95, 0, (List.replicate 95 false), 5, by decide +kernel⟩,
    ⟨(st [(F.LNK_STAT_STATE 15,4),(F.LANE_PRBS_CTL_CHK 15 7,1),(F.LANE_PRBS_CTL_PATTERN 15 7,5),(F.LANE_PRBS_CTL_GEN 15 7,0),(F.LANE_PRBS_CTL_LOOP 15 7,0)] { links := [(15, ({ tests := [(7, ({ pattern := 5, gen := 1, ref := 1, seen := 100, run := 64 } : LaneTest))] } : LinkSt))] }), 15, 7, 2, 1, [true, false], 5, ({ pattern := 5, gen := 1, ref := 1, seen := 100, run := 64 } : LaneTest), by decide +kernel⟩,
    ⟨(st [(F.LANE_EYE_CTL_DONE 15 7,1)] {}), 15, 7, by decide +kernel⟩,
    ⟨(st [(F.LANE_EYE_CTL_BUSY 15 7,1)] {}), 15, 7, (fun c => min 255 ((c.takeWhile (fun e => decide (min e (2 ^ (16 + 2 * getF (st [(F.LANE_EYE_CTL_BUSY 15 7,1)] {}) (F.LANE_EYE_CTL_DWELL 15 7))) ≤ getF (st [(F.LANE_EYE_CTL_BUSY 15 7,1)] {}) (F.LANE_EYE_CTL_ERR_LIMIT 15 7)))).length)), by refine ⟨?_, ?_, ?_, ?_, ?a4⟩; (case a4 => exact fun _ => rfl); all_goals decide +kernel⟩,
    ⟨up, 15, 7, by decide +kernel⟩,
    ⟨(st [(F.LNK_LOSS_CFG 15,5),(F.LANE_LOSS_BASE 15 7,3)] { links := [(15, { converged := 128 })] }), 15, 7, by decide +kernel⟩⟩

theorem test_hypotheses_sync_exchanges_align :
    (∃ (s : State) (p : Nat) (l : LinkSt), s.fieldsCanonical = true ∧ s.unitsCanonical = true ∧ p < 16 ∧ portUp s p = true ∧ inSpan s = true ∧
      l = link s p ∧ (bitF s F.SPAN_TREE_CHILDREN p = true ∨ (isMaster s = false ∧ p = syncPort s)) ∧
      (∀ t, l.syncAt = some t → t + 1000 * getF s F.TICK_SYNC_CFG ≤ getF s F.TICK_DT)) ∧
    (∃ (s : State) (p : Nat) (l : LinkSt) (t : Nat), s.fieldsCanonical = true ∧ s.unitsCanonical = true ∧ p < 16 ∧ portUp s p = true ∧
      inSpan s = true ∧ l = link s p ∧ l.syncAt = some t ∧ getF s F.TICK_DT < t + 1000 * getF s F.TICK_SYNC_CFG) ∧
    (∃ (s : State) (p : Nat) (l : LinkSt), s.fieldsCanonical = true ∧ s.unitsCanonical = true ∧ p < 16 ∧ portUp s p = true ∧ inSpan s = true ∧
      l = link s p ∧ l.syncSpan = true) ∧
    (∃ (s : State) (p : Nat) (l : LinkSt) (m : SyncMsg) (arrival : Nat) (off : Int), s.fieldsCanonical = true ∧ s.unitsCanonical = true ∧ p < 16 ∧
      portUp s p = true ∧ inSpan s = true ∧ l = link s p ∧ l.syncSpan = false ∧ isMaster s = false ∧ p = syncPort s ∧ m.echoTx ≠ 0 ∧
      off = (((m.echoRx : Int) - m.echoTx) - ((arrival : Int) - m.tTx)) / 2 ∧ off.natAbs ≤ 32767 ∧ 40 < off.natAbs ∧ s.span.badSync = 2) ∧
    (∃ (s : State) (p : Nat) (l : LinkSt) (m : SyncMsg) (arrival : Nat) (off : Int), s.fieldsCanonical = true ∧ s.unitsCanonical = true ∧ p < 16 ∧
      portUp s p = true ∧ inSpan s = true ∧ l = link s p ∧ l.syncSpan = false ∧ isMaster s = false ∧ p = syncPort s ∧ m.echoTx ≠ 0 ∧
      off = (((m.echoRx : Int) - m.echoTx) - ((arrival : Int) - m.tTx)) / 2 ∧ off.natAbs ≤ 32767 ∧ off.natAbs ≤ 8 ∧ 7 ≤ s.span.goodSync) :=
  ⟨⟨(st [(F.LNK_STAT_STATE 15,3),(F.SPAN_TREE_CHILDREN,0x8000)] master), 15, ({  } : LinkSt), by refine ⟨?_, ?_, ?_, ?_, ?_, ?_, ?_, ?a7⟩; (case a7 => decide +kernel); all_goals decide +kernel⟩,
    ⟨(st [(F.LNK_STAT_STATE 15,3),(F.SPAN_TREE_CHILDREN,0x8000),(F.TICK_SYNC_CFG,5),(F.TICK_DT,5008)] { master with links := [(15, { syncAt := some 9 })] }), 15, ({ syncAt := some 9 } : LinkSt), 9, by decide +kernel⟩,
    ⟨(st [(F.LNK_STAT_STATE 15,3)] { master with links := [(15, { syncSpan := true })] }), 15, ({ syncSpan := true } : LinkSt), by decide +kernel⟩,
    ⟨(st [(F.LNK_STAT_STATE 15,3),(F.TICK_SYNC_SYNC_PORT,15),(F.TICK_STAT_LOCKED,1)] { member with span := { badSync := 2, goodSync := 0 } }), 15, ({  } : LinkSt), ({ tTx := 100, echoTx := 18, echoRx := 100, tick := 9, depth := 2, locked := true } : SyncMsg), 100, (41 : Int), by decide +kernel⟩,
    ⟨(st [(F.LNK_STAT_STATE 15,3),(F.TICK_SYNC_SYNC_PORT,15),(F.TICK_STAT_LOCKED,1)] { member with span := { badSync := 0, goodSync := 7 } }), 15, ({  } : LinkSt), ({ tTx := 100, echoTx := 84, echoRx := 100, tick := 9, depth := 2, locked := true } : SyncMsg), 100, (8 : Int), by decide +kernel⟩⟩

theorem test_hypotheses_board_accesses_end :
    (∃ (s : State) (k addr o n : Nat), s.fieldsCanonical = true ∧ s.unitsCanonical = true ∧ s.memoryCanonical = true ∧ windowUp s = true ∧
      addr < 2 ^ 48 ∧ o = bitsOf addr 41 0 ∧ 0 < n ∧ n ≤ 32 ∧ bitsOf addr 47 45 = getF s F.DEV_POS ∧ bitsOf addr 44 42 = 1 ∧ beforeWipe s = false ∧
      boardError s (.steward k) addr (.read n) = none) ∧
    (∃ (s : State) (k addr o : Nat) (d : List Nat), s.fieldsCanonical = true ∧ s.unitsCanonical = true ∧ s.memoryCanonical = true ∧
      windowUp s = true ∧ addr < 2 ^ 48 ∧ o = bitsOf addr 41 0 ∧ 0 < d.length ∧ d.length ≤ 32 ∧ bitsOf addr 47 45 = getF s F.DEV_POS ∧
      bitsOf addr 44 42 = 1 ∧ beforeWipe s = false ∧ boardError s (.steward k) addr (.write d) = none) ∧
    (∃ (s : State) (k addr o : Nat) (d : List Nat), s.fieldsCanonical = true ∧ s.unitsCanonical = true ∧ s.memoryCanonical = true ∧
      windowUp s = true ∧ addr < 2 ^ 48 ∧ o = bitsOf addr 41 0 ∧ 0 < d.length ∧ d.length ≤ 32 ∧ bitsOf addr 47 45 = getF s F.DEV_POS ∧
      bitsOf addr 44 42 = 1 ∧ beforeWipe s = true ∧ boardError s (.steward k) addr (.write d) = none) ∧
    (∃ (s : State) (k addr o : Nat) (op : BoardOp) (e : AddrError), s.fieldsCanonical = true ∧ s.unitsCanonical = true ∧ s.memoryCanonical = true ∧
      windowUp s = true ∧ addr < 2 ^ 48 ∧ o = bitsOf addr 41 0 ∧ 0 < op.count ∧ op.count ≤ 32 ∧ bitsOf addr 47 45 = getF s F.DEV_POS ∧
      boardError s (.steward k) addr op = some e ∧ (∀ f ∈ addrErrorBits, isSet s f = false)) ∧
    (∃ (s : State) (addr o : Nat) (op : BoardOp) (p : Nat), s.fieldsCanonical = true ∧ s.unitsCanonical = true ∧ s.memoryCanonical = true ∧
      windowUp s = true ∧ addr < 2 ^ 48 ∧ o = bitsOf addr 41 0 ∧ 0 < op.count ∧ op.count ≤ 32 ∧ bitsOf addr 47 45 ≠ getF s F.DEV_POS ∧
      p = meshPort s (bitsOf addr 47 45) ∧ portUp s p = false) ∧
    (∃ (s : State) (addr o : Nat) (op : BoardOp) (p tag : Nat), s.fieldsCanonical = true ∧ s.unitsCanonical = true ∧ s.memoryCanonical = true ∧
      windowUp s = true ∧ addr < 2 ^ 48 ∧ o = bitsOf addr 41 0 ∧ 0 < op.count ∧ op.count ≤ 32 ∧ bitsOf addr 47 45 ≠ getF s F.DEV_POS ∧
      p = meshPort s (bitsOf addr 47 45) ∧ portUp s p = true ∧ freeTag (link s p) = some tag) ∧
    (∃ (s : State) (addr o p : Nat), s.fieldsCanonical = true ∧ s.unitsCanonical = true ∧ s.memoryCanonical = true ∧ windowUp s = true ∧
      addr < 2 ^ 48 ∧ o = bitsOf addr 41 0 ∧ p < 16) :=
  ⟨⟨(st [(F.DEV_CAP0_NEAR_PRESENT, 0xFF)] up), 3, (0 * 2^45 + 1 * 2^42 + 0x40), (bitsOf (0 * 2^45 + 1 * 2^42 + 0x40) 41 0), 32, by decide +kernel⟩,
    ⟨(st [(F.DEV_CAP0_NEAR_PRESENT, 0xFF)] up), 3, (0 * 2^45 + 1 * 2^42 + 0x40), (bitsOf (0 * 2^45 + 1 * 2^42 + 0x40) 41 0), [1, 2^32-1], by decide +kernel⟩,
    ⟨(st [(F.DEV_CAP0_NEAR_PRESENT, 0xFF),(F.BOOT_STAT_STEP,8)] { boot := { phase := .running } }), 3, (0 * 2^45 + 1 * 2^42 + 0x40), (bitsOf (0 * 2^45 + 1 * 2^42 + 0x40) 41 0), [1, 2^32-1], by decide +kernel⟩,
    ⟨up, 3, (0 * 2^45 + 3 * 2^42 + 0), (bitsOf (0 * 2^45 + 3 * 2^42 + 0) 41 0), (BoardOp.read 32), (AddrError.region), by refine ⟨?_, ?_, ?_, ?_, ?_, ?_, ?_, ?_, ?_, ?a9, ?_⟩; (case a9 => decide +kernel); all_goals decide +kernel⟩,
    ⟨up, (7 * 2^45 + 1 * 2^42 + 0), (bitsOf (7 * 2^45 + 1 * 2^42 + 0) 41 0), (BoardOp.read 1), 6, by decide +kernel⟩,
    ⟨(st [(F.LNK_STAT_STATE 6, 3)] up), (7 * 2^45 + 1 * 2^42 + 0), (bitsOf (7 * 2^45 + 1 * 2^42 + 0) 41 0), (BoardOp.read 1), 6, 0, by decide +kernel⟩,
    ⟨({ up with links := [(6, { reqs := [⟨3, .host, 0, false⟩] })] } : State), (7 * 2^45 + 1 * 2^42 + 0), (bitsOf (7 * 2^45 + 1 * 2^42 + 0) 41 0), 6, by decide +kernel⟩⟩

theorem test_hypotheses_ticks_open_frames :
    (∃ (s : State), s.fieldsCanonical = true ∧ s.unitsCanonical = true ∧ isSet s F.TICK_STAT_RUNNING = true ∧ inSpan s = false ∧
      isSet s F.CFG_MODE_STAT_PEND = false ∧ s.span.decideWait = false ∧ s.span.rerunEmpty = 0 ∧ s.span.skip = 0 ∧ s.frame.replayPending = false ∧
      s.frame.modeHeld = false ∧ s.frame.waiting = false ∧ s.adm.ejecting = false ∧ s.span.lossAt = none ∧ s.frame.hasLive = false ∧
      s.frame.nextRuns = false ∧ s.adm.reqs = [] ∧ s.adm.frames = [] ∧ s.mem.jobs = []) ∧
    (∃ (s : State), s.fieldsCanonical = true ∧ s.unitsCanonical = true ∧ isSet s F.TICK_STAT_RUNNING = true ∧ inSpan s = false ∧
      isSet s F.CFG_MODE_STAT_PEND = false ∧ s.span.decideWait = false ∧ s.span.rerunEmpty = 0 ∧ s.span.skip = 0 ∧ s.frame.replayPending = false ∧
      s.frame.modeHeld = false ∧ s.frame.waiting = false ∧ s.adm.ejecting = false ∧ s.span.lossAt = none ∧
      (s.frame.hasLive = false ∨ s.frame.state = .tickWait) ∧ s.frame.nextRuns = true) ∧
    (∃ (s : State), s.fieldsCanonical = true ∧ s.unitsCanonical = true ∧ isSet s F.TICK_STAT_RUNNING = true ∧ inSpan s = false ∧
      isSet s F.CFG_MODE_STAT_PEND = false ∧ s.span.decideWait = false ∧ s.span.rerunEmpty = 0 ∧ s.span.skip = 0 ∧ s.frame.replayPending = false ∧
      s.frame.modeHeld = false ∧ s.frame.waiting = false ∧ s.adm.ejecting = false ∧ s.span.lossAt = none ∧ s.frame.hasLive = true ∧
      s.frame.state ≠ .tickWait) ∧
    (∃ (s : State), s.fieldsCanonical = true ∧ isSet s F.TICK_STAT_RUNNING = true ∧ getF s F.TICK_PERIOD_NEXT_US ≠ getF s F.TICK_PERIOD_PERIOD_US ∧
      getF s F.TICK_PERIOD_NEXT_US < 2 ^ 14 ∧ getF s F.TICK_PERIOD_AT = getF s F.TICK_NOW ∧ getF s F.TICK_CIF_CIF ≤ 64 ∧ s.frame.sched = 0 ∧
      isSet s F.CFG_MODE_STAT_PEND = false ∧ s.frame.hasLive = false) ∧
    (∃ (s : State), s.fieldsCanonical = true ∧ isSet s F.TICK_STAT_RUNNING = true ∧ getF s F.TICK_PERIOD_NEXT_US ≠ getF s F.TICK_PERIOD_PERIOD_US ∧
      getF s F.TICK_PERIOD_NEXT_US < 2 ^ 14 ∧ getF s F.TICK_PERIOD_AT = getF s F.TICK_NOW ∧ getF s F.TICK_CIF_CIF ≤ 64 ∧ s.frame.sched = 0 ∧
      isSet s F.CFG_MODE_STAT_PEND = false ∧ opMhz (getF s F.PWR_RANGE_OP_MAX) * getF s F.TICK_PERIOD_NEXT_US < liveLen s) ∧
    (∃ (s : State), s.fieldsCanonical = true ∧ isSet s F.TICK_STAT_RUNNING = true ∧ getF s F.TICK_PERIOD_NEXT_US ≠ getF s F.TICK_PERIOD_PERIOD_US ∧
      getF s F.TICK_PERIOD_NEXT_US < 2 ^ 14 ∧ getF s F.TICK_PERIOD_AT = getF s F.TICK_NOW ∧ getF s F.TICK_CIF_CIF ≤ 64 ∧ s.frame.sched = 0 ∧
      isSet s F.CFG_MODE_STAT_PEND = false ∧ s.adm.reqs = [] ∧ s.frame.named = none ∧ s.frame.hasLive = false ∧ s.frame.nextRuns = false) ∧
    (∃ (s : State), s.fieldsCanonical = true ∧ isSet s F.TICK_STAT_RUNNING = true ∧ getF s F.TICK_PERIOD_AT ≠ getF s F.TICK_NOW) ∧
    (∃ (s : State), s.fieldsCanonical = true ∧ isSet s F.TICK_STAT_RUNNING = true ∧ s.frame.hasLive = false ∧ s.frame.state = .tickWait ∧
      s.frame.nextRuns = false ∧ s.frame.replayPending = false ∧ s.span.decideWait = false ∧ idleReadyNow s = true ∧
      getF s F.TICK_DT + ceilDiv 72000 (opMhz (getF s F.PWR_OP_CUR)) ≤ getF s F.TICK_NEXT ∧ getF s F.TICK_CIF_CIF + 72 < 0x1FFFFFF) :=
  ⟨⟨(st [(F.TICK_STAT_RUNNING,1),(F.TICK_NEXT,1000)] up), by decide +kernel⟩,
    ⟨(st [(F.TICK_STAT_RUNNING,1),(F.TICK_NEXT,1000)] { up with frame := { nextRuns := true } }), by decide +kernel⟩,
    ⟨(st [(F.TICK_STAT_RUNNING,1),(F.TICK_NEXT,1000)] { up with frame := { hasLive := true, state := .running } }), by decide +kernel⟩,
    ⟨(st [(F.TICK_STAT_RUNNING,1),(F.TICK_PERIOD_NEXT_US,9),(F.TICK_PERIOD_PERIOD_US,5),(F.TICK_CIF_CIF,64)]), by decide +kernel⟩,
    ⟨(st [(F.TICK_STAT_RUNNING,1),(F.TICK_PERIOD_NEXT_US,9),(F.TICK_PERIOD_PERIOD_US,5),(F.TICK_CIF_CIF,64)] { frame := { hasLive := true, state := .running, casements := [(0, { cfg := { phases := [{ lenAc := 16000000, last := true }] } })] } }), by decide +kernel⟩,
    ⟨(st [(F.TICK_STAT_RUNNING,1),(F.TICK_PERIOD_NEXT_US,9),(F.TICK_PERIOD_PERIOD_US,5),(F.TICK_CIF_CIF,64)]), by decide +kernel⟩,
    ⟨(st [(F.TICK_STAT_RUNNING,1),(F.TICK_PERIOD_AT,5)]), by decide +kernel⟩,
    ⟨(st [(F.TICK_STAT_RUNNING,1),(F.TICK_NEXT,1000000)] { up with frame := { state := .tickWait, named := some ⟨1, 2, 3⟩ } }), by decide +kernel⟩⟩

theorem test_hypotheses_drain_checks_decide :
    (∃ (s : State), s.fieldsCanonical = true ∧ s.frame.hasLive = true ∧ (s.frame.state = .running ∨ s.frame.state = .drainHold) ∧
      liveLen s - liveDrain s ≤ s.frame.sched) ∧
    (∃ (s : State), s.fieldsCanonical = true ∧ s.frame.hasLive = true ∧ (s.frame.state = .running ∧ s.frame.sched = liveLen s - 72 ∧
      s.frame.samples = [])) ∧
    (∃ (s : State) (x : DrainSample) (rest : _), s.fieldsCanonical = true ∧ s.frame.hasLive = true ∧ s.frame.state = .running ∧
      s.frame.sched = schedOfVerdict s ∧ s.frame.samples = x :: rest ∧ x.at_ + 8 ≤ getF s F.TICK_CIF_CIF ∧ x.conds < 256 ∧
      s.frame.verdictSeen = false ∧ s.mem.switches = [] ∧ (bitOf x.conds 7 = true ∨ bitOf x.conds 0 = true ∨ bitOf x.conds 1 = true)) ∧
    (∃ (s : State) (x : DrainSample) (rest : _), s.fieldsCanonical = true ∧ s.frame.hasLive = true ∧ s.frame.state = .running ∧
      s.frame.sched = schedOfVerdict s ∧ s.frame.samples = x :: rest ∧ x.at_ + 8 ≤ getF s F.TICK_CIF_CIF ∧ x.conds < 256 ∧
      s.frame.verdictSeen = false ∧ s.mem.switches = [] ∧ x.conds = 0) ∧
    (∃ (s : State) (x : DrainSample) (rest : _), s.fieldsCanonical = true ∧ s.frame.hasLive = true ∧ s.frame.state = .running ∧
      s.frame.sched = schedOfVerdict s ∧ s.frame.samples = x :: rest ∧ x.at_ + 8 ≤ getF s F.TICK_CIF_CIF ∧ x.conds < 256 ∧
      s.frame.verdictSeen = false ∧ s.mem.switches = [] ∧ x.conds ≠ 0 ∧ bitOf x.conds 7 = false ∧ bitOf x.conds 0 = false ∧ bitOf x.conds 1 = false) ∧
    (∃ (s : State) (x : DrainSample) (rest : _), s.fieldsCanonical = true ∧ s.frame.hasLive = true ∧ s.frame.state = .drainHold ∧
      s.frame.samples = x :: rest ∧ x.at_ + 8 ≤ getF s F.TICK_CIF_CIF ∧ x.conds < 256 ∧ x.conds ≠ 0 ∧ s.frame.verdictSeen = true ∧
      bitOf x.conds 7 = false ∧ bitOf x.conds 0 = false ∧ bitOf x.conds 1 = false ∧ s.frame.holdAc < liveDrain s) ∧
    (∃ (s : State) (x : DrainSample) (rest : _), s.fieldsCanonical = true ∧ s.frame.hasLive = true ∧ s.frame.state = .drainHold ∧
      s.frame.samples = x :: rest ∧ x.at_ + 8 ≤ getF s F.TICK_CIF_CIF ∧ x.conds < 256 ∧ x.conds ≠ 0 ∧ s.frame.verdictSeen = true ∧
      bitOf x.conds 7 = false ∧ bitOf x.conds 0 = false ∧ bitOf x.conds 1 = false ∧ liveDrain s ≤ s.frame.holdAc) ∧
    (∃ (s : State), s.fieldsCanonical = true ∧ s.frame.hasLive = true ∧ s.frame.state = .drainHold ∧ liveDrain s ≤ s.frame.holdAc) ∧
    (∃ (s : State), s.fieldsCanonical = true ∧ s.frame.hasLive = true ∧ s.frame.holdAc < liveDrain s) :=
  ⟨⟨(st [] { up with frame := { hasLive := true, state := .running } }), by decide +kernel⟩,
    ⟨(st [] { up with frame := { hasLive := true, state := .running } }), by decide +kernel⟩,
    ⟨(st [(F.TICK_CIF_CIF, 8)] { up with frame := { hasLive := true, state := .running, samples := [⟨0x80, true, 0⟩] } }), (⟨0x80, true, 0⟩ : DrainSample), ([] : List DrainSample), by decide +kernel⟩,
    ⟨(st [(F.TICK_CIF_CIF, 8)] { up with frame := { hasLive := true, state := .running, samples := [⟨0, true, 0⟩], named := some ⟨1, 2, 3⟩ } }), (⟨0, true, 0⟩ : DrainSample), ([] : List DrainSample), by decide +kernel⟩,
    ⟨(st [(F.TICK_CIF_CIF, 8)] { up with frame := { hasLive := true, state := .running, samples := [⟨0x20, true, 0⟩] } }), (⟨0x20, true, 0⟩ : DrainSample), ([] : List DrainSample), by decide +kernel⟩,
    ⟨(st [(F.TICK_CIF_CIF, 8)] { up with frame := { hasLive := true, state := .drainHold, verdictSeen := true, holdAc := 8, samples := [⟨0x20, true, 0⟩], casements := [(0, { cfg := { drainAc := 9 } })] } }), (⟨0x20, true, 0⟩ : DrainSample), ([] : List DrainSample), by decide +kernel⟩,
    ⟨(st [(F.TICK_CIF_CIF, 8)] { up with frame := { hasLive := true, state := .drainHold, verdictSeen := true, holdAc := 9, samples := [⟨0x20, true, 0⟩], casements := [(0, { cfg := { drainAc := 9 } })] } }), (⟨0x20, true, 0⟩ : DrainSample), ([] : List DrainSample), by decide +kernel⟩,
    ⟨(st [] { up with frame := { hasLive := true, state := .drainHold } }), by decide +kernel⟩,
    ⟨(st [] { up with frame := { hasLive := true, state := .drainHold, casements := [(0, { cfg := { drainAc := 9 } })] } }), by decide +kernel⟩⟩

theorem test_hypotheses_schedule_cycles_pass :
    (∃ (s : State) (x : CycleInput), s.fieldsCanonical = true ∧ isSet s F.TICK_STAT_RUNNING = true ∧ isSet s F.CFG_STAT_LOADING = false ∧
      getF s F.TICK_CIF_CIF + 1 < 0x1FFFFFF ∧ s.frame.state = .tickWait ∧ (x.paneWrites = [] ∨ isSet s F.CFG_STAT_PANE_LOADING = false)) ∧
    (∃ (s : State) (x : CycleInput) (k : Nat), s.fieldsCanonical = true ∧ isSet s F.TICK_STAT_RUNNING = true ∧ isSet s F.CFG_STAT_LOADING = false ∧
      getF s F.TICK_CIF_CIF + 1 < 0x1FFFFFF ∧ (s.frame.state = .running ∨ s.frame.state = .gateHold) ∧ s.frame.sched < schedOfVerdict s ∧
      phaseBegins s = some k ∧ gateOpen s k = false ∧ stagesServed (serveRoutes s x) = true ∧ x.gateWaitNs = 0 ∧ s.pwr.droop = false ∧
      (x.paneWrites = [] ∨ isSet s F.CFG_STAT_PANE_LOADING = false)) ∧
    (∃ (s : State) (x : CycleInput), s.fieldsCanonical = true ∧ isSet s F.TICK_STAT_RUNNING = true ∧ isSet s F.CFG_STAT_LOADING = false ∧
      getF s F.TICK_CIF_CIF + 1 < 0x1FFFFFF ∧ (s.frame.state = .running ∨ s.frame.state = .gateHold) ∧ s.frame.sched < schedOfVerdict s ∧
      (phaseBegins s = none ∨ ∃ k, phaseBegins s = some k ∧ gateOpen s k = true) ∧ stagesServed (serveRoutes s x) = true) ∧
    (∃ (s : State) (x : CycleInput), s.fieldsCanonical = true ∧ isSet s F.TICK_STAT_RUNNING = true ∧ isSet s F.CFG_STAT_LOADING = false ∧
      getF s F.TICK_CIF_CIF + 1 < 0x1FFFFFF ∧ (s.frame.state = .running ∨ s.frame.state = .gateHold) ∧ stagesServed (serveRoutes s x) = false) ∧
    (∃ (s : State), s.fieldsCanonical = true ∧ isSet s F.TICK_STAT_RUNNING = true ∧ isSet s F.CFG_STAT_LOADING = false ∧
      getF s F.TICK_CIF_CIF + 1 < 0x1FFFFFF ∧ s.frame.state = .running ∧ schedOfVerdict s ≤ s.frame.sched) ∧
    (∃ (s : State), s.fieldsCanonical = true ∧ isSet s F.TICK_STAT_RUNNING = true ∧ isSet s F.CFG_STAT_LOADING = false ∧
      getF s F.TICK_CIF_CIF + 1 < 0x1FFFFFF ∧ s.frame.state = .drainHold ∧ liveDrain s ≤ s.frame.holdAc) ∧
    (∃ (s : State), s.fieldsCanonical = true ∧ isSet s F.TICK_STAT_RUNNING = true ∧ isSet s F.CFG_STAT_LOADING = false ∧
      getF s F.TICK_CIF_CIF + 1 < 0x1FFFFFF ∧ s.frame.state = .drainHold ∧ s.frame.holdAc < liveDrain s) ∧
    (∃ (s : State) (ref : Nat) (r : RecvInst), s.fieldsCanonical = true ∧ isSet s F.TICK_STAT_RUNNING = true ∧ isSet s F.CFG_STAT_LOADING = false ∧
      getF s F.TICK_CIF_CIF + 1 < 0x1FFFFFF ∧ s.span.recvs.find? (fun i => i.ref == ref) = some r ∧ r.done = false ∧ r.last = true ∧
      r.bytes.length = xferLen (xferOf s ref)) :=
  ⟨⟨(st [(F.TICK_STAT_RUNNING,1),(F.TICK_CIF_CIF,2^25-3)] { up with frame := { hasLive := true, casements := [(0, { cfg := { phases := [{ lenAc := 100 }, { lenAc := 100, gated := true, last := true }], drainAc := 64, transfers := [{ engine := 4 }] } })], state := .tickWait, acRest := 7 }, span := { xfers := [5], recvs := [{ ref := 0, last := true }] } }), ({} : CycleInput), by decide +kernel⟩,
    ⟨(st [(F.TICK_STAT_RUNNING,1),(F.TICK_CIF_CIF,2^25-3),(F.SPAN_STAT_IN_SPAN,1)] { up with frame := { hasLive := true, casements := [(0, { cfg := { phases := [{ lenAc := 100 }, { lenAc := 100, gated := true, last := true }], drainAc := 64, transfers := [{ engine := 4 }] } })], state := .running, sched := 100 }, span := { xfers := [5], recvs := [{ ref := 0, last := true }] } }), ({} : CycleInput), 1, by decide +kernel⟩,
    ⟨(st [(F.TICK_STAT_RUNNING,1),(F.TICK_CIF_CIF,2^25-3)] { up with frame := { hasLive := true, casements := [(0, { cfg := { phases := [{ lenAc := 100 }, { lenAc := 100, gated := true, last := true }], drainAc := 64, transfers := [{ engine := 4 }] } })], state := .running, sched := 7 }, span := { xfers := [5], recvs := [{ ref := 0, last := true }] } }), ({} : CycleInput), by refine ⟨?_, ?_, ?_, ?_, ?_, ?_, ?a6, ?_⟩; (case a6 => exact .inl (by decide +kernel)); all_goals decide +kernel⟩,
    ⟨(st [(F.TICK_STAT_RUNNING,1),(F.TICK_CIF_CIF,2^25-3)] { up with frame := { hasLive := true, casements := [(0, { cfg := { phases := [{ lenAc := 100 }, { lenAc := 100, gated := true, last := true }], drainAc := 64, transfers := [{ engine := 4 }] } })], state := .running, sched := 7 }, span := { xfers := [5], recvs := [{ ref := 0, last := true }] } , mem := { recs := [{ routeEpoch with model := 0, epoch := 0, routeAt := [((0, 0, 0), 7)] }], near := routeModule.mem.near } }), ({} : CycleInput), by decide +kernel⟩,
    ⟨(st [(F.TICK_STAT_RUNNING,1),(F.TICK_CIF_CIF,2^25-3)] { up with frame := { hasLive := true, casements := [(0, { cfg := { phases := [{ lenAc := 100 }, { lenAc := 100, gated := true, last := true }], drainAc := 64, transfers := [{ engine := 4 }] } })], state := .running, sched := 200 }, span := { xfers := [5], recvs := [{ ref := 0, last := true }] } }), by decide +kernel⟩,
    ⟨(st [(F.TICK_STAT_RUNNING,1),(F.TICK_CIF_CIF,2^25-3)] { up with frame := { hasLive := true, casements := [(0, { cfg := { phases := [{ lenAc := 100 }, { lenAc := 100, gated := true, last := true }], drainAc := 64, transfers := [{ engine := 4 }] } })], state := .drainHold, sched := 200, holdAc := 64 }, span := { xfers := [5], recvs := [{ ref := 0, last := true }] } }), by decide +kernel⟩,
    ⟨(st [(F.TICK_STAT_RUNNING,1),(F.TICK_CIF_CIF,2^25-3)] { up with frame := { hasLive := true, casements := [(0, { cfg := { phases := [{ lenAc := 100 }, { lenAc := 100, gated := true, last := true }], drainAc := 64, transfers := [{ engine := 4 }] } })], state := .drainHold, sched := 200, holdAc := 63 }, span := { xfers := [5], recvs := [{ ref := 0, last := true }] } }), by decide +kernel⟩,
    ⟨(st [(F.TICK_STAT_RUNNING,1),(F.TICK_CIF_CIF,2^25-3)] { up with frame := { hasLive := true, casements := [(0, { cfg := { phases := [{ lenAc := 100 }, { lenAc := 100, gated := true, last := true }], drainAc := 64, transfers := [{ engine := 4 }] } })], state := .running }, span := { xfers := [2 * 2^34 + 5], recvs := [{ ref := 0, last := true, bytes := [1#8, 2#8] }] } }), 0, ({ ref := 0, last := true, bytes := [1#8, 2#8] } : RecvInst), by decide +kernel⟩⟩

theorem test_hypotheses_sequencers_follow_the_pattern :
    (∃ (c : Cell) (casement : Nat), c.effects = [] ∧ c.inN = {} ∧ c.inE = {} ∧ c.inS = {} ∧ c.inW = {} ∧ c.seq = .run ∧ c.pc ≤ 1023 ∧
      fetchWord c casement = none) ∧
    (∃ (c : Cell) (phase casement : Nat) (w : _), c.effects = [] ∧ c.inN = {} ∧ c.inE = {} ∧ c.inS = {} ∧ c.inW = {} ∧ c.seq = .run ∧ c.pc ≤ 1023 ∧
      fetchWord c casement = some w ∧ phase < pwPhase w) ∧
    (∃ (c : Cell) (phase casement : Nat) (w : _), c.effects = [] ∧ c.inN = {} ∧ c.inE = {} ∧ c.inS = {} ∧ c.inW = {} ∧ c.seq = .run ∧ c.pc ≤ 1023 ∧
      fetchWord c casement = some w ∧ pwPhase w < phase) ∧
    (∃ (c : Cell) (phase casement : Nat) (w : _), c.effects = [] ∧ c.inN = {} ∧ c.inE = {} ∧ c.inS = {} ∧ c.inW = {} ∧ c.seq = .run ∧ c.pc ≤ 1023 ∧
      fetchWord c casement = some w ∧ pwPhase w = phase ∧ pwClass w = .ctl ∧ pwOp w = 0 ∧ pwEnd w = false) ∧
    (∃ (c : Cell) (phase casement : Nat) (w : _), c.effects = [] ∧ c.inN = {} ∧ c.inE = {} ∧ c.inS = {} ∧ c.inW = {} ∧ c.seq = .run ∧ c.pc ≤ 1023 ∧
      fetchWord c casement = some w ∧ pwPhase w = phase ∧ pwClass w = .move ∧ pwOp w = 0 ∧ pwSrcA w = 0 ∧ pwSrcB w = 0 ∧ pwEnd w = true ∧
      0 < (smapGet idleLoop c.loops (pwLvl w)).rem ∧ smapSorted c.loops = true) :=
  ⟨⟨({ pc := 1023 } : Cell), 1, by decide +kernel⟩,
    ⟨({ len0 := 1, pat := [(0, BitVec.ofNat 64 (3 * 2^56))] } : Cell), 2, 0, (BitVec.ofNat 64 (3 * 2^56)), by decide +kernel⟩,
    ⟨({ len0 := 1, pat := [(0, BitVec.ofNat 64 (3 * 2^56))] } : Cell), 4, 0, (BitVec.ofNat 64 (3 * 2^56)), by decide +kernel⟩,
    ⟨({ len0 := 1, pat := [(0, BitVec.ofNat 64 (4 * 2^60 + 3 * 2^56 + 2^43 + 5))] } : Cell), 3, 0, (BitVec.ofNat 64 (4 * 2^60 + 3 * 2^56 + 2^43 + 5)), by decide +kernel⟩,
    ⟨({ len0 := 1, pat := [(0, BitVec.ofNat 64 (3 * 2^56 + 2^55 + 2^53))], loops := [(1, ⟨true, 0, 2, 3⟩)] } : Cell), 3, 0, (BitVec.ofNat 64 (3 * 2^56 + 2^55 + 2^53)), by decide +kernel⟩⟩

theorem test_hypotheses_loads_and_checks :
    (∃ (s : State) (x : _), s.fieldsCanonical = true ∧ s.tablesCanonical = true ∧ x = (if s.frame.idleSealed = true ∧
      (planNaming s none).isSome = true then s.frame.named else planNaming s none) ∧ isSet s F.TICK_STAT_RUNNING = true ∧
      s.frame.lastAborted = false ∧ s.frame.replayPending = false ∧ s.span.decideWait = false ∧ s.frame.named = x ∧ loadsLapsed s = false ∧
      getF s F.PWR_STAT_STATE ≠ 1) ∧
    (∃ (s : State) (x : _), s.fieldsCanonical = true ∧ s.tablesCanonical = true ∧ x = (if s.frame.idleSealed = true ∧
      (planNaming s none).isSome = true then s.frame.named else planNaming s none) ∧ isSet s F.TICK_STAT_RUNNING = true ∧
      s.frame.lastAborted = false ∧ s.frame.replayPending = false ∧ s.span.decideWait = false ∧ x.isSome = true) ∧
    (∃ (s : State) (x : _), s.fieldsCanonical = true ∧ s.tablesCanonical = true ∧ x = (if s.frame.idleSealed = true ∧
      (planNaming s none).isSome = true then s.frame.named else planNaming s none) ∧ isSet s F.TICK_STAT_RUNNING = true ∧
      s.frame.lastAborted = false ∧ s.frame.replayPending = false ∧ s.span.decideWait = false ∧ s.frame.named = x ∧ loadsLapsed s = true) ∧
    (∃ (s : State), s.fieldsCanonical = true ∧ s.tablesCanonical = true ∧
      (s.frame.lastAborted = true ∨ s.frame.replayPending = true ∨ s.span.decideWait = true)) ∧
    (∃ (s : State) (nearUe : Bool) (x : Naming) (r b : _), s.fieldsCanonical = true ∧ s.tablesCanonical = true ∧ isSet s F.CFG_STAT_LOADING = true ∧
      s.frame.named = some x ∧ recFind s.mem x.model x.epoch = some r ∧ cfgBytes s r x.configId = some b ∧
      checkConfig b.rd (checkContext s r b.len b.west (some (getF s F.CFG_MODE)) nearUe) = none) ∧
    (∃ (s : State) (x : Naming) (r : EpochRec) (b : _), s.fieldsCanonical = true ∧ s.tablesCanonical = true ∧
      isSet s F.CFG_STAT_PANE_LOADING = true ∧ s.frame.named = some x ∧ recFind s.mem x.model x.epoch = some r ∧ cfgBytes s r x.configId = some b) ∧
    (∃ (s : State) (model epoch c : Nat) (nearUe : Bool) (r b : _), s.fieldsCanonical = true ∧ s.tablesCanonical = true ∧
      recFind s.mem model epoch = some r ∧ r.shards.all (fun h => h.written || !keptShard s r h) = true ∧ (keptConfigs s r).contains c = true ∧
      cfgBytes s r c = some b ∧ checkConfig b.rd (checkContext s r b.len b.west none nearUe) = none) ∧
    (∃ (s : State) (model epoch c : Nat) (nearUe : Bool) (r : EpochRec) (b : _), s.fieldsCanonical = true ∧ s.tablesCanonical = true ∧
      recFind s.mem model epoch = some r ∧ r.shards.all (fun h => h.written || !keptShard s r h) = true ∧ (keptConfigs s r).contains c = true ∧
      cfgBytes s r c = some b ∧ checkConfig b.rd (checkContext s r b.len b.west none nearUe) ≠ none) ∧
    (∃ (s : State) (model epoch c : Nat) (r : EpochRec), s.fieldsCanonical = true ∧ s.tablesCanonical = true ∧ recFind s.mem model epoch = some r ∧
      (keptConfigs s r).contains c = false) ∧
    (∃ (s : State) (model epoch : Nat) (nearUe : Bool) (r b : _), s.fieldsCanonical = true ∧ s.tablesCanonical = true ∧
      recFind s.mem model epoch = some r ∧ r.shards.all (fun h => h.written || !keptShard s r h) = true ∧
      (r.objects.filter (fun o => o.kind == 3)).all (keepsObject s r) = true ∧ routeBytes s r = some b ∧ nearUe = false ∧
      routeOk b.rd b.len (spanSize s) (planModelFor s.adm.plan model) = true) ∧
    (∃ (s : State) (model epoch : Nat) (nearUe : Bool) (r : EpochRec) (b : _), s.fieldsCanonical = true ∧ s.tablesCanonical = true ∧
      recFind s.mem model epoch = some r ∧ r.shards.all (fun h => h.written || !keptShard s r h) = true ∧
      (r.objects.filter (fun o => o.kind == 3)).all (keepsObject s r) = true ∧ routeBytes s r = some b ∧
      (nearUe = true ∨ routeOk b.rd b.len (spanSize s) (planModelFor s.adm.plan model) = false)) ∧
    (∃ (s : State) (c : Nat) (rest : _), s.fieldsCanonical = true ∧ s.tablesCanonical = true ∧ s.frame.retireDue = c :: rest ∧ c < 66 ∧
      getF s F.ARR_RETIRE_COL ≠ c ∧ getF s F.ARR_RETIRE_QCOL ≠ c ∧ getF s F.ARR_COLMAP_EXCL0 ≠ c ∧ getF s F.ARR_COLMAP_EXCL1 ≠ c ∧ 0 < unclaimed s ∧
      isSet s F.ARR_RETIRE_PEND = false) ∧
    (∃ (s : State) (c : Nat) (rest : _), s.fieldsCanonical = true ∧ s.tablesCanonical = true ∧ s.frame.retireDue = c :: rest ∧ c < 66 ∧
      getF s F.ARR_RETIRE_COL ≠ c ∧ getF s F.ARR_RETIRE_QCOL ≠ c ∧ getF s F.ARR_COLMAP_EXCL0 ≠ c ∧ getF s F.ARR_COLMAP_EXCL1 ≠ c ∧ 0 < unclaimed s ∧
      isSet s F.ARR_RETIRE_PEND = true) ∧
    (∃ (s : State) (c : Nat) (rest : _), s.fieldsCanonical = true ∧ s.tablesCanonical = true ∧ s.frame.retireDue = c :: rest ∧ c < 66 ∧
      getF s F.ARR_RETIRE_COL ≠ c ∧ getF s F.ARR_RETIRE_QCOL ≠ c ∧ getF s F.ARR_COLMAP_EXCL0 ≠ c ∧ getF s F.ARR_COLMAP_EXCL1 ≠ c ∧ unclaimed s = 0) :=
  ⟨⟨(st [(F.TICK_STAT_RUNNING,1)] up), (if ((st [(F.TICK_STAT_RUNNING,1)] up)).frame.idleSealed = true ∧ (planNaming ((st [(F.TICK_STAT_RUNNING,1)] up)) none).isSome = true then ((st [(F.TICK_STAT_RUNNING,1)] up)).frame.named else planNaming ((st [(F.TICK_STAT_RUNNING,1)] up)) none), by decide +kernel⟩,
    ⟨lapsedModule, (if (lapsedModule).frame.idleSealed = true ∧ (planNaming (lapsedModule) none).isSome = true then (lapsedModule).frame.named else planNaming (lapsedModule) none), by decide +kernel⟩,
    ⟨lapsedModule, (if (lapsedModule).frame.idleSealed = true ∧ (planNaming (lapsedModule) none).isSome = true then (lapsedModule).frame.named else planNaming (lapsedModule) none), by decide +kernel⟩,
    ⟨({ up with frame := { lastAborted := true } } : State), by decide +kernel⟩,
    ⟨configModule, false, (⟨1, 2, 3⟩ : Naming), configEpoch, configBytes, by refine ⟨?_, ?_, ?_, ?_, ?_, ?a5, ?a6⟩; (case a5 => simp [configBytes]); (case a6 => exact config_load); all_goals decide +kernel⟩,
    ⟨(st [(F.CFG_STAT_PANE_LOADING,1)] { up with frame := { named := some ⟨1, 2, 3⟩ }, mem := { recs := [({ model := 1, epoch := 2, shards := [{ ulen := 4096, written := true }], objects := [{ kind := 1, configId := 3, len := 256 }, { kind := 2, configId := 3, len := 64 }] } : EpochRec)] } }), (⟨1, 2, 3⟩ : Naming), ({ model := 1, epoch := 2, shards := [{ ulen := 4096, written := true }], objects := [{ kind := 1, configId := 3, len := 256 }, { kind := 2, configId := 3, len := 64 }] } : EpochRec), ((cfgBytes (st [(F.CFG_STAT_PANE_LOADING,1)] { up with frame := { named := some ⟨1, 2, 3⟩ }, mem := { recs := [({ model := 1, epoch := 2, shards := [{ ulen := 4096, written := true }], objects := [{ kind := 1, configId := 3, len := 256 }, { kind := 2, configId := 3, len := 64 }] } : EpochRec)] } }) ({ model := 1, epoch := 2, shards := [{ ulen := 4096, written := true }], objects := [{ kind := 1, configId := 3, len := 256 }, { kind := 2, configId := 3, len := 64 }] } : EpochRec) 3).get (by decide +kernel)), by refine ⟨?_, ?_, ?_, ?_, ?_, ?a5⟩; (case a5 => simp); all_goals decide +kernel⟩,
    ⟨configModule, 1, 2, 3, false, configEpoch, configBytes, by refine ⟨?_, ?_, ?_, ?_, ?_, ?a5, ?a6⟩; (case a5 => simp [configBytes]); (case a6 => exact config_check); all_goals decide +kernel⟩,
    ⟨(st [] { up with frame := { named := some ⟨1, 2, 3⟩ }, mem := { recs := [({ model := 1, epoch := 2, shards := [{ ulen := 4096, written := true }], objects := [{ kind := 1, configId := 3, len := 256 }, { kind := 2, configId := 3, len := 64 }] } : EpochRec)] } }), 1, 2, 3, true, ({ model := 1, epoch := 2, shards := [{ ulen := 4096, written := true }], objects := [{ kind := 1, configId := 3, len := 256 }, { kind := 2, configId := 3, len := 64 }] } : EpochRec), ((cfgBytes (st [] { up with frame := { named := some ⟨1, 2, 3⟩ }, mem := { recs := [({ model := 1, epoch := 2, shards := [{ ulen := 4096, written := true }], objects := [{ kind := 1, configId := 3, len := 256 }, { kind := 2, configId := 3, len := 64 }] } : EpochRec)] } }) ({ model := 1, epoch := 2, shards := [{ ulen := 4096, written := true }], objects := [{ kind := 1, configId := 3, len := 256 }, { kind := 2, configId := 3, len := 64 }] } : EpochRec) 3).get (by decide +kernel)), by refine ⟨?_, ?_, ?_, ?_, ?_, ?a5, ?_⟩; (case a5 => simp); all_goals decide +kernel⟩,
    ⟨({ up with mem := { recs := [{ model := 1, epoch := 2 }] } } : State), 1, 2, 3, ({ model := 1, epoch := 2 } : EpochRec), by decide +kernel⟩,
    ⟨routeModule, 1, 2, false, routeEpoch, ((routeBytes routeModule routeEpoch).get (by decide +kernel)), by refine ⟨?_, ?_, ?_, ?_, ?_, ?a5, ?_, ?_⟩; (case a5 => simp); all_goals decide +kernel⟩,
    ⟨({ up with mem := { recs := [({ model := 1, epoch := 2, shards := [{ ulen := 16, written := true }], objects := [{ kind := 3, len := 16 }] } : EpochRec)], near := [(0, 1#8)] } } : State), 1, 2, false, ({ model := 1, epoch := 2, shards := [{ ulen := 16, written := true }], objects := [{ kind := 3, len := 16 }] } : EpochRec), ((routeBytes ({ up with mem := { recs := [({ model := 1, epoch := 2, shards := [{ ulen := 16, written := true }], objects := [{ kind := 3, len := 16 }] } : EpochRec)], near := [(0, 1#8)] } } : State) ({ model := 1, epoch := 2, shards := [{ ulen := 16, written := true }], objects := [{ kind := 3, len := 16 }] } : EpochRec)).get (by decide +kernel)), by refine ⟨?_, ?_, ?_, ?_, ?_, ?a5, ?_⟩; (case a5 => simp); all_goals decide +kernel⟩,
    ⟨(st [(F.DEV_CAP0_SPARE_LEFT,2)] { up with frame := { retireDue := [65, 3] } }), 65, [3], by decide +kernel⟩,
    ⟨(st [(F.DEV_CAP0_SPARE_LEFT,2),(F.ARR_RETIRE_PEND,1),(F.ARR_RETIRE_COL,3)] { up with frame := { retireDue := [65, 3] } }), 65, [3], by decide +kernel⟩,
    ⟨(st [] { up with frame := { retireDue := [65, 3] } }), 65, [3], by decide +kernel⟩⟩

theorem test_hypotheses_modes_change :
    (∃ (s : State) (target : Nat) (r : Requester) (why : Nat), s.fieldsCanonical = true ∧ modeRefused s target r = some why) ∧
    (∃ (s : State) (target : Nat) (r : Requester), s.fieldsCanonical = true ∧ modeRefused s target r = none ∧ inSpan s = false ∧
      servesRequests target = false) ∧
    (∃ (s : State) (target : Nat) (r : Requester), s.fieldsCanonical = true ∧ modeRefused s target r = none ∧ inSpan s = false ∧
      modePeriod s target = getF s F.TICK_PERIOD_PERIOD_US) ∧
    (∃ (s : State) (target : Nat) (r : Requester), s.fieldsCanonical = true ∧ modeRefused s target r = none ∧ inSpan s = false ∧
      modePeriod s target ≠ getF s F.TICK_PERIOD_PERIOD_US) ∧
    (∃ (s : State), s.fieldsCanonical = true ∧ changeDue s (getF s F.TICK_NOW) = true ∧ s.frame.prevAborted = false ∧ s.frame.hasLive = false ∧
      getF s F.TICK_CIF_CIF = 0) ∧
    (∃ (s : State), s.fieldsCanonical = true ∧ (changeDue s (getF s F.TICK_NOW) = false ∨ s.frame.prevAborted = true)) :=
  ⟨⟨up, 5, (Requester.steward 0), 1, by decide +kernel⟩,
    ⟨(st [(F.SEC_LC_STATE,1)] { up with fuses := { lc := 1 }, modes := { overlays := [(4, [])] } }), 4, (Requester.steward 0), by decide +kernel⟩,
    ⟨(st [(F.SEC_LC_STATE,1)] { up with fuses := { lc := 1 }, modes := { overlays := [(3, [])] } }), 3, (Requester.steward 0), by decide +kernel⟩,
    ⟨(st [(F.SEC_LC_STATE,1),(F.TICK_NOW,7)] { up with fuses := { lc := 1 }, modes := { overlays := [(1, [{ type := 1, body := leBytes 0x10004 4 ++ leBytes 16000 4 }])] } }), 1, (Requester.steward 0), by decide +kernel⟩,
    ⟨(st [(F.CFG_MODE_STAT_PEND,1),(F.CFG_MODE_STAT_TARGET,4),(F.TICK_NOW,9)] { up with frame := { modeAskedAt := 7 } }), by decide +kernel⟩,
    ⟨up, by decide +kernel⟩⟩

theorem test_hypotheses_stretches_are_granted :
    (∃ (s : State) (m : CtrlMsg) (amount dt : Nat), s.fieldsCanonical = true ∧ s.unitsCanonical = true ∧ inSpan s = true ∧ isMaster s = true ∧
      m.msg = 1 ∧ m.tick = getF s F.TICK_NOW + 1 ∧ getF s F.TICK_DT + 1000 * getF s F.TICK_STRETCH_CFG_CUTOFF_US < getF s F.TICK_NEXT ∧
      amount = min (bitsOf m.arg 31 0) (getF s F.TICK_STRETCH_CFG_MAX_US) ∧ 0 < amount ∧
      dt = getF s F.TICK_LAST + 1000 * getF s F.TICK_PERIOD_PERIOD_US + 1000 * amount ∧ getF s F.TICK_NEXT ≤ dt ∧
      (∀ g, s.span.granted = some g → g.tick = m.tick → g.amountUs < bitsOf m.arg 31 0 ∨ (g.amountUs = bitsOf m.arg 31 0 ∧ m.from_ < g.ord)) ∧
      bitsOf m.arg 39 32 = 4) ∧
    (∃ (s : State) (m : CtrlMsg) (g : StretchReq), s.fieldsCanonical = true ∧ s.unitsCanonical = true ∧ inSpan s = true ∧ isMaster s = true ∧
      m.msg = 1 ∧ m.tick = getF s F.TICK_NOW + 1 ∧ getF s F.TICK_DT + 1000 * getF s F.TICK_STRETCH_CFG_CUTOFF_US < getF s F.TICK_NEXT ∧
      s.span.granted = some g ∧ g.tick = m.tick ∧ (bitsOf m.arg 31 0 < g.amountUs ∨ (bitsOf m.arg 31 0 = g.amountUs ∧ g.ord ≤ m.from_))) ∧
    (∃ (s : State) (m : CtrlMsg), s.fieldsCanonical = true ∧ s.unitsCanonical = true ∧ inSpan s = true ∧ isMaster s = true ∧ m.msg = 1 ∧
      (m.tick ≠ getF s F.TICK_NOW + 1 ∨ getF s F.TICK_NEXT ≤ getF s F.TICK_DT + 1000 * getF s F.TICK_STRETCH_CFG_CUTOFF_US)) ∧
    (∃ (s : State) (m : CtrlMsg), s.fieldsCanonical = true ∧ s.unitsCanonical = true ∧ inSpan s = true ∧ isMaster s = false ∧ m.msg = 2 ∧
      m.tick = getF s F.TICK_NOW + 1 ∧ getF s F.TICK_NEXT ≤ bitsOf m.arg 63 0 ∧ bitsOf m.arg 103 96 = 4) ∧
    (∃ (s : State) (m : CtrlMsg), s.fieldsCanonical = true ∧ s.unitsCanonical = true ∧ inSpan s = true ∧ isMaster s = false ∧ m.msg = 2 ∧
      m.tick ≤ getF s F.TICK_NOW) :=
  ⟨⟨master, (msg 1 2 10 (200 + 4 * 2^32)), 200, 6200000, by refine ⟨?_, ?_, ?_, ?_, ?_, ?_, ?_, ?_, ?_, ?_, ?_, ?a11, ?_⟩; (case a11 => intro g h; cases h); all_goals decide +kernel⟩,
    ⟨({ master with span := { granted := some ⟨10, 900, .drain, 2, none⟩ } } : State), (msg 1 2 10 900), (⟨10, 900, .drain, 2, none⟩ : StretchReq), by decide +kernel⟩,
    ⟨master, (msg 1 2 11 200), by decide +kernel⟩,
    ⟨member, (msg 2 0 10 (6000000 + 200 * 2^64 + 4 * 2^96)), by decide +kernel⟩,
    ⟨member, (msg 2 0 9 6000000), by decide +kernel⟩⟩

theorem test_hypotheses_frames_are_decided :
    (∃ (s : State) (m : CtrlMsg) (r : FrameReport), s.fieldsCanonical = true ∧ s.unitsCanonical = true ∧ inSpan s = true ∧ isMaster s = true ∧
      m.msg = 3 ∧ m.from_ ≠ getF s F.SPAN_ID_ORD ∧ r = ⟨m.from_, m.tick, bitsOf m.arg 7 0, bitsOf m.arg 15 8, decide (bitsOf m.arg 23 16 ≠ 0), bitsOf m.arg 31 24, m.stamp⟩ ∧ (∀ q ∈ s.span.reports, q.ord = m.from_ → q.tick ≠ m.tick) ∧ m.tick ∉ s.span.decided ∧ (∃ i ∈ reportersOf s m.tick, i ≠ m.from_ ∧ ∀ q ∈ s.span.reports, q.ord = i → q.tick ≠ m.tick)) ∧
    (∃ (s : State) (m : CtrlMsg) (r : FrameReport), s.fieldsCanonical = true ∧ s.unitsCanonical = true ∧ inSpan s = true ∧ isMaster s = true ∧
      m.msg = 3 ∧ m.from_ ≠ getF s F.SPAN_ID_ORD ∧ r = ⟨m.from_, m.tick, bitsOf m.arg 7 0, bitsOf m.arg 15 8, decide (bitsOf m.arg 23 16 ≠ 0), bitsOf m.arg 31 24, m.stamp⟩ ∧ (∀ q ∈ s.span.reports, q.ord = m.from_ → q.tick ≠ m.tick) ∧ m.tick ∉ s.span.decided ∧ (∀ i ∈ reportersOf s m.tick, ∃ q ∈ s.span.reports ++ [r], q.ord = i ∧ q.tick = m.tick) ∧ m.from_ ∈ reportersOf s m.tick ∧ (∀ q ∈ s.span.reports ++ [r], q.tick = m.tick → q.outcome = 0 ∨ q.outcome = 3)) ∧
    (∃ (s : State) (m : CtrlMsg) (r : FrameReport), s.fieldsCanonical = true ∧ s.unitsCanonical = true ∧ inSpan s = true ∧ isMaster s = true ∧
      m.msg = 3 ∧ m.from_ ≠ getF s F.SPAN_ID_ORD ∧ r = ⟨m.from_, m.tick, bitsOf m.arg 7 0, bitsOf m.arg 15 8, decide (bitsOf m.arg 23 16 ≠ 0), bitsOf m.arg 31 24, m.stamp⟩ ∧ (∀ q ∈ s.span.reports, q.ord = m.from_ → q.tick ≠ m.tick) ∧ m.tick ∉ s.span.decided ∧ (∀ i ∈ reportersOf s m.tick, ∃ q ∈ s.span.reports ++ [r], q.ord = i ∧ q.tick = m.tick) ∧ m.from_ ∈ reportersOf s m.tick ∧ (∀ q ∈ s.span.reports ++ [r], q.tick = m.tick → q.ord ∈ reportersOf s m.tick ∧ (q.outcome = 1 ∨ q.outcome = 2)) ∧ (∀ p ∈ s.span.soloFrames, p.1 ≠ m.tick)) ∧
    (∃ (s : State) (m : CtrlMsg), s.fieldsCanonical = true ∧ s.unitsCanonical = true ∧ inSpan s = true ∧ m.msg = 4 ∧ m.from_ ≠ ownOrd s ∧
      m.tick = getF s F.TICK_NOW) ∧
    (∃ (s : State) (m : CtrlMsg), s.fieldsCanonical = true ∧ s.unitsCanonical = true ∧ inSpan s = true ∧ m.msg = 4 ∧ m.from_ ≠ ownOrd s ∧
      m.tick ≠ getF s F.TICK_NOW) ∧
    (∃ (s : State) (m : CtrlMsg), s.fieldsCanonical = true ∧ s.unitsCanonical = true ∧ inSpan s = true ∧ m.msg = 4 ∧ m.from_ = ownOrd s) ∧
    (∃ (s : State) (m : CtrlMsg), s.fieldsCanonical = true ∧ s.unitsCanonical = true ∧ inSpan s = true ∧ isMaster s = false ∧ m.msg = 5 ∧
      bitOf m.arg 24 = false ∧ bitsOf m.arg 7 0 = 1 ∧ s.span.decideWait = true ∧ s.frame.waiting = true ∧ s.adm.ejecting = false ∧
      m.tick + bitsOf m.arg 23 16 ≤ getF s F.TICK_NOW ∧ (casement s (liveCase s)).complete = true ∧ (pane s (livePane s)).complete = true ∧
      s.frame.replays < getF s F.CFG_REPLAY_CFG) ∧
    (∃ (s : State) (m : CtrlMsg), s.fieldsCanonical = true ∧ s.unitsCanonical = true ∧ inSpan s = true ∧ isMaster s = false ∧ m.msg = 5 ∧
      bitOf m.arg 24 = false ∧ bitsOf m.arg 7 0 = 1 ∧ s.span.decideWait = true ∧ s.frame.waiting = false ∧
      (casement s (liveCase s)).complete = true ∧ (pane s (livePane s)).complete = true ∧ s.frame.replays < getF s F.CFG_REPLAY_CFG) ∧
    (∃ (s : State) (m : CtrlMsg), s.fieldsCanonical = true ∧ s.unitsCanonical = true ∧ inSpan s = true ∧ isMaster s = false ∧ m.msg = 5 ∧
      bitOf m.arg 24 = false ∧ bitsOf m.arg 7 0 = 1 ∧ s.span.decideWait = true ∧ s.frame.waiting = false ∧
      (casement s (liveCase s)).complete = true ∧ (pane s (livePane s)).complete = true ∧ getF s F.CFG_REPLAY_CFG ≤ s.frame.replays) ∧
    (∃ (s : State) (m : CtrlMsg), s.fieldsCanonical = true ∧ s.unitsCanonical = true ∧ inSpan s = true ∧ isMaster s = false ∧ m.msg = 5 ∧
      bitOf m.arg 24 = false ∧ bitsOf m.arg 7 0 = 2 ∧ s.span.decideWait = true ∧ s.frame.waiting = false ∧
      (casement s (liveCase s)).complete = true ∧ (pane s (livePane s)).complete = true ∧ s.frame.replays < getF s F.CFG_REPLAY_CFG) ∧
    (∃ (s : State) (m : CtrlMsg) (n : Nat), s.fieldsCanonical = true ∧ s.unitsCanonical = true ∧ inSpan s = true ∧ isMaster s = false ∧ m.msg = 5 ∧
      bitOf m.arg 24 = false ∧ n = (if s.span.skipping then s.span.soloRun else s.span.lastReplays) ∧ bitsOf m.arg 7 0 = 2 ∧
      s.span.decideWait = false ∧ n < getF s F.CFG_REPLAY_CFG) :=
  ⟨⟨(st [] { master with span := {  } }), (msg 3 1 9 0), (⟨1, 9, 0, 0, false, 0, {}⟩ : FrameReport), by decide +kernel⟩,
    ⟨(st [] { master with span := { decided := [1, 2, 3, 4, 5, 6, 7, 8], reports := [⟨0, 9, 0, 0, false, 0, {}⟩, ⟨2, 9, 3, 0, false, 0, {}⟩, ⟨1, 10, 0, 0, false, 0, {}⟩] } }), (msg 3 1 9 0), (⟨1, 9, 0, 0, false, 0, {}⟩ : FrameReport), by decide +kernel⟩,
    ⟨(st [] { master with span := { reports := [⟨2, 9, 1, 4, false, 0, {}⟩, ⟨0, 9, 2, 0, false, 0, {}⟩] } }), (msg 3 1 9 (2 + 5 * 256 + 2^16 + 3 * 2^24)), (⟨1, 9, 2, 5, true, 3, {}⟩ : FrameReport), by decide +kernel⟩,
    ⟨master, (msg 4 1 9 0), by decide +kernel⟩,
    ⟨(st [] { member with span := { noticed := true } }), (msg 4 2 8 0), by decide +kernel⟩,
    ⟨member, (msg 4 1 9 0), by decide +kernel⟩,
    ⟨(st [(F.CFG_REPLAY_CFG,3)] { member with frame := { waiting := true, casements := [(0, { complete := true })], panes := [(0, { complete := true })] }, span := { decideWait := true, solo := true } }), (msg 5 0 9 1), by decide +kernel⟩,
    ⟨(st [(F.CFG_REPLAY_CFG,3)] { member with frame := { casements := [(0, { complete := true })], panes := [(0, { complete := true })] }, span := { decideWait := true, solo := true } }), (msg 5 0 9 1), by decide +kernel⟩,
    ⟨(st [] { member with frame := { casements := [(0, { complete := true })], panes := [(0, { complete := true })] }, span := { decideWait := true } }), (msg 5 0 9 1), by decide +kernel⟩,
    ⟨(st [(F.CFG_REPLAY_CFG,3)] { member with frame := { casements := [(0, { complete := true })], panes := [(0, { complete := true })] }, span := { decideWait := true } }), (msg 5 0 9 2), by decide +kernel⟩,
    ⟨(st [(F.CFG_REPLAY_CFG,3)] { member with span := { skipping := true, soloRun := 1 } }), (msg 5 0 9 (2 + 3 * 2^16)), 1, by decide +kernel⟩⟩

theorem test_hypotheses_members_are_lost :
    (∃ (s : State) (m : CtrlMsg), s.fieldsCanonical = true ∧ inSpan s = true ∧ getF s F.SPAN_ID_SIZE ≤ 1024 ∧ isMaster s = true ∧ m.msg = 6) ∧
    (∃ (s : State) (x n : Nat), s.fieldsCanonical = true ∧ inSpan s = true ∧ getF s F.SPAN_ID_SIZE ≤ 1024 ∧ isMaster s = true ∧ isLost s x = false ∧
      x < getF s F.SPAN_ID_SIZE ∧ (x, n) ∈ s.span.alignLost ∧ n + getF s F.SPAN_CFG_ALIGN_GRACE < getF s F.TICK_NOW) ∧
    (∃ (s : State) (x n : Nat), s.fieldsCanonical = true ∧ inSpan s = true ∧ getF s F.SPAN_ID_SIZE ≤ 1024 ∧ isMaster s = true ∧ isLost s x = false ∧
      x < getF s F.SPAN_ID_SIZE ∧ getF s F.TICK_NOW = n + 2 ∧ x ≠ getF s F.SPAN_ID_ORD ∧ reported s x (n + 1) = false ∧ reported s x n = false) ∧
    (∃ (s : State) (x : Nat) (m : CtrlMsg), s.fieldsCanonical = true ∧ inSpan s = true ∧ getF s F.SPAN_ID_SIZE ≤ 1024 ∧ isMaster s = true ∧
      isLost s x = false ∧ x < getF s F.SPAN_ID_SIZE ∧ m.msg = 7 ∧ bitsOf m.arg 23 8 = x ∧ bitsOf m.arg 31 24 ≠ 1) ∧
    (∃ (s : State) (x : Nat) (m : CtrlMsg), s.fieldsCanonical = true ∧ inSpan s = true ∧ getF s F.SPAN_ID_SIZE ≤ 1024 ∧ isMaster s = true ∧
      isLost s x = false ∧ x < getF s F.SPAN_ID_SIZE ∧ m.msg = 7 ∧ max m.from_ (bitsOf m.arg 23 8) = x ∧ bitsOf m.arg 31 24 = 1 ∧
      1 ≤ getF s F.TICK_NOW ∧ reported s m.from_ (getF s F.TICK_NOW - 1) = true ∧ reported s (bitsOf m.arg 23 8) (getF s F.TICK_NOW - 1) = true) ∧
    (∃ (s : State) (x : Nat) (m : CtrlMsg), s.fieldsCanonical = true ∧ inSpan s = true ∧ getF s F.SPAN_ID_SIZE ≤ 1024 ∧ isMaster s = true ∧
      isLost s x = false ∧ x < getF s F.SPAN_ID_SIZE ∧ m.msg = 8 ∧ m.from_ = x) ∧
    (∃ (s : State) (m : CtrlMsg), s.fieldsCanonical = true ∧ inSpan s = true ∧ getF s F.SPAN_ID_SIZE ≤ 1024 ∧ isMaster s = false ∧ m.msg = 9 ∧
      bitsOf m.arg 15 0 < 1024) ∧
    (∃ (s : State), s.fieldsCanonical = true ∧ inSpan s = true ∧ getF s F.SPAN_ID_SIZE ≤ 1024 ∧ isMaster s = false ∧ getF s F.SPAN_ID_ORD < 1024 ∧
      isLost s (getF s F.SPAN_ID_ORD) = false ∧ portUp s (getF s F.SPAN_TREE_PARENT_PORT) = false ∧
      (isSet s F.SPAN_TREE_ALT_VALID = false ∨ portUp s (getF s F.SPAN_TREE_ALT_PORT) = false)) ∧
    (∃ (s : State) (n : Nat), s.fieldsCanonical = true ∧ inSpan s = true ∧ getF s F.SPAN_ID_SIZE ≤ 1024 ∧ isMaster s = false ∧
      getF s F.SPAN_ID_ORD < 1024 ∧ isLost s (getF s F.SPAN_ID_ORD) = false ∧ s.span.pathLostAt = some n ∧ n + 5000000 ≤ getF s F.TICK_DT) :=
  ⟨⟨(st [] { master with span := { alignLost := [(2, 5)] } }), (msg 6 2 9 65536), by decide +kernel⟩,
    ⟨(st [(F.SPAN_CFG_ALIGN_GRACE,3)] { master with span := { alignLost := [(2, 5)] } }), 2, 5, by decide +kernel⟩,
    ⟨master, 2, 7, by decide +kernel⟩,
    ⟨master, 2, (msg 7 1 9 (2 * 2^8)), by decide +kernel⟩,
    ⟨(st [] { master with span := { decided := [8] } }), 2, (msg 7 1 9 (2 * 2^8 + 2^24)), by decide +kernel⟩,
    ⟨master, 2, (msg 8 2 9 (2^48 - 1)), by decide +kernel⟩,
    ⟨({ member with adm := { reqs := [{ aseq := 4, ring := 0, d := { op := 1, model := 1 } }], plan := { models := [{ modelId := 1, span := true }] } } } : State), (msg 9 0 9 (2 + 3 * 2^16 + 10 * 2^24)), by decide +kernel⟩,
    ⟨member, by decide +kernel⟩,
    ⟨(st [] { member with span := { pathLostAt := some 400000 } }), 400000, by decide +kernel⟩⟩

theorem test_hypotheses_master_and_announcements :
    (∃ (s : State) (m : CtrlMsg), s.fieldsCanonical = true ∧ s.memoryCanonical = true ∧ inSpan s = true ∧ isMaster s = false ∧ m.msg = 0x0C ∧
      bitsOf m.arg 15 0 < 1024) ∧
    (∃ (s : State) (old : Nat), s.fieldsCanonical = true ∧ s.memoryCanonical = true ∧ inSpan s = true ∧ s.frame.waiting = false ∧ isDeputy s = true ∧
      isMaster s = false ∧ masterGone s = true ∧ getF s F.SPAN_ROLES_MASTER = old ∧ old < getF s F.SPAN_ID_SIZE ∧ getF s F.SPAN_ID_SIZE ≤ 1024 ∧
      isLost s old = false ∧ getF s F.SPAN_ID_ORD < 1024) ∧
    (∃ (s : State), s.fieldsCanonical = true ∧ s.memoryCanonical = true ∧ inSpan s = true ∧ masterGone s = false) ∧
    (∃ (s : State) (m : CtrlMsg), s.fieldsCanonical = true ∧ s.memoryCanonical = true ∧ inSpan s = true ∧ isMaster s = false ∧ m.msg = 0x0A ∧
      bitsOf m.arg 7 0 = 1) ∧
    (∃ (s : State) (m : CtrlMsg), s.fieldsCanonical = true ∧ s.memoryCanonical = true ∧ inSpan s = true ∧ isMaster s = false ∧ m.msg = 0x0A ∧
      bitsOf m.arg 7 0 = 2) ∧
    (∃ (s : State) (x : Nat), s.fieldsCanonical = true ∧ s.memoryCanonical = true ∧ inSpan s = true ∧
      (∀ a ∈ s.span.announced, a.subject = x → getF s F.TICK_NOW < a.tick)) ∧
    (∃ (s : State) (a : Announced), s.fieldsCanonical = true ∧ s.memoryCanonical = true ∧ inSpan s = true ∧
      s.span.announced.find? (fun b => b.subject == a.subject && decide (b.tick ≤ getF s F.TICK_NOW)) = some a ∧ a.subject = 1 ∧
      isSet s F.TICK_STAT_RUNNING = true ∧ getF s F.TICK_PERIOD_NEXT_US ≠ getF s F.TICK_PERIOD_PERIOD_US ∧ getF s F.TICK_PERIOD_NEXT_US < 2 ^ 14 ∧
      getF s F.TICK_PERIOD_AT = getF s F.TICK_NOW ∧ getF s F.TICK_CIF_CIF ≤ 64 ∧ s.frame.sched = 0 ∧ isSet s F.CFG_MODE_STAT_PEND = false ∧
      s.frame.hasLive = false) ∧
    (∃ (s : State) (a : Announced), s.fieldsCanonical = true ∧ s.memoryCanonical = true ∧ inSpan s = true ∧
      s.span.announced.find? (fun b => b.subject == a.subject && decide (b.tick ≤ getF s F.TICK_NOW)) = some a ∧ a.subject = 3 ∧
      s.mem.switches = [] ∧ getF s F.CFG_MODE ≠ 2) :=
  ⟨⟨(st [] { member with span := { pathLostAt := some 3 } }), (msg 0x0C 2 9 1023), by decide +kernel⟩,
    ⟨(st [] { member with span := { pathLostAt := some 0 } }), 0, by decide +kernel⟩,
    ⟨(st [] { member with span := { masterSeenAt := 2^60 } }), by decide +kernel⟩,
    ⟨member, (msg 0x0A 0 9 (1 + 12 * 2^8 + 900 * 2^56)), by decide +kernel⟩,
    ⟨member, (msg 0x0A 0 9 (2 + 12 * 2^8 + 900 * 2^56)), by decide +kernel⟩,
    ⟨(st [] { member with span := { announced := [⟨1, 10, 5⟩] } }), 1, by decide +kernel⟩,
    ⟨(st [(F.TICK_CIF_CIF,64),(F.TICK_PERIOD_NEXT_US,900),(F.TICK_PERIOD_AT,9)] { member with span := { announced := [⟨1, 9, 900⟩] } }), (⟨1, 9, 900⟩ : Announced), by decide +kernel⟩,
    ⟨(st [(F.CFG_MODE,1)] { member with span := { announced := [⟨3, 9, 1 + 2 * 2^32⟩] }, mem := put 0 { modelId := 1, epoch := 2 } (put 7 { modelId := 1, epoch := 1, active := true } {}) }), (⟨3, 9, 1 + 2 * 2^32⟩ : Announced), by decide +kernel⟩⟩

theorem test_hypotheses_span_loads_run :
    (∃ (s : State) (a : Announced) (r : EpochRec) (model epoch : Nat) (m : _), s.fieldsCanonical = true ∧ s.memoryCanonical = true ∧
      s.unitsCanonical = true ∧ inSpan s = true ∧ s.span.announced.find? (fun b => b.subject == a.subject && decide (b.tick ≤ getF s F.TICK_NOW)) = some a ∧ model = bitsOf a.operand 31 0 ∧ epoch = bitsOf a.operand 47 32 ∧ recFind s.mem model epoch = some r ∧ a.subject = 4 ∧ r.span = true ∧ s.span.load = none ∧ (entryOf s.mem model epoch).near = false ∧ placeEpoch s model epoch (keptShard s r) s.mem = some m) ∧
    (∃ (s : State) (a : Announced) (r : EpochRec) (model epoch : Nat) (l : SpanLoadSt), s.fieldsCanonical = true ∧ s.memoryCanonical = true ∧
      s.unitsCanonical = true ∧ inSpan s = true ∧ s.span.announced.find? (fun b => b.subject == a.subject && decide (b.tick ≤ getF s F.TICK_NOW)) = some a ∧ model = bitsOf a.operand 31 0 ∧ epoch = bitsOf a.operand 47 32 ∧ recFind s.mem model epoch = some r ∧ a.subject = 5 ∧ s.span.load = some l ∧ l.model = model ∧ l.epoch = epoch ∧ bitOf a.operand 48 = true) ∧
    (∃ (s : State) (a : Announced) (r : EpochRec) (model epoch : Nat) (l : SpanLoadSt), s.fieldsCanonical = true ∧ s.memoryCanonical = true ∧
      s.unitsCanonical = true ∧ inSpan s = true ∧ s.span.announced.find? (fun b => b.subject == a.subject && decide (b.tick ≤ getF s F.TICK_NOW)) = some a ∧ model = bitsOf a.operand 31 0 ∧ epoch = bitsOf a.operand 47 32 ∧ recFind s.mem model epoch = some r ∧ a.subject = 5 ∧ s.span.load = some l ∧ l.model = model ∧ l.epoch = epoch ∧ bitOf a.operand 48 = false) ∧
    (∃ (s : State) (l : SpanLoadSt) (r : EpochRec) (m : CtrlMsg), s.fieldsCanonical = true ∧ s.memoryCanonical = true ∧ s.unitsCanonical = true ∧
      inSpan s = true ∧ s.span.load = some l ∧ recFind s.mem l.model l.epoch = some r ∧ m.msg = 0x0B ∧ bitsOf m.arg 23 16 = 2 ∧
      m.from_ ≠ getF s F.SPAN_ID_ORD ∧ m.from_ ∉ l.held ∧ (isMaster s = false ∨ (∃ i ∈ loadTargets s r, i ≠ m.from_ ∧ i ∉ l.held))) ∧
    (∃ (s : State) (l : SpanLoadSt) (r : EpochRec) (k piece port chan : Nat) (h : ShardRec) (c lba : Nat), s.fieldsCanonical = true ∧
      s.memoryCanonical = true ∧ s.unitsCanonical = true ∧ inSpan s = true ∧ s.span.load = some l ∧ recFind s.mem l.model l.epoch = some r ∧
      inLoadFrame s = true ∧ l.ending = false ∧ port < 16 ∧ loadChannel s chan = true ∧ channelLeft s l chan = true ∧
      nextPiece s r l = some (k, piece) ∧ h = r.shards.getD k {} ∧ lostBlock s h = some (c, lba)) ∧
    (∃ (s : State) (l : SpanLoadSt) (r : EpochRec) (k piece port chan : Nat) (h : ShardRec), s.fieldsCanonical = true ∧ s.memoryCanonical = true ∧
      s.unitsCanonical = true ∧ inSpan s = true ∧ s.span.load = some l ∧ recFind s.mem l.model l.epoch = some r ∧ inLoadFrame s = true ∧
      l.ending = false ∧ port < 16 ∧ loadChannel s chan = true ∧ channelLeft s l chan = true ∧ nextPiece s r l = some (k, piece) ∧
      h = r.shards.getD k {} ∧ lostBlock s h = none ∧ keptShard s r h = false) ∧
    (∃ (s : State) (l : SpanLoadSt) (r : EpochRec) (chan : Nat), s.fieldsCanonical = true ∧ s.memoryCanonical = true ∧ s.unitsCanonical = true ∧
      inSpan s = true ∧ s.span.load = some l ∧ recFind s.mem l.model l.epoch = some r ∧
      (inLoadFrame s = false ∨ l.ending = true ∨ channelLeft s l chan = false)) ∧
    (∃ (s : State) (l : SpanLoadSt) (r : EpochRec) (chan k piece : Nat) (bytes : List Byte) (i : RecvInst) (h : ShardRec), s.fieldsCanonical = true ∧
      s.memoryCanonical = true ∧ s.unitsCanonical = true ∧ inSpan s = true ∧ s.span.load = some l ∧ recFind s.mem l.model l.epoch = some r ∧
      s.span.recvs.find? (fun j => j.ref == 65536 + chan) = some i ∧ i.last = true ∧ k < 65536 ∧ piece < 65536 ∧ bytes.length < 2 ^ 32 ∧
      i.bytes = pieceHeader k piece bytes.length h.clen ++ bytes ∧ r.shards[k]? = some h ∧ keptShard s r h = true ∧ h.written = false ∧
      h.placed = true ∧ (∀ p ∈ l.pieces, p.1 ≠ k) ∧ bytes.length < h.clen) ∧
    (∃ (s : State) (l : SpanLoadSt) (r : EpochRec) (chan k piece : Nat) (bytes : List Byte) (i : RecvInst) (h : ShardRec) (out : _), s.fieldsCanonical = true ∧ s.memoryCanonical = true ∧ s.unitsCanonical = true ∧ inSpan s = true ∧ s.span.load = some l ∧ recFind s.mem l.model l.epoch = some r ∧ s.span.recvs.find? (fun j => j.ref == 65536 + chan) = some i ∧ i.last = true ∧ k < 65536 ∧ piece < 65536 ∧ bytes.length < 2 ^ 32 ∧ i.bytes = pieceHeader k piece bytes.length h.clen ++ bytes ∧ r.shards[k]? = some h ∧ keptShard s r h = true ∧ h.written = false ∧ h.placed = true ∧ (∀ p ∈ l.pieces, p.1 ≠ k) ∧ bytes.length = h.clen ∧ piece = 0 ∧ decompress h.ulen (bytes.map BitVec.toNat) = some out ∧ crc32 out = h.crc) :=
  ⟨⟨(st [(F.DEV_CAP0_NEAR_PRESENT,0xFF)] { member with span := { announced := [(⟨4, 9, 1 + 2 * 2^32 + 0 * 2^48⟩ : Announced)] }, adm := {  }, mem := put 0 { modelId := 1, epoch := 2 } { recs := [({ model := 1, epoch := 2, span := true, shards := [{ home := 0, tfirst := 0, tlast := 2, ulen := 4, clen := 20, crc := 3057449933, nearStack := 3, placed := false }], objects := [] } : EpochRec)] } }), (⟨4, 9, 1 + 2 * 2^32 + 0 * 2^48⟩ : Announced), ({ model := 1, epoch := 2, span := true, shards := [{ home := 0, tfirst := 0, tlast := 2, ulen := 4, clen := 20, crc := 3057449933, nearStack := 3, placed := false }], objects := [] } : EpochRec), 1, 2, ((placeEpoch (st [(F.DEV_CAP0_NEAR_PRESENT,0xFF)] { member with span := { announced := [(⟨4, 9, 1 + 2 * 2^32 + 0 * 2^48⟩ : Announced)] }, adm := {  }, mem := put 0 { modelId := 1, epoch := 2 } { recs := [({ model := 1, epoch := 2, span := true, shards := [{ home := 0, tfirst := 0, tlast := 2, ulen := 4, clen := 20, crc := 3057449933, nearStack := 3, placed := false }], objects := [] } : EpochRec)] } }) 1 2 (keptShard (st [(F.DEV_CAP0_NEAR_PRESENT,0xFF)] { member with span := { announced := [(⟨4, 9, 1 + 2 * 2^32 + 0 * 2^48⟩ : Announced)] }, adm := {  }, mem := put 0 { modelId := 1, epoch := 2 } { recs := [({ model := 1, epoch := 2, span := true, shards := [{ home := 0, tfirst := 0, tlast := 2, ulen := 4, clen := 20, crc := 3057449933, nearStack := 3, placed := false }], objects := [] } : EpochRec)] } }) ({ model := 1, epoch := 2, span := true, shards := [{ home := 0, tfirst := 0, tlast := 2, ulen := 4, clen := 20, crc := 3057449933, nearStack := 3, placed := false }], objects := [] } : EpochRec)) ((st [(F.DEV_CAP0_NEAR_PRESENT,0xFF)] { member with span := { announced := [(⟨4, 9, 1 + 2 * 2^32 + 0 * 2^48⟩ : Announced)] }, adm := {  }, mem := put 0 { modelId := 1, epoch := 2 } { recs := [({ model := 1, epoch := 2, span := true, shards := [{ home := 0, tfirst := 0, tlast := 2, ulen := 4, clen := 20, crc := 3057449933, nearStack := 3, placed := false }], objects := [] } : EpochRec)] } })).mem).get (by decide +kernel)), by refine ⟨?_, ?_, ?_, ?_, ?_, ?_, ?_, ?_, ?_, ?_, ?_, ?_, ?a12⟩; (case a12 => simp); all_goals decide +kernel⟩,
    ⟨(st [] { member with span := { announced := [(⟨5, 9, 1 + 2 * 2^32 + 1 * 2^48⟩ : Announced)], load := some ({ model := 1, epoch := 2 } : SpanLoadSt), loadFrames := true }, adm := {  }, mem := put 0 { modelId := 1, epoch := 2 } { recs := [({ model := 1, epoch := 2, span := true, shards := [{ home := 0, tfirst := 0, tlast := 2, ulen := 4, clen := 20, crc := 3057449933, nearStack := 3, nearUnits := [5], placed := true }], objects := [] } : EpochRec)] } }), (⟨5, 9, 1 + 2 * 2^32 + 1 * 2^48⟩ : Announced), ({ model := 1, epoch := 2, span := true, shards := [{ home := 0, tfirst := 0, tlast := 2, ulen := 4, clen := 20, crc := 3057449933, nearStack := 3, nearUnits := [5], placed := true }], objects := [] } : EpochRec), 1, 2, ({ model := 1, epoch := 2 } : SpanLoadSt), by decide +kernel⟩,
    ⟨(st [] { member with span := { announced := [(⟨5, 9, 1 + 2 * 2^32 + 0 * 2^48⟩ : Announced)], load := some ({ model := 1, epoch := 2 } : SpanLoadSt), loadFrames := true }, adm := {  }, mem := put 0 { modelId := 1, epoch := 2 } { recs := [({ model := 1, epoch := 2, span := true, shards := [{ home := 0, tfirst := 0, tlast := 2, ulen := 4, clen := 20, crc := 3057449933, nearStack := 3, nearUnits := [5], placed := true }], objects := [] } : EpochRec)] } }), (⟨5, 9, 1 + 2 * 2^32 + 0 * 2^48⟩ : Announced), ({ model := 1, epoch := 2, span := true, shards := [{ home := 0, tfirst := 0, tlast := 2, ulen := 4, clen := 20, crc := 3057449933, nearStack := 3, nearUnits := [5], placed := true }], objects := [] } : EpochRec), 1, 2, ({ model := 1, epoch := 2 } : SpanLoadSt), by decide +kernel⟩,
    ⟨(st [] { member with span := { load := some ({ model := 1, epoch := 2 } : SpanLoadSt) }, adm := {  }, mem := put 0 { modelId := 1, epoch := 2 } { recs := [({ model := 1, epoch := 2, span := true, shards := [{ home := 0, tfirst := 0, tlast := 2, ulen := 4, clen := 20, crc := 3057449933, nearStack := 3, nearUnits := [5], placed := true }], objects := [] } : EpochRec)] } }), ({ model := 1, epoch := 2 } : SpanLoadSt), ({ model := 1, epoch := 2, span := true, shards := [{ home := 0, tfirst := 0, tlast := 2, ulen := 4, clen := 20, crc := 3057449933, nearStack := 3, nearUnits := [5], placed := true }], objects := [] } : EpochRec), (msg 0x0B 2 9 (2 * 2^16)), by decide +kernel⟩,
    ⟨(st [] { member with span := { load := some ({ model := 1, epoch := 2 } : SpanLoadSt), loadFrames := true }, adm := { frameIdx := some 0, plan := { cycle := 1, frames := [{ kind := 1 }] } }, mem := put 0 { modelId := 1, epoch := 2 } { recs := [({ model := 1, epoch := 2, span := true, shards := [{ home := 1, tfirst := 2, tlast := 2, ulen := 4, clen := 20, crc := 3057449933, runs := [⟨3, 77, 1⟩] }], objects := [] } : EpochRec)] } }), ({ model := 1, epoch := 2 } : SpanLoadSt), ({ model := 1, epoch := 2, span := true, shards := [{ home := 1, tfirst := 2, tlast := 2, ulen := 4, clen := 20, crc := 3057449933, runs := [⟨3, 77, 1⟩] }], objects := [] } : EpochRec), 0, 0, 15, 65535, ({ home := 1, tfirst := 2, tlast := 2, ulen := 4, clen := 20, crc := 3057449933, runs := [⟨3, 77, 1⟩] } : ShardRec), 3, 77, by decide +kernel⟩,
    ⟨(st [] { member with span := { load := some ({ model := 1, epoch := 2 } : SpanLoadSt), loadFrames := true }, adm := { frameIdx := some 0, plan := { cycle := 1, frames := [{ kind := 1 }] } }, mem := put 0 { modelId := 1, epoch := 2 } { recs := [({ model := 1, epoch := 2, span := true, shards := [{ home := 1, tfirst := 2, tlast := 2, ulen := 4, clen := 20, crc := 3057449933 }], objects := [] } : EpochRec)] } }), ({ model := 1, epoch := 2 } : SpanLoadSt), ({ model := 1, epoch := 2, span := true, shards := [{ home := 1, tfirst := 2, tlast := 2, ulen := 4, clen := 20, crc := 3057449933 }], objects := [] } : EpochRec), 0, 0, 15, 65535, ({ home := 1, tfirst := 2, tlast := 2, ulen := 4, clen := 20, crc := 3057449933 } : ShardRec), by decide +kernel⟩,
    ⟨(st [] { member with span := { load := some ({ model := 1, epoch := 2 } : SpanLoadSt), loadFrames := false }, adm := { frameIdx := some 0, plan := { cycle := 1, frames := [{ kind := 1 }] } }, mem := put 0 { modelId := 1, epoch := 2 } { recs := [({ model := 1, epoch := 2, span := true, shards := [{ home := 1, tfirst := 2, tlast := 2, ulen := 4, clen := 20, crc := 3057449933 }], objects := [] } : EpochRec)] } }), ({ model := 1, epoch := 2 } : SpanLoadSt), ({ model := 1, epoch := 2, span := true, shards := [{ home := 1, tfirst := 2, tlast := 2, ulen := 4, clen := 20, crc := 3057449933 }], objects := [] } : EpochRec), 65535, by decide +kernel⟩,
    ⟨(st [] { member with span := { recvs := [{ ref := 65536 + 7, last := true, bytes := pieceHeader 0 1 10 20 ++ stored.take 10 }], load := some ({ model := 1, epoch := 2 } : SpanLoadSt) }, adm := {  }, mem := put 0 { modelId := 1, epoch := 2 } { recs := [({ model := 1, epoch := 2, span := true, shards := [{ home := 0, tfirst := 0, tlast := 2, ulen := 4, clen := 20, crc := 3057449933, nearStack := 3, nearUnits := [5], placed := true }], objects := [] } : EpochRec)] } }), ({ model := 1, epoch := 2 } : SpanLoadSt), ({ model := 1, epoch := 2, span := true, shards := [{ home := 0, tfirst := 0, tlast := 2, ulen := 4, clen := 20, crc := 3057449933, nearStack := 3, nearUnits := [5], placed := true }], objects := [] } : EpochRec), 7, 0, 1, (stored.take 10), ({ ref := 65536 + 7, last := true, bytes := pieceHeader 0 1 10 20 ++ stored.take 10 } : RecvInst), ({ home := 0, tfirst := 0, tlast := 2, ulen := 4, clen := 20, crc := 3057449933, nearStack := 3, nearUnits := [5], placed := true } : ShardRec), by decide +kernel⟩,
    ⟨(st [] { member with span := { recvs := [{ ref := 65536 + 7, last := true, bytes := pieceHeader 0 0 20 20 ++ stored }], load := some ({ model := 1, epoch := 2 } : SpanLoadSt) }, adm := {  }, mem := put 0 { modelId := 1, epoch := 2 } { recs := [({ model := 1, epoch := 2, span := true, shards := [{ home := 0, tfirst := 0, tlast := 2, ulen := 4, clen := 20, crc := 3057449933, nearStack := 3, nearUnits := [5], placed := true }], objects := [] } : EpochRec)] } }), ({ model := 1, epoch := 2 } : SpanLoadSt), ({ model := 1, epoch := 2, span := true, shards := [{ home := 0, tfirst := 0, tlast := 2, ulen := 4, clen := 20, crc := 3057449933, nearStack := 3, nearUnits := [5], placed := true }], objects := [] } : EpochRec), 7, 0, 0, stored, ({ ref := 65536 + 7, last := true, bytes := pieceHeader 0 0 20 20 ++ stored } : RecvInst), ({ home := 0, tfirst := 0, tlast := 2, ulen := 4, clen := 20, crc := 3057449933, nearStack := 3, nearUnits := [5], placed := true } : ShardRec), [1, 2, 3, 4], by decide +kernel⟩⟩

theorem test_hypotheses_descriptors_are_decided :
    (∃ (s : State) (x : DescRead) (r : Nat) (d : Descriptor), s.fieldsCanonical = true ∧ s.memoryCanonical = true ∧ s.tablesCanonical = true ∧
      nextRing s = some r ∧ d = descriptorOf x.bytes ∧ x.failed = true ∧ isSet s F.ADM_STAT_RING_ERR = false) ∧
    (∃ (s : State) (x : DescRead) (r : Nat) (d : Descriptor) (c : Cause), s.fieldsCanonical = true ∧ s.memoryCanonical = true ∧
      s.tablesCanonical = true ∧ nextRing s = some r ∧ d = descriptorOf x.bytes ∧ x.failed = false ∧ x.refused = false ∧
      earlyRefusal s r d = some c ∧ d.client < 4096) ∧
    (∃ (s : State) (x : DescRead) (r : Nat) (d : Descriptor) (y : DescRead), s.fieldsCanonical = true ∧ s.memoryCanonical = true ∧
      s.tablesCanonical = true ∧ nextRing s = some r ∧ d = descriptorOf x.bytes ∧ x.failed = false ∧ x.refused = false ∧ d.op = 2 ∧
      earlyRefusal s r d = none ∧ y = { x with refused := true } ∧ isSet s F.ADM_STAT_RING_ERR = false) ∧
    (∃ (s : State) (x : DescRead) (r : Nat) (d : Descriptor) (y : DescRead) (c : Cause), s.fieldsCanonical = true ∧ s.memoryCanonical = true ∧
      s.tablesCanonical = true ∧ nextRing s = some r ∧ d = descriptorOf x.bytes ∧ x.failed = false ∧ x.refused = false ∧
      earlyRefusal s r d = some c ∧ y = { x with refused := true }) ∧
    (∃ (s : State) (x : DescRead) (r : Nat) (d : Descriptor) (i : _) (e : DirEntry) (idx n promise : Nat) (y : DescRead), s.fieldsCanonical = true ∧
      s.memoryCanonical = true ∧ s.tablesCanonical = true ∧ nextRing s = some r ∧ d = descriptorOf x.bytes ∧ x.failed = false ∧ x.refused = false ∧
      d.op = 1 ∧ earlyRefusal s r d = none ∧ (findStream s d).isSome = true ∧ modelRegionNeed s s.mem d.model = none ∧
      dirActive s.mem d.model = some i ∧ e = dirGet s.mem i ∧ e.pin < 16777215 ∧ e.unusable = false ∧ (entryOf s.mem d.model e.epoch).near = true ∧
      s.span.lossAt = none ∧ (narrowed s = false ∨ d.firm = true) ∧ chooseFrame s d e.epoch none s.adm.plan.horizon (narrowed s) = some (idx, n) ∧
      promise = n + 1 + s.adm.plan.slackF ∧ promise ≤ getF s F.TICK_NOW + (if d.firm then s.adm.plan.firmF else s.adm.plan.stdF) ∧
      y = { x with refused := true } ∧ s.mem.switches = [] ∧ dirFind s.mem d.model e.epoch = some i) :=
  ⟨⟨(st [(F.RING_CTL_ENABLE 5,1),(F.RING_CTL_SIZE 5,4),(F.SUB_DB 5,1),(F.RING_CTL_CLIENT 5,7)] { adm := { plan := onePlan, clients := [(7, { valid := true, std := true })] } }), (⟨[], true, false⟩ : DescRead), 5, (descriptorOf []), by decide +kernel⟩,
    ⟨(st [(F.RING_CTL_ENABLE 5,1),(F.RING_CTL_SIZE 5,4),(F.SUB_DB 5,1),(F.RING_CTL_CLIENT 5,7),(F.ADM_SHUT_RECOVERY,0),(F.ADM_SHUT_JOURNAL,0)] { adm := { plan := onePlan, clients := [(7, { valid := true, std := true })] } }), (⟨desc 3, false, false⟩ : DescRead), 5, (descriptorOf (desc 3)), (Cause.security), by decide +kernel⟩,
    ⟨(st [(F.RING_CTL_ENABLE 5,1),(F.RING_CTL_SIZE 5,4),(F.SUB_DB 5,1),(F.RING_CTL_CLIENT 5,7),(F.ADM_SHUT_RECOVERY,0),(F.ADM_SHUT_JOURNAL,0)] { adm := { plan := onePlan, clients := [(7, { valid := true, std := true })], streams := [{ client := 7, stream := 3, model := 9 }] } }), (⟨desc 2, false, false⟩ : DescRead), 5, (descriptorOf (desc 2)), ({ (⟨desc 2, false, false⟩ : DescRead) with refused := true }), by decide +kernel⟩,
    ⟨(st [(F.RING_CTL_ENABLE 5,1),(F.RING_CTL_SIZE 5,4),(F.SUB_DB 5,1),(F.RING_CTL_CLIENT 5,7),(F.ADM_SHUT_RECOVERY,0),(F.ADM_SHUT_JOURNAL,0)] { adm := { plan := onePlan, clients := [(7, { valid := true, std := true })] } }), (⟨desc 3, false, false⟩ : DescRead), 5, (descriptorOf (desc 3)), ({ (⟨desc 3, false, false⟩ : DescRead) with refused := true }), (Cause.security), by decide +kernel⟩,
    ⟨(st [(F.RING_CTL_ENABLE 5,1),(F.RING_CTL_SIZE 5,4),(F.SUB_DB 5,1),(F.RING_CTL_CLIENT 5,7),(F.ADM_SHUT_RECOVERY,0),(F.ADM_SHUT_JOURNAL,0)] { adm := { plan := onePlan, clients := [(7, { valid := true, std := true })], streams := [{ client := 7, stream := 3, model := 9 }] }, mem := put 0 { modelId := 9, epoch := 2, active := true, near := true } { recs := [{ model := 9, epoch := 2 }], regions := [{ owner := .model 9, size := 0, stack := 0, units := [] }] } }), (⟨desc 1, false, false⟩ : DescRead), 5, (descriptorOf (desc 1)), (8 * dirSet 9), ({ modelId := 9, epoch := 2, valid := true, active := true, near := true } : DirEntry), 1, 2, 3, ({ (⟨desc 1, false, false⟩ : DescRead) with refused := true }), by decide +kernel⟩⟩

theorem test_hypotheses_rings_follow_their_registers :
    (∃ (s : State) (r tail : Nat), s.fieldsCanonical = true ∧ s.tablesCanonical = true ∧ r < 64 ∧ tail < 2 ^ 16 ∧ ringLive s r = true ∧
      tail < ringSize s r ∧ unread s r (getF s (F.SUB_DB r)) ≤ unread s r tail) ∧
    (∃ (s : State) (r tail : Nat), s.fieldsCanonical = true ∧ s.tablesCanonical = true ∧ r < 64 ∧ tail < 2 ^ 16 ∧ ringLive s r = true ∧
      (ringSize s r ≤ tail ∨ unread s r tail < unread s r (getF s (F.SUB_DB r))) ∧ isSet s F.ADM_STAT_RING_ERR = false) ∧
    (∃ (s : State) (r : Nat) (v : _), s.fieldsCanonical = true ∧ s.tablesCanonical = true ∧ r < 64 ∧ bitOf v 0 = true ∧
      isSet s (F.RING_CTL_ENABLE r) = false ∧ (ringSt s r).waitRcpt = [] ∧ (ringSt s r).waitCmpl = []) ∧
    (∃ (s : State) (r : Nat) (v : _), s.fieldsCanonical = true ∧ s.tablesCanonical = true ∧ r < 64 ∧ bitOf v 0 = true ∧
      isSet s (F.RING_CTL_ENABLE r) = true) ∧
    (∃ (s : State) (r : Nat) (v : _), s.fieldsCanonical = true ∧ s.tablesCanonical = true ∧ r < 64 ∧ bitOf v 0 = false) ∧
    (∃ (s : State) (r head : Nat), s.fieldsCanonical = true ∧ s.tablesCanonical = true ∧ r < 64 ∧ head < 2 ^ 16 ∧ (ringSt s r).waitRcpt = []) ∧
    (∃ (s : State) (r head : Nat) (e : _), s.fieldsCanonical = true ∧ s.tablesCanonical = true ∧ r < 64 ∧ head < 2 ^ 16 ∧
      (ringSt s r).waitRcpt = [e] ∧ ringLive s r = true ∧ (getF s (F.RCPT_TAIL r) + 1) % ringSize s r ≠ head) ∧
    (∃ (s : State) (r head : Nat), s.fieldsCanonical = true ∧ s.tablesCanonical = true ∧ r < 64 ∧ head < 2 ^ 16 ∧ (ringSt s r).waitCmpl = []) ∧
    (∃ (s : State) (r head : Nat) (e : _), s.fieldsCanonical = true ∧ s.tablesCanonical = true ∧ r < 64 ∧ head < 2 ^ 16 ∧
      (ringSt s r).waitCmpl = [e] ∧ ringLive s r = true ∧ (getF s (F.CMPL_TAIL r) + 1) % ringSize s r ≠ head) :=
  ⟨⟨(st [(F.RING_CTL_ENABLE 63,1),(F.RING_CTL_SIZE 63,16)] { adm := {  } }), 63, 65535, by decide +kernel⟩,
    ⟨(st [(F.RING_CTL_ENABLE 63,1),(F.RING_CTL_SIZE 63,4)] { adm := {  } }), 63, 16, by decide +kernel⟩,
    ⟨(st [(F.RING_CTL_SIZE 63,5),(F.SUB_HEAD 63,3)]), 63, (1 + 16 * 2^3 + 4095 * 2^8 + 255 * 2^20 + 2^28), by decide +kernel⟩,
    ⟨(st [(F.RING_CTL_ENABLE 63,1),(F.RING_CTL_SIZE 63,4)] { adm := {  } }), 63, (1 + 9 * 2^3 + 4095 * 2^8 + 255 * 2^20), by decide +kernel⟩,
    ⟨(st [(F.RING_CTL_ENABLE 63,1),(F.RING_CTL_SIZE 63,4),(F.RING_CTL_HALT 63,1)] { adm := {  } }), 63, (2 + 4095 * 2^8), by decide +kernel⟩,
    ⟨(st [(F.RING_CTL_ENABLE 63,1),(F.RING_CTL_SIZE 63,4)] { adm := {  } }), 63, 65535, by decide +kernel⟩,
    ⟨(st [(F.RING_CTL_ENABLE 63,1),(F.RING_CTL_SIZE 63,4),(F.RCPT_TAIL 63,15)] { adm := { rings := [(63, { waitRcpt := [(List.replicate 64 7#8)] })] } }), 63, 3, (List.replicate 64 7#8), by decide +kernel⟩,
    ⟨(st [(F.RING_CTL_ENABLE 63,1),(F.RING_CTL_SIZE 63,4)] { adm := {  } }), 63, 65535, by decide +kernel⟩,
    ⟨(st [(F.RING_CTL_ENABLE 63,1),(F.RING_CTL_SIZE 63,4),(F.CMPL_TAIL 63,15)] { adm := { rings := [(63, { waitCmpl := [(List.replicate 64 7#8)], cmplPhase := false })] } }), 63, 3, (List.replicate 64 7#8), by decide +kernel⟩⟩

theorem test_hypotheses_journals_and_completions :
    (∃ (s : State) (hi v : Nat), s.fieldsCanonical = true ∧ s.memoryCanonical = true ∧ s.tablesCanonical = true ∧
      v = hi % 2 ^ 32 * 2 ^ 32 + getF s F.ADM_AJ_RETIRE % 2 ^ 32 ∧ (journalOpen s = true ∨ (s.adm.recovered = true ∧ s.adm.ajRetire ≤ v ∧
      v ≤ getF s F.ADM_AJ_NEXT))) ∧
    (∃ (s : State) (hi v : Nat), s.fieldsCanonical = true ∧ s.memoryCanonical = true ∧ s.tablesCanonical = true ∧
      v = hi % 2 ^ 32 * 2 ^ 32 + getF s F.ADM_AJ_RETIRE % 2 ^ 32 ∧ journalOpen s = false ∧
      (s.adm.recovered = false ∨ v < s.adm.ajRetire ∨ getF s F.ADM_AJ_NEXT < v)) ∧
    (∃ (s : State) (hi v : _), s.fieldsCanonical = true ∧ s.memoryCanonical = true ∧ s.tablesCanonical = true ∧
      v = hi % 2 ^ 32 * 2 ^ 32 + getF s F.ADM_CJ_RETIRE % 2 ^ 32 ∧ journalOpen s = true) ∧
    (∃ (s : State), s.fieldsCanonical = true ∧ s.memoryCanonical = true ∧ s.tablesCanonical = true ∧ journalsNamed s = true ∧
      s.adm.recoverAsked = false ∧ isSet s F.BOOT_STAT_READY = true) ∧
    (∃ (s : State), s.fieldsCanonical = true ∧ s.memoryCanonical = true ∧ s.tablesCanonical = true ∧
      (journalsNamed s = false ∨ s.adm.recoverAsked = true)) ∧
    (∃ (s : State), s.fieldsCanonical = true ∧ s.memoryCanonical = true ∧ s.tablesCanonical = true ∧ s.stw.closed ≠ 3) ∧
    (∃ (s : State) (accs comps : List (List Byte)) (a c todo : _), s.fieldsCanonical = true ∧ s.memoryCanonical = true ∧ s.tablesCanonical = true ∧
      s.stw.closed = 3 ∧ s.adm.recoverAsked = true ∧ s.adm.recovered = false ∧ isSet s F.BOOT_STAT_READY = true ∧
      a = scanSlots 256 128 s.adm.ajRetire (accs.take (2 ^ getF s F.ADM_AJ_SIZE)) ∧
      c = scanSlots 64 16 s.adm.cjRetire (comps.take (2 ^ getF s F.ADM_CJ_SIZE)) ∧
      todo = a.filter (fun b => !(c.map (fun k => leRead (listReader k) 8 8)).contains (leRead (listReader b) 128 8))) ∧
    (∃ (s : State) (q : Req) (n status : Nat) (cause : Cause) (y : Nat) (st : Stamp), s.fieldsCanonical = true ∧ s.memoryCanonical = true ∧
      s.tablesCanonical = true ∧ s.adm.reqs.find? (fun p => p.aseq == q.aseq) = some q ∧ completable s q = true ∧ s.mem.switches = [] ∧
      n = getF s F.ADM_CJ_NEXT ∧ ((q.d.op ≠ 2 ∧ q.failed = none ∧ q.committed = some st ∧ q.causes = [] ∧ q.rerun = false ∧
      q.commitFrame + 1 ≤ q.promised ∧ status = 0 ∧ cause = .ok ∧ y = 0) ∨ (q.d.op ≠ 2 ∧ q.failed = none ∧ q.committed = some st ∧ q.causes = [] ∧
      q.rerun = false ∧ q.promised < q.commitFrame + 1 ∧ q.moved = none ∧ status = 1 ∧ cause = .schedule ∧ y = yieldOf q.d + 16 * 3) ∨ (q.d.op ≠ 2 ∧
      q.failed = some st ∧ (∃ c, q.causes = [c] ∧ c.failed = true ∧ cause = c.cause ∧ y = yieldOf q.d + 16 * c.cause.over c.trip) ∧
      status = 2) ∨ (q.d.op = 2 ∧ q.causes = [] ∧ st = stampNow s srcAdmission ∧ status = 0 ∧ cause = .ok ∧ y = 0)) ∧ q.d.client < 4096) ∧
    (∃ (s : State) (q : Req) (n status : Nat) (cause : Cause) (y : Nat) (st : Stamp), s.fieldsCanonical = true ∧ s.memoryCanonical = true ∧
      s.tablesCanonical = true ∧ s.adm.reqs.find? (fun p => p.aseq == q.aseq) = some q ∧ completable s q = true ∧ s.mem.switches = [] ∧
      n = getF s F.ADM_CJ_NEXT ∧ ((q.d.op ≠ 2 ∧ q.failed = none ∧ q.committed = some st ∧ q.causes = [] ∧ q.rerun = false ∧
      q.commitFrame + 1 ≤ q.promised ∧ status = 0 ∧ cause = .ok ∧ y = 0) ∨ (q.d.op ≠ 2 ∧ q.failed = none ∧ q.committed = some st ∧ q.causes = [] ∧
      q.rerun = false ∧ q.promised < q.commitFrame + 1 ∧ q.moved = none ∧ status = 1 ∧ cause = .schedule ∧ y = yieldOf q.d + 16 * 3) ∨ (q.d.op ≠ 2 ∧
      q.failed = some st ∧ (∃ c, q.causes = [c] ∧ c.failed = true ∧ cause = c.cause ∧ y = yieldOf q.d + 16 * c.cause.over c.trip) ∧
      status = 2) ∨ (q.d.op = 2 ∧ q.causes = [] ∧ st = stampNow s srcAdmission ∧ status = 0 ∧ cause = .ok ∧ y = 0)) ∧ q.d.op ≠ 2 ∧ q.pinned = true) ∧
    (∃ (s : State) (q : Req) (n status : Nat) (cause : Cause) (y : Nat) (st : Stamp), s.fieldsCanonical = true ∧ s.memoryCanonical = true ∧
      s.tablesCanonical = true ∧ s.adm.reqs.find? (fun p => p.aseq == q.aseq) = some q ∧ completable s q = true ∧ s.mem.switches = [] ∧
      n = getF s F.ADM_CJ_NEXT ∧ ((q.d.op ≠ 2 ∧ q.failed = none ∧ q.committed = some st ∧ q.causes = [] ∧ q.rerun = false ∧
      q.commitFrame + 1 ≤ q.promised ∧ status = 0 ∧ cause = .ok ∧ y = 0) ∨ (q.d.op ≠ 2 ∧ q.failed = none ∧ q.committed = some st ∧ q.causes = [] ∧
      q.rerun = false ∧ q.promised < q.commitFrame + 1 ∧ q.moved = none ∧ status = 1 ∧ cause = .schedule ∧ y = yieldOf q.d + 16 * 3) ∨ (q.d.op ≠ 2 ∧
      q.failed = some st ∧ (∃ c, q.causes = [c] ∧ c.failed = true ∧ cause = c.cause ∧ y = yieldOf q.d + 16 * c.cause.over c.trip) ∧
      status = 2) ∨ (q.d.op = 2 ∧ q.causes = [] ∧ st = stampNow s srcAdmission ∧ status = 0 ∧ cause = .ok ∧ y = 0)) ∧ q.d.op = 2) :=
  ⟨⟨(st [(F.ADM_AJ_RETIRE,5),(F.ADM_AJ_NEXT,9),(F.ADM_SHUT_RECOVERY,0),(F.ADM_SHUT_JOURNAL,0)] { adm := { recovered := true, ajRetire := 3 } }), 0, 5, by decide +kernel⟩,
    ⟨(st [(F.ADM_AJ_RETIRE,5),(F.ADM_SHUT_RECOVERY,0),(F.ADM_SHUT_JOURNAL,0)]), 0, 5, by decide +kernel⟩,
    ⟨(st [(F.ADM_CJ_RETIRE,5),(F.ADM_SHUT_JOURNAL,1)]), (2^32 + 7), (7 * 2^32 + 5), by decide +kernel⟩,
    ⟨(st [(F.BOOT_STAT_READY,1),(F.ADM_AJ_SIZE,10),(F.ADM_CJ_SIZE,20)] { adm := { ajBaseLo := true, ajBaseHi := true, cjBaseLo := true, cjBaseHi := true } }), by decide +kernel⟩,
    ⟨({} : State), by decide +kernel⟩,
    ⟨(st [(F.BOOT_STAT_READY,1)] { adm := { recoverAsked := true } }), by decide +kernel⟩,
    ⟨(st [(F.BOOT_STAT_READY,1)] { stw := { closed := 3 }, adm := { recoverAsked := true, ajRetire := 3 } }), [List.replicate 256 0#8], ([] : List (List Byte)), ([] : List (List Byte)), ([] : List (List Byte)), ([] : List (List Byte)), by decide +kernel⟩,
    ⟨(st [] { adm := { reqs := [{ aseq := 4, ring := 5, d := { op := 1, client := 7, model := 9, stream := 3 }, promised := 8, committed := some { tick := 5, cif := 6 }, commitFrame := 7, visible := true }] } }), ({ aseq := 4, ring := 5, d := { op := 1, client := 7, model := 9, stream := 3 }, promised := 8, committed := some { tick := 5, cif := 6 }, commitFrame := 7, visible := true } : Req), 0, 0, (Cause.ok), 0, ({ tick := 5, cif := 6 } : Stamp), by refine ⟨?_, ?_, ?_, ?_, ?_, ?_, ?_, ?a7, ?_⟩; (case a7 => exact .inl (by decide +kernel)); all_goals decide +kernel⟩,
    ⟨(st [] { adm := { reqs := [{ aseq := 4, ring := 5, d := { op := 1, client := 7, model := 9, stream := 3 }, promised := 8, committed := some { tick := 5, cif := 6 }, commitFrame := 7, visible := true, pinned := true }] } }), ({ aseq := 4, ring := 5, d := { op := 1, client := 7, model := 9, stream := 3 }, promised := 8, committed := some { tick := 5, cif := 6 }, commitFrame := 7, visible := true, pinned := true } : Req), 0, 0, (Cause.ok), 0, ({ tick := 5, cif := 6 } : Stamp), by refine ⟨?_, ?_, ?_, ?_, ?_, ?_, ?_, ?a7, ?_, ?_⟩; (case a7 => exact .inl (by decide +kernel)); all_goals decide +kernel⟩,
    ⟨({ adm := { reqs := [{ aseq := 4, ring := 5, d := { op := 2, client := 7, model := 9, stream := 3 } }] } } : State), ({ aseq := 4, ring := 5, d := { op := 2, client := 7, model := 9, stream := 3 } } : Req), 0, 0, (Cause.ok), 0, (stampNow { adm := { reqs := [{ aseq := 4, ring := 5, d := { op := 2, client := 7, model := 9, stream := 3 } }] } } srcAdmission), by refine ⟨?_, ?_, ?_, ?_, ?_, ?_, ?_, ?a7, ?_⟩; (case a7 => exact .inr (.inr (.inr (by decide +kernel)))); all_goals decide +kernel⟩⟩

theorem test_hypotheses_fetches_complete :
    (∃ (s : State) (model epoch : Nat) (r : EpochRec) (j : FetchJob) (k : Nat) (h : ShardRec) (bytes : List Byte) (raw : _), s.fieldsCanonical = true ∧ s.memoryCanonical = true ∧ recFind s.mem model epoch = some r ∧ (dirFind s.mem model epoch).isSome = true ∧ runningJob s model epoch = some j ∧ r.shards[k]? = some h ∧ h.placed = true ∧ h.written = false ∧ raw = ((if j.fromStore then (bytes ++ List.replicate h.clen 0#8).take h.clen else bulkShard s h).map BitVec.toNat) ∧ (j.fromStore = true → lostBlock s h = none) ∧ crosses j.fromStore h = true) ∧
    (∃ (s : State) (model epoch : Nat) (r : EpochRec) (j : FetchJob) (k : Nat) (h : ShardRec) (bytes : List Byte) (raw out : _), s.fieldsCanonical = true ∧ s.memoryCanonical = true ∧ recFind s.mem model epoch = some r ∧ (dirFind s.mem model epoch).isSome = true ∧ runningJob s model epoch = some j ∧ r.shards[k]? = some h ∧ h.placed = true ∧ h.written = false ∧ raw = ((if j.fromStore then (bytes ++ List.replicate h.clen 0#8).take h.clen else bulkShard s h).map BitVec.toNat) ∧ (j.fromStore = true → lostBlock s h = none) ∧ j.fromStore = true ∧ decompress h.ulen raw = some out ∧ crc32 out = h.crc ∧ out.length ≤ unitBytes * h.nearUnits.length ∧ h.nearUnits.Nodup) ∧
    (∃ (s : State) (model epoch : Nat) (r : EpochRec) (j : FetchJob) (k : Nat) (h : ShardRec) (bytes : List Byte) (raw out : _), s.fieldsCanonical = true ∧ s.memoryCanonical = true ∧ recFind s.mem model epoch = some r ∧ (dirFind s.mem model epoch).isSome = true ∧ runningJob s model epoch = some j ∧ r.shards[k]? = some h ∧ h.placed = true ∧ h.written = false ∧ raw = ((if j.fromStore then (bytes ++ List.replicate h.clen 0#8).take h.clen else bulkShard s h).map BitVec.toNat) ∧ (j.fromStore = true → lostBlock s h = none) ∧ j.fromStore = false ∧ decompress h.ulen raw = some out ∧ crc32 out = h.crc ∧ out.length ≤ unitBytes * h.nearUnits.length ∧ h.nearUnits.Nodup) ∧
    (∃ (s : State) (model epoch : Nat) (r : EpochRec) (j : FetchJob) (k : Nat) (h : ShardRec) (bytes : List Byte) (raw out : _), s.fieldsCanonical = true ∧ s.memoryCanonical = true ∧ recFind s.mem model epoch = some r ∧ (dirFind s.mem model epoch).isSome = true ∧ runningJob s model epoch = some j ∧ r.shards[k]? = some h ∧ h.placed = true ∧ h.written = false ∧ raw = ((if j.fromStore then (bytes ++ List.replicate h.clen 0#8).take h.clen else bulkShard s h).map BitVec.toNat) ∧ (j.fromStore = true → lostBlock s h = none) ∧ j.fromStore = true ∧ decompress h.ulen raw = some out ∧ crc32 out ≠ h.crc) ∧
    (∃ (s : State) (model epoch : Nat) (r : EpochRec) (j : FetchJob) (k : Nat) (h : ShardRec) (bytes : List Byte) (raw : _), s.fieldsCanonical = true ∧ s.memoryCanonical = true ∧ recFind s.mem model epoch = some r ∧ (dirFind s.mem model epoch).isSome = true ∧ runningJob s model epoch = some j ∧ r.shards[k]? = some h ∧ h.placed = true ∧ h.written = false ∧ raw = ((if j.fromStore then (bytes ++ List.replicate h.clen 0#8).take h.clen else bulkShard s h).map BitVec.toNat) ∧ (j.fromStore = true → lostBlock s h = none) ∧ j.fromStore = false ∧ decompress h.ulen raw = none ∧ (entryOf s.mem model epoch).store = true) ∧
    (∃ (s : State) (model epoch : Nat) (r : EpochRec) (j : FetchJob) (k : Nat) (h : ShardRec) (bytes : List Byte) (raw out : _), s.fieldsCanonical = true ∧ s.memoryCanonical = true ∧ recFind s.mem model epoch = some r ∧ (dirFind s.mem model epoch).isSome = true ∧ runningJob s model epoch = some j ∧ r.shards[k]? = some h ∧ h.placed = true ∧ h.written = false ∧ raw = ((if j.fromStore then (bytes ++ List.replicate h.clen 0#8).take h.clen else bulkShard s h).map BitVec.toNat) ∧ (j.fromStore = true → lostBlock s h = none) ∧ j.fromStore = false ∧ decompress h.ulen raw = some out ∧ crc32 out ≠ h.crc ∧ (entryOf s.mem model epoch).store = true) ∧
    (∃ (s : State) (model epoch : Nat) (r : EpochRec) (k : Nat) (h : ShardRec), s.fieldsCanonical = true ∧ s.memoryCanonical = true ∧
      recFind s.mem model epoch = some r ∧ (dirFind s.mem model epoch).isSome = true ∧ r.shards[k]? = some h ∧ r.q5 = true ∧ h.written = true ∧
      h.digestOk = false ∧ nearDigest s h = h.digest) ∧
    (∃ (s : State) (model epoch : Nat) (r : EpochRec) (k : Nat) (h : ShardRec), s.fieldsCanonical = true ∧ s.memoryCanonical = true ∧
      recFind s.mem model epoch = some r ∧ (dirFind s.mem model epoch).isSome = true ∧ r.shards[k]? = some h ∧ r.q5 = true ∧ h.written = true ∧
      h.digestOk = false ∧ nearDigest s h ≠ h.digest ∧ s.span.load.filter (fun l => l.model == model && l.epoch == epoch) = none ∧
      h.fromBulk = true) ∧
    (∃ (s : State) (model epoch : Nat) (r : EpochRec) (k : Nat) (h : ShardRec), s.fieldsCanonical = true ∧ s.memoryCanonical = true ∧
      recFind s.mem model epoch = some r ∧ (dirFind s.mem model epoch).isSome = true ∧ r.shards[k]? = some h ∧ r.q5 = true ∧ h.written = true ∧
      h.digestOk = false ∧ nearDigest s h ≠ h.digest ∧ s.span.load.filter (fun l => l.model == model && l.epoch == epoch) = none ∧
      h.fromBulk = false) ∧
    (∃ (s : State) (model epoch : Nat) (r : EpochRec) (j : FetchJob), s.fieldsCanonical = true ∧ s.memoryCanonical = true ∧
      recFind s.mem model epoch = some r ∧ (dirFind s.mem model epoch).isSome = true ∧ runningJob s model epoch = some j ∧ epochChecked s r = true) ∧
    (∃ (s : State) (model epoch : Nat) (r : EpochRec), s.fieldsCanonical = true ∧ s.memoryCanonical = true ∧ recFind s.mem model epoch = some r ∧
      (dirFind s.mem model epoch).isSome = true ∧ (∃ j ∈ s.mem.jobs, j.model = model ∧ j.epoch = epoch ∧ j.bound ≤ getF s F.TICK_DT) ∧
      (∃ j ∈ s.mem.jobs, j.model = model ∧ j.epoch = epoch ∧ j.missed = false)) ∧
    (∃ (s : State) (model epoch : Nat) (r : EpochRec), s.fieldsCanonical = true ∧ s.memoryCanonical = true ∧ recFind s.mem model epoch = some r ∧
      (dirFind s.mem model epoch).isSome = true ∧ ((∀ j ∈ s.mem.jobs, j.model = model → j.epoch = epoch → getF s F.TICK_DT < j.bound) ∨ (∀ j ∈ s.mem.jobs, j.model = model → j.epoch = epoch → j.missed = true))) :=
  ⟨⟨(st [] { mem := put 3 { modelId := 1, epoch := 2 } { recs := [({ model := 1, epoch := 2, shards := [{ ulen := 4, clen := 20, nearStack := 7, nearUnits := [9], placed := true, crc := 7 }] } : EpochRec)], jobs := [({ model := 1, epoch := 2, fromStore := true, bound := 9, durationUs := 3 } : FetchJob)] } }), 1, 2, ({ model := 1, epoch := 2, shards := [{ ulen := 4, clen := 20, nearStack := 7, nearUnits := [9], placed := true, crc := 7 }] } : EpochRec), ({ model := 1, epoch := 2, fromStore := true, bound := 9, durationUs := 3 } : FetchJob), 0, ({ ulen := 4, clen := 20, nearStack := 7, nearUnits := [9], placed := true, crc := 7 } : ShardRec), stored, ((stored ++ List.replicate 20 0#8).take 20 |>.map BitVec.toNat), by decide +kernel⟩,
    ⟨(st [] { mem := put 3 { modelId := 1, epoch := 2 } { recs := [({ model := 1, epoch := 2, shards := [{ ulen := 4, clen := 20, nearStack := 7, nearUnits := [9], placed := true, crc := 3057449933, side := 1 }] } : EpochRec)], jobs := [({ model := 1, epoch := 2, fromStore := true, bound := 9, durationUs := 3 } : FetchJob)] } }), 1, 2, ({ model := 1, epoch := 2, shards := [{ ulen := 4, clen := 20, nearStack := 7, nearUnits := [9], placed := true, crc := 3057449933, side := 1 }] } : EpochRec), ({ model := 1, epoch := 2, fromStore := true, bound := 9, durationUs := 3 } : FetchJob), 0, ({ ulen := 4, clen := 20, nearStack := 7, nearUnits := [9], placed := true, crc := 3057449933, side := 1 } : ShardRec), stored, ((stored ++ List.replicate 20 0#8).take 20 |>.map BitVec.toNat), [1, 2, 3, 4], by decide +kernel⟩,
    ⟨(st [] { mem := put 3 { modelId := 1, epoch := 2, bulk := true } { recs := [({ model := 1, epoch := 2, shards := [{ ulen := 4, clen := 20, nearStack := 7, nearUnits := [9], placed := true, crc := 3057449933, bulkSide := 0, bulkUnits := [0] }] } : EpochRec)], jobs := [({ model := 1, epoch := 2, fromStore := false, bound := 9, durationUs := 3 } : FetchJob)], bulk := ((List.range 20).zip stored).filter (fun c => c.2 != 0#8) } }), 1, 2, ({ model := 1, epoch := 2, shards := [{ ulen := 4, clen := 20, nearStack := 7, nearUnits := [9], placed := true, crc := 3057449933, bulkSide := 0, bulkUnits := [0] }] } : EpochRec), ({ model := 1, epoch := 2, fromStore := false, bound := 9, durationUs := 3 } : FetchJob), 0, ({ ulen := 4, clen := 20, nearStack := 7, nearUnits := [9], placed := true, crc := 3057449933, bulkSide := 0, bulkUnits := [0] } : ShardRec), ([] : List Byte), ((bulkShard (st [] { mem := put 3 { modelId := 1, epoch := 2, bulk := true } { recs := [({ model := 1, epoch := 2, shards := [{ ulen := 4, clen := 20, nearStack := 7, nearUnits := [9], placed := true, crc := 3057449933, bulkSide := 0, bulkUnits := [0] }] } : EpochRec)], jobs := [({ model := 1, epoch := 2, fromStore := false, bound := 9, durationUs := 3 } : FetchJob)], bulk := ((List.range 20).zip stored).filter (fun c => c.2 != 0#8) } }) ({ ulen := 4, clen := 20, nearStack := 7, nearUnits := [9], placed := true, crc := 3057449933, bulkSide := 0, bulkUnits := [0] } : ShardRec)).map BitVec.toNat), [1, 2, 3, 4], by decide +kernel⟩,
    ⟨(st [] { mem := put 3 { modelId := 1, epoch := 2 } { recs := [({ model := 1, epoch := 2, shards := [{ ulen := 4, clen := 20, nearStack := 7, nearUnits := [9], placed := true, crc := 7 }] } : EpochRec)], jobs := [({ model := 1, epoch := 2, fromStore := true, bound := 9, durationUs := 3 } : FetchJob)] } }), 1, 2, ({ model := 1, epoch := 2, shards := [{ ulen := 4, clen := 20, nearStack := 7, nearUnits := [9], placed := true, crc := 7 }] } : EpochRec), ({ model := 1, epoch := 2, fromStore := true, bound := 9, durationUs := 3 } : FetchJob), 0, ({ ulen := 4, clen := 20, nearStack := 7, nearUnits := [9], placed := true, crc := 7 } : ShardRec), stored, ((stored ++ List.replicate 20 0#8).take 20 |>.map BitVec.toNat), [1, 2, 3, 4], by decide +kernel⟩,
    ⟨(st [] { mem := put 3 { modelId := 1, epoch := 2, bulk := true, store := true } { recs := [({ model := 1, epoch := 2, shards := [{ ulen := 4, clen := 20, nearStack := 7, nearUnits := [9], placed := true, crc := 7, bulkSide := 0, bulkUnits := [0] }] } : EpochRec)], jobs := [({ model := 1, epoch := 2, fromStore := false, bound := 9, durationUs := 3 } : FetchJob)] } }), 1, 2, ({ model := 1, epoch := 2, shards := [{ ulen := 4, clen := 20, nearStack := 7, nearUnits := [9], placed := true, crc := 7, bulkSide := 0, bulkUnits := [0] }] } : EpochRec), ({ model := 1, epoch := 2, fromStore := false, bound := 9, durationUs := 3 } : FetchJob), 0, ({ ulen := 4, clen := 20, nearStack := 7, nearUnits := [9], placed := true, crc := 7, bulkSide := 0, bulkUnits := [0] } : ShardRec), ([] : List Byte), ((bulkShard (st [] { mem := put 3 { modelId := 1, epoch := 2, bulk := true, store := true } { recs := [({ model := 1, epoch := 2, shards := [{ ulen := 4, clen := 20, nearStack := 7, nearUnits := [9], placed := true, crc := 7, bulkSide := 0, bulkUnits := [0] }] } : EpochRec)], jobs := [({ model := 1, epoch := 2, fromStore := false, bound := 9, durationUs := 3 } : FetchJob)] } }) ({ ulen := 4, clen := 20, nearStack := 7, nearUnits := [9], placed := true, crc := 7, bulkSide := 0, bulkUnits := [0] } : ShardRec)).map BitVec.toNat), by decide +kernel⟩,
    ⟨(st [] { mem := put 3 { modelId := 1, epoch := 2, bulk := true, store := true } { recs := [({ model := 1, epoch := 2, shards := [{ ulen := 4, clen := 20, nearStack := 7, nearUnits := [9], placed := true, crc := 1 + 3057449933, bulkSide := 0, bulkUnits := [0] }] } : EpochRec)], jobs := [({ model := 1, epoch := 2, fromStore := false, bound := 9, durationUs := 3 } : FetchJob)], bulk := ((List.range 20).zip stored).filter (fun c => c.2 != 0#8) } }), 1, 2, ({ model := 1, epoch := 2, shards := [{ ulen := 4, clen := 20, nearStack := 7, nearUnits := [9], placed := true, crc := 1 + 3057449933, bulkSide := 0, bulkUnits := [0] }] } : EpochRec), ({ model := 1, epoch := 2, fromStore := false, bound := 9, durationUs := 3 } : FetchJob), 0, ({ ulen := 4, clen := 20, nearStack := 7, nearUnits := [9], placed := true, crc := 1 + 3057449933, bulkSide := 0, bulkUnits := [0] } : ShardRec), ([] : List Byte), ((bulkShard (st [] { mem := put 3 { modelId := 1, epoch := 2, bulk := true, store := true } { recs := [({ model := 1, epoch := 2, shards := [{ ulen := 4, clen := 20, nearStack := 7, nearUnits := [9], placed := true, crc := 1 + 3057449933, bulkSide := 0, bulkUnits := [0] }] } : EpochRec)], jobs := [({ model := 1, epoch := 2, fromStore := false, bound := 9, durationUs := 3 } : FetchJob)], bulk := ((List.range 20).zip stored).filter (fun c => c.2 != 0#8) } }) ({ ulen := 4, clen := 20, nearStack := 7, nearUnits := [9], placed := true, crc := 1 + 3057449933, bulkSide := 0, bulkUnits := [0] } : ShardRec)).map BitVec.toNat), [1, 2, 3, 4], by decide +kernel⟩,
    ⟨(st [] { mem := put 3 { modelId := 1, epoch := 2 } { recs := [({ model := 1, epoch := 2, q5 := true, shards := [{ ulen := 4, clen := 20, nearStack := 7, nearUnits := [9], placed := true, written := true, digest := 11339128095444414085482251038425033088734383264167326899499638753833330491359 }] } : EpochRec)], jobs := [] } }), 1, 2, ({ model := 1, epoch := 2, q5 := true, shards := [{ ulen := 4, clen := 20, nearStack := 7, nearUnits := [9], placed := true, written := true, digest := 11339128095444414085482251038425033088734383264167326899499638753833330491359 }] } : EpochRec), 0, ({ ulen := 4, clen := 20, nearStack := 7, nearUnits := [9], placed := true, written := true, digest := 11339128095444414085482251038425033088734383264167326899499638753833330491359 } : ShardRec), by decide +kernel⟩,
    ⟨(st [] { mem := put 3 { modelId := 1, epoch := 2, bulk := true, store := true } { recs := [({ model := 1, epoch := 2, q5 := true, shards := [{ ulen := 4, clen := 20, nearStack := 7, nearUnits := [9], placed := true, written := true, fromBulk := true }] } : EpochRec)], jobs := [] } }), 1, 2, ({ model := 1, epoch := 2, q5 := true, shards := [{ ulen := 4, clen := 20, nearStack := 7, nearUnits := [9], placed := true, written := true, fromBulk := true }] } : EpochRec), 0, ({ ulen := 4, clen := 20, nearStack := 7, nearUnits := [9], placed := true, written := true, fromBulk := true } : ShardRec), by decide +kernel⟩,
    ⟨(st [] { mem := put 3 { modelId := 1, epoch := 2 } { recs := [({ model := 1, epoch := 2, q5 := true, shards := [{ ulen := 4, clen := 20, nearStack := 7, nearUnits := [9], placed := true, written := true }] } : EpochRec)], jobs := [] } }), 1, 2, ({ model := 1, epoch := 2, q5 := true, shards := [{ ulen := 4, clen := 20, nearStack := 7, nearUnits := [9], placed := true, written := true }] } : EpochRec), 0, ({ ulen := 4, clen := 20, nearStack := 7, nearUnits := [9], placed := true, written := true } : ShardRec), by decide +kernel⟩,
    ⟨(st [] { mem := put 3 { modelId := 1, epoch := 2, fetch := true } { recs := [({ model := 1, epoch := 2, shards := [{ ulen := 4, clen := 20, nearStack := 7, nearUnits := [9], placed := true, written := true, inBulk := true }] } : EpochRec)], jobs := [({ model := 1, epoch := 2, fromStore := true, bound := 9, durationUs := 3 } : FetchJob)] } }), 1, 2, ({ model := 1, epoch := 2, shards := [{ ulen := 4, clen := 20, nearStack := 7, nearUnits := [9], placed := true, written := true, inBulk := true }] } : EpochRec), ({ model := 1, epoch := 2, fromStore := true, bound := 9, durationUs := 3 } : FetchJob), by decide +kernel⟩,
    ⟨(st [(F.TICK_DT,9)] { mem := put 3 { modelId := 1, epoch := 2 } { recs := [({ model := 1, epoch := 2, shards := [{ ulen := 4, clen := 20, nearStack := 7, nearUnits := [9], placed := true }] } : EpochRec)], jobs := [({ model := 1, epoch := 2, fromStore := true, bound := 9, durationUs := 3 } : FetchJob)] } }), 1, 2, ({ model := 1, epoch := 2, shards := [{ ulen := 4, clen := 20, nearStack := 7, nearUnits := [9], placed := true }] } : EpochRec), by decide +kernel⟩,
    ⟨(st [(F.TICK_DT,8)] { mem := put 3 { modelId := 1, epoch := 2 } { recs := [({ model := 1, epoch := 2, shards := [{ ulen := 4, clen := 20, nearStack := 7, nearUnits := [9], placed := true }] } : EpochRec)], jobs := [({ model := 1, epoch := 2, fromStore := true, bound := 9, durationUs := 3 } : FetchJob)] } }), 1, 2, ({ model := 1, epoch := 2, shards := [{ ulen := 4, clen := 20, nearStack := 7, nearUnits := [9], placed := true }] } : EpochRec), by decide +kernel⟩⟩

theorem test_hypotheses_store_reads_end :
    (∃ (s : State) (ctrl lba model epoch : Nat), s.fieldsCanonical = true ∧ s.memoryCanonical = true ∧ readsStore s model epoch = true ∧
      (ctrl, lba, false) ∉ s.mem.retries) ∧
    (∃ (s : State) (ctrl lba model epoch : Nat), s.fieldsCanonical = true ∧ s.memoryCanonical = true ∧ readsStore s model epoch = true ∧
      (ctrl, lba, true) ∉ s.mem.retries) ∧
    (∃ (s : State) (ctrl lba model epoch : Nat), s.fieldsCanonical = true ∧ s.memoryCanonical = true ∧ readsStore s model epoch = true ∧
      (runningJob s model epoch).isSome = true ∧ (dirFind s.mem model epoch).isSome = true ∧ (ctrl, lba, false) ∈ s.mem.retries ∧
      (∀ j ∈ s.mem.jobs, j.model = model ∧ j.epoch = epoch)) ∧
    (∃ (s : State) (ctrl lba model epoch : Nat), s.fieldsCanonical = true ∧ s.memoryCanonical = true ∧ readsStore s model epoch = true ∧
      (runningJob s model epoch).isSome = true ∧ (dirFind s.mem model epoch).isSome = true ∧ (ctrl, lba, true) ∈ s.mem.retries) ∧
    (∃ (s : State) (ctrl lba model epoch : Nat), s.fieldsCanonical = true ∧ s.memoryCanonical = true ∧ readsStore s model epoch = true ∧
      (runningJob s model epoch) = none ∧ (dirFind s.mem model epoch).isSome = true ∧ (ctrl, lba, false) ∈ s.mem.retries) ∧
    (∃ (s : State) (ctrl : Nat), s.fieldsCanonical = true ∧ s.memoryCanonical = true ∧ ctrl < 16 ∧
      (∀ r ∈ s.mem.recs, readsStore s r.model r.epoch = false)) :=
  ⟨⟨(st [] { mem := put 3 { modelId := 1, epoch := 2, store := true } { recs := [({ model := 1, epoch := 2, shards := [{ ulen := 4, clen := 20, nearStack := 7, nearUnits := [9], placed := true }] } : EpochRec)], jobs := [({ model := 1, epoch := 2, fromStore := true, bound := 9, durationUs := 3 } : FetchJob)], retries := [] } }), 15, 7, 1, 2, by decide +kernel⟩,
    ⟨(st [] { mem := put 3 { modelId := 1, epoch := 2, store := true } { recs := [({ model := 1, epoch := 2, shards := [{ ulen := 4, clen := 20, nearStack := 7, nearUnits := [9], placed := true }] } : EpochRec)], jobs := [({ model := 1, epoch := 2, fromStore := true, bound := 9, durationUs := 3 } : FetchJob)], retries := [(15, 7, false)] } }), 15, 7, 1, 2, by decide +kernel⟩,
    ⟨(st [] { mem := put 3 { modelId := 1, epoch := 2, store := true } { recs := [({ model := 1, epoch := 2, shards := [{ ulen := 4, clen := 20, nearStack := 7, nearUnits := [9], placed := true }] } : EpochRec)], jobs := [({ model := 1, epoch := 2, fromStore := true, bound := 9, durationUs := 3 } : FetchJob)], retries := [(15, 7, false)] } }), 15, 7, 1, 2, by decide +kernel⟩,
    ⟨(st [] { mem := put 3 { modelId := 1, epoch := 2, store := true } { recs := [({ model := 1, epoch := 2, shards := [{ ulen := 4, clen := 20, nearStack := 7, nearUnits := [9], placed := true }] } : EpochRec)], jobs := [({ model := 1, epoch := 2, fromStore := true, bound := 9, durationUs := 3 } : FetchJob)], retries := [(15, 7, true)] } }), 15, 7, 1, 2, by decide +kernel⟩,
    ⟨({ span := { load := some { model := 1, epoch := 2 } }, mem := put 3 { modelId := 1, epoch := 2, store := true } { recs := [{ model := 1, epoch := 2 }], retries := [(15, 7, false)] } } : State), 15, 7, 1, 2, by decide +kernel⟩,
    ⟨(st [(F.MEM_STORE_LINK_DRIVES,0x8000),(F.MEM_STAT_STORE_UP,1)]), 15, by decide +kernel⟩⟩

theorem test_hypotheses_tiers_lose_and_scrub :
    (∃ (s : State) (errs : List Nat) (d : Nat), s.fieldsCanonical = true ∧ s.memoryCanonical = true ∧ errs.length = 16 ∧ d < 16) ∧
    (∃ (s : State) (n : Nat) (addr : _), s.fieldsCanonical = true ∧ s.memoryCanonical = true ∧ addr / 0xC00000000 ≠ n) ∧
    (∃ (s : State) (n : Nat) (addr : _) (errs erased : List Nat), s.fieldsCanonical = true ∧ s.memoryCanonical = true ∧ n < 8 ∧
      addr / 0xC00000000 = n ∧ stackUp s n = true ∧ erased = (if bitF s F.MEM_NEAR_STAT_ERASED n then [getF s (F.MEM_NEAR_DIE n)] else []) ∧
      lineDecodes errs erased = true ∧ (∃ e ∈ errs, e ≠ 0)) ∧
    (∃ (s : State) (n : Nat) (addr : _) (errs : List Nat) (onDie : Nat) (erased : List Nat) (die : Nat), s.fieldsCanonical = true ∧
      s.memoryCanonical = true ∧ n < 8 ∧ addr / 0xC00000000 = n ∧ stackUp s n = true ∧
      erased = (if bitF s F.MEM_NEAR_STAT_ERASED n then [getF s (F.MEM_NEAR_DIE n)] else []) ∧ erased = [] ∧ lineDecodes errs [] = false ∧
      rescuing errs [] = [die] ∧ (∀ f ∈ memStatBits, isSet s f = false) ∧ onDie = 0) ∧
    (∃ (s : State) (n : Nat) (addr : _) (errs : List Nat) (onDie : Nat) (erased : List Nat) (c : Instr), s.fieldsCanonical = true ∧
      s.memoryCanonical = true ∧ n < 8 ∧ addr / 0xC00000000 = n ∧ stackUp s n = true ∧
      erased = (if bitF s F.MEM_NEAR_STAT_ERASED n then [getF s (F.MEM_NEAR_DIE n)] else []) ∧
      (c = .nearStackLoss n ∨ (c = .nearReadUncorrectable n addr errs onDie ∧ lineDecodes errs erased = false ∧
      (erased ≠ [] ∨ ∀ die, rescuing errs [] ≠ [die]))) ∧ frameUses s n = true ∧ s.frame.hasLive = true ∧ s.frame.state = .running) ∧
    (∃ (s : State) (side : Nat) (addr : _) (group rank : Nat) (errs erased : List Nat), s.fieldsCanonical = true ∧ s.memoryCanonical = true ∧
      side < 2 ∧ group < 2 ∧ rank < 2 ∧ bulkSideUp s side = true ∧ bitsOf addr 39 39 = side ∧ bitsOf addr 9 9 = group ∧
      erased = erasedInWord s side group rank ∧ lineDecodes errs erased = true ∧ (∃ e ∈ errs, e ≠ 0)) ∧
    (∃ (s : State) (side : Nat) (addr : _) (group rank : Nat) (erased : List Nat) (x : _) (y : Nat), s.fieldsCanonical = true ∧
      s.memoryCanonical = true ∧ side < 2 ∧ group < 2 ∧ rank < 2 ∧ bulkSideUp s side = true ∧ bitsOf addr 39 39 = side ∧ bitsOf addr 9 9 = group ∧
      erased = erasedInWord s side group rank ∧ (bitsOf x 39 39 ≠ side ∨ bitsOf x 9 9 ≠ y)) ∧
    (∃ (s : State) (side : Nat) (addr : _) (group rank : Nat) (errs erased : List Nat) (d p : Nat), s.fieldsCanonical = true ∧
      s.memoryCanonical = true ∧ side < 2 ∧ group < 2 ∧ rank < 2 ∧ bulkSideUp s side = true ∧ bitsOf addr 39 39 = side ∧ bitsOf addr 9 9 = group ∧
      erased = erasedInWord s side group rank ∧ lineDecodes errs erased = false ∧ rescuing errs erased = [d] ∧ p = wordPackage side d ∧
      bitF s F.MEM_BULK_STAT_ERASED p = false) ∧
    (∃ (s : State) (side : Nat) (addr : _) (group rank : Nat) (errs erased : List Nat) (c : Instr), s.fieldsCanonical = true ∧
      s.memoryCanonical = true ∧ side < 2 ∧ group < 2 ∧ rank < 2 ∧ bulkSideUp s side = true ∧ bitsOf addr 39 39 = side ∧ bitsOf addr 9 9 = group ∧
      erased = erasedInWord s side group rank ∧ (c = .bulkSideLoss side ∨ (c = .bulkReadUncorrectable side addr (group, rank) errs ∧
      lineDecodes errs erased = false ∧ ∀ d, rescuing errs erased = [d] → bitF s F.MEM_BULK_STAT_ERASED (wordPackage side d) = true))) ∧
    (∃ (s : State) (nearCe : Nat), s.fieldsCanonical = true ∧ s.memoryCanonical = true ∧ 0 < nearCe) ∧
    (∃ (s : State) (bulkCe : Nat), s.fieldsCanonical = true ∧ s.memoryCanonical = true ∧ 0 < bulkCe) ∧
    (∃ (s : State) (nearCe bulkCe : Nat), s.fieldsCanonical = true ∧ s.memoryCanonical = true ∧ nearCe = 0 ∧ bulkCe = 0) ∧
    (∃ (s : State) (stw n : Nat), s.fieldsCanonical = true ∧ s.memoryCanonical = true ∧ scrubTicket s stw n = false) ∧
    (∃ (s : State) (stw n model epoch k : Nat) (r : EpochRec) (h : ShardRec) (u : _), s.fieldsCanonical = true ∧ s.memoryCanonical = true ∧
      scrubTicket s stw n = true ∧ u = tileCommit stw n s ∧ recFind s.mem model epoch = some r ∧ r.shards[k]? = some h ∧ r.q5 = true ∧
      (entryOf s.mem model epoch).near = true ∧ h.written = true ∧ nearDigest s h = h.digest) ∧
    (∃ (s : State) (stw n model epoch k : Nat) (r : EpochRec) (h : ShardRec) (u : _) (bad : Bool), s.fieldsCanonical = true ∧
      s.memoryCanonical = true ∧ scrubTicket s stw n = true ∧ u = tileCommit stw n s ∧ recFind s.mem model epoch = some r ∧ r.shards[k]? = some h ∧
      r.q5 = true ∧ (entryOf s.mem model epoch).near = true ∧ h.written = true ∧ (bad = true ∨ nearDigest s h ≠ h.digest)) ∧
    (∃ (s : State) (n : Nat), s.fieldsCanonical = true ∧ s.memoryCanonical = true ∧ n < 16) :=
  ⟨⟨up, [7, 0, 0, 0, 0, 0, 0, 0, 0, 0, 0, 0, 0, 0, 0, 100], 15, by decide +kernel⟩,
    ⟨(st [(F.DEV_CAP0_NEAR_PRESENT,0xFF),(F.MEM_BULK_STAT_SIDE_UP,3)] { mem := put 3 { modelId := 1, epoch := 2, near := true, bulk := true } { near := [(0x5400000000, 9#8)], bulk := [(0x8000000000, 9#8)], recs := [{ model := 1, epoch := 2, shards := [{ ulen := 4, clen := 20, nearStack := 7, nearUnits := [9], placed := true, written := true, bulkSide := 1, bulkUnits := [0] }] }] } }), 7, (6 * 0xC00000000 + 0xC00000000 - 1), by decide +kernel⟩,
    ⟨(st [(F.DEV_CAP0_NEAR_PRESENT,0xFF),(F.MEM_BULK_STAT_SIDE_UP,3)] { mem := put 3 { modelId := 1, epoch := 2, near := true, bulk := true } { near := [(0x5400000000, 9#8)], bulk := [(0x8000000000, 9#8)], recs := [{ model := 1, epoch := 2, shards := [{ ulen := 4, clen := 20, nearStack := 7, nearUnits := [9], placed := true, written := true, bulkSide := 1, bulkUnits := [0] }] }] } }), 7, (7 * 0xC00000000 + 5), [0, 0, 0, 0, 0, 0, 0, 0, 0, 0, 0, 0, 0, 0, 0, 16], ([] : List Nat), by decide +kernel⟩,
    ⟨(st [(F.DEV_CAP0_NEAR_PRESENT,0xFF),(F.MEM_BULK_STAT_SIDE_UP,3)] { mem := put 3 { modelId := 1, epoch := 2, near := true, bulk := true } { near := [(0x5400000000, 9#8)], bulk := [(0x8000000000, 9#8)], recs := [{ model := 1, epoch := 2, shards := [{ ulen := 4, clen := 20, nearStack := 7, nearUnits := [9], placed := true, written := true, bulkSide := 1, bulkUnits := [0] }] }] } }), 7, (7 * 0xC00000000 + 0xC00000000 - 1), [0, 0, 0, 0, 0, 0, 0, 0, 0, 0, 0, 0, 0, 0, 0, 17], 0, ([] : List Nat), 15, by decide +kernel⟩,
    ⟨(st [(F.DEV_CAP0_NEAR_PRESENT,0xFF),(F.MEM_BULK_STAT_SIDE_UP,3)] { frame := { hasLive := true, state := .running, casements := [(0, { cfg := { modelId := 1, epoch := 2 } })] }, mem := put 3 { modelId := 1, epoch := 2, near := true, bulk := true } { near := [(0x5400000000, 9#8)], bulk := [(0x8000000000, 9#8)], recs := [{ model := 1, epoch := 2, shards := [{ ulen := 4, clen := 20, nearStack := 7, nearUnits := [9], placed := true, written := true, bulkSide := 1, bulkUnits := [0] }] }] } }), 7, (7 * 0xC00000000 + 5), ([] : List Nat), 0, ([] : List Nat), (Instr.nearStackLoss 7), by refine ⟨?_, ?_, ?_, ?_, ?_, ?_, ?a6, ?_, ?_, ?_⟩; (case a6 => exact .inl rfl); all_goals decide +kernel⟩,
    ⟨(st [(F.DEV_CAP0_NEAR_PRESENT,0xFF),(F.MEM_BULK_STAT_SIDE_UP,3)] { mem := put 3 { modelId := 1, epoch := 2, near := true, bulk := true } { near := [(0x5400000000, 9#8)], bulk := [(0x8000000000, 9#8)], recs := [{ model := 1, epoch := 2, shards := [{ ulen := 4, clen := 20, nearStack := 7, nearUnits := [9], placed := true, written := true, bulkSide := 1, bulkUnits := [0] }] }] } }), 1, (2^39 + 2^9 + 5), 1, 1, [0, 0, 0, 0, 0, 0, 0, 0, 0, 0, 0, 0, 0, 0, 0, 1], ([] : List Nat), by decide +kernel⟩,
    ⟨(st [(F.DEV_CAP0_NEAR_PRESENT,0xFF),(F.MEM_BULK_STAT_SIDE_UP,3)] { mem := put 3 { modelId := 1, epoch := 2, near := true, bulk := true } { near := [(0x5400000000, 9#8)], bulk := [(0x8000000000, 9#8)], recs := [{ model := 1, epoch := 2, shards := [{ ulen := 4, clen := 20, nearStack := 7, nearUnits := [9], placed := true, written := true, bulkSide := 1, bulkUnits := [0] }] }] } }), 1, (2^39 + 2^9 + 5), 1, 1, ([] : List Nat), (2^9 + 5), 1, by decide +kernel⟩,
    ⟨(st [(F.DEV_CAP0_NEAR_PRESENT,0xFF),(F.MEM_BULK_STAT_SIDE_UP,3)] { mem := put 3 { modelId := 1, epoch := 2, near := true, bulk := true } { near := [(0x5400000000, 9#8)], bulk := [(0x8000000000, 9#8)], recs := [{ model := 1, epoch := 2, shards := [{ ulen := 4, clen := 20, nearStack := 7, nearUnits := [9], placed := true, written := true, bulkSide := 1, bulkUnits := [0] }] }] } }), 1, (2^39 + 2^9 + 5), 1, 1, [0, 0, 0, 0, 0, 0, 0, 0, 0, 0, 0, 0, 0, 0, 0, 17], ([] : List Nat), 15, 15, by decide +kernel⟩,
    ⟨(st [(F.DEV_CAP0_NEAR_PRESENT,0xFF),(F.MEM_BULK_STAT_SIDE_UP,3)] { mem := put 3 { modelId := 1, epoch := 2, near := true, bulk := true } { near := [(0x5400000000, 9#8)], bulk := [(0x8000000000, 9#8)], recs := [{ model := 1, epoch := 2, shards := [{ ulen := 4, clen := 20, nearStack := 7, nearUnits := [9], placed := true, written := true, bulkSide := 1, bulkUnits := [0] }] }] } }), 1, (2^39 + 2^9 + 5), 1, 1, ([] : List Nat), ([] : List Nat), (Instr.bulkSideLoss 1), by refine ⟨?_, ?_, ?_, ?_, ?_, ?_, ?_, ?_, ?_, ?a9⟩; (case a9 => exact .inl rfl); all_goals decide +kernel⟩,
    ⟨(st [(F.MEM_NEAR_CE_CNT,2^32-2)]), 4, by decide +kernel⟩,
    ⟨(st [(F.MEM_NEAR_CE_CNT,2^32-2)]), 1, by decide +kernel⟩,
    ⟨up, 0, 0, by decide +kernel⟩,
    ⟨up, 3, 4, by decide +kernel⟩,
    ⟨(st [(F.STW_BATCH_OPEN,1),(F.STW_BATCH_KIND,2),(F.STW_BATCH_COUNT,5)] { stw := { holds := [(4, 3)], done := [2] }, mem := put 3 { modelId := 1, epoch := 2, near := true } { recs := [({ model := 1, epoch := 2, q5 := true, shards := [{ ulen := 4, clen := 20, nearStack := 7, nearUnits := [9], placed := true, written := true, digest := 11339128095444414085482251038425033088734383264167326899499638753833330491359 }] } : EpochRec)], jobs := [] } }), 3, 4, 1, 2, 0, ({ model := 1, epoch := 2, q5 := true, shards := [{ ulen := 4, clen := 20, nearStack := 7, nearUnits := [9], placed := true, written := true, digest := 11339128095444414085482251038425033088734383264167326899499638753833330491359 }] } : EpochRec), ({ ulen := 4, clen := 20, nearStack := 7, nearUnits := [9], placed := true, written := true, digest := 11339128095444414085482251038425033088734383264167326899499638753833330491359 } : ShardRec), (tileCommit 3 4 (st [(F.STW_BATCH_OPEN,1),(F.STW_BATCH_KIND,2),(F.STW_BATCH_COUNT,5)] { stw := { holds := [(4, 3)], done := [2] }, mem := put 3 { modelId := 1, epoch := 2, near := true } { recs := [({ model := 1, epoch := 2, q5 := true, shards := [{ ulen := 4, clen := 20, nearStack := 7, nearUnits := [9], placed := true, written := true, digest := 11339128095444414085482251038425033088734383264167326899499638753833330491359 }] } : EpochRec)], jobs := [] } })), by decide +kernel⟩,
    ⟨(st [(F.STW_BATCH_OPEN,1),(F.STW_BATCH_KIND,2),(F.STW_BATCH_COUNT,5)] { stw := { holds := [(4, 3)], done := [2] }, mem := put 3 { modelId := 1, epoch := 2, near := true } { recs := [({ model := 1, epoch := 2, q5 := true, shards := [{ ulen := 4, clen := 20, nearStack := 7, nearUnits := [9], placed := true, written := true, digest := 11339128095444414085482251038425033088734383264167326899499638753833330491359 }] } : EpochRec)], jobs := [] } }), 3, 4, 1, 2, 0, ({ model := 1, epoch := 2, q5 := true, shards := [{ ulen := 4, clen := 20, nearStack := 7, nearUnits := [9], placed := true, written := true, digest := 11339128095444414085482251038425033088734383264167326899499638753833330491359 }] } : EpochRec), ({ ulen := 4, clen := 20, nearStack := 7, nearUnits := [9], placed := true, written := true, digest := 11339128095444414085482251038425033088734383264167326899499638753833330491359 } : ShardRec), (tileCommit 3 4 (st [(F.STW_BATCH_OPEN,1),(F.STW_BATCH_KIND,2),(F.STW_BATCH_COUNT,5)] { stw := { holds := [(4, 3)], done := [2] }, mem := put 3 { modelId := 1, epoch := 2, near := true } { recs := [({ model := 1, epoch := 2, q5 := true, shards := [{ ulen := 4, clen := 20, nearStack := 7, nearUnits := [9], placed := true, written := true, digest := 11339128095444414085482251038425033088734383264167326899499638753833330491359 }] } : EpochRec)], jobs := [] } })), true, by decide +kernel⟩,
    ⟨(st [(F.DEV_CAP2,0xFFFF)]), 15, by decide +kernel⟩⟩

theorem test_hypotheses_weight_commands_run :
    (∃ (s : State) (model epoch v : Nat), s.fieldsCanonical = true ∧ s.memoryCanonical = true ∧ isSet s F.WGT_CMD_STAT_BUSY = true ∧
      getF s F.WGT_CMD_MODEL = model ∧ getF s F.WGT_CMD_EPOCH = epoch ∧ s.wgt.result = some v ∧ v < 32 ∧ s.wgt.op < 8) ∧
    (∃ (s : State) (model epoch : Nat), s.fieldsCanonical = true ∧ s.memoryCanonical = true ∧ isSet s F.WGT_CMD_STAT_BUSY = true ∧
      getF s F.WGT_CMD_MODEL = model ∧ getF s F.WGT_CMD_EPOCH = epoch ∧ s.wgt.result = none ∧ s.wgt.op = 6) ∧
    (∃ (s : State) (model epoch : Nat) (i : _) (e : DirEntry) (r : EpochRec), s.fieldsCanonical = true ∧ s.memoryCanonical = true ∧
      isSet s F.WGT_CMD_STAT_BUSY = true ∧ getF s F.WGT_CMD_MODEL = model ∧ getF s F.WGT_CMD_EPOCH = epoch ∧ s.wgt.result = none ∧
      getF s F.CFG_MODE ≠ 2 ∧ getF s F.CFG_MODE ≠ 4 ∧ dirFind s.mem model epoch = some i ∧ e = dirGet s.mem i ∧ recFind s.mem model epoch = some r ∧
      s.wgt.op = 4 ∧ r.span = false ∧ e.unusable = false ∧ r.stagePin = false ∧ e.near = true) ∧
    (∃ (s : State) (model epoch : Nat) (i : _) (e : DirEntry) (r : EpochRec) (m : _), s.fieldsCanonical = true ∧ s.memoryCanonical = true ∧
      isSet s F.WGT_CMD_STAT_BUSY = true ∧ getF s F.WGT_CMD_MODEL = model ∧ getF s F.WGT_CMD_EPOCH = epoch ∧ s.wgt.result = none ∧
      getF s F.CFG_MODE ≠ 2 ∧ getF s F.CFG_MODE ≠ 4 ∧ dirFind s.mem model epoch = some i ∧ e = dirGet s.mem i ∧ recFind s.mem model epoch = some r ∧
      s.wgt.op = 4 ∧ r.span = false ∧ e.unusable = false ∧ r.stagePin = false ∧ e.near = false ∧ e.fetch = false ∧
      placeEpoch s model epoch (fun _ => true) (dirUpd (recUpd s.mem model epoch (fun zz => { zz with stagePin := true })) i (fun yy => { yy with pin := yy.pin + 1 })) = some m) ∧
    (∃ (s : State) (model epoch : Nat) (i : _) (e : DirEntry) (r : EpochRec), s.fieldsCanonical = true ∧ s.memoryCanonical = true ∧
      isSet s F.WGT_CMD_STAT_BUSY = true ∧ getF s F.WGT_CMD_MODEL = model ∧ getF s F.WGT_CMD_EPOCH = epoch ∧ s.wgt.result = none ∧
      getF s F.CFG_MODE ≠ 2 ∧ getF s F.CFG_MODE ≠ 4 ∧ dirFind s.mem model epoch = some i ∧ e = dirGet s.mem i ∧ recFind s.mem model epoch = some r ∧
      s.wgt.op = 5 ∧ r.stagePin = true ∧ s.mem.switches = []) ∧
    (∃ (s : State) (model epoch : Nat) (i : _) (e : DirEntry) (r : EpochRec), s.fieldsCanonical = true ∧ s.memoryCanonical = true ∧
      isSet s F.WGT_CMD_STAT_BUSY = true ∧ getF s F.WGT_CMD_MODEL = model ∧ getF s F.WGT_CMD_EPOCH = epoch ∧ s.wgt.result = none ∧
      getF s F.CFG_MODE ≠ 2 ∧ getF s F.CFG_MODE ≠ 4 ∧ dirFind s.mem model epoch = some i ∧ e = dirGet s.mem i ∧ recFind s.mem model epoch = some r ∧
      s.wgt.op = 3 ∧ isMaster s = true ∧ e.active = false ∧ switchRefused s model e ((dirActive s.mem model).map (dirGet s.mem)) = none ∧
      inSpan s = true ∧ e.near = true) ∧
    (∃ (s : State) (model epoch : Nat) (i : _) (e : DirEntry) (r : EpochRec) (n f v o : Nat), s.fieldsCanonical = true ∧ s.memoryCanonical = true ∧
      isSet s F.WGT_CMD_STAT_BUSY = true ∧ getF s F.WGT_CMD_MODEL = model ∧ getF s F.WGT_CMD_EPOCH = epoch ∧ s.wgt.result = none ∧
      getF s F.CFG_MODE ≠ 2 ∧ getF s F.CFG_MODE ≠ 4 ∧ dirFind s.mem model epoch = some i ∧ e = dirGet s.mem i ∧ recFind s.mem model epoch = some r ∧
      s.wgt.op = 3 ∧ isMaster s = true ∧ e.active = false ∧ switchRefused s model e ((dirActive s.mem model).map (dirGet s.mem)) = none ∧
      inSpan s = false ∧ r.stagePin = false ∧ switchTerms s model epoch (dirActive s.mem model) = (n, f, v, o) ∧ n ≤ f + v) ∧
    (∃ (s : State) (model epoch : Nat) (i : _) (e : DirEntry) (r : EpochRec) (n f v o : Nat) (j : _), s.fieldsCanonical = true ∧
      s.memoryCanonical = true ∧ isSet s F.WGT_CMD_STAT_BUSY = true ∧ getF s F.WGT_CMD_MODEL = model ∧ getF s F.WGT_CMD_EPOCH = epoch ∧
      s.wgt.result = none ∧ getF s F.CFG_MODE ≠ 2 ∧ getF s F.CFG_MODE ≠ 4 ∧ dirFind s.mem model epoch = some i ∧ e = dirGet s.mem i ∧
      recFind s.mem model epoch = some r ∧ s.wgt.op = 3 ∧ isMaster s = true ∧ e.active = false ∧
      switchRefused s model e ((dirActive s.mem model).map (dirGet s.mem)) = none ∧ inSpan s = false ∧ r.stagePin = false ∧
      switchTerms s model epoch (dirActive s.mem model) = (n, f, v, o) ∧ f + v < n ∧ n ≤ f + v + o ∧ dirActive s.mem model = some j ∧
      isCandidate s s.mem j = false) :=
  ⟨⟨(st [(F.WGT_CMD_STAT_BUSY,1),(F.WGT_CMD_MODEL,1),(F.WGT_CMD_EPOCH,2),(F.CFG_MODE,1)] { wgt := { op := 3, result := some 31 }, mem := put 3 { modelId := 1, epoch := 2 } ({ recs := [({ model := 1, epoch := 2 } : EpochRec)] }) }), 1, 2, 31, by decide +kernel⟩,
    ⟨(st [(F.WGT_CMD_STAT_BUSY,1),(F.WGT_CMD_MODEL,1),(F.WGT_CMD_EPOCH,2),(F.CFG_MODE,1)] { wgt := { op := 6 }, mem := put 3 { modelId := 1, epoch := 2, pin := 9, near := true } ({ recs := [({ model := 1, epoch := 2 } : EpochRec)], switches := [⟨1, 1, 2, 99⟩] }) }), 1, 2, by decide +kernel⟩,
    ⟨(st [(F.WGT_CMD_STAT_BUSY,1),(F.WGT_CMD_MODEL,1),(F.WGT_CMD_EPOCH,2),(F.CFG_MODE,1)] { wgt := { op := 4 }, mem := put 3 { modelId := 1, epoch := 2, pin := 16777214, gen := 65535, near := true } ({ recs := [({ model := 1, epoch := 2 } : EpochRec)] }) }), 1, 2, (8 * dirSet 1 + 3), ({ modelId := 1, epoch := 2, valid := true, pin := 16777214, gen := 65535, near := true } : DirEntry), ({ model := 1, epoch := 2 } : EpochRec), by decide +kernel⟩,
    ⟨(st [(F.WGT_CMD_STAT_BUSY,1),(F.WGT_CMD_MODEL,1),(F.WGT_CMD_EPOCH,2),(F.CFG_MODE,1),(F.DEV_CAP0_NEAR_PRESENT,0xFF)] { wgt := { op := 4 }, mem := put 3 { modelId := 1, epoch := 2 } ({ recs := [({ model := 1, epoch := 2, shards := [{ ulen := 4 }] } : EpochRec)] }) }), 1, 2, (8 * dirSet 1 + 3), ({ modelId := 1, epoch := 2, valid := true } : DirEntry), ({ model := 1, epoch := 2, shards := [{ ulen := 4 }] } : EpochRec), ((placeEpoch (st [(F.WGT_CMD_STAT_BUSY,1),(F.WGT_CMD_MODEL,1),(F.WGT_CMD_EPOCH,2),(F.CFG_MODE,1),(F.DEV_CAP0_NEAR_PRESENT,0xFF)] { wgt := { op := 4 }, mem := put 3 { modelId := 1, epoch := 2 } ({ recs := [({ model := 1, epoch := 2, shards := [{ ulen := 4 }] } : EpochRec)] }) }) 1 2 (fun _ => true) (dirUpd (recUpd ((st [(F.WGT_CMD_STAT_BUSY,1),(F.WGT_CMD_MODEL,1),(F.WGT_CMD_EPOCH,2),(F.CFG_MODE,1),(F.DEV_CAP0_NEAR_PRESENT,0xFF)] { wgt := { op := 4 }, mem := put 3 { modelId := 1, epoch := 2 } ({ recs := [({ model := 1, epoch := 2, shards := [{ ulen := 4 }] } : EpochRec)] }) })).mem 1 2 (fun r => { r with stagePin := true })) (8 * dirSet 1 + 3) (fun e => { e with pin := e.pin + 1 }))).get (by decide +kernel)), by refine ⟨?_, ?_, ?_, ?_, ?_, ?_, ?_, ?_, ?_, ?_, ?_, ?_, ?_, ?_, ?_, ?_, ?_, ?a17⟩; (case a17 => simp); all_goals decide +kernel⟩,
    ⟨(st [(F.WGT_CMD_STAT_BUSY,1),(F.WGT_CMD_MODEL,1),(F.WGT_CMD_EPOCH,2),(F.CFG_MODE,1)] { wgt := { op := 5 }, mem := put 3 { modelId := 1, epoch := 2, pin := 1 } ({ recs := [({ model := 1, epoch := 2, stagePin := true } : EpochRec)] }) }), 1, 2, (8 * dirSet 1 + 3), ({ modelId := 1, epoch := 2, valid := true, pin := 1 } : DirEntry), ({ model := 1, epoch := 2, stagePin := true } : EpochRec), by decide +kernel⟩,
    ⟨(st [(F.WGT_CMD_STAT_BUSY,1),(F.WGT_CMD_MODEL,1),(F.WGT_CMD_EPOCH,2),(F.CFG_MODE,1),(F.SPAN_STAT_IN_SPAN,1)] { wgt := { op := 3 }, mem := put 3 { modelId := 1, epoch := 2, near := true } ({ recs := [({ model := 1, epoch := 2 } : EpochRec)] }) }), 1, 2, (8 * dirSet 1 + 3), ({ modelId := 1, epoch := 2, valid := true, near := true } : DirEntry), ({ model := 1, epoch := 2 } : EpochRec), by decide +kernel⟩,
    ⟨(st [(F.WGT_CMD_STAT_BUSY,1),(F.WGT_CMD_MODEL,1),(F.WGT_CMD_EPOCH,2),(F.CFG_MODE,1)] { wgt := { op := 3 }, mem := put 3 { modelId := 1, epoch := 2, near := true } (put 0 { modelId := 1, epoch := 1, active := true, near := true, nearSize := 32 } { recs := [({ model := 1, epoch := 2 } : EpochRec)] }) }), 1, 2, (8 * dirSet 1 + 3), ({ modelId := 1, epoch := 2, valid := true, near := true } : DirEntry), ({ model := 1, epoch := 2 } : EpochRec), 0, 0, 0, 1, by decide +kernel⟩,
    ⟨(st [(F.WGT_CMD_STAT_BUSY,1),(F.WGT_CMD_MODEL,1),(F.WGT_CMD_EPOCH,2),(F.CFG_MODE,1)] { wgt := { op := 3 }, mem := put 3 { modelId := 1, epoch := 2 } (put 0 { modelId := 1, epoch := 1, active := true, near := true, nearSize := 32, pin := 2 } { recs := [({ model := 1, epoch := 2, shards := [{ ulen := 4 }] } : EpochRec)] }) }), 1, 2, (8 * dirSet 1 + 3), ({ modelId := 1, epoch := 2, valid := true } : DirEntry), ({ model := 1, epoch := 2, shards := [{ ulen := 4 }] } : EpochRec), 1, 0, 0, 1, (8 * dirSet 1), by decide +kernel⟩⟩

theorem test_hypotheses_epochs_come_and_go :
    (∃ (s : State), s.fieldsCanonical = true ∧ s.memoryCanonical = true ∧ isSet s F.WGT_CMD_STAT_BUSY = true ∧ s.wgt.result = none ∧ s.wgt.op = 1 ∧
      getF s F.CFG_MODE ≠ 2) ∧
    (∃ (s : State) (image : List Byte), s.fieldsCanonical = true ∧ s.memoryCanonical = true ∧ isSet s F.WGT_CMD_STAT_BUSY = true ∧
      s.wgt.result = none ∧ s.wgt.op = 1 ∧ getF s F.CFG_MODE = 2 ∧ manifestOk (listReader image) (getF s F.WGT_ING_LEN) = false) ∧
    (∃ (s : State) (image : List Byte) (m : Manifest), s.fieldsCanonical = true ∧ s.memoryCanonical = true ∧ isSet s F.WGT_CMD_STAT_BUSY = true ∧
      s.wgt.result = none ∧ s.wgt.op = 1 ∧ getF s F.CFG_MODE = 2 ∧ m = manifestOf (listReader image) ∧
      manifestOk (listReader image) (getF s F.WGT_ING_LEN) = true ∧ shardsOk (listReader image) m (getF s F.WGT_ING_LEN) (spanSize s) = true ∧
      objectsOk (listReader image) m = true ∧ ingestRefused s m = none ∧
      (∀ k h, m.ep.shards[k]? = some h → checkShard m.ep.q5 h (bytesAt (listReader image) (m.offs.getD k 0) h.clen) = 0)) ∧
    (∃ (s : State) (model epoch : Nat), s.fieldsCanonical = true ∧ s.memoryCanonical = true ∧ isSet s F.WGT_CMD_STAT_BUSY = true ∧
      s.wgt.result = none ∧ s.wgt.op = 2 ∧ getF s F.WGT_CMD_MODEL = model ∧ getF s F.WGT_CMD_EPOCH = epoch ∧ getF s F.CFG_MODE ≠ 2) ∧
    (∃ (s : State) (i : _) (model epoch : Nat), s.fieldsCanonical = true ∧ s.memoryCanonical = true ∧ isSet s F.WGT_CMD_STAT_BUSY = true ∧
      s.wgt.result = none ∧ s.wgt.op = 2 ∧ getF s F.WGT_CMD_MODEL = model ∧ getF s F.WGT_CMD_EPOCH = epoch ∧ getF s F.CFG_MODE = 2 ∧
      dirFind s.mem model epoch = some i ∧ (dirGet s.mem i).active = true) ∧
    (∃ (s : State) (i : _) (model epoch : Nat), s.fieldsCanonical = true ∧ s.memoryCanonical = true ∧ isSet s F.WGT_CMD_STAT_BUSY = true ∧
      s.wgt.result = none ∧ s.wgt.op = 2 ∧ getF s F.WGT_CMD_MODEL = model ∧ getF s F.WGT_CMD_EPOCH = epoch ∧ getF s F.CFG_MODE = 2 ∧
      dirFind s.mem model epoch = some i ∧ (dirGet s.mem i).active = false ∧ (∀ r, recFind s.mem model epoch = some r → r.stagePin = false) ∧
      s.mem.switches = []) :=
  ⟨⟨(st [(F.WGT_CMD_STAT_BUSY,1),(F.CFG_MODE,1),(F.WGT_ING_LEN,8240)] { wgt := { op := 1 }, mem := { catalogue := { drives := [(0, 5000000)] } } }), by decide +kernel⟩,
    ⟨(st [(F.WGT_CMD_STAT_BUSY,1),(F.CFG_MODE,2),(F.WGT_ING_LEN,8239)] { wgt := { op := 1 }, mem := { catalogue := { drives := [(0, 5000000)] } } }), image, by decide +kernel⟩,
    ⟨(st [(F.WGT_CMD_STAT_BUSY,1),(F.CFG_MODE,2),(F.MEM_STAT_STORE_UP,1),(F.WGT_ING_LEN,8240)] { wgt := { op := 1 }, mem := { catalogue := { drives := [(0, 5000000)] } } }), image, imageManifest, by refine ⟨?_, ?_, ?_, ?_, ?_, ?_, ?_, ?_, ?_, ?_, ?_, ?a11⟩; (case a11 => exact image_shards); all_goals decide +kernel⟩,
    ⟨(st [(F.WGT_CMD_STAT_BUSY,1),(F.WGT_CMD_MODEL,1),(F.WGT_CMD_EPOCH,2),(F.CFG_MODE,1)] { wgt := { op := 2 }, mem := put 3 { modelId := 1, epoch := 2 } ({ recs := [({ model := 1, epoch := 2 } : EpochRec)] }) }), 1, 2, by decide +kernel⟩,
    ⟨(st [(F.WGT_CMD_STAT_BUSY,1),(F.WGT_CMD_MODEL,1),(F.WGT_CMD_EPOCH,2),(F.CFG_MODE,2)] { wgt := { op := 2 }, mem := put 3 { modelId := 1, epoch := 2, active := true } ({ recs := [({ model := 1, epoch := 2 } : EpochRec)] }) }), (8 * dirSet 1 + 3), 1, 2, by decide +kernel⟩,
    ⟨(st [(F.WGT_CMD_STAT_BUSY,1),(F.WGT_CMD_MODEL,1),(F.WGT_CMD_EPOCH,2),(F.CFG_MODE,2)] { wgt := { op := 2 }, mem := put 3 { modelId := 1, epoch := 2 } ({ recs := [({ model := 1, epoch := 2 } : EpochRec)] }) }), (8 * dirSet 1 + 3), 1, 2, by refine ⟨?_, ?_, ?_, ?_, ?_, ?_, ?_, ?_, ?_, ?_, ?a10, ?_⟩; (case a10 => intro r h; rw [show recFind _ _ _ = some _ from by rfl] at h; cases h; rfl); all_goals decide +kernel⟩⟩

theorem test_hypotheses_signs_of_zero :
    (∃ (s t : Bool) (m n : Nat) (e f : Int), (if s then -1 else 1 : ℚ) * m * 2 ^ e + (if t then -1 else 1 : ℚ) * n * 2 ^ f = 0) ∧
    (∃ (m n : Nat), (m = 0 ∨ n = 0)) ∧
    (∃ (mode : Rnd) (a b : Word) (z : _), a.toNat / 2 ^ 23 % 256 ≠ 255 ∧ b.toNat / 2 ^ 23 % 256 ≠ 255 ∧
      z = (if mode = .down then 0x80000000#32 else 0#32)) ∧
    (∃ (a b : Word), a.toNat / 2 ^ 23 % 256 ≠ 255 ∧ b.toNat / 2 ^ 23 % 256 ≠ 255 ∧ a.toNat % 2 ^ 31 = 0) :=
  ⟨⟨true, false, 6, 3, (0 : Int), (1 : Int), by decide +kernel⟩,
    ⟨0, 3, by decide +kernel⟩,
    ⟨(Rnd.down), (0x3F800000#32), (0x80000001#32), (0x80000000#32), by decide +kernel⟩,
    ⟨(0x80000000#32), (0xFF7FFFFF#32), by decide +kernel⟩⟩

theorem test_hypotheses_conversions_are_exact :
    (∃ (f : ElemFmt) (mode : Rnd) (c : Nat) (x : FVal), x = f32 (roundF32 mode (decodeElem f c)) ∧ decodeElem f c = .nan) ∧
    (∃ (f : ElemFmt) (mode : Rnd) (c : Nat) (x : FVal) (s : Bool), x = f32 (roundF32 mode (decodeElem f c)) ∧ decodeElem f c = .inf s) ∧
    (∃ (f : ElemFmt) (mode : Rnd) (c : Nat) (x : FVal) (s : Bool) (m : Nat) (e : Int), x = f32 (roundF32 mode (decodeElem f c)) ∧
      decodeElem f c = .fin s m e) ∧
    (∃ (f : ElemFmt) (lane : Nat) (d : Word256) (i : Nat) (v x : FVal), i < 32 ∧ (vecSpan f lane).2 ≤ i ∧
      i < (vecSpan f lane).2 + (vecSpan f lane).1 ∧ v = decodeElem f (packedElem d f.width (i - (vecSpan f lane).2)) ∧
      x = f32 ((wordToLanes f lane d).getD i 0#32) ∧ v = .nan) ∧
    (∃ (f : ElemFmt) (lane : Nat) (d : Word256) (i : Nat) (v x : FVal) (s : Bool), i < 32 ∧ (vecSpan f lane).2 ≤ i ∧
      i < (vecSpan f lane).2 + (vecSpan f lane).1 ∧ v = decodeElem f (packedElem d f.width (i - (vecSpan f lane).2)) ∧
      x = f32 ((wordToLanes f lane d).getD i 0#32) ∧ v = .inf s) ∧
    (∃ (f : ElemFmt) (lane : Nat) (d : Word256) (i : Nat) (v x : FVal) (s : Bool) (m : Nat) (e : Int), i < 32 ∧ (vecSpan f lane).2 ≤ i ∧
      i < (vecSpan f lane).2 + (vecSpan f lane).1 ∧ v = decodeElem f (packedElem d f.width (i - (vecSpan f lane).2)) ∧
      x = f32 ((wordToLanes f lane d).getD i 0#32) ∧ v = .fin s m e) ∧
    (∃ (f : ElemFmt) (c : Nat), c < 2 ^ f.width) :=
  ⟨⟨(ElemFmt.e5m2), (Rnd.up), 0x7D, (FVal.nan), by decide +kernel⟩,
    ⟨(ElemFmt.e5m2), (Rnd.up), 0xFC, (FVal.inf true), true, by decide +kernel⟩,
    ⟨(ElemFmt.bfloat16), (Rnd.up), 0x8001, (FVal.fin true 65536 (-149)), true, 1, (-133 : Int), by decide +kernel⟩,
    ⟨(ElemFmt.bfloat16), 1, (BitVec.ofNat 256 (0x7FC1 * 2 ^ 240)), 31, (FVal.nan), (FVal.nan), by decide +kernel⟩,
    ⟨(ElemFmt.binary32), 3, (BitVec.ofNat 256 0xFF800000), 24, (FVal.inf true), (FVal.inf true), true, by decide +kernel⟩,
    ⟨(ElemFmt.int8), 0, (BitVec.ofNat 256 (128 * 2 ^ 248)), 31, (FVal.fin true 128 0), (FVal.fin true 8388608 (-16)), true, 128, (0 : Int), by decide +kernel⟩,
    ⟨(ElemFmt.int8), 255, by decide +kernel⟩⟩

/-- A layer of five experts with two choices and one fallback candidate, and three tokens that prefer experts 0 and 1. -/
def routeLayer : RouteLayer := { experts := 5, k := 2, d := 1, c := 2, halves := true }

def routeTokens : List RouteToken := [0, 0, 1].map (fun p => { rpos := p, scores := [0x40000000#32, 0x3F800000#32] })

theorem test_hypotheses_routed_choices_account :
    (∃ (l : RouteLayer) (ts : List RouteToken) (a : Assign), l.k + l.d ≤ l.experts ∧ a = assignHalf l ts ∧ a.placed ≠ [] ∧ a.dropped ≠ []) ∧
    (∃ (l : RouteLayer) (b c : Assign) (i : Nat) (t : RouteToken) (f : Nat), l.k + l.d ≤ l.experts ∧ c = assignToken l b (i, t) ∧
      f ∈ fallbackChoices l t) :=
  ⟨⟨routeLayer, routeTokens, assignHalf routeLayer routeTokens, by decide +kernel⟩,
    ⟨routeLayer, {}, assignToken routeLayer {} (9, { rpos := 1 }), 9, { rpos := 1 }, 2, by decide +kernel⟩⟩

end Sys2Proof.Tests
end

/-! SUPPORT. The canonical form of the register fields through every function of the model: one lemma for each, in the order of the model's files, from the two
facts that a write keeps it and that nothing else touches the fields. Every command then answers a state in canonical form. -/
namespace Sys2Proof.Proofs
open Sys2Proof Sys2Proof.Machine

section
variable {s t : State}

/-! ### Choices, lists and pairs of states -/

theorem ite_canonical {c : Prop} {d : Decidable c} (hs : s.fieldsCanonical) (ht : t.fieldsCanonical) :
    (if c then s else t).fieldsCanonical := by split <;> assumption

theorem ite_snd_canonical {α : Type} {c : Prop} {d : Decidable c} {p q : α × State} (hp : p.2.fieldsCanonical) (hq : q.2.fieldsCanonical) :
    (if c then p else q).2.fieldsCanonical := by split <;> assumption

theorem ite_fst_canonical {α : Type} {c : Prop} {d : Decidable c} {p q : State × α} (hp : p.1.fieldsCanonical) (hq : q.1.fieldsCanonical) :
    (if c then p else q).1.fieldsCanonical := by split <;> assumption

theorem ite_snd2_canonical {α β : Type} {c : Prop} {d : Decidable c} {p q : α × β × State} (hp : p.2.2.fieldsCanonical) (hq : q.2.2.fieldsCanonical) :
    (if c then p else q).2.2.fieldsCanonical := by split <;> assumption

theorem ite_snd3_canonical {α β γ : Type} {c : Prop} {d : Decidable c} {p q : α × β × γ × State} (hp : p.2.2.2.fieldsCanonical)
    (hq : q.2.2.2.fieldsCanonical) : (if c then p else q).2.2.2.fieldsCanonical := by split <;> assumption

theorem foldl_snd_canonical {α β : Type} {g : β × State → α → β × State} {p : β × State} {l : List α}
    (hg : ∀ q, q.2.fieldsCanonical → ∀ x, (g q x).2.fieldsCanonical) (h : p.2.fieldsCanonical) : (l.foldl g p).2.fieldsCanonical := by
  induction l generalizing p with
  | nil => exact h
  | cons x l ih => exact ih (hg _ h x)

theorem snd_canonical {α : Type} {p : α × State} {a : α} (hp : p.2.fieldsCanonical) (e : p = (a, s)) : s.fieldsCanonical := by
  rw [e] at hp
  exact hp

theorem foldl_canonical {α : Type} {g : State → α → State} {l : List α} (hg : ∀ t, t.fieldsCanonical → ∀ x, (g t x).fieldsCanonical)
    (h : s.fieldsCanonical) : (l.foldl g s).fieldsCanonical := by
  induction l generalizing s with
  | nil => exact h
  | cons x l ih => exact ih (hg _ h x)

/-- An update of the state that leaves the register fields. -/
theorem update_canonical {pending hiLatch frame cells mem wgt adm out links span pwr modes pins fuses nor boot irq stw spdm stampCnt stampAhead
    caps events freeCtr} (h : s.fieldsCanonical) :
    (State.mk pending s.flds hiLatch frame cells mem wgt adm out links span pwr modes pins fuses nor boot irq stw spdm stampCnt stampAhead
      caps events freeCtr).fieldsCanonical := h

/-! ### Machine/Ops -/

theorem setF_canonical {f v} (h : s.fieldsCanonical) : (setF s f v).fieldsCanonical := Laws.smapWf_set _ _ h

theorem raise_canonical {f} (h : s.fieldsCanonical) : (raise s f).fieldsCanonical := setF_canonical h
theorem lower_canonical {f} (h : s.fieldsCanonical) : (lower s f).fieldsCanonical := setF_canonical h
theorem setBool_canonical {f b} (h : s.fieldsCanonical) : (setBool s f b).fieldsCanonical := setF_canonical h
theorem addF_canonical {f n} (h : s.fieldsCanonical) : (addF s f n).fieldsCanonical := setF_canonical h
theorem bump_canonical {f} (h : s.fieldsCanonical) : (bump s f).fieldsCanonical := addF_canonical h
theorem setBitF_canonical {f n b} (h : s.fieldsCanonical) : (setBitF s f n b).fieldsCanonical := setF_canonical h
theorem setFields_canonical {l} (h : s.fieldsCanonical) :
    (setFields s l).fieldsCanonical := foldl_canonical (fun _ ht _ => setF_canonical ht) h
theorem capture_canonical {guards vals} (h : s.fieldsCanonical) : (capture s guards vals).fieldsCanonical := by
  unfold capture
  exact
    have h1 := ite_canonical h (update_canonical h)
    ite_canonical (setFields_canonical h1) h1

theorem countLater_canonical {guards cnt} (h : s.fieldsCanonical) :
    (countLater s guards cnt).fieldsCanonical := bump_canonical (update_canonical h)
theorem countStamp_canonical {y} (h : s.fieldsCanonical) : (countStamp s y).fieldsCanonical :=
  ite_canonical (update_canonical h) (update_canonical h)

theorem freshStamps_canonical (h : s.fieldsCanonical) : (freshStamps s).fieldsCanonical := update_canonical h
theorem stampCaused_canonical {src k c} (h : s.fieldsCanonical) : (stampCaused s src k c).fieldsCanonical :=
  update_canonical (countStamp_canonical h)

theorem stampEvent_canonical {src k} (h : s.fieldsCanonical) : (stampEvent s src k).fieldsCanonical := update_canonical h

/-! ### Machine/Requests -/

theorem emit_canonical {m} (h : s.fieldsCanonical) : (emit s m).fieldsCanonical := update_canonical h
theorem freeVal_canonical {w} (h : s.fieldsCanonical) : (freeVal s w).2.fieldsCanonical := update_canonical h
theorem setReqs_canonical {l} (h : s.fieldsCanonical) : (setReqs s l).fieldsCanonical := update_canonical h
theorem failReq_canonical {c aseq cause?} (h : s.fieldsCanonical) : (failReq s c aseq cause?).fieldsCanonical :=
  update_canonical (countStamp_canonical h)

theorem failEvery_canonical {c p cause?} (h : s.fieldsCanonical) : (failEvery s c p cause?).fieldsCanonical :=
  foldl_canonical (fun _ ht _ => failReq_canonical ht) h

theorem failWhere_canonical {c p cause?} (h : s.fieldsCanonical) : (failWhere s c p cause?).fieldsCanonical := failEvery_canonical h
theorem moveWhere_canonical {c p} (h : s.fieldsCanonical) : (moveWhere s c p).fieldsCanonical := setReqs_canonical (countStamp_canonical h)
theorem breakStream_canonical {c client stream cause?} (h : s.fieldsCanonical) : (breakStream s c client stream cause?).fieldsCanonical :=
  failWhere_canonical (update_canonical h)

/-! ### Machine/Memory -/

theorem setMem_canonical {m} (h : s.fieldsCanonical) : (setMem s m).fieldsCanonical := update_canonical h
theorem memEvent_canonical {bit kind unit die region addr} (h : s.fieldsCanonical) :
    (memEvent s bit kind unit die region addr).fieldsCanonical :=
  raise_canonical (capture_canonical h)

theorem nvmeIo_canonical {ctrl opcode arg} (h : s.fieldsCanonical) : (nvmeIo s ctrl opcode arg).fieldsCanonical := emit_canonical h
theorem readRun_canonical {r} (h : s.fieldsCanonical) :
    (readRun s r).fieldsCanonical := foldl_canonical (fun _ ht _ => nvmeIo_canonical ht) h
theorem issueReads_canonical (h : s.fieldsCanonical) : (issueReads s).fieldsCanonical := by
  unfold issueReads
  split
  · exact ite_canonical h (foldl_canonical (fun _ ht _ => readRun_canonical ht) (setMem_canonical h))
  · exact h

theorem endPending_canonical {w} (h : s.fieldsCanonical) : (endPending s w).fieldsCanonical := by
  unfold endPending
  exact
    have h1 := bump_canonical (raise_canonical (setMem_canonical h))
    have h2 := issueReads_canonical (ite_canonical (setF_canonical h1) h1)
    ite_canonical (lower_canonical h2) h2

theorem evictFor_canonical {try?} (h : s.fieldsCanonical) : (evictFor s try?).2.fieldsCanonical := by
  unfold evictFor
  split
  · exact addF_canonical (setMem_canonical h)
  · exact memEvent_canonical h

theorem retryPending_canonical (h : s.fieldsCanonical) : (retryPending s).fieldsCanonical := by
  unfold retryPending
  refine foldl_canonical (fun _ ht _ => ite_canonical ht ?_) h
  split
  · next _ _ e =>
      exact endPending_canonical (snd_canonical (evictFor_canonical ht) e)
  · next _ e =>
      exact snd_canonical (evictFor_canonical ht) e

theorem reserveWith_canonical {try?} (h : s.fieldsCanonical) : (reserveWith s try?).2.fieldsCanonical := by
  unfold reserveWith
  split
  · next _ e =>
      exact snd_canonical (evictFor_canonical h) e
  · next _ _ e =>
      exact retryPending_canonical (snd_canonical (evictFor_canonical h) e)
  · next _ e =>
      exact snd_canonical (evictFor_canonical h) e

theorem reserveEpoch_canonical {model epoch} (h : s.fieldsCanonical) :
    (reserveEpoch s model epoch).2.fieldsCanonical := reserveWith_canonical h
theorem queueFetch_canonical {model epoch bound waiting} (h : s.fieldsCanonical) :
    (queueFetch s model epoch bound waiting).fieldsCanonical :=
  issueReads_canonical (setF_canonical (setMem_canonical h))

theorem rebusy_canonical {fromStore} (h : s.fieldsCanonical) :
    (rebusy s fromStore).fieldsCanonical := issueReads_canonical (setF_canonical h)
theorem endJob_canonical {model epoch} (h : s.fieldsCanonical) : (endJob s model epoch).fieldsCanonical := by
  unfold endJob
  split
  · exact rebusy_canonical (setMem_canonical h)
  · exact h

theorem abandonFetch_canonical {model epoch} (h : s.fieldsCanonical) : (abandonFetch s model epoch).fieldsCanonical :=
  failWhere_canonical (setMem_canonical (endJob_canonical h))

theorem missFetch_canonical {model epoch} (h : s.fieldsCanonical) : (missFetch s model epoch).fieldsCanonical :=
  ite_canonical (bump_canonical (setMem_canonical h)) h

theorem markUnusable_canonical {model epoch} (h : s.fieldsCanonical) : (markUnusable s model epoch).fieldsCanonical := by
  unfold markUnusable
  exact
    have h1 := setMem_canonical h
    failWhere_canonical (ite_canonical (setMem_canonical (endJob_canonical h1)) h1)

theorem refetchFromStore_canonical {model epoch} (h : s.fieldsCanonical) : (refetchFromStore s model epoch).fieldsCanonical := by
  unfold refetchFromStore
  dsimp only
  split
  · exact ite_canonical (setMem_canonical h) (ite_canonical (abandonFetch_canonical (missFetch_canonical (setMem_canonical h)))
    (issueReads_canonical (rebusy_canonical (setF_canonical (setMem_canonical (setMem_canonical h))))))
  · exact setMem_canonical h

theorem reserveBulk_canonical {model epoch k side need} (h : s.fieldsCanonical) (e : reserveBulk s model epoch k side need = some t) :
    t.fieldsCanonical := by
  unfold reserveBulk at e
  obtain ⟨x, -, rfl⟩ := Option.map_eq_some_iff.mp e
  exact addF_canonical (setMem_canonical h)

theorem servePending_canonical (h : s.fieldsCanonical) : (servePending s).fieldsCanonical := by
  unfold servePending
  refine foldl_canonical (fun _ ht _ => ?_) h
  split
  · exact ite_canonical (retryPending_canonical (bump_canonical (setMem_canonical ht))) ht
  · exact ht

theorem unpin_canonical {model epoch} (h : s.fieldsCanonical) :
    (unpin s model epoch).fieldsCanonical := servePending_canonical (setMem_canonical h)
theorem lookupPin_canonical {i} (h : s.fieldsCanonical) : (lookupPin s i).fieldsCanonical := setMem_canonical h

/-! ### Machine/SpanOps -/

theorem setLink_canonical {n l} (h : s.fieldsCanonical) : (setLink s n l).fieldsCanonical := update_canonical h
theorem setSpan_canonical {x} (h : s.fieldsCanonical) : (setSpan s x).fieldsCanonical := update_canonical h
theorem setFrame_canonical {x} (h : s.fieldsCanonical) : (setFrame s x).fieldsCanonical := update_canonical h
theorem setPwr_canonical {x} (h : s.fieldsCanonical) : (setPwr s x).fieldsCanonical := update_canonical h
theorem queueCtrl_canonical {port b} (h : s.fieldsCanonical) : (queueCtrl s port b).fieldsCanonical := setLink_canonical h
theorem forwardUp_canonical {b} (h : s.fieldsCanonical) : (forwardUp s b).fieldsCanonical := queueCtrl_canonical h
theorem forwardDown_canonical {b} (h : s.fieldsCanonical) : (forwardDown s b).fieldsCanonical :=
  foldl_canonical (fun _ ht _ => queueCtrl_canonical ht) h

theorem sendCtrl_canonical {m} (h : s.fieldsCanonical) : (sendCtrl s m).fieldsCanonical := by
  unfold sendCtrl
  refine ite_canonical h ?_
  exact
    have h1 := bump_canonical h
    ite_canonical (ite_canonical h1 (forwardUp_canonical h1)) (forwardDown_canonical h1)

theorem toMaster_canonical {y msg n arg} (h : s.fieldsCanonical) : (toMaster s y msg n arg).fieldsCanonical := sendCtrl_canonical h
theorem toAll_canonical {y msg n arg} (h : s.fieldsCanonical) : (toAll s y msg n arg).fieldsCanonical := sendCtrl_canonical h
theorem eventToMaster_canonical {src cause? msg n arg} (h : s.fieldsCanonical) : (eventToMaster s src cause? msg n arg).fieldsCanonical :=
  toMaster_canonical (countStamp_canonical h)

theorem eventToAll_canonical {src cause? msg n arg} (h : s.fieldsCanonical) : (eventToAll s src cause? msg n arg).fieldsCanonical :=
  toAll_canonical (countStamp_canonical h)

theorem announceChange_canonical {src cause? subject n operand} (h : s.fieldsCanonical) :
    (announceChange s src cause? subject n operand).fieldsCanonical :=
  eventToAll_canonical (setSpan_canonical h)

theorem raiseNarrow_canonical (h : s.fieldsCanonical) :
    (raiseNarrow s).fieldsCanonical := ite_canonical h (raise_canonical (raise_canonical h))
theorem alignLoss_canonical {cause?} (h : s.fieldsCanonical) : (alignLoss s cause?).fieldsCanonical :=
  eventToMaster_canonical (bump_canonical (raise_canonical (lower_canonical h)))

theorem takeGrant_canonical {g cause?} (h : s.fieldsCanonical) : (takeGrant s g cause?).fieldsCanonical := by
  unfold takeGrant
  refine ite_canonical (alignLoss_canonical (raise_canonical h)) (ite_canonical ?_ h)
  exact
    have h1 := setSpan_canonical (setF_canonical (raise_canonical h))
    ite_canonical (raiseNarrow_canonical (setPwr_canonical h1)) h1

theorem grantStretch_canonical {r} (h : s.fieldsCanonical) : (grantStretch s r).fieldsCanonical :=
  ite_canonical h (takeGrant_canonical (eventToAll_canonical (setSpan_canonical h)))

theorem acceptStretch_canonical {r} (h : s.fieldsCanonical) : (acceptStretch s r).fieldsCanonical :=
  ite_canonical (bump_canonical h) (ite_canonical (bump_canonical h) (grantStretch_canonical h))

theorem askStretch_canonical {amountUs c} (h : s.fieldsCanonical) : (askStretch s amountUs c).fieldsCanonical := by
  unfold askStretch
  refine ite_canonical h ?_
  exact
    have h1 := setFrame_canonical h
    have h2 := ite_canonical (bump_canonical h1) h1
    ite_canonical (acceptStretch_canonical h2) (eventToMaster_canonical h2)

theorem requestStretch_canonical {overNs c} (h : s.fieldsCanonical) : (requestStretch s overNs c).fieldsCanonical :=
  ite_canonical h (askStretch_canonical h)

theorem sendNotice_canonical {y} (h : s.fieldsCanonical) : (sendNotice s y).fieldsCanonical := by
  unfold sendNotice
  refine ite_canonical h ?_
  exact
    have h1 := bump_canonical (raise_canonical (setSpan_canonical h))
    ite_canonical (toAll_canonical h1) (toMaster_canonical h1)

theorem markFaulted_canonical {y} (h : s.fieldsCanonical) : (markFaulted s y).fieldsCanonical := by
  unfold markFaulted
  refine ite_canonical h ?_
  exact
    have h1 := raise_canonical (raise_canonical (ite_canonical h (bump_canonical h)))
    ite_canonical (sendNotice_canonical h1) h1

theorem noteReport_canonical {r} (h : s.fieldsCanonical) : (noteReport s r).fieldsCanonical := by
  unfold noteReport
  exact
    have h1 := setSpan_canonical h
    ite_canonical (setSpan_canonical h1) (ite_canonical (setSpan_canonical h1) h1)

theorem sendReport_canonical {r} (h : s.fieldsCanonical) : (sendReport s r).fieldsCanonical := by
  unfold sendReport
  refine ite_canonical h ?_
  exact
    have h1 := noteReport_canonical h
    ite_canonical (setSpan_canonical h1) (toMaster_canonical h1)

/-! ### Machine/PowerOps -/

theorem setOp_canonical {op} (h : s.fieldsCanonical) : (setOp s op).fieldsCanonical := ite_canonical (setPwr_canonical h) (setF_canonical h)
theorem aimAt_canonical {z op next} (h : s.fieldsCanonical) : (aimAt s z op next).fieldsCanonical :=
  setOp_canonical (setF_canonical (setF_canonical h))

theorem showFloor_canonical (h : s.fieldsCanonical) : (showFloor s).fieldsCanonical := ite_canonical h (setF_canonical h)
theorem aimRest_canonical (h : s.fieldsCanonical) : (aimRest s).fieldsCanonical := by
  unfold aimRest
  dsimp only
  split
  · exact ite_canonical (setOp_canonical (setF_canonical (setF_canonical (setF_canonical h)))) (aimAt_canonical (setF_canonical h))
  · exact ite_canonical (setOp_canonical (setF_canonical (setF_canonical h))) (aimAt_canonical h)

theorem keepPoints_canonical {ch} (h : s.fieldsCanonical) : (keepPoints s ch).fieldsCanonical := setPwr_canonical h
theorem planPoints_canonical (h : s.fieldsCanonical) : (planPoints s).fieldsCanonical := by
  unfold planPoints
  dsimp only
  refine ite_canonical (aimRest_canonical (showFloor_canonical h)) ?_
  split
  · exact
      have h1 := foldl_canonical (fun _ ht _ => setBool_canonical (setBool_canonical (setF_canonical (setF_canonical ht))))
        (setPwr_canonical (showFloor_canonical h))
      have h2 := aimAt_canonical (setF_canonical (ite_canonical h1 (keepPoints_canonical h1)))
      have h3 := raiseNarrow_canonical (setPwr_canonical (ite_canonical h2 (bump_canonical (raise_canonical h2))))
      ite_canonical h2 (ite_canonical (requestStretch_canonical h3) h3)
  · exact
      have h1 := foldl_canonical (fun _ ht _ => setBool_canonical (setBool_canonical (setF_canonical (setF_canonical ht))))
        (setPwr_canonical (showFloor_canonical h))
      have h2 := aimRest_canonical (ite_canonical h1 (keepPoints_canonical h1))
      have h3 := raiseNarrow_canonical (setPwr_canonical (ite_canonical h2 (bump_canonical (raise_canonical h2))))
      ite_canonical h2 (ite_canonical (requestStretch_canonical h3) h3)

theorem replanMoved_canonical {old} (h : s.fieldsCanonical) :
    (replanMoved old s).fieldsCanonical := ite_canonical h (planPoints_canonical h)
theorem clearPhases_canonical (h : s.fieldsCanonical) : (clearPhases s).fieldsCanonical :=
  foldl_canonical (fun _ ht _ => lower_canonical (lower_canonical (setF_canonical (setF_canonical ht)))) h

theorem aimPhase_canonical {k} (h : s.fieldsCanonical) : (aimPhase s k).fieldsCanonical := by
  unfold aimPhase
  dsimp only
  split
  · exact h
  · exact aimAt_canonical (setF_canonical h)

theorem leadNext_canonical {c} (h : s.fieldsCanonical) : (leadNext s c).fieldsCanonical := aimAt_canonical (setPwr_canonical h)
theorem leaveIdle_canonical (h : s.fieldsCanonical) :
    (leaveIdle s).fieldsCanonical := ite_canonical (aimRest_canonical (setF_canonical h)) h
theorem showCap_canonical (h : s.fieldsCanonical) : (showCap s).fieldsCanonical := setF_canonical h
theorem capChanged_canonical {old} (h : s.fieldsCanonical) : (capChanged old s).fieldsCanonical := by
  unfold capChanged
  exact
    have h1 := showCap_canonical h
    ite_canonical h1 (planPoints_canonical h1)

theorem bootCap_canonical (h : s.fieldsCanonical) : (bootCap s).fieldsCanonical := ite_canonical (setPwr_canonical h) h
theorem countFall_canonical (h : s.fieldsCanonical) : (countFall s).fieldsCanonical := bump_canonical (raise_canonical h)
theorem touchSlot_canonical {slot} (h : s.fieldsCanonical) : (touchSlot s slot).fieldsCanonical := setPwr_canonical h
theorem learnFrame_canonical (h : s.fieldsCanonical) : (learnFrame s).fieldsCanonical := by
  unfold learnFrame
  dsimp only
  split
  · exact touchSlot_canonical (setPwr_canonical h)
  · exact touchSlot_canonical (setPwr_canonical h)

/-! ### Machine/Journal -/

theorem setRing_canonical {r x} (h : s.fieldsCanonical) : (setRing s r x).fieldsCanonical := update_canonical h
theorem haltRing_canonical {r kind index} (h : s.fieldsCanonical) : (haltRing s r kind index).fieldsCanonical :=
  stampEvent_canonical (raise_canonical (raise_canonical (capture_canonical h)))

theorem announceRing_canonical {r} (h : s.fieldsCanonical) : (announceRing s r).fieldsCanonical := ite_canonical h (update_canonical h)
theorem putReceipt_canonical {r z refused} (h : s.fieldsCanonical) : (putReceipt s r z refused).fieldsCanonical := by
  unfold putReceipt
  refine ite_canonical (haltRing_canonical h) ?_
  exact
    have h1 := setF_canonical (emit_canonical h)
    announceRing_canonical (ite_canonical (setRing_canonical h1) h1)

theorem putCompletion_canonical {r z refused} (h : s.fieldsCanonical) : (putCompletion s r z refused).fieldsCanonical := by
  unfold putCompletion
  refine ite_canonical (haltRing_canonical h) ?_
  exact
    have h1 := setF_canonical (emit_canonical h)
    announceRing_canonical (ite_canonical (setRing_canonical h1) h1)

theorem hostRefuses_canonical {refused} (h : s.fieldsCanonical) : (hostRefuses refused s).2.fieldsCanonical := by
  unfold hostRefuses
  split
  · exact h
  · show (freeVal s 1).2.fieldsCanonical = true
    exact freeVal_canonical h

theorem drainReceipts_canonical {r refused a} (h : s.fieldsCanonical) : (drainReceipts r refused a s).fieldsCanonical := by
  induction a generalizing s with
  | zero => exact h
  | succ n ih =>
    unfold drainReceipts
    dsimp only
    split
    · exact h
    · exact ite_canonical (ite_canonical (putReceipt_canonical (hostRefuses_canonical h))
        (ih (putReceipt_canonical (setRing_canonical (hostRefuses_canonical h))))) h

theorem drainCompletions_canonical {r refused a} (h : s.fieldsCanonical) : (drainCompletions r refused a s).fieldsCanonical := by
  induction a generalizing s with
  | zero => exact h
  | succ n ih =>
    unfold drainCompletions
    dsimp only
    split
    · exact h
    · exact ite_canonical (ite_canonical (putCompletion_canonical (hostRefuses_canonical h))
        (ih (putCompletion_canonical (setRing_canonical (hostRefuses_canonical h))))) h

theorem drainRing_canonical {r refused} (h : s.fieldsCanonical) : (drainRing s r refused).fieldsCanonical :=
  drainCompletions_canonical (drainReceipts_canonical h)

theorem clientUpd_canonical {c f} (h : s.fieldsCanonical) : (clientUpd s c f).fieldsCanonical :=
  ite_canonical h (ite_canonical h (update_canonical h))

/-! ### Machine/Admission -/

theorem bindFrame_canonical {idx model epoch aseq} (h : s.fieldsCanonical) : (bindFrame s idx model epoch aseq).fieldsCanonical := by
  unfold bindFrame
  split
  · exact update_canonical h
  · exact update_canonical h

theorem countCause_canonical {c} (h : s.fieldsCanonical) : (countCause s c).fieldsCanonical := bump_canonical h
theorem refuse_canonical {r sub d c refused} (h : s.fieldsCanonical) : (refuse s r sub d c refused).fieldsCanonical :=
  ite_canonical (haltRing_canonical h) (putReceipt_canonical (clientUpd_canonical (countCause_canonical (bump_canonical
    (stampEvent_canonical h)))))

theorem journalAccept_canonical {r sub raw epoch promised fetch y} (h : s.fieldsCanonical) :
    (journalAccept s r sub raw epoch promised fetch y).fieldsCanonical :=
  setF_canonical (emit_canonical h)

theorem unposted_canonical {r sub raw epoch promised fetch} (h : s.fieldsCanonical) :
    (unposted s r sub raw epoch promised fetch).fieldsCanonical :=
  haltRing_canonical (journalAccept_canonical (countStamp_canonical h))

theorem accept_canonical {r sub raw d epoch promised frame fetch} (h : s.fieldsCanonical) :
    (accept s r sub raw d epoch promised frame fetch).fieldsCanonical := by
  unfold accept
  exact clientUpd_canonical (putReceipt_canonical (bump_canonical (setReqs_canonical (journalAccept_canonical (stampEvent_canonical h)))))

theorem noteJournal_canonical {r d} (h : s.fieldsCanonical) : (noteJournal s r d).fieldsCanonical := ite_canonical (raise_canonical h) h
theorem openStream_canonical {d} (h : s.fieldsCanonical) : (openStream s d).2.fieldsCanonical := by
  unfold openStream
  dsimp only
  exact ite_snd_canonical h (ite_snd_canonical (reserveWith_canonical h) (ite_snd_canonical (update_canonical (reserveWith_canonical h))
    (reserveWith_canonical h)))

theorem closeStream_canonical {before d} (h : s.fieldsCanonical) : (closeStream before s d).fieldsCanonical :=
  setMem_canonical (ite_canonical h (update_canonical h))

theorem needFetch_canonical {model epoch} (h : s.fieldsCanonical) : (needFetch s model epoch).2.2.fieldsCanonical := by
  unfold needFetch
  dsimp only
  refine ite_snd2_canonical h (ite_snd2_canonical h (ite_snd2_canonical h ?_))
  split
  · exact h
  · split
    · exact h
    · exact ite_snd2_canonical (reserveEpoch_canonical h) (reserveEpoch_canonical h)

theorem dropReserve_canonical {model epoch} (h : s.fieldsCanonical) : (dropReserve s model epoch).fieldsCanonical :=
  ite_canonical h (setMem_canonical h)

theorem startFetch_canonical {model epoch bound} (h : s.fieldsCanonical) : (startFetch s model epoch bound).fieldsCanonical := by
  unfold startFetch
  split
  · exact ite_canonical h (queueFetch_canonical h)
  · exact h

theorem admitRun_canonical {r sub raw d refused} (h : s.fieldsCanonical) : (admitRun s r sub raw d refused).fieldsCanonical := by
  unfold admitRun
  dsimp only
  refine ite_canonical (refuse_canonical (openStream_canonical h)) ?_
  split
  · exact refuse_canonical (closeStream_canonical (openStream_canonical h))
  · refine ite_canonical (refuse_canonical (closeStream_canonical (openStream_canonical h))) (ite_canonical (refuse_canonical
    (closeStream_canonical (unpin_canonical (lookupPin_canonical (openStream_canonical h))))) (ite_canonical (refuse_canonical
    (closeStream_canonical (unpin_canonical (needFetch_canonical (lookupPin_canonical (openStream_canonical h)))))) (ite_canonical
    (refuse_canonical (closeStream_canonical (unpin_canonical (dropReserve_canonical (needFetch_canonical (lookupPin_canonical
    (openStream_canonical h))))))) ?_)))
    split
    · exact refuse_canonical (closeStream_canonical (unpin_canonical (dropReserve_canonical (needFetch_canonical (lookupPin_canonical
      (openStream_canonical h))))))
    · exact ite_canonical (refuse_canonical (closeStream_canonical (unpin_canonical (dropReserve_canonical (needFetch_canonical
      (lookupPin_canonical (openStream_canonical h))))))) (ite_canonical (unposted_canonical (closeStream_canonical (unpin_canonical
      (dropReserve_canonical (needFetch_canonical (lookupPin_canonical (openStream_canonical h))))))) (accept_canonical
      (bindFrame_canonical (startFetch_canonical (needFetch_canonical (lookupPin_canonical (openStream_canonical h)))))))

theorem takeDescriptor_canonical {r} (h : s.fieldsCanonical) : (takeDescriptor s r).fieldsCanonical :=
  bump_canonical (update_canonical (setF_canonical h))

theorem judgeDescriptor_canonical {r x} (h : s.fieldsCanonical) : (judgeDescriptor s r x).fieldsCanonical := by
  unfold judgeDescriptor
  dsimp only
  split
  · exact refuse_canonical (noteJournal_canonical (takeDescriptor_canonical h))
  · exact ite_canonical (ite_canonical (unposted_canonical (takeDescriptor_canonical h)) (accept_canonical (takeDescriptor_canonical h)))
      (admitRun_canonical (takeDescriptor_canonical h))

theorem run_canonical {x} (h : s.fieldsCanonical) : (Machine.run x s).fieldsCanonical := by
  unfold Machine.run
  split
  · exact h
  · exact ite_canonical (haltRing_canonical h) (ite_canonical h (judgeDescriptor_canonical h))

theorem close_canonical {x} (h : s.fieldsCanonical) : (Machine.close x s).fieldsCanonical := by
  unfold Machine.close
  split
  · exact h
  · exact ite_canonical (haltRing_canonical h) (ite_canonical (judgeDescriptor_canonical h) h)

theorem subDoorbell_canonical {r tail} (h : s.fieldsCanonical) : (subDoorbell r tail s).fieldsCanonical :=
  ite_canonical h (ite_canonical (setF_canonical h) (ite_canonical (haltRing_canonical (setF_canonical h)) (setF_canonical h)))

theorem writeRingCtl_canonical {r v en} (h : s.fieldsCanonical) : (writeRingCtl r v en s).fieldsCanonical := by
  unfold writeRingCtl
  exact
    have h1 := setF_canonical (setF_canonical (setF_canonical h))
    ite_canonical h1 (setF_canonical h1)

theorem ringEnable_canonical {r v} (h : s.fieldsCanonical) : (ringEnable r v s).fieldsCanonical :=
  ite_canonical h (ite_canonical (writeRingCtl_canonical h) (drainRing_canonical (setRing_canonical (foldl_canonical (fun _ ht _ =>
    setF_canonical ht) (raise_canonical (writeRingCtl_canonical h))))))

theorem ringDisable_canonical {r v} (h : s.fieldsCanonical) : (ringDisable r v s).fieldsCanonical :=
  ite_canonical h (lower_canonical (lower_canonical (writeRingCtl_canonical h)))

theorem rcptHeadWrite_canonical {r head refused} (h : s.fieldsCanonical) : (rcptHeadWrite r head refused s).fieldsCanonical :=
  ite_canonical h (drainReceipts_canonical (setF_canonical h))

theorem cmplHeadWrite_canonical {r head refused} (h : s.fieldsCanonical) : (cmplHeadWrite r head refused s).fieldsCanonical :=
  ite_canonical h (drainCompletions_canonical (setF_canonical h))

theorem retireWrite_canonical {cj hi} (h : s.fieldsCanonical) : (retireWrite cj hi s).fieldsCanonical :=
  ite_canonical (update_canonical (setF_canonical h)) (setF_canonical h)

theorem recover_canonical (h : s.fieldsCanonical) : (Machine.recover s).fieldsCanonical := by
  unfold Machine.recover
  refine ite_canonical h ?_
  exact
    have h1 := update_canonical (lower_canonical h)
    ite_canonical (raise_canonical h1) h1

theorem complete_canonical {q refused} (h : s.fieldsCanonical) : (Machine.complete s q refused).fieldsCanonical := by
  unfold Machine.complete
  dsimp only
  exact
    have h1 := setReqs_canonical (setF_canonical (emit_canonical (stampEvent_canonical h)))
    have h2 := drainRing_canonical (setRing_canonical (clientUpd_canonical (countCause_canonical (ite_canonical (bump_canonical h1)
      (ite_canonical (raise_canonical (bump_canonical h1)) (raise_canonical (bump_canonical h1)))))))
    ite_canonical (setMem_canonical (update_canonical h2)) (ite_canonical (unpin_canonical h2) h2)

theorem completionRecord_canonical {aseq refused} (h : s.fieldsCanonical) : (completionRecord aseq refused s).fieldsCanonical := by
  unfold completionRecord
  split
  · exact ite_canonical (complete_canonical h) h
  · exact h

theorem completeAll_canonical {a} (h : s.fieldsCanonical) : (completeAll a s).fieldsCanonical := by
  induction a generalizing s with
  | zero => exact h
  | succ n ih =>
    unfold completeAll
    split
    · exact ih (complete_canonical h)
    · exact h

theorem recoverOne_canonical {b} (h : s.fieldsCanonical) : (recoverOne s b).fieldsCanonical := by
  unfold recoverOne
  dsimp only
  refine clientUpd_canonical (bump_canonical (drainRing_canonical (setRing_canonical (stampEvent_canonical (bump_canonical (ite_canonical
    (setReqs_canonical h) (ite_canonical (setReqs_canonical h) ?_)))))))
  split
  · exact setReqs_canonical h
  · refine ite_canonical (setReqs_canonical h) (ite_canonical (setReqs_canonical (lookupPin_canonical h)) (ite_canonical (setReqs_canonical
    (needFetch_canonical (openStream_canonical (lookupPin_canonical h)))) ?_))
    split
    · exact setReqs_canonical (startFetch_canonical (needFetch_canonical (openStream_canonical (lookupPin_canonical h))))
    · exact setReqs_canonical (bindFrame_canonical (startFetch_canonical (needFetch_canonical (openStream_canonical (lookupPin_canonical
      h)))))

theorem recoveryComplete_canonical {accs comps} (h : s.fieldsCanonical) : (recoveryComplete accs comps s).fieldsCanonical :=
  ite_canonical h (update_canonical (lower_canonical (lower_canonical (raise_canonical (setF_canonical (foldl_canonical (fun _ ht _ =>
    recoverOne_canonical ht) (setF_canonical (setF_canonical h))))))))

theorem loadPlan_canonical {rd} (h : s.fieldsCanonical) : (loadPlan rd s).fieldsCanonical :=
  setF_canonical (setF_canonical (setF_canonical (setF_canonical (setF_canonical (foldl_canonical (fun _ ht _ => clientUpd_canonical ht)
    (update_canonical h))))))

theorem rebasePlan_canonical (h : s.fieldsCanonical) : (rebasePlan s).fieldsCanonical := update_canonical h

/-! ### Machine/Irq -/

theorem setIrq_canonical {x} (h : s.fieldsCanonical) : (setIrq s x).fieldsCanonical := update_canonical h
theorem setPend_canonical {n b} (h : s.fieldsCanonical) : (setPend s n b).fieldsCanonical := setBitF_canonical h
theorem setInsvc_canonical {n b} (h : s.fieldsCanonical) : (setInsvc s n b).fieldsCanonical := setBitF_canonical h
theorem senseLine_canonical {n level} (h : s.fieldsCanonical) : (senseLine s n level).fieldsCanonical := by
  unfold senseLine
  exact
    have h1 := setBitF_canonical h
    ite_canonical (setPend_canonical h1) h1

theorem levelPends_canonical {n} (h : s.fieldsCanonical) : (levelPends s n).fieldsCanonical := ite_canonical (setPend_canonical h) h
theorem pulse_canonical {n} (h : s.fieldsCanonical) :
    (pulse s n).fieldsCanonical := ite_canonical (senseLine_canonical (senseLine_canonical h)) h
theorem latchEdge_canonical {p} (h : s.fieldsCanonical) : (latchEdge s p).fieldsCanonical := senseLine_canonical (raise_canonical h)
theorem irqFilterChange_canonical {n level} (h : s.fieldsCanonical) : (irqFilterChange n level s).fieldsCanonical := by
  unfold irqFilterChange
  refine ite_canonical h ?_
  split
  · exact senseLine_canonical h
  · exact ite_canonical (senseLine_canonical h) h

theorem irqPendSet_canonical {r k v} (h : s.fieldsCanonical) : (irqPendSet r k v s).fieldsCanonical :=
  ite_canonical h (foldl_canonical (fun _ ht _ => setPend_canonical ht) h)

theorem irqPendClr_canonical {r k v} (h : s.fieldsCanonical) : (irqPendClr r k v s).fieldsCanonical :=
  ite_canonical h (foldl_canonical (fun _ ht _ => ite_canonical ht (setPend_canonical ht)) h)

theorem irqEnable_canonical {r k v b} (h : s.fieldsCanonical) : (irqEnable r k v b s).fieldsCanonical :=
  ite_canonical h (foldl_canonical (fun _ ht _ => setBitF_canonical ht) h)

theorem delivered_canonical {y} (h : s.fieldsCanonical) : (delivered s y).fieldsCanonical := bump_canonical (setIrq_canonical h)
theorem setStack_canonical {y l} (h : s.fieldsCanonical) :
    (setStack s y l).fieldsCanonical := setF_canonical (setF_canonical (setIrq_canonical h))
theorem claimRead_canonical {y} (h : s.fieldsCanonical) : (claimRead s y).2.fieldsCanonical := by
  unfold claimRead
  refine ite_snd_canonical h ?_
  split
  · exact h
  · exact
      have h1 := setInsvc_canonical (setStack_canonical (update_canonical h))
      delivered_canonical (ite_canonical (setPend_canonical h1) h1)

theorem claim_canonical {y} (h : s.fieldsCanonical) : (claim y s).fieldsCanonical := by
  unfold claim
  dsimp only
  exact emit_canonical (claimRead_canonical h)

theorem setWaits_canonical {y w} (h : s.fieldsCanonical) : (setWaits s y w).fieldsCanonical := update_canonical h
theorem completeSource_canonical {y n waits} (h : s.fieldsCanonical) : (completeSource y n waits s).fieldsCanonical := by
  unfold completeSource
  refine ite_canonical h ?_
  split
  · refine ite_canonical ?_ (bump_canonical h)
    exact
      have h1 := setInsvc_canonical (setStack_canonical h)
      ite_canonical (setWaits_canonical h1) h1
  · exact bump_canonical h

theorem sendVector_canonical {v} (h : s.fieldsCanonical) : (sendVector s v).fieldsCanonical :=
  ite_canonical (setBitF_canonical h) (emit_canonical h)

theorem msixSend_canonical (h : s.fieldsCanonical) : (msixSend s).fieldsCanonical := by
  unfold msixSend
  dsimp only
  split
  · exact delivered_canonical (sendVector_canonical (update_canonical h))
  · split
    · exact h
    · exact ite_canonical h (delivered_canonical (sendVector_canonical (ite_canonical (setPend_canonical h) (setInsvc_canonical h))))

theorem hostEoi_canonical {n} (h : s.fieldsCanonical) : (hostEoi n s).fieldsCanonical := ite_canonical h (setInsvc_canonical h)
theorem moderationExpiry_canonical {y} (h : s.fieldsCanonical) :
    (moderationExpiry y s).fieldsCanonical := ite_canonical h (setIrq_canonical h)
theorem flushVectors_canonical (h : s.fieldsCanonical) : (flushVectors s).fieldsCanonical :=
  ite_canonical h (foldl_canonical (fun _ ht _ => sendVector_canonical (setBitF_canonical ht)) h)

theorem msixMaskWrite_canonical {v mask} (h : s.fieldsCanonical) : (msixMaskWrite v mask s).fieldsCanonical := by
  unfold msixMaskWrite
  split
  · exact ite_canonical h (flushVectors_canonical (setBool_canonical h))
  · exact flushVectors_canonical (setIrq_canonical h)

/-! ### Machine/Frame -/

theorem mapCells_canonical {f} (h : s.fieldsCanonical) : (mapCells s f).fieldsCanonical := update_canonical h
theorem setCell_canonical {n c} (h : s.fieldsCanonical) : (setCell s n c).fieldsCanonical := update_canonical h
theorem idleCells_canonical {halted f} (h : s.fieldsCanonical) :
    (idleCells s halted f).fieldsCanonical := mapCells_canonical (update_canonical h)
theorem stretchAc_canonical {n f} (h : s.fieldsCanonical) : (stretchAc n f s).fieldsCanonical := by
  unfold stretchAc
  refine ite_canonical h ?_
  exact
    have h1 := setPwr_canonical (addF_canonical h)
    ite_canonical (planPoints_canonical h1) h1

theorem advanceAc_canonical {n} (h : s.fieldsCanonical) : (advanceAc s n).fieldsCanonical := by
  unfold advanceAc
  exact
    have h1 := ite_canonical (raise_canonical (setF_canonical h)) (setF_canonical h)
    stretchAc_canonical (setFrame_canonical (setF_canonical (ite_canonical (addF_canonical h1) h1)))

theorem setCasement_canonical {n c} (h : s.fieldsCanonical) : (setCasement s n c).fieldsCanonical := setFrame_canonical h
theorem setPane_canonical {n p} (h : s.fieldsCanonical) : (setPane s n p).fieldsCanonical := setFrame_canonical h
theorem clearLens_canonical {n} (h : s.fieldsCanonical) : (clearLens s n).fieldsCanonical := mapCells_canonical h
theorem clearLoaded_canonical {n} (h : s.fieldsCanonical) : (clearLoaded s n).fieldsCanonical := mapCells_canonical h
theorem clearIdleTable_canonical (h : s.fieldsCanonical) : (clearIdleTable s).fieldsCanonical := setFrame_canonical h
theorem updateReady_canonical (h : s.fieldsCanonical) :
    (updateReady s).fieldsCanonical := setBool_canonical (ite_canonical (raise_canonical h) h)
theorem showEmpty_canonical (h : s.fieldsCanonical) : (showEmpty s).fieldsCanonical := setBool_canonical h
theorem startLoads_canonical {x} (h : s.fieldsCanonical) : (startLoads s x).fieldsCanonical := by
  unfold startLoads
  exact
    have h1 := setBool_canonical (setBool_canonical (setFrame_canonical h))
    have h2 := ite_canonical (setF_canonical (raise_canonical (clearLens_canonical (setCasement_canonical h1)))) h1
    ite_canonical (raise_canonical (setPane_canonical (ite_canonical h2 (clearLoaded_canonical h2)))) h2

theorem stopLoads_canonical (h : s.fieldsCanonical) : (stopLoads s).fieldsCanonical :=
  setF_canonical (lower_canonical (lower_canonical (ite_canonical (clearLens_canonical (setCasement_canonical h)) h)))

theorem applyNaming_canonical {x?} (h : s.fieldsCanonical) : (applyNaming s x?).fieldsCanonical := by
  unfold applyNaming
  dsimp only
  refine ite_canonical (ite_canonical (leaveIdle_canonical h) h) ?_
  split
  · exact updateReady_canonical (setF_canonical (setF_canonical (lower_canonical (lower_canonical (showEmpty_canonical (ite_canonical
    (stopLoads_canonical (setFrame_canonical (ite_canonical (leaveIdle_canonical h) h))) (clearIdleTable_canonical (stopLoads_canonical
    (setFrame_canonical (ite_canonical (leaveIdle_canonical h) h))))))))))
  · exact updateReady_canonical (startLoads_canonical (showEmpty_canonical (setF_canonical (setF_canonical (stopLoads_canonical
    (setFrame_canonical (ite_canonical (leaveIdle_canonical h) h)))))))

theorem frameNaming_canonical {fold} (h : s.fieldsCanonical) : (frameNaming fold s).fieldsCanonical := by
  unfold frameNaming
  refine ite_canonical h ?_
  split
  · exact ite_canonical (setFrame_canonical (applyNaming_canonical h)) (applyNaming_canonical h)
  · exact applyNaming_canonical h

theorem renewNaming_canonical (h : s.fieldsCanonical) : (renewNaming s).fieldsCanonical := by
  unfold renewNaming
  split
  · exact updateReady_canonical h
  · exact ite_canonical (updateReady_canonical h) (applyNaming_canonical h)

theorem dropFlipped_canonical (h : s.fieldsCanonical) : (dropFlipped s).fieldsCanonical := showEmpty_canonical (setFrame_canonical h)
theorem rejectConfig_canonical {f cid} (h : s.fieldsCanonical) : (rejectConfig s f cid).fieldsCanonical :=
  bump_canonical (raise_canonical (capture_canonical h))

theorem writeCasement_canonical {n rd} (h : s.fieldsCanonical) : (writeCasement s n rd).fieldsCanonical :=
  foldl_canonical (fun _ ht _ => setCell_canonical ht) h

theorem sampleReady_canonical (h : s.fieldsCanonical) : (sampleReady s).fieldsCanonical := setFrame_canonical (updateReady_canonical h)
theorem casementLoadDone_canonical {nearUe} (h : s.fieldsCanonical) : (casementLoadDone nearUe s).fieldsCanonical := by
  unfold casementLoadDone
  dsimp only
  refine ite_canonical h ?_
  split
  · exact h
  · split
    · exact h
    · split
      · exact h
      · split
        · exact failWhere_canonical (rejectConfig_canonical (setF_canonical (lower_canonical h)))
        · exact sampleReady_canonical (bump_canonical (setF_canonical (setCasement_canonical (writeCasement_canonical (setF_canonical
          (lower_canonical h))))))

theorem writePane_canonical {n r rd} (h : s.fieldsCanonical) : (writePane s n r rd).fieldsCanonical :=
  foldl_canonical (fun _ ht _ => setCell_canonical ht) h

theorem dropPaneWords_canonical {l} (h : s.fieldsCanonical) : (dropPaneWords s l).fieldsCanonical :=
  foldl_canonical (fun _ ht _ => setCell_canonical ht) h

theorem paneLoadDone_canonical (h : s.fieldsCanonical) : (paneLoadDone s).fieldsCanonical := by
  unfold paneLoadDone
  refine ite_canonical h ?_
  split
  · exact h
  · split
    · exact h
    · split
      · exact h
      · exact sampleReady_canonical (lower_canonical (setPane_canonical (dropPaneWords_canonical (writePane_canonical h))))

theorem checkOnlyPass_canonical {model epoch cid nearUe} (h : s.fieldsCanonical) :
    (checkOnlyPass model epoch cid nearUe s).fieldsCanonical := by
  unfold checkOnlyPass
  split
  · exact h
  · refine ite_canonical h ?_
    split
    · split
      · exact h
      · split
        · exact markUnusable_canonical (rejectConfig_canonical h)
        · exact setMem_canonical h
    · split
      · exact h
      · exact ite_canonical (setMem_canonical h) (markUnusable_canonical h)

theorem shiftPlan_canonical {n} (h : s.fieldsCanonical) : (shiftPlan s n).fieldsCanonical := update_canonical h
theorem moveExcess_canonical {n q} (h : s.fieldsCanonical) : (moveExcess s n q).fieldsCanonical := by
  unfold moveExcess
  split
  · exact ite_canonical h (update_canonical (shiftPlan_canonical (moveWhere_canonical h)))
  · exact h

theorem sealTable_canonical (h : s.fieldsCanonical) : (sealTable s).fieldsCanonical :=
  ite_canonical h (ite_canonical (setFrame_canonical h) (setFrame_canonical (moveExcess_canonical h)))

theorem releaseResults_canonical (h : s.fieldsCanonical) : (releaseResults s).fieldsCanonical := by
  unfold releaseResults
  refine foldl_canonical (fun _ ht _ => ite_canonical ht ?_) h
  split
  · exact emit_canonical ht
  · exact ht

theorem commitReqs_canonical {y} (h : s.fieldsCanonical) : (commitReqs s y).fieldsCanonical := by
  unfold commitReqs
  dsimp only
  split
  · exact update_canonical (setReqs_canonical h)
  · exact setReqs_canonical h

theorem showSlack_canonical (h : s.fieldsCanonical) : (showSlack s).fieldsCanonical := by
  unfold showSlack
  split
  · exact setF_canonical (setF_canonical h)
  · exact setF_canonical (setF_canonical h)

theorem commitFrame_canonical (h : s.fieldsCanonical) : (commitFrame s).fieldsCanonical := by
  unfold commitFrame
  refine ite_canonical ?_ (stampEvent_canonical h)
  exact
    have h1 := setMem_canonical (commitReqs_canonical (releaseResults_canonical (stampEvent_canonical h)))
    setSpan_canonical (learnFrame_canonical (ite_canonical (showSlack_canonical h1) h1))

theorem showPhases_canonical (h : s.fieldsCanonical) : (showPhases s).fieldsCanonical := by
  unfold showPhases
  refine foldl_canonical (fun _ ht _ => ?_) h
  split
  · exact setBool_canonical (setF_canonical ht)
  · exact lower_canonical (setF_canonical ht)

theorem excludeColumn_canonical {col} (h : s.fieldsCanonical) : (excludeColumn s col).fieldsCanonical :=
  setF_canonical (ite_canonical (setF_canonical h) (setF_canonical h))

theorem beginRetire_canonical {col} (h : s.fieldsCanonical) : (beginRetire s col).fieldsCanonical :=
  updateReady_canonical (setF_canonical (raise_canonical h))

theorem retireEffect_canonical (h : s.fieldsCanonical) : (retireEffect s).fieldsCanonical := by
  unfold retireEffect
  refine ite_canonical ?_ h
  exact
    have h1 := setF_canonical (lower_canonical (setFrame_canonical (stampEvent_canonical (raise_canonical (excludeColumn_canonical h)))))
    ite_canonical (beginRetire_canonical (setF_canonical (lower_canonical h1))) h1

theorem switchSides_canonical {ready} (h : s.fieldsCanonical) : (switchSides s ready).fieldsCanonical := by
  unfold switchSides
  refine showEmpty_canonical (servePending_canonical (setFrame_canonical (ite_canonical ?_ h)))
  exact
    have h1 := ite_canonical (setF_canonical h) h
    setFrame_canonical (lower_canonical (lower_canonical (lower_canonical (setF_canonical (setF_canonical (showFloor_canonical
      (setF_canonical (setF_canonical (retireEffect_canonical (ite_canonical (setF_canonical h1) h1))))))))))

theorem flipFrame_canonical {ready} (h : s.fieldsCanonical) : (flipFrame s ready).fieldsCanonical := by
  unfold flipFrame
  exact
    have h1 := advanceAc_canonical (stampEvent_canonical (switchSides_canonical (mapCells_canonical (advanceAc_canonical
      (commitFrame_canonical (mapCells_canonical (advanceAc_canonical h)))))))
    lower_canonical (lower_canonical (lower_canonical (raise_canonical (setFrame_canonical (ite_canonical (sendReport_canonical
      (showPhases_canonical h1)) h1)))))

theorem replayFail_canonical {c idx cause?} (h : s.fieldsCanonical) : (replayFail s c idx cause?).fieldsCanonical :=
  switchSides_canonical (setF_canonical (setFrame_canonical (update_canonical (raise_canonical (bump_canonical (failWhere_canonical h))))))

theorem endWaiting_canonical (h : s.fieldsCanonical) : (endWaiting s).fieldsCanonical :=
  ite_canonical (setFrame_canonical (bump_canonical (raise_canonical h))) h

theorem failUnmet_canonical {cause?} (h : s.fieldsCanonical) : (failUnmet s cause?).fieldsCanonical := failWhere_canonical h
theorem dropFrame_canonical {idx} (h : s.fieldsCanonical) : (dropFrame s idx).fieldsCanonical := by
  unfold dropFrame
  exact
    have h1 := shiftPlan_canonical (update_canonical (endWaiting_canonical h))
    switchSides_canonical (setF_canonical (setFrame_canonical (setSpan_canonical (ite_canonical (failUnmet_canonical h1) h1))))

theorem afterAbort_canonical {c idx} (h : s.fieldsCanonical) : (afterAbort s c idx).fieldsCanonical := by
  unfold afterAbort
  exact
    have h1 := moveWhere_canonical (update_canonical h)
    ite_canonical (dropFrame_canonical h1) (ite_canonical (setSpan_canonical h1) (ite_canonical (setFrame_canonical
      (clearIdleTable_canonical h1)) (ite_canonical (replayFail_canonical h1) (showEmpty_canonical (setFrame_canonical h1)))))

theorem abortFrame_canonical {c} (h : s.fieldsCanonical) : (abortFrame s c).fieldsCanonical := by
  unfold abortFrame
  refine servePending_canonical ?_
  split
  · exact afterAbort_canonical (lower_canonical (lower_canonical (lower_canonical (raise_canonical (setFrame_canonical (advanceAc_canonical
    (stampEvent_canonical (bump_canonical (raise_canonical (setFrame_canonical (advanceAc_canonical (setSpan_canonical (setMem_canonical
    (idleCells_canonical (advanceAc_canonical h)))))))))))))))
  · exact (lower_canonical (lower_canonical (lower_canonical (raise_canonical (setFrame_canonical (advanceAc_canonical
    (stampEvent_canonical (bump_canonical (raise_canonical (setFrame_canonical (advanceAc_canonical (setSpan_canonical (setMem_canonical
    (idleCells_canonical (advanceAc_canonical h)))))))))))))))

theorem drainAbort_canonical {c} (h : s.fieldsCanonical) : (drainAbort s c).fieldsCanonical := by
  unfold drainAbort
  exact abortFrame_canonical (sendReport_canonical (countStamp_canonical h))

theorem ingressShutterClose_canonical (h : s.fieldsCanonical) : (ingressShutterClose s).fieldsCanonical :=
  ite_canonical (raise_canonical (setFrame_canonical h)) h

theorem drainSample_canonical {edge output} (h : s.fieldsCanonical) : (drainSample edge output s).fieldsCanonical :=
  ite_canonical h (setFrame_canonical (sealTable_canonical h))

theorem enterHold_canonical (h : s.fieldsCanonical) : (enterHold s).fieldsCanonical := by
  unfold enterHold
  exact
    have h1 := lower_canonical (raise_canonical (setFrame_canonical h))
    ite_canonical (requestStretch_canonical h1) h1

theorem verdict_canonical {x} (h : s.fieldsCanonical) : (verdict s x).fieldsCanonical := by
  unfold verdict
  refine ite_canonical (drainAbort_canonical (setF_canonical (setF_canonical (ite_canonical h (setFrame_canonical (setF_canonical h))))))
    (ite_canonical ?_ (ite_canonical (drainAbort_canonical (setF_canonical (setF_canonical (ite_canonical h (setFrame_canonical
    (setF_canonical h)))))) (ite_canonical (ite_canonical h (setFrame_canonical (setF_canonical h))) (enterHold_canonical (ite_canonical h
    (setFrame_canonical (setF_canonical h)))))))
  exact
    have h1 := setF_canonical (setF_canonical (ite_canonical h (setFrame_canonical (setF_canonical h))))
    flipFrame_canonical (ite_canonical (bump_canonical (raise_canonical h1)) h1)

theorem drainVerdict_canonical (h : s.fieldsCanonical) : (drainVerdict s).fieldsCanonical := by
  unfold drainVerdict
  split
  · exact h
  · exact ite_canonical (verdict_canonical (setFrame_canonical h)) h

theorem drainHoldTimeout_canonical (h : s.fieldsCanonical) : (drainHoldTimeout s).fieldsCanonical :=
  ite_canonical (drainAbort_canonical (setF_canonical (setF_canonical h))) h

theorem emptyFrameFlip_canonical (h : s.fieldsCanonical) : (emptyFrameFlip s).fieldsCanonical :=
  ite_canonical (setF_canonical (setF_canonical (setF_canonical (setFrame_canonical (flipFrame_canonical (sealTable_canonical
    (advanceAc_canonical h))))))) h

theorem needRetire_canonical {col} (h : s.fieldsCanonical) : (needRetire s col).fieldsCanonical :=
  ite_canonical h (ite_canonical (failWhere_canonical (raise_canonical h)) (ite_canonical (setF_canonical (raise_canonical h))
    (beginRetire_canonical h)))

theorem columnRetirement_canonical (h : s.fieldsCanonical) : (columnRetirement s).fieldsCanonical := by
  unfold columnRetirement
  split
  · exact h
  · exact needRetire_canonical (setFrame_canonical h)

theorem endReqs_canonical {g} (h : s.fieldsCanonical) : (endReqs s g).fieldsCanonical := setReqs_canonical (countStamp_canonical h)
theorem endStretch_canonical {g} (h : s.fieldsCanonical) : (endStretch s g).fieldsCanonical := by
  unfold endStretch
  split
  · exact setF_canonical (setF_canonical (setF_canonical (setF_canonical (bump_canonical (raise_canonical (lower_canonical h))))))
  · exact h

theorem endNarrow_canonical (h : s.fieldsCanonical) :
    (endNarrow s).fieldsCanonical := setPwr_canonical (ite_canonical (lower_canonical h) h)
theorem openTick_canonical (h : s.fieldsCanonical) : (openTick s).fieldsCanonical := by
  unfold openTick
  exact
    have h1 := lower_canonical (lower_canonical (setF_canonical (lower_canonical (lower_canonical (setF_canonical (setF_canonical
      (setF_canonical (setF_canonical h))))))))
    idleCells_canonical (pulse_canonical (stampEvent_canonical (setSpan_canonical (freshStamps_canonical (ite_canonical
      (clearIdleTable_canonical h1) h1)))))

theorem freshFrame_canonical (h : s.fieldsCanonical) : (freshFrame s).fieldsCanonical := setFrame_canonical h
theorem openLive_canonical {replay skip} (h : s.fieldsCanonical) : (openLive s replay skip).fieldsCanonical := by
  unfold openLive
  exact
    have h1 := clearPhases_canonical (setF_canonical (setSpan_canonical (raise_canonical (lower_canonical (setBool_canonical
      (setF_canonical (setF_canonical (setF_canonical (setFrame_canonical (update_canonical h))))))))))
    planPoints_canonical (ite_canonical (markFaulted_canonical (setSpan_canonical h1)) (ite_canonical h1 (setSpan_canonical h1)))

theorem openEmpty_canonical (h : s.fieldsCanonical) : (openEmpty s).fieldsCanonical := by
  unfold openEmpty
  exact
    have h1 := setF_canonical (lower_canonical (raise_canonical (lower_canonical (bump_canonical (raise_canonical (setFrame_canonical
      h))))))
    have h2 := ite_canonical h1 (setFrame_canonical h1)
    planPoints_canonical (ite_canonical (setF_canonical h2) h2)

theorem openWaiting_canonical (h : s.fieldsCanonical) : (openWaiting s).fieldsCanonical := by
  unfold openWaiting
  exact
    have h1 := lower_canonical (lower_canonical (raise_canonical (setFrame_canonical (update_canonical h))))
    planPoints_canonical (ite_canonical h1 (setSpan_canonical h1))

theorem openUnready_canonical {wasNarrow} (h : s.fieldsCanonical) : (openUnready s wasNarrow).fieldsCanonical := by
  unfold openUnready
  refine openEmpty_canonical ?_
  split
  · exact ite_canonical (update_canonical (update_canonical h)) (shiftPlan_canonical (moveWhere_canonical (update_canonical h)))
  · exact update_canonical h

theorem fetchMissCheck_canonical (h : s.fieldsCanonical) : (fetchMissCheck s).fieldsCanonical :=
  foldl_canonical (fun _ ht _ => failWhere_canonical ht) h

theorem reportEmpty_canonical (h : s.fieldsCanonical) : (reportEmpty s).fieldsCanonical :=
  ite_canonical h (sendReport_canonical (countStamp_canonical h))

theorem announcePeriod_canonical {target n} (h : s.fieldsCanonical) : (announcePeriod s target n).fieldsCanonical := by
  unfold announcePeriod
  refine ite_canonical h ?_
  exact
    have h1 := setF_canonical (setF_canonical h)
    ite_canonical (announceChange_canonical h1) h1

theorem announceMode_canonical (h : s.fieldsCanonical) : (announceMode s).fieldsCanonical := by
  unfold announceMode
  exact
    have h1 := setFrame_canonical h
    announcePeriod_canonical (ite_canonical (announceChange_canonical h1) h1)

theorem tickMode_canonical (h : s.fieldsCanonical) : (tickMode s).fieldsCanonical :=
  ite_canonical (ite_canonical (announceMode_canonical h) h) (ite_canonical (setF_canonical h) h)

theorem barFlipped_canonical (h : s.fieldsCanonical) : (barFlipped s).fieldsCanonical := ite_canonical (dropFlipped_canonical h) h
theorem tick_canonical (h : s.fieldsCanonical) : (tick s).fieldsCanonical := by
  unfold tick
  refine ite_canonical h ?_
  exact
    have h1 := setF_canonical h
    have h2 := ite_canonical (setF_canonical h1) h1
    have h3 := openTick_canonical (endNarrow_canonical (endStretch_canonical (endReqs_canonical (ite_canonical h2 (reportEmpty_canonical
      h2)))))
    have h4 := ite_canonical (sendReport_canonical (abortFrame_canonical (bump_canonical (raise_canonical (stampEvent_canonical h3))))) h3
    have h5 := barFlipped_canonical (tickMode_canonical (endWaiting_canonical (setFrame_canonical (freshFrame_canonical h4))))
    have h6 := setSpan_canonical h5
    fetchMissCheck_canonical (showEmpty_canonical
      (ite_canonical (openEmpty_canonical (update_canonical h5))
      (ite_canonical (openEmpty_canonical (update_canonical h5))
      (ite_canonical (openWaiting_canonical h5)
      (ite_canonical (openEmpty_canonical (update_canonical h5))
      (ite_canonical (ite_canonical (openEmpty_canonical (update_canonical h5)) (openLive_canonical h5))
      (ite_canonical (ite_canonical (openLive_canonical h6) (openEmpty_canonical (update_canonical h6)))
      (ite_canonical (openLive_canonical h5) (openUnready_canonical h5)))))))))

theorem cifSaturate_canonical (h : s.fieldsCanonical) :
    (cifSaturate s).fieldsCanonical := ite_canonical (raise_canonical (setF_canonical h)) h
theorem failInfeasible_canonical {before} (h : s.fieldsCanonical) : (failInfeasible before s).fieldsCanonical := failWhere_canonical h
theorem dropExcluded_canonical (h : s.fieldsCanonical) : (dropExcluded s).fieldsCanonical := by
  unfold dropExcluded
  exact
    have h1 := renewNaming_canonical h
    ite_canonical (dropFlipped_canonical h1) h1

theorem reopenEmpty_canonical (h : s.fieldsCanonical) : (reopenEmpty s).fieldsCanonical := by
  unfold reopenEmpty
  refine ite_canonical h (showEmpty_canonical ?_)
  split
  · exact openUnready_canonical (update_canonical (setFrame_canonical h))
  · exact openEmpty_canonical (setFrame_canonical h)

theorem periodChange_canonical (h : s.fieldsCanonical) : (periodChange s).fieldsCanonical :=
  ite_canonical (planPoints_canonical (dropExcluded_canonical (reopenEmpty_canonical (failInfeasible_canonical (setF_canonical
    (setF_canonical h)))))) h

/-! ### Machine/RouteStage -/

theorem tallyAdd_canonical {model o n} (h : s.fieldsCanonical) : (tallyAdd s model o n).fieldsCanonical := by
  unfold tallyAdd
  split
  · exact ite_canonical h (setFrame_canonical (setMem_canonical h))
  · exact h

theorem tallyHalf_canonical {model l base ts a} (h : s.fieldsCanonical) : (tallyHalf s model l base ts a).fieldsCanonical :=
  foldl_canonical (fun _ ht _ => tallyAdd_canonical (tallyAdd_canonical (tallyAdd_canonical (tallyAdd_canonical ht)))) (tallyAdd_canonical
    (tallyAdd_canonical (tallyAdd_canonical h)))

theorem noteCycle_canonical {r layer k} (h : s.fieldsCanonical) :
    (noteCycle s r layer k).fieldsCanonical := ite_canonical h (setMem_canonical h)
theorem routeHalf_canonical {x} (h : s.fieldsCanonical) : (routeHalf s x).fieldsCanonical := by
  unfold routeHalf
  split
  · exact h
  · refine ite_canonical h ?_
    split
    · exact h
    · exact setFrame_canonical (tallyHalf_canonical (noteCycle_canonical h))

theorem combineHalf_canonical {x} (h : s.fieldsCanonical) : (combineHalf s x).fieldsCanonical := by
  unfold combineHalf
  split
  · exact h
  · exact ite_canonical h (setFrame_canonical (noteCycle_canonical h))

theorem noteRun_canonical (h : s.fieldsCanonical) : (noteRun s).fieldsCanonical := by
  unfold noteRun
  split
  · exact h
  · exact ite_canonical h (setMem_canonical h)

/-! ### Machine/Array -/

theorem noteUe_canonical {cell} (h : s.fieldsCanonical) : (noteUe s cell).fieldsCanonical := by
  unfold noteUe
  dsimp only
  split
  · exact ite_canonical (setFrame_canonical h) (setFrame_canonical h)
  · exact setFrame_canonical h

theorem arrayFault_canonical {cell k port} (h : s.fieldsCanonical) : (arrayFault s cell k port).fieldsCanonical := by
  unfold arrayFault
  exact
    have h1 := capture_canonical h
    have h2 := stampEvent_canonical (ite_canonical (countLater_canonical h1) (ite_canonical (bump_canonical h1) h1))
    raise_canonical (markFaulted_canonical (ite_canonical (noteUe_canonical h2) h2))

theorem lateWord_canonical {l} (h : s.fieldsCanonical) : (lateWord s l).fieldsCanonical :=
  markFaulted_canonical (stampEvent_canonical (bump_canonical (memEvent_canonical h)))

theorem issueAccesses_canonical {x} (h : s.fieldsCanonical) : (issueAccesses s x).fieldsCanonical := setFrame_canonical h
theorem takeOutbound_canonical {a} (h : s.fieldsCanonical) : (takeOutbound s a).fieldsCanonical := by
  unfold takeOutbound
  refine ite_canonical (setFrame_canonical h) ?_
  split
  · exact setFrame_canonical (setFrame_canonical h)
  · split
    · exact setMem_canonical (setFrame_canonical h)
    · exact setFrame_canonical h
  · exact ite_canonical (setFrame_canonical h) (ite_canonical (setSpan_canonical (setFrame_canonical h)) (setSpan_canonical
    (setFrame_canonical h)))

theorem paneCycle_canonical {x} (h : s.fieldsCanonical) : (paneCycle s x).fieldsCanonical :=
  foldl_canonical (fun _ ht _ => arrayFault_canonical ht) (setFrame_canonical (setPwr_canonical h))

theorem arrayCycle_canonical {x phase hold} (h : s.fieldsCanonical) : (arrayCycle s x phase hold).fieldsCanonical := by
  unfold arrayCycle
  exact
    have h1 := setPwr_canonical h
    have h2 := foldl_canonical (fun _ ht _ => setCell_canonical ht) (foldl_canonical (fun _ ht _ => setCell_canonical ht)
      (setFrame_canonical (ite_canonical h1 (idleCells_canonical h1))))
    have h3 := ite_canonical h2 (raise_canonical (addF_canonical h2))
    foldl_canonical (fun _ ht _ => takeOutbound_canonical ht) (setFrame_canonical (foldl_canonical (fun _ ht _ => arrayFault_canonical ht)
      (ite_canonical h3 (raise_canonical (addF_canonical h3)))))

theorem notePhase_canonical {k} (h : s.fieldsCanonical) : (notePhase s k).fieldsCanonical :=
  ite_canonical h (aimPhase_canonical (setF_canonical (setFrame_canonical h)))

theorem holdGate_canonical {x} (h : s.fieldsCanonical) : (holdGate s x).fieldsCanonical := by
  unfold holdGate
  exact
    have h1 := raise_canonical (setFrame_canonical h)
    lower_canonical (ite_canonical (requestStretch_canonical h1) h1)

theorem serveRoutes_canonical {x} (h : s.fieldsCanonical) : (serveRoutes s x).fieldsCanonical :=
  foldl_canonical (fun _ ht _ => combineHalf_canonical ht) (foldl_canonical (fun _ ht _ => routeHalf_canonical ht) h)

theorem runCycle_canonical {x} (h : s.fieldsCanonical) : (runCycle s x).fieldsCanonical := by
  unfold runCycle
  refine
    have h1 := setFrame_canonical (noteRun_canonical (foldl_canonical (fun _ ht _ => lateWord_canonical ht) (arrayCycle_canonical
      (serveRoutes_canonical (issueAccesses_canonical ?_)))))
    advanceAc_canonical (ite_canonical (leadNext_canonical (raise_canonical h1)) h1)
  split
  · exact notePhase_canonical (raise_canonical (lower_canonical (setFrame_canonical h)))
  · exact (raise_canonical (lower_canonical (setFrame_canonical h)))

theorem scheduleCycle_canonical {x} (h : s.fieldsCanonical) : (scheduleCycle x s).fieldsCanonical := by
  unfold scheduleCycle
  refine ite_canonical h ?_
  split
  · exact h
  · exact advanceAc_canonical (paneCycle_canonical h)
  · exact ite_canonical h (advanceAc_canonical (setFrame_canonical (arrayCycle_canonical h)))
  · refine ite_canonical h ?_
    split
    · exact ite_canonical (runCycle_canonical h) (advanceAc_canonical (paneCycle_canonical (holdGate_canonical h)))
    · exact runCycle_canonical h
  · refine ite_canonical h ?_
    split
    · exact ite_canonical (runCycle_canonical h) (advanceAc_canonical (paneCycle_canonical (holdGate_canonical h)))
    · exact runCycle_canonical h

theorem noteSlack_canonical {k} (h : s.fieldsCanonical) : (noteSlack s k).fieldsCanonical := by
  unfold noteSlack
  dsimp only
  refine ite_canonical h ?_
  split
  · exact ite_canonical (setSpan_canonical h) h
  · exact setSpan_canonical h

theorem spanReceiveComplete_canonical {ref} (h : s.fieldsCanonical) : (spanReceiveComplete ref s).fieldsCanonical := by
  unfold spanReceiveComplete
  split
  · exact ite_canonical h (ite_canonical (noteSlack_canonical (setSpan_canonical h)) (markFaulted_canonical (stampEvent_canonical h)))
  · exact h

theorem tickCapture_canonical (h : s.fieldsCanonical) : (tickCapture s).fieldsCanonical :=
  setF_canonical (setBool_canonical (setF_canonical (setF_canonical h)))

/-! ### Machine/LinkOps -/

theorem setTxMap_canonical {p m} (h : s.fieldsCanonical) : (setTxMap s p m).fieldsCanonical :=
  foldl_canonical (fun _ ht _ => setBool_canonical ht) (setF_canonical (setF_canonical h))

theorem setRxMap_canonical {p m} (h : s.fieldsCanonical) : (setRxMap s p m).fieldsCanonical :=
  foldl_canonical (fun _ ht _ => setBool_canonical ht) (setF_canonical (setF_canonical h))

theorem linkCapture_canonical {p cause dir lane} (h : s.fieldsCanonical) :
    (linkCapture s p cause dir lane).fieldsCanonical := capture_canonical h
theorem countWidth_canonical {p cause dir lane} (h : s.fieldsCanonical) : (countWidth s p cause dir lane).fieldsCanonical :=
  bump_canonical (raise_canonical (linkCapture_canonical h))

theorem projectSends_canonical {p w delay} (h : s.fieldsCanonical) : (projectSends s p w delay).fieldsCanonical :=
  ite_canonical (askStretch_canonical h) h

theorem showLoss_canonical {p l} (h : s.fieldsCanonical) : (showLoss s p l).fieldsCanonical := by
  unfold showLoss
  exact
    have h1 := setBool_canonical h
    ite_canonical (raise_canonical h1) h1

theorem clearLoss_canonical {p} (h : s.fieldsCanonical) : (clearLoss s p).fieldsCanonical :=
  foldl_canonical (fun _ ht _ => showLoss_canonical (setF_canonical ht)) h

theorem failBoardReqs_canonical {p pick} (h : s.fieldsCanonical) : (failBoardReqs s p pick).fieldsCanonical :=
  foldl_canonical (fun _ ht _ => bump_canonical (emit_canonical ht)) (setLink_canonical h)

theorem parentLeft_canonical {p} (h : s.fieldsCanonical) : (parentLeft s p).fieldsCanonical := by
  unfold parentLeft
  refine ite_canonical h ?_
  exact
    have h1 := ite_canonical (setSpan_canonical h) h
    ite_canonical (bump_canonical (raise_canonical h1)) h1

theorem beginTraining_canonical {p st} (h : s.fieldsCanonical) : (beginTraining s p st).fieldsCanonical :=
  setLink_canonical (setBitF_canonical (clearLoss_canonical (setRxMap_canonical (setTxMap_canonical (lower_canonical (setF_canonical h))))))

theorem enterRetrain_canonical {p} (h : s.fieldsCanonical) : (enterRetrain s p).fieldsCanonical := by
  unfold enterRetrain
  exact projectSends_canonical (parentLeft_canonical (failBoardReqs_canonical (beginTraining_canonical (bump_canonical h))))

theorem leaveUp_canonical {p cause dir lane} (h : s.fieldsCanonical) : (leaveUp s p cause dir lane).fieldsCanonical := by
  unfold leaveUp
  exact enterRetrain_canonical (stampEvent_canonical (raise_canonical (linkCapture_canonical h)))

theorem dropBuffers_canonical {p} (h : s.fieldsCanonical) : (dropBuffers s p).fieldsCanonical := setLink_canonical h
theorem enterDown_canonical {p} (h : s.fieldsCanonical) : (enterDown s p).fieldsCanonical := setLink_canonical (beginTraining_canonical h)
theorem endTest_canonical {p} (h : s.fieldsCanonical) : (endTest s p).fieldsCanonical :=
  foldl_canonical (fun _ ht _ => lower_canonical ht) (setLink_canonical h)

theorem retrainPort_canonical {p} (h : s.fieldsCanonical) : (retrainPort s p).fieldsCanonical :=
  ite_canonical h (ite_canonical (enterRetrain_canonical h) (beginTraining_canonical (bump_canonical (ite_canonical (endTest_canonical h)
    h))))

theorem notePeer_canonical {p b} (h : s.fieldsCanonical) : (notePeer s p b).fieldsCanonical :=
  setLink_canonical (raise_canonical (setF_canonical (setF_canonical (setF_canonical h))))

theorem countTrained_canonical {p q} (h : s.fieldsCanonical) : (countTrained p s q).fieldsCanonical := by
  unfold countTrained
  split
  exact setF_canonical (addF_canonical (addF_canonical (addF_canonical (addF_canonical h))))

theorem noteLanes_canonical {p r} (h : s.fieldsCanonical) : (noteLanes s p r).fieldsCanonical :=
  setLink_canonical (setF_canonical (setF_canonical (foldl_canonical (fun _ ht _ => setBool_canonical ht) h)))

theorem resumeReplay_canonical {p} (h : s.fieldsCanonical) : (resumeReplay s p).fieldsCanonical := by
  unfold resumeReplay
  dsimp only
  split
  · exact setLink_canonical h
  · exact bump_canonical (setLink_canonical h)

theorem reportLink_canonical {p kind} (h : s.fieldsCanonical) : (reportLink s p kind).fieldsCanonical := by
  unfold reportLink
  exact
    have h1 := countStamp_canonical h
    ite_canonical (toMaster_canonical h1) (ite_canonical (setSpan_canonical h1) h1)

theorem resumeDown_canonical {p} (h : s.fieldsCanonical) : (resumeDown s p).fieldsCanonical := setLink_canonical h
theorem enterUp_canonical {p b} (h : s.fieldsCanonical) : (enterUp s p b).fieldsCanonical := by
  unfold enterUp
  exact
    have h1 := setRxMap_canonical (setTxMap_canonical h)
    have h2 := resumeReplay_canonical (setLink_canonical (setBitF_canonical (raise_canonical (setF_canonical (ite_canonical
      (dropBuffers_canonical (setF_canonical h1)) (ite_canonical (resumeDown_canonical h1) h1))))))
    have h3 := stampEvent_canonical (ite_canonical (reportLink_canonical (setLink_canonical (raise_canonical h2))) h2)
    have h4 := ite_canonical (lower_canonical h3) h3
    ite_canonical (setSpan_canonical h4) h4

theorem enterWiring_canonical {p} (h : s.fieldsCanonical) : (enterWiring s p).fieldsCanonical := raise_canonical (setF_canonical h)
theorem takeAck_canonical {p a} (h : s.fieldsCanonical) : (takeAck s p a).fieldsCanonical := by
  unfold takeAck
  dsimp only
  split
  · exact h
  · exact ite_canonical h (setLink_canonical h)

theorem startReplay_canonical {p q} (h : s.fieldsCanonical) : (startReplay s p q).fieldsCanonical :=
  ite_canonical (leaveUp_canonical h) (bump_canonical (setLink_canonical h))

theorem takeNak_canonical {p q} (h : s.fieldsCanonical) : (takeNak s p q).fieldsCanonical := by
  unfold takeNak
  refine ite_canonical h ?_
  split
  · exact startReplay_canonical h
  · exact ite_canonical (startReplay_canonical h) h
  · exact ite_canonical (setLink_canonical h) h

theorem beginWidth_canonical {p m cause lane notice} (h : s.fieldsCanonical) : (beginWidth s p m cause lane notice).fieldsCanonical :=
  setLink_canonical h

theorem completeWidth_canonical {p m q cause lane} (h : s.fieldsCanonical) : (completeWidth s p m q cause lane).fieldsCanonical := by
  unfold completeWidth
  exact
    have h1 := projectSends_canonical (countWidth_canonical (setLink_canonical (setTxMap_canonical h)))
    ite_canonical h1 (startReplay_canonical h1)

theorem sendNew_canonical {p f} (h : s.fieldsCanonical) : (sendNew s p f).1.fieldsCanonical := bump_canonical (setLink_canonical h)
theorem sendBoard_canonical {p b rest} (h : s.fieldsCanonical) :
    (sendBoard s p b rest).1.fieldsCanonical := sendNew_canonical (setLink_canonical h)
theorem newFlit_canonical {p} (h : s.fieldsCanonical) : (newFlit s p).1.fieldsCanonical := by
  unfold newFlit
  refine ite_fst_canonical h ?_
  split
  · exact sendNew_canonical (setLink_canonical h)
  · split
    · exact sendBoard_canonical h
    · split
      · exact sendNew_canonical (setLink_canonical (ite_canonical h (setLink_canonical h)))
      · split
        · exact sendNew_canonical (setSpan_canonical (ite_canonical h (setLink_canonical h)))
        · split
          · exact sendBoard_canonical h
          · exact h

theorem slotFlit_canonical {p lane i} (h : s.fieldsCanonical) : (slotFlit s p lane i).1.fieldsCanonical := by
  unfold slotFlit
  split
  · exact h
  · refine ite_fst_canonical (setLink_canonical h) ?_
    split
    · exact h
    · split
      · exact bump_canonical (setLink_canonical h)
      · exact newFlit_canonical (setLink_canonical h)
    · exact newFlit_canonical h

theorem sendSlot_canonical {p lanes i} (h : s.fieldsCanonical) : (sendSlot p lanes s i).fieldsCanonical := by
  unfold sendSlot
  dsimp only
  exact
    have h1 := ite_canonical (emit_canonical h) h
    emit_canonical (ite_canonical (bump_canonical (setLink_canonical (slotFlit_canonical h1))) (slotFlit_canonical h1))

theorem serviceRound_canonical {p} (h : s.fieldsCanonical) : (serviceRound s p).fieldsCanonical := by
  unfold serviceRound
  dsimp only
  split
  · refine ite_canonical (completeWidth_canonical h) ?_
    split
    · exact setLink_canonical (setLink_canonical (foldl_canonical (fun _ ht _ => sendSlot_canonical ht) (completeWidth_canonical h)))
    · exact setLink_canonical (foldl_canonical (fun _ ht _ => sendSlot_canonical ht) (completeWidth_canonical h))
  · refine ite_canonical h ?_
    split
    · exact setLink_canonical (setLink_canonical (foldl_canonical (fun _ ht _ => sendSlot_canonical ht) h))
    · exact setLink_canonical (foldl_canonical (fun _ ht _ => sendSlot_canonical ht) h)

theorem trainRound_canonical {p} (h : s.fieldsCanonical) : (trainRound s p).fieldsCanonical :=
  foldl_canonical (fun _ ht _ => foldl_canonical (fun _ ht _ => emit_canonical ht) (emit_canonical ht)) h

theorem roundTransmit_canonical {p} (h : s.fieldsCanonical) : (roundTransmit p s).fieldsCanonical :=
  ite_canonical h (setLink_canonical (ite_canonical (serviceRound_canonical h) (trainRound_canonical h)))

theorem replayTimeout_canonical {p} (h : s.fieldsCanonical) : (replayTimeout p s).fieldsCanonical := by
  unfold replayTimeout
  dsimp only
  split
  · exact ite_canonical (startReplay_canonical h) h
  · exact h

theorem nakResendTimeout_canonical {p} (h : s.fieldsCanonical) :
    (nakResendTimeout p s).fieldsCanonical := ite_canonical (setLink_canonical h) h
theorem abortScan_canonical {p l} (h : s.fieldsCanonical) : (abortScan s p l).fieldsCanonical :=
  ite_canonical (raise_canonical (lower_canonical h)) h

theorem abortScans_canonical {p m} (h : s.fieldsCanonical) : (abortScans s p m).fieldsCanonical :=
  foldl_canonical (fun _ ht _ => abortScan_canonical ht) h

theorem dropRxLane_canonical {p l cause} (h : s.fieldsCanonical) : (dropRxLane s p l cause).fieldsCanonical := by
  unfold dropRxLane
  refine ite_canonical h ?_
  exact
    have h1 := abortScan_canonical h
    have h2 := ite_canonical (lower_canonical h1) h1
    ite_canonical (leaveUp_canonical h2) (setLink_canonical h2)

theorem dropTxLane_canonical {p l} (h : s.fieldsCanonical) : (dropTxLane s p l).fieldsCanonical :=
  ite_canonical h (ite_canonical (leaveUp_canonical h) (beginWidth_canonical h))

theorem laneDrop_canonical {p l cause} (h : s.fieldsCanonical) : (laneDrop p l cause s).fieldsCanonical :=
  ite_canonical h (ite_canonical (dropTxLane_canonical h) (ite_canonical (dropRxLane_canonical h) h))

theorem portLeaveUp_canonical {p notice} (h : s.fieldsCanonical) : (portLeaveUp p notice s).fieldsCanonical :=
  ite_canonical h (ite_canonical (leaveUp_canonical h) (ite_canonical (leaveUp_canonical h) h))

theorem retrainTimeout_canonical {p} (h : s.fieldsCanonical) : (retrainTimeout p s).fieldsCanonical :=
  ite_canonical (reportLink_canonical (enterDown_canonical h)) h

theorem downRetry_canonical {p} (h : s.fieldsCanonical) : (downRetry p s).fieldsCanonical := ite_canonical (beginTraining_canonical h) h
theorem linkTraining_canonical {p r} (h : s.fieldsCanonical) : (linkTraining p r s).fieldsCanonical := by
  unfold linkTraining
  refine ite_canonical (ite_canonical (foldl_canonical (fun _ ht _ => countTrained_canonical ht) h) ?_) ?_
  · exact
      have h1 := noteLanes_canonical (foldl_canonical (fun _ ht _ => countTrained_canonical ht) h)
      setLink_canonical (ite_canonical (setF_canonical h1) h1)
  · split
    · exact ite_canonical h (ite_canonical (enterWiring_canonical h) (ite_canonical (enterUp_canonical (setF_canonical h)) h))
    · exact h

theorem trainingTimeout_canonical {p} (h : s.fieldsCanonical) :
    (trainingTimeout p s).fieldsCanonical := ite_canonical (enterDown_canonical h) h
theorem retrainComplete_canonical {p r} (h : s.fieldsCanonical) : (retrainComplete p r s).fieldsCanonical := by
  unfold retrainComplete
  split
  · exact
      have h1 := noteLanes_canonical h
      ite_canonical (enterWiring_canonical h1) (ite_canonical h1 (enterUp_canonical h1))
  · exact h

theorem linkRetrainCmd_canonical {p} (h : s.fieldsCanonical) :
    (linkRetrainCmd p s).fieldsCanonical := ite_canonical (retrainPort_canonical h) h
theorem linkTestEnter_canonical {p} (h : s.fieldsCanonical) : (linkTestEnter p s).fieldsCanonical := by
  unfold linkTestEnter
  refine ite_canonical h ?_
  exact
    have h1 := raise_canonical h
    ite_canonical (beginTraining_canonical (ite_canonical (parentLeft_canonical (failBoardReqs_canonical h1)) h1)) h1

theorem linkTestLeave_canonical {p} (h : s.fieldsCanonical) : (linkTestLeave p s).fieldsCanonical := by
  unfold linkTestLeave
  refine ite_canonical h (ite_canonical ?_ (lower_canonical h))
  exact
    have h1 := endTest_canonical (lower_canonical h)
    ite_canonical (beginTraining_canonical (bump_canonical h1)) (setF_canonical h1)

theorem prbsCheckerLock_canonical {p l rx} (h : s.fieldsCanonical) : (prbsCheckerLock p l rx s).fieldsCanonical := by
  unfold prbsCheckerLock
  dsimp only
  exact ite_canonical h (addF_canonical (setF_canonical (setBool_canonical (setLink_canonical (ite_canonical (emit_canonical h) h)))))

theorem lossBase_canonical {p} (h : s.fieldsCanonical) : (lossBase p s).fieldsCanonical :=
  ite_canonical h (foldl_canonical (fun _ ht _ => showLoss_canonical (setF_canonical ht)) h)

theorem lossEstimateUpdate_canonical {p l est} (h : s.fieldsCanonical) : (lossEstimateUpdate p l est s).fieldsCanonical :=
  ite_canonical h (showLoss_canonical (setF_canonical h))

theorem linkCountClear_canonical {p eye lane port} (h : s.fieldsCanonical) : (linkCountClear p eye lane port s).fieldsCanonical := by
  unfold linkCountClear
  refine ite_canonical h ?_
  exact
    have h1 := ite_canonical (foldl_canonical (fun _ ht _ => setF_canonical ht) h) h
    have h2 := ite_canonical (foldl_canonical (fun _ ht _ => setF_canonical ht) h1) h1
    ite_canonical (foldl_canonical (fun _ ht _ => setF_canonical ht) h2) h2

theorem eyeScanStart_canonical {p l} (h : s.fieldsCanonical) : (eyeScanStart p l s).fieldsCanonical :=
  ite_canonical h (raise_canonical (lower_canonical (lower_canonical h)))

theorem eyeScanDone_canonical {p l eyes} (h : s.fieldsCanonical) : (eyeScanDone p l eyes s).fieldsCanonical := by
  unfold eyeScanDone
  refine ite_canonical h ?_
  split
  · exact abortScan_canonical h
  · exact setF_canonical (setF_canonical (setF_canonical (setF_canonical (setF_canonical (setF_canonical (setF_canonical (setF_canonical
    (setF_canonical (setF_canonical (setF_canonical (setF_canonical (raise_canonical (lower_canonical h)))))))))))))

theorem syncExchange_canonical {p} (h : s.fieldsCanonical) : (syncExchange p s).fieldsCanonical := ite_canonical (setLink_canonical h) h
theorem noteOffset_canonical {off} (h : s.fieldsCanonical) : (noteOffset s off).fieldsCanonical := by
  unfold noteOffset
  exact
    have h1 := setSpan_canonical (setF_canonical h)
    ite_canonical (alignLoss_canonical h1) (ite_canonical (eventToMaster_canonical (raise_canonical h1)) h1)

theorem syncReceive_canonical {p m arrival} (h : s.fieldsCanonical) : (syncReceive p m arrival s).fieldsCanonical := by
  unfold syncReceive
  refine ite_canonical h (ite_canonical (bump_canonical (setLink_canonical h)) (ite_canonical ?_ (setLink_canonical h)))
  exact
    have h1 := setSpan_canonical (setLink_canonical h)
    ite_canonical h1 (noteOffset_canonical h1)

/-! ### Machine/RegAccess -/

theorem fieldSet_canonical {f delta v} (h : s.fieldsCanonical) : (fieldSet s f delta v).fieldsCanonical := by
  exact Laws.smapWf_set _ _ h

theorem loadImageReg_canonical {off v} (h : s.fieldsCanonical) : (loadImageReg s off v).fieldsCanonical := by
  unfold loadImageReg
  split
  · exact foldl_canonical (fun _ ht _ => ite_canonical (fieldSet_canonical ht) ht) h
  · exact h

/-! ### Machine/Tickets -/

theorem setStw_canonical {x} (h : s.fieldsCanonical) : (setStw s x).fieldsCanonical := update_canonical h
theorem showHolds_canonical (h : s.fieldsCanonical) : (showHolds s).fieldsCanonical :=
  foldl_canonical (fun _ ht _ => setF_canonical ht) (setF_canonical h)

theorem freshTickets_canonical (h : s.fieldsCanonical) : (freshTickets s).fieldsCanonical :=
  showHolds_canonical (setStw_canonical (setF_canonical (setF_canonical (lower_canonical h))))

theorem startCount_canonical {n} (h : s.fieldsCanonical) : (startCount s n).fieldsCanonical := setStw_canonical h
theorem respond_canonical {r q z} (h : s.fieldsCanonical) : (respond r q z s).fieldsCanonical := by
  unfold respond
  refine emit_canonical (ite_canonical ?_ h)
  exact
    have h1 := bump_canonical (raise_canonical h)
    ite_canonical h1 (bump_canonical h1)

theorem answerWaiting_canonical {result} (h : s.fieldsCanonical) : (answerWaiting s result).fieldsCanonical := by
  unfold answerWaiting
  refine foldl_canonical (fun _ ht _ => ?_) (setStw_canonical h)
  split
  · exact respond_canonical ht
  · exact ht

theorem batchOpen_canonical {kind count} (h : s.fieldsCanonical) : (batchOpen kind count s).fieldsCanonical := by
  unfold batchOpen
  refine ite_canonical h ?_
  exact
    have h1 := ite_canonical h (setF_canonical h)
    have h2 := ite_canonical h1 (setF_canonical h1)
    ite_canonical h2 (showHolds_canonical (setStw_canonical (setF_canonical (setF_canonical (foldl_canonical (fun _ ht _ => lower_canonical
      ht) (raise_canonical h2))))))

theorem ticketGrant_canonical {n} (h : s.fieldsCanonical) : (ticketGrant s n).2.fieldsCanonical := by
  unfold ticketGrant
  refine ite_snd_canonical h ?_
  split
  refine showHolds_canonical ?_
  split
  · exact setStw_canonical h
  · exact setStw_canonical (setF_canonical h)
  · exact h

theorem ticketRead_canonical {n} (h : s.fieldsCanonical) : (ticketRead n s).fieldsCanonical := by
  unfold ticketRead
  dsimp only
  exact ite_canonical h (emit_canonical (ticketGrant_canonical h))

theorem ticketPeek_canonical {r} (h : s.fieldsCanonical) : (ticketPeek r s).fieldsCanonical := emit_canonical h
theorem commitResult_canonical {n y won} (h : s.fieldsCanonical) : (commitResult s n y won).fieldsCanonical :=
  setF_canonical (setBool_canonical (raise_canonical h))

theorem closeBatch_canonical (h : s.fieldsCanonical) : (closeBatch s).fieldsCanonical :=
  ite_canonical h (setStw_canonical (bump_canonical (raise_canonical (lower_canonical h))))

theorem tileCommit_canonical {n y} (h : s.fieldsCanonical) : (tileCommit n y s).fieldsCanonical :=
  ite_canonical h (ite_canonical (showHolds_canonical (closeBatch_canonical (setF_canonical (bump_canonical (commitResult_canonical
    (setStw_canonical h)))))) (bump_canonical (raise_canonical (commitResult_canonical h))))

/-! ### Machine/StoreBlocks -/

theorem setCatalogue_canonical {c} (h : s.fieldsCanonical) : (setCatalogue s c).fieldsCanonical := setMem_canonical h
theorem placeBlocks_canonical {more need} (h : s.fieldsCanonical) : (placeBlocks s more need).2.fieldsCanonical := by
  unfold placeBlocks
  dsimp only
  exact freeVal_canonical h

theorem writeBlock_canonical {at_ model epoch plain} (h : s.fieldsCanonical) : (writeBlock s at_ model epoch plain).fieldsCanonical :=
  emit_canonical h

theorem writeBlocks_canonical {i r bytes} (h : s.fieldsCanonical) : (writeBlocks s i r bytes).fieldsCanonical :=
  foldl_canonical (fun _ ht _ => writeBlock_canonical ht) h

theorem beginSession_canonical (h : s.fieldsCanonical) : (beginSession s).fieldsCanonical :=
  nvmeIo_canonical (writeBlock_canonical (setCatalogue_canonical h))

theorem closeWrites_canonical (h : s.fieldsCanonical) : (closeWrites s).fieldsCanonical := by
  unfold closeWrites
  dsimp only
  refine foldl_canonical (fun _ ht _ => nvmeIo_canonical ht) ?_
  split
  · exact placeBlocks_canonical h
  · exact writeBlock_canonical (setCatalogue_canonical (placeBlocks_canonical h))

/-! ### Machine/Weights -/

theorem setWgt_canonical {w} (h : s.fieldsCanonical) : (setWgt s w).fieldsCanonical := update_canonical h
theorem setResult_canonical {r} (h : s.fieldsCanonical) : (setResult s r).fieldsCanonical := setWgt_canonical h
theorem startWgt_canonical {op} (h : s.fieldsCanonical) :
    (startWgt op s).fieldsCanonical := ite_canonical h (setWgt_canonical (raise_canonical h))
theorem wgtCmdEnd_canonical (h : s.fieldsCanonical) : (wgtCmdEnd s).fieldsCanonical := by
  unfold wgtCmdEnd
  split
  · refine ite_canonical h ?_
    exact
      have h1 := raise_canonical (setF_canonical (setF_canonical (lower_canonical h)))
      setWgt_canonical (ite_canonical h1 (raise_canonical h1))
  · exact h

theorem wgtEvent_canonical {bit kind model epoch shard} (h : s.fieldsCanonical) : (wgtEvent s bit kind model epoch shard).fieldsCanonical :=
  raise_canonical (capture_canonical h)

theorem ingestShard_canonical {rd m x k i} (h : x.2.fieldsCanonical) : (ingestShard rd m x k i).2.2.2.fieldsCanonical := by
  unfold ingestShard
  dsimp only
  split
  · refine ite_snd3_canonical h (bump_canonical (writeBlocks_canonical (placeBlocks_canonical ?_)))
    exact ite_canonical h (beginSession_canonical h)
  · exact ite_snd3_canonical (bump_canonical (memEvent_canonical h)) h
  · exact h

theorem ingestShards_canonical {rd m k l x} (h : x.2.fieldsCanonical) : (ingestShards rd m k l x).2.2.2.fieldsCanonical := by
  induction l generalizing m k x with
  | nil => exact h
  | cons i l ih =>
    unfold ingestShards
    have h1 : (ingestShard rd m x k i).2.2.2.fieldsCanonical := ingestShard_canonical h
    split
    · next e =>
        rw [e] at h1
        exact ih h1
    · next e =>
        rw [e] at h1
        exact h1

theorem createEntry_canonical {r active} (h : s.fieldsCanonical) : (createEntry s r active).fieldsCanonical := by
  unfold createEntry
  dsimp only
  split
  · exact setMem_canonical (freeVal_canonical h)
  · exact h

theorem register_canonical {m} (h : s.fieldsCanonical) : (register s m).fieldsCanonical := by
  unfold register
  exact
    have h1 := createEntry_canonical (closeWrites_canonical (setCatalogue_canonical h))
    bump_canonical (ite_canonical (bump_canonical (raise_canonical (setMem_canonical h1))) h1)

theorem ingest_canonical {image} (h : s.fieldsCanonical) : (ingest image s).fieldsCanonical := by
  unfold ingest
  dsimp only
  have h1 : (setF s F.WGT_ING_PROG 0).fieldsCanonical := setF_canonical h
  refine ite_canonical h (ite_canonical (setResult_canonical h1) (ite_canonical (setResult_canonical h1)
    (ite_canonical (setResult_canonical h1) (ite_canonical (setResult_canonical h1) ?_))))
  split
  · exact setResult_canonical h1
  · have h2 : (ingestShards (listReader image) (manifestOf (listReader image)) 0 (manifestOf (listReader image)).ep.shards
        (false, setF s F.WGT_ING_PROG 0)).2.2.2.fieldsCanonical := ingestShards_canonical h1
    split
    · next e =>
        rw [e] at h2
        exact setResult_canonical (register_canonical (ite_canonical h2 (beginSession_canonical h2)))
    · next e =>
        rw [e] at h2
        exact setResult_canonical h2

theorem dropStage_canonical {model epoch} (h : s.fieldsCanonical) : (dropStage s model epoch).fieldsCanonical :=
  ite_canonical (unpin_canonical (setMem_canonical h)) h

theorem retire_canonical (h : s.fieldsCanonical) : (retire s).fieldsCanonical := by
  unfold retire
  refine ite_canonical h (ite_canonical (setResult_canonical h) ?_)
  split
  · exact setResult_canonical h
  · exact ite_canonical (setResult_canonical h) (setResult_canonical (bump_canonical (retryPending_canonical (setMem_canonical
    (endJob_canonical (closeWrites_canonical (setCatalogue_canonical (beginSession_canonical (dropStage_canonical h)))))))))

theorem switchNow_canonical {model epoch} (h : s.fieldsCanonical) : (switchNow s model epoch).fieldsCanonical :=
  bump_canonical (raise_canonical (setMem_canonical h))

theorem switchLater_canonical {model epoch old} (h : s.fieldsCanonical) : (switchLater s model epoch old).fieldsCanonical :=
  bump_canonical (setF_canonical (raise_canonical (setWgt_canonical (setMem_canonical (setMem_canonical h)))))

theorem keepTransom_canonical {model epoch} (h : s.fieldsCanonical) : (keepTransom s model epoch).fieldsCanonical :=
  ite_canonical h (closeWrites_canonical (setCatalogue_canonical (beginSession_canonical h)))

theorem switch_canonical {resident} (h : s.fieldsCanonical) : (switch resident s).fieldsCanonical := by
  unfold switch
  refine ite_canonical h (ite_canonical (setResult_canonical h) ?_)
  split
  · exact setResult_canonical h
  · refine ite_canonical (setResult_canonical h) ?_
    split
    · exact setResult_canonical h
    · refine ite_canonical (ite_canonical (setResult_canonical (announceChange_canonical h)) (setResult_canonical h)) ?_
      split
      exact ite_canonical (setResult_canonical (keepTransom_canonical (dropStage_canonical (switchNow_canonical h)))) (ite_canonical
        (setResult_canonical (keepTransom_canonical (dropStage_canonical (switchLater_canonical h)))) (setResult_canonical h))

theorem stage_canonical (h : s.fieldsCanonical) : (stage s).fieldsCanonical := by
  unfold stage
  dsimp only
  refine ite_canonical h (ite_canonical (setResult_canonical h) ?_)
  split
  · exact setResult_canonical h
  · refine ite_canonical (setResult_canonical h) (ite_canonical (setResult_canonical h) (ite_canonical (setResult_canonical h) ?_))
    exact
      have h1 := setMem_canonical h
      ite_canonical (setResult_canonical h1) (ite_canonical (setResult_canonical (announceChange_canonical h1)) (ite_canonical
        (setResult_canonical (queueFetch_canonical (reserveEpoch_canonical h1))) (setResult_canonical (dropStage_canonical
        (reserveEpoch_canonical h1)))))

theorem unstage_canonical (h : s.fieldsCanonical) : (unstage s).fieldsCanonical := by
  unfold unstage
  refine ite_canonical h (ite_canonical (setResult_canonical h) ?_)
  split
  · exact setResult_canonical h
  · exact setResult_canonical (dropStage_canonical h)

theorem query_canonical (h : s.fieldsCanonical) : (query s).fieldsCanonical :=
  ite_canonical h (setResult_canonical (setF_canonical (setBool_canonical (setBool_canonical (setF_canonical (setF_canonical
    (setF_canonical (setWgt_canonical h))))))))

/-! ### Machine/Tiers -/

theorem loadFail_canonical {shard} (h : s.fieldsCanonical) : (loadFail s shard).fieldsCanonical := by
  unfold loadFail
  split
  · exact dropStage_canonical (setMem_canonical (lower_canonical (setSpan_canonical (wgtEvent_canonical h))))
  · exact h

theorem endLoadFailed_canonical {shard unusable cause?} (h : s.fieldsCanonical) :
    (endLoadFailed s shard unusable cause?).fieldsCanonical := by
  unfold endLoadFailed
  split
  · refine
      have h1 := loadFail_canonical (ite_canonical (eventToMaster_canonical h) ?_)
      ite_canonical (markUnusable_canonical h1) h1
    exact
      have h2 := ite_canonical (eventToAll_canonical h) h
      ite_canonical h2 (announceChange_canonical h2)
  · exact h

theorem noteLoadReport_canonical {ord shard v unusable cause?} (h : s.fieldsCanonical) :
    (noteLoadReport s ord shard v unusable cause?).fieldsCanonical := by
  unfold noteLoadReport
  split
  · exact h
  · split
    · exact h
    · refine ite_canonical (ite_canonical (ite_canonical (endLoadFailed_canonical h) (ite_canonical (markUnusable_canonical
      (loadFail_canonical h)) h)) ?_) (ite_canonical ?_ h)
      · exact
          have h1 := setSpan_canonical h
          ite_canonical (bump_canonical h1) h1
      · exact
          have h2 := setSpan_canonical h
          ite_canonical (announceChange_canonical h2) h2

theorem loadReport_canonical {shard v unusable} (h : s.fieldsCanonical) : (loadReport s shard v unusable).fieldsCanonical :=
  ite_canonical (noteLoadReport_canonical (eventToAll_canonical h)) (noteLoadReport_canonical (eventToMaster_canonical h))

theorem defective_canonical {model epoch i bulk off} (h : s.fieldsCanonical) : (defective s model epoch i bulk off).fieldsCanonical := by
  unfold defective
  exact
    have h1 := bump_canonical (memEvent_canonical h)
    ite_canonical (refetchFromStore_canonical h1) (markUnusable_canonical (missFetch_canonical h1))

theorem copyToBulk_canonical {model epoch k i bytes} (h : s.fieldsCanonical) : (copyToBulk s model epoch k i bytes).fieldsCanonical := by
  unfold copyToBulk
  split
  · next e =>
      have h1 := reserveBulk_canonical h e
      split
      · exact setMem_canonical (setMem_canonical h1)
      · exact h1
  · exact h

theorem fillNear_canonical {i out} (h : s.fieldsCanonical) : (fillNear s i out).fieldsCanonical := setMem_canonical h
theorem landShard_canonical {model epoch k i bulk bytes} (h : s.fieldsCanonical) :
    (landShard s model epoch k i bulk bytes).fieldsCanonical := by
  unfold landShard
  dsimp only
  split
  · exact defective_canonical h
  · refine ite_canonical (defective_canonical (bump_canonical (wgtEvent_canonical (fillNear_canonical h)))) ?_
    exact
      have h1 := setMem_canonical (fillNear_canonical h)
      ite_canonical h1 (copyToBulk_canonical h1)

theorem storeFailed_canonical {ctrl lba model epoch} (h : s.fieldsCanonical) : (storeFailed s ctrl lba model epoch).fieldsCanonical := by
  unfold storeFailed
  dsimp only
  split
  · exact
      have h1 := missFetch_canonical (setMem_canonical (bump_canonical (memEvent_canonical h)))
      ite_canonical h1 (abandonFetch_canonical h1)
  · exact markUnusable_canonical (endLoadFailed_canonical (setMem_canonical (bump_canonical (memEvent_canonical h))))

theorem shardWritten_canonical {model epoch k bytes} (h : s.fieldsCanonical) : (shardWritten model epoch k bytes s).fieldsCanonical := by
  unfold shardWritten
  split
  · refine ite_canonical h ?_
    split
    · exact ite_canonical (missFetch_canonical h) h
    · split
      · exact storeFailed_canonical h
      · exact landShard_canonical h
      · exact landShard_canonical h
  · exact h

theorem digestComplete_canonical {model epoch k} (h : s.fieldsCanonical) : (digestComplete model epoch k s).fieldsCanonical := by
  unfold digestComplete
  dsimp only
  split
  · exact h
  · split
    · exact h
    · refine ite_canonical h (ite_canonical (setMem_canonical h) ?_)
      split
      · exact ite_canonical (markUnusable_canonical (loadFail_canonical (loadReport_canonical (setMem_canonical (bump_canonical
        (wgtEvent_canonical h)))))) (loadReport_canonical (setSpan_canonical (setMem_canonical (bump_canonical (wgtEvent_canonical h)))))
      · exact ite_canonical (refetchFromStore_canonical (setMem_canonical (bump_canonical (wgtEvent_canonical h)))) (markUnusable_canonical
        (missFetch_canonical (setMem_canonical (bump_canonical (wgtEvent_canonical h)))))

theorem fetchComplete_canonical {model epoch} (h : s.fieldsCanonical) : (fetchComplete model epoch s).fieldsCanonical := by
  unfold fetchComplete
  split
  · exact ite_canonical h (endJob_canonical (bump_canonical (setMem_canonical h)))
  · exact h

theorem fetchBoundExpiry_canonical {model epoch} (h : s.fieldsCanonical) : (fetchBoundExpiry model epoch s).fieldsCanonical :=
  ite_canonical (missFetch_canonical h) h

theorem tagFailed_canonical {ctrl lba model epoch} (h : s.fieldsCanonical) : (tagFailed s ctrl lba model epoch).fieldsCanonical := by
  unfold tagFailed
  exact
    have h1 := bump_canonical (memEvent_canonical h)
    markUnusable_canonical (ite_canonical (missFetch_canonical h1) (endLoadFailed_canonical h1))

theorem dropRetry_canonical {ctrl lba} (h : s.fieldsCanonical) : (dropRetry s ctrl lba).fieldsCanonical := setMem_canonical h
theorem storeReadComplete_canonical {ctrl lba model epoch z} (h : s.fieldsCanonical) :
    (storeReadComplete ctrl lba model epoch z s).fieldsCanonical := by
  unfold storeReadComplete
  refine ite_canonical h ?_
  split
  · exact dropRetry_canonical h
  · exact ite_canonical (storeFailed_canonical (dropRetry_canonical h)) (nvmeIo_canonical (setMem_canonical (dropRetry_canonical h)))
  · exact ite_canonical (tagFailed_canonical (dropRetry_canonical h)) (nvmeIo_canonical (setMem_canonical (dropRetry_canonical h)))

theorem storeReadTimeout_canonical {ctrl lba model epoch} (h : s.fieldsCanonical) :
    (storeReadTimeout ctrl lba model epoch s).fieldsCanonical :=
  ite_canonical h (storeReadComplete_canonical (emit_canonical h))

theorem storeControllerDrop_canonical {ctrl} (h : s.fieldsCanonical) : (storeControllerDrop ctrl s).fieldsCanonical := by
  unfold storeControllerDrop
  refine foldl_canonical (fun _ ht _ => ?_) (setBool_canonical (setBitF_canonical h))
  split
  · exact storeFailed_canonical ht
  · exact ht

theorem logPagePoll_canonical (h : s.fieldsCanonical) : (logPagePoll s).fieldsCanonical :=
  foldl_canonical (fun _ ht _ => emit_canonical (emit_canonical ht)) h

theorem requeueFetch_canonical {model epoch} (h : s.fieldsCanonical) : (requeueFetch s model epoch).fieldsCanonical := by
  unfold requeueFetch
  dsimp only
  split
  · exact
      have h1 := endJob_canonical h
      ite_canonical (queueFetch_canonical h1) (ite_canonical (queueFetch_canonical (reserveEpoch_canonical h1)) (failWhere_canonical
        (setMem_canonical (reserveEpoch_canonical h1))))
  · exact h

theorem loseEpoch_canonical {r} (h : s.fieldsCanonical) : (loseEpoch s r).fieldsCanonical := by
  unfold loseEpoch
  dsimp only
  refine ite_canonical (failWhere_canonical ?_) (requeueFetch_canonical ?_)
  all_goals
    split
    · exact ite_canonical (endLoadFailed_canonical (setMem_canonical h)) (setMem_canonical h)
    · exact setMem_canonical h

theorem loseRegion_canonical {g} (h : s.fieldsCanonical) : (loseRegion s g).fieldsCanonical := by
  unfold loseRegion
  split
  · exact failWhere_canonical (setMem_canonical h)
  · exact breakStream_canonical (setMem_canonical h)

theorem loseStack_canonical {n die addr} (h : s.fieldsCanonical) : (loseStack s n die addr).fieldsCanonical := by
  unfold loseStack
  refine ite_canonical h ?_
  exact
    have h1 := setMem_canonical (foldl_canonical (fun _ ht _ => loseRegion_canonical ht) (foldl_canonical (fun _ ht _ =>
      loseEpoch_canonical ht) (setBitF_canonical (stampEvent_canonical (memEvent_canonical h)))))
    have h2 := ite_canonical (markFaulted_canonical h1) h1
    ite_canonical (raise_canonical h2) h2

theorem countNearCe_canonical {n} (h : s.fieldsCanonical) : (countNearCe s n).fieldsCanonical :=
  ite_canonical h (addF_canonical (memEvent_canonical h))

theorem countBulkCe_canonical {n} (h : s.fieldsCanonical) : (countBulkCe s n).fieldsCanonical :=
  ite_canonical h (addF_canonical (memEvent_canonical h))

theorem nearReadUncorrectable_canonical {n addr errs onDie} (h : s.fieldsCanonical) :
    (nearReadUncorrectable n addr errs onDie s).fieldsCanonical := by
  unfold nearReadUncorrectable
  refine ite_canonical h (ite_canonical (countNearCe_canonical (countNearCe_canonical h)) ?_)
  split
  · exact stampEvent_canonical (memEvent_canonical (setF_canonical (setBitF_canonical (countNearCe_canonical h))))
  · exact loseStack_canonical (countNearCe_canonical h)

theorem nearStackLoss_canonical {n} (h : s.fieldsCanonical) : (nearStackLoss n s).fieldsCanonical := loseStack_canonical h
theorem loseSide_canonical {side addr} (h : s.fieldsCanonical) : (loseSide s side addr).fieldsCanonical :=
  ite_canonical h (setMem_canonical (foldl_canonical (fun _ ht _ => ite_canonical (refetchFromStore_canonical ht) (setMem_canonical ht))
    (stampEvent_canonical (memEvent_canonical (setF_canonical (setBitF_canonical h))))))

theorem bulkReadUncorrectable_canonical {side addr group rank errs} (h : s.fieldsCanonical) :
    (bulkReadUncorrectable side addr group rank errs s).fieldsCanonical := by
  unfold bulkReadUncorrectable
  refine ite_canonical h (ite_canonical (countBulkCe_canonical h) ?_)
  split
  · exact ite_canonical (loseSide_canonical h) (stampEvent_canonical (memEvent_canonical (setF_canonical (setBitF_canonical h))))
  · exact loseSide_canonical h

theorem bulkSideLoss_canonical {side} (h : s.fieldsCanonical) :
    (bulkSideLoss side s).fieldsCanonical := ite_canonical h (loseSide_canonical h)
theorem patrolScrub_canonical {nearCe bulkCe} (h : s.fieldsCanonical) : (patrolScrub nearCe bulkCe s).fieldsCanonical :=
  countBulkCe_canonical (countNearCe_canonical h)

theorem forgetContent_canonical {model epoch} (h : s.fieldsCanonical) : (forgetContent s model epoch).fieldsCanonical := by
  unfold forgetContent
  exact
    have h1 := foldl_canonical (fun _ ht _ =>
      have h1 := ite_canonical (setCasement_canonical ht) ht
      ite_canonical (setPane_canonical h1) h1) h
    updateReady_canonical (ite_canonical (dropFlipped_canonical h1) h1)

theorem refetchPinned_canonical {model epoch} (h : s.fieldsCanonical) : (refetchPinned s model epoch).fieldsCanonical := by
  unfold refetchPinned
  dsimp only
  exact ite_canonical h (ite_canonical (failWhere_canonical (reserveEpoch_canonical h)) (failWhere_canonical (setMem_canonical
    (queueFetch_canonical (reserveEpoch_canonical h)))))

theorem scrubMismatch_canonical {steward model epoch k} (h : s.fieldsCanonical) :
    (scrubMismatch s steward model epoch k).fieldsCanonical := by
  unfold scrubMismatch
  exact
    have h1 := forgetContent_canonical (setMem_canonical (setMem_canonical (bump_canonical (wgtEvent_canonical (stampEvent_canonical h)))))
    refetchPinned_canonical (ite_canonical (markFaulted_canonical h1) h1)

theorem scrubTile_canonical {steward model epoch k bad} (h : s.fieldsCanonical) :
    (scrubTile steward model epoch k bad s).fieldsCanonical := by
  unfold scrubTile
  split
  · exact h
  · split
    · exact h
    · refine ite_canonical h (ite_canonical (scrubMismatch_canonical (bump_canonical h)) ?_)
      exact
        have h1 := setMem_canonical (bump_canonical h)
        ite_canonical (setMem_canonical (setF_canonical h1)) h1

theorem digestScrubTile_canonical {steward y model epoch k bad} (h : s.fieldsCanonical) :
    (digestScrubTile steward y model epoch k bad s).fieldsCanonical := by
  unfold digestScrubTile
  exact
    have h1 := tileCommit_canonical h
    ite_canonical (scrubTile_canonical h1) h1

theorem decompEngineFail_canonical {n} (h : s.fieldsCanonical) : (decompEngineFail n s).fieldsCanonical := setBitF_canonical h

/-! ### Machine/Modes -/

theorem deny_canonical {a r} (h : s.fieldsCanonical) :
    (deny s a r).fieldsCanonical := bump_canonical (raise_canonical (capture_canonical h))
theorem loadRegs_canonical {all l} (h : s.fieldsCanonical) : (loadRegs all l s).fieldsCanonical :=
  foldl_canonical (fun _ ht _ => ite_canonical (loadImageReg_canonical ht) ht) h

theorem resizeRegions_canonical (h : s.fieldsCanonical) : (resizeRegions s).fieldsCanonical := by
  unfold resizeRegions
  refine foldl_canonical (fun _ ht _ => ?_) h
  split
  · exact ite_canonical ht (setMem_canonical ht)
  · exact ht

theorem clearSettings_canonical (h : s.fieldsCanonical) : (clearSettings s).fieldsCanonical :=
  foldl_canonical (fun _ ht _ => ite_canonical (foldl_canonical (fun _ ht _ => fieldSet_canonical ht) ht) ht) h

theorem settleSpan_canonical (h : s.fieldsCanonical) : (settleSpan s).fieldsCanonical := by
  unfold settleSpan
  exact
    have h1 := setBool_canonical (setBool_canonical h)
    ite_canonical (raise_canonical h1) h1

theorem applyMode_canonical {all mode} (h : s.fieldsCanonical) : (applyMode all mode s).fieldsCanonical := by
  unfold applyMode
  refine settleSpan_canonical (setF_canonical (setF_canonical (setBool_canonical ?_)))
  split
  · exact resizeRegions_canonical (loadPlan_canonical (setSpan_canonical (loadRegs_canonical (loadRegs_canonical (ite_canonical h
    (clearSettings_canonical h))))))
  · exact resizeRegions_canonical (loadPlan_canonical (setSpan_canonical (loadRegs_canonical (loadRegs_canonical (ite_canonical h
    (clearSettings_canonical h))))))

theorem pendMode_canonical {target asked cause?} (h : s.fieldsCanonical) : (pendMode s target asked cause?).fieldsCanonical := by
  unfold pendMode
  exact
    have h1 := setFrame_canonical (stampCaused_canonical (setF_canonical (raise_canonical h)))
    ite_canonical h1 (raise_canonical h1)

theorem modeRequest_canonical {target r} (h : s.fieldsCanonical) : (modeRequest target r s).fieldsCanonical := by
  unfold modeRequest
  split
  · exact setF_canonical (raise_canonical (ite_canonical (deny_canonical h) h))
  · exact
      have h1 := pendMode_canonical h
      ite_canonical (setFrame_canonical h1) (announceMode_canonical h1)

theorem discardExcluded_canonical {mode} (h : s.fieldsCanonical) : (discardExcluded s mode).fieldsCanonical := by
  unfold discardExcluded
  exact
    have h1 := ite_canonical (clearLens_canonical (setCasement_canonical h)) h
    dropExcluded_canonical (ite_canonical (clearLoaded_canonical (setPane_canonical h1)) h1)

theorem recheckPlan_canonical (h : s.fieldsCanonical) : (recheckPlan s).fieldsCanonical := by
  unfold recheckPlan
  refine renewNaming_canonical (foldl_canonical (fun _ ht _ => ?_) h)
  exact
    have h1 := setMem_canonical (foldl_canonical (fun _ ht _ => rejectConfig_canonical ht) ht)
    ite_canonical h1 (markUnusable_canonical h1)

theorem freshSpan_canonical (h : s.fieldsCanonical) : (freshSpan s).fieldsCanonical :=
  setSpan_canonical (setBool_canonical (lower_canonical (lower_canonical (foldl_canonical (fun _ ht _ => setF_canonical ht) h))))

theorem modeChangeApply_canonical (h : s.fieldsCanonical) : (modeChangeApply s).fieldsCanonical := by
  unfold modeChangeApply
  refine ite_canonical h ?_
  exact
    have h1 := applyMode_canonical h
    have h2 := lower_canonical (recheckPlan_canonical (rebasePlan_canonical (discardExcluded_canonical (failInfeasible_canonical
      (setF_canonical (foldl_canonical (fun _ ht _ => retrainPort_canonical ht) (ite_canonical h1 (freshSpan_canonical h1))))))))
    planPoints_canonical (showCap_canonical (bootCap_canonical (stampEvent_canonical (setF_canonical (raise_canonical (ite_canonical h2
      (setF_canonical h2)))))))

/-! ### Machine/Span -/

theorem hearMaster_canonical {m} (h : s.fieldsCanonical) : (hearMaster s m).fieldsCanonical := ite_canonical (setSpan_canonical h) h
theorem takeMsg_canonical {m} (h : s.fieldsCanonical) : (takeMsg s m).fieldsCanonical :=
  hearMaster_canonical (ite_canonical (setSpan_canonical h) (bump_canonical h))

theorem stretchReq_canonical {m} (h : s.fieldsCanonical) : (stretchReq m s).fieldsCanonical :=
  ite_canonical h (acceptStretch_canonical (takeMsg_canonical h))

theorem stretchGrant_canonical {m} (h : s.fieldsCanonical) : (stretchGrant m s).fieldsCanonical :=
  ite_canonical h (takeGrant_canonical (takeMsg_canonical h))

theorem breakStreams_canonical {c l cause?} (h : s.fieldsCanonical) : (breakStreams s c l cause?).fieldsCanonical :=
  foldl_canonical (fun _ ht _ => breakStream_canonical ht) h

theorem skipCurrent_canonical {again} (h : s.fieldsCanonical) : (skipCurrent s again).fieldsCanonical := by
  unfold skipCurrent
  split
  · exact
      have h1 := setSpan_canonical (update_canonical h)
      ite_canonical (markFaulted_canonical (setFrame_canonical (setSpan_canonical h1))) h1
  · exact h

theorem replayOrFail_canonical {c f skipped alone fail cause?} (h : s.fieldsCanonical) :
    (replayOrFail s c f skipped alone fail cause?).fieldsCanonical := by
  unfold replayOrFail
  exact
    have h1 := setSpan_canonical h
    ite_canonical (replayFail_canonical (endWaiting_canonical h1)) (ite_canonical (setFrame_canonical (endWaiting_canonical h1))
      (ite_canonical (showEmpty_canonical (openLive_canonical h1)) (setFrame_canonical (endWaiting_canonical h1))))

theorem showDecision_canonical {f kind n c} (h : s.fieldsCanonical) : (showDecision s f kind n c).fieldsCanonical :=
  raise_canonical (setF_canonical (setF_canonical (setF_canonical (setF_canonical h))))

theorem countLateGuard_canonical {late} (h : s.fieldsCanonical) : (countLateGuard s late).fieldsCanonical :=
  ite_canonical (bump_canonical (raise_canonical h)) h

theorem applyDecision_canonical {f kind skipped c split cause?} (h : s.fieldsCanonical) :
    (applyDecision s f kind skipped c split cause?).fieldsCanonical := by
  unfold applyDecision
  refine ite_canonical ?_ (ite_canonical (ite_canonical (replayOrFail_canonical (bump_canonical (showDecision_canonical
    (countLateGuard_canonical h)))) (ite_canonical ?_ (bump_canonical (showDecision_canonical (countLateGuard_canonical h)))))
    (ite_canonical ?_ (ite_canonical (breakStreams_canonical (setSpan_canonical (showDecision_canonical (countLateGuard_canonical h))))
    ?_)))
  · exact
      have h1 := bump_canonical (raise_canonical (showDecision_canonical (countLateGuard_canonical h)))
      breakStreams_canonical (ite_canonical (replayOrFail_canonical h1) h1)
  · exact
      have h2 := setSpan_canonical (bump_canonical (showDecision_canonical (countLateGuard_canonical h)))
      ite_canonical (skipCurrent_canonical h2) h2
  · exact
      have h3 := replayOrFail_canonical (bump_canonical (showDecision_canonical (countLateGuard_canonical h)))
      ite_canonical (breakStreams_canonical h3) h3
  · exact
      have h4 := addF_canonical (setSpan_canonical (showDecision_canonical (countLateGuard_canonical h)))
      ite_canonical (setSpan_canonical (skipCurrent_canonical h4)) (setSpan_canonical h4)

theorem decideFrame_canonical {cause? f} (h : s.fieldsCanonical) : (decideFrame cause? s f).fieldsCanonical := by
  unfold decideFrame
  refine ite_canonical h ?_
  exact
    have h1 := setSpan_canonical h
    ite_canonical h1 (applyDecision_canonical (eventToAll_canonical (ite_canonical (setSpan_canonical h1) h1)))

theorem decidePending_canonical {cause?} (h : s.fieldsCanonical) : (decidePending s cause?).fieldsCanonical :=
  foldl_canonical (fun _ ht _ => decideFrame_canonical ht) h

theorem frameReport_canonical {m} (h : s.fieldsCanonical) : (frameReport m s).fieldsCanonical := by
  unfold frameReport
  refine ite_canonical h (ite_canonical (decideFrame_canonical h) ?_)
  exact
    have h1 := takeMsg_canonical h
    decideFrame_canonical (ite_canonical h1 (setSpan_canonical h1))

theorem faultNotice_canonical {m} (h : s.fieldsCanonical) : (faultNotice m s).fieldsCanonical := by
  unfold faultNotice
  refine ite_canonical h (ite_canonical (ite_canonical (forwardDown_canonical (takeMsg_canonical h)) (takeMsg_canonical h)) ?_)
  exact
    have h1 := countLateGuard_canonical (bump_canonical (raise_canonical (stampCaused_canonical (ite_canonical (forwardDown_canonical
      (takeMsg_canonical h)) (takeMsg_canonical h)))))
    ite_canonical (markFaulted_canonical (setSpan_canonical h1)) h1

theorem decision_canonical {m} (h : s.fieldsCanonical) : (decision m s).fieldsCanonical :=
  ite_canonical h (applyDecision_canonical (takeMsg_canonical h))

theorem memberLost_canonical {x cause at_ abort cause?} (h : s.fieldsCanonical) :
    (memberLost s x cause at_ abort cause?).fieldsCanonical := by
  unfold memberLost
  exact
    have h1 := bump_canonical (setBitF_canonical (raise_canonical (raise_canonical (capture_canonical (stampCaused_canonical h)))))
    have h2 := ite_canonical (markFaulted_canonical (setSpan_canonical h1)) h1
    have h3 := failWhere_canonical (ite_canonical (dropFrame_canonical (setSpan_canonical h2)) h2)
    failUnmet_canonical (setSpan_canonical (ite_canonical (endLoadFailed_canonical h3) (loadFail_canonical h3)))

theorem declareLost_canonical {x cause at_ abort cause?} (h : s.fieldsCanonical) :
    (declareLost s x cause at_ abort cause?).fieldsCanonical :=
  ite_canonical h (decidePending_canonical (memberLost_canonical (eventToAll_canonical h)))

theorem alignReport_canonical {m} (h : s.fieldsCanonical) : (alignReport m s).fieldsCanonical := by
  unfold alignReport
  refine ite_canonical h ?_
  exact
    have h1 := takeMsg_canonical h
    ite_canonical (setSpan_canonical h1) (ite_canonical h1 (setSpan_canonical h1))

theorem alignGraceExpiry_canonical {ord} (h : s.fieldsCanonical) : (alignGraceExpiry ord s).fieldsCanonical :=
  ite_canonical (declareLost_canonical (setSpan_canonical h)) h

theorem memberReportMissing_canonical {ord} (h : s.fieldsCanonical) : (memberReportMissing ord s).fieldsCanonical :=
  ite_canonical (declareLost_canonical h) h

theorem linkLost_canonical {m} (h : s.fieldsCanonical) : (linkLost m s).fieldsCanonical := by
  unfold linkLost
  refine ite_canonical h ?_
  exact
    have h1 := takeMsg_canonical h
    ite_canonical (declareLost_canonical h1) (declareLost_canonical h1)

theorem leave_canonical {m} (h : s.fieldsCanonical) :
    (leave m s).fieldsCanonical := ite_canonical h (declareLost_canonical (takeMsg_canonical h))
theorem memberLostMsg_canonical {m} (h : s.fieldsCanonical) : (memberLostMsg m s).fieldsCanonical :=
  ite_canonical h (memberLost_canonical (takeMsg_canonical h))

theorem isolate_canonical (h : s.fieldsCanonical) : (isolate s).fieldsCanonical := ite_canonical h (memberLost_canonical h)
theorem selfIsolation_canonical (h : s.fieldsCanonical) : (selfIsolation s).fieldsCanonical := ite_canonical (isolate_canonical h) h
theorem takeover_canonical {m} (h : s.fieldsCanonical) : (takeover m s).fieldsCanonical :=
  ite_canonical h (setSpan_canonical (setF_canonical (takeMsg_canonical h)))

theorem masterLossTimeout_canonical (h : s.fieldsCanonical) : (masterLossTimeout s).fieldsCanonical :=
  ite_canonical h (declareLost_canonical (setSpan_canonical (setF_canonical (raise_canonical (raise_canonical (raise_canonical
    (setF_canonical (setF_canonical (setF_canonical (eventToAll_canonical h))))))))))

theorem takeoverTimeout_canonical (h : s.fieldsCanonical) : (takeoverTimeout s).fieldsCanonical := by
  unfold takeoverTimeout
  split
  · exact ite_canonical (isolate_canonical h) h
  · exact h

theorem announce_canonical {m} (h : s.fieldsCanonical) : (announce m s).fieldsCanonical := by
  unfold announce
  refine ite_canonical h ?_
  exact
    have h1 := setSpan_canonical (takeMsg_canonical h)
    ite_canonical (setF_canonical (setF_canonical h1)) (ite_canonical (pendMode_canonical h1) h1)

theorem beginSpanLoad_canonical {model epoch} (h : s.fieldsCanonical) : (beginSpanLoad s model epoch).fieldsCanonical := by
  unfold beginSpanLoad
  dsimp only
  split
  · exact h
  · refine ite_canonical h ?_
    exact
      have h1 := raise_canonical (setSpan_canonical h)
      ite_canonical (foldl_canonical (fun _ ht _ => readRun_canonical ht) (reserveWith_canonical h1)) (loadReport_canonical
        (reserveWith_canonical h1))

theorem endSpanLoad_canonical {model epoch failed} (h : s.fieldsCanonical) : (endSpanLoad s model epoch failed).fieldsCanonical := by
  unfold endSpanLoad
  dsimp only
  split
  · refine ite_canonical (setSpan_canonical h) (ite_canonical (loadFail_canonical (setSpan_canonical h)) ?_)
    exact
      have h1 := raise_canonical (lower_canonical (setSpan_canonical (setSpan_canonical h)))
      ite_canonical (setMem_canonical h1) h1
  · exact setSpan_canonical h

theorem announceApply_canonical {subject} (h : s.fieldsCanonical) : (announceApply subject s).fieldsCanonical := by
  unfold announceApply
  split
  · exact h
  · split
    · exact periodChange_canonical (setSpan_canonical h)
    · exact modeChangeApply_canonical (setSpan_canonical h)
    · exact keepTransom_canonical (dropStage_canonical (switchNow_canonical (setSpan_canonical h)))
    · exact beginSpanLoad_canonical (setSpan_canonical h)
    · exact endSpanLoad_canonical (setSpan_canonical h)
    · exact setSpan_canonical h

theorem loadReportMsg_canonical {m} (h : s.fieldsCanonical) : (loadReportMsg m s).fieldsCanonical := by
  unfold loadReportMsg
  refine ite_canonical h (ite_canonical ?_ ?_)
  · split
    · exact ite_canonical (loadReport_canonical (setSpan_canonical h)) h
    · exact h
  · exact
      have h1 := takeMsg_canonical h
      noteLoadReport_canonical (ite_canonical (forwardDown_canonical h1) h1)

theorem loadDefect_canonical {k i off} (h : s.fieldsCanonical) : (loadDefect s k i off).fieldsCanonical :=
  loadReport_canonical (bump_canonical (memEvent_canonical h))

theorem placeLoaded_canonical {l k i bytes} (h : s.fieldsCanonical) : (placeLoaded s l k i bytes).fieldsCanonical := by
  unfold placeLoaded
  dsimp only
  split
  · exact loadDefect_canonical (setSpan_canonical h)
  · exact ite_canonical (loadDefect_canonical (bump_canonical (wgtEvent_canonical (setSpan_canonical h)))) (setMem_canonical
    (fillNear_canonical (setSpan_canonical h)))

theorem takePiece_canonical {l r k piece bytes} (h : s.fieldsCanonical) : (takePiece s l r k piece bytes).fieldsCanonical := by
  unfold takePiece
  split
  · exact h
  · exact ite_canonical h (ite_canonical (setSpan_canonical h) (placeLoaded_canonical h))

theorem sendPiece_canonical {l r k piece port chan bytes} (h : s.fieldsCanonical) :
    (sendPiece s l r k piece port chan bytes).fieldsCanonical := by
  unfold sendPiece
  dsimp only
  split
  · exact storeFailed_canonical h
  · exact takePiece_canonical (setLink_canonical (setSpan_canonical h))

theorem spanLoad_canonical {x} (h : s.fieldsCanonical) : (spanLoad x s).fieldsCanonical := by
  unfold spanLoad
  split
  · exact h
  · split
    · exact h
    · split
      · refine ite_canonical h ?_
        split
        · exact sendPiece_canonical h
        · exact h
      · split
        · exact h
        · exact ite_canonical h (takePiece_canonical (setSpan_canonical h))

/-! ### Machine/Reset -/

theorem setBoot_canonical {b} (h : s.fieldsCanonical) : (setBoot s b).fieldsCanonical := update_canonical h
theorem setPins_canonical {x} (h : s.fieldsCanonical) : (setPins s x).fieldsCanonical := update_canonical h
theorem setFuses_canonical {x} (h : s.fieldsCanonical) : (setFuses s x).fieldsCanonical := update_canonical h
theorem setRail_canonical {on r} (h : s.fieldsCanonical) : (setRail on s r).fieldsCanonical :=
  ite_canonical h (emit_canonical (setPins_canonical h))

theorem railsOn_canonical {mask} (h : s.fieldsCanonical) : (railsOn mask s).fieldsCanonical :=
  foldl_canonical (fun _ ht _ => setRail_canonical ht) h

theorem railsOff_canonical {keep} (h : s.fieldsCanonical) : (railsOff keep s).fieldsCanonical :=
  foldl_canonical (fun _ ht _ => setRail_canonical ht) h

theorem burnStoreGen_canonical (h : s.fieldsCanonical) : (burnStoreGen s).fieldsCanonical := by
  unfold burnStoreGen
  split
  · exact ite_canonical h (raise_canonical (setFuses_canonical (setBoot_canonical h)))
  · exact h

theorem interruptFuses_canonical (h : s.fieldsCanonical) : (interruptFuses s).fieldsCanonical := by
  unfold interruptFuses
  dsimp only
  exact ite_canonical (ite_canonical (burnStoreGen_canonical (freeVal_canonical h)) (freeVal_canonical h)) h

theorem moduleReset_canonical {cold reason} (h : s.fieldsCanonical) : (moduleReset cold reason s).fieldsCanonical := by
  unfold moduleReset
  dsimp only
  have h1 : smapWf fldReset (if cold then [] else (interruptFuses s).flds.filter (fun p => stickyKey p.1)) = true := by
    split
    · rfl
    · exact Laws.smapWf_filter _ (interruptFuses_canonical h)
  exact setF_canonical (ite_canonical (setF_canonical (setPins_canonical h1)) (setF_canonical (setF_canonical (setPins_canonical h1))))

theorem beginStep_canonical {k} (h : s.fieldsCanonical) : (beginStep s k).fieldsCanonical :=
  setBool_canonical (setBoot_canonical (setF_canonical h))

theorem beginStart_canonical (h : s.fieldsCanonical) : (beginStart s).fieldsCanonical := by
  unfold beginStart
  refine ite_canonical h ?_
  exact
    have h1 := setBoot_canonical (setPwr_canonical (railsOn_canonical (setPins_canonical h)))
    beginStep_canonical (stampEvent_canonical (ite_canonical (raise_canonical (raise_canonical (setBoot_canonical h1))) h1))

theorem warmReset_canonical {reason} (h : s.fieldsCanonical) : (warmReset reason s).fieldsCanonical :=
  beginStart_canonical (moduleReset_canonical h)

theorem enterSafe_canonical (h : s.fieldsCanonical) : (enterSafe s).fieldsCanonical :=
  setBoot_canonical (stampEvent_canonical (lower_canonical (setF_canonical (lower_canonical (railsOff_canonical (setPins_canonical
    (setF_canonical (lower_canonical (setF_canonical (setF_canonical (setF_canonical (lower_canonical (setF_canonical (raise_canonical
    (update_canonical h)))))))))))))))

theorem recordFail_canonical {step cause} (h : s.fieldsCanonical) : (recordFail s step cause).fieldsCanonical := by
  unfold recordFail
  exact
    have h1 := setF_canonical (setF_canonical h)
    have h2 := setBoot_canonical (ite_canonical (setBitF_canonical h1) h1)
    setF_canonical (ite_canonical (setBoot_canonical h2) h2)

theorem failStart_canonical {cause} (h : s.fieldsCanonical) : (failStart s cause).fieldsCanonical := by
  unfold failStart
  exact
    have h1 := stampEvent_canonical (recordFail_canonical h)
    have h2 := ite_canonical (raise_canonical h1) h1
    ite_canonical (enterSafe_canonical h2) (setBoot_canonical h2)

theorem watchdogReset_canonical (h : s.fieldsCanonical) : (watchdogReset s).fieldsCanonical := by
  unfold watchdogReset
  dsimp only
  refine ite_canonical (warmReset_canonical h) ?_
  exact
    have h1 := recordFail_canonical (freeVal_canonical h)
    ite_canonical (enterSafe_canonical (moduleReset_canonical h1)) (warmReset_canonical h1)

theorem bootRetryReset_canonical (h : s.fieldsCanonical) : (bootRetryReset s).fieldsCanonical := ite_canonical (warmReset_canonical h) h
theorem restart_canonical (h : s.fieldsCanonical) : (restart s).fieldsCanonical := by
  unfold restart
  exact
    have h1 := setBoot_canonical (setF_canonical (setF_canonical h))
    warmReset_canonical (ite_canonical (setBoot_canonical (setF_canonical (setF_canonical (setF_canonical (lower_canonical (setF_canonical
      h1)))))) h1)

theorem powerOff_canonical (h : s.fieldsCanonical) : (powerOff s).fieldsCanonical :=
  setBoot_canonical (lower_canonical (lower_canonical (update_canonical (setPwr_canonical (setPins_canonical (railsOff_canonical
    (interruptFuses_canonical h)))))))

theorem thermalTrip_canonical (h : s.fieldsCanonical) : (thermalTrip s).fieldsCanonical :=
  ite_canonical h (setPins_canonical (powerOff_canonical (lower_canonical (raise_canonical (stampEvent_canonical h)))))

theorem supplyFail_canonical (h : s.fieldsCanonical) : (supplyFail s).fieldsCanonical := by
  unfold supplyFail
  refine ite_canonical h ?_
  exact
    have h1 := setPins_canonical h
    ite_canonical (powerOff_canonical (lower_canonical (raise_canonical (stampEvent_canonical h1)))) h1

theorem auxPowerLoss_canonical (h : s.fieldsCanonical) : (auxPowerLoss s).fieldsCanonical := ite_canonical h rfl
theorem powerUp_canonical (h : s.fieldsCanonical) : (powerUp s).fieldsCanonical := ite_canonical (setPins_canonical h) h
theorem auxPowerOn_canonical (h : s.fieldsCanonical) : (auxPowerOn s).fieldsCanonical :=
  ite_canonical h (powerUp_canonical (moduleReset_canonical (setPins_canonical h)))

theorem mainPowerOn_canonical (h : s.fieldsCanonical) : (mainPowerOn s).fieldsCanonical := by
  unfold mainPowerOn
  refine ite_canonical h ?_
  exact
    have h1 := setPins_canonical h
    ite_canonical h1 (ite_canonical (powerUp_canonical h1) (powerUp_canonical (moduleReset_canonical h1)))

theorem railStartFail_canonical (h : s.fieldsCanonical) : (railStartFail s).fieldsCanonical := by
  unfold railStartFail
  dsimp only
  exact ite_canonical (setPins_canonical (railsOff_canonical (foldl_canonical (fun _ ht _ => setRail_canonical ht) (freeVal_canonical h))))
    h

theorem railOutOfRegulation_canonical {r} (h : s.fieldsCanonical) : (railOutOfRegulation r s).fieldsCanonical := by
  unfold railOutOfRegulation
  dsimp only
  exact ite_canonical h (setPins_canonical (moduleReset_canonical (freeVal_canonical h)))

theorem resetPin_canonical {reason} (h : s.fieldsCanonical) : (resetPin reason s).fieldsCanonical :=
  ite_canonical h (setPins_canonical (ite_canonical h (ite_canonical (setF_canonical h) (moduleReset_canonical h))))

theorem sysRstN_canonical {asserted} (h : s.fieldsCanonical) : (sysRstN asserted s).fieldsCanonical :=
  ite_canonical (setPins_canonical h) (ite_canonical h (setPins_canonical (resetPin_canonical h)))

theorem perstN_canonical {asserted} (h : s.fieldsCanonical) : (perstN asserted s).fieldsCanonical :=
  ite_canonical (setPins_canonical h) (ite_canonical h (setPins_canonical (resetPin_canonical h)))

theorem start_canonical (h : s.fieldsCanonical) : (start s).fieldsCanonical := by
  unfold start
  exact
    have h1 := ite_canonical (setPins_canonical (railsOn_canonical h)) h
    ite_canonical (beginStart_canonical h1) h1

/-! ### Machine/Boot -/

theorem setSlotBytes_canonical {n b} (h : s.fieldsCanonical) : (setSlotBytes s n b).fieldsCanonical := update_canonical h
theorem showSlots_canonical (h : s.fieldsCanonical) : (showSlots s).fieldsCanonical := setBool_canonical (setBool_canonical h)
theorem loadFuses_canonical (h : s.fieldsCanonical) : (loadFuses s).fieldsCanonical := by
  unfold loadFuses
  exact
    have h1 := foldl_canonical (fun _ ht _ => setF_canonical ht) (setF_canonical (setF_canonical (setF_canonical (setF_canonical
      (setF_canonical (setF_canonical (setF_canonical (setF_canonical (setF_canonical (setF_canonical h))))))))))
    ite_canonical (setF_canonical (setF_canonical (setF_canonical h1))) h1

theorem drawNonce_canonical (h : s.fieldsCanonical) : (drawNonce s).fieldsCanonical := by
  unfold drawNonce
  dsimp only
  exact foldl_canonical (fun _ ht _ => setF_canonical (freeVal_canonical ht)) h

theorem lcFuses_canonical (h : s.fieldsCanonical) : (lcFuses s).fieldsCanonical := by
  unfold lcFuses
  split
  · exact stampEvent_canonical (raise_canonical (lower_canonical (lower_canonical (setBoot_canonical (setFuses_canonical
    (burnStoreGen_canonical h))))))
  · exact h

theorem beginLinks_canonical (h : s.fieldsCanonical) : (beginLinks s).fieldsCanonical := by
  unfold beginLinks
  dsimp only
  exact ite_canonical h (foldl_canonical (fun _ ht _ => ite_canonical ht (ite_canonical (setF_canonical ht) (beginTraining_canonical
    (setF_canonical (setBoot_canonical (ite_snd_canonical ht (freeVal_canonical ht))))))) h)

theorem wipeNear_canonical (h : s.fieldsCanonical) : (wipeNear s).fieldsCanonical := lower_canonical (setMem_canonical h)
theorem identifyController_canonical {c} (h : s.fieldsCanonical) : (identifyController s c).fieldsCanonical :=
  emit_canonical (emit_canonical (emit_canonical h))

theorem attachController_canonical {c} (h : s.fieldsCanonical) : (attachController s c).fieldsCanonical :=
  foldl_canonical (fun _ ht _ => emit_canonical (emit_canonical ht)) h

theorem adoptExclusions_canonical (h : s.fieldsCanonical) : (adoptExclusions s).fieldsCanonical := by
  unfold adoptExclusions
  exact
    have h1 := setF_canonical (setF_canonical (setF_canonical (setBool_canonical (setF_canonical h))))
    ite_canonical h1 (raise_canonical h1)

theorem beginTicks_canonical {d} (h : s.fieldsCanonical) : (beginTicks d s).fieldsCanonical := by
  unfold beginTicks
  exact
    have h1 := ite_canonical (setF_canonical (setF_canonical (ite_canonical (setF_canonical h) (setF_canonical (setF_canonical h)))))
      (setF_canonical (setF_canonical (setF_canonical (setF_canonical (setF_canonical h)))))
    setSpan_canonical (openEmpty_canonical (pulse_canonical (stampEvent_canonical (update_canonical (raise_canonical (setBoot_canonical
      (ite_canonical h1 (freshStamps_canonical (setF_canonical h1)))))))))

theorem stepReady_canonical {d} (h : s.fieldsCanonical) : (stepReady d s).fieldsCanonical := by
  unfold stepReady
  exact
    have h1 := beginTicks_canonical (adoptExclusions_canonical (ite_canonical h (raise_canonical (showCap_canonical (bootCap_canonical
      (applyMode_canonical h))))))
    have h2 := ite_canonical (raise_canonical (raise_canonical h1)) h1
    have h3 := ite_canonical (setF_canonical (setFuses_canonical h2)) h2
    stampEvent_canonical (setBoot_canonical (setF_canonical (setF_canonical (raise_canonical (ite_canonical (raise_canonical h3) h3)))))

theorem endStep_canonical {k} (h : s.fieldsCanonical) : (endStep s k).fieldsCanonical := by
  unfold endStep
  exact
    have h1 := setF_canonical (setF_canonical h)
    ite_canonical (enterSafe_canonical h1) (ite_canonical h1 (beginStep_canonical h1))

theorem showSlot_canonical {k} (h : s.fieldsCanonical) : (showSlot s k).fieldsCanonical := by
  unfold showSlot
  refine ite_canonical ?_ h
  split
  · exact setF_canonical h
  · exact h

/-- The state that a boot step leaves, whether it completes or fails. -/
def endState : StepEnd → State
  | .ok t => t
  | .error (_, t) => t

theorem ite_end_canonical {c : Prop} {d : Decidable c} {x y : StepEnd} (hx : (endState x).fieldsCanonical) (hy : (endState y).fieldsCanonical) :
    (endState (if c then x else y)).fieldsCanonical := by split <;> assumption

theorem stepRom_canonical {d} (h : s.fieldsCanonical) : (endState (stepRom d s)).fieldsCanonical := by
  unfold stepRom
  exact
    have h1 := setF_canonical (setF_canonical (raise_canonical h))
    have h2 := setBoot_canonical (drawNonce_canonical (loadFuses_canonical (lcFuses_canonical h1)))
    ite_end_canonical h1 (ite_canonical (raise_canonical h2) h2)

theorem stepImage_canonical (h : s.fieldsCanonical) : (endState (stepImage s)).fieldsCanonical := by
  unfold stepImage
  dsimp only
  refine ite_end_canonical (raise_canonical (setF_canonical h)) ?_
  split
  · exact showSlots_canonical (raise_canonical (setF_canonical h))
  · exact
      have h1 := showSlots_canonical (raise_canonical (setF_canonical h))
      ite_end_canonical (setBoot_canonical (update_canonical h1)) h1

theorem stepFirmware_canonical (h : s.fieldsCanonical) : (endState (stepFirmware s)).fieldsCanonical := by
  unfold stepFirmware
  dsimp only
  split
  · exact h
  · refine ite_end_canonical h (ite_end_canonical (setF_canonical h) ?_)
    dsimp only [endState]
    refine foldl_canonical (fun _ ht _ => ite_canonical (senseLine_canonical ht) ht) (setBool_canonical (setPins_canonical
      (foldl_canonical (fun _ ht _ => startCount_canonical (setF_canonical ht)) (setF_canonical (showCap_canonical (setPwr_canonical
      (setF_canonical (setF_canonical (setF_canonical (setF_canonical (setF_canonical (setBoot_canonical (applyMode_canonical
      (setF_canonical (setF_canonical ?_)))))))))))))))
    split
    · exact setF_canonical (foldl_canonical (fun _ ht _ => setF_canonical ht) (update_canonical (setF_canonical h)))
    · exact foldl_canonical (fun _ ht _ => setF_canonical ht) (update_canonical (setF_canonical h))

theorem stepNear_canonical {d} (h : s.fieldsCanonical) : (endState (stepNear d s)).fieldsCanonical := by
  unfold stepNear
  exact ite_end_canonical (setF_canonical (setBoot_canonical h)) (ite_end_canonical (setBoot_canonical h)
    (setF_canonical (setBoot_canonical (setBoot_canonical h))))

theorem stepBulk_canonical {d} (h : s.fieldsCanonical) : (endState (stepBulk d s)).fieldsCanonical := by
  unfold stepBulk
  exact ite_end_canonical (setBoot_canonical h) (beginLinks_canonical (setF_canonical (setF_canonical (setBoot_canonical (setBoot_canonical h)))))

theorem stepLink_canonical (h : s.fieldsCanonical) : (endState (stepLink s)).fieldsCanonical := by
  unfold stepLink
  exact ite_end_canonical h (ite_end_canonical h (ite_end_canonical h (foldl_canonical (fun _ ht _ => setBoot_canonical (setF_canonical ht)) h)))

theorem stepSelftest_canonical {d} (h : s.fieldsCanonical) : (endState (stepSelftest d s)).fieldsCanonical := by
  unfold stepSelftest
  exact ite_end_canonical h (setF_canonical (setBoot_canonical (foldl_canonical (fun _ ht _ => excludeColumn_canonical ht) h)))

theorem stepWipe_canonical {d} (h : s.fieldsCanonical) : (endState (stepWipe d s)).fieldsCanonical := by
  unfold stepWipe
  exact ite_end_canonical (wipeNear_canonical h) (ite_end_canonical (lower_canonical h)
    (have h1 := setF_canonical (setF_canonical (setF_canonical (setBoot_canonical (wipeNear_canonical h))))
    ite_canonical (raise_canonical h1) h1))

theorem stepStore_canonical {d} (h : s.fieldsCanonical) : (endState (stepStore d s)).fieldsCanonical := by
  unfold stepStore
  exact ite_end_canonical (setBoot_canonical h)
    (have h1 := setBool_canonical (setF_canonical (setPins_canonical (foldl_canonical (fun _ ht _ => identifyController_canonical ht) h)))
    have h2 := foldl_canonical (fun _ ht _ => attachController_canonical ht) (setCatalogue_canonical (setF_canonical
      (ite_canonical (setBool_canonical (setF_canonical (setF_canonical h1))) h1)))
    ite_end_canonical h2 (ite_end_canonical (foldl_canonical (fun _ ht _ => createEntry_canonical ht) (setCatalogue_canonical h2))
      (raise_canonical (setBoot_canonical (setCatalogue_canonical h2)))))

theorem stepEffect_canonical {k d} (h : s.fieldsCanonical) : (endState (stepEffect k d s)).fieldsCanonical := by
  unfold stepEffect
  split
  · exact stepRom_canonical h
  · exact stepImage_canonical h
  · exact stepFirmware_canonical h
  · exact stepNear_canonical h
  · exact stepBulk_canonical h
  · exact stepLink_canonical h
  · exact stepSelftest_canonical h
  · exact stepWipe_canonical h
  · exact stepStore_canonical h
  · exact stepReady_canonical h

theorem bootStepComplete_canonical {d} (h : s.fieldsCanonical) : (bootStepComplete d s).fieldsCanonical := by
  unfold bootStepComplete
  dsimp only
  refine ite_canonical h (ite_canonical (failStart_canonical (showSlot_canonical h)) (ite_canonical (failStart_canonical
    (showSlot_canonical h)) (ite_canonical (showSlot_canonical h) ?_)))
  have h1 : (endState (stepEffect (getF s F.BOOT_STAT_STEP) d (showSlot s (getF s F.BOOT_STAT_STEP)))).fieldsCanonical :=
    stepEffect_canonical (showSlot_canonical h)
  split
  · next e =>
      rw [e] at h1
      exact endStep_canonical h1
  · next e =>
      rw [e] at h1
      exact failStart_canonical h1

theorem bootStepFail_canonical {cause} (h : s.fieldsCanonical) : (bootStepFail cause s).fieldsCanonical :=
  ite_canonical h (ite_canonical (failStart_canonical h) (ite_canonical (bootStepComplete_canonical h) (failStart_canonical
    (showSlot_canonical h))))

theorem bootCtlRestart_canonical {r} (h : s.fieldsCanonical) : (bootCtlRestart r s).fieldsCanonical :=
  ite_canonical (deny_canonical h) (ite_canonical (restart_canonical h) h)

theorem clearExcl_canonical {r} (h : s.fieldsCanonical) : (clearExcl r s).fieldsCanonical :=
  ite_canonical (deny_canonical h) (ite_canonical (setBoot_canonical h) h)

theorem bootUpdStart_canonical {r} (h : s.fieldsCanonical) : (bootUpdStart r s).fieldsCanonical :=
  ite_canonical h (ite_canonical (ite_canonical h (deny_canonical h)) (ite_canonical (raise_canonical (setF_canonical (deny_canonical h)))
    (ite_canonical (raise_canonical (setF_canonical h)) (setSlotBytes_canonical (setBoot_canonical (setF_canonical (setF_canonical
    (raise_canonical h))))))))

theorem imageUpdateDone_canonical {image norError} (h : s.fieldsCanonical) : (imageUpdateDone image norError s).fieldsCanonical := by
  unfold imageUpdateDone
  split
  · exact h
  · refine showSlots_canonical (raise_canonical (setBoot_canonical (setF_canonical (setF_canonical (lower_canonical ?_)))))
    split
    · exact setSlotBytes_canonical h
    · exact h

/-! ### Machine/Power -/

theorem gatherEnergy_canonical {arr} (h : s.fieldsCanonical) : (gatherEnergy s arr).fieldsCanonical := ite_canonical h (setPwr_canonical h)
theorem fastGuard_canonical (h : s.fieldsCanonical) : (fastGuard s).fieldsCanonical :=
  ite_canonical h (planPoints_canonical (bump_canonical (raise_canonical (setPwr_canonical h))))

theorem estimatorUpdate_canonical {a} (h : s.fieldsCanonical) : (estimatorUpdate a s).fieldsCanonical :=
  fastGuard_canonical (setPwr_canonical (gatherEnergy_canonical h))

theorem nextGain_canonical {m} (h : s.fieldsCanonical) : (nextGain s m).2.fieldsCanonical := by
  unfold nextGain
  dsimp only
  exact ite_snd_canonical (freeVal_canonical h) h

theorem powerMeasurement_canonical {m amps} (h : s.fieldsCanonical) : (powerMeasurement m amps s).fieldsCanonical := by
  unfold powerMeasurement
  dsimp only
  refine replanMoved_canonical (setPwr_canonical (ite_canonical (setF_canonical (setF_canonical h)) ?_))
  exact
    have h1 := setPwr_canonical (setF_canonical (nextGain_canonical (setF_canonical (setF_canonical h))))
    ite_canonical (stampEvent_canonical (raise_canonical h1)) h1

theorem capCommand_canonical {target slew} (h : s.fieldsCanonical) : (capCommand target slew s).fieldsCanonical := by
  unfold capCommand
  exact
    have h1 := setF_canonical (setF_canonical (ite_canonical (countFall_canonical h) h))
    ite_canonical (capChanged_canonical (setPwr_canonical h1)) h1

theorem capSlewStep_canonical (h : s.fieldsCanonical) : (capSlewStep s).fieldsCanonical :=
  ite_canonical h (capChanged_canonical (setPwr_canonical h))

theorem railReading_canonical {r mv da} (h : s.fieldsCanonical) : (railReading r mv da s).fieldsCanonical :=
  ite_canonical h (setF_canonical (setF_canonical h))

theorem opRampStep_canonical {mv} (h : s.fieldsCanonical) : (opRampStep mv s).fieldsCanonical := by
  unfold opRampStep
  refine ite_canonical h ?_
  exact
    have h1 := setPwr_canonical h
    ite_canonical (setOp_canonical h1) h1

theorem regulatorPhaseFault_canonical {n} (h : s.fieldsCanonical) : (regulatorPhaseFault n s).fieldsCanonical :=
  ite_canonical h (capChanged_canonical (countFall_canonical (stampEvent_canonical (setPwr_canonical (raise_canonical (setBitF_canonical
    h))))))

theorem droop_canonical {v} (h : s.fieldsCanonical) : (droop v s).fieldsCanonical := by
  unfold droop
  refine ite_canonical h ?_
  exact
    have h1 := bump_canonical (raise_canonical h)
    ite_canonical h1 (setPwr_canonical (bump_canonical (raise_canonical h1)))

theorem droopEnd_canonical {ac} (h : s.fieldsCanonical) : (droopEnd ac s).fieldsCanonical := by
  unfold droopEnd
  refine ite_canonical h ?_
  refine
    have h1 := setPwr_canonical ?_
    ite_canonical (planPoints_canonical h1) h1
  split
  · exact setF_canonical (foldl_canonical (fun _ ht _ => lower_canonical ht) (addF_canonical h))
  · exact (foldl_canonical (fun _ ht _ => lower_canonical ht) (addF_canonical h))

theorem showHottest_canonical (h : s.fieldsCanonical) : (showHottest s).fieldsCanonical := by
  unfold showHottest
  split
  refine ite_canonical h ?_
  exact
    have h1 := setF_canonical (setF_canonical h)
    ite_canonical (setPwr_canonical (setF_canonical (setF_canonical h1))) h1

theorem storeReading_canonical {r} (h : s.fieldsCanonical) : (storeReading r s).fieldsCanonical := by
  unfold storeReading
  split
  · exact ite_canonical h (showHottest_canonical (setF_canonical (raise_canonical h)))
  · exact setF_canonical (setF_canonical h)
  · exact setF_canonical h
  · exact ite_canonical h (setF_canonical (raise_canonical h))
  · refine ite_canonical h ?_
    exact
      have h1 := setF_canonical (setPwr_canonical h)
      have h2 := ite_canonical (setF_canonical h1) h1
      ite_canonical (lower_canonical h2) (ite_canonical h2 (droop_canonical h2))
  · exact ite_canonical h (setF_canonical h)

theorem monitorUpdate_canonical {r} (h : s.fieldsCanonical) : (monitorUpdate r s).fieldsCanonical := by
  unfold monitorUpdate
  exact
    have h1 := setPwr_canonical (storeReading_canonical h)
    ite_canonical (thermalTrip_canonical h1) h1

theorem throttleStep_canonical (h : s.fieldsCanonical) : (throttleStep s).fieldsCanonical :=
  ite_canonical h (planPoints_canonical (setPwr_canonical (ite_canonical h (raise_canonical (bump_canonical (raise_canonical h))))))

theorem throttleReleaseStep_canonical (h : s.fieldsCanonical) : (throttleReleaseStep s).fieldsCanonical := by
  unfold throttleReleaseStep
  split
  · exact h
  · refine ite_canonical h ?_
    exact
      have h1 := setPwr_canonical h
      planPoints_canonical (ite_canonical (lower_canonical h1) h1)

theorem telClear_canonical {droop min_ peak} (h : s.fieldsCanonical) : (telClear droop min_ peak s).fieldsCanonical := by
  unfold telClear
  exact
    have h1 := ite_canonical (foldl_canonical (fun _ ht _ => setF_canonical ht) h) h
    have h2 := ite_canonical (foldl_canonical (fun _ ht _ => setF_canonical ht) h1) h1
    ite_canonical (setF_canonical (setF_canonical h2)) h2

theorem louvrePins_canonical {level} (h : s.fieldsCanonical) : (louvrePins s level).fieldsCanonical := by
  unfold louvrePins
  exact
    have h1 := setPins_canonical h
    have h2 := ite_canonical (latchEdge_canonical h1) h1
    ite_canonical (latchEdge_canonical h2) h2

theorem louvreChange_canonical {level} (h : s.fieldsCanonical) : (louvreChange level s).fieldsCanonical := by
  unfold louvreChange
  refine ite_canonical h ?_
  exact
    have h1 := bump_canonical (raise_canonical (setF_canonical (louvrePins_canonical h)))
    planPoints_canonical (showCap_canonical (ite_canonical (countFall_canonical h1) h1))

theorem freshDelivery_canonical (h : s.fieldsCanonical) : (freshDelivery s).fieldsCanonical :=
  foldl_canonical (fun _ ht _ => setF_canonical (setF_canonical ht)) (update_canonical (foldl_canonical (fun _ ht _ => setF_canonical ht)
    h))

theorem dormantRequest_canonical {r} (h : s.fieldsCanonical) : (dormantRequest r s).fieldsCanonical := by
  unfold dormantRequest
  refine ite_canonical h ?_
  split
  · exact setF_canonical (ite_canonical (deny_canonical h) h)
  · exact stampEvent_canonical (setPwr_canonical (railsOff_canonical (update_canonical (freshDelivery_canonical (freshTickets_canonical
    (answerWaiting_canonical (lower_canonical (setF_canonical (foldl_canonical (fun _ ht _ => setBitF_canonical (enterDown_canonical ht))
    (foldl_canonical (fun _ ht _ => abandonFetch_canonical ht) (setF_canonical h)))))))))))

theorem wakeUp_canonical (h : s.fieldsCanonical) : (wakeUp s).fieldsCanonical := by
  unfold wakeUp
  refine ite_canonical h ?_
  exact
    have h1 := raise_canonical (raise_canonical (freshStamps_canonical (setF_canonical (setF_canonical (setF_canonical (setF_canonical
      (foldl_canonical (fun _ ht _ => ite_canonical (startCount_canonical (setBitF_canonical ht)) ht) (foldl_canonical (fun _ ht _ =>
      ite_canonical ht (beginTraining_canonical ht)) (setMem_canonical (railsOn_canonical (setPwr_canonical h)))))))))))
    openEmpty_canonical (pulse_canonical (stampEvent_canonical (stampEvent_canonical (update_canonical (ite_canonical (raise_canonical
      (setBoot_canonical h1)) h1)))))

/-! ### Machine/Stewards -/

theorem reclaimTickets_canonical {n} (h : s.fieldsCanonical) : (reclaimTickets s n).fieldsCanonical := by
  unfold reclaimTickets
  exact
    have h1 := setStw_canonical h
    showHolds_canonical (ite_canonical h1 (addF_canonical (raise_canonical h1)))

theorem resetSteward_canonical {n} (h : s.fieldsCanonical) : (resetSteward s n).fieldsCanonical := by
  unfold resetSteward
  exact
    have h1 := bump_canonical (bump_canonical (raise_canonical (reclaimTickets_canonical (setF_canonical (setBitF_canonical h)))))
    have h2 := stampEvent_canonical (setStw_canonical (foldl_canonical (fun _ ht _ => setLink_canonical ht) (ite_canonical
      (answerWaiting_canonical h1) h1)))
    have h3 := ite_canonical (raise_canonical (setF_canonical h2)) h2
    ite_canonical (watchdogReset_canonical h3) h3

theorem watchdogExpiry_canonical {n restartAt} (h : s.fieldsCanonical) : (watchdogExpiry n restartAt s).fieldsCanonical :=
  ite_canonical h (ite_canonical (resetSteward_canonical h) (raise_canonical (setStw_canonical (startCount_canonical h))))

theorem stewardRestart_canonical {n} (h : s.fieldsCanonical) : (stewardRestart n s).fieldsCanonical :=
  ite_canonical h (startCount_canonical (setBitF_canonical (setF_canonical h)))

/-! ### Machine/Eject -/

theorem pinEdge_canonical {was asserted p} (hs : s.fieldsCanonical) (ht : t.fieldsCanonical) :
    (pinEdge s t was asserted p).fieldsCanonical :=
  ite_canonical hs (ite_canonical (latchEdge_canonical ht) ht)

theorem pinLatchEdge_canonical {z} (h : s.fieldsCanonical) : (pinLatchEdge z s).fieldsCanonical := by
  unfold pinLatchEdge
  dsimp only
  refine ite_canonical h ?_
  split
  · exact ite_canonical h (setPins_canonical h)
  · exact ite_canonical (setPins_canonical h) (wakeUp_canonical (latchEdge_canonical (setPins_canonical h)))
  · exact ite_canonical (wakeUp_canonical (latchEdge_canonical h)) h
  · exact pinEdge_canonical h (setPins_canonical h)
  · exact pinEdge_canonical h (setPins_canonical h)

theorem wakeAlarm_canonical (h : s.fieldsCanonical) :
    (wakeAlarm s).fieldsCanonical := ite_canonical h (wakeUp_canonical (pulse_canonical h))
theorem supplyLow_canonical (h : s.fieldsCanonical) : (supplyLow s).fieldsCanonical := ite_canonical (pulse_canonical h) h
theorem sendLeave_canonical {y finishes} (h : s.fieldsCanonical) : (sendLeave s y finishes).fieldsCanonical :=
  ite_canonical h (ite_canonical (leave_canonical h) (toMaster_canonical h))

theorem ejectWarning_canonical (h : s.fieldsCanonical) : (ejectWarning s).fieldsCanonical := by
  unfold ejectWarning
  refine ite_canonical h (ite_canonical (raise_canonical (setBoot_canonical (latchEdge_canonical (setPins_canonical h)))) (ite_canonical
    (latchEdge_canonical (setPins_canonical h)) ?_))
  exact
    have h1 := raise_canonical (update_canonical (latchEdge_canonical (setPins_canonical h)))
    sendLeave_canonical (stampEvent_canonical (ite_canonical h1 (markFaulted_canonical (setSpan_canonical h1))))

theorem ejectFinish_canonical (h : s.fieldsCanonical) : (ejectFinish s).fieldsCanonical := by
  unfold ejectFinish
  refine ite_canonical h ?_
  exact
    have h1 := completeAll_canonical (failEvery_canonical (setReqs_canonical h))
    raise_canonical (update_canonical (ite_canonical (raise_canonical h1) h1))

/-! ### Machine/RegView -/

theorem dropHi_canonical {off} (h : s.fieldsCanonical) : (dropHi s off).fieldsCanonical := update_canonical h
theorem latchHi_canonical {hi} (h : s.fieldsCanonical) : (latchHi s hi).fieldsCanonical := update_canonical h
theorem readWord_canonical {r off} (h : s.fieldsCanonical) : (readWord s r off).2.fieldsCanonical := by
  unfold readWord
  refine ite_snd_canonical h (ite_snd_canonical (claimRead_canonical h) ?_)
  split
  · exact ite_snd_canonical (ticketGrant_canonical h) h
  · split
    · exact dropHi_canonical h
    · split
      · exact latchHi_canonical h
      · exact h

theorem readBytes_canonical {r off size} (h : s.fieldsCanonical) : (readBytes s r off size).2.fieldsCanonical := by
  unfold readBytes
  dsimp only
  exact ite_snd_canonical (readWord_canonical h) (readWord_canonical (readWord_canonical h))

theorem loRegisterRead_canonical {r off size} (h : s.fieldsCanonical) : (loRegisterRead r off size s).fieldsCanonical := by
  unfold loRegisterRead
  dsimp only
  exact ite_canonical h (emit_canonical (readBytes_canonical h))

/-! ### Machine/RegWrite -/

theorem denyOther_canonical {r} (h : s.fieldsCanonical) : (denyOther s r).fieldsCanonical := by
  unfold denyOther
  dsimp only
  exact deny_canonical (freeVal_canonical h)

theorem writeField_canonical {v d f} (h : s.fieldsCanonical) : (writeField v d s f).fieldsCanonical := by
  unfold writeField
  split
  · exact h
  · exact h
  · exact ite_canonical (fieldSet_canonical h) h
  · exact ite_canonical (fieldSet_canonical h) h
  · exact ite_canonical h (fieldSet_canonical h)
  · exact ite_canonical h (fieldSet_canonical h)

theorem writeFields_canonical {off v} (h : s.fieldsCanonical) : (writeFields s off v).fieldsCanonical := by
  unfold writeFields
  split
  · exact h
  · refine ite_canonical h ?_
    exact
      have h1 := foldl_canonical (fun _ ht _ => writeField_canonical ht) h
      ite_canonical (setF_canonical (setF_canonical h1)) h1

theorem powerSettings_canonical {off v} (h : s.fieldsCanonical) : (powerSettings off v s).fieldsCanonical :=
  planPoints_canonical (showCap_canonical (bootCap_canonical (writeFields_canonical h)))

theorem writeWgtCmd_canonical {r v} (h : s.fieldsCanonical) : (writeWgtCmd r v s).fieldsCanonical := by
  unfold writeWgtCmd
  split
  · exact ite_canonical (deny_canonical h) (setResult_canonical (startWgt_canonical (deny_canonical h)))
  · exact ite_canonical (denyOther_canonical h) (setResult_canonical (startWgt_canonical (denyOther_canonical h)))
  · exact ite_canonical h (startWgt_canonical h)

theorem writeJournal_canonical {off v} (h : s.fieldsCanonical) : (writeJournal off v s).fieldsCanonical := by
  unfold writeJournal
  refine ite_canonical (retireWrite_canonical h) (ite_canonical (retireWrite_canonical h) (ite_canonical (ite_canonical
    (writeFields_canonical h) h) (ite_canonical h ?_)))
  split
  · exact update_canonical (writeFields_canonical h)
  · exact update_canonical (writeFields_canonical h)
  · exact update_canonical (writeFields_canonical h)
  · exact update_canonical (writeFields_canonical h)
  · exact writeFields_canonical h

theorem writeRing_canonical {k o v off} (h : s.fieldsCanonical) : (writeRing k o v off s).fieldsCanonical := by
  unfold writeRing
  split
  · exact ite_canonical (ringEnable_canonical h) (ringDisable_canonical h)
  · exact subDoorbell_canonical h
  · exact rcptHeadWrite_canonical h
  · exact cmplHeadWrite_canonical h
  · exact ite_canonical h (writeFields_canonical h)

theorem writePort_canonical {p o v off} (h : s.fieldsCanonical) : (writePort p o v off s).fieldsCanonical := by
  unfold writePort
  split
  · exact
      have h1 := setF_canonical h
      have h2 := ite_canonical (linkTestEnter_canonical h1) (ite_canonical (linkTestLeave_canonical h1) h1)
      have h3 := ite_canonical (linkRetrainCmd_canonical h2) h2
      ite_canonical (lossBase_canonical h3) h3
  · exact linkCountClear_canonical h
  · exact foldl_canonical (fun _ ht _ => setF_canonical ht) h
  · exact foldl_canonical (fun _ ht _ => showLoss_canonical ht) (writeFields_canonical h)
  · exact
      have h4 := writeFields_canonical h
      ite_canonical (eyeScanStart_canonical h4) h4

theorem writeIrq_canonical {r o v off} (h : s.fieldsCanonical) : (writeIrq r o v off s).fieldsCanonical :=
  ite_canonical (irqPendSet_canonical h) (ite_canonical (irqPendClr_canonical h) (ite_canonical (irqEnable_canonical h) (ite_canonical
    (irqEnable_canonical h) (ite_canonical (completeSource_canonical h) (ite_canonical (hostEoi_canonical h) (ite_canonical
    (foldl_canonical (fun _ ht _ => ite_canonical ht (senseLine_canonical ht)) (writeFields_canonical h)) (ite_canonical (ite_canonical
    (levelPends_canonical (writeFields_canonical h)) h) (ite_canonical (msixMaskWrite_canonical h) (writeFields_canonical h)))))))))

theorem writeStw_canonical {r off v} (h : s.fieldsCanonical) : (writeStw r off v s).fieldsCanonical := by
  unfold writeStw
  split
  · exact tileCommit_canonical h
  · exact h
  · exact batchOpen_canonical h
  · exact h
  · exact writeFields_canonical h

theorem writeReg_canonical {r off v} (h : s.fieldsCanonical) : (writeReg r off v s).fieldsCanonical := by
  unfold writeReg
  refine ite_canonical (writePort_canonical h) (ite_canonical (writeJournal_canonical h) (ite_canonical (writeRing_canonical h)
    (ite_canonical (writeStw_canonical h) (ite_canonical (writeIrq_canonical h) (ite_canonical (powerSettings_canonical h) ?_)))))
  split
  · exact ite_canonical (tickCapture_canonical h) h
  · exact modeRequest_canonical h
  · exact writeWgtCmd_canonical h
  · exact ite_canonical (recover_canonical h) h
  · exact ite_canonical (dormantRequest_canonical h) h
  · exact
      have h1 := ite_canonical (clearExcl_canonical h) h
      ite_canonical (bootCtlRestart_canonical h1) h1
  · exact ite_canonical (bootUpdStart_canonical h) h
  · exact telClear_canonical h
  · exact writeFields_canonical h

theorem regWrite_canonical {r off size v} (h : s.fieldsCanonical) : (regWrite r off size v s).fieldsCanonical := by
  unfold regWrite
  dsimp only
  refine ite_canonical h ?_
  cases hiOf off with
  | none =>
    dsimp only
    split
    · exact writeReg_canonical (dropHi_canonical h)
    · exact ite_canonical (writeReg_canonical (dropHi_canonical h)) (deny_canonical (dropHi_canonical h))
    · exact ite_canonical (writeReg_canonical (dropHi_canonical h)) (denyOther_canonical (dropHi_canonical h))
  | some hi =>
    dsimp only
    split
    · exact writeReg_canonical (dropHi_canonical (dropHi_canonical h))
    · exact ite_canonical (writeReg_canonical (dropHi_canonical (dropHi_canonical h))) (deny_canonical (dropHi_canonical (dropHi_canonical
      h)))
    · exact ite_canonical (writeReg_canonical (dropHi_canonical (dropHi_canonical h)))
        (denyOther_canonical (dropHi_canonical (dropHi_canonical h)))

theorem loadMet_canonical {full} (h : s.fieldsCanonical) : (loadMet full s).fieldsCanonical :=
  foldl_canonical (fun _ ht _ => ite_canonical (setFields_canonical ht) ht) h

theorem keepHalt_canonical {off met old} (h : s.fieldsCanonical) :
    (keepHalt off met old s).fieldsCanonical := ite_canonical (raise_canonical h) h
theorem registerWrite_canonical {r off size v met} (h : s.fieldsCanonical) : (registerWrite r off size v met s).fieldsCanonical := by
  unfold registerWrite
  exact
    have h1 := regWrite_canonical h
    ite_canonical (keepHalt_canonical h1) (loadMet_canonical h1)

/-! ### Machine/Board -/

theorem logAddrError_canonical {z addr src write} (h : s.fieldsCanonical) : (logAddrError s z addr src write).fieldsCanonical :=
  bump_canonical (raise_canonical (capture_canonical h))

theorem sramByteStore_canonical {o v} (h : s.fieldsCanonical) : (sramByteStore s o v).fieldsCanonical := setCell_canonical h
theorem boardByteStore_canonical {region o v} (h : s.fieldsCanonical) : (boardByteStore region s o v).fieldsCanonical :=
  ite_canonical (sramByteStore_canonical h) (ite_canonical (setMem_canonical h) (setMem_canonical h))

theorem boardReadWord_canonical {r region o} (h : s.fieldsCanonical) : (boardReadWord r region s o).2.fieldsCanonical :=
  ite_snd_canonical (readBytes_canonical h) h

theorem boardWriteWord_canonical {r region o v} (h : s.fieldsCanonical) : (boardWriteWord r region s o v).fieldsCanonical :=
  ite_canonical (regWrite_canonical h) (foldl_canonical (fun _ ht _ => boardByteStore_canonical ht) h)

theorem boardServe_canonical {r region o op} (h : s.fieldsCanonical) : (boardServe r region o op s).2.fieldsCanonical := by
  unfold boardServe
  split
  · exact foldl_snd_canonical (fun _ hx _ => boardReadWord_canonical hx) h
  · exact ite_snd_canonical h (foldl_canonical (fun _ ht _ => boardWriteWord_canonical ht) h)

theorem serveBoard_canonical {r src addr op} (h : s.fieldsCanonical) : (serveBoard r src addr op s).2.fieldsCanonical := by
  unfold serveBoard
  dsimp only
  split
  · refine logAddrError_canonical ?_
    split
    · refine ite_canonical ?_ h
      split
      · exact regWrite_canonical h
      · exact h
    · exact h
  · exact boardServe_canonical h

theorem sendRequest_canonical {r addr op} (h : s.fieldsCanonical) : (sendRequest r addr op s).fieldsCanonical := by
  unfold sendRequest
  dsimp only
  refine ite_canonical (bump_canonical (emit_canonical h)) ?_
  split
  · exact h
  · exact setLink_canonical h

theorem boardAccess_canonical {r src addr op} (h : s.fieldsCanonical) : (boardAccess r src addr op s).fieldsCanonical := by
  unfold boardAccess
  dsimp only
  refine ite_canonical h (ite_canonical ?_ ?_)
  · split
    · exact emit_canonical (serveBoard_canonical h)
    · exact serveBoard_canonical h
  · split
    · exact sendRequest_canonical h
    · exact h

theorem boardRequestTimeout_canonical {p} (h : s.fieldsCanonical) : (boardRequestTimeout p s).fieldsCanonical := failBoardReqs_canonical h

/-! ### Machine/LinkRx -/

theorem countWord_canonical {p l n} (h : s.fieldsCanonical) : (countWord p l s n).fieldsCanonical := by
  unfold countWord
  exact
    have h1 := bump_canonical h
    ite_canonical h1 (ite_canonical (bump_canonical h1) (setF_canonical (addF_canonical (bump_canonical h1))))

theorem stageFlit_canonical {ref f} (h : s.fieldsCanonical) : (stageFlit s ref f).fieldsCanonical :=
  ite_canonical h (ite_canonical h (setSpan_canonical h))

theorem routeDiscard_canonical {p} (h : s.fieldsCanonical) : (routeDiscard s p).fieldsCanonical := raise_canonical (bump_canonical h)
theorem takeData_canonical {p f} (h : s.fieldsCanonical) : (takeData p f s).fieldsCanonical := by
  unfold takeData
  refine ite_canonical (routeDiscard_canonical h) ?_
  split
  · exact routeDiscard_canonical h
  · refine foldl_canonical (fun _ ht _ => setLink_canonical ht) ?_
    split
    · exact stageFlit_canonical h
    · exact h

theorem deliverCtrl_canonical {m} (h : s.fieldsCanonical) : (deliverCtrl s m).fieldsCanonical := setSpan_canonical (bump_canonical h)
theorem takeCtrl_canonical {p f} (h : s.fieldsCanonical) : (takeCtrl p f s).fieldsCanonical := by
  unfold takeCtrl
  refine ite_canonical (bump_canonical h) (ite_canonical h (ite_canonical (ite_canonical (deliverCtrl_canonical h) (forwardUp_canonical h))
    ?_))
  exact
    have h1 := forwardDown_canonical h
    ite_canonical (deliverCtrl_canonical h1) h1

theorem takeResponse_canonical {p tag error words} (h : s.fieldsCanonical) : (takeResponse p tag error words s).fieldsCanonical := by
  unfold takeResponse
  dsimp only
  split
  · exact h
  · exact emit_canonical (setLink_canonical h)

theorem takeBoard_canonical {p f} (h : s.fieldsCanonical) : (takeBoard p f s).fieldsCanonical := by
  unfold takeBoard
  dsimp only
  exact ite_canonical (routeDiscard_canonical h) (ite_canonical (routeDiscard_canonical h) (ite_canonical (ite_canonical h
    (setLink_canonical (serveBoard_canonical h))) (takeResponse_canonical h)))

theorem takeConfirm_canonical {p m} (h : s.fieldsCanonical) : (takeConfirm s p m).fieldsCanonical := by
  unfold takeConfirm
  dsimp only
  exact countWidth_canonical (setLink_canonical (setRxMap_canonical (abortScans_canonical h)))

theorem takeWidth_canonical {p f} (h : s.fieldsCanonical) : (takeWidth p f s).fieldsCanonical := by
  unfold takeWidth
  split
  · exact ite_canonical (beginWidth_canonical (takeAck_canonical h)) h
  · exact ite_canonical (takeConfirm_canonical h) h
  · exact ite_canonical (setLink_canonical (abortScans_canonical h)) h
  · exact h

theorem takeTrain_canonical {p f} (h : s.fieldsCanonical) : (takeTrain p f s).fieldsCanonical :=
  ite_canonical h (ite_canonical (ite_canonical h (leaveUp_canonical h)) (notePeer_canonical h))

theorem deliverFlit_canonical {p f} (h : s.fieldsCanonical) : (deliverFlit p f s).fieldsCanonical := by
  unfold deliverFlit
  split
  · exact takeCtrl_canonical (bump_canonical (setLink_canonical h))
  · exact takeBoard_canonical (bump_canonical (setLink_canonical h))
  · exact takeData_canonical (bump_canonical (setLink_canonical h))

theorem callReplay_canonical {p} (h : s.fieldsCanonical) : (callReplay s p).fieldsCanonical := ite_canonical h (setLink_canonical h)
theorem badFlit_canonical {p} (h : s.fieldsCanonical) : (badFlit s p).fieldsCanonical := callReplay_canonical (bump_canonical h)
theorem takeGood_canonical {p f} (h : s.fieldsCanonical) : (takeGood p f s).fieldsCanonical :=
  ite_canonical (ite_canonical (takeWidth_canonical h) (ite_canonical (takeTrain_canonical h) h)) (ite_canonical (deliverFlit_canonical h)
    (ite_canonical h (ite_canonical (bump_canonical h) (callReplay_canonical h))))

theorem takeSlot_canonical {p bytes bad} (h : s.fieldsCanonical) : (takeSlot p bytes bad s).fieldsCanonical := by
  unfold takeSlot
  split
  · exact badFlit_canonical h
  · refine ite_canonical (badFlit_canonical h) ?_
    exact
      have h1 := takeAck_canonical (setLink_canonical h)
      have h2 := ite_canonical (takeNak_canonical h1) h1
      ite_canonical (takeGood_canonical h2) h2

theorem beginPair_canonical {p x} (h : s.fieldsCanonical) : (beginPair s p x).fieldsCanonical := by
  unfold beginPair
  exact
    have h1 := setLink_canonical (foldl_canonical (fun _ ht _ => countWord_canonical ht) h)
    ite_canonical h1 (ite_canonical (dropRxLane_canonical h1) (ite_canonical (dropRxLane_canonical h1) h1))

theorem drainRx_canonical {p a} (h : s.fieldsCanonical) : (drainRx p a s).fieldsCanonical := by
  induction a generalizing s with
  | zero => exact h
  | succ n ih =>
    unfold drainRx
    split
    · dsimp only
      split
      · exact setLink_canonical h
      · exact ih (takeSlot_canonical (setLink_canonical h))
    · exact h

theorem queueRx_canonical {p x} (h : s.fieldsCanonical) : (queueRx s p x).fieldsCanonical := ite_canonical h (setLink_canonical h)
theorem takeTraining_canonical {p x} (h : s.fieldsCanonical) : (takeTraining p x s).fieldsCanonical := by
  unfold takeTraining
  split
  · exact ite_canonical h (takeTrain_canonical (ite_canonical (takeAck_canonical h) h))
  · exact bump_canonical h

theorem flitReceive_canonical {p x} (h : s.fieldsCanonical) : (flitReceive p x s).fieldsCanonical := by
  unfold flitReceive
  refine ite_canonical h ?_
  exact
    have h1 := ite_canonical (beginPair_canonical h) h
    ite_canonical (drainRx_canonical (queueRx_canonical h1)) (ite_canonical (takeTraining_canonical h1) h1)

/-! ### Machine/Mailbox -/

theorem mailbox_canonical {safe len q serve after} (hserve : ∀ r t, t.fieldsCanonical → (serve r t).2.fieldsCanonical)
    (hafter : ∀ t, t.fieldsCanonical → (after t).fieldsCanonical) (h : s.fieldsCanonical) :
    (mailbox safe len q serve after s).fieldsCanonical := by
  unfold mailbox
  dsimp only
  split
  · exact h
  · split
    · exact respond_canonical h
    · exact
        have h1 := respond_canonical (hserve _ _ h)
        ite_canonical (hafter _ h1) h1

theorem underAction_canonical {a r f} (hf : (f s).2.fieldsCanonical) (h : s.fieldsCanonical) : (underAction a r f s).2.fieldsCanonical :=
  ite_snd_canonical hf (deny_canonical h)

theorem readWords_canonical {r off a} (h : s.fieldsCanonical) : (readWords r off a s).2.fieldsCanonical := by
  induction a generalizing s off with
  | zero => exact h
  | succ n ih =>
    unfold readWords
    dsimp only
    exact ih (readWord_canonical h)

theorem serveRegRead_canonical {q r} (h : s.fieldsCanonical) : (serveRegRead q r s).2.fieldsCanonical := by
  unfold serveRegRead
  dsimp only
  exact ite_snd_canonical h (ite_snd_canonical h (ite_snd_canonical (underAction_canonical (readWords_canonical h) h)
    (ite_snd_canonical (denyOther_canonical h) (readWords_canonical h))))

theorem serveRegWrite_canonical {q r} (h : s.fieldsCanonical) : (serveRegWrite q r s).2.fieldsCanonical :=
  ite_snd_canonical h (regWrite_canonical h)

theorem serveCap_canonical {q r} (h : s.fieldsCanonical) : (serveCap q r s).2.fieldsCanonical := by
  exact underAction_canonical (ite_snd_canonical h (capCommand_canonical h)) h

theorem serveRetireCol_canonical {q r} (h : s.fieldsCanonical) : (serveRetireCol q r s).2.fieldsCanonical := by
  exact underAction_canonical (ite_snd_canonical h (needRetire_canonical h)) h

theorem serveTallyRead_canonical {q r} (h : s.fieldsCanonical) : (serveTallyRead q r s).2.fieldsCanonical := by
  unfold serveTallyRead
  refine underAction_canonical ?_ h
  dsimp only
  split
  · exact ite_snd_canonical h h
  · exact h

theorem serveTallyClear_canonical {q r} (h : s.fieldsCanonical) : (serveTallyClear q r s).2.fieldsCanonical := by
  exact underAction_canonical (ite_snd_canonical h (stampEvent_canonical (setMem_canonical h))) h

theorem serveLcRequest_canonical {q r} (h : s.fieldsCanonical) : (serveLcRequest q r s).2.fieldsCanonical := by
  unfold serveLcRequest
  dsimp only
  refine ite_snd_canonical h ?_
  split
  · exact
      have h1 := stampEvent_canonical (setF_canonical (raise_canonical (drawNonce_canonical h)))
      ite_snd_canonical (denyOther_canonical h1) h1
  · exact setBoot_canonical (setF_canonical (setF_canonical (raise_canonical (drawNonce_canonical h))))

theorem serveDebugToken_canonical {q r} (h : s.fieldsCanonical) : (serveDebugToken q r s).2.fieldsCanonical := by
  unfold serveDebugToken
  dsimp only
  refine ite_snd_canonical h (ite_snd_canonical (denyOther_canonical h) ?_)
  split
  · exact drawNonce_canonical h
  · exact setBoot_canonical (drawNonce_canonical h)

theorem serveRestart_canonical {r} (h : s.fieldsCanonical) : (serveRestart r s).2.fieldsCanonical := by
  exact underAction_canonical (ite_snd_canonical h h) h

theorem serveImageUpdate_canonical {q r} (h : s.fieldsCanonical) : (serveImageUpdate q r s).2.fieldsCanonical :=
  ite_snd_canonical (bootUpdStart_canonical h) (ite_snd_canonical h (ite_snd_canonical h (bootUpdStart_canonical (setF_canonical
    (setF_canonical h)))))

theorem serveWake_canonical {q} (h : s.fieldsCanonical) : (serveWake q s).fieldsCanonical := by
  unfold serveWake
  refine ite_canonical ?_ (mailbox_canonical (fun _ _ ht => pinLatchEdge_canonical ht) (fun _ ht => ht) h)
  split
  · exact respond_canonical h
  · exact pinLatchEdge_canonical (respond_canonical h)

theorem serveOne_canonical {q} (h : s.fieldsCanonical) : (serveOne q s).fieldsCanonical := by
  unfold serveOne
  refine ite_canonical h ?_
  split
  · exact mailbox_canonical (fun _ _ ht => serveRegRead_canonical ht) (fun _ ht => ht) h
  · exact mailbox_canonical (fun _ _ ht => serveRegWrite_canonical ht) (fun _ ht => ht) h
  · exact mailbox_canonical (fun _ _ ht => serveCap_canonical ht) (fun _ ht => ht) h
  · exact mailbox_canonical (fun _ _ ht => serveRetireCol_canonical ht) (fun _ ht => ht) h
  · exact mailbox_canonical (fun _ _ ht => serveTallyRead_canonical ht) (fun _ ht => ht) h
  · exact mailbox_canonical (fun _ _ ht => serveTallyClear_canonical ht) (fun _ ht => ht) h
  · exact mailbox_canonical (fun _ _ ht => serveLcRequest_canonical ht) (fun _ ht => warmReset_canonical ht) h
  · exact mailbox_canonical (fun _ _ ht => serveDebugToken_canonical ht) (fun _ ht => warmReset_canonical ht) h
  · exact mailbox_canonical (fun _ _ ht => serveRestart_canonical ht) (fun _ ht => restart_canonical ht) h
  · exact mailbox_canonical (fun _ _ ht => serveImageUpdate_canonical ht) (fun _ ht => ht) h
  · exact serveWake_canonical h
  · exact mailbox_canonical (fun _ _ ht => ht) (fun _ ht => ht) h

theorem serveNext_canonical (h : s.fieldsCanonical) : (serveNext s).fieldsCanonical := by
  unfold serveNext
  split
  · exact h
  · exact serveOne_canonical (setStw_canonical h)

theorem serveWaiting_canonical {a} (h : s.fieldsCanonical) : (serveWaiting a s).fieldsCanonical := by
  induction a generalizing s with
  | zero => exact h
  | succ n ih => exact ih (serveNext_canonical h)

theorem mboxArrive_canonical {q} (h : s.fieldsCanonical) : (mboxArrive q s).fieldsCanonical := by
  unfold mboxArrive
  refine ite_canonical h (ite_canonical (serveOne_canonical h) (ite_canonical ?_ (ite_canonical (setStw_canonical (raise_canonical h))
    (serveOne_canonical (serveWaiting_canonical (raise_canonical h))))))
  split
  · exact respond_canonical (raise_canonical h)
  · exact raise_canonical h

theorem mboxRow_canonical {code q} (h : s.fieldsCanonical) : (mboxRow code q s).fieldsCanonical := ite_canonical h (mboxArrive_canonical h)
theorem regRead_canonical {q} (h : s.fieldsCanonical) : (regRead q s).fieldsCanonical := mboxRow_canonical h
theorem regWriteMbox_canonical {q} (h : s.fieldsCanonical) : (regWriteMbox q s).fieldsCanonical := mboxRow_canonical h
theorem cap_canonical {q} (h : s.fieldsCanonical) : (cap q s).fieldsCanonical := mboxRow_canonical h
theorem retireCol_canonical {q} (h : s.fieldsCanonical) : (retireCol q s).fieldsCanonical := mboxRow_canonical h
theorem tallyRead_canonical {q} (h : s.fieldsCanonical) : (tallyRead q s).fieldsCanonical := mboxRow_canonical h
theorem tallyClear_canonical {q} (h : s.fieldsCanonical) : (tallyClear q s).fieldsCanonical := mboxRow_canonical h
theorem lcRequest_canonical {q} (h : s.fieldsCanonical) : (lcRequest q s).fieldsCanonical := mboxRow_canonical h
theorem debugToken_canonical {q} (h : s.fieldsCanonical) : (debugToken q s).fieldsCanonical := mboxRow_canonical h
theorem restartMbox_canonical {q} (h : s.fieldsCanonical) : (restartMbox q s).fieldsCanonical := mboxRow_canonical h
theorem imageUpdate_canonical {q} (h : s.fieldsCanonical) : (imageUpdate q s).fieldsCanonical := mboxRow_canonical h
theorem wake_canonical {q} (h : s.fieldsCanonical) : (wake q s).fieldsCanonical := mboxRow_canonical h

/-! ### Machine/Spdm -/

theorem setSpdm_canonical {x} (h : s.fieldsCanonical) : (setSpdm s x).fieldsCanonical := update_canonical h
theorem setEndpointId_canonical {op eid} (h : s.fieldsCanonical) : (setEndpointId op eid s).fieldsCanonical :=
  ite_canonical h (ite_canonical (emit_canonical (setSpdm_canonical h)) (emit_canonical h))

theorem getEndpointId_canonical (h : s.fieldsCanonical) : (getEndpointId s).fieldsCanonical := ite_canonical h (emit_canonical h)
theorem getMctpVersionSupport_canonical {type} (h : s.fieldsCanonical) : (getMctpVersionSupport type s).fieldsCanonical := by
  unfold getMctpVersionSupport
  dsimp only
  exact ite_canonical h (ite_canonical (emit_canonical h) (ite_canonical (emit_canonical (freeVal_canonical h)) (emit_canonical h)))

theorem getMessageTypeSupport_canonical (h : s.fieldsCanonical) :
    (getMessageTypeSupport s).fieldsCanonical := ite_canonical h (emit_canonical h)
theorem spdmError_canonical {q code} (h : s.fieldsCanonical) : (spdmError q code s).fieldsCanonical := emit_canonical h
theorem freeBytes_canonical {a} (h : s.fieldsCanonical) : (freeBytes a s).2.fieldsCanonical := by
  induction a generalizing s with
  | zero => exact h
  | succ n ih =>
    unfold freeBytes
    dsimp only
    exact ih (freeVal_canonical h)

theorem getVersion_canonical {q} (h : s.fieldsCanonical) : (getVersion q s).fieldsCanonical :=
  ite_canonical h (emit_canonical (setSpdm_canonical h))

theorem getCapabilities_canonical {q} (h : s.fieldsCanonical) : (getCapabilities q s).fieldsCanonical :=
  ite_canonical h (ite_canonical (spdmError_canonical h) (emit_canonical (setSpdm_canonical h)))

theorem negotiateAlgorithms_canonical {q} (h : s.fieldsCanonical) : (negotiateAlgorithms q s).fieldsCanonical :=
  ite_canonical h (ite_canonical (spdmError_canonical h) (emit_canonical (setSpdm_canonical h)))

theorem getDigests_canonical {q} (h : s.fieldsCanonical) : (getDigests q s).fieldsCanonical :=
  ite_canonical h (ite_canonical (spdmError_canonical h) (emit_canonical h))

theorem getCertificate_canonical {q off len} (h : s.fieldsCanonical) : (getCertificate q off len s).fieldsCanonical :=
  ite_canonical h (ite_canonical (spdmError_canonical h) (ite_canonical (spdmError_canonical h) (emit_canonical h)))

theorem challenge_canonical {q} (h : s.fieldsCanonical) : (challenge q s).fieldsCanonical := by
  unfold challenge
  dsimp only
  exact ite_canonical h (ite_canonical (spdmError_canonical h) (ite_canonical (spdmError_canonical h) (emit_canonical (freeBytes_canonical
    h))))

theorem getMeasurements_canonical {q} (h : s.fieldsCanonical) : (getMeasurements q s).fieldsCanonical := by
  unfold getMeasurements
  dsimp only
  exact ite_canonical h (ite_canonical (spdmError_canonical h) (ite_canonical (spdmError_canonical h) (emit_canonical (ite_snd_canonical
    (freeBytes_canonical h) h))))

theorem setSessions_canonical {l} (h : s.fieldsCanonical) : (setSessions s l).fieldsCanonical :=
  setF_canonical (setBool_canonical (setSpdm_canonical h))

theorem keyExchange_canonical {q} (h : s.fieldsCanonical) : (keyExchange q s).fieldsCanonical := by
  unfold keyExchange
  dsimp only
  exact ite_canonical h (ite_canonical (spdmError_canonical h) (ite_canonical (spdmError_canonical h) (ite_canonical (spdmError_canonical
    h) (emit_canonical (freeBytes_canonical (setSpdm_canonical h))))))

theorem finish_canonical {q verified} (h : s.fieldsCanonical) : (finish q verified s).fieldsCanonical := by
  unfold finish
  refine ite_canonical h ?_
  split
  · exact spdmError_canonical h
  · exact ite_canonical (spdmError_canonical h) (ite_canonical (emit_canonical (setSessions_canonical h)) (spdmError_canonical
    (setSessions_canonical h)))

theorem inSession_canonical {q code f} (h : s.fieldsCanonical) : (inSession q code f s).fieldsCanonical := by
  unfold inSession
  refine ite_canonical h ?_
  split
  · exact spdmError_canonical h
  · exact ite_canonical (spdmError_canonical h) (emit_canonical (setSessions_canonical h))

theorem heartbeat_canonical {q} (h : s.fieldsCanonical) : (heartbeat q s).fieldsCanonical := inSession_canonical h
theorem keyUpdate_canonical {q} (h : s.fieldsCanonical) : (keyUpdate q s).fieldsCanonical :=
  ite_canonical (ite_canonical (spdmError_canonical h) h) (inSession_canonical h)

theorem endSession_canonical {q} (h : s.fieldsCanonical) : (endSession q s).fieldsCanonical := inSession_canonical h
theorem heartbeatExpiry_canonical {id} (h : s.fieldsCanonical) :
    (heartbeatExpiry id s).fieldsCanonical := ite_canonical h (setSessions_canonical h)
theorem entropyHealthTestFail_canonical (h : s.fieldsCanonical) : (entropyHealthTestFail s).fieldsCanonical := by
  unfold entropyHealthTestFail
  refine ite_canonical h ?_
  exact
    have h1 := raise_canonical (setSessions_canonical h)
    ite_canonical (failStart_canonical h1) (ite_canonical (setF_canonical h1) (enterSafe_canonical (stampEvent_canonical (setF_canonical
      h1))))

/-! ### Machine/Idle -/

theorem idle_canonical (h : s.fieldsCanonical) : (idle s).fieldsCanonical :=
  ite_canonical (serveNext_canonical h) (ite_canonical (setF_canonical h) h)

/-- Every command has a next state, and its register fields are canonical where the present ones are. -/
theorem exec_next : ∀ (c : Instr) (s : State), ∃ t, exec c s = .next t ∧ (s.fieldsCanonical = true → t.fieldsCanonical = true)
  | .registerWrite .., _ => ⟨_, rfl, registerWrite_canonical⟩
  | .loRegisterRead .., _ => ⟨_, rfl, loRegisterRead_canonical⟩
  | .tickCapture, _ => ⟨_, rfl, tickCapture_canonical⟩
  | .boardAccess .., _ => ⟨_, rfl, boardAccess_canonical⟩
  | .boardRequestTimeout .., _ => ⟨_, rfl, boardRequestTimeout_canonical⟩
  | .tick, _ => ⟨_, rfl, tick_canonical⟩
  | .periodChange, _ => ⟨_, rfl, periodChange_canonical⟩
  | .scheduleCycle .., _ => ⟨_, rfl, scheduleCycle_canonical⟩
  | .ingressShutterClose, _ => ⟨_, rfl, ingressShutterClose_canonical⟩
  | .drainSample .., _ => ⟨_, rfl, drainSample_canonical⟩
  | .drainVerdict, _ => ⟨_, rfl, drainVerdict_canonical⟩
  | .drainHoldTimeout, _ => ⟨_, rfl, drainHoldTimeout_canonical⟩
  | .emptyFrameFlip, _ => ⟨_, rfl, emptyFrameFlip_canonical⟩
  | .frameNaming .., _ => ⟨_, rfl, frameNaming_canonical⟩
  | .casementLoadDone .., _ => ⟨_, rfl, casementLoadDone_canonical⟩
  | .paneLoadDone, _ => ⟨_, rfl, paneLoadDone_canonical⟩
  | .checkOnlyPass .., _ => ⟨_, rfl, checkOnlyPass_canonical⟩
  | .modeRequest .., _ => ⟨_, rfl, modeRequest_canonical⟩
  | .modeChangeApply, _ => ⟨_, rfl, modeChangeApply_canonical⟩
  | .stretchReq .., _ => ⟨_, rfl, stretchReq_canonical⟩
  | .stretchGrant .., _ => ⟨_, rfl, stretchGrant_canonical⟩
  | .frameReport .., _ => ⟨_, rfl, frameReport_canonical⟩
  | .faultNotice .., _ => ⟨_, rfl, faultNotice_canonical⟩
  | .decision .., _ => ⟨_, rfl, decision_canonical⟩
  | .alignReport .., _ => ⟨_, rfl, alignReport_canonical⟩
  | .alignGraceExpiry .., _ => ⟨_, rfl, alignGraceExpiry_canonical⟩
  | .memberReportMissing .., _ => ⟨_, rfl, memberReportMissing_canonical⟩
  | .linkLost .., _ => ⟨_, rfl, linkLost_canonical⟩
  | .leave .., _ => ⟨_, rfl, leave_canonical⟩
  | .memberLost .., _ => ⟨_, rfl, memberLostMsg_canonical⟩
  | .selfIsolation, _ => ⟨_, rfl, selfIsolation_canonical⟩
  | .announce .., _ => ⟨_, rfl, announce_canonical⟩
  | .announceApply .., _ => ⟨_, rfl, announceApply_canonical⟩
  | .loadReport .., _ => ⟨_, rfl, loadReportMsg_canonical⟩
  | .takeover .., _ => ⟨_, rfl, takeover_canonical⟩
  | .masterLossTimeout, _ => ⟨_, rfl, masterLossTimeout_canonical⟩
  | .takeoverTimeout, _ => ⟨_, rfl, takeoverTimeout_canonical⟩
  | .spanReceiveComplete .., _ => ⟨_, rfl, spanReceiveComplete_canonical⟩
  | .syncExchange .., _ => ⟨_, rfl, syncExchange_canonical⟩
  | .syncReceive .., _ => ⟨_, rfl, syncReceive_canonical⟩
  | .roundTransmit .., _ => ⟨_, rfl, roundTransmit_canonical⟩
  | .flitReceive .., _ => ⟨_, rfl, flitReceive_canonical⟩
  | .replayTimeout .., _ => ⟨_, rfl, replayTimeout_canonical⟩
  | .nakResendTimeout .., _ => ⟨_, rfl, nakResendTimeout_canonical⟩
  | .laneDrop .., _ => ⟨_, rfl, laneDrop_canonical⟩
  | .portLeaveUp .., _ => ⟨_, rfl, portLeaveUp_canonical⟩
  | .retrainComplete .., _ => ⟨_, rfl, retrainComplete_canonical⟩
  | .retrainTimeout .., _ => ⟨_, rfl, retrainTimeout_canonical⟩
  | .downRetry .., _ => ⟨_, rfl, downRetry_canonical⟩
  | .linkTraining .., _ => ⟨_, rfl, linkTraining_canonical⟩
  | .trainingTimeout .., _ => ⟨_, rfl, trainingTimeout_canonical⟩
  | .lossBase .., _ => ⟨_, rfl, lossBase_canonical⟩
  | .lossEstimateUpdate .., _ => ⟨_, rfl, lossEstimateUpdate_canonical⟩
  | .linkRetrainCmd .., _ => ⟨_, rfl, linkRetrainCmd_canonical⟩
  | .linkTestEnter .., _ => ⟨_, rfl, linkTestEnter_canonical⟩
  | .linkTestLeave .., _ => ⟨_, rfl, linkTestLeave_canonical⟩
  | .linkCountClear .., _ => ⟨_, rfl, linkCountClear_canonical⟩
  | .eyeScanStart .., _ => ⟨_, rfl, eyeScanStart_canonical⟩
  | .eyeScanDone .., _ => ⟨_, rfl, eyeScanDone_canonical⟩
  | .run .., _ => ⟨_, rfl, run_canonical⟩
  | .close .., _ => ⟨_, rfl, close_canonical⟩
  | .subDoorbell .., _ => ⟨_, rfl, subDoorbell_canonical⟩
  | .ringEnable .., _ => ⟨_, rfl, ringEnable_canonical⟩
  | .ringDisable .., _ => ⟨_, rfl, ringDisable_canonical⟩
  | .rcptHeadWrite .., _ => ⟨_, rfl, rcptHeadWrite_canonical⟩
  | .cmplHeadWrite .., _ => ⟨_, rfl, cmplHeadWrite_canonical⟩
  | .retireWrite .., _ => ⟨_, rfl, retireWrite_canonical⟩
  | .recover, _ => ⟨_, rfl, recover_canonical⟩
  | .recoveryComplete .., _ => ⟨_, rfl, recoveryComplete_canonical⟩
  | .completionRecord .., _ => ⟨_, rfl, completionRecord_canonical⟩
  | .fetchComplete .., _ => ⟨_, rfl, fetchComplete_canonical⟩
  | .shardWritten .., _ => ⟨_, rfl, shardWritten_canonical⟩
  | .digestComplete .., _ => ⟨_, rfl, digestComplete_canonical⟩
  | .fetchBoundExpiry .., _ => ⟨_, rfl, fetchBoundExpiry_canonical⟩
  | .storeReadComplete .., _ => ⟨_, rfl, storeReadComplete_canonical⟩
  | .storeReadTimeout .., _ => ⟨_, rfl, storeReadTimeout_canonical⟩
  | .storeControllerDrop .., _ => ⟨_, rfl, storeControllerDrop_canonical⟩
  | .logPagePoll, _ => ⟨_, rfl, logPagePoll_canonical⟩
  | .nearReadUncorrectable .., _ => ⟨_, rfl, nearReadUncorrectable_canonical⟩
  | .nearStackLoss .., _ => ⟨_, rfl, nearStackLoss_canonical⟩
  | .bulkSideLoss .., _ => ⟨_, rfl, bulkSideLoss_canonical⟩
  | .patrolScrub .., _ => ⟨_, rfl, patrolScrub_canonical⟩
  | .ingest .., _ => ⟨_, rfl, ingest_canonical⟩
  | .retire, _ => ⟨_, rfl, retire_canonical⟩
  | .switch .., _ => ⟨_, rfl, switch_canonical⟩
  | .stage, _ => ⟨_, rfl, stage_canonical⟩
  | .unstage, _ => ⟨_, rfl, unstage_canonical⟩
  | .query, _ => ⟨_, rfl, query_canonical⟩
  | .wgtCmdEnd, _ => ⟨_, rfl, wgtCmdEnd_canonical⟩
  | .spanLoad .., _ => ⟨_, rfl, spanLoad_canonical⟩
  | .digestScrubTile .., _ => ⟨_, rfl, digestScrubTile_canonical⟩
  | .ejectWarning, _ => ⟨_, rfl, ejectWarning_canonical⟩
  | .ejectFinish, _ => ⟨_, rfl, ejectFinish_canonical⟩
  | .pinLatchEdge .., _ => ⟨_, rfl, pinLatchEdge_canonical⟩
  | .wakeAlarm, _ => ⟨_, rfl, wakeAlarm_canonical⟩
  | .louvreChange .., _ => ⟨_, rfl, louvreChange_canonical⟩
  | .dormantRequest .., _ => ⟨_, rfl, dormantRequest_canonical⟩
  | .estimatorUpdate .., _ => ⟨_, rfl, estimatorUpdate_canonical⟩
  | .powerMeasurement .., _ => ⟨_, rfl, powerMeasurement_canonical⟩
  | .capSlewStep, _ => ⟨_, rfl, capSlewStep_canonical⟩
  | .railReading .., _ => ⟨_, rfl, railReading_canonical⟩
  | .opRampStep .., _ => ⟨_, rfl, opRampStep_canonical⟩
  | .droop .., _ => ⟨_, rfl, droop_canonical⟩
  | .droopEnd .., _ => ⟨_, rfl, droopEnd_canonical⟩
  | .throttleStep, _ => ⟨_, rfl, throttleStep_canonical⟩
  | .throttleReleaseStep, _ => ⟨_, rfl, throttleReleaseStep_canonical⟩
  | .thermalTrip, _ => ⟨_, rfl, thermalTrip_canonical⟩
  | .regulatorPhaseFault .., _ => ⟨_, rfl, regulatorPhaseFault_canonical⟩
  | .supplyLow, _ => ⟨_, rfl, supplyLow_canonical⟩
  | .supplyFail, _ => ⟨_, rfl, supplyFail_canonical⟩
  | .auxPowerLoss, _ => ⟨_, rfl, auxPowerLoss_canonical⟩
  | .auxPowerOn, _ => ⟨_, rfl, auxPowerOn_canonical⟩
  | .mainPowerOn, _ => ⟨_, rfl, mainPowerOn_canonical⟩
  | .railStartFail, _ => ⟨_, rfl, railStartFail_canonical⟩
  | .railOutOfRegulation .., _ => ⟨_, rfl, railOutOfRegulation_canonical⟩
  | .sysRstN .., _ => ⟨_, rfl, sysRstN_canonical⟩
  | .perstN .., _ => ⟨_, rfl, perstN_canonical⟩
  | .start, _ => ⟨_, rfl, start_canonical⟩
  | .bootStepComplete .., _ => ⟨_, rfl, bootStepComplete_canonical⟩
  | .bootStepFail .., _ => ⟨_, rfl, bootStepFail_canonical⟩
  | .bootRetryReset, _ => ⟨_, rfl, bootRetryReset_canonical⟩
  | .bootCtlRestart .., _ => ⟨_, rfl, bootCtlRestart_canonical⟩
  | .clearExcl .., _ => ⟨_, rfl, clearExcl_canonical⟩
  | .bootUpdStart .., _ => ⟨_, rfl, bootUpdStart_canonical⟩
  | .imageUpdateDone .., _ => ⟨_, rfl, imageUpdateDone_canonical⟩
  | .watchdogExpiry .., _ => ⟨_, rfl, watchdogExpiry_canonical⟩
  | .columnRetirement, _ => ⟨_, rfl, columnRetirement_canonical⟩
  | .batchOpen .., _ => ⟨_, rfl, batchOpen_canonical⟩
  | .ticketRead .., _ => ⟨_, rfl, ticketRead_canonical⟩
  | .ticketPeek .., _ => ⟨_, rfl, ticketPeek_canonical⟩
  | .tileCommit .., _ => ⟨_, rfl, tileCommit_canonical⟩
  | .irqFilterChange .., _ => ⟨_, rfl, irqFilterChange_canonical⟩
  | .irqPendSet .., _ => ⟨_, rfl, irqPendSet_canonical⟩
  | .irqPendClr .., _ => ⟨_, rfl, irqPendClr_canonical⟩
  | .claim .., _ => ⟨_, rfl, claim_canonical⟩
  | .complete .., _ => ⟨_, rfl, completeSource_canonical⟩
  | .msixSend, _ => ⟨_, rfl, msixSend_canonical⟩
  | .hostEoi .., _ => ⟨_, rfl, hostEoi_canonical⟩
  | .moderationExpiry .., _ => ⟨_, rfl, moderationExpiry_canonical⟩
  | .msixMaskWrite .., _ => ⟨_, rfl, msixMaskWrite_canonical⟩
  | .regRead .., _ => ⟨_, rfl, regRead_canonical⟩
  | .regWrite .., _ => ⟨_, rfl, regWriteMbox_canonical⟩
  | .cap .., _ => ⟨_, rfl, cap_canonical⟩
  | .retireCol .., _ => ⟨_, rfl, retireCol_canonical⟩
  | .tallyRead .., _ => ⟨_, rfl, tallyRead_canonical⟩
  | .tallyClear .., _ => ⟨_, rfl, tallyClear_canonical⟩
  | .lcRequest .., _ => ⟨_, rfl, lcRequest_canonical⟩
  | .debugToken .., _ => ⟨_, rfl, debugToken_canonical⟩
  | .restart .., _ => ⟨_, rfl, restartMbox_canonical⟩
  | .imageUpdate .., _ => ⟨_, rfl, imageUpdate_canonical⟩
  | .wake .., _ => ⟨_, rfl, wake_canonical⟩
  | .setEndpointId .., _ => ⟨_, rfl, setEndpointId_canonical⟩
  | .getEndpointId, _ => ⟨_, rfl, getEndpointId_canonical⟩
  | .getMctpVersionSupport .., _ => ⟨_, rfl, getMctpVersionSupport_canonical⟩
  | .getMessageTypeSupport, _ => ⟨_, rfl, getMessageTypeSupport_canonical⟩
  | .getCertificate .., _ => ⟨_, rfl, getCertificate_canonical⟩
  | .challenge .., _ => ⟨_, rfl, challenge_canonical⟩
  | .getMeasurements .., _ => ⟨_, rfl, getMeasurements_canonical⟩
  | .keyExchange .., _ => ⟨_, rfl, keyExchange_canonical⟩
  | .heartbeat .., _ => ⟨_, rfl, heartbeat_canonical⟩
  | .keyUpdate .., _ => ⟨_, rfl, keyUpdate_canonical⟩
  | .telClear .., _ => ⟨_, rfl, telClear_canonical⟩
  | .decompEngineFail .., _ => ⟨_, rfl, decompEngineFail_canonical⟩
  | .bulkReadUncorrectable .., _ => ⟨_, rfl, bulkReadUncorrectable_canonical⟩
  | .monitorUpdate .., _ => ⟨_, rfl, monitorUpdate_canonical⟩
  | .prbsCheckerLock .., _ => ⟨_, rfl, prbsCheckerLock_canonical⟩
  | .stewardRestart .., _ => ⟨_, rfl, stewardRestart_canonical⟩
  | .entropyHealthTestFail, _ => ⟨_, rfl, entropyHealthTestFail_canonical⟩
  | .cycleInFrameSaturation, _ => ⟨_, rfl, cifSaturate_canonical⟩
  | .getVersion .., _ => ⟨_, rfl, getVersion_canonical⟩
  | .getCapabilities .., _ => ⟨_, rfl, getCapabilities_canonical⟩
  | .negotiateAlgorithms .., _ => ⟨_, rfl, negotiateAlgorithms_canonical⟩
  | .getDigests .., _ => ⟨_, rfl, getDigests_canonical⟩
  | .finish .., _ => ⟨_, rfl, finish_canonical⟩
  | .endSession .., _ => ⟨_, rfl, endSession_canonical⟩
  | .heartbeatExpiry .., _ => ⟨_, rfl, heartbeatExpiry_canonical⟩

end

/-- Settles O2: by `exec_next`, each command's meaning is a state. -/
theorem everyCommandAnswers : Obligations.EveryCommandAnswers := by
  intro c s
  obtain ⟨t, ht, -⟩ := exec_next c s
  exact ⟨t, ht⟩

/-- Settles O4: the next state is that of an idle step, or of a command on the queue's rest. -/
theorem stepKeepsFieldsCanonical : Obligations.StepKeepsFieldsCanonical := by
  intro s t h e
  unfold step at e
  split at e
  · cases e
    exact idle_canonical h
  · next c rest _ =>
      obtain ⟨u, hu, hc⟩ := exec_next c { s with pending := rest }
      cases hu.symm.trans e
      exact hc h

end Sys2Proof.Proofs

/-! SUPPORT. Register fields: what a read gives after a write, which fields an operation keeps, and which states differ in fields alone. -/
namespace Sys2Proof.Proofs
open Sys2Proof Sys2Proof.Machine

section
variable {s t u : State} {f g : Fld} {fs gs : List Fld} {v n : Nat}

theorem getF_setF (h : s.fieldsCanonical) : getF (setF s f v) g = if g.key = f.key then v % 2 ^ f.width else getF s g :=
  have hs := (Laws.smapWf_iff.1 h).1
  if e : g.key = f.key then by
    rw [if_pos e, ← Laws.getF_setF_same s f v hs]
    exact congrArg (smapGet fldReset (setF s f v).flds) e
  else by
    rw [if_neg e, Laws.getF_setF_other s f g v e]

theorem isSet_congr (h : getF t f = getF s f) : isSet t f = isSet s f := by unfold isSet; rw [h]

theorem satAdd_mod {w x : Nat} : satAdd w x n % 2 ^ w = satAdd w x n := by
  have := Nat.two_pow_pos w
  exact Nat.mod_eq_of_lt (by unfold satAdd; omega)

theorem satAdd_one {w x : Nat} (h : x < 2 ^ w - 1) : satAdd w x 1 = x + 1 := Nat.min_eq_left h

theorem getF_bump (h : s.fieldsCanonical) : getF (bump s f) f = satAdd f.width (getF s f) 1 := by
  rw [bump, addF, getF_setF h, if_pos rfl, satAdd_mod]

@[simp] theorem getF_setStw {x : StwSt} : getF (setStw s x) f = getF s f := rfl
@[simp] theorem getF_emit {m : OutMsg} : getF (emit s m) f = getF s f := rfl
@[simp] theorem setStw_stw {x : StwSt} : (setStw s x).stw = x := rfl

/-! ### Fields kept -/

theorem fieldsKept_refl : fieldsKept fs s s := fun _ _ => rfl

theorem fieldsKept_trans (h : fieldsKept fs s t) (h' : fieldsKept fs t u) : fieldsKept fs s u :=
  fun f hf => (h' f hf).trans (h f hf)

theorem fieldsKept_mono (h : fieldsKept fs s t) (hsub : fs ⊆ gs) : fieldsKept gs s t :=
  fun f hf => h f fun g hg => hf g (hsub hg)

theorem fieldsKept_setF (h : fieldsKept fs s t) (hf : f ∈ fs) : fieldsKept fs s (setF t f v) :=
  fieldsKept_trans h fun g hg => Laws.getF_setF_other t f g v (hg f hf).symm

theorem fieldsKept_setStw {x : StwSt} (h : fieldsKept fs s t) : fieldsKept fs s (setStw t x) := h
theorem fieldsKept_emit {m : OutMsg} (h : fieldsKept fs s t) : fieldsKept fs s (emit t m) := h

/-! ### What an operation changes besides fields -/

/-- `t` differs from `s` in register fields alone. -/
def FieldsOnly (s t : State) : Prop := ∃ l, t = { s with flds := l }

theorem fieldsOnly_iff : FieldsOnly s t ↔ t = { s with flds := t.flds } :=
  ⟨fun ⟨_, h⟩ => by rw [h], fun h => ⟨_, h⟩⟩

theorem fieldsOnly_refl : FieldsOnly s s := ⟨_, rfl⟩

theorem fieldsOnly_setF (h : FieldsOnly s t) : FieldsOnly s (setF t f v) := by
  obtain ⟨l, rfl⟩ := h
  exact ⟨_, rfl⟩

/-- `t` differs from `s` in register fields and in what the ticket counter keeps. -/
def TicketsOnly (s t : State) : Prop := ∃ l x, t = { s with flds := l, stw := x }

theorem ticketsOnly_iff : TicketsOnly s t ↔ t = { s with flds := t.flds, stw := t.stw } :=
  ⟨fun ⟨_, _, h⟩ => by rw [h], fun h => ⟨_, _, h⟩⟩

theorem ticketsOnly_refl : TicketsOnly s s := ⟨_, _, rfl⟩

theorem ticketsOnly_setF (h : TicketsOnly s t) : TicketsOnly s (setF t f v) := by
  obtain ⟨l, x, rfl⟩ := h
  exact ⟨_, _, rfl⟩

theorem ticketsOnly_setStw {x : StwSt} (h : TicketsOnly s t) : TicketsOnly s (setStw t x) := by
  obtain ⟨l, y, rfl⟩ := h
  exact ⟨_, _, rfl⟩

end

/-- Settles O3. -/
theorem resetValues : Obligations.ResetValues := by
  refine ⟨⟨rfl, rfl, rfl, rfl, rfl, rfl, rfl, rfl, rfl, rfl, ?_, ?_, ?_, ?_, fun _ => rfl, fun _ => rfl⟩, rfl, rfl, rfl, rfl⟩
  · show ∀ n, n < 16 → fldReset (F.LNK_LOSS_CFG n).key = 20
    decide +kernel
  · show ∀ v, v < 256 → fldReset (F.MSIX_CTL v).key = 1
    decide +kernel
  · show ∀ r, r < 64 → fldReset (F.RING_CTL_ANY r).key = 1
    decide +kernel
  · show ∀ v, v < 32 → fldReset (F.TEL_VMON_MIN_MV v).key = 0xFFF
    decide +kernel

end Sys2Proof.Proofs

/-! SUPPORT. The ticket counter: what BATCH_OPEN, TICKET_READ and TILE_COMMIT leave in the fields and in the steward state (R496, R497, R499). -/
namespace Sys2Proof.Proofs
open Sys2Proof Sys2Proof.Machine

section
variable {s t u : State} {f : Fld} {fs : List Fld} {kind count n k : Nat}

theorem exec_batchOpen : exec (.batchOpen kind count) s = .next (batchOpen kind count s) := rfl
theorem exec_ticketRead : exec (.ticketRead n) s = .next (ticketRead n s) := rfl
theorem exec_tileCommit : exec (.tileCommit n k) s = .next (tileCommit n k s) := rfl

/-! ### What each steward holds, as the fields show it -/

@[simp] theorem stw_showHolds : (showHolds s).stw = s.stw := rfl

theorem fieldsKept_showHolds (h : fieldsKept fs s t) (hf : heldFields ⊆ fs) : fieldsKept fs s (showHolds t) := by
  obtain ⟨h0, h1, h2, h3, hl⟩ : F.STW_CORE_HELD 0 ∈ fs ∧ F.STW_CORE_HELD 1 ∈ fs ∧ F.STW_CORE_HELD 2 ∈ fs ∧ F.STW_CORE_HELD 3 ∈ fs ∧
      F.STW_RECLAIM_LEN ∈ fs := by simpa [heldFields] using hf
  exact fieldsKept_setF (fieldsKept_setF (fieldsKept_setF (fieldsKept_setF (fieldsKept_setF h hl) h0) h1) h2) h3

theorem getF_showHolds (h : ∀ g ∈ heldFields, g.key ≠ f.key) : getF (showHolds s) f = getF s f :=
  fieldsKept_showHolds fieldsKept_refl (List.Subset.refl _) f h

theorem fieldsOnly_showHolds (h : FieldsOnly s t) : FieldsOnly s (showHolds t) :=
  fieldsOnly_setF (fieldsOnly_setF (fieldsOnly_setF (fieldsOnly_setF (fieldsOnly_setF h))))

theorem ticketsOnly_showHolds (h : TicketsOnly s t) : TicketsOnly s (showHolds t) :=
  ticketsOnly_setF (ticketsOnly_setF (ticketsOnly_setF (ticketsOnly_setF (ticketsOnly_setF h))))

theorem reclaimLen_showHolds (h : s.fieldsCanonical) (hr : s.stw.reclaim = []) : getF (showHolds s) F.STW_RECLAIM_LEN = 0 := by
  show getF (setF (setF (setF (setF (setF s F.STW_RECLAIM_LEN s.stw.reclaim.length) (F.STW_CORE_HELD 0) _) (F.STW_CORE_HELD 1) _)
    (F.STW_CORE_HELD 2) _) (F.STW_CORE_HELD 3) _) F.STW_RECLAIM_LEN = 0
  simp (disch := (repeat apply setF_canonical); assumption) [getF_setF, hr]

/-! ### BATCH_OPEN -/

/-- The state in which BATCH_OPEN has written what is not reserved of KIND and COUNT (R22). -/
def withBatch (kind count : Nat) (s : State) : State :=
  let s := if kind = 0 ∨ 4 ≤ kind then s else setF s F.STW_BATCH_KIND kind
  if count = 0 ∨ 1048576 < count then s else setF s F.STW_BATCH_COUNT count

/-- The state that BATCH_OPEN makes of that one where it opens the batch. -/
def startBatch (s : State) : State :=
  let u := (List.range 4).foldl (fun s n => lower s (F.STW_COMMIT_RES_VALID n)) (raise s F.STW_BATCH_OPEN)
  showHolds (setStw (setF (setF u F.STW_NEXT 0) F.STW_DONE 0) { s.stw with done := [], holds := [], reclaim := [], history := [] })

theorem batchOpen_eq (h : isSet s F.STW_BATCH_OPEN = false) :
    batchOpen kind count s = if getF (withBatch kind count s) F.STW_BATCH_KIND = 0 ∨ getF (withBatch kind count s) F.STW_BATCH_COUNT = 0
      then withBatch kind count s else startBatch (withBatch kind count s) := by
  unfold batchOpen
  rw [h]
  rfl

theorem withBatch_canonical (h : s.fieldsCanonical) : (withBatch kind count s).fieldsCanonical :=
  have h1 := ite_canonical h (setF_canonical h)
  ite_canonical h1 (setF_canonical h1)

theorem kind_withBatch (h : s.fieldsCanonical) :
    getF (withBatch kind count s) F.STW_BATCH_KIND = if 1 ≤ kind ∧ kind ≤ 3 then kind else getF s F.STW_BATCH_KIND := by
  unfold withBatch
  split_ifs <;> simp (disch := (repeat apply setF_canonical); assumption) [getF_setF] <;> omega

theorem count_withBatch (h : s.fieldsCanonical) :
    getF (withBatch kind count s) F.STW_BATCH_COUNT = if 1 ≤ count ∧ count ≤ 1048576 then count else getF s F.STW_BATCH_COUNT := by
  unfold withBatch
  split_ifs <;> simp (disch := (repeat apply setF_canonical); assumption) [getF_setF] <;> omega

theorem fieldsKept_withBatch : fieldsKept [F.STW_BATCH_KIND, F.STW_BATCH_COUNT] s (withBatch kind count s) := by
  unfold withBatch
  dsimp only
  split <;> split
  · exact fieldsKept_refl
  · exact fieldsKept_setF fieldsKept_refl (by simp)
  · exact fieldsKept_setF fieldsKept_refl (by simp)
  · exact fieldsKept_setF (fieldsKept_setF fieldsKept_refl (by simp)) (by simp)

theorem fieldsOnly_withBatch : FieldsOnly s (withBatch kind count s) := by
  unfold withBatch
  split_ifs <;> exact ⟨_, rfl⟩

theorem isSet_open_withBatch : isSet (withBatch kind count s) F.STW_BATCH_OPEN = isSet s F.STW_BATCH_OPEN :=
  isSet_congr (fieldsKept_withBatch _ (by decide))

/-- Fields that a batch's opening writes. -/
def startedFields : List Fld :=
  heldFields ++ [F.STW_BATCH_OPEN, F.STW_BATCH_KIND, F.STW_BATCH_COUNT, F.STW_NEXT, F.STW_DONE, F.STW_COMMIT_RES_VALID 0,
    F.STW_COMMIT_RES_VALID 1, F.STW_COMMIT_RES_VALID 2, F.STW_COMMIT_RES_VALID 3]

theorem stw_startBatch : (startBatch s).stw = { s.stw with done := [], holds := [], reclaim := [], history := [] } := rfl

theorem fieldsOnly_startBatch (h : FieldsOnly s t) :
    FieldsOnly { s with stw := { s.stw with done := [], holds := [], reclaim := [], history := [] } } (startBatch t) := by
  obtain ⟨l, rfl⟩ := h
  exact fieldsOnly_showHolds ⟨_, rfl⟩

theorem startBatch_fields (h : s.fieldsCanonical) :
    isSet (startBatch s) F.STW_BATCH_OPEN = true ∧ getF (startBatch s) F.STW_BATCH_KIND = getF s F.STW_BATCH_KIND ∧
    getF (startBatch s) F.STW_BATCH_COUNT = getF s F.STW_BATCH_COUNT ∧ getF (startBatch s) F.STW_NEXT = 0 ∧
    getF (startBatch s) F.STW_DONE = 0 := by
  have hshow : ∀ f, (∀ g ∈ heldFields, g.key ≠ f.key) → getF (startBatch s) f = getF (setF (setF
      ((List.range 4).foldl (fun s n => lower s (F.STW_COMMIT_RES_VALID n)) (raise s F.STW_BATCH_OPEN)) F.STW_NEXT 0) F.STW_DONE 0) f :=
    fun f hf => getF_showHolds hf
  unfold isSet
  rw [hshow _ (by decide), hshow _ (by decide), hshow _ (by decide), hshow _ (by decide), hshow _ (by decide)]
  simp (disch := (repeat apply setF_canonical); assumption) [raise, lower, List.range_succ, getF_setF]

theorem reclaimLen_startBatch (h : s.fieldsCanonical) : getF (startBatch s) F.STW_RECLAIM_LEN = 0 := by
  refine reclaimLen_showHolds ?_ rfl
  exact setStw_canonical (setF_canonical (setF_canonical (foldl_canonical (fun _ ht _ => lower_canonical ht) (raise_canonical h))))

theorem fieldsKept_startBatch (h : fieldsKept startedFields s t) : fieldsKept startedFields s (startBatch t) := by
  have hvalid : ∀ n ∈ [0, 1, 2, 3], F.STW_COMMIT_RES_VALID n ∈ startedFields := by simp [startedFields]
  have hopen : fieldsKept startedFields s (raise t F.STW_BATCH_OPEN) := fieldsKept_setF h (by simp [startedFields])
  have hlower : fieldsKept startedFields s
      ((List.range 4).foldl (fun s n => lower s (F.STW_COMMIT_RES_VALID n)) (raise t F.STW_BATCH_OPEN)) :=
    fieldsKept_setF (fieldsKept_setF (fieldsKept_setF (fieldsKept_setF hopen (hvalid 0 (by simp))) (hvalid 1 (by simp)))
      (hvalid 2 (by simp))) (hvalid 3 (by simp))
  refine fieldsKept_showHolds (fieldsKept_setStw (fieldsKept_setF (fieldsKept_setF hlower ?_) ?_)) ?_ <;> simp [startedFields]

section
variable {c : Nat} (h : s.fieldsCanonical) (ho : isSet s F.STW_BATCH_OPEN = false)
  (hk : k = (if 1 ≤ kind ∧ kind ≤ 3 then kind else getF s F.STW_BATCH_KIND))
  (hc : c = (if 1 ≤ count ∧ count ≤ 1048576 then count else getF s F.STW_BATCH_COUNT))
include h ho hk hc

theorem batchOpen_cases :
    batchOpen kind count s = if k = 0 ∨ c = 0 then withBatch kind count s else startBatch (withBatch kind count s) := by
  rw [batchOpen_eq ho, kind_withBatch h, count_withBatch h, ← hk, ← hc]

/-- Where KIND or COUNT then holds no value of R496, no batch opens. -/
theorem batchOpen_none (h0 : k = 0 ∨ c = 0) :
    ∃ t, exec (.batchOpen kind count) s = .next t ∧ isSet t F.STW_BATCH_OPEN = false ∧ getF t F.STW_BATCH_KIND = k ∧
      getF t F.STW_BATCH_COUNT = c ∧ fieldsKept [F.STW_BATCH_KIND, F.STW_BATCH_COUNT] s t ∧ t = { s with flds := t.flds } := by
  have e := batchOpen_cases h ho hk hc
  rw [if_pos h0] at e
  exact ⟨withBatch kind count s, exec_batchOpen.trans (congrArg _ e), isSet_open_withBatch.trans ho, (kind_withBatch h).trans hk.symm,
    (count_withBatch h).trans hc.symm, fieldsKept_withBatch, fieldsOnly_iff.1 fieldsOnly_withBatch⟩

/-- Where both hold one, the batch opens afresh. -/
theorem batchOpen_starts (k0 : k ≠ 0) (c0 : c ≠ 0) :
    ∃ t, exec (.batchOpen kind count) s = .next t ∧ isSet t F.STW_BATCH_OPEN = true ∧ getF t F.STW_BATCH_KIND = k ∧
        getF t F.STW_BATCH_COUNT = c ∧ getF t F.STW_NEXT = 0 ∧ getF t F.STW_DONE = 0 ∧ t.stw.done = [] ∧ t.stw.holds = [] ∧
        t.stw.reclaim = [] ∧ getF t F.STW_RECLAIM_LEN = 0 ∧ fieldsKept startedFields s t ∧
        t = { s with flds := t.flds, stw := { t.stw with
          warned := s.stw.warned, countAt := s.stw.countAt, resetAt := s.stw.resetAt, waiting := s.stw.waiting, mbox := s.stw.mbox,
          closed := s.stw.closed } } := by
  have e := batchOpen_cases h ho hk hc
  rw [if_neg (by simp [k0, c0])] at e
  have hw : (withBatch kind count s).fieldsCanonical := withBatch_canonical h
  obtain ⟨e1, e2, e3, e4, e5⟩ := startBatch_fields hw
  refine ⟨startBatch (withBatch kind count s), exec_batchOpen.trans (congrArg _ e), e1, (e2.trans (kind_withBatch h)).trans hk.symm,
    (e3.trans (count_withBatch h)).trans hc.symm, e4, e5, ?_, ?_, ?_, reclaimLen_startBatch hw, ?_, ?_⟩
  · rw [stw_startBatch]
  · rw [stw_startBatch]
  · rw [stw_startBatch]
  · exact fieldsKept_startBatch (fieldsKept_mono fieldsKept_withBatch (by simp [startedFields]))
  · obtain ⟨l, hl⟩ := fieldsOnly_startBatch (fieldsOnly_withBatch : FieldsOnly s (withBatch kind count s))
    rw [hl]

end

/-! ### TICKET_READ -/

theorem nextTicket_reclaim {l : List Nat} (ho : isSet s F.STW_BATCH_OPEN = true) (hr : s.stw.reclaim = k :: l) :
    nextTicket s = (2 ^ 30 + k, some (k, true)) := by
  simp [nextTicket, ho, hr]

theorem nextTicket_fresh (ho : isSet s F.STW_BATCH_OPEN = true) (hr : s.stw.reclaim = []) (hlt : getF s F.STW_NEXT < getF s F.STW_BATCH_COUNT) :
    nextTicket s = (getF s F.STW_NEXT, some (getF s F.STW_NEXT, false)) := by
  simp [nextTicket, ho, hr, hlt]

theorem nextTicket_empty (ho : isSet s F.STW_BATCH_OPEN = true) (hr : s.stw.reclaim = []) (hle : getF s F.STW_BATCH_COUNT ≤ getF s F.STW_NEXT) :
    nextTicket s = (2 ^ 31, none) := by
  simp [nextTicket, ho, hr, hle]

theorem ticketRead_full (hn : n < 4) (h : 16 ≤ (heldBy s n).length) :
    ticketRead n s = emit s (.readDone (.steward n) 0x160010 (2 ^ 31 + 2 ^ 29)) := by
  simp only [ticketRead, ticketGrant, if_neg (Nat.not_le.2 hn), if_pos h]

/-- The state in which the ticket counter has granted steward `n` what it grants next. -/
def grantNext (s : State) (n : Nat) : State :=
  match (nextTicket s).2 with
  | some (k, true) => setStw s { s.stw with reclaim := s.stw.reclaim.drop 1, holds := s.stw.holds ++ [(k, n)] }
  | some (k, false) => setStw (setF s F.STW_NEXT (k + 1)) { s.stw with holds := s.stw.holds ++ [(k, n)] }
  | none => s

theorem ticketRead_grants (hn : n < 4) (h : (heldBy s n).length < 16) :
    ticketRead n s = emit (showHolds (grantNext s n)) (.readDone (.steward n) 0x160010 (nextTicket s).1) := by
  simp only [ticketRead, ticketGrant, if_neg (Nat.not_le.2 hn), if_neg (Nat.not_le.2 h)]
  rfl

section
variable (hn : n < 4) (hl : (heldBy s n).length < 16) (ho : isSet s F.STW_BATCH_OPEN = true)
include hn hl ho

theorem ticketRead_reclaim {l : List Nat} (hr : s.stw.reclaim = k :: l) :
    ticketRead n s = emit (showHolds (setStw s { s.stw with reclaim := l, holds := s.stw.holds ++ [(k, n)] }))
      (.readDone (.steward n) 0x160010 (2 ^ 30 + k)) := by
  rw [ticketRead_grants hn hl, grantNext, nextTicket_reclaim ho hr, hr]
  rfl

theorem ticketRead_fresh (hr : s.stw.reclaim = []) (hlt : getF s F.STW_NEXT < getF s F.STW_BATCH_COUNT) :
    ticketRead n s = emit (showHolds (setStw (setF s F.STW_NEXT (getF s F.STW_NEXT + 1))
      { s.stw with holds := s.stw.holds ++ [(getF s F.STW_NEXT, n)] })) (.readDone (.steward n) 0x160010 (getF s F.STW_NEXT)) := by
  rw [ticketRead_grants hn hl, grantNext, nextTicket_fresh ho hr hlt]

theorem ticketRead_empty (hr : s.stw.reclaim = []) (hle : getF s F.STW_BATCH_COUNT ≤ getF s F.STW_NEXT) :
    ticketRead n s = emit (showHolds s) (.readDone (.steward n) 0x160010 (2 ^ 31)) := by
  rw [ticketRead_grants hn hl, grantNext, nextTicket_empty ho hr hle]

end

theorem emit_ticketsOnly {m : OutMsg} (h : TicketsOnly s t) (hu : u = emit t m) :
    u.out = s.out ++ [m] ∧ u.stw = t.stw ∧ u = { s with flds := u.flds, stw := u.stw, out := u.out } := by
  obtain ⟨l, x, rfl⟩ := h
  rw [hu]
  exact ⟨rfl, rfl, rfl⟩

theorem emit_fieldsOnly {m : OutMsg} (h : FieldsOnly s t) (hu : u = emit t m) :
    u.out = s.out ++ [m] ∧ u.stw = s.stw ∧ u = { s with flds := u.flds, out := u.out } := by
  obtain ⟨l, rfl⟩ := h
  rw [hu]
  exact ⟨rfl, rfl, rfl⟩

section
variable (hn : n < 4) (hl : (heldBy s n).length < 16) (ho : isSet s F.STW_BATCH_OPEN = true)
include hn hl ho

/-- A read of STW_TICKET takes the head of the reclaim list. -/
theorem ticketRead_takes_reclaimed {l : List Nat} (hr : s.stw.reclaim = k :: l) : ∃ t, exec (.ticketRead n) s = .next t ∧
    t.out = s.out ++ [.readDone (.steward n) 0x160010 (2 ^ 30 + k)] ∧ t.stw = { s.stw with reclaim := l, holds := s.stw.holds ++ [(k, n)] } ∧
    fieldsKept heldFields s t ∧ t = { s with flds := t.flds, stw := t.stw, out := t.out } := by
  have e := ticketRead_reclaim hn hl ho hr
  obtain ⟨hout, hstw, hframe⟩ := emit_ticketsOnly (ticketsOnly_showHolds (ticketsOnly_setStw ticketsOnly_refl)) e
  refine ⟨_, exec_ticketRead, hout, hstw, ?_, hframe⟩
  rw [e]
  exact fieldsKept_emit (fieldsKept_showHolds (fieldsKept_setStw fieldsKept_refl) (List.Subset.refl _))

/-- With nothing reclaimed it takes the next fresh ticket. -/
theorem ticketRead_takes_fresh (h : s.fieldsCanonical) (hcnt : getF s F.STW_BATCH_COUNT ≤ 1048576) (hr : s.stw.reclaim = [])
    (hlt : getF s F.STW_NEXT < getF s F.STW_BATCH_COUNT) : ∃ t, exec (.ticketRead n) s = .next t ∧
    t.out = s.out ++ [.readDone (.steward n) 0x160010 (getF s F.STW_NEXT)] ∧ getF t F.STW_NEXT = getF s F.STW_NEXT + 1 ∧
    t.stw = { s.stw with holds := s.stw.holds ++ [(getF s F.STW_NEXT, n)] } ∧ fieldsKept (F.STW_NEXT :: heldFields) s t ∧
    t = { s with flds := t.flds, stw := t.stw, out := t.out } := by
  have e := ticketRead_fresh hn hl ho hr hlt
  have hsmall : getF s F.STW_NEXT + 1 < 2 ^ 32 := by omega
  obtain ⟨hout, hstw, hframe⟩ := emit_ticketsOnly (ticketsOnly_showHolds (ticketsOnly_setStw (ticketsOnly_setF ticketsOnly_refl))) e
  refine ⟨_, exec_ticketRead, hout, ?_, hstw, ?_, hframe⟩ <;> rw [e]
  · rw [getF_emit, getF_showHolds (by decide), getF_setStw, getF_setF h, if_pos rfl]
    exact Nat.mod_eq_of_lt hsmall
  · exact fieldsKept_emit (fieldsKept_showHolds (fieldsKept_setStw (fieldsKept_setF fieldsKept_refl List.mem_cons_self))
      (List.subset_cons_self _ _))

/-- With every ticket out it answers EMPTY. -/
theorem ticketRead_finds_none (hr : s.stw.reclaim = []) (hle : getF s F.STW_BATCH_COUNT ≤ getF s F.STW_NEXT) :
    ∃ t, exec (.ticketRead n) s = .next t ∧ t.out = s.out ++ [.readDone (.steward n) 0x160010 (2 ^ 31)] ∧ t.stw = s.stw ∧
      fieldsKept heldFields s t ∧ t = { s with flds := t.flds, out := t.out } := by
  have e := ticketRead_empty hn hl ho hr hle
  obtain ⟨hout, hstw, hframe⟩ := emit_fieldsOnly (fieldsOnly_showHolds fieldsOnly_refl) e
  refine ⟨_, exec_ticketRead, hout, hstw, ?_, hframe⟩
  rw [e]
  exact fieldsKept_emit (fieldsKept_showHolds fieldsKept_refl (List.Subset.refl _))

end

/-! ### TILE_COMMIT -/

/-- Fields that a batch's close writes. -/
def closedFields : List Fld := [F.STW_BATCH_OPEN, F.STW_STAT_BATCH_DONE, F.STW_BATCH_ID]

theorem closeBatch_early (h : getF s F.STW_DONE < getF s F.STW_BATCH_COUNT) : closeBatch s = s := if_pos h

theorem closeBatch_last (h : getF s F.STW_BATCH_COUNT ≤ getF s F.STW_DONE) :
    closeBatch s = setStw (bump (raise (lower s F.STW_BATCH_OPEN) F.STW_STAT_BATCH_DONE) F.STW_BATCH_ID)
      { s.stw with closed := getF s F.STW_BATCH_KIND } := by
  have e : getF (bump (raise (lower s F.STW_BATCH_OPEN) F.STW_STAT_BATCH_DONE) F.STW_BATCH_ID) F.STW_BATCH_KIND = getF s F.STW_BATCH_KIND :=
    fieldsKept_setF (fieldsKept_setF (fieldsKept_setF (fieldsKept_refl : fieldsKept closedFields s s) (by simp [closedFields]))
      (by simp [closedFields])) (by simp [closedFields]) F.STW_BATCH_KIND (by decide)
  rw [← e]
  exact if_neg (Nat.not_lt.2 h)

theorem fieldsKept_closeBatch : fieldsKept closedFields s (closeBatch s) := by
  rcases Nat.lt_or_ge (getF s F.STW_DONE) (getF s F.STW_BATCH_COUNT) with h | h
  · rw [closeBatch_early h]
    exact fieldsKept_refl
  · rw [closeBatch_last h]
    exact fieldsKept_setStw (fieldsKept_setF (fieldsKept_setF (fieldsKept_setF fieldsKept_refl (by simp [closedFields]))
      (by simp [closedFields])) (by simp [closedFields]))

theorem closeBatch_stw : (closeBatch s).stw =
    { s.stw with closed := if getF s F.STW_DONE < getF s F.STW_BATCH_COUNT then s.stw.closed else getF s F.STW_BATCH_KIND } := by
  rcases Nat.lt_or_ge (getF s F.STW_DONE) (getF s F.STW_BATCH_COUNT) with h | h
  · rw [closeBatch_early h, if_pos h]
  · rw [closeBatch_last h, if_neg (Nat.not_lt.2 h), setStw_stw]

theorem ticketsOnly_closeBatch (h : TicketsOnly s t) : TicketsOnly s (closeBatch t) := by
  rcases Nat.lt_or_ge (getF t F.STW_DONE) (getF t F.STW_BATCH_COUNT) with hd | hd
  · rw [closeBatch_early hd]
    exact h
  · rw [closeBatch_last hd]
    exact ticketsOnly_setStw (ticketsOnly_setF (ticketsOnly_setF (ticketsOnly_setF h)))

theorem closeBatch_open (h : s.fieldsCanonical) : isSet (closeBatch s) F.STW_BATCH_OPEN =
    (isSet s F.STW_BATCH_OPEN && decide (getF s F.STW_DONE < getF s F.STW_BATCH_COUNT)) := by
  rcases Nat.lt_or_ge (getF s F.STW_DONE) (getF s F.STW_BATCH_COUNT) with hd | hd
  · simp [closeBatch_early hd, hd]
  · simp (disch := (repeat apply setF_canonical); assumption) [closeBatch_last hd, Nat.not_lt.2 hd, isSet, bump, addF, raise, lower, getF_setF]

theorem closeBatch_done (h : s.fieldsCanonical) (hd : getF s F.STW_BATCH_COUNT ≤ getF s F.STW_DONE) :
    isSet (closeBatch s) F.STW_STAT_BATCH_DONE = true ∧ getF (closeBatch s) F.STW_BATCH_ID = satAdd 32 (getF s F.STW_BATCH_ID) 1 := by
  have hc : (raise (lower s F.STW_BATCH_OPEN) F.STW_STAT_BATCH_DONE).fieldsCanonical := raise_canonical (lower_canonical h)
  rw [closeBatch_last hd, getF_setStw, getF_bump hc]
  simp (disch := (repeat apply setF_canonical); assumption) [isSet, bump, addF, raise, lower, getF_setF]

theorem commitResult_fields (n : Nat) (h : s.fieldsCanonical) (hk : k < 1048576) (won : Bool) :
    isSet (commitResult s n k won) (F.STW_COMMIT_RES_VALID n) = true ∧ isSet (commitResult s n k won) (F.STW_COMMIT_RES_WON n) = won ∧
    getF (commitResult s n k won) (F.STW_COMMIT_RES_TICKET n) = k := by
  simp (disch := (repeat apply setF_canonical); assumption) [commitResult, isSet, raise, setBool, getF_setF, Nat.mod_eq_of_lt hk]
  cases won <;> rfl

theorem fieldsKept_commitResult {won : Bool} :
    fieldsKept [F.STW_COMMIT_RES_VALID n, F.STW_COMMIT_RES_WON n, F.STW_COMMIT_RES_TICKET n] s (commitResult s n k won) :=
  fieldsKept_setF (fieldsKept_setF (fieldsKept_setF fieldsKept_refl (by simp)) (by simp)) (by simp)

theorem fieldsOnly_commitResult {won : Bool} (h : FieldsOnly s t) : FieldsOnly s (commitResult t n k won) :=
  fieldsOnly_setF (fieldsOnly_setF (fieldsOnly_setF h))

/-- The state after a winning commit, before the batch may close. -/
def commitWon (s : State) (n k : Nat) : State :=
  setF (bump (commitResult (setStw s { s.stw with done := s.stw.done ++ [k], holds := s.stw.holds.filter (fun h => h.1 != k) }) n k true)
    F.STW_CNT_COMMIT) F.STW_DONE (s.stw.done.length + 1)

theorem commitWon_canonical (h : s.fieldsCanonical) : (commitWon s n k).fieldsCanonical :=
  setF_canonical (bump_canonical (commitResult_canonical (setStw_canonical h)))

theorem commitWon_stw : (commitWon s n k).stw =
    { s.stw with done := s.stw.done ++ [k], holds := s.stw.holds.filter (fun h => h.1 != k) } := rfl

theorem ticketsOnly_commitWon : TicketsOnly s (commitWon s n k) :=
  ticketsOnly_setF (ticketsOnly_setF (ticketsOnly_setF (ticketsOnly_setF (ticketsOnly_setF (ticketsOnly_setStw ticketsOnly_refl)))))

theorem commitWon_fields (h : s.fieldsCanonical) (hn : n < 4) (hk : k < 1048576) (hl : s.stw.done.length < 2 ^ 20) :
    isSet (commitWon s n k) (F.STW_COMMIT_RES_VALID n) = true ∧ isSet (commitWon s n k) (F.STW_COMMIT_RES_WON n) = true ∧
    getF (commitWon s n k) (F.STW_COMMIT_RES_TICKET n) = k ∧ getF (commitWon s n k) F.STW_CNT_COMMIT = satAdd 32 (getF s F.STW_CNT_COMMIT) 1 ∧
    getF (commitWon s n k) F.STW_DONE = s.stw.done.length + 1 := by
  let u := setStw s { s.stw with done := s.stw.done ++ [k], holds := s.stw.holds.filter (fun h => h.1 != k) }
  have hu : u.fieldsCanonical := setStw_canonical h
  have hc : (commitResult u n k true).fieldsCanonical := commitResult_canonical hu
  obtain ⟨hv, hw, ht⟩ := commitResult_fields n hu hk true
  have hkept : fieldsKept [F.STW_CNT_COMMIT, F.STW_DONE] (commitResult u n k true) (commitWon s n k) :=
    fieldsKept_setF (fieldsKept_setF fieldsKept_refl (by simp)) (by simp)
  refine ⟨?_, ?_, ?_, ?_, ?_⟩
  · rw [isSet_congr (hkept _ (by simp; omega)), hv]
  · rw [isSet_congr (hkept _ (by simp; omega)), hw]
  · rw [hkept _ (by simp; omega), ht]
  · rw [commitWon, getF_setF (bump_canonical hc), if_neg (by decide), getF_bump hc,
      fieldsKept_commitResult F.STW_CNT_COMMIT (by simp; omega), getF_setStw]
  · have : s.stw.done.length + 1 < 2 ^ 32 := by omega
    rw [commitWon, getF_setF (bump_canonical hc), if_pos rfl]
    exact Nat.mod_eq_of_lt this

theorem fieldsKept_commitWon :
    fieldsKept [F.STW_COMMIT_RES_VALID n, F.STW_COMMIT_RES_WON n, F.STW_COMMIT_RES_TICKET n, F.STW_CNT_COMMIT, F.STW_DONE] s
      (commitWon s n k) := by
  refine fieldsKept_setF (fieldsKept_setF ?_ (by simp)) (by simp)
  exact fieldsKept_mono (fieldsKept_commitResult : fieldsKept _ (setStw s _) _) (by simp)

theorem tileCommit_wins (hn : n < 4) (ho : isSet s F.STW_BATCH_OPEN = true) (hk : k < getF s F.STW_BATCH_COUNT) (hh : (k, n) ∈ s.stw.holds)
    (hd : k ∉ s.stw.done) : tileCommit n k s = showHolds (closeBatch (commitWon s n k)) := by
  have hany : s.stw.holds.any (fun h => h == (k, n)) = true := List.any_eq_true.2 ⟨_, hh, by simp⟩
  have hc : s.stw.done.contains k = false := by simpa using hd
  have hl : (s.stw.done ++ [k]).length = s.stw.done.length + 1 := by simp
  unfold tileCommit commitWon
  rw [← hl]
  simp only [if_neg (Nat.not_le.2 hn), ho, hk, hany, hc, decide_true, Bool.true_or, Bool.and_true, Bool.not_false, if_true]
  rfl

theorem tileCommit_discards (hn : n < 4) (h : k ∈ s.stw.done ∨ ((k, n) ∉ s.stw.holds ∧ k ∉ s.stw.history)) :
    tileCommit n k s = bump (raise (commitResult s n k false) F.STW_STAT_DUP) F.STW_CNT_DUP := by
  unfold tileCommit
  rw [if_neg (Nat.not_le.2 hn)]
  refine if_neg ?_
  rcases h with h | ⟨h, h'⟩
  · simp [h]
  · simp [h, h']

/-- The first commit of a tile that the steward holds wins; the last one closes the batch. -/
theorem tileCommit_first (h : s.fieldsCanonical) (hn : n < 4) (hk : k < 1048576) (ho : isSet s F.STW_BATCH_OPEN = true)
    (hc : k < getF s F.STW_BATCH_COUNT) (hh : (k, n) ∈ s.stw.holds) (hd : k ∉ s.stw.done) (hl : s.stw.done.length < 2 ^ 20) :
    ∃ t, exec (.tileCommit n k) s = .next t ∧
      t.stw = { s.stw with done := s.stw.done ++ [k], holds := s.stw.holds.filter (fun h => h.1 != k), closed :=
      if s.stw.done.length + 1 < getF s F.STW_BATCH_COUNT then s.stw.closed else getF s F.STW_BATCH_KIND } ∧
      isSet t (F.STW_COMMIT_RES_VALID n) = true ∧ isSet t (F.STW_COMMIT_RES_WON n) = true ∧ getF t (F.STW_COMMIT_RES_TICKET n) = k ∧
      getF t F.STW_CNT_COMMIT = satAdd 32 (getF s F.STW_CNT_COMMIT) 1 ∧ getF t F.STW_DONE = s.stw.done.length + 1 ∧
      isSet t F.STW_BATCH_OPEN = decide (s.stw.done.length + 1 < getF s F.STW_BATCH_COUNT) ∧
      (getF s F.STW_BATCH_COUNT ≤ s.stw.done.length + 1 → isSet t F.STW_STAT_BATCH_DONE = true ∧
      (getF s F.STW_BATCH_ID < 2 ^ 32 - 1 → getF t F.STW_BATCH_ID = getF s F.STW_BATCH_ID + 1)) ∧
      fieldsKept (heldFields ++ [F.STW_COMMIT_RES_VALID n, F.STW_COMMIT_RES_WON n, F.STW_COMMIT_RES_TICKET n, F.STW_CNT_COMMIT, F.STW_DONE,
      F.STW_BATCH_OPEN, F.STW_STAT_BATCH_DONE, F.STW_BATCH_ID]) s t ∧ t = { s with flds := t.flds, stw := t.stw } := by
  have hcan : (commitWon s n k).fieldsCanonical := commitWon_canonical h
  obtain ⟨hv, hw, ht, hcnt, hdone⟩ := commitWon_fields h hn hk hl
  have hwon : fieldsKept _ s (commitWon s n k) := fieldsKept_commitWon
  have hcount : getF (commitWon s n k) F.STW_BATCH_COUNT = getF s F.STW_BATCH_COUNT := hwon _ (by simp; omega)
  have hkind : getF (commitWon s n k) F.STW_BATCH_KIND = getF s F.STW_BATCH_KIND := hwon _ (by simp; omega)
  have hopen : getF (commitWon s n k) F.STW_BATCH_OPEN = getF s F.STW_BATCH_OPEN := hwon _ (by simp; omega)
  have hid : getF (commitWon s n k) F.STW_BATCH_ID = getF s F.STW_BATCH_ID := hwon _ (by simp; omega)
  have hend : fieldsKept (heldFields ++ closedFields) (commitWon s n k) (showHolds (closeBatch (commitWon s n k))) :=
    fieldsKept_showHolds (fieldsKept_mono fieldsKept_closeBatch (by simp)) (by simp)
  refine ⟨_, exec_tileCommit, ?_⟩
  rw [tileCommit_wins hn ho hc hh hd]
  refine ⟨?_, ?_, ?_, ?_, ?_, ?_, ?_, fun hlast => ⟨?_, fun hsat => ?_⟩, ?_, ?_⟩
  · rw [stw_showHolds, closeBatch_stw, hdone, hcount, hkind, commitWon_stw]
  · rw [isSet_congr (hend _ (by simp [heldFields, closedFields]; omega)), hv]
  · rw [isSet_congr (hend _ (by simp [heldFields, closedFields]; omega)), hw]
  · rw [hend _ (by simp [heldFields, closedFields]; omega), ht]
  · rw [hend _ (by decide), hcnt]
  · rw [hend _ (by decide), hdone]
  · rw [isSet_congr (getF_showHolds (by decide)), closeBatch_open hcan, isSet_congr hopen, ho, hdone, hcount, Bool.true_and]
  · rw [isSet_congr (getF_showHolds (by decide)), (closeBatch_done hcan (by omega)).1]
  · rw [getF_showHolds (by decide), (closeBatch_done hcan (by omega)).2, hid, satAdd_one hsat]
  · exact fieldsKept_trans (fieldsKept_mono hwon (by simp)) (fieldsKept_mono hend (by simp [closedFields]))
  · exact ticketsOnly_iff.1 (ticketsOnly_showHolds (ticketsOnly_closeBatch ticketsOnly_commitWon))

/-- A commit of a tile that has one, or of a ticket never held, is discarded. -/
theorem tileCommit_duplicate (h : s.fieldsCanonical) (hn : n < 4) (hk : k < 1048576)
    (hd : k ∈ s.stw.done ∨ ((k, n) ∉ s.stw.holds ∧ k ∉ s.stw.history)) :
    ∃ t, exec (.tileCommit n k) s = .next t ∧ isSet t F.STW_STAT_DUP = true ∧
        getF t F.STW_CNT_DUP = satAdd 32 (getF s F.STW_CNT_DUP) 1 ∧ isSet t (F.STW_COMMIT_RES_VALID n) = true ∧
        isSet t (F.STW_COMMIT_RES_WON n) = false ∧ getF t (F.STW_COMMIT_RES_TICKET n) = k ∧
        fieldsKept [F.STW_COMMIT_RES_VALID n, F.STW_COMMIT_RES_WON n, F.STW_COMMIT_RES_TICKET n, F.STW_STAT_DUP, F.STW_CNT_DUP] s t ∧
        t = { s with flds := t.flds } := by
  have hc : (commitResult s n k false).fieldsCanonical := commitResult_canonical h
  obtain ⟨hv, hw, ht⟩ := commitResult_fields n h hk false
  have hkept : fieldsKept [F.STW_STAT_DUP, F.STW_CNT_DUP] (commitResult s n k false)
      (bump (raise (commitResult s n k false) F.STW_STAT_DUP) F.STW_CNT_DUP) :=
    fieldsKept_setF (fieldsKept_setF fieldsKept_refl (by simp)) (by simp)
  refine ⟨_, exec_tileCommit, ?_⟩
  rw [tileCommit_discards hn hd]
  refine ⟨?_, ?_, ?_, ?_, ?_, ?_, fieldsOnly_iff.1 (fieldsOnly_setF (fieldsOnly_setF (fieldsOnly_commitResult fieldsOnly_refl)))⟩
  · simp (disch := (repeat apply setF_canonical); assumption) [isSet, raise, bump, addF, getF_setF]
  · rw [getF_bump (raise_canonical hc), raise, getF_setF hc, if_neg (by decide), fieldsKept_commitResult F.STW_CNT_DUP (by simp; omega)]
  · rw [isSet_congr (hkept _ (by simp; omega)), hv]
  · rw [isSet_congr (hkept _ (by simp; omega)), hw]
  · rw [hkept _ (by simp; omega), ht]
  · exact fieldsKept_trans (fieldsKept_mono fieldsKept_commitResult (by simp)) (fieldsKept_mono hkept (by simp))

end

/-- Settles O7, part by part: the opening, the reads of STW_TICKET, the commits. -/
theorem batchesHandOutTickets : Obligations.BatchesHandOutTickets :=
  ⟨fun _ _ _ _ _ h ho hk hc => ⟨batchOpen_none h ho hk hc, batchOpen_starts h ho hk hc⟩,
    fun _ _ h hn ho hc => ⟨fun _ _ hr hl => ticketRead_takes_reclaimed hn hl ho hr, fun hr hlt hl => ticketRead_takes_fresh hn hl ho h hc hr hlt,
      fun hr hle hl => ticketRead_finds_none hn hl ho hr hle, fun hl => ⟨_, exec_ticketRead.trans (congrArg _ (ticketRead_full hn hl)), rfl⟩⟩,
    fun _ _ _ h hn hk => ⟨tileCommit_first h hn hk, tileCommit_duplicate h hn hk⟩⟩

end Sys2Proof.Proofs

/-! SUPPORT. Register writes: a counterexample to O6. -/
namespace Sys2Proof.Proofs
open Sys2Proof Sys2Proof.Machine

theorem exec_registerWrite {r : Requester} {off size v met : Nat} {s : State} :
    exec (.registerWrite r off size (v, met)) s = .next (registerWrite r off size v met s) := rfl

/-- Refutes O6: a write of a wrong size can change the module. The state below is what a refused access leaves that finds DEV_AERR.RANGE set by an
earlier cycle, so that its capture is held back, and a write of the same cycle with `met` 0 that then clears RANGE. A write of 2 bytes to DEV_AERR
reaches no register; with `met` 1 `registerWrite` still loads that capture, so that DEV_AERR_LO reads 64 after it and 0 before. -/
theorem not_registersAreReadAndWritten : ¬ Obligations.RegistersAreReadAndWritten := by
  intro h
  obtain ⟨hwrite, -, -⟩ := h
  obtain ⟨-, -, -, hsize⟩ := hwrite
    { flds := [(F.DEV_AERR_CNT.key, 1)],
      boot := { phase := .ready },
      caps := [⟨addrErrorBits, (0, 0, 0), [F.DEV_AERR_RANGE],
        [(F.DEV_AERR_LO, 64), (F.DEV_AERR_HI_ADDR_HI, 0), (F.DEV_AERR_HI_SRC_ORD, 1), (F.DEV_AERR_HI_WRITE, 1)]⟩] }
    1 1 rfl rfl (by decide)
  have hnext := hsize 0x18 2 (.inl (by decide))
  rw [exec_registerWrite] at hnext
  injection hnext with hsame
  have hlo := congrArg (fun t => getF t F.DEV_AERR_LO) hsame
  revert hlo
  decide +kernel

end Sys2Proof.Proofs

/-! SUPPORT. Board accesses (R40 to R44, R49, R278, R341): what a run of byte stores leaves in a tier's memory, what a refused access leaves in DEV_AERR, and
what an access to another module leaves in its port. -/
namespace Sys2Proof.Proofs
open Sys2Proof Sys2Proof.Machine

/-! ### A run of consecutive keys of a sparse map -/

section
variable {α : Type} [DecidableEq α] {d : Nat → α} {m : List (Nat × α)} {f : Nat → α} {o n a : Nat}

/-- The map in which the `n` keys from `o` on are written, key `o + i` with `f i`. -/
def smapFill (d : Nat → α) (m : List (Nat × α)) (o : Nat) (f : Nat → α) (n : Nat) : List (Nat × α) :=
  (List.range n).foldl (fun m i => smapSet d m (o + i) (f i)) m

theorem smapFill_succ : smapFill d m o f (n + 1) = smapSet d (smapFill d m o f n) (o + n) (f n) := by
  simp [smapFill, List.range_succ]

theorem smapWf_fill (h : smapWf d m = true) : smapWf d (smapFill d m o f n) = true := by
  induction n with
  | zero => exact h
  | succ n ih => rw [smapFill_succ]; exact Laws.smapWf_set _ _ ih

theorem smapGet_fill_inside {i : Nat} (h : smapWf d m = true) (hi : i < n) : smapGet d (smapFill d m o f n) (o + i) = f i := by
  induction n with
  | zero => omega
  | succ n ih =>
    rw [smapFill_succ]
    rcases Nat.lt_succ_iff_lt_or_eq.1 hi with hlt | rfl
    · rw [Laws.smapGet_set_other d _ _ _ _ (by omega), ih hlt]
    · exact Laws.smapGet_set_same d _ _ _ (Laws.smapWf_iff.1 (smapWf_fill h)).1

theorem smapGet_fill_outside (ha : a < o ∨ o + n ≤ a) : smapGet d (smapFill d m o f n) a = smapGet d m a := by
  induction n with
  | zero => rfl
  | succ n ih => rw [smapFill_succ, Laws.smapGet_set_other d _ _ _ _ (by omega), ih (by omega)]

end

/-- A run over words of four bytes each is a run over the bytes. -/
theorem foldl_range_words {β : Type} (g : β → Nat → β) (s : β) (n : Nat) :
    (List.range n).foldl (fun s i => (List.range 4).foldl (fun s j => g s (4 * i + j)) s) s = (List.range (4 * n)).foldl g s := by
  induction n with
  | zero => rfl
  | succ n ih =>
    rw [List.range_succ (n := n), List.foldl_append, ih, Nat.mul_succ, List.range_add, List.foldl_append, List.foldl_map]
    rfl

section
variable {s t : State} {r : Requester} {k src addr o n p : Nat} {d : List Nat} {op : BoardOp} {e : AddrError} {v : Nat → Nat} {fs : List Fld}

/-! ### Serving an access to memory -/

/-- Byte `b` of the words of a write, not yet cut to its eight bits. -/
def dataByte (d : List Nat) (b : Nat) : Nat := d.getD (b / 4) 0 / 256 ^ (b % 4)

theorem dataByte_word {i j : Nat} (hj : j < 4) : dataByte d (4 * i + j) = d.getD i 0 / 256 ^ j := by
  rw [dataByte, show (4 * i + j) / 4 = i by omega, show (4 * i + j) % 4 = j by omega]

theorem boardServe_read {region : Nat} (h : region ≠ 4) : boardServe r region o (.read n) s =
    ((List.range n).map (fun i => leRead (boardByte s region) (o + 4 * i) 4), s) := by
  simp only [boardServe, boardReadWord, if_neg h]
  induction n with
  | zero => rfl
  | succ n ih => simp [List.range_succ, ih]

theorem boardServe_write {region : Nat} (h : region ≠ 4) : boardServe r region o (.write d) s =
    ([], (List.range (4 * d.length)).foldl (fun s b => boardByteStore region s (o + b) (dataByte d b)) s) := by
  simp only [boardServe, boardWriteWord, h, false_and, if_false, ← foldl_range_words]
  congr 2
  funext s i
  refine List.foldl_ext _ _ s fun s j hj => ?_
  rw [dataByte_word (List.mem_range.1 hj), Nat.add_assoc]

theorem foldl_store_near (h : beforeWipe s = false) : (List.range n).foldl (fun s b => boardByteStore 1 s (o + b) (v b)) s =
    setMem s { s.mem with near := smapFill zeroByte s.mem.near o (fun b => BitVec.ofNat 8 (v b)) n } := by
  induction n with
  | zero => rfl
  | succ n ih =>
    rw [List.range_succ, List.foldl_append, ih, smapFill_succ]
    exact if_neg (by rw [show ∀ m, beforeWipe (setMem s m) = beforeWipe s from fun _ => rfl, h]; decide)

theorem foldl_store_early (h : beforeWipe s = true) : (List.range n).foldl (fun s b => boardByteStore 1 s (o + b) (v b)) s =
    setMem s { s.mem with early := smapFill zeroNat s.mem.early o (fun b => 1 + v b % 256) n } := by
  induction n with
  | zero => rfl
  | succ n ih =>
    rw [List.range_succ, List.foldl_append, ih, smapFill_succ]
    exact if_pos h

theorem boardByte_near (h : beforeWipe s = false) : boardByte s 1 = fun a => (smapGet zeroByte s.mem.near a).toNat := by
  funext a
  simp [boardByte, h]

/-- Before the wipe, a unit that is not written in full reads as zeros (R278). -/
theorem boardByte_not_full (h : beforeWipe s = true) (hfull : earlyFull s.mem (o / unitBytes) = false) : boardByte s 1 o = 0 := by
  simp [boardByte, h, hfull]

/-! ### A refused access in DEV_AERR -/

theorem fieldsKept_setFields {l : List (Fld × Nat)} (h : fieldsKept fs s t) (hl : ∀ q ∈ l, q.1 ∈ fs) : fieldsKept fs s (setFields t l) := by
  induction l generalizing t with
  | nil => exact h
  | cons q l ih => exact ih (fieldsKept_setF h (hl q (by simp))) fun q hq => hl q (by simp [hq])

theorem fieldsOnly_setFields {l : List (Fld × Nat)} (h : FieldsOnly s t) : FieldsOnly s (setFields t l) := by
  induction l generalizing t with
  | nil => exact h
  | cons q l ih => exact ih (fieldsOnly_setF h)

/-- `t` differs from `s` in register fields and in the captures of this cycle's events. -/
def CapturesOnly (s t : State) : Prop := ∃ l c, t = { s with flds := l, caps := c }

/-- A capture notes its event and loads its fields, or one of the two, or does neither. -/
theorem capture_cases (s : State) (guards : List Fld) (vals : List (Fld × Nat)) : ∃ c,
    capture s guards vals = setFields { s with caps := c } vals ∨ capture s guards vals = { s with caps := c } := by
  simp only [capture]
  split_ifs
  · exact ⟨s.caps, .inl rfl⟩
  · exact ⟨_, .inl rfl⟩
  · exact ⟨s.caps, .inr rfl⟩
  · exact ⟨_, .inr rfl⟩

/-- While none of its guards is set, a capture loads its fields (R49). -/
theorem capture_loads {guards : List Fld} (vals : List (Fld × Nat)) (h : ∀ f ∈ guards, isSet s f = false) :
    ∃ c, capture s guards vals = setFields { s with caps := c } vals := by
  have hempty : guards.filter (isSet s) = [] := List.filter_eq_nil_iff.2 fun f hf => by simp [h f hf]
  simp only [capture, hempty]
  exact ⟨_, rfl⟩

theorem fieldsKept_capture {guards : List Fld} {vals : List (Fld × Nat)} (hv : ∀ q ∈ vals, q.1 ∈ fs) : fieldsKept fs s (capture s guards vals) := by
  obtain ⟨c, h | h⟩ := capture_cases s guards vals <;> rw [h]
  · exact fieldsKept_setFields (fun _ _ => rfl) hv
  · exact fun _ _ => rfl

theorem capturesOnly_capture {guards : List Fld} {vals : List (Fld × Nat)} : CapturesOnly s (capture s guards vals) := by
  obtain ⟨c, h | h⟩ := capture_cases s guards vals <;> rw [h]
  · obtain ⟨l, hl⟩ := fieldsOnly_setFields (l := vals) (fieldsOnly_refl (s := { s with caps := c }))
    exact ⟨l, c, hl⟩
  · exact ⟨s.flds, c, rfl⟩

theorem capturesOnly_setF {f : Fld} {x : Nat} (h : CapturesOnly s t) : CapturesOnly s (setF t f x) := by
  obtain ⟨l, c, rfl⟩ := h
  exact ⟨_, c, rfl⟩

/-- The fields that a refused access of kind `e` can write. -/
def addrErrorFields (e : AddrError) : List Fld :=
  [e.bit, F.DEV_AERR_CNT, F.DEV_AERR_LO, F.DEV_AERR_HI_ADDR_HI, F.DEV_AERR_HI_SRC_ORD, F.DEV_AERR_HI_WRITE]

theorem fieldsKept_logAddrError {w : Bool} : fieldsKept (addrErrorFields e) s (logAddrError s e addr src w) :=
  fieldsKept_setF (fieldsKept_setF (fieldsKept_capture (by simp [addrErrorFields])) (by simp [addrErrorFields])) (by simp [addrErrorFields])

theorem capturesOnly_logAddrError {w : Bool} : CapturesOnly s (logAddrError s e addr src w) :=
  capturesOnly_setF (capturesOnly_setF capturesOnly_capture)

/-- The bit is set and the access counted (R44). -/
theorem logAddrError_counts {w : Bool} (h : s.fieldsCanonical) : isSet (logAddrError s e addr src w) e.bit = true ∧
    getF (logAddrError s e addr src w) F.DEV_AERR_CNT = satAdd 32 (getF s F.DEV_AERR_CNT) 1 := by
  have hcap {vals} : (capture s addrErrorBits vals).fieldsCanonical := capture_canonical h
  have hkey : F.DEV_AERR_CNT.key ≠ e.bit.key := by cases e <;> decide
  have hwidth : 0 < e.bit.width := by cases e <;> decide
  refine ⟨?_, ?_⟩
  · exact (isSet_congr (Laws.getF_setF_other _ _ _ _ hkey.symm)).trans (Laws.isSet_raise _ _ (Laws.smapWf_iff.1 hcap).1 hwidth)
  · simp only [logAddrError]
    rw [getF_bump (raise_canonical hcap), raise, Laws.getF_setF_other _ _ _ _ hkey,
      fieldsKept_capture (fs := [F.DEV_AERR_LO, F.DEV_AERR_HI_ADDR_HI, F.DEV_AERR_HI_SRC_ORD, F.DEV_AERR_HI_WRITE]) (by simp) _ (by decide)]

/-- While DEV_AERR reads 0, the access is captured (R49). -/
theorem logAddrError_captures {w : Bool} (h : s.fieldsCanonical) (hclear : ∀ f ∈ addrErrorBits, isSet s f = false) :
    getF (logAddrError s e addr src w) F.DEV_AERR_LO = addr % 2 ^ 32 ∧
    getF (logAddrError s e addr src w) F.DEV_AERR_HI_ADDR_HI = addr / 2 ^ 32 % 2 ^ 16 ∧
    getF (logAddrError s e addr src w) F.DEV_AERR_HI_SRC_ORD = src % 8 ∧ isSet (logAddrError s e addr src w) F.DEV_AERR_HI_WRITE = w := by
  obtain ⟨c, hc⟩ := capture_loads (s := s) [(F.DEV_AERR_LO, bitsOf addr 31 0), (F.DEV_AERR_HI_ADDR_HI, bitsOf addr 47 32),
    (F.DEV_AERR_HI_SRC_ORD, src), (F.DEV_AERR_HI_WRITE, bitNat w)] hclear
  have hs : ({ s with caps := c } : State).fieldsCanonical := h
  have hkept : fieldsKept [e.bit, F.DEV_AERR_CNT] _ (logAddrError s e addr src w) :=
    fieldsKept_setF (fieldsKept_setF fieldsKept_refl (by simp)) (by simp)
  have hkey : ∀ f ∈ [F.DEV_AERR_LO, F.DEV_AERR_HI_ADDR_HI, F.DEV_AERR_HI_SRC_ORD, F.DEV_AERR_HI_WRITE], ∀ g ∈ [e.bit, F.DEV_AERR_CNT],
      g.key ≠ f.key := by cases e <;> decide
  rw [hc] at hkept
  rw [hkept _ (hkey _ (by simp)), hkept _ (hkey _ (by simp)), hkept _ (hkey _ (by simp)), isSet_congr (hkept _ (hkey _ (by simp)))]
  refine ⟨?_, ?_, ?_, ?_⟩ <;> simp (disch := (repeat apply setF_canonical); assumption) only [setFields, List.foldl_cons, List.foldl_nil, getF_setF, isSet]
  · simp [bitsOf]
  · simp [bitsOf]
  · rfl
  · cases w <;> rfl

/-! ### Requests over the mesh -/

theorem link_setLink {l : LinkSt} (h : s.unitsCanonical = true) : link (setLink s p l) p = l :=
  Laws.smapGet_set_same _ _ _ _ (Laws.smapWf_iff.1 (Bool.and_eq_true_iff.1 h).2).1

theorem sendRequest_not_up (hp : p = meshPort s (bitsOf addr 47 45)) (hup : portUp s p = false) :
    sendRequest r addr op s = bump (emit s (.boardDone r true op.zeros)) (F.LNK_CNT_BOARD_ERR p) := by
  subst hp
  simp [sendRequest, hup]

/-- The request that leaves over a port in UP waits in its queue under the tag. -/
theorem sendRequest_up {tag : Nat} (hp : p = meshPort s (bitsOf addr 47 45)) (hup : portUp s p = true) (htag : freeTag (link s p) = some tag) :
    ∃ b, sendRequest r addr op s = setLink s p { link s p with
      boardQ := (link s p).boardQ ++ [b], nextTag := (tag + 1) % 256,
      reqs := (link s p).reqs ++ [{ tag := tag, requester := r, sentAt := devNow s, write := op.isWrite }] } := by
  subst hp
  exact ⟨_, by simp only [sendRequest, hup, htag]; rfl⟩

/-- Each request of a list ends with an error completion. -/
theorem fieldsOnly_boardDone (l : List BoardReq) (h : FieldsOnly s t) :
    FieldsOnly { s with out := s.out ++ l.map (fun q => .boardDone q.requester true []) }
      (l.foldl (fun s q => bump (emit s (.boardDone q.requester true [])) (F.LNK_CNT_BOARD_ERR p)) t) := by
  induction l generalizing s t with
  | nil => simpa using h
  | cons q l ih =>
    have hq : FieldsOnly (emit s (.boardDone q.requester true [])) (bump (emit t (.boardDone q.requester true [])) (F.LNK_CNT_BOARD_ERR p)) := by
      obtain ⟨x, rfl⟩ := h
      exact ⟨_, rfl⟩
    simpa [emit] using ih hq

/-- Only LNK_CNT_BOARD_ERR counts them. -/
theorem fieldsKept_boardDone (l : List BoardReq) (h : fieldsKept [F.LNK_CNT_BOARD_ERR p] s t) : fieldsKept [F.LNK_CNT_BOARD_ERR p] s
    (l.foldl (fun s q => bump (emit s (.boardDone q.requester true [])) (F.LNK_CNT_BOARD_ERR p)) t) := by
  induction l generalizing t with
  | nil => exact h
  | cons q l ih => exact ih (fieldsKept_setF (fieldsKept_emit h) (by simp))

/-- The requests of a port that are picked leave it, each with an error completion; the others stay. -/
theorem failBoardReqs_ends {pick : BoardReq → Bool} (h : s.unitsCanonical = true) :
    (link (failBoardReqs s p pick) p).reqs = (link s p).reqs.filter (fun q => !pick q) ∧
    (failBoardReqs s p pick).out = s.out ++ ((link s p).reqs.filter pick).map (fun q => .boardDone q.requester true []) ∧
    fieldsKept [F.LNK_CNT_BOARD_ERR p] s (failBoardReqs s p pick) ∧
    failBoardReqs s p pick = { s with
      flds := (failBoardReqs s p pick).flds, links := (failBoardReqs s p pick).links, out := (failBoardReqs s p pick).out } := by
  unfold failBoardReqs
  dsimp only
  have hkept := fieldsKept_boardDone ((link s p).reqs.filter pick)
    (fieldsKept_refl (fs := [F.LNK_CNT_BOARD_ERR p]) (s := setLink s p { link s p with reqs := (link s p).reqs.filter (fun q => !pick q) }))
  obtain ⟨x, hx⟩ := fieldsOnly_boardDone (p := p) ((link s p).reqs.filter pick)
    (fieldsOnly_refl (s := setLink s p { link s p with reqs := (link s p).reqs.filter (fun q => !pick q) }))
  rw [hx] at hkept ⊢
  exact ⟨congrArg LinkSt.reqs (link_setLink h), rfl, hkept, rfl⟩

/-! ### The access -/

theorem exec_boardAccess : exec (.boardAccess r src addr op) s = .next (boardAccess r src addr op s) := rfl
theorem exec_boardRequestTimeout : exec (.boardRequestTimeout p) s = .next (boardRequestTimeout p s) := rfl

section
variable (hup : windowUp s = true) (haddr : addr < 2 ^ 48) (h0 : 0 < op.count) (h32 : op.count ≤ 32)
include hup haddr h0 h32

theorem boardAccess_own (hord : bitsOf addr 47 45 = getF s F.DEV_POS) : boardAccess (.steward k) src addr op s =
    emit (serveBoard (.steward k) (src % 8) addr op s).2 (.boardDone (.steward k) (serveBoard (.steward k) (src % 8) addr op s).1.1
      (serveBoard (.steward k) (src % 8) addr op s).1.2) := by
  unfold boardAccess
  rw [if_neg (by simp [hup]; omega), if_pos hord]

theorem boardAccess_served (hord : bitsOf addr 47 45 = getF s F.DEV_POS) (herr : boardError s (.steward k) addr op = none) :
    boardAccess (.steward k) src addr op s = emit (boardServe (.steward k) (bitsOf addr 44 42) (bitsOf addr 41 0) op s).2
      (.boardDone (.steward k) false (boardServe (.steward k) (bitsOf addr 44 42) (bitsOf addr 41 0) op s).1) := by
  rw [boardAccess_own hup haddr h0 h32 hord]
  simp only [serveBoard, herr]

theorem boardAccess_refused (hord : bitsOf addr 47 45 = getF s F.DEV_POS) (herr : boardError s (.steward k) addr op = some e) :
    boardAccess (.steward k) src addr op s =
      emit (logAddrError s e addr (src % 8) op.isWrite) (.boardDone (.steward k) true op.zeros) := by
  rw [boardAccess_own hup haddr h0 h32 hord]
  simp only [serveBoard, herr]

theorem boardAccess_other (hord : bitsOf addr 47 45 ≠ getF s F.DEV_POS) :
    boardAccess (.steward k) src addr op s = sendRequest (.steward k) addr op s := by
  unfold boardAccess
  rw [if_neg (by simp [hup]; omega), if_neg hord]

end
end

/-! ### The cases of O38 -/

section
variable {s : State} {k src addr o n p : Nat} {d : List Nat} {op : BoardOp} {e : AddrError}

section
variable (hup : windowUp s = true) (haddr : addr < 2 ^ 48) (hord : bitsOf addr 47 45 = getF s F.DEV_POS)
include hup haddr hord

theorem steward_reads_near (ho : o = bitsOf addr 41 0) (h0 : 0 < n) (h32 : n ≤ 32) (hreg : bitsOf addr 44 42 = 1) (hw : beforeWipe s = false)
    (herr : boardError s (.steward k) addr (.read n) = none) :
    exec (.boardAccess (.steward k) src addr (.read n)) s = .next { s with out := s.out ++ [.boardDone (.steward k) false
      ((List.range n).map (fun i => leRead (fun a => (smapGet zeroByte s.mem.near a).toNat) (o + 4 * i) 4))] } := by
  rw [exec_boardAccess, boardAccess_served (op := .read n) hup haddr h0 h32 hord herr, hreg, ← ho, boardServe_read (by decide), boardByte_near hw]
  rfl

theorem boardAccess_write_near (h0 : 0 < d.length) (h32 : d.length ≤ 32) (hreg : bitsOf addr 44 42 = 1)
    (herr : boardError s (.steward k) addr (.write d) = none) : boardAccess (.steward k) src addr (.write d) s =
      emit ((List.range (4 * d.length)).foldl (fun s b => boardByteStore 1 s (bitsOf addr 41 0 + b) (dataByte d b)) s)
        (.boardDone (.steward k) false []) := by
  rw [boardAccess_served (op := .write d) hup haddr h0 h32 hord herr, hreg, boardServe_write (by decide)]

theorem steward_writes_near (hm : s.memoryCanonical = true) (ho : o = bitsOf addr 41 0) (h0 : 0 < d.length) (h32 : d.length ≤ 32)
    (hreg : bitsOf addr 44 42 = 1) (hw : beforeWipe s = false) (herr : boardError s (.steward k) addr (.write d) = none) :
    ∃ t, exec (.boardAccess (.steward k) src addr (.write d)) s = .next t ∧
      t.out = s.out ++ [.boardDone (.steward k) false []] ∧
      (∀ i j, i < d.length → j < 4 → smapGet zeroByte t.mem.near (o + 4 * i + j) = BitVec.ofNat 8 (d.getD i 0 / 256 ^ j)) ∧
      (∀ a, a < o ∨ o + 4 * d.length ≤ a → smapGet zeroByte t.mem.near a = smapGet zeroByte s.mem.near a) ∧
      t = { s with mem := { s.mem with near := t.mem.near }, out := t.out } := by
  have hnear : smapWf zeroByte s.mem.near = true := by
    simp only [State.memoryCanonical, Bool.and_eq_true] at hm
    obtain ⟨⟨⟨h, -⟩, -⟩, -⟩ := hm
    exact h
  refine ⟨_, exec_boardAccess, ?_⟩
  rw [boardAccess_write_near hup haddr hord h0 h32 hreg herr, ← ho, foldl_store_near hw]
  refine ⟨rfl, fun i j hi hj => ?_, fun a ha => smapGet_fill_outside ha, rfl⟩
  rw [← dataByte_word hj, Nat.add_assoc]
  exact smapGet_fill_inside hnear (by omega)

theorem steward_writes_before_wipe (hm : s.memoryCanonical = true) (ho : o = bitsOf addr 41 0) (h0 : 0 < d.length) (h32 : d.length ≤ 32)
    (hreg : bitsOf addr 44 42 = 1) (hw : beforeWipe s = true) (herr : boardError s (.steward k) addr (.write d) = none) :
    ∃ t, exec (.boardAccess (.steward k) src addr (.write d)) s = .next t ∧
      t.out = s.out ++ [.boardDone (.steward k) false []] ∧
      (∀ i j, i < d.length → j < 4 → smapGet zeroNat t.mem.early (o + 4 * i + j) = 1 + d.getD i 0 / 256 ^ j % 256) ∧
      (∀ i, earlyFull t.mem (i / unitBytes) = false → boardByte t 1 i = 0) ∧
      t = { s with mem := { s.mem with early := t.mem.early }, out := t.out } := by
  have hearly : smapWf zeroNat s.mem.early = true := (Bool.and_eq_true_iff.1 hm).2
  refine ⟨_, exec_boardAccess, ?_⟩
  rw [boardAccess_write_near hup haddr hord h0 h32 hreg herr, ← ho, foldl_store_early hw]
  refine ⟨rfl, fun i j hi hj => ?_, fun i hfull => boardByte_not_full hw hfull, rfl⟩
  rw [← dataByte_word hj, Nat.add_assoc]
  exact smapGet_fill_inside hearly (by omega)

theorem refused_access_is_logged (h : s.fieldsCanonical = true) (h0 : 0 < op.count) (h32 : op.count ≤ 32)
    (herr : boardError s (.steward k) addr op = some e) : ∃ t,
    exec (.boardAccess (.steward k) src addr op) s = .next t ∧ t.out = s.out ++ [.boardDone (.steward k) true op.zeros] ∧ isSet t e.bit = true ∧
      getF t F.DEV_AERR_CNT = satAdd 32 (getF s F.DEV_AERR_CNT) 1 ∧
      ((∀ f ∈ addrErrorBits, isSet s f = false) → getF t F.DEV_AERR_LO = addr % 2 ^ 32 ∧ getF t F.DEV_AERR_HI_ADDR_HI = addr / 2 ^ 32 % 2 ^ 16 ∧
        getF t F.DEV_AERR_HI_SRC_ORD = src % 8 ∧ isSet t F.DEV_AERR_HI_WRITE = op.isWrite) ∧
      fieldsKept [e.bit, F.DEV_AERR_CNT, F.DEV_AERR_LO, F.DEV_AERR_HI_ADDR_HI, F.DEV_AERR_HI_SRC_ORD, F.DEV_AERR_HI_WRITE] s t ∧
      t = { s with flds := t.flds, out := t.out, caps := t.caps } := by
  refine ⟨_, exec_boardAccess, ?_⟩
  rw [boardAccess_refused hup haddr h0 h32 hord herr]
  obtain ⟨hbit, hcnt⟩ := logAddrError_counts (e := e) (addr := addr) (src := src % 8) (w := op.isWrite) h
  obtain ⟨l, c, hl⟩ := capturesOnly_logAddrError (s := s) (e := e) (addr := addr) (src := src % 8) (w := op.isWrite)
  refine ⟨by rw [hl]; rfl, hbit, hcnt, fun hclear => ?_, fieldsKept_emit fieldsKept_logAddrError, by rw [hl]; rfl⟩
  obtain ⟨hlo, hhi, hsrc, hwr⟩ := logAddrError_captures (e := e) (addr := addr) (src := src % 8) (w := op.isWrite) h hclear
  exact ⟨hlo, hhi, hsrc.trans (Nat.mod_mod _ _), hwr⟩

end

section
variable (hup : windowUp s = true) (haddr : addr < 2 ^ 48) (hord : bitsOf addr 47 45 ≠ getF s F.DEV_POS) (h0 : 0 < op.count) (h32 : op.count ≤ 32)
  (hp : p = meshPort s (bitsOf addr 47 45))
include hup haddr hord h0 h32 hp

theorem mesh_access_fails_at_once (h : s.fieldsCanonical = true) (hdown : portUp s p = false) : ∃ t,
    exec (.boardAccess (.steward k) src addr op) s = .next t ∧ t.out = s.out ++ [.boardDone (.steward k) true op.zeros] ∧
      getF t (F.LNK_CNT_BOARD_ERR p) = satAdd 32 (getF s (F.LNK_CNT_BOARD_ERR p)) 1 ∧ t = { s with flds := t.flds, out := t.out } := by
  refine ⟨_, exec_boardAccess, ?_⟩
  rw [boardAccess_other hup haddr h0 h32 hord, sendRequest_not_up hp hdown]
  exact ⟨rfl, getF_bump (emit_canonical h), rfl⟩

theorem mesh_access_leaves {tag : Nat} (h : s.unitsCanonical = true) (hport : portUp s p = true) (htag : freeTag (link s p) = some tag) : ∃ t,
    exec (.boardAccess (.steward k) src addr op) s = .next t ∧
      (link t p).reqs = (link s p).reqs ++ [{ tag := tag, requester := .steward k, sentAt := getF s F.TICK_DT, write := op.isWrite }] ∧
      (link t p).boardQ.length = (link s p).boardQ.length + 1 ∧ t = { s with links := t.links } := by
  obtain ⟨b, hb⟩ := sendRequest_up (r := .steward k) (op := op) hp hport htag
  refine ⟨_, exec_boardAccess, ?_⟩
  rw [boardAccess_other hup haddr h0 h32 hord, hb, link_setLink h]
  exact ⟨rfl, List.length_append, rfl⟩

end

theorem unanswered_requests_end (h : s.unitsCanonical = true) : ∃ t, exec (.boardRequestTimeout p) s = .next t ∧
    (link t p).reqs = (link s p).reqs.filter (fun q => !decide (q.sentAt + 10000 ≤ getF s F.TICK_DT)) ∧
    t.out = s.out ++ ((link s p).reqs.filter (fun q => decide (q.sentAt + 10000 ≤ getF s F.TICK_DT))).map (fun q => .boardDone q.requester true []) ∧
    fieldsKept [F.LNK_CNT_BOARD_ERR p] s t ∧ t = { s with flds := t.flds, links := t.links, out := t.out } :=
  ⟨_, exec_boardRequestTimeout, failBoardReqs_ends h⟩

end

/-- Settles O38, part by part: Near read and written, a write before the wipe, a refusal, the mesh, the timeout. -/
theorem boardAccessesEnd : Obligations.BoardAccessesEnd :=
  fun _ _ _ _ _ h hu hm hup haddr ho =>
    ⟨fun _ h0 h32 hord hreg hw herr => steward_reads_near hup haddr hord ho h0 h32 hreg hw herr,
      fun _ h0 h32 hord hreg hw herr => steward_writes_near hup haddr hord hm ho h0 h32 hreg hw herr,
      fun _ h0 h32 hord hreg hw herr => steward_writes_before_wipe hup haddr hord hm ho h0 h32 hreg hw herr,
      fun _ _ h0 h32 hord herr => refused_access_is_logged hup haddr hord h h0 h32 herr,
      fun _ _ h0 h32 hord hp => ⟨mesh_access_fails_at_once hup haddr hord h0 h32 hp h, fun _ hport htag =>
        mesh_access_leaves hup haddr hord h0 h32 hp hu hport htag⟩,
      fun _ _ => unanswered_requests_end hu⟩

end Sys2Proof.Proofs

/-! SUPPORT. The step on a waiting command, on a waiting mailbox request, and on nothing that waits (R60, R494). -/
namespace Sys2Proof.Proofs
open Sys2Proof Sys2Proof.Machine

section
variable {s : State} {q : MboxReq} {l : List MboxReq}

theorem step_idle (h : s.pending = []) : step s = .next (idle s) := by
  unfold step
  rw [h]

theorem idle_serves (h : s.stw.mbox = q :: l) : idle s = serveOne q (setStw s { s.stw with mbox := l }) := by
  simp [idle, serveNext, h]

theorem idle_passes_time (h : s.stw.mbox = []) :
    idle s = if s.pins.aux then setF s F.TICK_DT (devNow s + (if s.pwr.dormant then 40 else 1)) else s := by
  simp [idle, h]

end

/-- Settles O1. -/
theorem stepRunsTheQueue : Obligations.StepRunsTheQueue := by
  refine ⟨fun _ _ _ => rfl, fun s q l hpend hmbox => ?_, fun s hs hpend hmbox => ⟨_, step_idle hpend, ?_⟩⟩
  · rw [step_idle hpend, idle_serves hmbox]
    rfl
  · rw [idle_passes_time hmbox]
    by_cases haux : s.pins.aux = true
    · simp only [haux, if_true]
      exact ⟨by rw [getF_setF hs, if_pos rfl]; rfl, fieldsKept_setF fieldsKept_refl (by simp), rfl⟩
    · simp only [haux]
      exact ⟨rfl, fieldsKept_refl, rfl⟩

end Sys2Proof.Proofs

/-! SUPPORT. Schedule cycles: a counterexample to O41. -/
namespace Sys2Proof.Proofs
open Sys2Proof Sys2Proof.Machine

theorem exec_scheduleCycle {x : CycleInput} {s : State} : exec (.scheduleCycle x) s = .next (scheduleCycle x s) := rfl

/-- Refutes O41: an array cycle of tick wait can change PWR_OP.CEIL, which the clause of tick wait says it keeps. In the state below a droop stretch has
put the array 2 µs behind the plan, so that the cycle chooses the points again (R432), and `aimRest` shows the ceiling of the phase that ran last: with the
louvre at level 3 that is OP_MIN, 0, where the register read 5. -/
theorem not_scheduleCyclesPass : ¬ Obligations.ScheduleCyclesPass := by
  intro h
  obtain ⟨hwait, -⟩ := h
    { flds := [(F.TICK_STAT_RUNNING.key, 1), (F.PWR_STAT_LOUVRE.key, 3), (F.PWR_OP_CEIL.key, 5)],
      frame := { state := .tickWait },
      pwr := { droop := true, lag := 2, rest := [⟨0, 0, 0, 0⟩] } }
    (by decide) (by decide) (by decide) (by decide)
  obtain ⟨t, hnext, -, -, hframe⟩ := hwait {} rfl
  obtain ⟨-, hkept, -⟩ := hframe (.inl rfl)
  rw [exec_scheduleCycle] at hnext
  injection hnext with ht
  subst ht
  have hceil := hkept F.PWR_OP_CEIL (by decide)
  revert hceil
  decide +kernel

end Sys2Proof.Proofs

/-! SUPPORT. The control tree and alignment (R66, R355): what a message of a member's own and an alignment loss leave. -/
namespace Sys2Proof.Proofs
open Sys2Proof Sys2Proof.Machine

section
variable {s t u : State} {f : Fld} {fs : List Fld} {p n : Nat} {b : List Byte} {m : CtrlMsg}

/-! ### Fields through updates that are none of a field -/

@[simp] theorem getF_setLink {l : LinkSt} : getF (setLink s p l) f = getF s f := rfl
@[simp] theorem getF_setSpan {x : SpanSt} : getF (setSpan s x) f = getF s f := rfl
@[simp] theorem getF_setFrame {x : FrameSt} : getF (setFrame s x) f = getF s f := rfl
@[simp] theorem getF_setPwr {x : PwrSt} : getF (setPwr s x) f = getF s f := rfl

@[simp] theorem getF_countStamp {st : Stamp} : getF (countStamp s st) f = getF s f := by
  unfold countStamp
  split <;> rfl

@[simp] theorem getF_queueCtrl : getF (queueCtrl s p b) f = getF s f := rfl

@[simp] theorem getF_forwardDown : getF (forwardDown s b) f = getF s f := by
  unfold forwardDown
  generalize childPorts s = l
  induction l generalizing s with
  | nil => rfl
  | cons p l ih => exact ih

/-! ### Messages on the tree (R355) -/

/-- Between `s` and `t` a member at most queued messages and counted stamps: every port keeps all but its queue of control messages. -/
structure CtrlOnly (s t : State) : Prop where
  rest : ∃ l k c a, t = { s with flds := l, links := k, stampCnt := c, stampAhead := a }
  fields : fieldsKept [F.SPAN_CNT_CTRL_TX] s t
  ports : s.unitsCanonical = true → t.unitsCanonical = true ∧ ∀ p, ∃ q, link t p = { link s p with ctrlQ := q }

theorem ctrlOnly_refl : CtrlOnly s s := ⟨⟨_, _, _, _, rfl⟩, fieldsKept_refl, fun h => ⟨h, fun _ => ⟨_, rfl⟩⟩⟩

theorem ctrlOnly_trans (h : CtrlOnly s t) (h' : CtrlOnly t u) : CtrlOnly s u := by
  obtain ⟨⟨_, _, _, _, rfl⟩, hf, hp⟩ := h
  obtain ⟨⟨_, _, _, _, rfl⟩, hf', hp'⟩ := h'
  refine ⟨⟨_, _, _, _, rfl⟩, fieldsKept_trans hf hf', fun h => ?_⟩
  obtain ⟨h1, hq⟩ := hp h
  obtain ⟨h2, hq'⟩ := hp' h1
  refine ⟨h2, fun p => ?_⟩
  obtain ⟨q, e⟩ := hq p
  obtain ⟨q', e'⟩ := hq' p
  exact ⟨q', by rw [e', e]⟩

theorem ctrlOnly_countStamp {st : Stamp} : CtrlOnly s (countStamp s st) := by
  unfold countStamp
  split <;> exact ⟨⟨_, _, _, _, rfl⟩, fun _ _ => rfl, fun h => ⟨h, fun _ => ⟨_, rfl⟩⟩⟩

theorem ctrlOnly_bump : CtrlOnly s (bump s F.SPAN_CNT_CTRL_TX) :=
  ⟨⟨_, _, _, _, rfl⟩, fieldsKept_setF fieldsKept_refl (by simp), fun h => ⟨h, fun _ => ⟨_, rfl⟩⟩⟩

theorem unitsCanonical_setLink {l : LinkSt} (h : s.unitsCanonical = true) : (setLink s p l).unitsCanonical = true :=
  have h := Bool.and_eq_true_iff.1 h
  Bool.and_eq_true_iff.2 ⟨h.1, Laws.smapWf_set _ _ h.2⟩

theorem link_setLink_other {l : LinkSt} (h : n ≠ p) : link (setLink s p l) n = link s n := Laws.smapGet_set_other _ _ _ _ _ h

theorem ctrlOnly_queueCtrl : CtrlOnly s (queueCtrl s p b) := by
  refine ⟨⟨_, _, _, _, rfl⟩, fun _ _ => rfl, fun h => ⟨unitsCanonical_setLink h, fun n => ?_⟩⟩
  by_cases e : n = p
  · subst e
    exact ⟨_, link_setLink h⟩
  · exact ⟨_, link_setLink_other e⟩

theorem ctrlOnly_forwardDown : CtrlOnly s (forwardDown s b) := by
  unfold forwardDown
  generalize childPorts s = l
  induction l generalizing s with
  | nil => exact ctrlOnly_refl
  | cons p l ih => exact ctrlOnly_trans ctrlOnly_queueCtrl ih

theorem ctrlOnly_sendCtrl : CtrlOnly s (sendCtrl s m) := by
  unfold sendCtrl forwardUp
  dsimp only
  split
  · exact ctrlOnly_refl
  · split
    · split
      · exact ctrlOnly_bump
      · exact ctrlOnly_trans ctrlOnly_bump ctrlOnly_queueCtrl
    · exact ctrlOnly_trans ctrlOnly_bump ctrlOnly_forwardDown

theorem ctrlOnly_eventToMaster {src msg arg : Nat} {c : Option Stamp} : CtrlOnly s (eventToMaster s src c msg n arg) :=
  ctrlOnly_trans ctrlOnly_countStamp ctrlOnly_sendCtrl

theorem ctrlOnly_eventToAll {src msg arg : Nat} {c : Option Stamp} : CtrlOnly s (eventToAll s src c msg n arg) :=
  ctrlOnly_trans ctrlOnly_countStamp ctrlOnly_sendCtrl

theorem ctrlOnly_getF (h : CtrlOnly s t) (hf : F.SPAN_CNT_CTRL_TX.key ≠ f.key) : getF t f = getF s f := h.fields f (by simpa using hf)

theorem ctrlOnly_isSet (h : CtrlOnly s t) (hf : F.SPAN_CNT_CTRL_TX.key ≠ f.key) : isSet t f = isSet s f := isSet_congr (ctrlOnly_getF h hf)

/-! ### An alignment loss (R66) -/

/-- The fields that an alignment loss writes. -/
def alignFields : List Fld := [F.TICK_STAT_ALIGN_LOSS, F.TICK_STAT_LOCKED, F.TICK_CNT_ALIGN]

/-- The state in which the registers show an alignment loss, before the master is told. -/
def showAlignLoss (s : State) : State := bump (raise (lower s F.TICK_STAT_LOCKED) F.TICK_STAT_ALIGN_LOSS) F.TICK_CNT_ALIGN

theorem alignLoss_tells {c : Option Stamp} : CtrlOnly (showAlignLoss s) (alignLoss s c) := ctrlOnly_eventToMaster

theorem fieldsKept_showAlignLoss : fieldsKept alignFields s (showAlignLoss s) :=
  fieldsKept_setF (fieldsKept_setF (fieldsKept_setF fieldsKept_refl (by simp [alignFields])) (by simp [alignFields])) (by simp [alignFields])

theorem showAlignLoss_shows (h : s.fieldsCanonical) : isSet (showAlignLoss s) F.TICK_STAT_LOCKED = false ∧
    isSet (showAlignLoss s) F.TICK_STAT_ALIGN_LOSS = true ∧ getF (showAlignLoss s) F.TICK_CNT_ALIGN = satAdd 32 (getF s F.TICK_CNT_ALIGN) 1 := by
  refine ⟨?_, ?_, ?_⟩
  · simp (disch := (repeat apply setF_canonical); assumption) [isSet, showAlignLoss, bump, addF, raise, lower, getF_setF]
  · simp (disch := (repeat apply setF_canonical); assumption) [isSet, showAlignLoss, bump, addF, raise, lower, getF_setF]
  · rw [showAlignLoss, getF_bump (raise_canonical (lower_canonical h)), raise, lower, Laws.getF_setF_other _ _ _ _ (by decide),
      Laws.getF_setF_other _ _ _ _ (by decide)]

/-- What an alignment loss leaves: it is shown and counted, and only a message to the master goes out. -/
theorem alignLoss_shows {c : Option Stamp} (h : s.fieldsCanonical) : isSet (alignLoss s c) F.TICK_STAT_LOCKED = false ∧
    isSet (alignLoss s c) F.TICK_STAT_ALIGN_LOSS = true ∧ getF (alignLoss s c) F.TICK_CNT_ALIGN = satAdd 32 (getF s F.TICK_CNT_ALIGN) 1 := by
  rw [ctrlOnly_isSet alignLoss_tells (by decide), ctrlOnly_isSet alignLoss_tells (by decide), ctrlOnly_getF alignLoss_tells (by decide)]
  exact showAlignLoss_shows h

end
end Sys2Proof.Proofs

/-! SUPPORT. Synchronisation exchanges (R64 to R66, R335, R342): when a SYNC flit is due, and what one that has come leaves. -/
namespace Sys2Proof.Proofs
open Sys2Proof Sys2Proof.Machine

section
variable {s t : State} {p arrival : Nat} {m : SyncMsg} {off : Int} {l : LinkSt}

theorem exec_syncExchange : exec (.syncExchange p) s = .next (syncExchange p s) := rfl
theorem exec_syncReceive : exec (.syncReceive p m arrival) s = .next (syncReceive p m arrival s) := rfl

theorem syncExchange_due (hup : portUp s p = true) (hin : inSpan s = true)
    (htree : bitF s F.SPAN_TREE_CHILDREN p = true ∨ (isMaster s = false ∧ p = syncPort s))
    (hdue : ∀ t, (link s p).syncAt = some t → t + 1000 * getF s F.TICK_SYNC_CFG ≤ getF s F.TICK_DT) :
    syncExchange p s = setLink s p { link s p with syncDue := true, syncOpen := true, syncAt := some (getF s F.TICK_DT) } := by
  have htree' : ((!isMaster s && p == syncPort s) || bitF s F.SPAN_TREE_CHILDREN p) = true := by
    rcases htree with h | ⟨h, e⟩
    · simp [h]
    · simp [h, ← e]
  unfold syncExchange
  cases hat : (link s p).syncAt with
  | none => simp [hin, hup, htree', devNow]
  | some t => simp [hin, hup, htree', devNow, hdue t hat]

theorem syncExchange_early {t : Nat} (hat : (link s p).syncAt = some t) (hearly : getF s F.TICK_DT < t + 1000 * getF s F.TICK_SYNC_CFG) :
    syncExchange p s = s := by
  simp [syncExchange, hat, devNow, Nat.not_le.2 hearly]

/-- The port after a SYNC flit has come: it answers with the flit's time and its arrival, and no exchange is open. -/
def syncHeard (s : State) (p : Nat) (m : SyncMsg) (arrival : Nat) : State :=
  setLink s p { link s p with echoTx := m.tTx, echoRx := arrival, syncOpen := false, syncSpan := false }

theorem syncReceive_spanned (hup : portUp s p = true) (hspan : (link s p).syncSpan = true) :
    syncReceive p m arrival s = bump (syncHeard s p m arrival) (F.LNK_CNT_SYNC_MISS p) := by
  simp [syncReceive, hup, hspan, syncHeard]

/-- What is heard from the master keeps the time at which it was. -/
def masterHeard (s : State) : State := setSpan s { s.span with masterSeenAt := devNow s }

theorem syncReceive_parent (hup : portUp s p = true) (hin : inSpan s = true) (hspan : (link s p).syncSpan = false) (hmaster : isMaster s = false)
    (hp : p = syncPort s) (hecho : m.echoTx ≠ 0) :
    syncReceive p m arrival s = noteOffset (masterHeard (syncHeard s p m arrival)) (syncOffset m arrival) := by
  simp [syncReceive, hup, hspan, syncHeard, masterHeard, hin, hmaster, ← hp, hecho]

/-! ### The offset and the lock (R65, R66) -/

/-- The state in which the offset is shown and counted among those in or out of tolerance. -/
def showOffset (s : State) (off : Int) : State :=
  let s := setF s F.TICK_SYNC_OFFSET_NS (max (-32767) (min 32767 off) % 65536).toNat
  setSpan s { s.span with
    goodSync := if off.natAbs ≤ 8 then s.span.goodSync + 1 else 0, badSync := if 40 < off.natAbs then s.span.badSync + 1 else 0 }

theorem noteOffset_eq : noteOffset s off =
    if (showOffset s off).span.badSync = 3 then alignLoss (showOffset s off) none
    else if 8 ≤ (showOffset s off).span.goodSync ∧ ¬ isSet (showOffset s off) F.TICK_STAT_LOCKED then
      eventToMaster (raise (showOffset s off) F.TICK_STAT_LOCKED) srcTick none 0x06 (frameNow (raise (showOffset s off) F.TICK_STAT_LOCKED))
        (getF (raise (showOffset s off) F.TICK_STAT_LOCKED) F.TICK_SYNC_OFFSET_NS + 2 ^ 16)
    else showOffset s off := rfl

theorem goodSync_showOffset : (showOffset s off).span.goodSync = if off.natAbs ≤ 8 then s.span.goodSync + 1 else 0 := rfl
theorem badSync_showOffset : (showOffset s off).span.badSync = if 40 < off.natAbs then s.span.badSync + 1 else 0 := rfl

/-- Beyond showing its offset, an exchange sets the lock and what shows its loss, and tells the master. -/
theorem noteOffset_shows (h : s.fieldsCanonical) : ∃ v, FieldsOnly (showOffset s off) v ∧ fieldsKept alignFields (showOffset s off) v ∧
    CtrlOnly v (noteOffset s off) ∧
    (40 < off.natAbs → s.span.badSync = 2 → isSet v F.TICK_STAT_LOCKED = false ∧ isSet v F.TICK_STAT_ALIGN_LOSS = true ∧
      getF v F.TICK_CNT_ALIGN = satAdd 32 (getF (showOffset s off) F.TICK_CNT_ALIGN) 1) ∧
    (off.natAbs ≤ 8 → 7 ≤ s.span.goodSync → isSet v F.TICK_STAT_LOCKED = true) := by
  have hshown : (showOffset s off).fieldsCanonical := setSpan_canonical (setF_canonical h)
  by_cases hbad : (showOffset s off).span.badSync = 3
  · refine ⟨showAlignLoss (showOffset s off), ⟨_, rfl⟩, fieldsKept_showAlignLoss, ?_, fun _ _ => showAlignLoss_shows hshown, fun hnear _ => ?_⟩
    · rw [noteOffset_eq, if_pos hbad]
      exact alignLoss_tells
    · rw [badSync_showOffset, if_neg (by omega)] at hbad
      omega
  · have hnot : 40 < off.natAbs → s.span.badSync ≠ 2 := fun hfar htwo => hbad (by rw [badSync_showOffset, if_pos hfar, htwo])
    by_cases hgood : 8 ≤ (showOffset s off).span.goodSync ∧ ¬ isSet (showOffset s off) F.TICK_STAT_LOCKED = true
    · refine ⟨raise (showOffset s off) F.TICK_STAT_LOCKED, ⟨_, rfl⟩, fieldsKept_setF fieldsKept_refl (by simp [alignFields]), ?_,
        fun hfar htwo => absurd htwo (hnot hfar), fun _ _ => Laws.isSet_raise _ _ (Laws.smapWf_iff.1 hshown).1 (by decide)⟩
      rw [noteOffset_eq, if_neg hbad, if_pos hgood]
      exact ctrlOnly_eventToMaster
    · refine ⟨_, fieldsOnly_refl, fieldsKept_refl, ?_, fun hfar htwo => absurd htwo (hnot hfar), fun hnear hseven => ?_⟩
      · rw [noteOffset_eq, if_neg hbad, if_neg hgood]
        exact ctrlOnly_refl
      · by_contra hlock
        exact hgood ⟨by rw [goodSync_showOffset, if_pos hnear]; omega, hlock⟩

/-- The offset shown is the 16-bit two's complement of one within range. -/
theorem getF_showOffset (h : s.fieldsCanonical) (hoff : off.natAbs ≤ 32767) : (getF (showOffset s off) F.TICK_SYNC_OFFSET_NS : Int) = off % 65536 := by
  show ((getF (setF s F.TICK_SYNC_OFFSET_NS (max (-32767) (min 32767 off) % 65536).toNat) F.TICK_SYNC_OFFSET_NS : Nat) : Int) = off % 65536
  rw [getF_setF h, if_pos rfl]
  show (((max (-32767) (min 32767 off) % 65536).toNat % 65536 : Nat) : Int) = off % 65536
  omega

/-! ### The cases of O37 -/

theorem spanned_exchange_is_missed (h : s.fieldsCanonical) (hu : s.unitsCanonical = true) (hup : portUp s p = true) (hspan : (link s p).syncSpan = true) :
    ∃ t, exec (.syncReceive p m arrival) s = .next t ∧ getF t (F.LNK_CNT_SYNC_MISS p) = satAdd 32 (getF s (F.LNK_CNT_SYNC_MISS p)) 1 ∧
      (link t p).syncSpan = false ∧ (link t p).syncOpen = false ∧ fieldsKept [F.LNK_CNT_SYNC_MISS p] s t ∧
      t = { s with flds := t.flds, links := t.links } := by
  refine ⟨_, exec_syncReceive, ?_⟩
  rw [syncReceive_spanned hup hspan]
  have hlink : link (bump (syncHeard s p m arrival) (F.LNK_CNT_SYNC_MISS p)) p =
      { link s p with echoTx := m.tTx, echoRx := arrival, syncOpen := false, syncSpan := false } := link_setLink hu
  rw [hlink]
  exact ⟨getF_bump (setLink_canonical h), rfl, rfl, fieldsKept_setF (fun _ _ => rfl) (by simp), rfl⟩

theorem exchange_with_parent_aligns (h : s.fieldsCanonical) (hu : s.unitsCanonical = true) (hup : portUp s p = true) (hin : inSpan s = true)
    (hspan : (link s p).syncSpan = false) (hmaster : isMaster s = false) (hp : p = syncPort s) (hecho : m.echoTx ≠ 0)
    (hoff : off = (((m.echoRx : Int) - m.echoTx) - ((arrival : Int) - m.tTx)) / 2) (hrange : off.natAbs ≤ 32767) :
    ∃ t, exec (.syncReceive p m arrival) s = .next t ∧
      (getF t F.TICK_SYNC_OFFSET_NS : Int) = off % 65536 ∧ (link t p).echoTx = m.tTx ∧ (link t p).echoRx = arrival ∧
      t.span.masterSeenAt = getF s F.TICK_DT ∧ t.span.goodSync = (if off.natAbs ≤ 8 then s.span.goodSync + 1 else 0) ∧
      t.span.badSync = (if 40 < off.natAbs then s.span.badSync + 1 else 0) ∧
      (40 < off.natAbs → s.span.badSync = 2 → isSet t F.TICK_STAT_LOCKED = false ∧
        isSet t F.TICK_STAT_ALIGN_LOSS = true ∧ getF t F.TICK_CNT_ALIGN = satAdd 32 (getF s F.TICK_CNT_ALIGN) 1) ∧
      (off.natAbs ≤ 8 → 7 ≤ s.span.goodSync → isSet t F.TICK_STAT_LOCKED = true) ∧ t.mem = s.mem ∧ t.cells = s.cells := by
  refine ⟨_, exec_syncReceive, ?_⟩
  rw [syncReceive_parent hup hin hspan hmaster hp hecho, show syncOffset m arrival = off from hoff.symm]
  have hheard : (masterHeard (syncHeard s p m arrival)).fieldsCanonical := setSpan_canonical (setLink_canonical h)
  obtain ⟨v, ⟨x, rfl⟩, hkept, hctrl, hbad, hgood⟩ := noteOffset_shows (off := off) hheard
  have hoffset := getF_showOffset hheard hrange
  have hcount : getF (showOffset (masterHeard (syncHeard s p m arrival)) off) F.TICK_CNT_ALIGN = getF s F.TICK_CNT_ALIGN :=
    Laws.getF_setF_other (masterHeard (syncHeard s p m arrival)) _ _ _ (by decide)
  rw [← hkept _ (by decide), ← ctrlOnly_getF hctrl (by decide)] at hoffset
  rw [← ctrlOnly_isSet hctrl (by decide)] at hgood
  rw [← ctrlOnly_isSet hctrl (by decide), ← ctrlOnly_isSet hctrl (by decide), ← ctrlOnly_getF hctrl (by decide), hcount] at hbad
  obtain ⟨q, hport⟩ := (hctrl.ports (unitsCanonical_setLink hu)).2 p
  have hlink : link { showOffset (masterHeard (syncHeard s p m arrival)) off with flds := x } p =
      { link s p with echoTx := m.tTx, echoRx := arrival, syncOpen := false, syncSpan := false } := link_setLink hu
  rw [hlink] at hport
  obtain ⟨l, k, c, a, hrest⟩ := hctrl.rest
  refine ⟨hoffset, by rw [hport], by rw [hport], ?_, ?_, ?_, hbad, hgood, ?_, ?_⟩ <;> rw [hrest] <;> rfl

end

/-- Settles O37: when a SYNC flit is due, and what one that has come leaves across a lane change and from the parent. -/
theorem syncExchangesAlign : Obligations.SyncExchangesAlign := by
  rintro s p _ h hu - hup hin rfl
  exact ⟨fun htree hdue => by rw [exec_syncExchange, syncExchange_due hup hin htree hdue],
    fun _ hat hearly => by rw [exec_syncExchange, syncExchange_early hat hearly],
    fun _ _ hspan => spanned_exchange_is_missed h hu hup hspan,
    fun _ _ _ hspan hmaster hp hecho hoff hrange => exchange_with_parent_aligns h hu hup hin hspan hmaster hp hecho hoff hrange⟩

end Sys2Proof.Proofs

/-! SUPPORT. Stretches (R67 to R70): what a message taken leaves, and what a grant given or taken leaves. -/
namespace Sys2Proof.Proofs
open Sys2Proof Sys2Proof.Machine

section
variable {s t : State} {m : CtrlMsg} {g : StretchGrant} {r : StretchReq} {c : Option Stamp} {b : List Byte} {p : Nat}

theorem exec_stretchReq : exec (.stretchReq m) s = .next (stretchReq m s) := rfl
theorem exec_stretchGrant : exec (.stretchGrant m) s = .next (stretchGrant m s) := rfl

/-! ### A message taken (R355, R379) -/

/-- Between `s` and `t` a member at most took a message: it is counted as received, and the span unit has heard from its master. -/
structure MsgTaken (s t : State) : Prop where
  rest : ∃ l x, t = { s with flds := l, span := x }
  fields : fieldsKept [F.SPAN_CNT_CTRL_RX] s t
  granted : t.span.granted = s.span.granted
  grant : t.span.grant = s.span.grant

theorem msgTaken_takeMsg : MsgTaken s (takeMsg s m) := by
  unfold takeMsg hearMaster
  split <;> dsimp only <;> split
  · exact ⟨⟨_, _, rfl⟩, fun _ _ => rfl, rfl, rfl⟩
  · exact ⟨⟨_, _, rfl⟩, fun _ _ => rfl, rfl, rfl⟩
  · exact ⟨⟨_, _, rfl⟩, fieldsKept_setF fieldsKept_refl (by simp), rfl, rfl⟩
  · exact ⟨⟨_, _, rfl⟩, fieldsKept_setF fieldsKept_refl (by simp), rfl, rfl⟩

/-! ### What the present moment and the tree are (R77, R353) -/

theorem getF_of_taken (h : MsgTaken s t) {f : Fld} (hf : F.SPAN_CNT_CTRL_RX.key ≠ f.key) : getF t f = getF s f := h.fields f (by simpa using hf)

/-- The stamp of an event depends on the tick, the cycle-in-frame and the counts of stamps alone. -/
theorem stampAfter_congr {src : Nat} (hnow : getF t F.TICK_NOW = getF s F.TICK_NOW) (hcif : getF t F.TICK_CIF_CIF = getF s F.TICK_CIF_CIF)
    (hcnt : t.stampCnt = s.stampCnt) (hahead : t.stampAhead = s.stampAhead) : stampAfter t src c = stampAfter s src c := by
  have hown : stampNow t src = stampNow s src := by rw [stampNow, stampNow, hnow, hcif, hcnt]
  unfold stampAfter
  rw [hown, hahead]

theorem inSpan_congr (h : getF t F.SPAN_STAT_IN_SPAN = getF s F.SPAN_STAT_IN_SPAN) : inSpan t = inSpan s := isSet_congr h

theorem childPorts_congr (h : getF t F.SPAN_TREE_CHILDREN = getF s F.SPAN_TREE_CHILDREN) : childPorts t = childPorts s := by
  unfold childPorts bitF
  rw [h]

/-! ### A message to every member (R355) -/

/-- A message that leaves over some ports, each at most once, waits behind what waited there. -/
theorem ctrlQ_foldl_queueCtrl {l : List Nat} (hu : s.unitsCanonical = true) (hl : l.Nodup) :
    (link (l.foldl (fun s p => queueCtrl s p b) s) p).ctrlQ = (link s p).ctrlQ ++ if p ∈ l then [b] else [] := by
  induction l generalizing s with
  | nil => simp
  | cons q l ih =>
    obtain ⟨hq, hl⟩ := List.nodup_cons.1 hl
    rw [List.foldl_cons, ih (s := queueCtrl s q b) (unitsCanonical_setLink hu) hl]
    by_cases e : p = q
    · subst e
      rw [queueCtrl, link_setLink hu]
      simp [hq]
    · rw [queueCtrl, link_setLink_other e]
      simp [e]

theorem nodup_childPorts : (childPorts s).Nodup := List.nodup_range.filter _

/-- A message to every member waits at each port that leads to a child. -/
theorem ctrlQ_eventToAll {src msg n arg : Nat} (hu : s.unitsCanonical = true) (hin : inSpan s = true) (hp : p ∈ childPorts s) :
    (link (eventToAll s src c msg n arg) p).ctrlQ =
      (link s p).ctrlQ ++ [ctrlBytes ⟨msg, ownOrd s, 0xFFFF, n, stampAfter s src c, arg⟩] := by
  have hsent : CtrlOnly s (bump (countStamp s (stampAfter s src c)) F.SPAN_CNT_CTRL_TX) := ctrlOnly_trans ctrlOnly_countStamp ctrlOnly_bump
  have hlinks : link (bump (countStamp s (stampAfter s src c)) F.SPAN_CNT_CTRL_TX) p = link s p := by
    unfold countStamp
    split <;> rfl
  have hports : childPorts (bump (countStamp s (stampAfter s src c)) F.SPAN_CNT_CTRL_TX) = childPorts s :=
    childPorts_congr (ctrlOnly_getF hsent (by decide))
  have hord : ownOrd (countStamp s (stampAfter s src c)) = ownOrd s := getF_countStamp
  have hin' : inSpan (countStamp s (stampAfter s src c)) = true := (inSpan_congr getF_countStamp).trans hin
  unfold eventToAll toAll sendCtrl forwardDown
  rw [if_neg (by simp [hin'])]
  dsimp only
  rw [if_neg (by decide), hports, ctrlQ_foldl_queueCtrl (hsent.ports hu).1 nodup_childPorts, hlinks, if_pos hp, hord]

/-! ### Grants (R68 to R70) -/

/-- The fields that a grant taken writes. -/
def grantFields : List Fld := [F.TICK_STAT_STRETCH_PEND, F.TICK_NEXT, F.PWR_STAT_NARROW, F.ADM_STAT_NARROWED]

/-- What a member is left with that takes a grant of the coming tick. -/
structure GrantTaken (g : StretchGrant) (s t : State) : Prop where
  rest : ∃ l p, t = { s with flds := l, span := { s.span with grant := some g }, pwr := p }
  fields : fieldsKept grantFields s t
  pend : isSet t F.TICK_STAT_STRETCH_PEND = true
  next : getF t F.TICK_NEXT = g.dt % 2 ^ 64
  narrow : g.cause = .power → isSet t F.PWR_STAT_NARROW = true ∧ t.pwr.powerGrant = true

/-- The member that has moved its tick to a grant's, before it narrows. -/
def tickMoved (s : State) (g : StretchGrant) : State :=
  let s := setF (raise s F.TICK_STAT_STRETCH_PEND) F.TICK_NEXT g.dt
  setSpan s { s.span with grant := some g }

theorem takeGrant_coming_eq (htick : g.tick = frameNow s + 1) (hdt : getF s F.TICK_NEXT ≤ g.dt) : takeGrant s g c =
    if g.cause = .power then raiseNarrow (setPwr (tickMoved s g) { (tickMoved s g).pwr with powerGrant := true }) else tickMoved s g := by
  rw [takeGrant, if_neg (by omega), if_pos ⟨htick, hdt⟩]
  rfl

theorem fieldsKept_raiseNarrow : fieldsKept [F.PWR_STAT_NARROW, F.ADM_STAT_NARROWED] s (raiseNarrow s) := by
  unfold raiseNarrow
  split
  · exact fieldsKept_refl
  · exact fieldsKept_setF (fieldsKept_setF fieldsKept_refl (by simp)) (by simp)

theorem fieldsOnly_raiseNarrow : FieldsOnly s (raiseNarrow s) := by
  unfold raiseNarrow
  split <;> exact ⟨_, rfl⟩

theorem isSet_raiseNarrow (h : s.fieldsCanonical) : isSet (raiseNarrow s) F.PWR_STAT_NARROW = true := by
  unfold raiseNarrow
  split
  · next hset => exact hset
  · exact (isSet_congr (Laws.getF_setF_other (raise s F.PWR_STAT_NARROW) _ _ _ (by decide))).trans
      (Laws.isSet_raise _ _ (Laws.smapWf_iff.1 h).1 (by decide))

theorem grantTaken_tickMoved (h : s.fieldsCanonical) (hcause : g.cause ≠ .power) : GrantTaken g s (tickMoved s g) where
  rest := ⟨_, _, rfl⟩
  fields := fieldsKept_setF (fieldsKept_setF fieldsKept_refl (by simp [grantFields])) (by simp [grantFields])
  pend := (isSet_congr (Laws.getF_setF_other (raise s F.TICK_STAT_STRETCH_PEND) _ _ _ (by decide))).trans
    (Laws.isSet_raise _ _ (Laws.smapWf_iff.1 h).1 (by decide))
  next := Laws.getF_setF_same _ _ _ (Laws.smapWf_iff.1 (raise_canonical h)).1
  narrow := fun hpower => absurd hpower hcause

/-- A grant of the coming tick moves it, and narrows where its cause is POWER (R69, R430). -/
theorem grantTaken_takeGrant (h : s.fieldsCanonical) (htick : g.tick = frameNow s + 1) (hdt : getF s F.TICK_NEXT ≤ g.dt) :
    GrantTaken g s (takeGrant s g c) := by
  rw [takeGrant_coming_eq htick hdt]
  have hmoved : (setPwr (tickMoved s g) { (tickMoved s g).pwr with powerGrant := true }).fieldsCanonical :=
    setPwr_canonical (setSpan_canonical (setF_canonical (raise_canonical h)))
  split
  · obtain ⟨l, hl⟩ := fieldsOnly_raiseNarrow (s := setPwr (tickMoved s g) { (tickMoved s g).pwr with powerGrant := true })
    have hkept := fieldsKept_raiseNarrow (s := setPwr (tickMoved s g) { (tickMoved s g).pwr with powerGrant := true })
    exact {
      rest := ⟨l, _, hl⟩
      fields := fieldsKept_trans (fieldsKept_setF (fieldsKept_setF fieldsKept_refl (by simp [grantFields])) (by simp [grantFields]))
        (fieldsKept_mono hkept (by simp [grantFields]))
      pend := (isSet_congr (hkept _ (by decide))).trans
        ((isSet_congr (Laws.getF_setF_other (raise s F.TICK_STAT_STRETCH_PEND) _ _ _ (by decide))).trans
          (Laws.isSet_raise _ _ (Laws.smapWf_iff.1 h).1 (by decide)))
      next := (hkept _ (by decide)).trans (Laws.getF_setF_same _ _ _ (Laws.smapWf_iff.1 (raise_canonical h)).1)
      narrow := fun _ => ⟨isSet_raiseNarrow hmoved, by rw [hl]; rfl⟩ }
  · next hcause => exact grantTaken_tickMoved h hcause

theorem takeGrant_late (htick : g.tick ≤ frameNow s) : takeGrant s g c = alignLoss (raise s F.TICK_STAT_LATE_GRANT) c := by
  rw [takeGrant, if_pos htick]

/-! ### Requests at the master (R68, R70) -/

/-- The grant that the master gives for a request. -/
def grantFor (s : State) (r : StretchReq) : StretchGrant :=
  { tick := r.tick, dt := unstretched s + 1000 * min r.amountUs (getF s F.TICK_STRETCH_CFG_MAX_US),
    amountUs := min r.amountUs (getF s F.TICK_STRETCH_CFG_MAX_US), cause := r.cause, ord := r.ord }

/-- The state in which the master has told every member of the grant for a request. -/
def grantTold (s : State) (r : StretchReq) : State :=
  eventToAll (setSpan s { s.span with granted := some r }) srcTick r.by_ 0x02 r.tick
    ((grantFor s r).dt + (grantFor s r).amountUs * 2 ^ 64 + r.cause.num * 2 ^ 96 + r.ord * 2 ^ 104)

theorem grantStretch_better (hpos : 0 < min r.amountUs (getF s F.TICK_STRETCH_CFG_MAX_US))
    (hbetter : ∀ q, s.span.granted = some q → q.tick = r.tick → q.amountUs < r.amountUs ∨ (q.amountUs = r.amountUs ∧ r.ord < q.ord)) :
    grantStretch s r = takeGrant (grantTold s r) (grantFor s r) r.by_ := by
  have hnot : ¬ (min r.amountUs (getF s F.TICK_STRETCH_CFG_MAX_US) = 0) := by omega
  unfold grantStretch
  dsimp only
  rw [if_neg]
  · rfl
  · cases hgranted : s.span.granted with
    | none => simp [hnot]
    | some q =>
      by_cases htick : q.tick = r.tick
      · simpa [htick, hnot, or_iff_not_imp_left] using hbetter q hgranted htick
      · simp [htick, hnot]

theorem grantStretch_worse {q : StretchReq} (hgranted : s.span.granted = some q) (htick : q.tick = r.tick)
    (hworse : r.amountUs < q.amountUs ∨ (r.amountUs = q.amountUs ∧ q.ord ≤ r.ord)) : grantStretch s r = s := by
  have hq : (q.tick != r.tick || decide (q.amountUs < r.amountUs) || (q.amountUs == r.amountUs && decide (r.ord < q.ord))) = false := by
    simp only [htick, bne_self_eq_false, Bool.false_or, Bool.or_eq_false_iff, decide_eq_false_iff_not, Bool.and_eq_false_iff, beq_eq_false_iff_ne]
    omega
  simp [grantStretch, hgranted, hq]

theorem acceptStretch_in_time (htick : r.tick = frameNow s + 1)
    (hcut : getF s F.TICK_DT + 1000 * getF s F.TICK_STRETCH_CFG_CUTOFF_US < getF s F.TICK_NEXT) : acceptStretch s r = grantStretch s r := by
  rw [acceptStretch, if_neg (by simpa using htick), if_neg]
  simp [devNow, Nat.not_le.2 hcut]

theorem acceptStretch_late (hin : inSpan s = true) (hlate : r.tick ≠ frameNow s + 1 ∨
    getF s F.TICK_NEXT ≤ getF s F.TICK_DT + 1000 * getF s F.TICK_STRETCH_CFG_CUTOFF_US) : acceptStretch s r = bump s F.TICK_CNT_LATE_REQ := by
  unfold acceptStretch
  rcases hlate with h | h
  · rw [if_pos h]
  · simp [hin, devNow, h]

/-- Every child hears of the grant, in a message with a stamp no earlier than the request's (R77). -/
theorem ctrlQ_grantTold (hu : s.unitsCanonical = true) (hin : inSpan s = true) (hp : p ∈ childPorts s) :
    (link (grantTold s r) p).ctrlQ = (link s p).ctrlQ ++ [ctrlBytes ⟨2, ownOrd s, 0xFFFF, r.tick, stampAfter s srcTick r.by_,
      (grantFor s r).dt + (grantFor s r).amountUs * 2 ^ 64 + r.cause.num * 2 ^ 96 + r.ord * 2 ^ 104⟩] := by
  unfold grantTold
  generalize (grantFor s r).dt + (grantFor s r).amountUs * 2 ^ 64 + r.cause.num * 2 ^ 96 + r.ord * 2 ^ 104 = arg
  rw [ctrlQ_eventToAll (s := setSpan s { s.span with granted := some r }) hu hin hp]
  rw [stampAfter_congr (s := s) rfl rfl rfl rfl]
  rfl

/-! ### The cases of O45 -/

/-- The request that a STRETCH_REQ message carries. -/
def askedStretch (m : CtrlMsg) : StretchReq := ⟨m.tick, bitsOf m.arg 31 0, Cause.ofNum (bitsOf m.arg 39 32), m.from_, some m.stamp⟩

/-- The grant that a STRETCH_GRANT message carries. -/
def grantSent (m : CtrlMsg) : StretchGrant :=
  ⟨m.tick, bitsOf m.arg 63 0, bitsOf m.arg 95 64, Cause.ofNum (bitsOf m.arg 103 96), bitsOf m.arg 119 104⟩

theorem stretchReq_master (hmaster : isMaster s = true) (hmsg : m.msg = 1) : stretchReq m s = acceptStretch (takeMsg s m) (askedStretch m) := by
  rw [stretchReq, if_neg (by simp [hmaster, hmsg])]
  rfl

theorem stretchGrant_member (hmaster : isMaster s = false) (hmsg : m.msg = 2) :
    stretchGrant m s = takeGrant (takeMsg s m) (grantSent m) (some m.stamp) := by
  rw [stretchGrant, if_neg (by simp [hmaster, hmsg])]
  rfl

theorem cause_power {n : Nat} (h : n = 4) : Cause.ofNum n = .power := by
  subst h
  rfl

theorem stretchReq_in_time (hmaster : isMaster s = true) (hmsg : m.msg = 1) (htick : m.tick = getF s F.TICK_NOW + 1)
    (hcut : getF s F.TICK_DT + 1000 * getF s F.TICK_STRETCH_CFG_CUTOFF_US < getF s F.TICK_NEXT) :
    stretchReq m s = grantStretch (takeMsg s m) (askedStretch m) := by
  have htaken := msgTaken_takeMsg (s := s) (m := m)
  rw [stretchReq_master hmaster hmsg, acceptStretch_in_time]
  · exact htick.trans (congrArg (· + 1) (getF_of_taken htaken (by decide)).symm)
  · rwa [getF_of_taken htaken (by decide), getF_of_taken htaken (by decide), getF_of_taken htaken (by decide)]

theorem smaller_request_changes_nothing {q : StretchReq} (hmaster : isMaster s = true) (hmsg : m.msg = 1) (htick : m.tick = getF s F.TICK_NOW + 1)
    (hcut : getF s F.TICK_DT + 1000 * getF s F.TICK_STRETCH_CFG_CUTOFF_US < getF s F.TICK_NEXT) (hgranted : s.span.granted = some q)
    (hq : q.tick = m.tick) (hworse : bitsOf m.arg 31 0 < q.amountUs ∨ (bitsOf m.arg 31 0 = q.amountUs ∧ q.ord ≤ m.from_)) :
    ∃ t, exec (.stretchReq m) s = .next t ∧ fieldsKept [F.SPAN_CNT_CTRL_RX] s t ∧ t.span.granted = s.span.granted ∧ t.span.grant = s.span.grant ∧
      t.links = s.links ∧ t.frame = s.frame ∧ t.adm = s.adm ∧ t.mem = s.mem := by
  refine ⟨_, exec_stretchReq, ?_⟩
  have htaken := msgTaken_takeMsg (s := s) (m := m)
  rw [stretchReq_in_time hmaster hmsg htick hcut, grantStretch_worse (htaken.granted.trans hgranted) hq hworse]
  obtain ⟨l, x, hrest⟩ := htaken.rest
  refine ⟨htaken.fields, htaken.granted, htaken.grant, ?_, ?_, ?_, ?_⟩ <;> rw [hrest]

theorem late_request_is_counted (h : s.fieldsCanonical) (hin : inSpan s = true) (hmaster : isMaster s = true) (hmsg : m.msg = 1)
    (hlate : m.tick ≠ getF s F.TICK_NOW + 1 ∨ getF s F.TICK_NEXT ≤ getF s F.TICK_DT + 1000 * getF s F.TICK_STRETCH_CFG_CUTOFF_US) :
    ∃ t, exec (.stretchReq m) s = .next t ∧ getF t F.TICK_CNT_LATE_REQ = satAdd 32 (getF s F.TICK_CNT_LATE_REQ) 1 ∧
      fieldsKept [F.TICK_CNT_LATE_REQ, F.SPAN_CNT_CTRL_RX] s t ∧ t.span.granted = s.span.granted ∧ t.links = s.links ∧ t.frame = s.frame ∧
      t.adm = s.adm ∧ t.mem = s.mem := by
  refine ⟨_, exec_stretchReq, ?_⟩
  have htaken := msgTaken_takeMsg (s := s) (m := m)
  have hlate' : (askedStretch m).tick ≠ frameNow (takeMsg s m) + 1 ∨ getF (takeMsg s m) F.TICK_NEXT ≤
      getF (takeMsg s m) F.TICK_DT + 1000 * getF (takeMsg s m) F.TICK_STRETCH_CFG_CUTOFF_US := by
    rw [frameNow, getF_of_taken htaken (by decide), getF_of_taken htaken (by decide), getF_of_taken htaken (by decide),
      getF_of_taken htaken (by decide)]
    exact hlate
  have hin' : inSpan (takeMsg s m) = true := (inSpan_congr (getF_of_taken htaken (by decide))).trans hin
  rw [stretchReq_master hmaster hmsg, acceptStretch_late hin' hlate']
  obtain ⟨l, x, hrest⟩ := htaken.rest
  refine ⟨?_, fieldsKept_setF (fieldsKept_mono htaken.fields (by simp)) (by simp), htaken.granted, ?_, ?_, ?_, ?_⟩
  · rw [getF_bump (takeMsg_canonical h), getF_of_taken htaken (by decide)]
  all_goals rw [hrest]; rfl

theorem largest_request_is_granted {amount dt : Nat} (h : s.fieldsCanonical) (hu : s.unitsCanonical = true) (hin : inSpan s = true)
    (hmaster : isMaster s = true) (hmsg : m.msg = 1) (htick : m.tick = getF s F.TICK_NOW + 1)
    (hcut : getF s F.TICK_DT + 1000 * getF s F.TICK_STRETCH_CFG_CUTOFF_US < getF s F.TICK_NEXT)
    (hamount : amount = min (bitsOf m.arg 31 0) (getF s F.TICK_STRETCH_CFG_MAX_US)) (hpos : 0 < amount)
    (hdt : dt = getF s F.TICK_LAST + 1000 * getF s F.TICK_PERIOD_PERIOD_US + 1000 * amount) (hnext : getF s F.TICK_NEXT ≤ dt)
    (hbetter : ∀ g, s.span.granted = some g → g.tick = m.tick →
      g.amountUs < bitsOf m.arg 31 0 ∨ (g.amountUs = bitsOf m.arg 31 0 ∧ m.from_ < g.ord)) : ∃ t,
    exec (.stretchReq m) s = .next t ∧ isSet t F.TICK_STAT_STRETCH_PEND = true ∧ getF t F.TICK_NEXT = dt % 2 ^ 64 ∧
      t.span.granted = some (askedStretch m) ∧
      t.span.grant = some ⟨m.tick, dt, amount, Cause.ofNum (bitsOf m.arg 39 32), m.from_⟩ ∧
      (∀ p ∈ childPorts s, (link t p).ctrlQ = (link s p).ctrlQ ++ [ctrlBytes ⟨2, getF s F.SPAN_ID_ORD, 0xFFFF, m.tick, stampAfter s srcTick (some m.stamp),
        dt + amount * 2 ^ 64 + (Cause.ofNum (bitsOf m.arg 39 32)).num * 2 ^ 96 + m.from_ * 2 ^ 104⟩]) ∧
      (bitsOf m.arg 39 32 = 4 → isSet t F.PWR_STAT_NARROW = true ∧ t.pwr.powerGrant = true) ∧ t.frame = s.frame ∧ t.adm = s.adm ∧ t.mem = s.mem ∧
      t.cells = s.cells ∧ fieldsKept [F.TICK_STAT_STRETCH_PEND, F.TICK_NEXT, F.SPAN_CNT_CTRL_RX, F.SPAN_CNT_CTRL_TX, F.PWR_STAT_NARROW,
        F.ADM_STAT_NARROWED] s t := by
  refine ⟨_, exec_stretchReq, ?_⟩
  have htaken := msgTaken_takeMsg (s := s) (m := m)
  have hmax : getF (takeMsg s m) F.TICK_STRETCH_CFG_MAX_US = getF s F.TICK_STRETCH_CFG_MAX_US := getF_of_taken htaken (by decide)
  have hgrant : grantFor (takeMsg s m) (askedStretch m) = ⟨m.tick, dt, amount, Cause.ofNum (bitsOf m.arg 39 32), m.from_⟩ := by
    rw [grantFor, hmax, unstretched, getF_of_taken htaken (by decide), getF_of_taken htaken (by decide), hdt, hamount]
    rfl
  have htold : CtrlOnly (setSpan (takeMsg s m) { (takeMsg s m).span with granted := some (askedStretch m) }) (grantTold (takeMsg s m) (askedStretch m)) :=
    ctrlOnly_eventToAll
  have hfields : fieldsKept [F.SPAN_CNT_CTRL_RX, F.SPAN_CNT_CTRL_TX] s (grantTold (takeMsg s m) (askedStretch m)) :=
    fieldsKept_trans (fieldsKept_mono htaken.fields (by simp)) (fieldsKept_mono htold.fields (by simp))
  have hdone : GrantTaken ⟨m.tick, dt, amount, Cause.ofNum (bitsOf m.arg 39 32), m.from_⟩ (grantTold (takeMsg s m) (askedStretch m))
      (stretchReq m s) := by
    rw [stretchReq_in_time hmaster hmsg htick hcut, grantStretch_better, hgrant]
    · exact grantTaken_takeGrant (eventToAll_canonical (setSpan_canonical (takeMsg_canonical h)))
        (htick.trans (congrArg (· + 1) (hfields _ (by decide)).symm)) ((hfields _ (by decide)).trans_le hnext)
    · rwa [hmax, show (askedStretch m).amountUs = bitsOf m.arg 31 0 from rfl, ← hamount]
    · rw [htaken.granted]
      exact hbetter
  obtain ⟨l, y, hrest⟩ := hdone.rest
  obtain ⟨l', k, n, a, hrest'⟩ := htold.rest
  obtain ⟨l'', x, hrest''⟩ := htaken.rest
  refine ⟨hdone.pend, hdone.next, ?_, ?_, fun p hp => ?_, fun hpower => hdone.narrow (cause_power hpower), ?_, ?_, ?_, ?_, ?_⟩
  · rw [hrest, hrest']; rfl
  · rw [hrest]
  · have hlinks : link (stretchReq m s) p = link (grantTold (takeMsg s m) (askedStretch m)) p := by rw [hrest]; rfl
    have hown : link (takeMsg s m) p = link s p := by rw [hrest'']; rfl
    have hunits : (takeMsg s m).unitsCanonical = true := by rw [hrest'']; exact hu
    have hport : p ∈ childPorts (takeMsg s m) := by rwa [childPorts_congr (getF_of_taken htaken (by decide))]
    have hstamp : stampAfter (takeMsg s m) srcTick (some m.stamp) = stampAfter s srcTick (some m.stamp) :=
      stampAfter_congr (getF_of_taken htaken (by decide)) (getF_of_taken htaken (by decide)) (by rw [hrest'']) (by rw [hrest''])
    have hin' : inSpan (takeMsg s m) = true := (inSpan_congr (getF_of_taken htaken (by decide))).trans hin
    rw [hlinks, ctrlQ_grantTold hunits hin' hport, hgrant, hown, ownOrd, getF_of_taken htaken (by decide)]
    rw [show (askedStretch m).by_ = some m.stamp from rfl, hstamp]
    rfl
  · rw [hrest, hrest', hrest'']; rfl
  · rw [hrest, hrest', hrest'']; rfl
  · rw [hrest, hrest', hrest'']; rfl
  · rw [hrest, hrest', hrest'']; rfl
  · exact fieldsKept_trans (fieldsKept_mono hfields (by simp)) (fieldsKept_mono hdone.fields (by simp [grantFields]))

theorem coming_grant_is_taken (h : s.fieldsCanonical) (hmaster : isMaster s = false) (hmsg : m.msg = 2) (htick : m.tick = getF s F.TICK_NOW + 1)
    (hnext : getF s F.TICK_NEXT ≤ bitsOf m.arg 63 0) : ∃ t, exec (.stretchGrant m) s = .next t ∧
    isSet t F.TICK_STAT_STRETCH_PEND = true ∧ getF t F.TICK_NEXT = bitsOf m.arg 63 0 ∧ t.span.grant = some (grantSent m) ∧
      (bitsOf m.arg 103 96 = 4 → isSet t F.PWR_STAT_NARROW = true ∧ t.pwr.powerGrant = true) ∧ t.links = s.links ∧ t.frame = s.frame ∧
      fieldsKept [F.TICK_STAT_STRETCH_PEND, F.TICK_NEXT, F.SPAN_CNT_CTRL_RX, F.PWR_STAT_NARROW, F.ADM_STAT_NARROWED] s t := by
  refine ⟨_, exec_stretchGrant, ?_⟩
  have htaken := msgTaken_takeMsg (s := s) (m := m)
  have hdone : GrantTaken (grantSent m) (takeMsg s m) (stretchGrant m s) := by
    rw [stretchGrant_member hmaster hmsg]
    exact grantTaken_takeGrant (takeMsg_canonical h) (htick.trans (congrArg (· + 1) (getF_of_taken htaken (by decide)).symm))
      ((getF_of_taken htaken (by decide)).trans_le hnext)
  obtain ⟨l, y, hrest⟩ := hdone.rest
  obtain ⟨l', x, hrest'⟩ := htaken.rest
  refine ⟨hdone.pend, hdone.next.trans (Nat.mod_eq_of_lt ?_), ?_, fun hpower => hdone.narrow (cause_power hpower), ?_, ?_, ?_⟩
  · show bitsOf m.arg 63 0 < 2 ^ 64
    simp only [bitsOf]
    exact Nat.mod_lt _ (by decide)
  · rw [hrest]
  · rw [hrest, hrest']
  · rw [hrest, hrest']
  · exact fieldsKept_trans (fieldsKept_mono htaken.fields (by simp)) (fieldsKept_mono hdone.fields (by simp [grantFields]))

theorem late_grant_costs_the_lock (h : s.fieldsCanonical) (hmaster : isMaster s = false) (hmsg : m.msg = 2) (htick : m.tick ≤ getF s F.TICK_NOW) :
    ∃ t, exec (.stretchGrant m) s = .next t ∧ isSet t F.TICK_STAT_LATE_GRANT = true ∧
      isSet t F.TICK_STAT_ALIGN_LOSS = true ∧ isSet t F.TICK_STAT_LOCKED = false ∧ getF t F.TICK_CNT_ALIGN = satAdd 32 (getF s F.TICK_CNT_ALIGN) 1 ∧
      t.span.grant = s.span.grant ∧ t.frame = s.frame ∧ t.adm = s.adm ∧ t.mem = s.mem ∧ fieldsKept [F.TICK_STAT_LATE_GRANT,
        F.TICK_STAT_ALIGN_LOSS, F.TICK_STAT_LOCKED, F.TICK_CNT_ALIGN, F.SPAN_CNT_CTRL_RX, F.SPAN_CNT_CTRL_TX] s t := by
  refine ⟨_, exec_stretchGrant, ?_⟩
  have htaken := msgTaken_takeMsg (s := s) (m := m)
  have hraised : (raise (takeMsg s m) F.TICK_STAT_LATE_GRANT).fieldsCanonical := raise_canonical (takeMsg_canonical h)
  rw [stretchGrant_member hmaster hmsg, takeGrant_late (by rw [frameNow, getF_of_taken htaken (by decide)]; exact htick)]
  have htells := alignLoss_tells (s := raise (takeMsg s m) F.TICK_STAT_LATE_GRANT) (c := some m.stamp)
  have hshown := fieldsKept_showAlignLoss (s := raise (takeMsg s m) F.TICK_STAT_LATE_GRANT)
  obtain ⟨hlock, hloss, hcount⟩ := alignLoss_shows (c := some m.stamp) hraised
  obtain ⟨l, k, n, a, hrest⟩ := htells.rest
  obtain ⟨l', x, hrest'⟩ := htaken.rest
  refine ⟨?_, hloss, hlock, ?_, ?_, ?_, ?_, ?_, ?_⟩
  · rw [ctrlOnly_isSet htells (by decide), isSet_congr (hshown _ (by decide))]
    exact Laws.isSet_raise _ _ (Laws.smapWf_iff.1 (takeMsg_canonical h)).1 (by decide)
  · rw [hcount, raise, Laws.getF_setF_other _ _ _ _ (by decide), getF_of_taken htaken (by decide)]
  · rw [hrest]
    exact htaken.grant
  · rw [hrest]
    show (takeMsg s m).frame = s.frame
    rw [hrest']
  · rw [hrest]
    show (takeMsg s m).adm = s.adm
    rw [hrest']
  · rw [hrest]
    show (takeMsg s m).mem = s.mem
    rw [hrest']
  · refine fieldsKept_trans (fieldsKept_setF (fieldsKept_mono htaken.fields (by simp)) (by simp)) (fieldsKept_trans (fieldsKept_mono hshown ?_)
      (fieldsKept_mono htells.fields (by simp)))
    simp [alignFields]

end

/-- Settles O45: requests at the master in time and late, grants at a member for the coming tick and late. -/
theorem stretchesAreGranted : Obligations.StretchesAreGranted := fun _ _ h hu hin =>
  ⟨fun hmaster hmsg =>
    ⟨fun _ _ htick hcut hamount hpos hdt hnext hbetter =>
        largest_request_is_granted h hu hin hmaster hmsg htick hcut hamount hpos hdt hnext hbetter,
      fun _ htick hcut hgranted hq hworse => smaller_request_changes_nothing hmaster hmsg htick hcut hgranted hq hworse,
      fun hlate => late_request_is_counted h hin hmaster hmsg hlate⟩,
    fun hmaster hmsg =>
      ⟨fun htick hnext => coming_grant_is_taken h hmaster hmsg htick hnext, fun htick => late_grant_costs_the_lock h hmaster hmsg htick⟩⟩

end Sys2Proof.Proofs

/-! SUPPORT. The fields that ticks, periods and flips are about, and what the operations beside them leave: stretches, the choice of points and the passing of
array cycles (R54, R67 to R70, R429 to R434). -/
namespace Sys2Proof.Proofs
open Sys2Proof Sys2Proof.Machine

/-! ### Watched fields -/

/-- The fields that ticks, changes of period and flips are about. -/
def watched : List Fld :=
  [F.TICK_STAT_RUNNING, F.TICK_NOW, F.TICK_LAST, F.TICK_NEXT, F.TICK_CIF_CIF, F.TICK_DT, F.TICK_FRAME, F.TICK_PERIOD_PERIOD_US, F.TICK_STAT_OVERRUN,
   F.TICK_CNT_OVERRUN, F.CFG_STAT_ABORT, F.CFG_MODE_STAT_PEND, F.CFG_REPLAY, F.CFG_CNT_EMPTY, F.CFG_NEXT_CASEMENT_FLIP, F.CFG_NEXT_PANE_FLIP,
   F.ARR_STAT_RUNNING, F.ARR_STAT_LIVE_CASEMENT, F.ARR_STAT_LIVE_PANE, F.SPAN_STAT_IN_SPAN, F.PWR_RANGE_OP_MAX]

/-- Every watched field outside `ws` reads as before. -/
def watchKept (ws : List Fld) (s t : State) : Prop := ∀ f ∈ watched, f ∉ ws → getF t f = getF s f

/-- A field that is none of the watched ones. -/
abbrev unwatched (f : Fld) : Prop := ∀ g ∈ watched, g.key ≠ f.key

section
variable {s t u : State} {ws vs : List Fld} {f : Fld} {v : Nat}

theorem watchKept_refl : watchKept ws s s := fun _ _ _ => rfl

theorem watchKept_trans (h : watchKept ws s t) (h' : watchKept ws t u) : watchKept ws s u :=
  fun f hf hw => (h' f hf hw).trans (h f hf hw)

theorem watchKept_mono (h : watchKept ws s t) (hsub : ws ⊆ vs) : watchKept vs s t := fun f hf hv => h f hf fun hw => hv (hsub hw)

theorem watchKept_setF_in (h : watchKept ws s t) (hf : ∀ g ∈ watched, g.key = f.key → g ∈ ws) : watchKept ws s (setF t f v) :=
  fun g hg hw => (Laws.getF_setF_other t f g v (fun e => hw (hf g hg e))).trans (h g hg hw)

theorem watchKept_setF (h : watchKept ws s t) (hf : unwatched f) : watchKept ws s (setF t f v) :=
  watchKept_setF_in h fun g hg e => absurd e (hf g hg)

theorem watchKept_of_fieldsKept {fs : List Fld} (h : fieldsKept fs s t) (hfs : ∀ g ∈ watched, ∀ f ∈ fs, f.key ≠ g.key) : watchKept ws s t :=
  fun g hg _ => h g (hfs g hg)

theorem watchKept_flds (h : watchKept ws s t) (hu : u.flds = t.flds) : watchKept ws s u :=
  fun f hf hw => (Laws.getF_congr hu f).trans (h f hf hw)

theorem watchKept_setFrame {x : FrameSt} (h : watchKept ws s t) : watchKept ws s (setFrame t x) := watchKept_flds h (Laws.setFrame_flds t x)

theorem watchKept_setSpan {x : SpanSt} (h : watchKept ws s t) : watchKept ws s (setSpan t x) := watchKept_flds h (Laws.setSpan_flds t x)

theorem watchKept_setMem {m : MemSt} (h : watchKept ws s t) : watchKept ws s (setMem t m) := watchKept_flds h (Laws.setMem_flds t m)

theorem watchKept_stampEvent {src : Nat} {k : EventKind} (h : watchKept ws s t) : watchKept ws s (stampEvent t src k) := watchKept_flds h rfl

theorem watchKept_ite {c : Prop} {d : Decidable c} (ht : watchKept ws s t) (hu : watchKept ws s u) : watchKept ws s (if c then t else u) := by
  split <;> assumption

/-! ### Operations beside the frame -/

/-- Between `s` and `t` only what stands beside the frame has moved: fields, the parts of a nanosecond, the stretches asked for and granted, messages,
points and stamp counts; of the watched fields at most those in `ws`. -/
structure Aside (ws : List Fld) (s t : State) : Prop where
  rest : ∃ flds sent ac links grant granted pwr cnt ahead,
    t = { s with flds := flds, frame := { s.frame with stretchSent := sent, acRest := ac }, links := links,
                 span := { s.span with grant := grant, granted := granted }, pwr := pwr, stampCnt := cnt, stampAhead := ahead }
  fields : watchKept ws s t

theorem aside_refl : Aside ws s s := ⟨⟨_, _, _, _, _, _, _, _, _, rfl⟩, watchKept_refl⟩

theorem aside_trans (h : Aside ws s t) (h' : Aside ws t u) : Aside ws s u := by
  obtain ⟨⟨_, _, _, _, _, _, _, _, _, rfl⟩, hf⟩ := h
  obtain ⟨⟨_, _, _, _, _, _, _, _, _, rfl⟩, hf'⟩ := h'
  exact ⟨⟨_, _, _, _, _, _, _, _, _, rfl⟩, watchKept_trans hf hf'⟩

theorem aside_mono (h : Aside ws s t) (hsub : ws ⊆ vs) : Aside vs s t := ⟨h.rest, watchKept_mono h.fields hsub⟩

theorem aside_setF_in (h : Aside ws s t) (hf : ∀ g ∈ watched, g.key = f.key → g ∈ ws) : Aside ws s (setF t f v) := by
  obtain ⟨⟨_, _, _, _, _, _, _, _, _, rfl⟩, hk⟩ := h
  exact ⟨⟨_, _, _, _, _, _, _, _, _, rfl⟩, watchKept_setF_in hk hf⟩

theorem aside_setF (h : Aside ws s t) (hf : unwatched f) : Aside ws s (setF t f v) := aside_setF_in h fun g hg e => absurd e (hf g hg)

theorem aside_setPwr {p : PwrSt} (h : Aside ws s t) : Aside ws s (setPwr t p) := by
  obtain ⟨⟨_, _, _, _, _, _, _, _, _, rfl⟩, hk⟩ := h
  exact ⟨⟨_, _, _, _, _, _, _, _, _, rfl⟩, hk⟩

theorem aside_of_ctrlOnly (h : CtrlOnly s t) : Aside ws s t := by
  obtain ⟨⟨_, _, _, _, rfl⟩, hf, -⟩ := h
  exact ⟨⟨_, _, _, _, _, _, _, _, _, rfl⟩, watchKept_of_fieldsKept hf (by decide)⟩

theorem aside_ite {c : Prop} {d : Decidable c} (ht : Aside ws s t) (hu : Aside ws s u) : Aside ws s (if c then t else u) := by
  split <;> assumption

theorem aside_foldl {α : Type} {g : State → α → State} {l : List α} (h : Aside ws s t) (hg : ∀ t x, Aside ws t (g t x)) :
    Aside ws s (l.foldl g t) := by
  induction l generalizing t with
  | nil => exact h
  | cons x l ih => exact ih (aside_trans h (hg t x))

/-! ### Stretches (R67 to R70) -/

theorem aside_alignLoss {c : Option Stamp} : Aside ws s (alignLoss s c) :=
  aside_trans (t := showAlignLoss s)
    (aside_setF (aside_setF (aside_setF aside_refl (by decide)) (by decide))
      (by decide))
    (aside_of_ctrlOnly alignLoss_tells)

theorem aside_raiseNarrow (h : Aside ws s t) : Aside ws s (raiseNarrow t) :=
  aside_ite h (aside_setF (aside_setF h (by decide)) (by decide))

theorem aside_takeGrant {g : StretchGrant} {c : Option Stamp} : Aside [F.TICK_NEXT] s (takeGrant s g c) := by
  have hmoved : Aside [F.TICK_NEXT] s (tickMoved s g) := by
    obtain ⟨⟨_, _, _, _, _, _, _, _, _, hrest⟩, hk⟩ :=
      aside_setF_in (f := F.TICK_NEXT) (v := g.dt) (aside_setF (f := F.TICK_STAT_STRETCH_PEND) (v := 1) (aside_refl (s := s)) (by decide))
        (ws := [F.TICK_NEXT]) (by decide)
    exact ⟨⟨_, _, _, _, _, _, _, _, _, rfl⟩, hk⟩
  unfold takeGrant
  split
  · exact aside_trans (aside_setF aside_refl (by decide)) aside_alignLoss
  · split
    · exact aside_ite (aside_raiseNarrow (aside_setPwr hmoved)) hmoved
    · exact aside_refl

theorem aside_grantStretch {r : StretchReq} : Aside [F.TICK_NEXT] s (grantStretch s r) := by
  unfold grantStretch
  exact aside_ite aside_refl
    (aside_trans (t := setSpan s { s.span with granted := some r }) ⟨⟨_, _, _, _, _, _, _, _, _, rfl⟩, fun _ _ _ => rfl⟩
      (aside_trans (aside_of_ctrlOnly ctrlOnly_eventToAll) aside_takeGrant))

theorem aside_acceptStretch {r : StretchReq} : Aside [F.TICK_NEXT] s (acceptStretch s r) :=
  aside_ite (aside_setF aside_refl (by decide)) (aside_ite (aside_setF aside_refl (by decide)) aside_grantStretch)

theorem aside_requestStretch {n : Nat} {c : Cause} : Aside [F.TICK_NEXT] s (requestStretch s n c) := by
  unfold requestStretch askStretch
  refine aside_ite aside_refl (aside_ite aside_refl ?_)
  have hasked : Aside [F.TICK_NEXT] s (setFrame s { s.frame with stretchSent := s.frame.stretchSent ++ [c] }) :=
    ⟨⟨_, _, _, _, _, _, _, _, _, rfl⟩, fun _ _ _ => rfl⟩
  exact aside_trans (aside_ite (aside_setF hasked (by decide)) hasked)
    (aside_ite aside_acceptStretch (aside_of_ctrlOnly ctrlOnly_eventToMaster))

/-! ### The choice of points (R429 to R434) -/

/-- The fields that the array's point writes while no schedule runs. -/
def restFields : List Fld := [F.PWR_OP_TARGET, F.PWR_OP_RAIL_MV, F.PWR_OP_CUR, F.PWR_OP_CEIL, F.PWR_OP_FLOOR_OP]

/-- Between `s` and `t` only the array's point has moved. -/
structure PointOnly (s t : State) : Prop where
  rest : ∃ flds pwr, t = { s with flds := flds, pwr := pwr }
  fields : fieldsKept restFields s t

theorem pointOnly_refl : PointOnly s s := ⟨⟨_, _, rfl⟩, fieldsKept_refl⟩

theorem pointOnly_setF (h : PointOnly s t) (hf : f ∈ restFields) : PointOnly s (setF t f v) := by
  obtain ⟨⟨_, _, rfl⟩, hk⟩ := h
  exact ⟨⟨_, _, rfl⟩, fieldsKept_setF hk hf⟩

theorem pointOnly_ite {c : Prop} {d : Decidable c} (ht : PointOnly s t) (hu : PointOnly s u) : PointOnly s (if c then t else u) := by
  split <;> assumption

theorem aside_of_pointOnly (h : PointOnly s t) : Aside ws s t := by
  obtain ⟨⟨_, _, rfl⟩, hf⟩ := h
  exact ⟨⟨_, _, _, _, _, _, _, _, _, rfl⟩, watchKept_of_fieldsKept hf (by decide)⟩

theorem pointOnly_setOp {op : Nat} (h : PointOnly s t) : PointOnly s (setOp t op) := by
  unfold setOp
  split
  · obtain ⟨⟨_, _, rfl⟩, hk⟩ := h
    exact ⟨⟨_, _, rfl⟩, hk⟩
  · exact pointOnly_setF h (by decide)

theorem pointOnly_aimAt {e : Rat} {op : Nat} {next : Option Nat} (h : PointOnly s t) : PointOnly s (aimAt t e op next) :=
  pointOnly_setOp (pointOnly_setF (pointOnly_setF h (by decide)) (by decide))

theorem pointOnly_showFloor (h : PointOnly s t) : PointOnly s (showFloor t) := by
  unfold showFloor
  split
  · exact h
  · exact pointOnly_setF h (by decide)

theorem pointOnly_aimRest (h : PointOnly s t) : PointOnly s (aimRest t) := by
  have hceil : PointOnly s (match t.pwr.rest.getLast? with
      | some x => setF t F.PWR_OP_CEIL (phaseCeil t (x.left t))
      | none => t) := by
    split
    · exact pointOnly_setF h (by decide)
    · exact h
  exact pointOnly_ite (pointOnly_setOp (pointOnly_setF (pointOnly_setF hceil (by decide)) (by decide))) (pointOnly_aimAt hceil)

theorem frameRuns_showFloor : frameRuns (showFloor s) = frameRuns s := by
  unfold showFloor
  split <;> rfl

/-- Where no schedule runs the choice of points moves the array's point alone. -/
theorem pointOnly_planPoints (h : frameRuns s = false) : PointOnly s (planPoints s) := by
  unfold planPoints
  dsimp only
  rw [frameRuns_showFloor, h]
  exact pointOnly_aimRest (pointOnly_showFloor pointOnly_refl)

/-- The fields of a phase's points lie beyond the watched ones. -/
theorem unwatched_phase {k b : Nat} : unwatched ⟨(0x100100 + k * 0x4) * 32 + b, v⟩ := by
  have hlow : ∀ g ∈ watched, g.key < 0x2002000 := by decide
  intro g hg
  have hg := hlow g hg
  show g.key ≠ (0x100100 + k * 0x4) * 32 + b
  omega

theorem aside_point (h : Aside ws s t) (h' : PointOnly t u) : Aside ws s u := aside_trans h (aside_of_pointOnly h')

/-- A frame below its floor narrows, and asks for a stretch of its excess where that can still reach the master (R430, R431). -/
theorem aside_belowFloor {a b d : Prop} {da : Decidable a} {db : Decidable b} {dd : Decidable d} {p : PwrSt} {n : Nat} (h : Aside [F.TICK_NEXT] s t) :
    Aside [F.TICK_NEXT] s (if a then t
      else if b then requestStretch (raiseNarrow (setPwr (if d then t else bump (raise t F.PWR_STAT_BELOW_FLOOR) F.PWR_CNT_BELOW_FLOOR) p)) n .power
      else raiseNarrow (setPwr (if d then t else bump (raise t F.PWR_STAT_BELOW_FLOOR) F.PWR_CNT_BELOW_FLOOR) p)) :=
  have hnarrow := aside_raiseNarrow (aside_setPwr (aside_ite h (aside_setF (aside_setF h (by decide)) (by decide))))
  aside_ite h (aside_ite (aside_trans hnarrow aside_requestStretch) hnarrow)

/-- The points of a phase are shown beyond the watched fields. -/
theorem aside_showPhase {k a b c d : Nat} : Aside ws s (setF (setF (setF (setF s (F.PWR_PHASE_PREF k) a) (F.PWR_PHASE_CHOSEN k) b)
    (F.PWR_PHASE_CAPPED k) c) (F.PWR_PHASE_RAISED k) d) :=
  aside_setF (aside_setF (aside_setF (aside_setF aside_refl unwatched_phase) unwatched_phase) unwatched_phase) unwatched_phase

/-- The choice of points moves of the watched fields TICK_NEXT alone, by a stretch. -/
theorem aside_planPoints : Aside [F.TICK_NEXT] s (planPoints s) := by
  have hfloor : Aside [F.TICK_NEXT] s (showFloor s) := aside_of_pointOnly (pointOnly_showFloor pointOnly_refl)
  have hshown {t : State} {g : State → PhaseLeft × Nat → State} {l : List (PhaseLeft × Nat)} (h : Aside [F.TICK_NEXT] s t)
      (hg : ∀ t x, Aside [F.TICK_NEXT] t (g t x)) : Aside [F.TICK_NEXT] s (if l.isEmpty then l.foldl g t else keepPoints (l.foldl g t) l) :=
    aside_ite (aside_foldl h hg) (aside_setPwr (aside_foldl h hg))
  unfold planPoints
  dsimp only
  refine aside_ite (aside_point hfloor (pointOnly_aimRest pointOnly_refl)) ?_
  split
  · exact aside_belowFloor (aside_point (hshown (aside_setPwr hfloor) (fun _ _ => aside_showPhase))
      (pointOnly_aimAt (pointOnly_setF pointOnly_refl (by decide))))
  · exact aside_belowFloor (aside_point (hshown (aside_setPwr hfloor) (fun _ _ => aside_showPhase)) (pointOnly_aimRest pointOnly_refl))

/-! ### Array cycles (R54, R160, R432) -/

theorem aside_stretchAc {n k : Nat} (h : Aside [F.TICK_NEXT, F.TICK_DT] s t) : Aside [F.TICK_NEXT, F.TICK_DT] s (stretchAc n k t) :=
  have hcount := aside_setPwr (aside_setF (f := F.PWR_DROOP_AC) h (by decide))
  aside_ite h (aside_ite (aside_trans hcount (aside_mono aside_planPoints (by simp))) hcount)

theorem aside_acRest {r : Nat} (h : Aside ws s t) : Aside ws s (setFrame t { t.frame with acRest := r }) := by
  obtain ⟨⟨_, _, _, _, _, _, _, _, _, rfl⟩, hk⟩ := h
  exact ⟨⟨_, _, _, _, _, _, _, _, _, rfl⟩, hk⟩

/-- The cycle-in-frame moves on by `n`, or holds at its top. -/
def moveCif (s : State) (n : Nat) : State :=
  if cifMax ≤ getF s F.TICK_CIF_CIF + n then raise (setF s F.TICK_CIF_CIF cifMax) F.TICK_STAT_CIF_HELD
  else setF s F.TICK_CIF_CIF (getF s F.TICK_CIF_CIF + n)

theorem aside_moveCif {n : Nat} : Aside [F.TICK_CIF_CIF] s (moveCif s n) :=
  have hset {v : Nat} : Aside [F.TICK_CIF_CIF] s (setF s F.TICK_CIF_CIF v) := aside_setF_in aside_refl (by decide)
  aside_ite (aside_setF hset (by decide)) hset

/-- Beyond the cycle-in-frame, array cycles move device time and the counts of cycles, and the tick by a stretch. -/
theorem aside_advanceAc_moved {n : Nat} : Aside [F.TICK_NEXT, F.TICK_DT] (moveCif s n) (advanceAc s n) := by
  have hload : Aside [F.TICK_NEXT, F.TICK_DT] (moveCif s n)
      (if isSet (moveCif s n) F.CFG_STAT_LOADING then addF (moveCif s n) F.CFG_LOAD_AC_CUR_AC n else moveCif s n) :=
    aside_ite (aside_setF aside_refl (by decide)) aside_refl
  exact aside_stretchAc (aside_acRest (aside_setF_in hload (by decide)))

/-- The watched fields that array cycles move. -/
def acFields : List Fld := [F.TICK_CIF_CIF, F.TICK_NEXT, F.TICK_DT]

theorem aside_advanceAc {n : Nat} : Aside acFields s (advanceAc s n) :=
  aside_trans (aside_mono aside_moveCif (by simp [acFields])) (aside_mono aside_advanceAc_moved (by simp [acFields]))

theorem getF_moveCif {n : Nat} (h : s.fieldsCanonical) (hn : getF s F.TICK_CIF_CIF + n < cifMax) :
    getF (moveCif s n) F.TICK_CIF_CIF = getF s F.TICK_CIF_CIF + n := by
  rw [moveCif, if_neg (by omega), getF_setF h, if_pos rfl]
  exact Nat.mod_eq_of_lt (Nat.lt_trans hn (by decide))

/-- Below its top the cycle-in-frame counts each cycle. -/
theorem getF_advanceAc_cif {n : Nat} (h : s.fieldsCanonical) (hn : getF s F.TICK_CIF_CIF + n < cifMax) :
    getF (advanceAc s n) F.TICK_CIF_CIF = getF s F.TICK_CIF_CIF + n :=
  (aside_advanceAc_moved.fields _ (by decide) (by decide)).trans (getF_moveCif h hn)

end
end Sys2Proof.Proofs

/-! SUPPORT. Served switches, the two sides and what an abort leaves to them: of the watched fields these move at most which side is live and which flips
(R167, R173 to R178, R304). -/
namespace Sys2Proof.Proofs
open Sys2Proof Sys2Proof.Machine

section
variable {s t u : State} {ws : List Fld} {f : Fld} {v : Nat}

/-! ### Pending switches (R304) -/

/-- Between `s` and `t` only the tiers have moved, with what they send, capture and show; no watched field. -/
structure TiersOnly (s t : State) : Prop where
  rest : ∃ flds mem out caps, t = { s with flds := flds, mem := mem, out := out, caps := caps }
  fields : watchKept [] s t

theorem tiersOnly_refl : TiersOnly s s := ⟨⟨_, _, _, _, rfl⟩, watchKept_refl⟩

theorem tiersOnly_setF (h : TiersOnly s t) (hf : unwatched f) : TiersOnly s (setF t f v) := by
  obtain ⟨⟨_, _, _, _, rfl⟩, hk⟩ := h
  exact ⟨⟨_, _, _, _, rfl⟩, watchKept_setF hk hf⟩

theorem tiersOnly_setMem {m : MemSt} (h : TiersOnly s t) : TiersOnly s (setMem t m) := by
  obtain ⟨⟨_, _, _, _, rfl⟩, hk⟩ := h
  exact ⟨⟨_, _, _, _, rfl⟩, hk⟩

theorem tiersOnly_emit {m : OutMsg} (h : TiersOnly s t) : TiersOnly s (emit t m) := by
  obtain ⟨⟨_, _, _, _, rfl⟩, hk⟩ := h
  exact ⟨⟨_, _, _, _, rfl⟩, hk⟩

theorem tiersOnly_ite {c : Prop} {d : Decidable c} (ht : TiersOnly s t) (hu : TiersOnly s u) : TiersOnly s (if c then t else u) := by
  split <;> assumption

theorem tiersOnly_foldl {α : Type} {g : State → α → State} {l : List α} (h : TiersOnly s t) (hg : ∀ t, TiersOnly s t → ∀ x, TiersOnly s (g t x)) :
    TiersOnly s (l.foldl g t) := by
  induction l generalizing t with
  | nil => exact h
  | cons x l ih => exact ih (hg t h x)

theorem tiersOnly_capture {guards : List Fld} {vals : List (Fld × Nat)} (h : TiersOnly s t) (hv : ∀ p ∈ vals, unwatched p.1) :
    TiersOnly s (capture t guards vals) := by
  have hset {t : State} (h : TiersOnly s t) : TiersOnly s (setFields t vals) := by
    unfold setFields
    induction vals generalizing t with
    | nil => exact h
    | cons p l ih =>
      exact ih (fun q hq => hv q (List.mem_cons_of_mem _ hq)) (tiersOnly_setF h (hv p List.mem_cons_self))
  have hcaps {c : List CapEntry} : TiersOnly s { t with caps := c } := by
    obtain ⟨⟨_, _, _, _, rfl⟩, hk⟩ := h
    exact ⟨⟨_, _, _, _, rfl⟩, hk⟩
  obtain ⟨c, hc | hc⟩ := capture_cases t guards vals <;> rw [hc]
  · exact hset hcaps
  · exact hcaps

theorem tiersOnly_memEvent {bit : Fld} {kind unit die region addr : Nat} (h : TiersOnly s t) (hbit : unwatched bit) :
    TiersOnly s (memEvent t bit kind unit die region addr) :=
  tiersOnly_setF (tiersOnly_capture h (by simp only [List.forall_mem_cons]; decide)) hbit

theorem tiersOnly_issueReads (h : TiersOnly s t) : TiersOnly s (issueReads t) := by
  unfold issueReads
  split
  · exact tiersOnly_ite h (tiersOnly_foldl (tiersOnly_setMem h) fun _ ht _ => tiersOnly_foldl ht fun _ ht _ => tiersOnly_emit ht)
  · exact h

theorem tiersOnly_endPending {w : PendSwitch} (h : TiersOnly s t) : TiersOnly s (endPending t w) :=
  have hdone := tiersOnly_setF (tiersOnly_setF (f := F.WGT_STAT_SWITCH_DONE) (v := 1) (tiersOnly_setMem h) (by decide)) (by decide)
  have hshown := tiersOnly_issueReads (tiersOnly_ite (tiersOnly_setF (f := F.WGT_Q_EPOCH_PEND_EPOCH) (v := 0) hdone (by decide)) hdone)
  tiersOnly_ite (tiersOnly_setF hshown (by decide)) hshown

theorem tiersOnly_evictFor {try? : MemSt → Option MemSt} (h : TiersOnly s t) : TiersOnly s (evictFor t try?).2 := by
  unfold evictFor
  split
  · exact tiersOnly_setF (tiersOnly_setMem h) (by decide)
  · exact tiersOnly_memEvent h (by decide)

theorem tiersOnly_retryPending (h : TiersOnly s t) : TiersOnly s (retryPending t) := by
  unfold retryPending
  refine tiersOnly_foldl h fun t ht w => tiersOnly_ite ht ?_
  have hevict := tiersOnly_evictFor (try? := placeEpoch t w.model w.target (fun _ => true)) ht
  split
  · next heq =>
    rw [heq] at hevict
    exact tiersOnly_endPending hevict
  · next heq =>
    rw [heq] at hevict
    exact hevict

/-- Pending switches are served in the tiers alone. -/
theorem tiersOnly_servePending (h : TiersOnly s t) : TiersOnly s (servePending t) := by
  unfold servePending
  refine tiersOnly_foldl h fun t ht w => ?_
  split
  · exact tiersOnly_ite (tiersOnly_retryPending (tiersOnly_setF (tiersOnly_setMem ht) (by decide))) ht
  · exact ht

/-! ### The two sides (R121, R163, R167, R193) -/

theorem watchKept_updateReady (h : watchKept ws s t) : watchKept ws s (updateReady t) :=
  watchKept_setF (watchKept_ite (watchKept_setF h (by decide)) h) (by decide)

theorem fieldsOnly_ite {c : Prop} {d : Decidable c} (ht : FieldsOnly s t) (hu : FieldsOnly s u) : FieldsOnly s (if c then t else u) := by
  split <;> assumption

theorem fieldsOnly_updateReady (h : FieldsOnly s t) : FieldsOnly s (updateReady t) := fieldsOnly_setF (fieldsOnly_ite (fieldsOnly_setF h) h)

theorem watchKept_showEmpty (h : watchKept ws s t) : watchKept ws s (showEmpty t) := watchKept_setF h (by decide)

theorem watchKept_showFloor (h : watchKept ws s t) : watchKept ws s (showFloor t) := watchKept_ite h (watchKept_setF h (by decide))

theorem watchKept_servePending (h : watchKept ws s t) : watchKept ws s (servePending t) :=
  watchKept_trans h (watchKept_mono (tiersOnly_servePending tiersOnly_refl).fields (List.nil_subset _))

theorem watchKept_excludeColumn {col : Nat} (h : watchKept ws s t) : watchKept ws s (excludeColumn t col) :=
  watchKept_setF (watchKept_ite (watchKept_setF h (by decide)) (watchKept_setF h (by decide))) (by decide)

theorem fieldsOnly_excludeColumn {col : Nat} (h : FieldsOnly s t) : FieldsOnly s (excludeColumn t col) :=
  fieldsOnly_setF (fieldsOnly_ite (fieldsOnly_setF h) (fieldsOnly_setF h))

theorem watchKept_beginRetire {col : Nat} (h : watchKept ws s t) : watchKept ws s (beginRetire t col) :=
  watchKept_updateReady (watchKept_setF (watchKept_setF h (by decide)) (by decide))

/-- Column `col` is retired: it is excluded, and the map numbered `g` is in force (R121 step 3). -/
def retireColumn (s : State) (col g : Nat) : State :=
  let s := stampEvent (raise (excludeColumn s col) F.ARR_STAT_RETIRED) srcConfig (.columnRetired col)
  setF (lower (setFrame s { s.frame with mapGen := g }) F.ARR_RETIRE_PEND) F.ARR_RETIRE_COL 0x7F

theorem retireEffect_eq : retireEffect s =
    let r := retireColumn s (getF s F.ARR_RETIRE_COL) (s.frame.mapGen + 1)
    if isSet s F.ARR_RETIRE_PEND && (casement s (liveCase s)).mapGen == s.frame.mapGen + 1 && (pane s (livePane s)).mapGen == s.frame.mapGen + 1 then
      if isSet r F.ARR_RETIRE_QPEND then beginRetire (setF (lower r F.ARR_RETIRE_QPEND) F.ARR_RETIRE_QCOL 0x7F) (getF r F.ARR_RETIRE_QCOL) else r
    else s := rfl

theorem watchKept_retireColumn {col g : Nat} (h : watchKept ws s t) : watchKept ws s (retireColumn t col g) :=
  have hexcluded := watchKept_setF (f := F.ARR_STAT_RETIRED) (v := 1) (watchKept_excludeColumn (col := col) h) (by decide)
  watchKept_setF (watchKept_setF (watchKept_flds hexcluded rfl) (by decide)) (by decide)

theorem watchKept_retireEffect (h : watchKept ws s t) : watchKept ws s (retireEffect t) := by
  rw [retireEffect_eq]
  have hretired := watchKept_retireColumn (col := getF t F.ARR_RETIRE_COL) (g := t.frame.mapGen + 1) h
  exact watchKept_ite (watchKept_ite (watchKept_beginRetire (watchKept_setF (watchKept_setF hretired (by decide)) (by decide))) hretired) h

@[simp] theorem updateReady_frame : (updateReady s).frame = s.frame := by
  obtain ⟨l, hl⟩ := fieldsOnly_updateReady (fieldsOnly_refl (s := s))
  rw [hl]

theorem retireColumn_frame {col g : Nat} : (retireColumn s col g).frame = { s.frame with mapGen := g } := by
  obtain ⟨l, hl⟩ := fieldsOnly_excludeColumn (col := col) (fieldsOnly_refl (s := s))
  rw [retireColumn, hl]
  rfl

theorem beginRetire_frame {col : Nat} : (beginRetire s col).frame = s.frame := by
  rw [beginRetire, updateReady_frame]
  rfl

/-- A retirement that takes effect changes of the frame the number of the column map alone. -/
theorem retireEffect_frame : ∃ g, (retireEffect s).frame = { s.frame with mapGen := g } := by
  rw [retireEffect_eq]
  dsimp only
  split_ifs
  · exact ⟨_, by rw [beginRetire_frame]; exact retireColumn_frame⟩
  · exact ⟨_, retireColumn_frame⟩
  · exact ⟨s.frame.mapGen, rfl⟩

/-- The watched fields that a change of sides moves. -/
def sideFields : List Fld := [F.ARR_STAT_LIVE_CASEMENT, F.ARR_STAT_LIVE_PANE, F.CFG_NEXT_CASEMENT_FLIP, F.CFG_NEXT_PANE_FLIP]

/-- The pointers change to the sides that flip. -/
def movePointers (s : State) : State :=
  let s := if isSet s F.CFG_NEXT_CASEMENT_FLIP then setF s F.ARR_STAT_LIVE_CASEMENT (idleCase s) else s
  if isSet s F.CFG_NEXT_PANE_FLIP then setF s F.ARR_STAT_LIVE_PANE (idlePane s) else s

/-- The registers show what is live. -/
def showLive (s : State) : State := showFloor (setF (setF s F.CFG_LIVE_ID (liveCfg s).configId) F.CFG_LIVE_MODEL (liveCfg s).modelId)

/-- The registers show no idle side, and none that flips. -/
def showNoIdle (s : State) : State :=
  lower (lower (setF (setF s F.CFG_IDLE_ID 0) F.CFG_IDLE_MODEL 0) F.CFG_NEXT_CASEMENT_FLIP) F.CFG_NEXT_PANE_FLIP

/-- The next frame runs what was named. -/
def settleNext (s : State) : State := setFrame (lower s F.CFG_STAT_IDLE_READY) { s.frame with named := none, nextRuns := true }

/-- The idle side becomes the live one (R167): what a change of sides does where the idle side is ready and named. -/
def takeSide (s : State) : State := settleNext (showNoIdle (showLive (retireEffect (movePointers s))))

/-- The problem tables are exchanged, or the idle one is cleared unless it stays for its frame (R193). -/
def swapTables (s : State) (go : Bool) : State :=
  let stays := !go && s.frame.named.isSome
  setFrame s { s.frame with
    liveProblems := if go then s.frame.idleProblems else [], liveReqs := if go then s.frame.idleReqs else [],
    liveAreas := if go then s.frame.idleAreas else [], idleProblems := if stays then s.frame.idleProblems else [],
    idleReqs := if stays then s.frame.idleReqs else [], idleAreas := if stays then s.frame.idleAreas else [],
    idleSealed := !go && s.frame.idleSealed }

theorem switchSides_eq {ready : Bool} : switchSides s ready =
    showEmpty (servePending (swapTables (if ready && s.frame.named.isSome then takeSide s else s) (ready && s.frame.named.isSome))) := by
  unfold switchSides swapTables
  cases h : ready && s.frame.named.isSome with
  | false => rfl
  | true =>
    unfold takeSide settleNext showNoIdle showLive movePointers
    rfl

theorem watchKept_movePointers : watchKept [F.ARR_STAT_LIVE_CASEMENT, F.ARR_STAT_LIVE_PANE] s (movePointers s) :=
  have hcase := watchKept_ite (c := isSet s F.CFG_NEXT_CASEMENT_FLIP = true)
    (watchKept_setF_in (f := F.ARR_STAT_LIVE_CASEMENT) (v := idleCase s) (watchKept_refl (s := s)) (by decide)) watchKept_refl
  watchKept_ite (watchKept_setF_in hcase (by decide)) hcase

theorem watchKept_showLive (h : watchKept ws s t) : watchKept ws s (showLive t) :=
  watchKept_showFloor (watchKept_setF (watchKept_setF h (by decide)) (by decide))

theorem watchKept_showNoIdle (h : watchKept [F.CFG_NEXT_CASEMENT_FLIP, F.CFG_NEXT_PANE_FLIP] s t) :
    watchKept [F.CFG_NEXT_CASEMENT_FLIP, F.CFG_NEXT_PANE_FLIP] s (showNoIdle t) :=
  watchKept_setF_in (watchKept_setF_in (watchKept_setF (watchKept_setF h (by decide)) (by decide)) (by decide)) (by decide)

theorem watchKept_settleNext (h : watchKept ws s t) : watchKept ws s (settleNext t) :=
  watchKept_flds (watchKept_setF (f := F.CFG_STAT_IDLE_READY) (v := 0) h (by decide)) rfl

theorem takeSide_keeps : watchKept [F.CFG_NEXT_CASEMENT_FLIP, F.CFG_NEXT_PANE_FLIP] (movePointers s) (takeSide s) :=
  watchKept_settleNext (watchKept_showNoIdle (watchKept_showLive (watchKept_retireEffect watchKept_refl)))

theorem watchKept_takeSide : watchKept sideFields s (takeSide s) :=
  watchKept_trans (watchKept_mono watchKept_movePointers (by simp [sideFields])) (watchKept_mono takeSide_keeps (by simp [sideFields]))

theorem watchKept_switchSides {ready : Bool} (h : watchKept sideFields s t) : watchKept sideFields s (switchSides t ready) := by
  rw [switchSides_eq]
  refine watchKept_showEmpty (watchKept_servePending ?_)
  exact watchKept_trans h (watchKept_ite (c := (ready && t.frame.named.isSome) = true) watchKept_takeSide watchKept_refl)

theorem movePointers_frame : (movePointers s).frame = s.frame := by
  unfold movePointers
  dsimp only
  split_ifs <;> rfl

theorem settleNext_frame : (settleNext s).frame = { s.frame with named := none, nextRuns := true } := rfl

theorem showNoIdle_frame : (showNoIdle s).frame = s.frame := rfl

theorem swapTables_flds {go : Bool} : (swapTables s go).flds = s.flds := rfl

theorem swapTables_next {go : Bool} : (swapTables s go).frame.nextRuns = s.frame.nextRuns ∧ (swapTables s go).frame.named = s.frame.named ∧
    (swapTables s go).frame.hasLive = s.frame.hasLive := ⟨rfl, rfl, rfl⟩

theorem showLive_frame : (showLive s).frame = s.frame := by
  unfold showLive showFloor
  split_ifs <;> rfl

/-- Beside the map in force, a change of sides settles that the next frame runs what was named. -/
theorem takeSide_frame : ∃ g, (takeSide s).frame = { s.frame with mapGen := g, named := none, nextRuns := true } := by
  obtain ⟨g, hg⟩ := retireEffect_frame (s := movePointers s)
  refine ⟨g, ?_⟩
  rw [takeSide, settleNext_frame, showNoIdle_frame, showLive_frame, hg, movePointers_frame]

theorem servePending_frame : (servePending s).frame = s.frame := by
  obtain ⟨_, _, _, _, hrest⟩ := (tiersOnly_servePending (tiersOnly_refl (s := s))).rest
  rw [hrest]

/-- After a flip to a named side the next frame runs, and nothing is named. -/
theorem switchSides_named (hnamed : s.frame.named.isSome = true) : (switchSides s true).frame.nextRuns = true ∧
    (switchSides s true).frame.named = none ∧ (switchSides s true).frame.hasLive = s.frame.hasLive := by
  obtain ⟨g, hg⟩ := takeSide_frame (s := s)
  have hframe : (switchSides s true).frame = (swapTables (takeSide s) true).frame := by
    rw [switchSides_eq, hnamed]
    exact servePending_frame
  obtain ⟨hnext, hnone, hlive⟩ := swapTables_next (s := takeSide s) (go := true)
  rw [hframe, hnext, hnone, hlive, hg]
  exact ⟨rfl, rfl, rfl⟩

theorem one_sub_mod_two {x : Nat} : (1 - x) % 2 ^ 1 = 1 - x := Nat.mod_eq_of_lt (by omega)

theorem getF_movePointers_casement (h : s.fieldsCanonical) : getF (movePointers s) F.ARR_STAT_LIVE_CASEMENT =
    if isSet s F.CFG_NEXT_CASEMENT_FLIP then 1 - getF s F.ARR_STAT_LIVE_CASEMENT else getF s F.ARR_STAT_LIVE_CASEMENT := by
  have hpane {t : State} : getF (if isSet t F.CFG_NEXT_PANE_FLIP then setF t F.ARR_STAT_LIVE_PANE (idlePane t) else t) F.ARR_STAT_LIVE_CASEMENT =
      getF t F.ARR_STAT_LIVE_CASEMENT := by
    split
    · exact Laws.getF_setF_other _ _ _ _ (by decide)
    · rfl
  refine hpane.trans ?_
  split
  · rw [getF_setF h, if_pos rfl]
    exact one_sub_mod_two
  · rfl

theorem getF_movePointers_pane (h : s.fieldsCanonical) : getF (movePointers s) F.ARR_STAT_LIVE_PANE =
    if isSet s F.CFG_NEXT_PANE_FLIP then 1 - getF s F.ARR_STAT_LIVE_PANE else getF s F.ARR_STAT_LIVE_PANE := by
  have hkept : fieldsKept [F.ARR_STAT_LIVE_CASEMENT] s
      (if isSet s F.CFG_NEXT_CASEMENT_FLIP then setF s F.ARR_STAT_LIVE_CASEMENT (idleCase s) else s) := by
    split
    · exact fieldsKept_setF fieldsKept_refl (by simp)
    · exact fieldsKept_refl
  have hcanon : (if isSet s F.CFG_NEXT_CASEMENT_FLIP then setF s F.ARR_STAT_LIVE_CASEMENT (idleCase s) else s).fieldsCanonical :=
    ite_canonical (setF_canonical h) h
  unfold movePointers
  dsimp only
  rw [isSet_congr (hkept F.CFG_NEXT_PANE_FLIP (by decide))]
  split
  · rw [getF_setF hcanon, if_pos rfl, idlePane, livePane, hkept _ (by decide)]
    exact one_sub_mod_two
  · exact hkept _ (by decide)

/-- After a flip to a named side the pointers show the sides that flipped. -/
theorem switchSides_pointers (h : s.fieldsCanonical) (hnamed : s.frame.named.isSome = true) :
    getF (switchSides s true) F.ARR_STAT_LIVE_CASEMENT =
      (if isSet s F.CFG_NEXT_CASEMENT_FLIP then 1 - getF s F.ARR_STAT_LIVE_CASEMENT else getF s F.ARR_STAT_LIVE_CASEMENT) ∧
    getF (switchSides s true) F.ARR_STAT_LIVE_PANE =
      if isSet s F.CFG_NEXT_PANE_FLIP then 1 - getF s F.ARR_STAT_LIVE_PANE else getF s F.ARR_STAT_LIVE_PANE := by
  have hkept : watchKept [F.CFG_NEXT_CASEMENT_FLIP, F.CFG_NEXT_PANE_FLIP] (movePointers s) (switchSides s true) := by
    rw [switchSides_eq, hnamed]
    exact watchKept_showEmpty (watchKept_servePending (watchKept_flds takeSide_keeps swapTables_flds))
  exact ⟨(hkept _ (by decide) (by decide)).trans (getF_movePointers_casement h), (hkept _ (by decide) (by decide)).trans (getF_movePointers_pane h)⟩

/-! ### Requests that fail or move (R178, R391, R399) -/

@[simp] theorem countStamp_flds {st : Stamp} : (countStamp s st).flds = s.flds := by
  unfold countStamp
  split <;> rfl

@[simp] theorem moveWhere_flds {c : Cause} {p : Req → Bool} : (moveWhere s c p).flds = s.flds := countStamp_flds

/-- Between `s` and `t` only requests, the plan's frames and stamp counts have moved. -/
def ReqsOnly (s t : State) : Prop :=
  ∃ reqs frames cnt ahead, t = { s with adm := { s.adm with reqs := reqs, frames := frames }, stampCnt := cnt, stampAhead := ahead }

theorem reqsOnly_refl : ReqsOnly s s := ⟨_, _, _, _, rfl⟩

theorem reqsOnly_failReq {c : Cause} {k : Nat} {b : Option Stamp} (h : ReqsOnly s t) : ReqsOnly s (failReq t c k b) := by
  obtain ⟨_, _, _, _, rfl⟩ := h
  unfold failReq countStamp
  dsimp only
  split_ifs <;> exact ⟨_, _, _, _, rfl⟩

theorem reqsOnly_failWhere {c : Cause} {q : Req → Bool} {b : Option Stamp} (h : ReqsOnly s t) : ReqsOnly s (failWhere t c q b) :=
  List.foldlRecOn _ _ h fun _ ht _ _ => reqsOnly_failReq ht

theorem reqsOnly_flds (h : ReqsOnly s t) : t.flds = s.flds := by
  obtain ⟨_, _, _, _, rfl⟩ := h
  rfl

@[simp] theorem failWhere_flds {c : Cause} {p : Req → Bool} {b : Option Stamp} : (failWhere s c p b).flds = s.flds :=
  reqsOnly_flds (reqsOnly_failWhere reqsOnly_refl)

theorem watchKept_of_reqsOnly (h : ReqsOnly s t) : watchKept ws s t :=
  watchKept_flds watchKept_refl (reqsOnly_flds h)

theorem reqsOnly_frame (h : ReqsOnly s t) : t.frame = s.frame := by
  obtain ⟨_, _, _, _, rfl⟩ := h
  rfl

theorem reqsOnly_frameIdx (h : ReqsOnly s t) : t.adm.frameIdx = s.adm.frameIdx := by
  obtain ⟨_, _, _, _, rfl⟩ := h
  rfl

/-! ### Aborts (R173 to R178) -/

/-- The watched fields that an abort moves, but for the one that shows it. -/
def abortFields : List Fld := acFields ++ sideFields ++ [F.CFG_REPLAY, F.CFG_CNT_EMPTY, F.ARR_STAT_RUNNING]

theorem sideFields_subset_abortFields : sideFields ⊆ abortFields := by simp [abortFields]

theorem watchKept_switchSides_abort {ready : Bool} (h : watchKept abortFields s t) : watchKept abortFields s (switchSides t ready) :=
  watchKept_trans h (watchKept_mono (watchKept_switchSides watchKept_refl) sideFields_subset_abortFields)

theorem watchKept_endWaiting (h : watchKept abortFields s t) : watchKept abortFields s (endWaiting t) :=
  watchKept_ite (watchKept_flds (watchKept_setF_in (f := F.CFG_CNT_EMPTY) (v := satAdd 32 (getF (raise t F.CFG_STAT_EMPTY) F.CFG_CNT_EMPTY) 1)
    (watchKept_setF (f := F.CFG_STAT_EMPTY) (v := 1) h (by decide)) (by decide)) rfl) h

theorem watchKept_replayFail {c : Cause} {idx : Nat} {b : Option Stamp} (h : watchKept abortFields s t) :
    watchKept abortFields s (replayFail t c idx b) := by
  refine watchKept_switchSides_abort (watchKept_setF_in (watchKept_flds
    (t := raise (bump (failWhere t c (fun r => r.frame == some idx) b) F.CFG_CNT_REPLAY_FAIL) F.CFG_STAT_REPLAY_FAIL) ?_ rfl) (by decide))
  exact watchKept_setF (watchKept_setF (watchKept_flds h failWhere_flds) (by decide)) (by decide)

theorem watchKept_dropFrame {idx : Nat} (h : watchKept abortFields s t) : watchKept abortFields s (dropFrame t idx) := by
  have hended := watchKept_endWaiting h
  refine watchKept_switchSides_abort (watchKept_setF_in (watchKept_flds (watchKept_ite ?_ ?_) rfl) (by decide))
  · exact watchKept_flds hended (failWhere_flds.trans rfl)
  · exact watchKept_flds hended rfl

theorem watchKept_afterAbort {c : Cause} {idx : Nat} (h : watchKept abortFields s t) : watchKept abortFields s (afterAbort t c idx) := by
  have hmoved : watchKept abortFields s (moveWhere { t with adm := { t.adm with nextIdx := idx } } c (fun r => r.frame.isSome)) :=
    watchKept_flds h moveWhere_flds
  exact watchKept_ite (watchKept_dropFrame hmoved) (watchKept_ite hmoved (watchKept_ite hmoved (watchKept_ite (watchKept_replayFail hmoved)
    (watchKept_showEmpty hmoved))))

theorem watchKept_advanceAc {n : Nat} (h : watchKept abortFields s t) : watchKept abortFields s (advanceAc t n) :=
  watchKept_trans h (watchKept_mono aside_advanceAc.fields (by simp [abortFields]))

/-- The abort is shown, counted and stamped. -/
def showAbort (s : State) (c : Cause) : State := stampEvent (bump (raise s F.CFG_STAT_ABORT) F.CFG_CNT_ABORT) srcConfig (.abort c)

/-- The array waits for the tick, and the registers show so (R173). -/
def showWait (s : State) : State := lower (lower (lower (raise s F.TICK_STAT_WAIT) F.CFG_STAT_IN_HOLD) F.ARR_STAT_RUNNING) F.TICK_CIF_DRAIN

theorem watchKept_showWait (h : watchKept abortFields s t) : watchKept abortFields s (showWait t) :=
  watchKept_setF (watchKept_setF_in (watchKept_setF (watchKept_setF h (by decide)) (by decide)) (by decide)) (by decide)

theorem isSet_showAbort {c : Cause} (h : s.fieldsCanonical) : isSet (showAbort s c) F.CFG_STAT_ABORT = true :=
  (isSet_congr (Laws.getF_setF_other (raise s F.CFG_STAT_ABORT) _ _ _ (by decide))).trans
    (Laws.isSet_raise _ _ (Laws.smapWf_iff.1 h).1 (by decide))

/-- Before an abort with cause `c` is shown no watched field moves but those of cycles, and after it none but those of cycles, sides and counts. -/
theorem abortFrame_keeps {c : Cause} (h : s.fieldsCanonical) : ∃ p : State, p.fieldsCanonical ∧ watchKept abortFields s p ∧
    watchKept abortFields (showAbort p c) (abortFrame s c) := by
  unfold abortFrame
  extract_lets s₁ s₂ span s₃ frame p stamp shown s₄ frame' settled waiting planned
  have h₁ : watchKept abortFields s s₁ := watchKept_flds (watchKept_advanceAc (n := 24) watchKept_refl) rfl
  have h₃ : watchKept abortFields s s₃ := watchKept_setSpan (watchKept_setMem h₁)
  have c₃ : s₃.fieldsCanonical := setSpan_canonical (setMem_canonical (idleCells_canonical (advanceAc_canonical h)))
  have hp : watchKept abortFields s p := watchKept_setFrame (watchKept_advanceAc h₃)
  have cp : p.fieldsCanonical := setFrame_canonical (advanceAc_canonical c₃)
  have h₄ : watchKept abortFields shown s₄ := watchKept_advanceAc watchKept_refl
  have hset : watchKept abortFields shown settled := watchKept_setFrame h₄
  have hwait : watchKept abortFields shown waiting := watchKept_showWait hset
  refine ⟨p, cp, hp, watchKept_servePending ?_⟩
  unfold planned
  split
  · exact watchKept_afterAbort hwait
  · exact hwait

/-- An abort is shown (R173). -/
theorem isSet_abortFrame {c : Cause} (h : s.fieldsCanonical) : isSet (abortFrame s c) F.CFG_STAT_ABORT = true := by
  obtain ⟨p, hp, -, hafter⟩ := abortFrame_keeps (c := c) h
  exact (isSet_congr (hafter _ (by decide) (by decide))).trans (isSet_showAbort hp)

theorem watchKept_abortFrame {c : Cause} (h : s.fieldsCanonical) : watchKept (F.CFG_STAT_ABORT :: abortFields) s (abortFrame s c) := by
  obtain ⟨p, -, hbefore, hafter⟩ := abortFrame_keeps (c := c) h
  have hraised := watchKept_setF_in (f := F.CFG_STAT_ABORT) (v := 1) (watchKept_mono hbefore (List.subset_cons_self F.CFG_STAT_ABORT _)) (by decide)
  have hshown : watchKept (F.CFG_STAT_ABORT :: abortFields) s (showAbort p c) :=
    watchKept_flds (watchKept_setF (f := F.CFG_CNT_ABORT) (v := satAdd 32 (getF (raise p F.CFG_STAT_ABORT) F.CFG_CNT_ABORT) 1) hraised (by decide)) rfl
  exact watchKept_trans hshown (watchKept_mono hafter (List.subset_cons_self _ _))

end
end Sys2Proof.Proofs

/-! SUPPORT. Ticks: what the end of a frame and the opening of the next one leave (R54, R62, R69, R71, R85, R179, R430). -/
namespace Sys2Proof.Proofs
open Sys2Proof Sys2Proof.Machine

section
variable {s t u : State} {ws : List Fld} {f : Fld} {v n : Nat}

/-! ### The cells (R85) -/

/-- A map whose values all pass through `g` reads as `g` of what it read, where `g` takes the old defaults to the new ones. -/
theorem smapGet_map_filter {α : Type} [DecidableEq α] {d e : Nat → α} {g : α → α} {m : List (Nat × α)} {k : Nat} (hm : smapSorted m = true)
    (hd : ∀ k, g (d k) = e k) : smapGet e ((m.map fun p => (p.1, g p.2)).filter fun p => decide (p.2 ≠ e p.1)) k = g (smapGet d m k) := by
  induction m with
  | nil => exact (hd k).symm
  | cons p m ih =>
    obtain ⟨j, x⟩ := p
    obtain ⟨hlow, hm⟩ := Bool.and_eq_true_iff.1 hm
    have hlow : ∀ p ∈ m, j < p.1 := by simpa using hlow
    rw [List.map_cons, List.filter_cons]
    by_cases hx : g x = e j
    · rw [if_neg (by simpa using hx), ih hm, smapGet]
      split
      · next hk => rw [hk, hx, Laws.smapGet_below d m j hlow, hd]
      · rfl
    · rw [if_pos (by simpa using hx), smapGet, smapGet, ih hm]
      split <;> rfl

theorem cellTickReset_idleCell : cellTickReset (idleCell s n) = {} := by
  unfold idleCell
  split <;> rfl

theorem getCell_tickReset (h : smapSorted s.cells = true) : getCell (idleCells s false cellTickReset) n = cellTickReset (getCell s n) :=
  smapGet_map_filter h fun _ => cellTickReset_idleCell

theorem getCell_congr (hcells : t.cells = s.cells) (hidle : t.frame.idleHalted = s.frame.idleHalted) : getCell t n = getCell s n := by
  unfold getCell idleCell
  rw [hcells, hidle]

/-! ### The end of a frame (R69, R71, R430) -/

/-- Between `s` and `t` a frame has ended: fields, requests, narrowing and stamp counts have moved, of the watched fields at most those in `ws`. -/
structure FrameEnded (ws : List Fld) (s t : State) : Prop where
  rest : ∃ flds reqs pwr cnt ahead, t = { s with flds := flds, adm := { s.adm with reqs := reqs }, pwr := pwr, stampCnt := cnt, stampAhead := ahead }
  reqs : s.adm.reqs = [] → t.adm.reqs = []
  fields : watchKept ws s t

theorem frameEnded_refl : FrameEnded ws s s := ⟨⟨_, _, _, _, _, rfl⟩, id, watchKept_refl⟩

theorem frameEnded_setF_in (h : FrameEnded ws s t) (hf : ∀ g ∈ watched, g.key = f.key → g ∈ ws) : FrameEnded ws s (setF t f v) := by
  obtain ⟨⟨_, _, _, _, _, rfl⟩, hr, hk⟩ := h
  exact ⟨⟨_, _, _, _, _, rfl⟩, hr, watchKept_setF_in hk hf⟩

theorem frameEnded_setF (h : FrameEnded ws s t) (hf : unwatched f) : FrameEnded ws s (setF t f v) :=
  frameEnded_setF_in h fun g hg e => absurd e (hf g hg)

theorem frameEnded_ite {c : Prop} {d : Decidable c} (ht : FrameEnded ws s t) (hu : FrameEnded ws s u) : FrameEnded ws s (if c then t else u) := by
  split <;> assumption

theorem frameEnded_trans (h : FrameEnded ws s t) (h' : FrameEnded ws t u) : FrameEnded ws s u := by
  obtain ⟨⟨_, _, _, _, _, rfl⟩, hr, hk⟩ := h
  obtain ⟨⟨_, _, _, _, _, rfl⟩, hr', hk'⟩ := h'
  exact ⟨⟨_, _, _, _, _, rfl⟩, hr' ∘ hr, watchKept_trans hk hk'⟩

theorem frameEnded_endReqs {g : Option StretchGrant} : FrameEnded ws s (endReqs s g) := by
  have hnone {p : Req → Req} (h : s.adm.reqs = []) : s.adm.reqs.map p = [] := by rw [h, List.map_nil]
  unfold endReqs countStamp
  dsimp only
  split_ifs <;> exact ⟨⟨_, _, _, _, _, rfl⟩, hnone, watchKept_refl⟩

theorem frameEnded_endStretch {g : Option StretchGrant} (h : FrameEnded ws s t) : FrameEnded ws s (endStretch t g) := by
  unfold endStretch
  split
  · have hcount := frameEnded_setF (f := F.TICK_CNT_STRETCH)
      (v := satAdd 32 (getF (raise (lower t F.TICK_STAT_STRETCH_PEND) F.TICK_STAT_STRETCHED) F.TICK_CNT_STRETCH) 1)
      (frameEnded_setF (f := F.TICK_STAT_STRETCHED) (v := 1) (frameEnded_setF (f := F.TICK_STAT_STRETCH_PEND) (v := 0) h (by decide)) (by decide)) (by decide)
    exact frameEnded_setF (frameEnded_setF (frameEnded_setF (frameEnded_setF hcount (by decide)) (by decide)) (by decide)) (by decide)
  · exact h

theorem frameEnded_endNarrow (h : FrameEnded ws s t) : FrameEnded ws s (endNarrow t) := by
  have hlow : FrameEnded ws s (if isSet t F.PWR_STAT_NARROW && !t.pwr.belowFloor && !t.pwr.powerGrant then lower t F.PWR_STAT_NARROW else t) :=
    frameEnded_ite (frameEnded_setF h (by decide)) h
  obtain ⟨⟨_, _, _, _, _, hrest⟩, hr, hk⟩ := hlow
  unfold endNarrow
  dsimp only
  exact ⟨⟨_, _, _, _, _, by rw [hrest]; rfl⟩, hr, hk⟩

/-- The end of a frame, up to the opening of the next. -/
theorem frameEnded_end {g : Option StretchGrant} (h : FrameEnded ws s t) : FrameEnded ws s (endNarrow (endStretch (endReqs t g) g)) :=
  frameEnded_endNarrow (frameEnded_endStretch (frameEnded_trans h frameEnded_endReqs))

/-! ### The opening of a frame (R54, R62, R85) -/

/-- The new frame's number, its tick and the one after it. -/
def startTime (s : State) : State :=
  let s := setF s F.TICK_NOW (frameNow s + 1)
  let s := setF s F.TICK_LAST (getF s F.TICK_NEXT)
  setF s F.TICK_NEXT (getF s F.TICK_LAST + periodNs s)

/-- The registers of the new frame: its time, and cycle-in-frame 0. -/
def startFields (s : State) : State :=
  let s := lower (lower (setF (startTime s) F.TICK_CIF_CIF 0) F.TICK_CIF_DRAIN) F.TICK_STAT_HOLD
  lower (lower (setF s F.TICK_CIF_PHASE 0) F.ARR_STAT_FRAME_FAULTED) F.CFG_STAT_IN_HOLD

/-- The idle tables are empty where nothing is named, and the stamps count from 0. -/
def startTables (s : State) : State := freshStamps (if s.frame.named.isNone then clearIdleTable s else s)

/-- What the new frame keeps of a span's state. -/
def startSpan (s : State) : State :=
  setSpan s { s.span with grant := none, granted := none, noticed := false, muted := false, rerunNow := false, minSlack := none }

theorem openTick_eq : openTick s =
    idleCells (pulse (stampEvent (startSpan (startTables (startFields s))) srcTick .tick) 0x18) false cellTickReset := rfl

theorem startTime_keeps : watchKept [F.TICK_NOW, F.TICK_LAST, F.TICK_NEXT] s (startTime s) :=
  watchKept_setF_in (watchKept_setF_in (watchKept_setF_in watchKept_refl (by decide)) (by decide)) (by decide)

theorem getF_startTime (h : s.fieldsCanonical) : getF (startTime s) F.TICK_NOW = (getF s F.TICK_NOW + 1) % 2 ^ 48 ∧
    getF (startTime s) F.TICK_LAST = getF s F.TICK_NEXT % 2 ^ 64 ∧
    getF (startTime s) F.TICK_NEXT = (getF s F.TICK_NEXT % 2 ^ 64 + 1000 * getF s F.TICK_PERIOD_PERIOD_US) % 2 ^ 64 := by
  have h₁ := setF_canonical (f := F.TICK_NOW) (v := frameNow s + 1) h
  unfold startTime
  extract_lets s₁ s₂
  have h₂ : s₂.fieldsCanonical := setF_canonical h₁
  have hlast : getF s₂ F.TICK_LAST = getF s F.TICK_NEXT % 2 ^ 64 :=
    (getF_setF h₁).trans ((if_pos rfl).trans (congrArg (· % 2 ^ 64) (Laws.getF_setF_other _ _ _ _ (by decide))))
  have hperiod : periodNs s₂ = 1000 * getF s F.TICK_PERIOD_PERIOD_US :=
    congrArg (1000 * ·) ((Laws.getF_setF_other _ _ _ _ (by decide)).trans (Laws.getF_setF_other _ _ _ _ (by decide)))
  refine ⟨?_, (Laws.getF_setF_other _ _ _ _ (by decide)).trans hlast, ?_⟩
  · exact (Laws.getF_setF_other _ _ _ _ (by decide)).trans ((Laws.getF_setF_other _ _ _ _ (by decide)).trans ((getF_setF h).trans (if_pos rfl)))
  · rw [getF_setF h₂, if_pos rfl, hlast, hperiod]

theorem fieldsOnly_startFields : FieldsOnly s (startFields s) :=
  fieldsOnly_setF (fieldsOnly_setF (fieldsOnly_setF (fieldsOnly_setF (fieldsOnly_setF (fieldsOnly_setF (fieldsOnly_setF (fieldsOnly_setF
    (fieldsOnly_setF fieldsOnly_refl))))))))

theorem startFields_keeps : watchKept [F.TICK_CIF_CIF] (startTime s) (startFields s) :=
  have hcif := watchKept_setF_in (f := F.TICK_CIF_CIF) (v := 0) (watchKept_refl (s := startTime s)) (by decide)
  have hlow := watchKept_setF (f := F.TICK_CIF_DRAIN) (v := 0) hcif (by decide)
  watchKept_setF (watchKept_setF (watchKept_setF (watchKept_setF hlow (by decide)) (by decide)) (by decide)) (by decide)

theorem getF_startFields_cif (h : s.fieldsCanonical) : getF (startFields s) F.TICK_CIF_CIF = 0 := by
  have htime : (startTime s).fieldsCanonical := setF_canonical (setF_canonical (setF_canonical h))
  have hkept : watchKept [] (setF (startTime s) F.TICK_CIF_CIF 0) (startFields s) :=
    watchKept_setF (watchKept_setF (watchKept_setF (watchKept_setF (watchKept_setF watchKept_refl (by decide)) (by decide)) (by decide)) (by decide))
      (by decide)
  exact (hkept _ (by decide) (by decide)).trans ((getF_setF htime).trans (if_pos rfl))

theorem fieldsOnly_senseLine {b : Bool} (h : FieldsOnly s t) : FieldsOnly s (senseLine t n b) :=
  fieldsOnly_ite (fieldsOnly_setF (fieldsOnly_setF h)) (fieldsOnly_setF h)

theorem fieldsOnly_pulse (h : FieldsOnly s t) : FieldsOnly s (pulse t n) := fieldsOnly_ite (fieldsOnly_senseLine (fieldsOnly_senseLine h)) h

theorem watchKept_senseLine {b : Bool} (h : watchKept ws s t) : watchKept ws s (senseLine t 0x18 b) :=
  have hline := watchKept_setF h (by decide)
  watchKept_ite (watchKept_setF hline (by decide)) hline

/-- The tick's own line (source 0x18). -/
theorem watchKept_pulse (h : watchKept ws s t) : watchKept ws s (pulse t 0x18) :=
  watchKept_ite (watchKept_senseLine (watchKept_senseLine h)) h

theorem startTables_rest : ∃ a b c d cnt ahead, startTables s = { s with
    frame := { s.frame with idleProblems := a, idleReqs := b, idleAreas := c, idleSealed := d }, stampCnt := cnt, stampAhead := ahead } := by
  unfold startTables
  split <;> exact ⟨_, _, _, _, _, _, rfl⟩

/-- Beside the fields, a tick opens a frame in the tables of the idle side, the cells, a span's stretches and the stamps. -/
theorem openTick_rest : ∃ flds a b c d cells events cnt ahead, openTick s = { s with
    flds := flds, frame := { s.frame with idleProblems := a, idleReqs := b, idleAreas := c, idleSealed := d, idleHalted := false },
    span := (startSpan s).span, cells := cells, events := events, stampCnt := cnt, stampAhead := ahead } := by
  obtain ⟨l, hl⟩ := fieldsOnly_startFields (s := s)
  obtain ⟨_, _, _, _, _, _, ht⟩ := startTables_rest (s := { s with flds := l })
  obtain ⟨_, hp⟩ := fieldsOnly_pulse (n := 0x18) (fieldsOnly_refl (s := stampEvent (startSpan (startTables (startFields s))) srcTick .tick))
  rw [openTick_eq, hp, hl, ht]
  exact ⟨_, _, _, _, _, _, _, _, _, rfl⟩

theorem startTables_flds : (startTables s).flds = s.flds := by
  obtain ⟨_, _, _, _, _, _, ht⟩ := startTables_rest (s := s)
  rw [ht]

/-- Once its registers are written, the opening of a frame moves no watched field. -/
theorem openTick_keeps : watchKept [] (startFields s) (openTick s) := by
  rw [openTick_eq]
  have htables : watchKept [] (startFields s) (startTables (startFields s)) := watchKept_flds watchKept_refl startTables_flds
  have hspan : watchKept [] (startFields s) (startSpan (startTables (startFields s))) := watchKept_setSpan htables
  exact watchKept_flds (watchKept_pulse (watchKept_stampEvent hspan)) rfl

/-- A tick resets every cell's sequencer; its memories are kept (R85). -/
theorem getCell_openTick (h : smapSorted s.cells = true) : getCell (openTick s) n = cellTickReset (getCell s n) := by
  obtain ⟨l, hl⟩ := fieldsOnly_startFields (s := s)
  obtain ⟨_, _, _, _, _, _, ht⟩ := startTables_rest (s := { s with flds := l })
  obtain ⟨_, hp⟩ := fieldsOnly_pulse (n := 0x18) (fieldsOnly_refl (s := stampEvent (startSpan (startTables (startFields s))) srcTick .tick))
  rw [openTick_eq, hp, hl, ht]
  exact (getCell_tickReset h).trans (congrArg cellTickReset (getCell_congr rfl rfl))

/-- The fields that a tick gives to the frame that it opens: its number, its tick, the tick after it, and its cycle. -/
def tickFields : List Fld := [F.TICK_NOW, F.TICK_LAST, F.TICK_NEXT, F.TICK_CIF_CIF]

theorem watchKept_openTick : watchKept tickFields s (openTick s) :=
  watchKept_trans (watchKept_mono startTime_keeps (by simp [tickFields])) (watchKept_trans (watchKept_mono startFields_keeps (by simp [tickFields]))
    (watchKept_mono openTick_keeps (List.nil_subset _)))

/-- The new frame's number, tick, next tick and cycle-in-frame (R54, R62). -/
theorem getF_openTick (h : s.fieldsCanonical) : getF (openTick s) F.TICK_NOW = (getF s F.TICK_NOW + 1) % 2 ^ 48 ∧
    getF (openTick s) F.TICK_LAST = getF s F.TICK_NEXT % 2 ^ 64 ∧
    getF (openTick s) F.TICK_NEXT = (getF s F.TICK_NEXT % 2 ^ 64 + 1000 * getF s F.TICK_PERIOD_PERIOD_US) % 2 ^ 64 ∧
    getF (openTick s) F.TICK_CIF_CIF = 0 := by
  obtain ⟨hnow, hlast, hnext⟩ := getF_startTime h
  have hkept : watchKept [F.TICK_CIF_CIF] (startTime s) (openTick s) :=
    watchKept_trans startFields_keeps (watchKept_mono openTick_keeps (List.nil_subset _))
  exact ⟨(hkept _ (by decide) (by decide)).trans hnow, (hkept _ (by decide) (by decide)).trans hlast, (hkept _ (by decide) (by decide)).trans hnext,
    (openTick_keeps _ (by decide) (by decide)).trans (getF_startFields_cif h)⟩

/-- What a tick leaves, before it chooses what the new frame runs, where no frame overruns. -/
structure TickOpened (s o : State) : Prop where
  adm : ∃ reqs, o.adm = { s.adm with reqs := reqs }
  reqs : s.adm.reqs = [] → o.adm.reqs = []
  mem : o.mem = s.mem
  nextRuns : o.frame.nextRuns = s.frame.nextRuns
  casements : o.frame.casements = s.frame.casements
  waiting : o.frame.waiting = s.frame.waiting
  replayPending : o.frame.replayPending = s.frame.replayPending
  modeHeld : o.frame.modeHeld = s.frame.modeHeld
  sched : o.frame.sched = 0
  decideWait : o.span.decideWait = s.span.decideWait
  rerunEmpty : o.span.rerunEmpty = s.span.rerunEmpty
  skip : o.span.skip = s.span.skip
  lossAt : o.span.lossAt = s.span.lossAt
  cells : ∀ n, getCell o n = cellTickReset (getCell s n)
  fields : watchKept (F.TICK_DT :: tickFields) s o
  now : getF o F.TICK_NOW = (getF s F.TICK_NOW + 1) % 2 ^ 48
  last : getF o F.TICK_LAST = getF s F.TICK_NEXT % 2 ^ 64
  next : getF o F.TICK_NEXT = (getF s F.TICK_NEXT % 2 ^ 64 + 1000 * getF s F.TICK_PERIOD_PERIOD_US) % 2 ^ 64
  cif : getF o F.TICK_CIF_CIF = 0
  dt : getF o F.TICK_DT = max (getF s F.TICK_DT) (getF s F.TICK_NEXT) % 2 ^ 64

/-- Device time reaches the tick. -/
def reachTick (s : State) : State := setF s F.TICK_DT (max (devNow s) (getF s F.TICK_NEXT))

/-- The frame's own state as a tick clears it. -/
def clearFrame (s : State) : State := setFrame (freshFrame s) { (freshFrame s).frame with prevAborted := s.frame.lastAborted }

theorem watchKept_reachTick : watchKept [F.TICK_DT] s (reachTick s) := watchKept_setF_in watchKept_refl (by decide)

theorem tickOpened_clearFrame {e : State} (h : s.fieldsCanonical) (hu : s.unitsCanonical = true) (he : e.fieldsCanonical)
    (hend : FrameEnded [] (reachTick s) e) :
    TickOpened s (clearFrame (openTick e)) := by
  obtain ⟨⟨_, _, _, _, _, hrest⟩, hreqs, hkept⟩ := hend
  obtain ⟨_, _, _, _, _, _, _, _, _, hopen⟩ := openTick_rest (s := e)
  have hreached : watchKept [F.TICK_DT] s e := watchKept_trans watchKept_reachTick (watchKept_mono hkept (List.nil_subset _))
  have hfields : watchKept [] (openTick e) (clearFrame (openTick e)) := watchKept_setFrame (watchKept_setFrame watchKept_refl)
  obtain ⟨hnow, hlast, hnext, hcif⟩ := getF_openTick he
  have hsorted : smapSorted e.cells = true := by
    rw [hrest]
    exact (Bool.and_eq_true_iff.1 (Bool.and_eq_true_iff.1 hu).1).1
  have hdt : getF (reachTick s) F.TICK_DT = max (getF s F.TICK_DT) (getF s F.TICK_NEXT) % 2 ^ 64 := (getF_setF h).trans (if_pos rfl)
  constructor
  case adm => exact ⟨e.adm.reqs, by rw [clearFrame, hopen, hrest]; rfl⟩
  case reqs => exact fun hnone => by rw [clearFrame, hopen]; exact hreqs hnone
  case mem => rw [clearFrame, hopen, hrest]; rfl
  case nextRuns => rw [clearFrame, hopen, hrest]; rfl
  case casements => rw [clearFrame, hopen, hrest]; rfl
  case waiting => rw [clearFrame, hopen, hrest]; rfl
  case replayPending => rw [clearFrame, hopen, hrest]; rfl
  case modeHeld => rw [clearFrame, hopen, hrest]; rfl
  case sched => rfl
  case decideWait => rw [clearFrame, hopen, hrest]; rfl
  case rerunEmpty => rw [clearFrame, hopen, hrest]; rfl
  case skip => rw [clearFrame, hopen, hrest]; rfl
  case lossAt => rw [clearFrame, hopen, hrest]; rfl
  case cells =>
    intro n
    have hsame : getCell e n = getCell s n := getCell_congr (by rw [hrest]; rfl) (by rw [hrest]; rfl)
    exact (getCell_congr rfl rfl).trans ((getCell_openTick hsorted).trans (congrArg cellTickReset hsame))
  case fields =>
    exact watchKept_trans (watchKept_mono hreached (by simp)) (watchKept_trans (watchKept_mono watchKept_openTick (by simp [tickFields]))
      (watchKept_mono hfields (List.nil_subset _)))
  case now => rw [hfields _ (by decide) (by decide), hnow, hreached _ (by decide) (by decide)]
  case last => rw [hfields _ (by decide) (by decide), hlast, hreached _ (by decide) (by decide)]
  case next =>
    rw [hfields _ (by decide) (by decide), hnext, hreached F.TICK_NEXT (by decide) (by decide), hreached F.TICK_PERIOD_PERIOD_US (by decide) (by decide)]
  case cif => rw [hfields _ (by decide) (by decide), hcif]
  case dt => rw [hfields _ (by decide) (by decide), watchKept_openTick _ (by decide) (by decide), hkept _ (by decide) (by decide), hdt]

end
end Sys2Proof.Proofs

/-! SUPPORT. What a tick's new frame runs: an empty frame, or the side that was flipped to (R85, R167, R179). -/
namespace Sys2Proof.Proofs
open Sys2Proof Sys2Proof.Machine

section
variable {s t u o : State} {ws : List Fld} {f : Fld} {v n : Nat}

theorem exec_tick : exec .tick s = .next (tick s) := rfl

/-! ### Between the opening and the choice -/

/-- A frame in which no decision is awaited. -/
theorem endWaiting_idle (h : s.frame.waiting = false) : endWaiting s = s := by simp [endWaiting, h]

/-- Without a pending mode change, or one that waits to be announced, a tick does nothing for modes. -/
theorem tickMode_idle (hheld : s.frame.modeHeld = false) (hpend : isSet s F.CFG_MODE_STAT_PEND = false) : tickMode s = s := by
  simp [tickMode, hheld, hpend]

theorem barFlipped_idle (h : s.span.lossAt = none) : barFlipped s = s := by simp [barFlipped, h]

theorem changeDue_idle (h : isSet s F.CFG_MODE_STAT_PEND = false) : changeDue s n = false := by simp [changeDue, h]

theorem reportEmpty_alone (h : inSpan s = false) : reportEmpty s = s := by simp [reportEmpty, h]

/-- Where no frame overruns and no mode change, span matter or replay stands, a tick opens the side that was flipped to, or an empty frame. -/
theorem tick_chooses (h : s.fieldsCanonical = true) (hu : s.unitsCanonical = true) (hrun : isSet s F.TICK_STAT_RUNNING = true) (hin : inSpan s = false)
    (hpend : isSet s F.CFG_MODE_STAT_PEND = false) (hdecide : s.span.decideWait = false) (hempty : s.span.rerunEmpty = 0) (hskip : s.span.skip = 0)
    (hreplay : s.frame.replayPending = false) (hheld : s.frame.modeHeld = false) (hwait : s.frame.waiting = false) (heject : s.adm.ejecting = false)
    (hloss : s.span.lossAt = none) (hshort : (s.frame.hasLive && s.frame.state != .tickWait) = false) : ∃ o narrow, TickOpened s o ∧ o.fieldsCanonical ∧
    tick s = fetchMissCheck (showEmpty (if o.frame.nextRuns then openLive o false false else openUnready o narrow)) := by
  have hin' : inSpan (reachTick s) = false := (inSpan_congr (Laws.getF_setF_other _ _ _ _ (by decide))).trans hin
  have hreport : reportEmpty (reachTick s) = reachTick s := reportEmpty_alone hin'
  let e := endNarrow (endStretch (endReqs (reachTick s) (endGrant (reachTick s))) (endGrant (reachTick s)))
  have hend : FrameEnded [] (reachTick s) e := frameEnded_end frameEnded_refl
  have hcanon : e.fieldsCanonical := endNarrow_canonical (endStretch_canonical (endReqs_canonical (setF_canonical h)))
  have hopened : TickOpened s (clearFrame (openTick e)) := tickOpened_clearFrame h hu hcanon hend
  have hpend' : isSet (clearFrame (openTick e)) F.CFG_MODE_STAT_PEND = false := (isSet_congr (hopened.fields _ (by decide) (by decide))).trans hpend
  have hsteps : barFlipped (tickMode (endWaiting (clearFrame (openTick e)))) = clearFrame (openTick e) := by
    rw [endWaiting_idle (hopened.waiting.trans hwait), tickMode_idle (hopened.modeHeld.trans hheld) hpend', barFlipped_idle (hopened.lossAt.trans hloss)]
  have heject' : (clearFrame (openTick e)).adm.ejecting = false := by
    obtain ⟨_, hadm⟩ := hopened.adm
    rw [hadm]
    exact heject
  refine ⟨clearFrame (openTick e), (reachTick s).pwr.belowFloor, hopened, setFrame_canonical (freshFrame_canonical (openTick_canonical hcanon)), ?_⟩
  unfold tick
  rw [if_neg (by simp [hrun])]
  extract_lets reached short cause narrow g report noted reported ended opened stamp stamped counted chosen frame cleared ready
  have hnoted : noted = reached := if_neg (Bool.eq_false_iff.1 hshort)
  have hreported : reported = reached := (if_neg (Bool.eq_false_iff.1 hshort)).trans ((congrArg reportEmpty hnoted).trans hreport)
  have hended : ended = e := congrArg (fun t => endNarrow (endStretch (endReqs t g) g)) hreported
  have hchosen : chosen = openTick e := (if_neg (Bool.eq_false_iff.1 hshort)).trans (congrArg openTick hended)
  have hready : ready = clearFrame (openTick e) := (congrArg (fun t => barFlipped (tickMode (endWaiting (clearFrame t)))) hchosen).trans hsteps
  refine congrArg fetchMissCheck (congrArg showEmpty ?_)
  rw [if_neg (by rw [hready, heject', Bool.or_false]; exact Bool.eq_false_iff.1 hshort), if_neg (by rw [hready, changeDue_idle hpend']; decide),
    if_neg (by rw [hready, hopened.decideWait, hdecide]; decide), if_neg (by rw [hready, hopened.rerunEmpty, hempty]; decide),
    if_neg (by rw [hready, hopened.replayPending, hreplay]; decide), if_neg (by rw [hready, hopened.skip, hskip]; decide), hready]
  rfl

/-! ### Empty frames (R179) -/

/-- The fields of an empty frame: it is counted, and no frame runs. -/
def emptyFields : List Fld := [F.CFG_CNT_EMPTY, F.ARR_STAT_RUNNING, F.CFG_REPLAY]

/-- Between `s` and `t` an empty frame has been opened. -/
structure EmptyOpened (s t : State) : Prop where
  rest : ∃ flds pwr replays, t = { s with flds := flds, pwr := pwr, frame := { s.frame with
    state := .tickWait, hasLive := false, emptyRun := s.frame.emptyRun + 1, lastAborted := false, replays := replays } }
  fields : watchKept emptyFields s t
  count : s.fieldsCanonical → getF t F.CFG_CNT_EMPTY = satAdd 32 (getF s F.CFG_CNT_EMPTY) 1

theorem emptyOpened_openEmpty : EmptyOpened s (openEmpty s) := by
  unfold openEmpty
  extract_lets k frame begun counted waits shown frame' ready
  have hcounted : watchKept emptyFields s counted :=
    watchKept_setF (watchKept_setF_in (watchKept_setF (watchKept_setFrame watchKept_refl) (by decide)) (by decide)) (by decide)
  have hwaits : watchKept [F.ARR_STAT_RUNNING, F.CFG_REPLAY] counted shown :=
    watchKept_setF_in (watchKept_setF_in (watchKept_setF watchKept_refl (by decide)) (by decide)) (by decide)
  have hready : watchKept [] shown ready := watchKept_ite watchKept_refl (watchKept_setFrame watchKept_refl)
  have hlast : watchKept [] ready (if getF ready F.PWR_RANGE_IDLE_FRAMES ≤ k then setF ready F.PWR_STAT_STATE 1 else ready) :=
    watchKept_ite (watchKept_setF watchKept_refl (by decide)) watchKept_refl
  have hlastf : FieldsOnly ready (if getF ready F.PWR_RANGE_IDLE_FRAMES ≤ k then setF ready F.PWR_STAT_STATE 1 else ready) :=
    fieldsOnly_ite (fieldsOnly_setF fieldsOnly_refl) fieldsOnly_refl
  obtain ⟨l, hshown⟩ : FieldsOnly begun shown :=
    fieldsOnly_setF (fieldsOnly_setF (fieldsOnly_setF (fieldsOnly_setF (fieldsOnly_setF (fieldsOnly_setF fieldsOnly_refl)))))
  have hframe : ∃ flds replays, ready = { s with flds := flds, frame := { s.frame with
      state := .tickWait, hasLive := false, emptyRun := s.frame.emptyRun + 1, lastAborted := false, replays := replays } } := by
    unfold ready
    split <;> exact ⟨_, _, by rw [hshown]; rfl⟩
  have hcount : s.fieldsCanonical → getF counted F.CFG_CNT_EMPTY = satAdd 32 (getF s F.CFG_CNT_EMPTY) 1 := fun h =>
    (Laws.getF_setF_other _ _ _ _ (by decide)).trans ((getF_bump (setF_canonical (setFrame_canonical h))).trans
      (congrArg (satAdd 32 · 1) (Laws.getF_setF_other _ _ _ _ (by decide))))
  generalize (if getF ready F.PWR_RANGE_IDLE_FRAMES ≤ k then setF ready F.PWR_STAT_STATE 1 else ready) = last at hlast hlastf ⊢
  obtain ⟨_, _, hframe⟩ := hframe
  obtain ⟨_, hlastf⟩ := hlastf
  obtain ⟨⟨_, _, hp⟩, hpoint⟩ := pointOnly_planPoints (s := last) (by rw [hlastf, hframe]; rfl)
  have hfields : watchKept [F.ARR_STAT_RUNNING, F.CFG_REPLAY] counted (planPoints last) :=
    watchKept_trans hwaits (watchKept_mono (watchKept_trans hready (watchKept_trans hlast (watchKept_of_fieldsKept hpoint (by decide)))) (List.nil_subset _))
  exact {
    rest := ⟨_, _, _, by rw [hp, hlastf, hframe]⟩
    fields := watchKept_trans hcounted (watchKept_mono hfields (by simp [emptyFields]))
    count := fun h => (hfields _ (by decide) (by decide)).trans (hcount h) }

/-- The next plan index is taken. -/
def takeIdx (s : State) : State := { s with adm := { s.adm with frameIdx := some s.adm.nextIdx, nextIdx := s.adm.nextIdx + 1 } }

/-- A plan index for which nothing is planned makes an empty frame. -/
theorem openUnready_unplanned {narrow : Bool} (h : s.adm.frames = []) : openUnready s narrow = openEmpty (takeIdx s) := by
  unfold openUnready
  extract_lets n adm taken adm' planned
  have hnone : planAt taken n = none := List.find?_eq_none.2 (by simp [taken, adm, h])
  have hplanned : planned = taken := by
    unfold planned
    split
    · next hsome => exact absurd (hnone ▸ hsome) (by simp)
    · rfl
  rw [hplanned]
  rfl

theorem fetchMissCheck_idle (h : s.mem.jobs = []) : fetchMissCheck s = s := by
  unfold fetchMissCheck
  rw [h]
  rfl

/-- Without a plan and with nothing flipped to, the frame that a tick opens is an empty one. -/
theorem tick_opens_empty {narrow : Bool} (ho : TickOpened s o) (hcanon : o.fieldsCanonical) (hframes : s.adm.frames = [])
    (hjobs : s.mem.jobs = []) (ht : t = fetchMissCheck (showEmpty (openUnready o narrow))) :
    getF t F.TICK_NOW = (getF s F.TICK_NOW + 1) % 2 ^ 48 ∧ getF t F.TICK_CIF_CIF = 0 ∧ getF t F.TICK_LAST = getF s F.TICK_NEXT % 2 ^ 64 ∧
    getF t F.TICK_NEXT = (getF t F.TICK_LAST + 1000 * getF s F.TICK_PERIOD_PERIOD_US) % 2 ^ 64 ∧
    getF t F.TICK_DT = max (getF s F.TICK_DT) (getF s F.TICK_NEXT) % 2 ^ 64 ∧ t.frame.state = .tickWait ∧ t.frame.hasLive = false ∧
    getF t F.CFG_CNT_EMPTY = satAdd 32 (getF s F.CFG_CNT_EMPTY) 1 ∧ t.adm.frameIdx = some s.adm.nextIdx ∧ t.adm.nextIdx = s.adm.nextIdx + 1 ∧
    (∀ n, getCell t n = cellTickReset (getCell s n)) ∧ t.mem = s.mem := by
  obtain ⟨_, hadm⟩ := ho.adm
  obtain ⟨⟨_, _, _, hrest⟩, hfields, hcount⟩ := emptyOpened_openEmpty (s := takeIdx o)
  have hmem : (showEmpty (openEmpty (takeIdx o))).mem = s.mem := by
    rw [hrest]
    exact ho.mem
  rw [openUnready_unplanned (by rw [hadm]; exact hframes), fetchMissCheck_idle (by rw [hmem]; exact hjobs)] at ht
  have hkept : watchKept emptyFields o t := ht ▸ watchKept_showEmpty (watchKept_trans (watchKept_flds watchKept_refl rfl) hfields)
  have hshow : watchKept [] (openEmpty (takeIdx o)) t := ht ▸ watchKept_showEmpty watchKept_refl
  have hlast : getF t F.TICK_LAST = getF s F.TICK_NEXT % 2 ^ 64 := (hkept _ (by decide) (by decide)).trans ho.last
  refine ⟨(hkept _ (by decide) (by decide)).trans ho.now, (hkept _ (by decide) (by decide)).trans ho.cif, hlast, ?_,
    (hkept _ (by decide) (by decide)).trans ho.dt, ?_, ?_, ?_, ?_, ?_, fun n => ?_, ht ▸ hmem⟩
  · rw [hlast, hkept _ (by decide) (by decide), ho.next]
  · rw [ht, hrest]
    rfl
  · rw [ht, hrest]
    rfl
  · rw [hshow _ (by decide) (by decide), hcount hcanon]
    exact congrArg (satAdd 32 · 1) (ho.fields _ (by decide) (by decide))
  · rw [ht, hrest]
    exact congrArg (fun a => some a.nextIdx) hadm
  · rw [ht, hrest]
    exact congrArg (fun a => a.nextIdx + 1) hadm
  · refine Eq.trans ?_ (ho.cells n)
    rw [ht, hrest]
    exact getCell_congr rfl rfl

/-! ### The side that was flipped to (R85, R167) -/

/-- The fields of a frame that runs. -/
def liveFields : List Fld := [F.TICK_FRAME, F.CFG_REPLAY, F.ARR_STAT_RUNNING, F.TICK_NEXT]

theorem liveCfg_congr (hcase : t.frame.casements = s.frame.casements) (hlive : getF t F.ARR_STAT_LIVE_CASEMENT = getF s F.ARR_STAT_LIVE_CASEMENT) :
    liveCfg t = liveCfg s := by
  unfold liveCfg
  rw [hcase, hlive]

theorem liveLen_congr (hcase : t.frame.casements = s.frame.casements) (hlive : getF t F.ARR_STAT_LIVE_CASEMENT = getF s F.ARR_STAT_LIVE_CASEMENT) :
    liveLen t = liveLen s := by
  unfold liveLen
  rw [liveCfg_congr hcase hlive]

theorem aside_clearPhases : Aside ws s (clearPhases s) :=
  aside_foldl aside_refl fun _ _ => aside_setF (aside_setF (aside_setF (aside_setF aside_refl unwatched_phase) unwatched_phase) unwatched_phase)
    unwatched_phase

theorem aside_frame (h : Aside ws s t) : ∃ sent ac, t.frame = { s.frame with stretchSent := sent, acRest := ac } := by
  obtain ⟨_, _, _, _, _, _, _, _, _, hrest⟩ := h.rest
  exact ⟨_, _, by rw [hrest]⟩

theorem aside_adm (h : Aside ws s t) : t.adm = s.adm := by
  obtain ⟨_, _, _, _, _, _, _, _, _, hrest⟩ := h.rest
  rw [hrest]

/-- The side that was flipped to runs: its length is shown, and the frame takes the next plan index. -/
theorem openLive_opens (h : s.fieldsCanonical = true) : watchKept liveFields s (openLive s false false) ∧
    getF (openLive s false false) F.TICK_FRAME = liveLen s % 2 ^ 25 ∧ getF (openLive s false false) F.CFG_REPLAY = 0 ∧
    isSet (openLive s false false) F.ARR_STAT_RUNNING = true ∧ (openLive s false false).adm.frameIdx = some s.adm.nextIdx ∧
    (openLive s false false).frame.state = .running ∧ (openLive s false false).frame.hasLive = true ∧
    (openLive s false false).frame.sched = s.frame.sched := by
  unfold openLive
  extract_lets k early adm taken frame framed shown replayed running span alone ready span' chosen
  have hframed : watchKept [] s framed := watchKept_setFrame (watchKept_flds watchKept_refl rfl)
  have hcanon : framed.fieldsCanonical := setFrame_canonical h
  have hshown : shown.fieldsCanonical := setF_canonical (setF_canonical hcanon)
  have hlower : (lower replayed F.TICK_STAT_WAIT).fieldsCanonical := setF_canonical (setF_canonical (setF_canonical hshown))
  have hdrain : watchKept [] (setF framed F.TICK_FRAME (liveLen framed)) shown := watchKept_setF watchKept_refl (by decide)
  have hflag : watchKept [] (setF shown F.CFG_REPLAY shown.frame.replays) replayed := watchKept_setF watchKept_refl (by decide)
  have hrun : watchKept [F.ARR_STAT_RUNNING] replayed running := watchKept_setF_in (watchKept_setF watchKept_refl (by decide)) (by decide)
  have halone : watchKept [] running (setF alone F.PWR_STAT_STATE 0) := watchKept_setF (watchKept_setSpan watchKept_refl) (by decide)
  have hclear : Aside [] (setF alone F.PWR_STAT_STATE 0) ready := aside_clearPhases
  have hchosen : watchKept [] ready chosen := watchKept_setSpan watchKept_refl
  have hplan : Aside [F.TICK_NEXT] chosen (planPoints chosen) := aside_planPoints
  have hafter : watchKept [F.TICK_NEXT] running (planPoints chosen) :=
    watchKept_trans (watchKept_mono (watchKept_trans halone (watchKept_trans hclear.fields hchosen)) (List.nil_subset _)) hplan.fields
  have hreplayed : watchKept [F.ARR_STAT_RUNNING, F.TICK_NEXT] replayed (planPoints chosen) :=
    watchKept_trans (watchKept_mono hrun (by simp)) (watchKept_mono hafter (by simp))
  have hnoReplay : watchKept [F.CFG_REPLAY] shown replayed :=
    watchKept_trans (watchKept_setF_in watchKept_refl (by decide)) (watchKept_mono hflag (List.nil_subset _))
  have hsized : watchKept [F.TICK_FRAME] framed shown :=
    watchKept_trans (watchKept_setF_in watchKept_refl (by decide)) (watchKept_mono hdrain (List.nil_subset _))
  have hlen : liveLen framed = liveLen s := liveLen_congr rfl (hframed _ (by decide) (by decide))
  obtain ⟨_, _, hframe⟩ := aside_frame hplan
  obtain ⟨_, _, hready⟩ := aside_frame hclear
  have hsame : chosen.frame = ready.frame := rfl
  refine ⟨?_, ?_, ?_, ?_, ?_, ?_, ?_, ?_⟩
  · exact watchKept_trans (watchKept_mono hframed (List.nil_subset _)) (watchKept_trans (watchKept_mono hsized (by simp [liveFields]))
      (watchKept_trans (watchKept_mono hnoReplay (by simp [liveFields])) (watchKept_mono hreplayed (by simp [liveFields]))))
  · rw [hreplayed _ (by decide) (by decide), hnoReplay _ (by decide) (by decide), hdrain _ (by decide) (by decide), getF_setF hcanon, if_pos rfl, hlen]
  · rw [hreplayed _ (by decide) (by decide), hflag _ (by decide) (by decide), getF_setF hshown, if_pos rfl]
    rfl
  · exact (isSet_congr (hafter _ (by decide) (by decide))).trans (Laws.isSet_raise _ _ (Laws.smapWf_iff.1 hlower).1 (by decide))
  · rw [aside_adm hplan, show chosen.adm = ready.adm from rfl, aside_adm hclear]
    rfl
  · rw [hframe, hsame, hready]
    rfl
  · rw [hframe, hsame, hready]
    rfl
  · rw [hframe, hsame, hready]
    rfl

theorem reqsOnly_fetchMissCheck : ReqsOnly s (fetchMissCheck s) :=
  List.foldlRecOn _ _ reqsOnly_refl fun _ ht _ _ => reqsOnly_failWhere ht

/-- After a flip the frame that a tick opens runs the side that was flipped to. -/
theorem tick_opens_live (ho : TickOpened s o) (hcanon : o.fieldsCanonical) (ht : t = fetchMissCheck (showEmpty (openLive o false false))) :
    getF t F.TICK_NOW = (getF s F.TICK_NOW + 1) % 2 ^ 48 ∧ getF t F.TICK_CIF_CIF = 0 ∧ getF t F.TICK_LAST = getF s F.TICK_NEXT % 2 ^ 64 ∧
    t.frame.state = .running ∧ t.frame.hasLive = true ∧ t.frame.sched = 0 ∧ getF t F.TICK_FRAME = liveLen s % 2 ^ 25 ∧
    isSet t F.ARR_STAT_RUNNING = true ∧ t.adm.frameIdx = some s.adm.nextIdx ∧ getF t F.CFG_REPLAY = 0 := by
  obtain ⟨hfields, hlen, hreplay, hrun, hidx, hstate, hlive, hsched⟩ := openLive_opens hcanon
  obtain ⟨_, hadm⟩ := ho.adm
  have hmiss : ReqsOnly (showEmpty (openLive o false false)) t := ht ▸ reqsOnly_fetchMissCheck
  have hshow : watchKept [] (openLive o false false) t := watchKept_trans (watchKept_showEmpty watchKept_refl) (watchKept_of_reqsOnly hmiss)
  have hkept : watchKept liveFields o t := watchKept_trans hfields (watchKept_mono hshow (List.nil_subset _))
  have hframe : t.frame = (showEmpty (openLive o false false)).frame := reqsOnly_frame hmiss
  refine ⟨(hkept _ (by decide) (by decide)).trans ho.now, (hkept _ (by decide) (by decide)).trans ho.cif, (hkept _ (by decide) (by decide)).trans ho.last,
    hframe ▸ hstate, hframe ▸ hlive, hframe ▸ hsched.trans ho.sched, ?_, (isSet_congr (hshow _ (by decide) (by decide))).trans hrun, ?_,
    (hshow _ (by decide) (by decide)).trans hreplay⟩
  · rw [hshow _ (by decide) (by decide), hlen, liveLen_congr ho.casements (ho.fields _ (by decide) (by decide))]
  · exact (reqsOnly_frameIdx hmiss).trans (hidx.trans (congrArg (fun a => some a.nextIdx) hadm))

end
end Sys2Proof.Proofs

/-! SUPPORT. A tick that finds its frame still running (R71, R72): the overrun is counted, and the frame aborts. -/
namespace Sys2Proof.Proofs
open Sys2Proof Sys2Proof.Machine

section
variable {s t u : State} {ws : List Fld} {f : Fld} {v n : Nat}

theorem watchKept_of_ctrlOnly (h : CtrlOnly s t) : watchKept ws s t := watchKept_of_fieldsKept h.fields (by decide)

theorem watchKept_sendReport {r : FrameReport} : watchKept ws s (sendReport s r) := by
  have hnoted : watchKept ws s (noteReport s r) := watchKept_ite (watchKept_setSpan (watchKept_setSpan watchKept_refl))
    (watchKept_ite (watchKept_setSpan (watchKept_setSpan watchKept_refl)) (watchKept_setSpan watchKept_refl))
  exact watchKept_ite watchKept_refl (watchKept_ite (watchKept_setSpan hnoted) (watchKept_trans hnoted (watchKept_of_ctrlOnly ctrlOnly_sendCtrl)))

/-- Between `s` and `t` no watched field has moved but those of `ws`, and what the row buses and stages hold is the same. -/
structure StagesKept (ws : List Fld) (s t : State) : Prop where
  fields : watchKept ws s t
  staged : t.frame.staged = s.frame.staged
  rowBus : t.frame.rowBus = s.frame.rowBus

theorem stagesKept_refl : StagesKept ws s s := ⟨watchKept_refl, rfl, rfl⟩

theorem stagesKept_trans (h : StagesKept ws s t) (h' : StagesKept ws t u) : StagesKept ws s u :=
  ⟨watchKept_trans h.fields h'.fields, h'.staged.trans h.staged, h'.rowBus.trans h.rowBus⟩

theorem stagesKept_ite {c : Prop} {d : Decidable c} (ht : StagesKept ws s t) (hu : StagesKept ws s u) : StagesKept ws s (if c then t else u) := by
  split <;> assumption

theorem stagesKept_setF_in (h : StagesKept ws s t) (hf : ∀ g ∈ watched, g.key = f.key → g ∈ ws) : StagesKept ws s (setF t f v) :=
  ⟨watchKept_setF_in h.fields hf, h.staged, h.rowBus⟩

theorem stagesKept_setF (h : StagesKept ws s t) (hf : unwatched f) : StagesKept ws s (setF t f v) :=
  stagesKept_setF_in h fun g hg e => absurd e (hf g hg)

theorem stagesKept_setFrame {x : FrameSt} (h : StagesKept ws s t) (hstaged : x.staged = t.frame.staged) (hbus : x.rowBus = t.frame.rowBus) :
    StagesKept ws s (setFrame t x) :=
  ⟨watchKept_setFrame h.fields, hstaged.trans h.staged, hbus.trans h.rowBus⟩

theorem stagesKept_setSpan {x : SpanSt} (h : StagesKept ws s t) : StagesKept ws s (setSpan t x) := ⟨watchKept_setSpan h.fields, h.staged, h.rowBus⟩

theorem stagesKept_of_ctrlOnly (h : CtrlOnly s t) : StagesKept ws s t := by
  have hfields : watchKept ws s t := watchKept_of_ctrlOnly h
  obtain ⟨_, _, _, _, rfl⟩ := h.rest
  exact ⟨hfields, rfl, rfl⟩

theorem stagesKept_announceChange {src subject operand : Nat} {c : Option Stamp} : StagesKept ws s (announceChange s src c subject n operand) :=
  stagesKept_trans (stagesKept_setSpan stagesKept_refl) (stagesKept_of_ctrlOnly ctrlOnly_eventToAll)

theorem stagesKept_announcePeriod {target : Nat} (h : StagesKept ws s t) : StagesKept ws s (announcePeriod t target n) :=
  have hshown := stagesKept_setF (stagesKept_setF h (by decide)) (by decide)
  stagesKept_ite h (stagesKept_ite (stagesKept_trans hshown stagesKept_announceChange) hshown)

theorem stagesKept_announceMode (h : StagesKept ws s t) : StagesKept ws s (announceMode t) := by
  have hframe := stagesKept_setFrame (x := { t.frame with modeAskedAt := frameNow t, modeHeld := false }) h rfl rfl
  exact stagesKept_announcePeriod (stagesKept_ite (stagesKept_trans hframe stagesKept_announceChange) hframe)

theorem stagesKept_tickMode (h : StagesKept ws s t) : StagesKept ws s (tickMode t) :=
  stagesKept_ite (stagesKept_ite (stagesKept_announceMode h) h) (stagesKept_ite (stagesKept_setF h (by decide)) h)

theorem stagesKept_endWaiting (h : StagesKept abortFields s t) : StagesKept abortFields s (endWaiting t) :=
  stagesKept_ite (stagesKept_setFrame (stagesKept_setF_in (f := F.CFG_CNT_EMPTY) (stagesKept_setF (f := F.CFG_STAT_EMPTY) (v := 1) h (by decide)) (by decide))
    rfl rfl) h

theorem stagesKept_dropFlipped (h : StagesKept ws s t) : StagesKept ws s (dropFlipped t) :=
  stagesKept_setF (stagesKept_setFrame h rfl rfl) (by decide)

theorem stagesKept_barFlipped (h : StagesKept ws s t) : StagesKept ws s (barFlipped t) := stagesKept_ite (stagesKept_dropFlipped h) h

theorem stagesKept_openEmpty (h : StagesKept abortFields s t) : StagesKept abortFields s (openEmpty t) := by
  obtain ⟨⟨_, _, _, hrest⟩, hfields, -⟩ := emptyOpened_openEmpty (s := t)
  refine stagesKept_trans h ⟨watchKept_mono hfields (by simp [emptyFields, abortFields]), ?_, ?_⟩ <;> rw [hrest]

theorem openEmpty_hasLive : (openEmpty s).frame.hasLive = false := by
  obtain ⟨_, _, _, hrest⟩ := (emptyOpened_openEmpty (s := s)).rest
  rw [hrest]

/-- The overrun is stamped, shown and counted. -/
def showOverrun (s : State) (c : Cause) : State :=
  bump (raise (stampEvent s srcTick (.overrun c)) F.TICK_STAT_OVERRUN) F.TICK_CNT_OVERRUN

/-- The new frame carries no plan index. -/
def dropIdx (s : State) : State := { s with adm := { s.adm with frameIdx := none } }

/-- Between an overrun frame's abort and the empty frame that follows. -/
def afterOverrun (s : State) : State := dropIdx (barFlipped (tickMode (endWaiting (clearFrame s))))

theorem tick_short_eq (h : s.fieldsCanonical = true) (hrun : isSet s F.TICK_STAT_RUNNING = true)
    (hshort : (s.frame.hasLive && s.frame.state != .tickWait) = true) : ∃ e c r, e.fieldsCanonical ∧ watchKept [F.TICK_DT] s e ∧
    tick s = fetchMissCheck (showEmpty (openEmpty (afterOverrun (sendReport (abortFrame (showOverrun (openTick e) c) c) r)))) := by
  unfold tick
  rw [if_neg (by simp [hrun])]
  extract_lets reached short cause narrow g report noted reported ended opened stamp stamped counted chosen frame cleared ready
  have hreached : watchKept [F.TICK_DT] s reached := watchKept_setF_in watchKept_refl (by decide)
  have hnoted : watchKept [F.TICK_DT] s noted := watchKept_ite (watchKept_setF hreached (by decide)) hreached
  have hnotedCanon : noted.fieldsCanonical := ite_canonical (setF_canonical (setF_canonical h)) (setF_canonical h)
  have hreported : reported = noted := if_pos hshort
  have hkept : watchKept [F.TICK_DT] s reported := hreported.symm ▸ hnoted
  have hcanon : reported.fieldsCanonical := hreported.symm ▸ hnotedCanon
  have hended : watchKept [F.TICK_DT] s ended :=
    watchKept_trans hkept (watchKept_mono (frameEnded_end frameEnded_refl).fields (List.nil_subset _))
  have hchosen : chosen = sendReport (abortFrame counted cause) { report with stamp := stamp } := if_pos hshort
  refine ⟨ended, cause, { report with stamp := stamp }, ?_, ?_, ?_⟩
  · exact endNarrow_canonical (endStretch_canonical (endReqs_canonical hcanon))
  · exact hended
  · refine congrArg fetchMissCheck (congrArg showEmpty ?_)
    rw [if_pos (by rw [show short = true from hshort]; rfl)]
    show openEmpty (dropIdx (barFlipped (tickMode (endWaiting (clearFrame chosen))))) = _
    rw [hchosen]
    rfl

/-- Of the watched fields an opened tick that counts an overrun moves these. -/
theorem showOverrun_shows {c : Cause} (h : s.fieldsCanonical) : isSet (showOverrun s c) F.TICK_STAT_OVERRUN = true ∧
    getF (showOverrun s c) F.TICK_CNT_OVERRUN = satAdd 32 (getF s F.TICK_CNT_OVERRUN) 1 ∧ getF (showOverrun s c) F.TICK_NOW = getF s F.TICK_NOW := by
  have hstamped : (stampEvent s srcTick (.overrun c)).fieldsCanonical := stampEvent_canonical h
  refine ⟨?_, ?_, ?_⟩
  · exact (isSet_congr (Laws.getF_setF_other _ _ _ _ (by decide))).trans (Laws.isSet_raise _ _ (Laws.smapWf_iff.1 hstamped).1 (by decide))
  · exact (getF_bump (setF_canonical hstamped)).trans (congrArg (satAdd 32 · 1) (Laws.getF_setF_other _ _ _ _ (by decide)))
  · exact (Laws.getF_setF_other _ _ _ _ (by decide)).trans (Laws.getF_setF_other _ _ _ _ (by decide))

theorem stagesKept_afterOverrun : StagesKept abortFields (clearFrame s) (afterOverrun s) := by
  obtain ⟨hfields, hstaged, hbus⟩ := stagesKept_barFlipped (stagesKept_tickMode (stagesKept_endWaiting (stagesKept_refl (s := clearFrame s))))
  exact ⟨watchKept_flds hfields rfl, hstaged, hbus⟩

/-- A frame that still runs at its tick overruns and aborts, and the new frame is empty. -/
theorem tick_overruns (h : s.fieldsCanonical = true) (hrun : isSet s F.TICK_STAT_RUNNING = true)
    (hshort : (s.frame.hasLive && s.frame.state != .tickWait) = true) (ht : t = tick s) : isSet t F.TICK_STAT_OVERRUN = true ∧
    getF t F.TICK_CNT_OVERRUN = satAdd 32 (getF s F.TICK_CNT_OVERRUN) 1 ∧ isSet t F.CFG_STAT_ABORT = true ∧
    getF t F.TICK_NOW = (getF s F.TICK_NOW + 1) % 2 ^ 48 ∧ t.frame.hasLive = false ∧ t.frame.staged = [] ∧ t.frame.rowBus = [] := by
  obtain ⟨e, c, r, hcanon, hended, heq⟩ := tick_short_eq h hrun hshort
  have hopened : (openTick e).fieldsCanonical := openTick_canonical hcanon
  have hstart : watchKept (F.TICK_DT :: tickFields) s (openTick e) :=
    watchKept_trans (watchKept_mono hended (by simp)) (watchKept_mono watchKept_openTick (by simp [tickFields]))
  have hcounted : (showOverrun (openTick e) c).fieldsCanonical := bump_canonical (raise_canonical (stampEvent_canonical hopened))
  obtain ⟨hshow, hcount, hnow⟩ := showOverrun_shows (c := c) hopened
  generalize hc : showOverrun (openTick e) c = counted at hshow hcount hnow hcounted heq
  generalize ha : abortFrame counted c = aborted at heq
  have habort : watchKept (F.CFG_STAT_ABORT :: abortFields) counted aborted := ha ▸ watchKept_abortFrame hcounted
  have hcleared : watchKept [] aborted (clearFrame (sendReport aborted r)) := watchKept_setFrame (watchKept_setFrame watchKept_sendReport)
  have hlast : StagesKept abortFields (clearFrame (sendReport aborted r)) (showEmpty (openEmpty (afterOverrun (sendReport aborted r)))) :=
    stagesKept_setF (stagesKept_openEmpty stagesKept_afterOverrun) (by decide)
  have hmiss : ReqsOnly (showEmpty (openEmpty (afterOverrun (sendReport aborted r)))) t := by
    rw [ht, heq]
    exact reqsOnly_fetchMissCheck
  have hafter : watchKept abortFields aborted t :=
    watchKept_trans (watchKept_mono hcleared (List.nil_subset _)) (watchKept_trans hlast.fields (watchKept_of_reqsOnly hmiss))
  have hall : watchKept (F.CFG_STAT_ABORT :: abortFields) counted t := watchKept_trans habort (watchKept_mono hafter (List.subset_cons_self _ _))
  refine ⟨(isSet_congr (hall _ (by decide) (by decide))).trans hshow, ?_, ?_, ?_, ?_, ?_, ?_⟩
  · rw [hall _ (by decide) (by decide), hcount, hstart _ (by decide) (by decide)]
  · exact (isSet_congr (hafter _ (by decide) (by decide))).trans (ha ▸ isSet_abortFrame hcounted)
  · rw [hall _ (by decide) (by decide), hnow, (getF_openTick hcanon).1, hended _ (by decide) (by decide)]
  · rw [reqsOnly_frame hmiss]
    exact openEmpty_hasLive
  · rw [reqsOnly_frame hmiss, hlast.staged]
    rfl
  · rw [reqsOnly_frame hmiss, hlast.rowBus]
    rfl

end
end Sys2Proof.Proofs

/-! SUPPORT. The flip in an empty frame, and the top of the cycle-in-frame (R54, R167, R179). -/
namespace Sys2Proof.Proofs
open Sys2Proof Sys2Proof.Machine

section
variable {s t u : State} {ws : List Fld} {f : Fld} {v n : Nat}

theorem exec_cycleInFrameSaturation : exec .cycleInFrameSaturation s = .next (cifSaturate s) := rfl
theorem exec_emptyFrameFlip : exec .emptyFrameFlip s = .next (emptyFrameFlip s) := rfl

/-- The cycle-in-frame holds at its top (R54). -/
theorem cifSaturate_holds (h : s.fieldsCanonical = true) (hrun : isSet s F.TICK_STAT_RUNNING = true) : ∃ t, exec .cycleInFrameSaturation s = .next t ∧
    getF t F.TICK_CIF_CIF = 0x1FFFFFF ∧ isSet t F.TICK_STAT_CIF_HELD = true ∧ fieldsKept [F.TICK_CIF_CIF, F.TICK_STAT_CIF_HELD] s t ∧
    t = { s with flds := t.flds } := by
  have htop : cifSaturate s = raise (setF s F.TICK_CIF_CIF cifMax) F.TICK_STAT_CIF_HELD := if_pos hrun
  have hcanon := setF_canonical (f := F.TICK_CIF_CIF) (v := cifMax) h
  refine ⟨_, exec_cycleInFrameSaturation, ?_, ?_, ?_, ?_⟩ <;> rw [htop]
  · exact (Laws.getF_setF_other _ _ _ _ (by decide)).trans ((getF_setF h).trans (if_pos rfl))
  · exact Laws.isSet_raise _ _ (Laws.smapWf_iff.1 hcanon).1 (by decide)
  · exact fieldsKept_setF (fieldsKept_setF fieldsKept_refl (by simp)) (by simp)
  · rfl

/-! ### Until the pointers change -/

/-- Between `s` and `t` no watched field has moved but those of `ws`; what is named and whether a frame runs are the same. -/
structure SidesKept (ws : List Fld) (s t : State) : Prop where
  fields : watchKept ws s t
  hasLive : t.frame.hasLive = s.frame.hasLive
  named : t.frame.named = s.frame.named

theorem sidesKept_refl : SidesKept ws s s := ⟨watchKept_refl, rfl, rfl⟩

theorem sidesKept_trans (h : SidesKept ws s t) (h' : SidesKept ws t u) : SidesKept ws s u :=
  ⟨watchKept_trans h.fields h'.fields, h'.hasLive.trans h.hasLive, h'.named.trans h.named⟩

theorem sidesKept_advanceAc : SidesKept acFields s (advanceAc s n) := by
  obtain ⟨_, _, hframe⟩ := aside_frame (aside_advanceAc (s := s) (n := n))
  exact ⟨aside_advanceAc.fields, by rw [hframe], by rw [hframe]⟩

theorem reqsOnly_moveWhere {c : Cause} {q : Req → Bool} (h : ReqsOnly s t) : ReqsOnly s (moveWhere t c q) := by
  obtain ⟨_, _, _, _, rfl⟩ := h
  unfold moveWhere countStamp
  dsimp only
  split_ifs <;> exact ⟨_, _, _, _, rfl⟩

theorem reqsOnly_shiftPlan (h : ReqsOnly s t) : ReqsOnly s (shiftPlan t n) := by
  obtain ⟨_, _, _, _, rfl⟩ := h
  exact ⟨_, _, _, _, rfl⟩

theorem reqsOnly_moveExcess {q : Nat} : ReqsOnly s (moveExcess s n q) := by
  unfold moveExcess
  split
  · next pf _ =>
    dsimp only
    split
    · exact reqsOnly_refl
    · obtain ⟨_, _, _, _, hmoved⟩ := reqsOnly_shiftPlan (n := nextTaking s pf.model n)
        (reqsOnly_moveWhere (c := .schedule) (q := fun r => (((boundReqs s n).drop q).map (fun r => r.aseq)).contains r.aseq) (reqsOnly_refl (s := s)))
      rw [hmoved]
      exact ⟨_, _, _, _, rfl⟩
  · exact reqsOnly_refl

theorem sidesKept_of_reqsOnly (h : ReqsOnly s t) : SidesKept ws s t :=
  ⟨watchKept_of_reqsOnly h, by rw [reqsOnly_frame h], by rw [reqsOnly_frame h]⟩

theorem sidesKept_setFrame {x : FrameSt} (h : SidesKept ws s t) (hlive : x.hasLive = t.frame.hasLive) (hnamed : x.named = t.frame.named) :
    SidesKept ws s (setFrame t x) :=
  ⟨watchKept_setFrame h.fields, hlive.trans h.hasLive, hnamed.trans h.named⟩

theorem sidesKept_sealTable : SidesKept ws s (sealTable s) := by
  unfold sealTable
  dsimp only
  split_ifs
  · exact sidesKept_refl
  · exact sidesKept_setFrame sidesKept_refl rfl rfl
  · exact sidesKept_setFrame (sidesKept_of_reqsOnly reqsOnly_moveExcess) rfl rfl

theorem sidesKept_mapCells {g : Cell → Cell} (h : SidesKept ws s t) : SidesKept ws s (mapCells t g) := ⟨watchKept_flds h.fields rfl, h.hasLive, h.named⟩

theorem sidesKept_stampEvent {src : Nat} {k : EventKind} (h : SidesKept ws s t) : SidesKept ws s (stampEvent t src k) :=
  ⟨watchKept_stampEvent h.fields, h.hasLive, h.named⟩

theorem getF_mapCells {g : Cell → Cell} : getF (mapCells s g) f = getF s f := rfl

theorem getF_stampEvent {src : Nat} {k : EventKind} : getF (stampEvent s src k) f = getF s f := rfl

theorem commitFrame_empty (h : s.frame.hasLive = false) : commitFrame s = stampEvent s srcConfig .commit := by
  unfold commitFrame
  exact if_neg (by simp [stampEvent, h])

/-- Up to the change of pointers a flip takes 56 array cycles (R167). -/
theorem sidesKept_toSwitch (hlive : s.frame.hasLive = false) :
    SidesKept acFields s (mapCells (advanceAc (commitFrame (mapCells (advanceAc s 24) cellClearWritten)) 32) cellFlipReset) := by
  have hcleared : SidesKept acFields s (mapCells (advanceAc s 24) cellClearWritten) := sidesKept_mapCells sidesKept_advanceAc
  rw [commitFrame_empty (hcleared.hasLive.trans hlive)]
  exact sidesKept_mapCells (sidesKept_trans (sidesKept_stampEvent hcleared) sidesKept_advanceAc)

theorem getF_toSwitch_cif (h : s.fieldsCanonical) (hlive : s.frame.hasLive = false) (hcif : getF s F.TICK_CIF_CIF + 56 < cifMax) :
    getF (mapCells (advanceAc (commitFrame (mapCells (advanceAc s 24) cellClearWritten)) 32) cellFlipReset) F.TICK_CIF_CIF =
      getF s F.TICK_CIF_CIF + 56 := by
  have hcleared : (mapCells (advanceAc s 24) cellClearWritten).frame.hasLive = false :=
    (sidesKept_mapCells (ws := acFields) sidesKept_advanceAc).hasLive.trans hlive
  have hcanon : (mapCells (advanceAc s 24) cellClearWritten).fieldsCanonical := mapCells_canonical (advanceAc_canonical h)
  have hfirst : getF (mapCells (advanceAc s 24) cellClearWritten) F.TICK_CIF_CIF = getF s F.TICK_CIF_CIF + 24 :=
    getF_mapCells.trans (getF_advanceAc_cif h (by omega))
  rw [commitFrame_empty hcleared, getF_mapCells]
  generalize mapCells (advanceAc s 24) cellClearWritten = cleared at hcanon hfirst
  rw [getF_advanceAc_cif (stampEvent_canonical hcanon) (by rw [getF_stampEvent]; omega), getF_stampEvent, hfirst]

/-- The flip of a frame that ran nothing: 64 array cycles, and the pointers change to the named side (R167). -/
theorem flipFrame_empty (h : s.fieldsCanonical) (hlive : s.frame.hasLive = false) (hnamed : s.frame.named.isSome = true)
    (hcif : getF s F.TICK_CIF_CIF + 64 < cifMax) : (flipFrame s true).frame.nextRuns = true ∧ (flipFrame s true).frame.named = none ∧
    (flipFrame s true).frame.state = .tickWait ∧ getF (flipFrame s true) F.TICK_CIF_CIF = getF s F.TICK_CIF_CIF + 64 ∧
    getF (flipFrame s true) F.ARR_STAT_LIVE_CASEMENT =
      (if isSet s F.CFG_NEXT_CASEMENT_FLIP then 1 - getF s F.ARR_STAT_LIVE_CASEMENT else getF s F.ARR_STAT_LIVE_CASEMENT) ∧
    getF (flipFrame s true) F.ARR_STAT_LIVE_PANE =
      if isSet s F.CFG_NEXT_PANE_FLIP then 1 - getF s F.ARR_STAT_LIVE_PANE else getF s F.ARR_STAT_LIVE_PANE := by
  unfold flipFrame
  extract_lets cleared committed reset switched stamp flipped reported frame waiting
  have hreset : SidesKept acFields s reset := sidesKept_toSwitch hlive
  have hclearedCanon : cleared.fieldsCanonical := mapCells_canonical (advanceAc_canonical h)
  have hcommittedCanon : committed.fieldsCanonical := commitFrame_canonical hclearedCanon
  have hresetCanon : reset.fieldsCanonical := mapCells_canonical (advanceAc_canonical hcommittedCanon)
  have hresetCif : getF reset F.TICK_CIF_CIF = getF s F.TICK_CIF_CIF + 56 := getF_toSwitch_cif h hlive (by omega)
  have hnamedReset : reset.frame.named.isSome = true := (congrArg Option.isSome hreset.named).trans hnamed
  obtain ⟨hnext, hnone, hno⟩ : switched.frame.nextRuns = true ∧ switched.frame.named = none ∧ switched.frame.hasLive = reset.frame.hasLive :=
    switchSides_named hnamedReset
  obtain ⟨hcase, hpane⟩ : getF switched F.ARR_STAT_LIVE_CASEMENT = _ ∧ getF switched F.ARR_STAT_LIVE_PANE = _ :=
    switchSides_pointers hresetCanon hnamedReset
  have hswitched : watchKept sideFields reset switched := watchKept_switchSides watchKept_refl
  have hswitchedCanon : switched.fieldsCanonical := switchSides_canonical hresetCanon
  clear_value switched
  have hstamped : (stampEvent switched srcConfig .flip).fieldsCanonical := stampEvent_canonical hswitchedCanon
  have hcifSwitched : getF (stampEvent switched srcConfig .flip) F.TICK_CIF_CIF = getF s F.TICK_CIF_CIF + 56 :=
    getF_stampEvent.trans ((hswitched _ (by decide) (by decide)).trans hresetCif)
  have hflipped : SidesKept acFields switched flipped := sidesKept_trans (sidesKept_stampEvent sidesKept_refl) sidesKept_advanceAc
  obtain ⟨_, _, hframe⟩ := aside_frame (aside_advanceAc (s := stampEvent switched srcConfig .flip) (n := 8))
  have hreported : reported = flipped := if_neg (by rw [hflipped.hasLive, hno, hreset.hasLive, hlive]; decide)
  have hshown : watchKept [F.ARR_STAT_RUNNING] reported
      (lower (lower (lower (raise waiting F.TICK_STAT_WAIT) F.CFG_STAT_IN_HOLD) F.ARR_STAT_RUNNING) F.TICK_CIF_DRAIN) :=
    watchKept_setF (watchKept_setF_in (watchKept_setF (watchKept_setF (watchKept_setFrame watchKept_refl) (by decide)) (by decide)) (by decide)) (by decide)
  have hafter : watchKept (F.ARR_STAT_RUNNING :: acFields) switched
      (lower (lower (lower (raise waiting F.TICK_STAT_WAIT) F.CFG_STAT_IN_HOLD) F.ARR_STAT_RUNNING) F.TICK_CIF_DRAIN) :=
    watchKept_trans (watchKept_mono hflipped.fields (List.subset_cons_self _ _)) (watchKept_mono (hreported ▸ hshown) (by simp))
  refine ⟨?_, ?_, rfl, ?_, ?_, ?_⟩
  · show reported.frame.nextRuns = true
    rw [hreported, hframe]
    exact hnext
  · show reported.frame.named = none
    rw [hreported, hframe]
    exact hnone
  · rw [hshown _ (by decide) (by decide), hreported]
    refine (getF_advanceAc_cif hstamped (by omega)).trans ?_
    rw [hcifSwitched]
  · rw [hafter _ (by decide) (by decide), hcase, isSet_congr (hreset.fields F.CFG_NEXT_CASEMENT_FLIP (by decide) (by decide)),
      hreset.fields F.ARR_STAT_LIVE_CASEMENT (by decide) (by decide)]
  · rw [hafter _ (by decide) (by decide), hpane, isSet_congr (hreset.fields F.CFG_NEXT_PANE_FLIP (by decide) (by decide)),
      hreset.fields F.ARR_STAT_LIVE_PANE (by decide) (by decide)]

/-- The drain check of an empty frame has passed at once (R179). -/
def passDrain (s : State) : State :=
  setF (setF (setF (setFrame s { s.frame with sched := 0 }) F.CFG_DRAIN_FIRST_COND 0) F.CFG_DRAIN_LAST_COND 0) F.CFG_HOLD_AC 0

theorem passDrain_shows (h : s.fieldsCanonical) : getF (passDrain s) F.CFG_DRAIN_FIRST_COND = 0 ∧ getF (passDrain s) F.CFG_DRAIN_LAST_COND = 0 ∧
    getF (passDrain s) F.CFG_HOLD_AC = 0 ∧ watchKept ws s (passDrain s) := by
  unfold passDrain
  have hfirst : (setF (setFrame s { s.frame with sched := 0 }) F.CFG_DRAIN_FIRST_COND 0).fieldsCanonical := setF_canonical (setFrame_canonical h)
  refine ⟨?_, ?_, ?_, watchKept_setF (watchKept_setF (watchKept_setF (watchKept_setFrame watchKept_refl) (by decide)) (by decide)) (by decide)⟩
  · exact (Laws.getF_setF_other _ _ _ _ (by decide)).trans
      ((Laws.getF_setF_other _ _ _ _ (by decide)).trans ((getF_setF (setFrame_canonical h)).trans (if_pos rfl)))
  · exact (Laws.getF_setF_other _ _ _ _ (by decide)).trans ((getF_setF hfirst).trans (if_pos rfl))
  · exact (getF_setF (setF_canonical hfirst)).trans (if_pos rfl)

theorem named_of_idleReady (h : idleReadyNow s = true) : s.frame.named.isSome = true := by
  cases hnamed : s.frame.named with
  | none => simp [idleReadyNow, hnamed] at h
  | some x => rfl

/-- In an empty frame an idle side that is ready 72 array cycles before the tick is flipped to (R179). -/
theorem emptyFrameFlip_flips (h : s.fieldsCanonical = true) (hrun : isSet s F.TICK_STAT_RUNNING = true) (hlive : s.frame.hasLive = false)
    (hstate : s.frame.state = .tickWait) (hnext : s.frame.nextRuns = false) (hreplay : s.frame.replayPending = false)
    (hdecide : s.span.decideWait = false) (hready : idleReadyNow s = true)
    (htime : getF s F.TICK_DT + ceilDiv 72000 (opMhz (getF s F.PWR_OP_CUR)) ≤ getF s F.TICK_NEXT) (hcif : getF s F.TICK_CIF_CIF + 72 < cifMax) : ∃ t,
    exec .emptyFrameFlip s = .next t ∧ t.frame.nextRuns = true ∧ t.frame.named = none ∧ t.frame.state = .tickWait ∧ t.frame.sched = 0 ∧
    getF t F.TICK_CIF_CIF = getF s F.TICK_CIF_CIF + 72 ∧ getF t F.CFG_DRAIN_FIRST_COND = 0 ∧ getF t F.CFG_DRAIN_LAST_COND = 0 ∧
    getF t F.CFG_HOLD_AC = 0 ∧
    getF t F.ARR_STAT_LIVE_CASEMENT =
      (if isSet s F.CFG_NEXT_CASEMENT_FLIP then 1 - getF s F.ARR_STAT_LIVE_CASEMENT else getF s F.ARR_STAT_LIVE_CASEMENT) ∧
    getF t F.ARR_STAT_LIVE_PANE = if isSet s F.CFG_NEXT_PANE_FLIP then 1 - getF s F.ARR_STAT_LIVE_PANE else getF s F.ARR_STAT_LIVE_PANE := by
  have hguard : emptyFrameFlip s = passDrain (flipFrame (sealTable (advanceAc s 8)) true) :=
    if_pos (by simp [hrun, hlive, hstate, hnext, hreplay, hdecide, hready, devNow, htime])
  have hsealed : SidesKept acFields s (sealTable (advanceAc s 8)) := sidesKept_trans sidesKept_advanceAc sidesKept_sealTable
  have hcanon : (sealTable (advanceAc s 8)).fieldsCanonical := sealTable_canonical (advanceAc_canonical h)
  have hcycle : getF (sealTable (advanceAc s 8)) F.TICK_CIF_CIF = getF s F.TICK_CIF_CIF + 8 :=
    ((sidesKept_sealTable (ws := [])).fields _ (by decide) (by decide)).trans (getF_advanceAc_cif h (by omega))
  generalize sealTable (advanceAc s 8) = u at hguard hsealed hcanon hcycle
  have hnamed : u.frame.named.isSome = true := (congrArg Option.isSome hsealed.named).trans (named_of_idleReady hready)
  obtain ⟨hruns, hnone, hwait, hlater, hcase, hpane⟩ := flipFrame_empty hcanon (hsealed.hasLive.trans hlive) hnamed (by omega)
  have hflipped : (flipFrame u true).fieldsCanonical := flipFrame_canonical hcanon
  generalize flipFrame u true = flipped at *
  obtain ⟨hfirst, hlast, hhold, hkept⟩ := passDrain_shows (ws := []) hflipped
  refine ⟨passDrain flipped, by rw [exec_emptyFrameFlip, hguard], hruns, hnone, hwait, rfl, ?_, hfirst, hlast, hhold, ?_, ?_⟩
  · rw [hkept _ (by decide) (by decide), hlater, hcycle]
  · rw [hkept _ (by decide) (by decide), hcase, isSet_congr (hsealed.fields F.CFG_NEXT_CASEMENT_FLIP (by decide) (by decide)),
      hsealed.fields F.ARR_STAT_LIVE_CASEMENT (by decide) (by decide)]
  · rw [hkept _ (by decide) (by decide), hpane, isSet_congr (hsealed.fields F.CFG_NEXT_PANE_FLIP (by decide) (by decide)),
      hsealed.fields F.ARR_STAT_LIVE_PANE (by decide) (by decide)]

end
end Sys2Proof.Proofs

/-! SUPPORT. A change of period (R50, R53): what it writes, and what it keeps from running. -/
namespace Sys2Proof.Proofs
open Sys2Proof Sys2Proof.Machine

section
variable {s t u : State} {ws : List Fld} {f : Fld} {v n : Nat}

theorem exec_periodChange : exec .periodChange s = .next (periodChange s) := rfl

/-- The announced period applies, and the next tick comes one such period after the last (R50). -/
def newPeriod (s : State) : State :=
  let s := setF s F.TICK_PERIOD_PERIOD_US (getF s F.TICK_PERIOD_NEXT_US)
  setF s F.TICK_NEXT (getF s F.TICK_LAST + periodNs s)

theorem fieldsKept_newPeriod : fieldsKept [F.TICK_PERIOD_PERIOD_US, F.TICK_NEXT] s (newPeriod s) :=
  fieldsKept_setF (fieldsKept_setF fieldsKept_refl (by simp)) (by simp)

theorem getF_newPeriod (h : s.fieldsCanonical) (hlt : getF s F.TICK_PERIOD_NEXT_US < 2 ^ 14) :
    getF (newPeriod s) F.TICK_PERIOD_PERIOD_US = getF s F.TICK_PERIOD_NEXT_US ∧
    getF (newPeriod s) F.TICK_NEXT = (getF s F.TICK_LAST + 1000 * getF s F.TICK_PERIOD_NEXT_US) % 2 ^ 64 := by
  have hperiod : getF (setF s F.TICK_PERIOD_PERIOD_US (getF s F.TICK_PERIOD_NEXT_US)) F.TICK_PERIOD_PERIOD_US = getF s F.TICK_PERIOD_NEXT_US := by
    rw [getF_setF h, if_pos rfl]
    exact Nat.mod_eq_of_lt hlt
  unfold newPeriod
  refine ⟨(Laws.getF_setF_other _ _ _ _ (by decide)).trans hperiod, ?_⟩
  rw [getF_setF (setF_canonical h), if_pos rfl, periodNs, hperiod, Laws.getF_setF_other _ _ _ _ (by decide)]

/-- Where a change of period applies. -/
theorem periodChange_due (hrun : isSet s F.TICK_STAT_RUNNING = true) (hnew : getF s F.TICK_PERIOD_NEXT_US ≠ getF s F.TICK_PERIOD_PERIOD_US)
    (hat : getF s F.TICK_PERIOD_AT = getF s F.TICK_NOW) (hcif : getF s F.TICK_CIF_CIF ≤ 64) (hsched : s.frame.sched = 0)
    (hpend : isSet s F.CFG_MODE_STAT_PEND = false) : periodChange s = planPoints (dropExcluded (reopenEmpty (failInfeasible s (newPeriod s)))) :=
  if_pos (by simp [hrun, hnew, hat, hcif, hsched, hpend, frameNow])

theorem periodChange_early (hat : getF s F.TICK_PERIOD_AT ≠ getF s F.TICK_NOW) : periodChange s = s := if_neg (by simp [hat, frameNow])

theorem reqsOnly_failInfeasible {b : State} : ReqsOnly s (failInfeasible b s) := reqsOnly_failWhere reqsOnly_refl

theorem failInfeasible_idle {b : State} (h : s.adm.reqs = []) : failInfeasible b s = s := by
  unfold failInfeasible failWhere failEvery
  rw [h]
  rfl

/-! ### A frame that was opened and is infeasible now (R53) -/

theorem reopenEmpty_idle (h : s.frame.hasLive = false) : reopenEmpty s = s := by simp [reopenEmpty, h]

/-- Of a plan's frame that does not run only requests, the plan and the idle table move. -/
theorem openUnready_eq {narrow : Bool} : ∃ u, u.flds = s.flds ∧ openUnready s narrow = openEmpty u := by
  unfold openUnready
  extract_lets n adm taken adm' planned
  refine ⟨planned, ?_, rfl⟩
  unfold planned
  split
  · split
    · rfl
    · exact (reqsOnly_flds (reqsOnly_shiftPlan (reqsOnly_moveWhere (reqsOnly_refl (s := taken))))).trans rfl
  · rfl

theorem watchKept_openEmpty (h : watchKept emptyFields s t) : watchKept emptyFields s (openEmpty t) := watchKept_trans h emptyOpened_openEmpty.fields

/-- The tables of the frame that was to run are dropped. -/
def dropTables (s : State) : State := setFrame s { s.frame with liveProblems := [], liveReqs := [], liveAreas := [], firstAbort := none }

/-- A frame opened with a configuration that the new period makes infeasible is an empty one; of the watched fields its own move. -/
theorem reopenEmpty_keeps : watchKept emptyFields s (reopenEmpty s) := by
  unfold reopenEmpty
  extract_lets frame dropped
  have hdropped : watchKept emptyFields s dropped := watchKept_setFrame watchKept_refl
  refine watchKept_ite watchKept_refl (watchKept_showEmpty ?_)
  split
  · obtain ⟨u, hu, heq⟩ := openUnready_eq (s := { dropped with adm := { dropped.adm with nextIdx := _ } }) (narrow := false)
    rw [heq]
    exact watchKept_openEmpty (watchKept_flds hdropped (hu.trans rfl))
  · exact watchKept_openEmpty hdropped

theorem reopenEmpty_infeasible (hstate : s.frame.state ≠ .tickWait) (hlen : feasibleLen s (liveLen s) = false) :
    (reopenEmpty s).frame.hasLive = false := by
  unfold reopenEmpty
  split
  · next hidle => simpa [hstate, hlen] using hidle
  · dsimp only
    split
    · obtain ⟨u, -, heq⟩ := openUnready_eq (s := { dropTables s with adm := { (dropTables s).adm with nextIdx := _ } }) (narrow := false)
      exact (congrArg (fun t : State => (showEmpty t).frame.hasLive) heq).trans openEmpty_hasLive
    · exact openEmpty_hasLive

/-! ### A naming or a flipped side that is infeasible now (R53, R158) -/

/-- Where another key is written, a map finds at a key what it found. -/
theorem find?_smapSet_other {α : Type} [DecidableEq α] {d : Nat → α} {m : List (Nat × α)} {k j : Nat} {x : α} (h : k ≠ j) :
    (smapSet d m k x).find? (fun c => c.1 == j) = m.find? (fun c => c.1 == j) := by
  unfold smapSet
  split
  · induction m with
    | nil => rfl
    | cons q m ih =>
      rw [smapErase]
      split_ifs with hk
      · rw [List.find?_cons_of_neg (by simp [← hk, h])]
      · rfl
      · simp only [List.find?_cons, ih]
  · induction m with
    | nil => exact List.find?_cons_of_neg (by simp [h])
    | cons q m ih =>
      rw [smapPut]
      split_ifs with hk
      · rw [List.find?_cons_of_neg (by simp [h]), List.find?_cons_of_neg (by simp [← hk, h])]
      · exact List.find?_cons_of_neg (by simp [h])
      · simp only [List.find?_cons, ih]

/-- Between `s` and `t` the naming in force may have gone; what is live, and whether the next frame runs, is the same. -/
structure LiveKept (s t : State) : Prop where
  fields : watchKept [F.CFG_NEXT_CASEMENT_FLIP, F.CFG_NEXT_PANE_FLIP] s t
  hasLive : t.frame.hasLive = s.frame.hasLive
  nextRuns : t.frame.nextRuns = s.frame.nextRuns
  live : t.frame.casements.find? (fun c => c.1 == liveCase s) = s.frame.casements.find? (fun c => c.1 == liveCase s)

theorem liveKept_refl : LiveKept s s := ⟨watchKept_refl, rfl, rfl, rfl⟩

theorem liveKept_setF_in (h : LiveKept s t) (hf : ∀ g ∈ watched, g.key = f.key → g ∈ [F.CFG_NEXT_CASEMENT_FLIP, F.CFG_NEXT_PANE_FLIP]) :
    LiveKept s (setF t f v) :=
  ⟨watchKept_setF_in h.fields hf, h.hasLive, h.nextRuns, h.live⟩

theorem liveKept_setF (h : LiveKept s t) (hf : unwatched f) : LiveKept s (setF t f v) := liveKept_setF_in h fun g hg e => absurd e (hf g hg)

theorem liveKept_ite {c : Prop} {d : Decidable c} (ht : LiveKept s t) (hu : LiveKept s u) : LiveKept s (if c then t else u) := by
  split <;> assumption

theorem liveKept_updateReady (h : LiveKept s t) : LiveKept s (updateReady t) :=
  liveKept_setF (liveKept_ite (liveKept_setF h (by decide)) h) (by decide)

theorem liveKept_liveCfg (h : LiveKept s t) : liveCfg t = liveCfg s := by
  have hcase : getF t F.ARR_STAT_LIVE_CASEMENT = getF s F.ARR_STAT_LIVE_CASEMENT := h.fields _ (by decide) (by decide)
  unfold liveCfg
  rw [hcase]
  exact congrArg (fun c => (c.map (fun c => c.2.cfg)).getD {}) h.live

theorem liveKept_setFrame {y : FrameSt} (h : LiveKept s t) (hlive : y.hasLive = t.frame.hasLive) (hnext : y.nextRuns = t.frame.nextRuns)
    (hcase : y.casements = t.frame.casements) : LiveKept s (setFrame t y) :=
  ⟨watchKept_setFrame h.fields, hlive.trans h.hasLive, hnext.trans h.nextRuns, (congrArg (List.find? _) hcase).trans h.live⟩

/-- The idle casement is none of the live one's. -/
theorem liveKept_clearIdle (h : LiveKept s t) : LiveKept s (clearLens (setCasement t (idleCase t) {}) (idleCase t)) := by
  have hlive : liveCase t = liveCase s := h.fields _ (by decide) (by decide)
  have hother : idleCase t ≠ liveCase s := by
    rw [← hlive, idleCase]
    omega
  exact ⟨watchKept_flds h.fields rfl, h.hasLive, h.nextRuns, (find?_smapSet_other (d := noCasement) (x := {}) hother).trans h.live⟩

theorem liveKept_stopLoads (h : LiveKept s t) : LiveKept s (stopLoads t) := by
  have hidle : LiveKept s (if isSet t F.CFG_STAT_LOADING then clearLens (setCasement t (idleCase t) {}) (idleCase t) else t) :=
    liveKept_ite (liveKept_clearIdle h) h
  exact liveKept_setF (liveKept_setF (liveKept_setF hidle (by decide)) (by decide)) (by decide)

theorem liveKept_applyNaming (h : LiveKept s t) : LiveKept s (applyNaming t none) := by
  unfold applyNaming
  extract_lets left frame stopped idle lowered
  have hleft : LiveKept s left := h
  have hstopped : LiveKept s stopped := liveKept_stopLoads (liveKept_setFrame hleft rfl rfl rfl)
  have hidle : LiveKept s idle := liveKept_ite hstopped (liveKept_setFrame hstopped rfl rfl rfl)
  have hlowered : LiveKept s lowered := liveKept_setF_in (liveKept_setF_in (liveKept_setF hidle (by decide)) (by decide)) (by decide)
  exact liveKept_ite hleft (liveKept_updateReady (liveKept_setF (liveKept_setF hlowered (by decide)) (by decide)))

theorem liveKept_renewNaming : LiveKept s (renewNaming s) := by
  unfold renewNaming
  split
  · exact liveKept_updateReady liveKept_refl
  · exact liveKept_ite (liveKept_updateReady liveKept_refl) (liveKept_applyNaming liveKept_refl)

/-- The fields that dropping a naming moves. -/
theorem dropExcluded_keeps : watchKept [F.CFG_NEXT_CASEMENT_FLIP, F.CFG_NEXT_PANE_FLIP] s (dropExcluded s) :=
  watchKept_ite (watchKept_showEmpty (watchKept_setFrame liveKept_renewNaming.fields)) liveKept_renewNaming.fields

theorem dropExcluded_hasLive : (dropExcluded s).frame.hasLive = s.frame.hasLive := by
  unfold dropExcluded
  dsimp only
  split
  · exact (liveKept_renewNaming (s := s)).hasLive
  · exact liveKept_renewNaming.hasLive

theorem feasibleLen_congr (hmax : getF t F.PWR_RANGE_OP_MAX = getF s F.PWR_RANGE_OP_MAX)
    (hperiod : getF t F.TICK_PERIOD_PERIOD_US = getF s F.TICK_PERIOD_PERIOD_US) : feasibleLen t n = feasibleLen s n := by
  unfold feasibleLen
  rw [hmax, hperiod]

/-- A side that was flipped to and is infeasible does not run. -/
theorem dropExcluded_nextRuns (hlive : s.frame.hasLive = false) (hlen : feasibleLen s (liveLen s) = false) :
    (dropExcluded s).frame.nextRuns = false := by
  have hkept : LiveKept s (renewNaming s) := liveKept_renewNaming
  have hfeasible : nameable (renewNaming s) (liveCfg (renewNaming s)) = false := by
    have hnot : feasibleLen (renewNaming s) (frameLen (liveCfg s).phases (liveCfg s).drainAc) = false :=
      (feasibleLen_congr (hkept.fields _ (by decide) (by decide)) (hkept.fields _ (by decide) (by decide))).trans hlen
    rw [liveKept_liveCfg hkept, nameable, hnot, Bool.and_false]
  unfold dropExcluded
  dsimp only
  rw [hkept.hasLive, hlive, hfeasible]
  cases hnext : (renewNaming s).frame.nextRuns with
  | true => rfl
  | false => exact hnext

/-- Without a naming and a flipped side only the readiness of the idle side is shown anew. -/
theorem dropExcluded_idle (hnamed : s.frame.named = none) (hnext : s.frame.nextRuns = false) :
    dropExcluded s = setF s F.CFG_STAT_IDLE_READY 0 := by
  have hready : idleReadyNow s = false := by simp [idleReadyNow, hnamed]
  have hrenewed : renewNaming s = setF s F.CFG_STAT_IDLE_READY 0 := by
    unfold renewNaming
    rw [hnamed]
    simp [updateReady, hready, setBool]
  unfold dropExcluded
  dsimp only
  rw [hrenewed]
  exact if_neg (by simp [setF, hnext])

/-! ### The change itself (R50, R53) -/

/-- The watched fields that follow a change of period move: those of an empty frame, and the flags of the sides. -/
def followFields : List Fld := [F.CFG_NEXT_CASEMENT_FLIP, F.CFG_NEXT_PANE_FLIP, F.TICK_NEXT] ++ emptyFields

theorem followUp_keeps : watchKept followFields s (planPoints (dropExcluded (reopenEmpty s))) :=
  watchKept_trans (watchKept_mono reopenEmpty_keeps (by simp [followFields, emptyFields]))
    (watchKept_trans (watchKept_mono dropExcluded_keeps (by simp [followFields])) (watchKept_mono aside_planPoints.fields (by simp [followFields])))

theorem planPoints_hasLive : (planPoints s).frame.hasLive = s.frame.hasLive := by
  obtain ⟨_, _, hframe⟩ := aside_frame (aside_planPoints (s := s))
  rw [hframe]

theorem planPoints_nextRuns : (planPoints s).frame.nextRuns = s.frame.nextRuns := by
  obtain ⟨_, _, hframe⟩ := aside_frame (aside_planPoints (s := s))
  rw [hframe]

/-- Where no frame runs, what follows a change of period keeps the tick. -/
theorem followUp_next (hlive : s.frame.hasLive = false) : getF (planPoints (dropExcluded (reopenEmpty s))) F.TICK_NEXT = getF s F.TICK_NEXT := by
  have hrest : frameRuns (dropExcluded s) = false := by rw [frameRuns, dropExcluded_hasLive, hlive, Bool.false_and]
  rw [reopenEmpty_idle hlive, (pointOnly_planPoints hrest).fields _ (by decide), dropExcluded_keeps _ (by decide) (by decide)]

/-- No frame that a change of period makes infeasible runs. -/
theorem followUp_infeasible (hlen : feasibleLen s (liveLen s) = false) :
    (s.frame.hasLive = true → s.frame.state ≠ .tickWait → (planPoints (dropExcluded (reopenEmpty s))).frame.hasLive = false) ∧
    (s.frame.hasLive = false → (planPoints (dropExcluded (reopenEmpty s))).frame.nextRuns = false) := by
  refine ⟨fun _ hstate => ?_, fun hlive => ?_⟩
  · rw [planPoints_hasLive, dropExcluded_hasLive, reopenEmpty_infeasible hstate hlen]
  · rw [planPoints_nextRuns, reopenEmpty_idle hlive, dropExcluded_nextRuns hlive hlen]

/-- Where nothing runs, is flipped to or is named, a change of period moves the period, the tick, and what shows the readiness and the points. -/
theorem followUp_idle (hnamed : s.frame.named = none) (hlive : s.frame.hasLive = false) (hnext : s.frame.nextRuns = false)
    (ht : t = planPoints (dropExcluded (reopenEmpty s))) :
    fieldsKept (F.CFG_STAT_IDLE_READY :: restFields) s t ∧ t.mem = s.mem ∧ t.cells = s.cells ∧ t.frame = s.frame := by
  have hrest : frameRuns (setF s F.CFG_STAT_IDLE_READY 0) = false := by
    show (s.frame.hasLive && _) = false
    rw [hlive, Bool.false_and]
  obtain ⟨⟨_, _, hpoint⟩, hfields⟩ := pointOnly_planPoints hrest
  rw [reopenEmpty_idle hlive, dropExcluded_idle hnamed hnext] at ht
  subst ht
  refine ⟨fieldsKept_trans (fieldsKept_setF fieldsKept_refl (by simp)) (fieldsKept_mono hfields (List.subset_cons_self _ _)), ?_, ?_, ?_⟩ <;>
    rw [hpoint] <;> rfl

/-- At its tick the announced period applies (R50), and no frame that it makes infeasible runs (R53). -/
theorem periodChange_applies (h : s.fieldsCanonical = true) (hlt : getF s F.TICK_PERIOD_NEXT_US < 2 ^ 14)
    (ht : t = planPoints (dropExcluded (reopenEmpty (failInfeasible s (newPeriod s))))) :
    getF t F.TICK_PERIOD_PERIOD_US = getF s F.TICK_PERIOD_NEXT_US ∧
    (s.frame.hasLive = false → getF t F.TICK_NEXT = (getF s F.TICK_LAST + 1000 * getF s F.TICK_PERIOD_NEXT_US) % 2 ^ 64) ∧
    (opMhz (getF s F.PWR_RANGE_OP_MAX) * getF s F.TICK_PERIOD_NEXT_US < liveLen s →
      (s.frame.hasLive = true → s.frame.state ≠ .tickWait → t.frame.hasLive = false) ∧ (s.frame.hasLive = false → t.frame.nextRuns = false)) ∧
    (s.adm.reqs = [] → s.frame.named = none → s.frame.hasLive = false → s.frame.nextRuns = false →
      fieldsKept [F.TICK_PERIOD_PERIOD_US, F.TICK_NEXT, F.CFG_STAT_IDLE_READY, F.PWR_OP_TARGET, F.PWR_OP_RAIL_MV, F.PWR_OP_CUR, F.PWR_OP_CEIL,
        F.PWR_OP_FLOOR_OP] s t ∧ t.mem = s.mem ∧ t.cells = s.cells ∧ t.frame = s.frame) := by
  obtain ⟨hperiod, htick⟩ := getF_newPeriod h hlt
  have hfailed : ReqsOnly (newPeriod s) (failInfeasible s (newPeriod s)) := reqsOnly_failInfeasible
  have hidle : s.adm.reqs = [] → failInfeasible s (newPeriod s) = newPeriod s := fun hnone => failInfeasible_idle hnone
  have hframe : (failInfeasible s (newPeriod s)).frame = s.frame := (reqsOnly_frame hfailed).trans rfl
  have hkept : fieldsKept [F.TICK_PERIOD_PERIOD_US, F.TICK_NEXT] s (failInfeasible s (newPeriod s)) :=
    fun f hf => (Laws.getF_congr (reqsOnly_flds hfailed) f).trans (fieldsKept_newPeriod f hf)
  have hperiod' : getF (failInfeasible s (newPeriod s)) F.TICK_PERIOD_PERIOD_US = _ := (Laws.getF_congr (reqsOnly_flds hfailed) _).trans hperiod
  have htick' : getF (failInfeasible s (newPeriod s)) F.TICK_NEXT = _ := (Laws.getF_congr (reqsOnly_flds hfailed) _).trans htick
  generalize failInfeasible s (newPeriod s) = u at *
  refine ⟨?_, fun hlive => ?_, fun hlen => ?_, fun hnone hnamed hlive hnext => ?_⟩
  · rw [ht, followUp_keeps _ (by decide) (by decide), hperiod']
  · rw [ht, followUp_next (hframe ▸ hlive), htick']
  · have hinfeasible : feasibleLen u (liveLen u) = false := by
      have hlenKept : liveLen u = liveLen s := liveLen_congr (congrArg FrameSt.casements hframe) (hkept _ (by decide))
      rw [feasibleLen, hperiod', hlenKept, hkept _ (by decide)]
      exact decide_eq_false (by omega)
    rw [ht, ← hframe]
    exact followUp_infeasible hinfeasible
  · obtain ⟨hfields, hmem, hcells, hsame⟩ := followUp_idle (hframe ▸ hnamed) (hframe ▸ hlive) (hframe ▸ hnext) ht
    rw [hidle hnone] at hmem hcells
    exact ⟨fieldsKept_trans (fieldsKept_mono hkept (by simp)) (fieldsKept_mono hfields (by simp [restFields])), hmem, hcells, hsame.trans hframe⟩

end

/-- Settles O39: a tick is followed through its stages, and each stage says which of the watched fields it moves. -/
theorem ticksOpenFrames : Obligations.TicksOpenFrames := by
  unfold Obligations.TicksOpenFrames
  refine ⟨fun s h hu hrun hin hpend hdecide hrerun hskip hreplay hheld hwait heject hloss => ?_, fun s h hrun => ?_⟩
  · have hchooses := tick_chooses h hu hrun hin hpend hdecide hrerun hskip hreplay hheld hwait heject hloss
    refine ⟨fun hlive hnext _ hframes hjobs => ?_, fun hidle hnext => ?_, fun hlive hstate => ?_⟩
    · obtain ⟨o, narrow, ho, hcanon, heq⟩ := hchooses (by simp [hlive])
      rw [if_neg (by simp [ho.nextRuns, hnext])] at heq
      exact ⟨tick s, exec_tick, tick_opens_empty ho hcanon hframes hjobs heq⟩
    · obtain ⟨o, narrow, ho, hcanon, heq⟩ := hchooses (by rcases hidle with hlive | hstate <;> simp [*])
      rw [if_pos (ho.nextRuns.trans hnext)] at heq
      exact ⟨tick s, exec_tick, tick_opens_live ho hcanon heq⟩
    · exact ⟨tick s, exec_tick, tick_overruns h hrun (by simp [hlive, hstate]) rfl⟩
  · refine ⟨fun hnew hlt hat hcif hsched hpend => ?_, fun hat => ?_, cifSaturate_holds h hrun,
      fun hlive hstate hnext hreplay hdecide hready htime hcif => emptyFrameFlip_flips h hrun hlive hstate hnext hreplay hdecide hready htime hcif⟩
    · exact ⟨periodChange s, exec_periodChange, periodChange_applies h hlt (periodChange_due hrun hnew hat hcif hsched hpend)⟩
    · rw [exec_periodChange, periodChange_early hat]

end Sys2Proof.Proofs

/-! SUPPORT. The cycle of a cell on whose inputs nothing arrives and to which nothing lands (R102, R109, R112, R153): the switch and the effects leave such a
cell as it is, so that the sequencer alone says what its cycle does. -/
namespace Sys2Proof.Proofs
open Sys2Proof Sys2Proof.Machine

/-- Nothing is on its way in a cell, and its inputs are as a tick leaves them. -/
structure CellQuiet (c : Cell) : Prop where
  effects : c.effects = []
  north : c.inN = {}
  east : c.inE = {}
  south : c.inS = {}
  west : c.inW = {}

section
variable {c : Cell} {k : CellWork} {w : Word64} {cell phase casement pane d : Nat} {errs : List (ErrPlace × Bool)}

/-! ### The switch and the effects of a quiet cell -/

theorem cellInput_quiet (h : CellQuiet c) : cellInput c d = {} := by
  unfold cellInput
  split
  · exact h.north
  · exact h.east
  · exact h.south
  · exact h.west

theorem setCellInput_self : setCellInput c d (cellInput c d) = c := by
  match d with
  | 0 | 1 | 2 | _ + 3 => rfl

theorem setCellInput_quiet (h : CellQuiet c) : setCellInput c d {} = c := by
  rw [← cellInput_quiet h (d := d), setCellInput_self]

theorem tokenArrive_quiet {skews : Nat → Nat} {s : SwitchWork} (h : CellQuiet s.work.cell) : tokenArrive cell skews s d = s := by
  simp [tokenArrive, cellInput_quiet h]

theorem pairInput_quiet {s : SwitchWork} {steer : Bool} (h : CellQuiet s.work.cell) : pairInput cell s d steer = s := by
  simp [pairInput, cellInput_quiet h, setCellInput_quiet h]

theorem switchStep_quiet {skews : Nat → Nat} {outs : List StaticDrive} {steer : Nat → Bool} (h : CellQuiet k.cell) :
    switchStep cell skews k outs steer = (k, outs.map (fun x => x.link)) := by
  have harrive : (List.range 4).foldl (tokenArrive cell skews) ⟨k, outs⟩ = ⟨k, outs⟩ := List.foldl_fixed' (fun _ => tokenArrive_quiet h) _
  have hpair : (List.range 4).foldl (fun s d => pairInput cell s d (steer d)) ⟨k, outs⟩ = ⟨k, outs⟩ :=
    List.foldl_fixed' (fun _ => pairInput_quiet h) _
  have hdrop : (List.range 4).foldl (fun c d => setCellInput c d { cellInput c d with pass := {} }) k.cell = k.cell :=
    List.foldl_fixed' (fun d => by rw [cellInput_quiet h]; exact setCellInput_quiet h) _
  simp only [switchStep, harrive, hpair, hdrop]

theorem landingWrites_quiet (h : CellQuiet k.cell) : landingWrites k = k := by
  have heffects : ({ k.cell with effects := [] } : Cell) = k.cell := by rw [← h.effects]
  simp [landingWrites, h.effects, heffects]

theorem endEffects_quiet (h : CellQuiet c) : endEffects c = c := by
  have heffects : ({ c with effects := [] } : Cell) = c := by rw [← h.effects]
  simp [endEffects, h.effects, heffects]

/-- The cycle of a cell that is quiet before its sequencer acts, and after. -/
theorem cellCycle_quiet {outs : List StaticDrive} {fired : Option Word64} (h : CellQuiet k.cell) {k' : CellWork} (h' : CellQuiet k'.cell)
    (hseq : Machine.sequence k errs phase casement pane = (k', outs, fired)) :
    cellCycle cell phase casement pane errs k = { work := k', outs := outs.map (fun x => x.link) } := by
  simp only [cellCycle, landingWrites_quiet h, hseq, switchStep_quiet h', endEffects_quiet h']

/-! ### The sequencer of a running cell (R109) -/

theorem sequence_beyond (hrun : k.cell.seq = .run) (hword : fetchWord k.cell casement = none) :
    Machine.sequence k [] phase casement pane = ({ k with cell := { k.cell with seq := .halted } }, noDrive, none) := by
  simp [Machine.sequence, hrun, hword]

theorem sequence_laterPhase (hrun : k.cell.seq = .run) (hword : fetchWord k.cell casement = some w) (hphase : phase < pwPhase w) :
    Machine.sequence k [] phase casement pane = ({ k with cell := { k.cell with seq := .phaseWait } }, noDrive, none) := by
  simp [Machine.sequence, hrun, hword, hphase]

theorem sequence_earlierPhase (hrun : k.cell.seq = .run) (hword : fetchWord k.cell casement = some w) (hphase : pwPhase w < phase) :
    Machine.sequence k [] phase casement pane =
      (({ k with cell := { k.cell with seq := .haltedFault } } : CellWork).fault .phaseLate portNone, noDrive, none) := by
  simp [Machine.sequence, hrun, hword, hphase, Nat.lt_asymm hphase]

theorem setRun_running (hrun : c.seq = .run) : ({ c with seq := .run } : Cell) = c := by rw [← hrun]

theorem sequence_ctl (hrun : k.cell.seq = .run) (hword : fetchWord k.cell casement = some w) (hphase : pwPhase w = phase) (hclass : pwClass w = .ctl) :
    Machine.sequence k [] phase casement pane = ({ k with cell := applySetup (advance k.cell w) k.cell.pc w }, noDrive, none) := by
  simp [Machine.sequence, hrun, hword, hphase, hclass, setRun_running hrun]

theorem sequence_move (hrun : k.cell.seq = .run) (hword : fetchWord k.cell casement = some w) (hphase : pwPhase w = phase) (hclass : pwClass w = .move) :
    Machine.sequence k [] phase casement pane =
      ({ (fireWord k [] pane w).1 with cell := advance (fireWord k [] pane w).1.cell w }, (fireWord k [] pane w).2, some w) := by
  simp [Machine.sequence, hrun, hword, hphase, hclass, setRun_running hrun]

theorem advance_next (hend : pwEnd w = false) : advance c w = { c with pc := c.pc + 1 } := by simp [advance, hend]

/-- The END of a level with repetitions left goes back to the level's start (R96, R109). -/
theorem advance_back (hend : pwEnd w = true) {v : LoopLevel} (hv : smapGet idleLoop c.loops (pwLvl w) = v) (hrem : 0 < v.rem) :
    advance c w = { c with pc := v.ls, loops := smapSet idleLoop c.loops (pwLvl w) { v with rem := v.rem - 1, idx := v.idx + 1 } } := by
  simp [advance, hend, hv, hrem]

theorem showOrphans_quiet {f : Link → Link} (h : CellQuiet c) : showOrphans c w f = c :=
  List.foldl_fixed' (fun _ => by simp [orphanData, cellInput_quiet h]) _

/-- A MOVE word that copies nothing and has no operand leaves a quiet cell's work as it is (R98, R100). -/
theorem fireWord_steer (h : CellQuiet k.cell) (hclass : pwClass w = .move) (hop : pwOp w = 0) (ha : pwSrcA w = 0) (hb : pwSrcB w = 0) :
    (fireWord k errs pane w).1 = k := by
  simp [fireWord, showOrphans_quiet h, hclass, hop, ha, hb, readSource]

end

/-- Settles O42: the sequencer's answer to each kind of word is that of the whole cycle, for the cell stays quiet. -/
theorem sequencersFollowThePattern : Obligations.SequencersFollowThePattern := by
  unfold Obligations.SequencersFollowThePattern
  intro c cell phase casement pane heffects hN hE hS hW hrun _
  have hquiet : CellQuiet c := ⟨heffects, hN, hE, hS, hW⟩
  refine ⟨fun hword => ?_, fun w hword => ⟨fun hphase => ?_, fun hphase => ?_, fun hphase hclass hop hend => ?_,
    fun hphase hclass hop ha hb hend hrem hsorted => ?_⟩⟩
  · rw [cellCycle_quiet (k := { cell := c }) hquiet ⟨heffects, hN, hE, hS, hW⟩ (sequence_beyond hrun hword)]
    exact ⟨rfl, rfl⟩
  · rw [cellCycle_quiet (k := { cell := c }) hquiet ⟨heffects, hN, hE, hS, hW⟩ (sequence_laterPhase hrun hword hphase)]
    exact ⟨rfl, rfl⟩
  · rw [cellCycle_quiet (k := { cell := c }) hquiet ⟨heffects, hN, hE, hS, hW⟩ (sequence_earlierPhase hrun hword hphase)]
    exact ⟨rfl, rfl⟩
  · have hopened : applySetup (advance c w) c.pc w =
        { c with pc := c.pc + 1, loops := smapSet idleLoop c.loops (ctlSel w) ⟨true, c.pc + 1, 0, ctlIter w - 1⟩ } := by
      simp [applySetup, hop, advance_next hend]
    have hseq := sequence_ctl (k := { cell := c }) (pane := pane) hrun hword hphase hclass
    rw [hopened] at hseq
    rw [cellCycle_quiet (k := { cell := c }) hquiet ⟨heffects, hN, hE, hS, hW⟩ hseq]
  · have hseq := sequence_move (k := { cell := c }) (pane := pane) hrun hword hphase hclass
    rw [fireWord_steer (k := { cell := c }) hquiet hclass hop ha hb, advance_back hend rfl hrem] at hseq
    rw [cellCycle_quiet (k := { cell := c }) hquiet ⟨heffects, hN, hE, hS, hW⟩ hseq]
    exact ⟨rfl, Laws.smapGet_set_same _ _ _ _ hsorted⟩

end Sys2Proof.Proofs

/-! SUPPORT. Check-only passes: a counterexample to O43. -/
namespace Sys2Proof.Proofs
open Sys2Proof Sys2Proof.Machine

theorem exec_checkOnlyPass {model epoch : Nat} {cid : Option Nat} {nearUe : Bool} {s : State} :
    exec (.checkOnlyPass model epoch cid nearUe) s = .next (checkOnlyPass model epoch cid nearUe s) := rfl

/-- Refutes O43: the check of a route table can change register fields, which its clause says it keeps. In the state below a fetch from Bulk has written
every shard of its epoch and waits for the checks that FETCH_COMPLETE asks for. The route table fails its check, for a read of it meets an uncorrectable
error; the epoch is marked UNUSABLE, which ends its fetch, and MEM_BUSY_BULK, which showed when that fetch would end, reads 0 (R211, R266). -/
theorem not_loadsAndChecks : ¬ Obligations.LoadsAndChecks := by
  intro h
  obtain ⟨-, -, -, -, -, -, hroute, -⟩ := h
    { flds := [(F.MEM_BUSY_BULK.key, 5000000)],
      mem := { recs := [{ model := 1, epoch := 2, shards := [{ ulen := 52, placed := true, written := true }], objects := [{ kind := 3, len := 52 }] }],
               dir := [(8 * dirSet 1, { modelId := 1, epoch := 2, valid := true, fetch := true, bulk := true })],
               jobs := [{ model := 1, epoch := 2, fromStore := false, bound := 5000000, durationUs := 5000 }] } }
    (by decide) (by decide)
  obtain ⟨t, hnext, hflds, -⟩ := hroute 1 2 true _ _ rfl rfl rfl rfl
  rw [exec_checkOnlyPass] at hnext
  injection hnext with ht
  subst ht
  have hbusy := Laws.getF_congr hflds F.MEM_BUSY_BULK
  revert hbusy
  decide +kernel

end Sys2Proof.Proofs

/-! SUPPORT. The floating-point formats (R125, R126, R130, R133): rounding leaves a value that the format represents as it is, the finite encodings are the normalised
significands with their exponents, and decoding and encoding are inverse on them. -/
namespace Sys2Proof.Proofs
open Sys2Proof Sys2Proof.Machine

/-- The exponent of a format's last place at its subnormals (R126). -/
def minExp (f : ElemFmt) : Int := 1 - (f.bias : Int) - f.mbits

/-- The significand `q` has at most `w` + 1 bits, and fewer only at the least exponent: no value has two such pairs. -/
structure Normalized (w : Nat) (emin : Int) (q : Nat) (e : Int) : Prop where
  man_lt : q < 2 ^ (w + 1)
  exp_ge : emin ≤ e
  subnormal : q < 2 ^ w → e = emin

/-- The magnitude code of a normalised significand and its exponent. -/
def gridMag (f : ElemFmt) (q : Nat) (e : Int) : Nat :=
  if q < 2 ^ f.mbits then q else (e - minExp f + 1).toNat * 2 ^ f.mbits + (q - 2 ^ f.mbits)

/-- A finite value of the format, as a normalised pair (R125, R126). -/
structure OnGrid (f : ElemFmt) (q : Nat) (e : Int) : Prop where
  normalized : Normalized f.mbits (minExp f) q e
  finite : gridMag f q e ≤ f.maxCode

section
variable {f : ElemFmt} {mode : Rnd} {s neg : Bool} {w mag man q : Nat} {emin exp e : Int}

/-! ### Rounding -/

/-- Rounding what fits only widens the significand: the value stays (R130). -/
theorem roundMan_exact (hman : man < 2 ^ (w + 1)) (hexp : emin ≤ exp) :
    ∃ k : Nat, Normalized w emin (man * 2 ^ k) (exp - k) ∧ roundMan (w + 1) emin mode neg man exp = (man * 2 ^ k, exp - k) := by
  by_cases h0 : man = 0
  · subst h0
    refine ⟨(exp - emin).toNat, ⟨by simp, by omega, by omega⟩, ?_⟩
    simp [roundMan]
    omega
  · have hlog : man.log2 < w + 1 := (Nat.log2_lt h0).2 hman
    have hle : max (exp + (man.log2 + 1 : Nat) - (w + 1 : Nat)) emin ≤ exp := by omega
    obtain ⟨k, hk⟩ := Int.eq_ofNat_of_zero_le (Int.sub_nonneg_of_le hle)
    have hmax : max (exp + (man.log2 + 1 : Nat) - (w + 1 : Nat)) emin = exp - k := by omega
    refine ⟨k, ⟨?_, by omega, fun hsub => ?_⟩, by simp only [roundMan, if_neg h0, hmax]; simp⟩
    · calc man * 2 ^ k < 2 ^ (man.log2 + 1) * 2 ^ k := Nat.mul_lt_mul_of_pos_right Nat.lt_log2_self (Nat.two_pow_pos k)
        _ = 2 ^ (man.log2 + 1 + k) := (pow_add ..).symm
        _ ≤ 2 ^ (w + 1) := Nat.pow_le_pow_right (by decide) (by omega)
    · by_contra hne
      have hpow : 2 ^ w ≤ man * 2 ^ k := calc
        2 ^ w ≤ 2 ^ (man.log2 + k) := Nat.pow_le_pow_right (by decide) (by omega)
        _ = 2 ^ man.log2 * 2 ^ k := pow_add ..
        _ ≤ man * 2 ^ k := Nat.mul_le_mul_right _ (Nat.log2_self_le h0)
      omega

/-- No normalised pair is another one widened. -/
theorem Normalized.no_widening {k : Nat} (h : Normalized w emin q e) (hk : Normalized w emin (q * 2 ^ k) (e - k)) : k = 0 := by
  by_contra hne
  rcases Nat.lt_or_ge q (2 ^ w) with hsub | hnormal
  · have := h.subnormal hsub
    have := hk.exp_ge
    omega
  · have hbig : 2 ^ (w + 1) ≤ q * 2 ^ k := calc
      2 ^ (w + 1) = 2 ^ w * 2 ^ 1 := pow_add ..
      _ ≤ q * 2 ^ k := Nat.mul_le_mul hnormal (Nat.pow_le_pow_right (by decide) (by omega))
    have := hk.man_lt
    omega

/-- An exact value that fits the significand keeps its value, and its code is that of a normalised pair, within the largest finite code. -/
theorem encodeFloat_exact (hman : man < 2 ^ (f.mbits + 1)) (hexp : minExp f ≤ exp) :
    ∃ k : Nat, Normalized f.mbits (minExp f) (man * 2 ^ k) (exp - k) ∧ encodeFloat f mode (.fin neg man exp) =
      if f.maxCode < gridMag f (man * 2 ^ k) (exp - k) then overflowCode f mode neg else signCode f neg (gridMag f (man * 2 ^ k) (exp - k)) := by
  obtain ⟨k, hk, hround⟩ := roundMan_exact (mode := mode) (neg := neg) hman hexp
  refine ⟨k, hk, ?_⟩
  rw [minExp] at hround
  simp only [encodeFloat, hround, if_neg (Nat.not_le.2 hk.man_lt)]
  rfl

/-- R130: a value that the format represents is not changed. -/
theorem encodeFloat_onGrid (h : OnGrid f q e) : encodeFloat f mode (.fin s q e) = signCode f s (gridMag f q e) := by
  obtain ⟨k, hk, hcode⟩ := encodeFloat_exact (mode := mode) (neg := s) h.normalized.man_lt h.normalized.exp_ge
  obtain rfl := h.normalized.no_widening hk
  simpa [Nat.not_lt.2 h.finite] using hcode

/-! ### Encodings -/

theorem decodeElem_mod (c : Nat) : decodeElem f (c % 2 ^ f.width) = decodeElem f c := by
  simp [decodeElem]

theorem signCode_lt (hmag : mag < 2 ^ (f.width - 1)) : signCode f s mag < 2 ^ f.width := by
  have hw : 2 ^ f.width = 2 ^ (f.width - 1) * 2 := by cases f <;> rfl
  unfold signCode
  split <;> omega

/-- Every encoding is a sign and a magnitude code. -/
theorem exists_signCode {c : Nat} (hc : c < 2 ^ f.width) : ∃ s mag, mag < 2 ^ (f.width - 1) ∧ c = signCode f s mag := by
  have hw : 2 ^ f.width = 2 ^ (f.width - 1) * 2 := by cases f <;> rfl
  by_cases hs : 2 ^ (f.width - 1) ≤ c
  · exact ⟨true, c - 2 ^ (f.width - 1), by omega, by simp [signCode, hs]⟩
  · exact ⟨false, c, by omega, by simp [signCode]⟩

/-- R126, of a sign and a magnitude code. -/
theorem decodeElem_signCode (hf : f ≠ .int8) (hmag : mag < 2 ^ (f.width - 1)) :
    decodeElem f (signCode f s mag) =
      if f.maxCode < mag then (if f.infCode = some mag then .inf s else .nan)
      else if mag / 2 ^ f.mbits = 0 then .fin s (mag % 2 ^ f.mbits) (minExp f)
      else .fin s (mag % 2 ^ f.mbits + 2 ^ f.mbits) ((mag / 2 ^ f.mbits : Nat) - f.bias - f.mbits) := by
  have hlow : signCode f s mag % 2 ^ f.width = signCode f s mag := Nat.mod_eq_of_lt (signCode_lt hmag)
  have hsign : decide (2 ^ (f.width - 1) ≤ signCode f s mag) = s := by cases s <;> simp [signCode, hmag]
  have hmod : signCode f s mag % 2 ^ (f.width - 1) = mag := by cases s <;> simp [signCode, Nat.mod_eq_of_lt hmag]
  cases f with
  | int8 => exact absurd rfl hf
  | _ => simp only [decodeElem, hlow, hsign, hmod]; rfl

theorem gridMag_subnormal (h : q < 2 ^ f.mbits) : gridMag f q e = q := if_pos h

/-- The code of a normal value: the significand without its first bit, under the exponent field. -/
theorem gridMag_normal (h : 2 ^ f.mbits ≤ q) : gridMag f q e = (q - 2 ^ f.mbits) + (e - minExp f + 1).toNat * 2 ^ f.mbits := by
  rw [gridMag, if_neg (Nat.not_lt.2 h), Nat.add_comm]

/-- The finite magnitude codes are those of the format's values. -/
theorem exists_onGrid (hmag : mag ≤ f.maxCode) : ∃ q e, OnGrid f q e ∧ mag = gridMag f q e := by
  by_cases hsub : mag < 2 ^ f.mbits
  · have hgrid := gridMag_subnormal (e := minExp f) hsub
    exact ⟨mag, minExp f, ⟨⟨by omega, le_rfl, fun _ => rfl⟩, hgrid.le.trans hmag⟩, hgrid.symm⟩
  · have hlow : mag % 2 ^ f.mbits < 2 ^ f.mbits := Nat.mod_lt _ (Nat.two_pow_pos _)
    have hfield : 0 < mag / 2 ^ f.mbits := Nat.div_pos (Nat.not_lt.1 hsub) (Nat.two_pow_pos _)
    have hgrid : gridMag f (mag % 2 ^ f.mbits + 2 ^ f.mbits) (minExp f + (mag / 2 ^ f.mbits - 1 : Nat)) = mag := by
      have hexp : (minExp f + (mag / 2 ^ f.mbits - 1 : Nat) - minExp f + 1).toNat = mag / 2 ^ f.mbits := by omega
      rw [gridMag_normal (Nat.le_add_left ..), hexp, Nat.add_sub_cancel, Nat.mul_comm, Nat.mod_add_div]
    exact ⟨_, _, ⟨⟨by omega, by omega, by omega⟩, hgrid.le.trans hmag⟩, hgrid.symm⟩

theorem maxCode_lt : f.maxCode < 2 ^ (f.width - 1) := by cases f <;> decide

/-- The code of a finite value decodes to it. -/
theorem decodeElem_onGrid (hf : f ≠ .int8) (h : OnGrid f q e) : decodeElem f (signCode f s (gridMag f q e)) = .fin s q e := by
  obtain ⟨⟨hlt, hge, hsubnormal⟩, hfinite⟩ := h
  rw [decodeElem_signCode hf (hfinite.trans_lt maxCode_lt), if_neg (Nat.not_lt.2 hfinite)]
  rcases Nat.lt_or_ge q (2 ^ f.mbits) with hsub | hnormal
  · rw [gridMag_subnormal hsub, Nat.div_eq_of_lt hsub, Nat.mod_eq_of_lt hsub, hsubnormal hsub]
    rfl
  · have hlow : q - 2 ^ f.mbits < 2 ^ f.mbits := by omega
    rw [gridMag_normal hnormal, Nat.add_mul_div_right _ _ (Nat.two_pow_pos _), Nat.add_mul_mod_self_right, Nat.div_eq_of_lt hlow,
      Nat.mod_eq_of_lt hlow, Nat.sub_add_cancel hnormal, if_neg (by omega)]
    congr 1
    simp only [minExp] at hge ⊢
    omega

/-- What an encoding of a floating-point format decodes to: a value of the grid, an infinity, or a NaN (R125). -/
theorem decodeElem_cases {c : Nat} (hf : f ≠ .int8) (hc : c < 2 ^ f.width) :
    (∃ s q e, OnGrid f q e ∧ c = signCode f s (gridMag f q e) ∧ decodeElem f c = .fin s q e) ∨
    (∃ s i, f.infCode = some i ∧ c = signCode f s i ∧ decodeElem f c = .inf s) ∨ decodeElem f c = .nan := by
  obtain ⟨s, mag, hmag, rfl⟩ := exists_signCode hc
  rcases Nat.lt_or_ge f.maxCode mag with hbeyond | hfinite
  · rw [decodeElem_signCode hf hmag, if_pos hbeyond]
    by_cases hinf : f.infCode = some mag
    · exact .inr (.inl ⟨s, mag, hinf, rfl, if_pos hinf⟩)
    · exact .inr (.inr (if_neg hinf))
  · obtain ⟨q, e, hgrid, rfl⟩ := exists_onGrid hfinite
    exact .inl ⟨s, q, e, hgrid, rfl, decodeElem_onGrid hf hgrid⟩

theorem encodeElem_float (hf : f ≠ .int8) (v : FVal) : encodeElem f mode v = encodeFloat f mode v := by
  cases f with
  | int8 => exact absurd rfl hf
  | _ => rfl

/-! ### INT8 -/

theorem decodeElem_int8 {c : Nat} (hc : c < 256) : decodeElem .int8 c = if c < 128 then .fin false c 0 else .fin true (256 - c) 0 := by
  simp [decodeElem, ElemFmt.width, Nat.mod_eq_of_lt hc]

/-- An integer is on INT8's grid: only saturation can change it (R132). -/
theorem encodeInt8_integer : encodeInt8 mode (.fin neg man 0) =
    if neg then (if 128 ≤ man then 128 else (256 - man) % 256) else min man 127 := by
  have hman : man < 2 ^ (man.log2 + 1 + 1) := Nat.lt_log2_self.trans (Nat.pow_lt_pow_right (by decide) (by omega))
  obtain ⟨k, hk, hround⟩ := roundMan_exact (mode := mode) (neg := neg) (emin := 0) hman le_rfl
  obtain rfl : k = 0 := by have := hk.exp_ge; omega
  simp only [encodeInt8, hround]
  simp

theorem encodeElem_decodeElem_int8 {c : Nat} (hc : c < 256) : encodeElem .int8 mode (decodeElem .int8 c) = c := by
  rw [decodeElem_int8 hc]
  by_cases hpos : c < 128
  · simp only [if_pos hpos, encodeElem, encodeInt8_integer, Bool.false_eq_true, if_false]
    omega
  · simp only [if_neg hpos, encodeElem, encodeInt8_integer, if_true]
    split <;> omega

/-- An encoding is what its value rounds to, but for the NaNs (R127, R130). -/
theorem encodeElem_decodeElem {c : Nat} (hc : c < 2 ^ f.width) :
    encodeElem f mode (decodeElem f c) = if decodeElem f c = .nan then nanCode f else c := by
  by_cases hf : f = .int8
  · subst hf
    rw [encodeElem_decodeElem_int8 hc, if_neg]
    rw [decodeElem_int8 hc]
    split <;> simp
  rw [encodeElem_float hf]
  rcases decodeElem_cases hf hc with ⟨s, q, e, hgrid, rfl, hval⟩ | ⟨s, i, hinf, rfl, hval⟩ | hnan
  · rw [hval, encodeFloat_onGrid hgrid, if_neg (by simp)]
  · rw [hval, if_neg (by simp)]
    simp [encodeFloat, hinf]
  · rw [hnan, if_pos rfl]
    rfl

/-! ### Lanes -/

/-- The value `x` is the value `v`: the same number with the same sign, the same infinity, or a NaN too. -/
def SameValue (v x : FVal) : Prop :=
  (v = .nan → x = .nan) ∧ (∀ s, v = .inf s → x = .inf s) ∧ ∀ s m e, v = .fin s m e → ∃ n g, x = .fin s n g ∧ (m : ℚ) * 2 ^ e = n * 2 ^ g

theorem SameValue.refl (v : FVal) : SameValue v v :=
  ⟨id, fun _ => id, fun _ m e h => ⟨m, e, h, rfl⟩⟩

theorem f32_ofNat (c : Nat) : f32 (BitVec.ofNat 32 c) = decodeElem .binary32 c := by
  rw [f32, BitVec.toNat_ofNat]
  exact decodeElem_mod c

/-- A number that binary32 represents: few enough bits, none below its last place, and none above its largest exponent. -/
def FitsLane (man : Nat) (exp : Int) : Prop :=
  ∃ w : Nat, w ≤ 23 ∧ man < 2 ^ (w + 1) ∧ -149 ≤ exp ∧ exp + w ≤ 127

/-- Widened to binary32's significand, such a number is below 2^128. -/
theorem FitsLane.exp_le {k : Nat} (h : FitsLane man exp) (hnormal : 2 ^ 23 ≤ man * 2 ^ k) : exp - k ≤ 104 := by
  obtain ⟨w, -, hman, -, hhigh⟩ := h
  have hpow : 2 ^ 23 < 2 ^ (w + 1 + k) := calc
    2 ^ 23 ≤ man * 2 ^ k := hnormal
    _ < 2 ^ (w + 1) * 2 ^ k := Nat.mul_lt_mul_of_pos_right hman (Nat.two_pow_pos k)
    _ = 2 ^ (w + 1 + k) := (pow_add ..).symm
  have := (Nat.pow_lt_pow_iff_right (by decide : 1 < 2)).1 hpow
  omega

/-- What binary32 represents reaches a lane as it is (R130). -/
theorem f32_roundF32_fin (h : FitsLane man exp) :
    ∃ n g, f32 (roundF32 mode (.fin s man exp)) = .fin s n g ∧ (man : ℚ) * 2 ^ exp = n * 2 ^ g := by
  have ⟨w, hw, hman, hlow, _⟩ := h
  have hman24 : man < 2 ^ 24 := hman.trans_le (Nat.pow_le_pow_right (by decide) (by omega))
  obtain ⟨k, hk, hcode⟩ := encodeFloat_exact (f := .binary32) (mode := mode) (neg := s) hman24 hlow
  have hfinite : gridMag .binary32 (man * 2 ^ k) (exp - k) ≤ ElemFmt.binary32.maxCode := by
    have hlt : man * 2 ^ k < 2 ^ 24 := hk.man_lt
    rcases Nat.lt_or_ge (man * 2 ^ k) (2 ^ ElemFmt.binary32.mbits) with hsub | hnormal
    · rw [gridMag_subnormal hsub]
      exact hsub.le.trans (by decide)
    · have hhigh := h.exp_le hnormal
      rw [gridMag_normal hnormal]
      simp only [minExp, ElemFmt.mbits, ElemFmt.bias, ElemFmt.maxCode] at hnormal ⊢
      omega
  refine ⟨man * 2 ^ k, exp - k, ?_, ?_⟩
  · rw [roundF32, hcode, if_neg (Nat.not_lt.2 hfinite), f32_ofNat]
    exact decodeElem_onGrid (by decide) ⟨hk, hfinite⟩
  · rw [zpow_sub₀ two_ne_zero, zpow_natCast]
    push_cast
    field_simp

/-- R125: binary32 represents every value of every format. -/
theorem OnGrid.fitsLane (hf : f ≠ .int8) (h : OnGrid f q e) : FitsLane q e := by
  obtain ⟨⟨hlt, hge, hsubnormal⟩, hfinite⟩ := h
  have hhigh : e ≤ minExp f + (f.maxCode / 2 ^ f.mbits - 1 : Nat) := by
    rcases Nat.lt_or_ge q (2 ^ f.mbits) with hsub | hnormal
    · exact (hsubnormal hsub).le.trans (Int.le_add_of_nonneg_right (Int.natCast_nonneg _))
    · rw [gridMag_normal hnormal] at hfinite
      have := (Nat.le_div_iff_mul_le (Nat.two_pow_pos _)).2 ((Nat.le_add_left ..).trans hfinite)
      omega
  obtain ⟨hbits, hlow, htop⟩ : f.mbits ≤ 23 ∧ -149 ≤ minExp f ∧ minExp f + (f.maxCode / 2 ^ f.mbits - 1 : Nat) + f.mbits ≤ 127 := by
    cases f with
    | int8 => exact absurd rfl hf
    | _ => decide
  exact ⟨f.mbits, hbits, hlt, hlow.trans hge, by omega⟩

/-- R125, of every element format: a finite element is a number that binary32 represents. -/
theorem decodeElem_fitsLane {c : Nat} (h : decodeElem f c = .fin s man exp) : FitsLane man exp := by
  rw [← decodeElem_mod] at h
  have hc : c % 2 ^ f.width < 2 ^ f.width := Nat.mod_lt _ (Nat.two_pow_pos _)
  by_cases hf : f = .int8
  · subst hf
    rw [decodeElem_int8 hc] at h
    have hint : man ≤ 128 ∧ exp = 0 := by split at h <;> injection h <;> omega
    exact ⟨7, by omega⟩
  rcases decodeElem_cases hf hc with ⟨s', q, e, hgrid, -, hval⟩ | ⟨s', i, -, -, hval⟩ | hnan
  · rw [hval] at h
    injection h with _ hq he
    exact hq ▸ he ▸ hgrid.fitsLane hf
  · simp [hval] at h
  · simp [hnan] at h

/-- An infinity reaches a lane as it is. -/
theorem f32_roundF32_inf : f32 (roundF32 mode (.inf s)) = .inf s := by
  have hcode : encodeFloat .binary32 mode (.inf s) = signCode .binary32 s 0x7F800000 := rfl
  rw [roundF32, hcode, f32_ofNat, decodeElem_signCode (by decide) (by decide)]
  rfl

/-- R133: an element reaches a lane as it is, whatever the mode. -/
theorem sameValue_f32_roundF32 (c : Nat) : SameValue (decodeElem f c) (f32 (roundF32 mode (decodeElem f c))) := by
  refine ⟨fun h => ?_, fun s h => ?_, fun s m e h => ?_⟩
  · rw [h]
    rfl
  · rw [h, f32_roundF32_inf]
  · rw [h]
    exact f32_roundF32_fin (decodeElem_fitsLane h)

/-- A lane that the word fills is its element, converted (R108). -/
theorem wordToLanes_getD {lane i : Nat} {d : Word256} (hi : i < 32) (hfirst : (vecSpan f lane).2 ≤ i)
    (hlast : i < (vecSpan f lane).2 + (vecSpan f lane).1) : (wordToLanes f lane d).getD i 0#32 =
      if f = .binary32 then BitVec.ofNat 32 (packedElem d 32 (i - (vecSpan f lane).2))
      else roundF32 .tiesEven (decodeElem f (packedElem d f.width (i - (vecSpan f lane).2))) := by
  simp [wordToLanes, List.getD_eq_getElem?_getD, hi, hfirst, hlast]

theorem sameValue_wordToLanes {lane i : Nat} {d : Word256} (hi : i < 32) (hfirst : (vecSpan f lane).2 ≤ i)
    (hlast : i < (vecSpan f lane).2 + (vecSpan f lane).1) :
    SameValue (decodeElem f (packedElem d f.width (i - (vecSpan f lane).2))) (f32 ((wordToLanes f lane d).getD i 0#32)) := by
  rw [wordToLanes_getD hi hfirst hlast]
  by_cases hf : f = .binary32
  · subst hf
    rw [if_pos rfl, f32_ofNat]
    exact .refl _
  · rw [if_neg hf]
    exact sameValue_f32_roundF32 _

end

/-- Settles O59: every finite element is a number that binary32 represents, and rounding returns each value of a format's grid to its code. -/
theorem conversionsAreExact : Obligations.ConversionsAreExact := by
  unfold Obligations.ConversionsAreExact
  refine ⟨?_, ?_, fun f mode c hc => encodeElem_decodeElem hc⟩
  · rintro f mode c x rfl
    exact sameValue_f32_roundF32 c
  · rintro f lane d i v x hi hfirst hlast rfl rfl
    exact sameValue_wordToLanes hi hfirst hlast

end Sys2Proof.Proofs

/-! SUPPORT. Zeros (R131): the sign of a sum, a difference or a product that is zero, and the zeros of binary32. -/
namespace Sys2Proof.Proofs
open Sys2Proof Sys2Proof.Machine

section
variable {f : ElemFmt} {mode : Rnd} {s t : Bool} {m n : Nat} {e g : Int} {a b : Word}

/-! ### Exact values -/

/-- The integer that stands for a value at a smaller exponent. -/
theorem scaledInt_value (h : g ≤ e) : (scaledInt s m e g : ℚ) * 2 ^ g = (if s then -1 else 1 : ℚ) * m * 2 ^ e := by
  obtain ⟨k, hk⟩ := Int.eq_ofNat_of_zero_le (Int.sub_nonneg_of_le h)
  obtain rfl : e = g + k := by omega
  rw [zpow_add₀ two_ne_zero, zpow_natCast, scaledInt, hk]
  cases s <;> simp <;> ring

/-- R131: the sign of a sum that is exactly zero. -/
theorem addVal_of_sum_eq_zero (h : (if s then -1 else 1 : ℚ) * m * 2 ^ e + (if t then -1 else 1 : ℚ) * n * 2 ^ g = 0) :
    ∃ b, addVal mode (.fin s m e) (.fin t n g) = .fin (if m = 0 ∧ n = 0 ∧ s = t then s else decide (mode = .down)) 0 b := by
  have hzero : scaledInt s m e (min e g) + scaledInt t n g (min e g) = 0 := by
    rw [← scaledInt_value (min_le_left e g), ← scaledInt_value (min_le_right e g), ← add_mul] at h
    exact_mod_cast (mul_eq_zero.1 h).resolve_right (zpow_ne_zero _ two_ne_zero)
  refine ⟨min e g, ?_⟩
  simp only [addVal, if_pos hzero]
  split <;> rfl

/-- R131: a value and its opposite. -/
theorem addVal_opposite : ∃ b, addVal mode (.fin s m e) (.fin (!s) m e) = .fin (decide (mode = .down)) 0 b := by
  have hsum : (if s then -1 else 1 : ℚ) * m * 2 ^ e + (if !s then -1 else 1 : ℚ) * m * 2 ^ e = 0 := by
    cases s <;> simp
  simpa using addVal_of_sum_eq_zero (mode := mode) hsum

/-- R131: a product of zero. -/
theorem mulVal_of_zero (h : m = 0 ∨ n = 0) : ∃ b, mulVal (.fin s m e) (.fin t n g) = .fin (s != t) 0 b :=
  ⟨e + g, by simp [mulVal, Nat.mul_eq_zero.2 h]⟩

/-! ### Encodings -/

/-- A zero rounds to the zero of its sign. -/
theorem encodeElem_zero : encodeElem f mode (.fin s 0 e) = if f = .int8 then 0 else signCode f s 0 := by
  cases f with
  | int8 => cases s <;> rfl
  | _ => rfl

/-- The binary32 zero of a sign. -/
def zero32 (s : Bool) : Word := if s then 0x80000000#32 else 0#32

theorem roundF32_zero : roundF32 mode (.fin s 0 e) = zero32 s := by
  cases s <;> rfl

theorem f32_zero32 : f32 (zero32 s) = .fin s 0 (-149) := by
  cases s <;> rfl

/-- A lane is its sign bit and its magnitude code. -/
theorem toNat_eq_signCode (a : Word) : a.toNat = signCode .binary32 a.msb (a.toNat % 2 ^ 31) := by
  have hlt := a.isLt
  rw [BitVec.msb_eq_decide]
  simp only [signCode, decide_eq_true_eq, ElemFmt.width]
  split <;> omega

theorem eq_zero32_msb (h : a.toNat % 2 ^ 31 = 0) : a = zero32 a.msb := by
  apply BitVec.eq_of_toNat_eq
  rw [toNat_eq_signCode a, h]
  cases a.msb <;> rfl

/-- The sign bit alone is the zero of that sign. -/
theorem and_signBit (a : Word) : a &&& 0x80000000#32 = zero32 a.msb := by
  rw [show (0x80000000#32) = BitVec.twoPow 32 31 from rfl, BitVec.and_twoPow, BitVec.msb_eq_getLsbD_last]
  rfl

theorem toNat_xor_signBit (a : Word) : (a ^^^ 0x80000000#32).toNat = signCode .binary32 (!a.msb) (a.toNat % 2 ^ 31) := by
  have hmsb : (a ^^^ 0x80000000#32).msb = !a.msb := by rw [BitVec.msb_xor, ← Bool.xor_true]; rfl
  have hmag : (a ^^^ 0x80000000#32).toNat % 2 ^ 31 = a.toNat % 2 ^ 31 := by
    rw [BitVec.toNat_xor, Nat.xor_mod_two_pow]
    exact Nat.xor_zero _
  rw [toNat_eq_signCode, hmsb, hmag]

/-- A finite lane's value, and that of the lane with the other sign bit. -/
theorem f32_finite (h : a.toNat / 2 ^ 23 % 256 ≠ 255) :
    ∃ q e, f32 a = .fin a.msb q e ∧ f32 (a ^^^ 0x80000000#32) = .fin (!a.msb) q e := by
  have hfinite : a.toNat % 2 ^ 31 ≤ ElemFmt.binary32.maxCode := by
    simp only [ElemFmt.maxCode]
    omega
  obtain ⟨q, e, hgrid, hmag⟩ := exists_onGrid hfinite
  refine ⟨q, e, ?_, ?_⟩
  · rw [f32, toNat_eq_signCode, hmag, decodeElem_onGrid (by decide) hgrid]
  · rw [f32, toNat_xor_signBit, hmag, decodeElem_onGrid (by decide) hgrid]

/-! ### Operations on lanes -/

/-- R131: a lane less itself. -/
theorem subF32_self (ha : a.toNat / 2 ^ 23 % 256 ≠ 255) : subF32 mode a a = zero32 (decide (mode = .down)) := by
  obtain ⟨q, e, hval, -⟩ := f32_finite ha
  obtain ⟨b, hsum⟩ := addVal_opposite (mode := mode) (s := a.msb) (m := q) (e := e)
  rw [subF32, hval, negVal, hsum, roundF32_zero]

/-- R131: a lane and the lane of the other sign. -/
theorem addF32_opposite (ha : a.toNat / 2 ^ 23 % 256 ≠ 255) : addF32 mode a (a ^^^ 0x80000000#32) = zero32 (decide (mode = .down)) := by
  obtain ⟨q, e, hval, hneg⟩ := f32_finite ha
  obtain ⟨b, hsum⟩ := addVal_opposite (mode := mode) (s := a.msb) (m := q) (e := e)
  rw [addF32, hval, hneg, hsum, roundF32_zero]

/-- R131: the sum of two zeros of one sign. -/
theorem addF32_zero32 : addF32 mode (zero32 s) (zero32 s) = zero32 s := by
  have hsum : addVal mode (.fin s 0 (-149)) (.fin s 0 (-149)) = .fin s 0 (-149) := by cases s <;> rfl
  rw [addF32, f32_zero32, hsum, roundF32_zero]

/-- R131: the product of a zero and a finite lane, in either order. -/
theorem mulF32_zero32 (hb : b.toNat / 2 ^ 23 % 256 ≠ 255) :
    mulF32 mode (zero32 s) b = zero32 (s ^^ b.msb) ∧ mulF32 mode b (zero32 s) = zero32 (s ^^ b.msb) := by
  obtain ⟨q, e, hval, -⟩ := f32_finite hb
  constructor
  · obtain ⟨g, hprod⟩ := mulVal_of_zero (s := s) (t := b.msb) (e := -149) (g := e) (.inl (rfl : 0 = 0))
    rw [mulF32, f32_zero32, hval, hprod, roundF32_zero, Bool.bne_eq_xor]
  · obtain ⟨g, hprod⟩ := mulVal_of_zero (s := b.msb) (t := s) (e := e) (g := -149) (.inr (rfl : 0 = 0))
    rw [mulF32, f32_zero32, hval, hprod, roundF32_zero, Bool.bne_eq_xor, Bool.xor_comm]

end

/-- Settles O58: the exact sum and product say the sign, and a zero rounds to the zero of its sign. -/
theorem signsOfZero : Obligations.SignsOfZero := by
  unfold Obligations.SignsOfZero
  refine ⟨fun mode s t m n e f h => addVal_of_sum_eq_zero h, fun s t m n e f h => mulVal_of_zero h, fun f mode s e => encodeElem_zero,
    fun mode a b ha hb => ⟨?_, fun hzero => ?_⟩⟩
  · rintro z rfl
    have hsign : zero32 (decide (mode = .down)) = if mode = .down then 0x80000000#32 else 0#32 := by simp [zero32]
    exact ⟨hsign ▸ subF32_self ha, hsign ▸ addF32_opposite ha⟩
  · have hxor : (a ^^^ b) &&& 0x80000000#32 = zero32 (a.msb ^^ b.msb) := by rw [and_signBit, BitVec.msb_xor]
    obtain ⟨hleft, hright⟩ := mulF32_zero32 (mode := mode) (s := a.msb) hb
    rw [← eq_zero32_msb hzero] at hleft hright
    exact ⟨by rw [eq_zero32_msb hzero, addF32_zero32], hleft.trans hxor.symm, hright.trans hxor.symm⟩

end Sys2Proof.Proofs

/-! SUPPORT. The fields of verdicts and of changes of mode, and what leaves them: stretches, the choice of points, array cycles, served switches, changes of
sides, reports and namings (R54, R67 to R70, R162, R167, R304, R429 to R434). -/
namespace Sys2Proof.Proofs
open Sys2Proof Sys2Proof.Machine

/-! ### The fields that are kept -/

/-- The fields that verdicts and changes of mode are about. -/
def verdictModeFields : List Fld :=
  [F.TICK_NOW, F.CFG_DRAIN_FIRST_COND, F.CFG_DRAIN_LAST_COND, F.CFG_CNT_ABORT, F.CFG_MODE, F.CFG_MODE_STAT_PEND, F.CFG_STAT_MODE_DONE, F.CFG_MODE_AT,
   F.ADM_SHUT_MODE]

/-- Every field of verdicts and of changes of mode reads as before. -/
def Keeps (s t : State) : Prop := ∀ f ∈ verdictModeFields, getF t f = getF s f

/-- A field that is none of verdicts and of changes of mode. -/
abbrev beside (f : Fld) : Prop := ∀ g ∈ verdictModeFields, g.key ≠ f.key

section
variable {s t u : State} {f : Fld} {v n : Nat} {c : Cause}

/-- Between CFG and ADM no field is one of these: there stand those of the ports and of the span unit. -/
theorem beside_of_key {k w : Nat} (hk : 0x1400000 ≤ k ∧ k < 0x1C00000) : beside ⟨k, w⟩ := by
  have hkeys : ∀ g ∈ verdictModeFields, g.key < 0x1400000 ∨ 0x1C00000 ≤ g.key := by decide
  intro g hg
  have hg := hkeys g hg
  show g.key ≠ k
  omega

theorem keeps_refl : Keeps s s := fun _ _ => rfl

theorem keeps_trans (h : Keeps s t) (h' : Keeps t u) : Keeps s u := fun f hf => (h' f hf).trans (h f hf)

theorem keeps_setF (h : Keeps s t) (hf : beside f) : Keeps s (setF t f v) :=
  keeps_trans h fun g hg => Laws.getF_setF_other t f g v (hf g hg)

theorem keeps_flds (h : Keeps s t) (hu : u.flds = t.flds) : Keeps s u := fun f hf => (Laws.getF_congr hu f).trans (h f hf)

theorem keeps_setF_port {k w : Nat} (h : Keeps s t) (hk : 0x1400000 ≤ k ∧ k < 0x1C00000) : Keeps s (setF t ⟨k, w⟩ v) :=
  keeps_setF h (beside_of_key hk)

theorem keeps_of_fieldsKept {fs : List Fld} (h : fieldsKept fs s t) (hfs : ∀ g ∈ verdictModeFields, ∀ f ∈ fs, f.key ≠ g.key) : Keeps s t :=
  fun g hg => h g (hfs g hg)

theorem keeps_ite {b : Prop} {d : Decidable b} (ht : Keeps s t) (hu : Keeps s u) : Keeps s (if b then t else u) := by split <;> assumption

theorem keeps_foldl {α : Type} {g : State → α → State} {l : List α} (h : Keeps s t) (hg : ∀ t, Keeps s t → ∀ x ∈ l, Keeps s (g t x)) :
    Keeps s (l.foldl g t) :=
  List.foldlRecOn l g h hg

theorem keeps_of_ctrlOnly (h : CtrlOnly s t) : Keeps s t := keeps_of_fieldsKept h.fields (by decide)

theorem keeps_of_pointOnly (h : PointOnly s t) : Keeps s t := keeps_of_fieldsKept h.fields (by decide)

theorem keeps_of_reqsOnly (h : ReqsOnly s t) : Keeps s t := keeps_flds keeps_refl (reqsOnly_flds h)

theorem keeps_setFrame {x : FrameSt} (h : Keeps s t) : Keeps s (setFrame t x) := keeps_flds h rfl

theorem keeps_setSpan {x : SpanSt} (h : Keeps s t) : Keeps s (setSpan t x) := keeps_flds h rfl

theorem keeps_setPwr {x : PwrSt} (h : Keeps s t) : Keeps s (setPwr t x) := keeps_flds h rfl

theorem keeps_setMem {x : MemSt} (h : Keeps s t) : Keeps s (setMem t x) := keeps_flds h rfl

theorem keeps_setLink {p : Nat} {x : LinkSt} (h : Keeps s t) : Keeps s (setLink t p x) := keeps_flds h rfl

theorem keeps_stampEvent {src : Nat} {k : EventKind} (h : Keeps s t) : Keeps s (stampEvent t src k) := keeps_flds h rfl

theorem keeps_capture {guards : List Fld} {vals : List (Fld × Nat)} (h : Keeps s t) (hv : ∀ p ∈ vals, beside p.1) : Keeps s (capture t guards vals) :=
  keeps_trans h fun g hg => fieldsKept_capture (fs := vals.map Prod.fst) (fun _ hq => List.mem_map_of_mem hq) g fun f hf => by
    obtain ⟨p, hp, rfl⟩ := List.mem_map.1 hf
    exact (hv p hp g hg).symm

/-! ### Stretches (R67 to R70) -/

/-- The fields that a stretch asked for can write. -/
def stretchFields : List Fld :=
  [F.TICK_CNT_LATE_REQ, F.TICK_STAT_LATE_GRANT, F.SPAN_CNT_CTRL_TX, F.PWR_CNT_STRETCH_REQ] ++ alignFields ++ grantFields

theorem fieldsKept_ctrlOnly (h : CtrlOnly s t) : fieldsKept stretchFields s t := fieldsKept_mono h.fields (by simp [stretchFields])

theorem fieldsKept_ite {fs : List Fld} {b : Prop} {d : Decidable b} (ht : fieldsKept fs s t) (hu : fieldsKept fs s u) :
    fieldsKept fs s (if b then t else u) := by split <;> assumption

theorem fieldsKept_alignLoss {b : Option Stamp} : fieldsKept stretchFields s (alignLoss s b) :=
  fieldsKept_trans (fieldsKept_mono fieldsKept_showAlignLoss fun f hf => by simp [stretchFields, hf]) (fieldsKept_ctrlOnly alignLoss_tells)

theorem fieldsKept_takeGrant {g : StretchGrant} {b : Option Stamp} : fieldsKept stretchFields s (takeGrant s g b) := by
  have hmoved : fieldsKept stretchFields s (tickMoved s g) :=
    fieldsKept_setF (fieldsKept_setF fieldsKept_refl (by simp [stretchFields, grantFields])) (by simp [stretchFields, grantFields])
  have hnarrow : fieldsKept stretchFields s (raiseNarrow (setPwr (tickMoved s g) { (tickMoved s g).pwr with powerGrant := true })) :=
    fieldsKept_trans (t := setPwr (tickMoved s g) { (tickMoved s g).pwr with powerGrant := true }) hmoved
      (fieldsKept_mono fieldsKept_raiseNarrow (by simp [stretchFields, grantFields]))
  exact fieldsKept_ite (fieldsKept_trans (fieldsKept_setF fieldsKept_refl (by simp [stretchFields])) fieldsKept_alignLoss)
    (fieldsKept_ite (fieldsKept_ite hnarrow hmoved) fieldsKept_refl)

theorem fieldsKept_grantStretch {r : StretchReq} : fieldsKept stretchFields s (grantStretch s r) := by
  unfold grantStretch
  exact fieldsKept_ite fieldsKept_refl (fieldsKept_trans (t := setSpan s { s.span with granted := some r }) (fun _ _ => rfl)
    (fieldsKept_trans (fieldsKept_ctrlOnly ctrlOnly_eventToAll) fieldsKept_takeGrant))

theorem fieldsKept_acceptStretch {r : StretchReq} : fieldsKept stretchFields s (acceptStretch s r) :=
  have hlate : fieldsKept stretchFields s (bump s F.TICK_CNT_LATE_REQ) := fieldsKept_setF fieldsKept_refl (by simp [stretchFields])
  fieldsKept_ite hlate (fieldsKept_ite hlate fieldsKept_grantStretch)

theorem fieldsKept_askStretch : fieldsKept stretchFields s (askStretch s n c) := by
  have hasked : fieldsKept stretchFields s (setFrame s { s.frame with stretchSent := s.frame.stretchSent ++ [c] }) := fun _ _ => rfl
  unfold askStretch
  exact fieldsKept_ite fieldsKept_refl
    (fieldsKept_trans (fieldsKept_ite (fieldsKept_setF hasked (by simp [stretchFields])) hasked)
      (fieldsKept_ite fieldsKept_acceptStretch (fieldsKept_ctrlOnly ctrlOnly_eventToMaster)))

theorem fieldsKept_requestStretch : fieldsKept stretchFields s (requestStretch s n c) := fieldsKept_ite fieldsKept_refl fieldsKept_askStretch

theorem keeps_askStretch : Keeps s (askStretch s n c) := keeps_of_fieldsKept fieldsKept_askStretch (by decide)

theorem keeps_requestStretch : Keeps s (requestStretch s n c) := keeps_of_fieldsKept fieldsKept_requestStretch (by decide)

/-! ### The choice of points (R429 to R434) -/

theorem keeps_raiseNarrow (h : Keeps s t) : Keeps s (raiseNarrow t) := keeps_trans h (keeps_of_fieldsKept fieldsKept_raiseNarrow (by decide))

/-- The fields of a phase's points lie beyond these. -/
theorem beside_phase {k b : Nat} : beside ⟨(0x100100 + k * 0x4) * 32 + b, v⟩ := by
  have hkeys : ∀ g ∈ verdictModeFields, g.key < 0x2002000 := by decide
  intro g hg
  have hg := hkeys g hg
  show g.key ≠ (0x100100 + k * 0x4) * 32 + b
  omega

theorem keeps_showPhase {k a b d e : Nat} (h : Keeps s t) : Keeps s (setF (setF (setF (setF t (F.PWR_PHASE_PREF k) a) (F.PWR_PHASE_CHOSEN k) b)
    (F.PWR_PHASE_CAPPED k) d) (F.PWR_PHASE_RAISED k) e) :=
  keeps_setF (keeps_setF (keeps_setF (keeps_setF h beside_phase) beside_phase) beside_phase) beside_phase

/-- A frame below its floor narrows, and asks for a stretch where that can still reach the master (R430, R431). -/
theorem keeps_belowFloor {a b e : Prop} {da : Decidable a} {db : Decidable b} {de : Decidable e} {p : PwrSt} (h : Keeps s t) :
    Keeps s (if a then t
      else if b then requestStretch (raiseNarrow (setPwr (if e then t else bump (raise t F.PWR_STAT_BELOW_FLOOR) F.PWR_CNT_BELOW_FLOOR) p)) n .power
      else raiseNarrow (setPwr (if e then t else bump (raise t F.PWR_STAT_BELOW_FLOOR) F.PWR_CNT_BELOW_FLOOR) p)) :=
  have hnarrow := keeps_raiseNarrow (keeps_setPwr (keeps_ite h (keeps_setF (keeps_setF h (by decide)) (by decide))))
  keeps_ite h (keeps_ite (keeps_trans hnarrow keeps_requestStretch) hnarrow)

theorem keeps_planPoints (h : Keeps s t) : Keeps s (planPoints t) := by
  have hfloor : Keeps s (showFloor t) := keeps_trans h (keeps_of_pointOnly (pointOnly_showFloor pointOnly_refl))
  have hshown {g : State → PhaseLeft × Nat → State} {l : List (PhaseLeft × Nat)} {u : State} (hu : Keeps s u)
      (hg : ∀ t, Keeps s t → ∀ x ∈ l, Keeps s (g t x)) : Keeps s (if l.isEmpty then l.foldl g u else keepPoints (l.foldl g u) l) :=
    keeps_ite (keeps_foldl hu hg) (keeps_setPwr (keeps_foldl hu hg))
  unfold planPoints
  dsimp only
  refine keeps_ite (keeps_trans hfloor (keeps_of_pointOnly (pointOnly_aimRest pointOnly_refl))) ?_
  split
  · exact keeps_belowFloor (keeps_trans (hshown (keeps_setPwr hfloor) (fun _ ht _ _ => keeps_showPhase ht))
      (keeps_of_pointOnly (pointOnly_aimAt (pointOnly_setF pointOnly_refl (by decide)))))
  · exact keeps_belowFloor (keeps_trans (hshown (keeps_setPwr hfloor) (fun _ ht _ _ => keeps_showPhase ht))
      (keeps_of_pointOnly (pointOnly_aimRest pointOnly_refl)))

/-! ### Array cycles (R54, R160, R432) -/

theorem keeps_stretchAc {k : Nat} (h : Keeps s t) : Keeps s (stretchAc n k t) :=
  have hcount := keeps_setPwr (keeps_setF (f := F.PWR_DROOP_AC) h (by decide))
  keeps_ite h (keeps_ite (keeps_planPoints hcount) hcount)

theorem keeps_advanceAc (h : Keeps s t) : Keeps s (advanceAc t n) := by
  have hset {v : Nat} : Keeps s (setF t F.TICK_CIF_CIF v) := keeps_setF h (by decide)
  have hmoved : Keeps s (moveCif t n) := keeps_ite (keeps_setF hset (by decide)) hset
  have hload : Keeps s (if isSet (moveCif t n) F.CFG_STAT_LOADING then addF (moveCif t n) F.CFG_LOAD_AC_CUR_AC n else moveCif t n) :=
    keeps_ite (keeps_setF hmoved (by decide)) hmoved
  exact keeps_stretchAc (keeps_setFrame (keeps_setF hload (by decide)))

/-! ### Pending switches (R304) -/

theorem keeps_issueReads (h : Keeps s t) : Keeps s (issueReads t) := by
  unfold issueReads
  split
  · exact keeps_ite h (keeps_foldl (keeps_setMem h) fun _ ht _ _ => keeps_foldl ht fun _ ht _ _ => keeps_flds ht rfl)
  · exact h

theorem keeps_endPending {w : PendSwitch} (h : Keeps s t) : Keeps s (endPending t w) :=
  have hdone := keeps_setF (f := F.WGT_STAT_SWITCH_DONE) (v := 1) (keeps_setMem h) (by decide)
  have hcount := keeps_setF hdone (by decide)
  have hshown := keeps_issueReads (keeps_ite (keeps_setF (f := F.WGT_Q_EPOCH_PEND_EPOCH) (v := 0) hcount (by decide)) hcount)
  keeps_ite (keeps_setF hshown (by decide)) hshown

theorem keeps_evictFor {place : MemSt → Option MemSt} (h : Keeps s t) : Keeps s (evictFor t place).2 := by
  unfold evictFor
  split
  · exact keeps_setF (keeps_setMem h) (by decide)
  · exact keeps_setF (keeps_capture h (by simp only [List.forall_mem_cons]; decide)) (by decide)

theorem keeps_retryPending (h : Keeps s t) : Keeps s (retryPending t) := by
  unfold retryPending
  refine keeps_foldl h fun t ht w _ => keeps_ite ht ?_
  have hevict := keeps_evictFor (place := placeEpoch t w.model w.target (fun _ => true)) ht
  split
  · next heq =>
    rw [heq] at hevict
    exact keeps_endPending hevict
  · next heq =>
    rw [heq] at hevict
    exact hevict

theorem keeps_servePending (h : Keeps s t) : Keeps s (servePending t) := by
  unfold servePending
  refine keeps_foldl h fun t ht w _ => ?_
  split
  · exact keeps_ite (keeps_retryPending (keeps_setF (keeps_setMem ht) (by decide))) ht
  · exact ht

/-! ### The two sides (R121, R163, R167, R193) -/

theorem keeps_updateReady (h : Keeps s t) : Keeps s (updateReady t) := keeps_setF (keeps_ite (keeps_setF h (by decide)) h) (by decide)

theorem keeps_showEmpty (h : Keeps s t) : Keeps s (showEmpty t) := keeps_setF h (by decide)

theorem keeps_excludeColumn (h : Keeps s t) : Keeps s (excludeColumn t n) :=
  keeps_setF (keeps_ite (keeps_setF h (by decide)) (keeps_setF h (by decide))) (by decide)

theorem keeps_beginRetire (h : Keeps s t) : Keeps s (beginRetire t n) := keeps_updateReady (keeps_setF (keeps_setF h (by decide)) (by decide))

theorem keeps_retireColumn {g : Nat} (h : Keeps s t) : Keeps s (retireColumn t n g) := by
  have hexcluded : Keeps s (raise (excludeColumn t n) F.ARR_STAT_RETIRED) := keeps_setF (keeps_excludeColumn h) (by decide)
  exact keeps_setF (keeps_setF (keeps_flds hexcluded rfl) (by decide)) (by decide)

theorem keeps_retireEffect (h : Keeps s t) : Keeps s (retireEffect t) := by
  rw [retireEffect_eq]
  have hretired := keeps_retireColumn (n := getF t F.ARR_RETIRE_COL) (g := t.frame.mapGen + 1) h
  exact keeps_ite (keeps_ite (keeps_beginRetire (keeps_setF (keeps_setF hretired (by decide)) (by decide))) hretired) h

theorem keeps_movePointers (h : Keeps s t) : Keeps s (movePointers t) :=
  have hcase := keeps_ite (b := isSet t F.CFG_NEXT_CASEMENT_FLIP = true) (keeps_setF (f := F.ARR_STAT_LIVE_CASEMENT) (v := idleCase t) h (by decide)) h
  keeps_ite (keeps_setF hcase (by decide)) hcase

theorem keeps_takeSide (h : Keeps s t) : Keeps s (takeSide t) := by
  have hretired := keeps_retireEffect (keeps_movePointers h)
  have hlive : Keeps s (showLive (retireEffect (movePointers t))) :=
    keeps_trans (keeps_setF (keeps_setF hretired (by decide)) (by decide)) (keeps_of_pointOnly (pointOnly_showFloor pointOnly_refl))
  have hidle : Keeps s (showNoIdle (showLive (retireEffect (movePointers t)))) :=
    keeps_setF (keeps_setF (keeps_setF (keeps_setF hlive (by decide)) (by decide)) (by decide)) (by decide)
  exact keeps_setFrame (keeps_setF hidle (by decide))

theorem keeps_switchSides {ready : Bool} (h : Keeps s t) : Keeps s (switchSides t ready) := by
  rw [switchSides_eq]
  exact keeps_showEmpty (keeps_servePending (keeps_flds (keeps_ite (keeps_takeSide h) h) swapTables_flds))

theorem keeps_sendReport {r : FrameReport} (h : Keeps s t) : Keeps s (sendReport t r) := by
  have hnoted : Keeps s (noteReport t r) := keeps_ite (keeps_setSpan (keeps_setSpan h)) (keeps_ite (keeps_setSpan (keeps_setSpan h)) (keeps_setSpan h))
  exact keeps_ite h (keeps_ite (keeps_setSpan hnoted) (keeps_trans hnoted (keeps_of_ctrlOnly ctrlOnly_sendCtrl)))

/-! ### Namings (R53, R158, R162) -/

theorem keeps_clearLens (h : Keeps s t) : Keeps s (clearLens t n) := keeps_flds h rfl

theorem keeps_stopLoads (h : Keeps s t) : Keeps s (stopLoads t) :=
  keeps_setF (keeps_setF (keeps_setF (keeps_ite (keeps_clearLens (keeps_flds h rfl)) h) (by decide)) (by decide)) (by decide)

/-- A naming that is dropped, where one is, leaves the fields of the idle side alone. -/
theorem keeps_applyNaming_none (h : Keeps s t) : Keeps s (applyNaming t none) := by
  have hstopped : Keeps s (stopLoads (setFrame t { t.frame with named := none, namedAt := frameNow t })) := keeps_stopLoads (keeps_setFrame h)
  exact keeps_ite h (keeps_updateReady (keeps_setF (keeps_setF (keeps_setF (keeps_setF (keeps_showEmpty
    (keeps_ite hstopped (keeps_setFrame hstopped))) (by decide)) (by decide)) (by decide)) (by decide)))

theorem keeps_renewNaming (h : Keeps s t) : Keeps s (renewNaming t) := by
  unfold renewNaming
  split
  · exact keeps_updateReady h
  · exact keeps_ite (keeps_updateReady h) (keeps_applyNaming_none h)

theorem keeps_dropExcluded (h : Keeps s t) : Keeps s (dropExcluded t) :=
  have hrenewed := keeps_renewNaming h
  keeps_ite (keeps_showEmpty (keeps_setFrame hrenewed)) hrenewed

end
end Sys2Proof.Proofs

/-! SUPPORT. Requests for a change of mode (R182, R183): a refused one shows why, an accepted one is pending and announces the period that it brings. -/
namespace Sys2Proof.Proofs
open Sys2Proof Sys2Proof.Machine

section
variable {s t : State} {target why n : Nat} {r : Requester}

theorem exec_modeRequest : exec (.modeRequest target r) s = .next (modeRequest target r s) := rfl
theorem exec_modeChangeApply : exec .modeChangeApply s = .next (modeChangeApply s) := rfl

/-! ### Refused requests -/

theorem modeRequest_refused (h : modeRefused s target r = some why) :
    modeRequest target r s = setF (raise (if why = 3 then deny s 2 r else s) F.CFG_STAT_MODE_REFUSED) F.CFG_MODE_STAT_REFUSE_WHY why := by
  unfold modeRequest
  rw [h]

/-- Every reason of R182 fits its field. -/
theorem modeRefused_lt (h : modeRefused s target r = some why) : why < 2 ^ 4 := by
  have hfits {n : Nat} (hn : n < 2 ^ 4) (he : some n = some why) : why < 2 ^ 4 := Option.some.inj he ▸ hn
  unfold modeRefused at h
  split_ifs at h
  · exact hfits (by decide) h
  · exact hfits (by decide) h
  · exact hfits (by decide) h
  · exact hfits (by decide) h
  · exact hfits (by decide) h
  · split at h
    · exact hfits (by decide) h
    · split_ifs at h
      exact hfits (by decide) h

theorem fieldsKept_deny {a : Nat} : fieldsKept denyFields s (deny s a r) :=
  fieldsKept_setF (fieldsKept_setF (fieldsKept_capture (by simp [denyFields])) (by simp [denyFields])) (by simp [denyFields])

theorem capturesOnly_deny {a : Nat} : CapturesOnly s (deny s a r) := capturesOnly_setF (capturesOnly_setF capturesOnly_capture)

/-- A refused request shows why, and a denied one is noted; nothing else changes (R182, R477). -/
theorem modeRequest_shows_why (h : s.fieldsCanonical = true) (hwhy : modeRefused s target r = some why) : ∃ t,
    exec (.modeRequest target r) s = .next t ∧ isSet t F.CFG_STAT_MODE_REFUSED = true ∧ getF t F.CFG_MODE_STAT_REFUSE_WHY = why ∧
    fieldsKept ([F.CFG_STAT_MODE_REFUSED, F.CFG_MODE_STAT_REFUSE_WHY] ++ denyFields) s t ∧ t = { s with flds := t.flds, caps := t.caps } := by
  have hdenied : fieldsKept denyFields s (if why = 3 then deny s 2 r else s) := fieldsKept_ite fieldsKept_deny fieldsKept_refl
  have hrest : CapturesOnly s (if why = 3 then deny s 2 r else s) := by
    split
    · exact capturesOnly_deny
    · exact ⟨_, _, rfl⟩
  have hcanon : (if why = 3 then deny s 2 r else s).fieldsCanonical := ite_canonical (deny_canonical h) h
  refine ⟨_, exec_modeRequest, ?_⟩
  rw [modeRequest_refused hwhy]
  generalize (if why = 3 then deny s 2 r else s) = u at hdenied hrest hcanon ⊢
  refine ⟨?_, ?_, ?_, ?_⟩
  · exact (isSet_congr (Laws.getF_setF_other _ _ _ _ (by decide))).trans (Laws.isSet_raise _ _ (Laws.smapWf_iff.1 hcanon).1 (by decide))
  · rw [getF_setF (raise_canonical hcanon), if_pos rfl]
    exact Nat.mod_eq_of_lt (modeRefused_lt hwhy)
  · exact fieldsKept_setF (fieldsKept_setF (fieldsKept_mono hdenied (List.subset_append_right _ _)) (by simp)) (by simp)
  · obtain ⟨_, _, hu⟩ := capturesOnly_setF (f := F.CFG_MODE_STAT_REFUSE_WHY) (x := why) (capturesOnly_setF (f := F.CFG_STAT_MODE_REFUSED) (x := 1) hrest)
    rw [raise, hu]

/-! ### Accepted requests -/

/-- A request that is not refused asks for one of the five modes (R180, R182). -/
theorem target_lt_of_accepted (h : modeRefused s target r = none) : target < 5 := by
  unfold modeRefused at h
  split_ifs at h
  omega

/-- A mode's period is the present one, or one of those that R50 permits. -/
theorem modePeriod_cases : modePeriod s target = getF s F.TICK_PERIOD_PERIOD_US ∨ modePeriod s target ≤ 16000 := by
  unfold modePeriod
  refine List.foldlRecOn (motive := fun p => p = getF s F.TICK_PERIOD_PERIOD_US ∨ p ≤ 16000) _ _ (.inl rfl) fun p hp m _ => ?_
  dsimp only
  split_ifs with hm
  · simp only [Bool.and_eq_true, decide_eq_true_eq] at hm
    exact .inr hm.2
  · exact hp

theorem modePeriod_congr (hmodes : t.modes = s.modes) (hperiod : getF t F.TICK_PERIOD_PERIOD_US = getF s F.TICK_PERIOD_PERIOD_US) :
    modePeriod t target = modePeriod s target := by
  unfold modePeriod
  rw [hmodes, hperiod]

/-- The registers show the pending mode, and the shutter is closed where that mode serves no requests (R183). -/
def showPend (s : State) (target : Nat) : State :=
  let s := setF (raise s F.CFG_MODE_STAT_PEND) F.CFG_MODE_STAT_TARGET target
  if servesRequests target then s else raise s F.ADM_SHUT_MODE

/-- Beside the registers, a pending change notes the frame in which it was asked for and stamps the request (R183). -/
theorem pendMode_eq : ∃ cnt ahead events, pendMode s target n none = { showPend s target with
    frame := { s.frame with modeAskedAt := n }, stampCnt := cnt, stampAhead := ahead, events := events } := by
  unfold pendMode showPend stampCaused countStamp
  dsimp only
  split_ifs <;> exact ⟨_, _, _, rfl⟩

theorem fieldsOnly_showPend : FieldsOnly s (showPend s target) :=
  fieldsOnly_ite (fieldsOnly_setF (fieldsOnly_setF fieldsOnly_refl)) (fieldsOnly_setF (fieldsOnly_setF (fieldsOnly_setF fieldsOnly_refl)))

theorem fieldsKept_showPend : fieldsKept [F.CFG_MODE_STAT_PEND, F.CFG_MODE_STAT_TARGET, F.ADM_SHUT_MODE] s (showPend s target) :=
  have hset : fieldsKept [F.CFG_MODE_STAT_PEND, F.CFG_MODE_STAT_TARGET, F.ADM_SHUT_MODE] s
      (setF (raise s F.CFG_MODE_STAT_PEND) F.CFG_MODE_STAT_TARGET target) :=
    fieldsKept_setF (fieldsKept_setF fieldsKept_refl (by simp)) (by simp)
  fieldsKept_ite hset (fieldsKept_setF hset (by simp))

theorem showPend_shows (h : s.fieldsCanonical) (htarget : target < 5) : isSet (showPend s target) F.CFG_MODE_STAT_PEND = true ∧
    getF (showPend s target) F.CFG_MODE_STAT_TARGET = target ∧
    (servesRequests target = false → isSet (showPend s target) F.ADM_SHUT_MODE = true) := by
  have hset : (setF (raise s F.CFG_MODE_STAT_PEND) F.CFG_MODE_STAT_TARGET target).fieldsCanonical := setF_canonical (raise_canonical h)
  have hkept : fieldsKept [F.ADM_SHUT_MODE] (setF (raise s F.CFG_MODE_STAT_PEND) F.CFG_MODE_STAT_TARGET target) (showPend s target) :=
    fieldsKept_ite fieldsKept_refl (fieldsKept_setF fieldsKept_refl (by simp))
  refine ⟨?_, ?_, fun hserves => ?_⟩
  · exact (isSet_congr ((hkept _ (by decide)).trans (Laws.getF_setF_other _ _ _ _ (by decide)))).trans
      (Laws.isSet_raise _ _ (Laws.smapWf_iff.1 h).1 (by decide))
  · rw [hkept _ (by decide), getF_setF (raise_canonical h), if_pos rfl]
    exact Nat.mod_eq_of_lt (Nat.lt_trans htarget (by decide))
  · unfold showPend
    rw [if_neg (by simp [hserves])]
    exact Laws.isSet_raise _ _ (Laws.smapWf_iff.1 hset).1 (by decide)

/-- The notice of a period (R50). -/
def showPeriod (s : State) (p n : Nat) : State :=
  if p = getF s F.TICK_PERIOD_PERIOD_US then s else setF (setF s F.TICK_PERIOD_NEXT_US p) F.TICK_PERIOD_AT n

theorem fieldsOnly_showPeriod {p : Nat} : FieldsOnly s (showPeriod s p n) :=
  fieldsOnly_ite fieldsOnly_refl (fieldsOnly_setF (fieldsOnly_setF fieldsOnly_refl))

theorem fieldsKept_showPeriod {p : Nat} : fieldsKept [F.TICK_PERIOD_NEXT_US, F.TICK_PERIOD_AT] s (showPeriod s p n) :=
  fieldsKept_ite fieldsKept_refl (fieldsKept_setF (fieldsKept_setF fieldsKept_refl (by simp)) (by simp))

theorem showPeriod_shows {p : Nat} (h : s.fieldsCanonical) (hp : p ≠ getF s F.TICK_PERIOD_PERIOD_US) (hlt : p < 2 ^ 14) :
    getF (showPeriod s p n) F.TICK_PERIOD_NEXT_US = p ∧ getF (showPeriod s p n) F.TICK_PERIOD_AT = n % 2 ^ 48 := by
  unfold showPeriod
  rw [if_neg hp]
  refine ⟨?_, (getF_setF (setF_canonical h)).trans (if_pos rfl)⟩
  rw [Laws.getF_setF_other _ _ _ _ (by decide), getF_setF h, if_pos rfl]
  exact Nat.mod_eq_of_lt hlt

/-- Outside a span the announcement is the frame's note and the notice of the period alone (R50, R182). -/
theorem announceMode_alone (hspan : inSpan s = false) : announceMode s =
    showPeriod (setFrame s { s.frame with modeAskedAt := frameNow s, modeHeld := false }) (modePeriod s (getF s F.CFG_MODE_STAT_TARGET))
      (frameNow s + 2) := by
  unfold announceMode
  dsimp only
  rw [if_neg (by exact Bool.eq_false_iff.1 hspan)]
  unfold announcePeriod showPeriod
  dsimp only
  have hkept : inSpan (setF (setF (setFrame s { s.frame with modeAskedAt := frameNow s, modeHeld := false }) F.TICK_PERIOD_NEXT_US
      (modePeriod s (getF s F.CFG_MODE_STAT_TARGET))) F.TICK_PERIOD_AT (frameNow s + 2)) = false :=
    (inSpan_congr ((Laws.getF_setF_other _ _ _ _ (by decide)).trans (Laws.getF_setF_other _ _ _ _ (by decide)))).trans hspan
  exact congrArg (ite _ _) (if_neg (Bool.eq_false_iff.1 hkept))

/-- The frame notes a change asked for now and announced, beside stamps `cnt` and `ahead` and events `events`. -/
def noteAsked (s : State) (cnt ahead : List (Nat × Nat)) (events : List (Stamp × EventKind)) : State :=
  { s with frame := { s.frame with modeAskedAt := frameNow s, modeHeld := false }, stampCnt := cnt, stampAhead := ahead, events := events }

/-- An accepted request is pending, and announced at once outside a span (R182, R183). -/
theorem modeRequest_accepted (h : s.fieldsCanonical) (hask : modeRefused s target r = none) (hspan : inSpan s = false) : ∃ cnt ahead events,
    modeRequest target r s = showPeriod (noteAsked (showPend s target) cnt ahead events) (modePeriod s target) (frameNow s + 2) := by
  obtain ⟨cnt, ahead, events, hpend⟩ := pendMode_eq (s := s) (target := target) (n := frameNow s)
  obtain ⟨_, htarget, -⟩ := showPend_shows h (target_lt_of_accepted hask)
  have hkept {f : Fld} (hf : ∀ g ∈ [F.CFG_MODE_STAT_PEND, F.CFG_MODE_STAT_TARGET, F.ADM_SHUT_MODE], g.key ≠ f.key) :
      getF (pendMode s target (frameNow s) none) f = getF s f := by
    rw [hpend]
    exact fieldsKept_showPend f hf
  have hmodes : (pendMode s target (frameNow s) none).modes = s.modes := by
    obtain ⟨_, hl⟩ := fieldsOnly_showPend (s := s) (target := target)
    rw [hpend, hl]
  have halone : inSpan (pendMode s target (frameNow s) none) = false := (inSpan_congr (hkept (by decide))).trans hspan
  have hnow : frameNow (pendMode s target (frameNow s) none) = frameNow s := hkept (by decide)
  have hasked : getF (pendMode s target (frameNow s) none) F.CFG_MODE_STAT_TARGET = target := by
    rw [hpend]
    exact htarget
  refine ⟨cnt, ahead, events, ?_⟩
  unfold modeRequest
  rw [hask]
  refine (if_neg (by simp [halone])).trans ?_
  rw [announceMode_alone halone, hasked, modePeriod_congr hmodes (hkept (by decide)), hnow, hpend]
  obtain ⟨l, hl⟩ := fieldsOnly_showPend (s := s) (target := target)
  have hlater : frameNow { s with flds := l } = frameNow s := by
    rw [← hl]
    exact fieldsKept_showPend _ (by decide)
  rw [hl, noteAsked, hlater]
  rfl

/-- An accepted request is pending, its shutter closed where the new mode serves none; a period that the mode brings is announced for the second tick
from now (R50, R183). -/
theorem modeRequest_pends (h : s.fieldsCanonical = true) (hask : modeRefused s target r = none) (hspan : inSpan s = false) : ∃ t,
    exec (.modeRequest target r) s = .next t ∧ isSet t F.CFG_MODE_STAT_PEND = true ∧ getF t F.CFG_MODE_STAT_TARGET = target ∧
    (servesRequests target = false → isSet t F.ADM_SHUT_MODE = true) ∧
    (modePeriod s target = getF s F.TICK_PERIOD_PERIOD_US → getF t F.TICK_PERIOD_NEXT_US = getF s F.TICK_PERIOD_NEXT_US ∧
      getF t F.TICK_PERIOD_AT = getF s F.TICK_PERIOD_AT) ∧
    (modePeriod s target ≠ getF s F.TICK_PERIOD_PERIOD_US → getF t F.TICK_PERIOD_NEXT_US = modePeriod s target ∧
      getF t F.TICK_PERIOD_AT = (getF s F.TICK_NOW + 2) % 2 ^ 48) ∧
    t.frame = { s.frame with modeAskedAt := getF s F.TICK_NOW, modeHeld := false } ∧
    fieldsKept [F.CFG_MODE_STAT_PEND, F.CFG_MODE_STAT_TARGET, F.ADM_SHUT_MODE, F.TICK_PERIOD_NEXT_US, F.TICK_PERIOD_AT] s t ∧
    t.mem = s.mem ∧ t.adm = s.adm ∧ t.cells = s.cells := by
  obtain ⟨cnt, ahead, events, heq⟩ := modeRequest_accepted h hask hspan
  obtain ⟨hpend, htarget, hshut⟩ := showPend_shows h (target_lt_of_accepted hask)
  obtain ⟨l, hl⟩ := fieldsOnly_showPend (s := s) (target := target)
  have hkept : fieldsKept [F.CFG_MODE_STAT_PEND, F.CFG_MODE_STAT_TARGET, F.ADM_SHUT_MODE] s (showPend s target) := fieldsKept_showPend
  have hcanon : (showPend s target).fieldsCanonical := ite_canonical (setF_canonical (raise_canonical h))
    (raise_canonical (setF_canonical (raise_canonical h)))
  generalize showPend s target = p at *
  subst hl
  let u : State := noteAsked { s with flds := l } cnt ahead events
  have hnoted {f : Fld} : getF u f = getF { s with flds := l } f := rfl
  have hshown : fieldsKept [F.TICK_PERIOD_NEXT_US, F.TICK_PERIOD_AT] u (showPeriod u (modePeriod s target) (frameNow s + 2)) := fieldsKept_showPeriod
  obtain ⟨_, hrest⟩ := fieldsOnly_showPeriod (s := u) (n := frameNow s + 2) (p := modePeriod s target)
  have hperiod : getF u F.TICK_PERIOD_PERIOD_US = getF s F.TICK_PERIOD_PERIOD_US := hkept _ (by decide)
  refine ⟨_, exec_modeRequest, ?_⟩
  rw [heq]
  refine ⟨?_, ?_, fun hserves => ?_, fun hsame => ?_, fun hdiff => ?_, ?_, ?_, ?_, ?_, ?_⟩
  · exact (isSet_congr (hshown _ (by decide))).trans hpend
  · exact (hshown _ (by decide)).trans htarget
  · exact (isSet_congr (hshown _ (by decide))).trans (hshut hserves)
  · have hnone : showPeriod u (modePeriod s target) (frameNow s + 2) = u := if_pos (hsame.trans hperiod.symm)
    exact ⟨(congrArg (getF · _) hnone).trans (hkept _ (by decide)), (congrArg (getF · _) hnone).trans (hkept _ (by decide))⟩
  · exact showPeriod_shows (s := u) hcanon (hperiod.symm ▸ hdiff)
      (Nat.lt_of_le_of_lt (modePeriod_cases.resolve_left hdiff) (by decide))
  · have hnow : frameNow { s with flds := l } = getF s F.TICK_NOW := hkept _ (by decide)
    rw [hrest, ← hnow]
    rfl
  · exact fieldsKept_trans (t := u) (fieldsKept_mono hkept (by simp)) (fieldsKept_mono hshown (by simp))
  · rw [hrest]
    rfl
  · rw [hrest]
    rfl
  · rw [hrest]
    rfl

end
end Sys2Proof.Proofs

/-! SUPPORT. A change of mode as it applies (R181, R183): the overlay's settings leave the mode's own fields alone, and so does what follows from them for the
span, the ports, the plan and the sides. -/
namespace Sys2Proof.Proofs
open Sys2Proof Sys2Proof.Machine

section
variable {s t u : State} {p n mode : Nat}

/-! ### The settings of a mode (R181) -/

/-- The key of a field that the image loads names its register's offset, or, in a high half, that of the low one. -/
theorem image_keyOff : regTable.all (fun r => r.fields.all (fun f =>
    f.src != .image || ((f.keyOff == r.off || f.keyOff + 4 == r.off) && decide (f.keyLo < 32)))) = true := by decide +kernel

theorem image_key {r : RegSpec} {f : FieldSpec} {d : Nat} (hr : r ∈ regTable) (hf : f ∈ r.fields) (hsrc : f.src = .image) :
    f.key d / 32 = r.off + d ∨ f.key d / 32 + 4 = r.off + d := by
  have hkey := List.all_eq_true.1 (List.all_eq_true.1 image_keyOff r hr) f hf
  simp only [hsrc, bne_self_eq_false, Bool.false_or, Bool.and_eq_true, Bool.or_eq_true, beq_iff_eq, decide_eq_true_eq] at hkey
  unfold FieldSpec.key
  omega

/-- No register that an overlay may hold is one of a verdict or of a change of mode. -/
theorem key_ne_of_overlay {g : Fld} {off k : Nat} (hg : g ∈ verdictModeFields) (hoff : isOverlayReg off = true) (hk : k / 32 = off ∨ k / 32 + 4 = off) :
    g.key ≠ k := by
  have hnone : ∀ g ∈ verdictModeFields, isOverlayReg (g.key / 32) = false ∧ isOverlayReg (g.key / 32 + 4) = false := by decide
  rintro rfl
  obtain ⟨hlow, hhigh⟩ := hnone g hg
  rcases hk with rfl | rfl
  · exact Bool.false_ne_true (hlow.symm.trans hoff)
  · exact Bool.false_ne_true (hhigh.symm.trans hoff)

theorem keeps_fieldSet {r : RegSpec} {f : FieldSpec} {d x : Nat} (h : Keeps s t) (hr : r ∈ regTable) (hf : f ∈ r.fields.filter (fun f => f.src = .image))
    (hoff : isOverlayReg (r.off + d) = true) : Keeps s (fieldSet t f d x) := by
  obtain ⟨hmem, hsrc⟩ := List.mem_filter.1 hf
  exact keeps_trans h fun g hg =>
    Laws.smapGet_set_other fldReset t.flds _ _ _ (key_ne_of_overlay hg hoff (image_key hr hmem (of_decide_eq_true hsrc)))

theorem findReg_eq_some {off d : Nat} {r : RegSpec} (h : findReg off = some (r, d)) : r ∈ regTable ∧ r.off + d = off := by
  obtain ⟨q, hq, heq⟩ := Option.map_eq_some_iff.1 h
  obtain ⟨rfl, rfl⟩ := Prod.mk.inj heq
  have hat := List.find?_some hq
  simp only [RegSpec.at, Bool.and_eq_true, decide_eq_true_eq] at hat
  exact ⟨List.mem_of_find?_eq_some hq, by omega⟩

theorem keeps_loadImageReg {off v : Nat} (h : Keeps s t) (hoff : isOverlayReg off = true) : Keeps s (loadImageReg t off v) := by
  unfold loadImageReg
  split
  · next r d hfound =>
    obtain ⟨hr, hd⟩ := findReg_eq_some hfound
    exact keeps_foldl h fun t ht f hf => keeps_ite (keeps_fieldSet ht hr hf (hd.symm ▸ hoff)) ht
  · exact h

theorem keeps_loadRegs {l : List ModeRecord} (h : Keeps s t) : Keeps s (loadRegs false l t) := by
  refine keeps_foldl h fun t ht r _ => ?_
  dsimp only
  split
  · next hoff => exact keeps_loadImageReg ht (by simpa using hoff)
  · exact ht

theorem keeps_clearSettings (h : Keeps s t) : Keeps s (clearSettings t) := by
  refine keeps_foldl h fun t ht r hr => ?_
  split
  · next hoff => exact keeps_foldl ht fun t ht f hf => keeps_fieldSet (d := 0) ht hr hf hoff
  · exact ht

theorem clientUpd_flds {g : ClientRec → ClientRec} : (clientUpd s n g).flds = s.flds := by
  unfold clientUpd
  dsimp only
  split_ifs <;> rfl

theorem keeps_loadPlan {rd : Nat → Nat} (h : Keeps s t) : Keeps s (loadPlan rd t) :=
  have hclients := keeps_foldl (l := List.range 4096) (g := fun s c => clientUpd s c (planClient rd c))
    (keeps_flds (u := { t with adm := { t.adm with plan := planOf rd } }) h rfl) fun _ ht _ _ => keeps_flds ht clientUpd_flds
  keeps_setF (keeps_setF (keeps_setF (keeps_setF (keeps_setF hclients (by decide)) (by decide)) (by decide)) (by decide)) (by decide)

theorem keeps_resizeRegions (h : Keeps s t) : Keeps s (resizeRegions t) := by
  refine keeps_foldl h fun t ht q _ => ?_
  split
  · exact keeps_ite ht (keeps_setMem ht)
  · exact ht

theorem keeps_settleSpan (h : Keeps s t) : Keeps s (settleSpan t) := by
  unfold settleSpan
  extract_lets big shown master marked
  have hmarked : Keeps s marked := keeps_setF (keeps_setF h (by decide)) (by decide)
  exact keeps_ite (keeps_setF hmarked (by decide)) hmarked

/-- Mode `mode` is in force, with the shutter that it closes, and no change of period is announced (R181, R415). -/
def showMode (s : State) (mode : Nat) : State :=
  let s := setBool s F.ADM_SHUT_MODE (!servesRequests mode)
  setF (setF s F.CFG_MODE mode) F.TICK_PERIOD_NEXT_US (getF s F.TICK_PERIOD_PERIOD_US)

/-- A mode's settings, tables and plan are loaded beside these fields, and then the mode is shown. -/
theorem applyMode_loads (h : s.fieldsCanonical) : ∃ u, Keeps s u ∧ u.fieldsCanonical ∧ applyMode false mode s = settleSpan (showMode u mode) := by
  unfold applyMode
  extract_lets base ovl loaded chans words span tabled planned served
  have hloaded : Keeps s loaded := keeps_loadRegs (keeps_loadRegs (keeps_ite keeps_refl (keeps_clearSettings keeps_refl)))
  have hcanon : loaded.fieldsCanonical := loadRegs_canonical (loadRegs_canonical (ite_canonical h (clearSettings_canonical h)))
  have hplanned : Keeps s planned := by
    unfold planned
    split <;> exact keeps_resizeRegions (keeps_loadPlan (keeps_setSpan hloaded))
  have cplanned : planned.fieldsCanonical := by
    unfold planned
    split <;> exact resizeRegions_canonical (loadPlan_canonical (setSpan_canonical hcanon))
  exact ⟨planned, hplanned, cplanned, rfl⟩

/-- The mode shown, the shutter that it closes, and the tick's number after a mode's settings have been applied. -/
theorem applyMode_shows (h : s.fieldsCanonical) : getF (applyMode false mode s) F.CFG_MODE = mode % 8 ∧
    isSet (applyMode false mode s) F.ADM_SHUT_MODE = !servesRequests mode ∧ getF (applyMode false mode s) F.TICK_NOW = getF s F.TICK_NOW := by
  obtain ⟨u, hset, hcanon, heq⟩ := applyMode_loads (mode := mode) h
  have hshut : (setBool u F.ADM_SHUT_MODE (!servesRequests mode)).fieldsCanonical := setBool_canonical hcanon
  have hkept : Keeps (setF (setBool u F.ADM_SHUT_MODE (!servesRequests mode)) F.CFG_MODE mode) (applyMode false mode s) :=
    heq ▸ keeps_settleSpan (keeps_setF keeps_refl (by decide))
  refine ⟨?_, ?_, ?_⟩
  · rw [hkept _ (by decide), getF_setF hshut, if_pos rfl]
    rfl
  · rw [isSet_congr (hkept _ (by decide)), isSet_congr (Laws.getF_setF_other _ _ _ _ (by decide)), isSet, setBool, getF_setF hcanon, if_pos rfl]
    cases servesRequests mode <;> rfl
  · rw [hkept _ (by decide), Laws.getF_setF_other _ _ _ _ (by decide), setBool, Laws.getF_setF_other _ _ _ _ (by decide), hset _ (by decide)]

/-! ### What follows from them for the span and the ports (R336, R378) -/

theorem keeps_freshSpan (h : Keeps s t) : Keeps s (freshSpan t) := by
  have hlost := keeps_foldl (l := List.range 32) (g := fun s k => setF s (F.SPAN_LOST k) 0) h fun t ht k hk => by
    have := List.mem_range.1 hk
    exact keeps_setF_port ht (by omega)
  exact keeps_setSpan (keeps_setF (keeps_setF (keeps_setF hlost (by decide)) (by decide)) (by decide))

/-- An operation that leaves these fields at each lane of a port. -/
theorem keeps_lanes {g : State → Nat → State} (h : Keeps s t) (hg : ∀ t, Keeps s t → ∀ l < 8, Keeps s (g t l)) :
    Keeps s ((List.range 8).foldl g t) :=
  keeps_foldl h fun t ht l hl => hg t ht l (List.mem_range.1 hl)

section
variable (hp : p < 16)
include hp

theorem keeps_setTxMap {m : Nat} (h : Keeps s t) : Keeps s (setTxMap t p m) := by
  unfold setTxMap
  exact keeps_lanes (keeps_setF_port (keeps_setF_port h (by omega)) (by omega)) fun _ ht _ _ => keeps_setF_port ht (by omega)

theorem keeps_setRxMap {m : Nat} (h : Keeps s t) : Keeps s (setRxMap t p m) := by
  unfold setRxMap
  exact keeps_lanes (keeps_setF_port (keeps_setF_port h (by omega)) (by omega)) fun _ ht _ _ => keeps_setF_port ht (by omega)

theorem keeps_clearLoss (h : Keeps s t) : Keeps s (clearLoss t p) :=
  keeps_lanes h fun _ ht _ _ =>
    have hshown := keeps_setF_port (keeps_setF_port ht (by omega)) (by omega)
    keeps_ite (keeps_setF_port hshown (by omega)) hshown

theorem keeps_beginTraining (h : Keeps s t) : Keeps s (beginTraining t p n) :=
  have hstate : Keeps s (lower (setF t (F.LNK_STAT_STATE p) n) (F.LNK_PEER_VALID p)) := keeps_setF_port (keeps_setF_port h (by omega)) (by omega)
  keeps_setLink (keeps_setF (keeps_clearLoss hp (keeps_setRxMap hp (keeps_setTxMap hp hstate))) (by decide))

theorem keeps_failBoardReqs {pick : BoardReq → Bool} (h : Keeps s t) : Keeps s (failBoardReqs t p pick) :=
  keeps_foldl (keeps_setLink h) fun _ ht _ _ => keeps_setF_port (keeps_flds ht rfl) (by omega)

end

theorem keeps_parentLeft (h : Keeps s t) : Keeps s (parentLeft t p) := by
  have hlost : Keeps s (if p = parentPort t ∧ t.span.pathLostAt = none then setSpan t { t.span with pathLostAt := some (devNow t) } else t) :=
    keeps_ite (keeps_setSpan h) h
  exact keeps_ite h (keeps_ite (keeps_setF (keeps_setF hlost (by decide)) (by decide)) hlost)

theorem keeps_projectSends {w d : Nat} (h : Keeps s t) : Keeps s (projectSends t p w d) := keeps_ite (keeps_trans h keeps_askStretch) h

theorem keeps_enterRetrain (hp : p < 16) (h : Keeps s t) : Keeps s (enterRetrain t p) := by
  have hcount : Keeps s (bump t (F.LNK_CNT_RETRAIN p)) := keeps_setF_port h (by omega)
  unfold enterRetrain
  exact keeps_projectSends (keeps_parentLeft (keeps_failBoardReqs hp (keeps_beginTraining hp hcount)))

theorem keeps_endTest (hp : p < 16) (h : Keeps s t) : Keeps s (endTest t p) :=
  keeps_lanes (keeps_setLink h) fun _ ht _ _ => keeps_setF_port ht (by omega)

theorem keeps_retrainPort (hp : p < 16) (h : Keeps s t) : Keeps s (retrainPort t p) :=
  have hended : Keeps s (if portState t p = 4 then endTest t p else t) := keeps_ite (keeps_endTest hp h) h
  keeps_ite h (keeps_ite (keeps_enterRetrain hp h) (keeps_beginTraining hp (keeps_setF_port hended (by omega))))

/-! ### What follows for the plan and the sides (R53, R158, R183) -/

theorem keeps_discardExcluded (h : Keeps s t) : Keeps s (discardExcluded t mode) := by
  unfold discardExcluded
  extract_lets c out cleared q dropped
  have hcleared : Keeps s cleared := keeps_ite (keeps_flds h rfl) h
  have hdropped : Keeps s dropped := keeps_ite (keeps_flds hcleared rfl) hcleared
  exact keeps_dropExcluded hdropped

theorem keeps_rejectConfig {g : CheckFail} (h : Keeps s t) : Keeps s (rejectConfig t g n) :=
  keeps_setF (keeps_setF (keeps_capture h (by simp only [List.forall_mem_cons]; decide)) (by decide)) (by decide)

theorem keeps_rebusy {b : Bool} (h : Keeps s t) : Keeps s (rebusy t b) :=
  keeps_issueReads (keeps_setF h (by cases b <;> decide))

theorem keeps_endJob {model epoch : Nat} (h : Keeps s t) : Keeps s (endJob t model epoch) := by
  unfold endJob
  split
  · exact keeps_rebusy (keeps_setMem h)
  · exact h

theorem keeps_markUnusable {model epoch : Nat} (h : Keeps s t) : Keeps s (markUnusable t model epoch) := by
  have hmarked : Keeps s (setMem t (dirUpdEpoch t.mem model epoch (fun e => { e with unusable := true }))) := keeps_setMem h
  exact keeps_trans (keeps_ite (keeps_setMem (keeps_endJob hmarked)) hmarked) (keeps_of_reqsOnly (reqsOnly_failWhere reqsOnly_refl))

theorem keeps_recheckPlan (h : Keeps s t) : Keeps s (recheckPlan t) := by
  refine keeps_renewNaming (keeps_foldl h fun t ht r _ => ?_)
  extract_lets bad badRoute rejected noted
  have hrejected : Keeps s rejected := keeps_foldl ht fun _ ht _ _ => keeps_rejectConfig ht
  have hnoted : Keeps s noted := keeps_setMem hrejected
  exact keeps_ite hnoted (keeps_markUnusable hnoted)

theorem rebasePlan_flds : (rebasePlan s).flds = s.flds := rfl

theorem keeps_bootCap (h : Keeps s t) : Keeps s (bootCap t) := keeps_ite (keeps_setPwr h) h

theorem keeps_showCap (h : Keeps s t) : Keeps s (showCap t) := keeps_setF h (by decide)

/-! ### The change (R183) -/

/-- Where no change is due, or the frame before aborted, a change of mode waits. -/
theorem modeChangeApply_waits (h : changeDue s (getF s F.TICK_NOW) = false ∨ s.frame.prevAborted = true) : modeChangeApply s = s :=
  if_pos (by rcases h with h | h <;> simp [frameNow, h])

/-- The registers show that the change is done, at this tick (R183 step 6). -/
def showDone (s : State) : State := setF (raise s F.CFG_STAT_MODE_DONE) F.CFG_MODE_AT (frameNow s)

/-- A change that is due applies the mode's settings; what follows from them leaves these fields, the change is pending no more, and then it is shown. -/
theorem modeChangeApply_due (h : s.fieldsCanonical) (hdue : changeDue s (getF s F.TICK_NOW) = true) (hprev : s.frame.prevAborted = false)
    (hlive : s.frame.hasLive = false) (hcif : getF s F.TICK_CIF_CIF = 0) : ∃ u v,
    Keeps (applyMode false (getF s F.CFG_MODE_STAT_TARGET) s) u ∧ u.fieldsCanonical ∧
    Keeps (lower u F.CFG_MODE_STAT_PEND) v ∧ v.fieldsCanonical ∧ Keeps (showDone v) (modeChangeApply s) := by
  unfold modeChangeApply
  rw [if_neg (by simp [frameNow, hdue, hprev, hlive, hcif])]
  extract_lets target old before applied settled trained timed checked lowered shown done
  have cp : applied.fieldsCanonical := applyMode_canonical h
  have hsettled : Keeps applied settled := keeps_ite keeps_refl (keeps_freshSpan keeps_refl)
  have cs : settled.fieldsCanonical := ite_canonical cp (freshSpan_canonical cp)
  have htrained : Keeps applied trained := keeps_foldl hsettled fun _ ht _ hp => keeps_retrainPort (List.mem_range.1 hp) ht
  have ct : trained.fieldsCanonical := foldl_canonical (fun _ ht _ => retrainPort_canonical ht) cs
  have htimed : Keeps applied timed := keeps_setF htrained (by decide)
  have hfailed : Keeps applied (failInfeasible before timed) := keeps_trans htimed (keeps_of_reqsOnly reqsOnly_failInfeasible)
  have hchecked : Keeps applied checked := keeps_recheckPlan (keeps_flds (keeps_discardExcluded hfailed) rebasePlan_flds)
  have cc : checked.fieldsCanonical :=
    recheckPlan_canonical (rebasePlan_canonical (discardExcluded_canonical (failInfeasible_canonical (setF_canonical ct))))
  have cl : lowered.fieldsCanonical := setF_canonical cc
  refine ⟨checked, shown, hchecked, cc, keeps_ite keeps_refl (keeps_setF keeps_refl (by decide)), ite_canonical cl (setF_canonical cl), ?_⟩
  exact keeps_planPoints (keeps_showCap (keeps_bootCap (keeps_stampEvent keeps_refl)))

/-- At the tick where it is due, with the frame before not aborted, the mode changes (R183). -/
theorem modeChangeApply_changes (h : s.fieldsCanonical = true) (hdue : changeDue s (getF s F.TICK_NOW) = true) (hprev : s.frame.prevAborted = false)
    (hlive : s.frame.hasLive = false) (hcif : getF s F.TICK_CIF_CIF = 0) : ∃ t, exec .modeChangeApply s = .next t ∧
    getF t F.CFG_MODE = getF s F.CFG_MODE_STAT_TARGET % 8 ∧ isSet t F.CFG_MODE_STAT_PEND = false ∧
    isSet t F.ADM_SHUT_MODE = !servesRequests (getF s F.CFG_MODE_STAT_TARGET) ∧
    isSet t F.CFG_STAT_MODE_DONE = true ∧ getF t F.CFG_MODE_AT = getF s F.TICK_NOW % 2 ^ 48 := by
  obtain ⟨u, v, hu, cu, hv, cv, ht⟩ := modeChangeApply_due h hdue hprev hlive hcif
  obtain ⟨hmode, hshut, hnow⟩ := applyMode_shows (mode := getF s F.CFG_MODE_STAT_TARGET) h
  have hshown {f : Fld} (hf : f ∈ verdictModeFields) (hraise : f.key ≠ F.CFG_STAT_MODE_DONE.key) (hat : f.key ≠ F.CFG_MODE_AT.key) :
      getF (modeChangeApply s) f = getF (lower u F.CFG_MODE_STAT_PEND) f :=
    (ht f hf).trans ((Laws.getF_setF_other _ _ _ _ hat).trans ((Laws.getF_setF_other _ _ _ _ hraise).trans (hv f hf)))
  have hlowered {f : Fld} (hf : f ∈ verdictModeFields) (hpend : f.key ≠ F.CFG_MODE_STAT_PEND.key) :
      getF (lower u F.CFG_MODE_STAT_PEND) f = getF (applyMode false (getF s F.CFG_MODE_STAT_TARGET) s) f :=
    (Laws.getF_setF_other _ _ _ _ hpend).trans (hu f hf)
  refine ⟨modeChangeApply s, exec_modeChangeApply, ?_, ?_, ?_, ?_, ?_⟩
  · rw [hshown (by decide) (by decide) (by decide), hlowered (by decide) (by decide), hmode]
  · rw [isSet_congr (hshown (by decide) (by decide) (by decide))]
    exact Laws.isSet_lower _ _ (Laws.smapWf_iff.1 cu).1
  · rw [isSet_congr (hshown (by decide) (by decide) (by decide)), isSet_congr (hlowered (by decide) (by decide)), hshut]
  · rw [isSet_congr (ht _ (by decide)), showDone, isSet_congr (Laws.getF_setF_other _ _ _ _ (by decide))]
    exact Laws.isSet_raise _ _ (Laws.smapWf_iff.1 cv).1 (by decide)
  · rw [ht _ (by decide), showDone, getF_setF (raise_canonical cv), if_pos rfl, frameNow, hv _ (by decide), hlowered (by decide) (by decide), hnow]

end

/-- Settles O44: a request is refused or pends, and a change that is due leaves after the mode's settings only what keeps the mode. -/
theorem modesChange : Obligations.ModesChange := by
  unfold Obligations.ModesChange
  refine fun s h => ⟨fun target r why hwhy => modeRequest_shows_why h hwhy, fun target r hask hspan => modeRequest_pends h hask hspan,
    fun hdue hprev hlive hcif => modeChangeApply_changes h hdue hprev hlive hcif, fun hwait => ?_⟩
  rw [exec_modeChangeApply, modeChangeApply_waits hwait]

end Sys2Proof.Proofs

/-! SUPPORT. What ends a frame at its drain check (R164 to R173): the commit, the flip and the abort leave the fields of the verdict alone, the first
two commit the frame's requests, and the last empties what the frame had staged. -/
namespace Sys2Proof.Proofs
open Sys2Proof Sys2Proof.Machine

section
variable {s t u : State} {n : Nat} {c : Cause}

/-! ### The commit (R167, R168, R207) -/

/-- Every open request of the live table that has an extent has been committed in the present frame. -/
def CommitsReqs (s t : State) : Prop :=
  ∀ r ∈ s.adm.reqs, r.open = true → zeroExtent s r.d = false → s.frame.liveReqs.contains r.aseq = true →
    ∃ q ∈ t.adm.reqs, q.aseq = r.aseq ∧ q.committed.isSome = true ∧ q.commitFrame = getF s F.TICK_NOW

theorem zeroExtent_congr {d : Descriptor} (h : t.adm = s.adm) : zeroExtent t d = zeroExtent s d := by
  unfold zeroExtent
  rw [h]

theorem commitsReqs_of_eq (h : CommitsReqs u t) (hadm : u.adm = s.adm) (hlive : u.frame.liveReqs = s.frame.liveReqs)
    (hnow : getF u F.TICK_NOW = getF s F.TICK_NOW) : CommitsReqs s t := by
  intro r hr hopen hzero hin
  rw [← hnow]
  exact h r (hadm ▸ hr) hopen ((zeroExtent_congr hadm).trans hzero) (hlive ▸ hin)

theorem releaseResults_rest : ∃ out, releaseResults s = { s with out := out } := by
  refine List.foldlRecOn (motive := fun t : State => ∃ out, t = { s with out := out }) _ _ ⟨s.out, rfl⟩ fun t ⟨out, ht⟩ w _ => ?_
  dsimp only
  split
  · exact ⟨out, ht⟩
  · split
    · exact ⟨_, by rw [ht]; rfl⟩
    · exact ⟨out, ht⟩

theorem commitReqs_rest {st : Stamp} : ∃ reqs frames, commitReqs s st = { s with adm := { s.adm with reqs := reqs, frames := frames } } := by
  unfold commitReqs
  dsimp only
  split <;> exact ⟨_, _, rfl⟩

/-- The frame's requests are committed, with its stamp. -/
theorem commitsReqs_commitReqs {st : Stamp} : CommitsReqs s (commitReqs s st) := by
  intro r hr hopen hzero hin
  obtain ⟨p, hp⟩ : ∃ p, s.frame.liveReqs.findIdx? (fun a => a == r.aseq) = some p :=
    Option.isSome_iff_exists.1 (List.findIdx?_isSome.trans (List.any_eq_true.2 ⟨r.aseq, List.contains_iff_mem.1 hin, beq_self_eq_true _⟩))
  unfold commitReqs
  extract_lets done more upd noted
  have hupd : (upd r).aseq = r.aseq ∧ (upd r).committed.isSome = true ∧ (upd r).commitFrame = getF s F.TICK_NOW := by
    simp [upd, done, hp, hopen, hzero, frameNow]
  have hmem : upd r ∈ noted.adm.reqs := List.mem_map_of_mem hr
  split <;> exact ⟨upd r, hmem, hupd⟩

theorem learnFrame_rest : ∃ p, learnFrame s = setPwr s p := by
  unfold learnFrame touchSlot
  dsimp only
  split <;> exact ⟨_, rfl⟩

theorem fieldsOnly_showSlack : FieldsOnly s (showSlack s) := by
  unfold showSlack
  split <;> exact fieldsOnly_setF (fieldsOnly_setF fieldsOnly_refl)

theorem keeps_showSlack (h : Keeps s t) : Keeps s (showSlack t) := by
  unfold showSlack
  split <;> exact keeps_setF (keeps_setF h (by decide)) (by decide)

/-- What a commit leaves of the frame, and that its requests are committed. -/
structure Committed (s t : State) : Prop where
  keeps : Keeps s t
  frame : t.frame = s.frame
  reqs : CommitsReqs s t

theorem committed_commitFrame (hlive : s.frame.hasLive = true) : Committed s (commitFrame s) := by
  unfold commitFrame
  extract_lets st stamped released committed noted shown learned
  obtain ⟨_, hreleased⟩ : ∃ out, released = { stamped with out := out } := releaseResults_rest
  obtain ⟨_, _, hcommitted⟩ : ∃ reqs frames, committed = { released with adm := { released.adm with reqs := reqs, frames := frames } } :=
    commitReqs_rest
  obtain ⟨_, hshown⟩ : FieldsOnly noted shown := fieldsOnly_ite fieldsOnly_showSlack fieldsOnly_refl
  obtain ⟨_, hlearned⟩ := learnFrame_rest (s := shown)
  have hreqs : CommitsReqs released committed := commitsReqs_commitReqs
  have hnoted : Keeps s noted := by
    unfold noted
    rw [hcommitted, hreleased]
    exact keeps_flds keeps_refl rfl
  have hkept : Keeps s shown := keeps_ite (keeps_showSlack hnoted) hnoted
  have hframe : noted.frame = s.frame := by
    unfold noted
    rw [hcommitted, hreleased]
    rfl
  rw [if_pos (by exact hlive)]
  unfold learned
  rw [hlearned, hshown]
  refine ⟨keeps_setSpan (keeps_setPwr (hshown ▸ hkept)), hframe, ?_⟩
  exact commitsReqs_of_eq (u := released) hreqs (by rw [hreleased]; rfl) (by rw [hreleased]; rfl) (by rw [hreleased]; rfl)

/-! ### The change of pointers (R167, R193) -/

theorem retireColumn_adm {g : Nat} : (retireColumn s n g).adm = s.adm := by
  obtain ⟨_, hl⟩ := fieldsOnly_excludeColumn (col := n) (fieldsOnly_refl (s := s))
  rw [retireColumn, hl]
  rfl

theorem beginRetire_adm : (beginRetire s n).adm = s.adm := by
  obtain ⟨_, hl⟩ := fieldsOnly_updateReady (fieldsOnly_refl (s := setF (raise s F.ARR_RETIRE_PEND) F.ARR_RETIRE_COL n))
  rw [beginRetire, hl]
  rfl

theorem retireEffect_adm : (retireEffect s).adm = s.adm := by
  rw [retireEffect_eq]
  dsimp only
  split_ifs
  · exact beginRetire_adm.trans (retireColumn_adm (g := s.frame.mapGen + 1))
  · exact retireColumn_adm
  · rfl

theorem movePointers_adm : (movePointers s).adm = s.adm := by
  unfold movePointers
  dsimp only
  split_ifs <;> rfl

theorem showLive_adm : (showLive s).adm = s.adm := by
  unfold showLive showFloor
  split_ifs <;> rfl

theorem showNoIdle_adm : (showNoIdle s).adm = s.adm := rfl
theorem settleNext_adm : (settleNext s).adm = s.adm := rfl
theorem swapTables_adm {go : Bool} : (swapTables s go).adm = s.adm := rfl
theorem showEmpty_adm : (showEmpty s).adm = s.adm := rfl

theorem takeSide_adm : (takeSide s).adm = s.adm := by
  rw [takeSide, settleNext_adm, showNoIdle_adm, showLive_adm, retireEffect_adm, movePointers_adm]

theorem servePending_adm : (servePending s).adm = s.adm := by
  obtain ⟨_, _, _, _, hrest⟩ := (tiersOnly_servePending (tiersOnly_refl (s := s))).rest
  rw [hrest]

theorem switchSides_adm {ready : Bool} : (switchSides s ready).adm = s.adm := by
  rw [switchSides_eq, showEmpty_adm, servePending_adm, swapTables_adm]
  split
  · exact takeSide_adm
  · rfl

/-- Of the frame a change of sides moves the column map, the naming and the tables, and whether the next frame runs: it does where a named side was ready. -/
theorem switchSides_frame {ready : Bool} : ∃ gen named a b d e f g sealed, (switchSides s ready).frame = { s.frame with
    mapGen := gen, named := named, nextRuns := ready && s.frame.named.isSome || s.frame.nextRuns, liveProblems := a, liveReqs := b, liveAreas := d,
    idleProblems := e, idleReqs := f, idleAreas := g, idleSealed := sealed } := by
  obtain ⟨_, hg⟩ := takeSide_frame (s := s)
  have hframe : (switchSides s ready).frame =
      (swapTables (if ready && s.frame.named.isSome then takeSide s else s) (ready && s.frame.named.isSome)).frame := by
    rw [switchSides_eq]
    exact servePending_frame
  rw [hframe]
  unfold swapTables
  cases hgo : ready && s.frame.named.isSome with
  | true =>
    rw [if_pos rfl, hg]
    exact ⟨_, _, _, _, _, _, _, _, _, rfl⟩
  | false => exact ⟨_, _, _, _, _, _, _, _, _, rfl⟩

/-! ### The report and the phases (R367) -/

theorem sendReport_rest {r : FrameReport} : ∃ flds links span cnt ahead,
    sendReport s r = { s with flds := flds, links := links, span := span, stampCnt := cnt, stampAhead := ahead } := by
  obtain ⟨span, hnoted⟩ : ∃ span, noteReport s r = setSpan s span := by
    unfold noteReport
    dsimp only
    split_ifs <;> exact ⟨_, rfl⟩
  have hsent {arg : Nat} : CtrlOnly (noteReport s r) (toMaster (noteReport s r) r.stamp 0x03 r.tick arg) := ctrlOnly_sendCtrl
  unfold sendReport
  dsimp only
  split
  · exact ⟨_, _, _, _, _, rfl⟩
  · split
    · exact ⟨_, _, _, _, _, by rw [hnoted]; rfl⟩
    · obtain ⟨_, _, _, _, hrest⟩ := hsent.rest
      exact ⟨_, _, _, _, _, by rw [hrest, hnoted]; rfl⟩

/-- The phases' starts are shown in registers beside these fields. -/
theorem showPhases_shows : FieldsOnly s (showPhases s) ∧ Keeps s (showPhases s) := by
  have hcif : ∀ k < 16, beside (F.TICK_PHASE_START_CIF k) := by decide
  have hheld : ∀ k < 16, beside (F.TICK_PHASE_START_HELD k) := by decide
  refine List.foldlRecOn (motive := fun t => FieldsOnly s t ∧ Keeps s t) _ _ ⟨fieldsOnly_refl, keeps_refl⟩ fun t ⟨hrest, hkept⟩ k hk => ?_
  have hk := List.mem_range.1 hk
  split <;> exact ⟨fieldsOnly_setF (fieldsOnly_setF hrest), keeps_setF (keeps_setF hkept (hcif k hk)) (hheld k hk)⟩

/-! ### The flip (R167) -/

/-- Between `s` and `t` array cycles have passed: of the frame only the stretches asked for and the parts of a nanosecond have moved. -/
structure CyclesPassed (s t : State) : Prop where
  keeps : Keeps s t
  adm : t.adm = s.adm
  frame : ∃ sent ac, t.frame = { s.frame with stretchSent := sent, acRest := ac }

theorem cyclesPassed_advanceAc : CyclesPassed s (advanceAc s n) := ⟨keeps_advanceAc keeps_refl, aside_adm aside_advanceAc, aside_frame aside_advanceAc⟩

theorem cyclesPassed_mapCells {g : Cell → Cell} (h : CyclesPassed s t) : CyclesPassed s (mapCells t g) := ⟨keeps_flds h.keeps rfl, h.adm, h.frame⟩

theorem cyclesPassed_hasLive (h : CyclesPassed s t) : t.frame.hasLive = s.frame.hasLive := by
  obtain ⟨_, _, hframe⟩ := h.frame
  rw [hframe]

/-- Of the frame its naming, and whether it and the next one run, are the same. -/
structure NextKept (s t : State) : Prop where
  named : t.frame.named = s.frame.named
  nextRuns : t.frame.nextRuns = s.frame.nextRuns
  hasLive : t.frame.hasLive = s.frame.hasLive

theorem nextKept_of_cycles (h : CyclesPassed s t) : NextKept s t := by
  obtain ⟨_, _, hframe⟩ := h.frame
  constructor <;> rw [hframe]

theorem nextKept_trans (h : NextKept s t) (h' : NextKept t u) : NextKept s u :=
  ⟨h'.named.trans h.named, h'.nextRuns.trans h.nextRuns, h'.hasLive.trans h.hasLive⟩

theorem nextKept_of_frame (h : t.frame = s.frame) : NextKept s t := by constructor <;> rw [h]

theorem commitsReqs_of_adm (h : CommitsReqs s t) (hadm : u.adm = t.adm) : CommitsReqs s u := fun r hr hopen hzero hin =>
  hadm ▸ h r hr hopen hzero hin

/-- Once array cycles have passed, a commit commits what the frame began with. -/
theorem commitsReqs_of_cycles (hcycles : CyclesPassed s t) (h : CommitsReqs t u) : CommitsReqs s u := by
  obtain ⟨_, _, hframe⟩ := hcycles.frame
  exact commitsReqs_of_eq h hcycles.adm (by rw [hframe]) (hcycles.keeps _ (by decide))

/-- The frame as a report and its phases' starts leave it, where it ran. -/
theorem report_keeps {r : FrameReport} (h : Keeps s t) : Keeps s (sendReport (showPhases t) r) ∧ (sendReport (showPhases t) r).frame = t.frame ∧
    (sendReport (showPhases t) r).adm = t.adm := by
  obtain ⟨⟨_, hphases⟩, hshown⟩ := showPhases_shows (s := t)
  obtain ⟨_, _, _, _, _, hrest⟩ := sendReport_rest (s := showPhases t) (r := r)
  refine ⟨keeps_sendReport (keeps_trans h hshown), ?_, ?_⟩ <;> rw [hrest, hphases]

theorem keeps_showWait (h : Keeps s t) : Keeps s (showWait t) :=
  keeps_setF (keeps_setF (keeps_setF (keeps_setF h (by decide)) (by decide)) (by decide)) (by decide)

/-- What a flip leaves: the fields of the verdict, a frame that waits for the tick, the next one running where a named side was ready, and the
frame's requests committed. -/
structure Flipped (ready : Bool) (s t : State) : Prop where
  keeps : Keeps s t
  state : t.frame.state = .tickWait
  nextRuns : t.frame.nextRuns = (ready && s.frame.named.isSome || s.frame.nextRuns)
  reqs : CommitsReqs s t

theorem flipped_flipFrame {ready : Bool} (hlive : s.frame.hasLive = true) : Flipped ready s (flipFrame s ready) := by
  unfold flipFrame
  extract_lets cleared committed reset switched st flipped reported frame waiting
  have hcleared : CyclesPassed s cleared := cyclesPassed_mapCells cyclesPassed_advanceAc
  have hcommitted : Committed cleared committed := committed_commitFrame ((cyclesPassed_hasLive hcleared).trans hlive)
  have hreset : CyclesPassed committed reset := cyclesPassed_mapCells cyclesPassed_advanceAc
  have hnext : NextKept s reset :=
    nextKept_trans (nextKept_of_cycles hcleared) (nextKept_trans (nextKept_of_frame hcommitted.frame) (nextKept_of_cycles hreset))
  have hreqs : CommitsReqs s reset := commitsReqs_of_adm (commitsReqs_of_cycles hcleared hcommitted.reqs) hreset.adm
  have hswitched : Keeps s switched := keeps_switchSides (keeps_trans hcleared.keeps (keeps_trans hcommitted.keeps hreset.keeps))
  have hadm : switched.adm = reset.adm := switchSides_adm
  obtain ⟨_, _, _, _, _, _, _, _, _, hsides⟩ := switchSides_frame (s := reset) (ready := ready)
  have hsides : switched.frame.nextRuns = (ready && s.frame.named.isSome || s.frame.nextRuns) := by
    rw [← hnext.named, ← hnext.nextRuns]
    exact congrArg FrameSt.nextRuns hsides
  have hflipped : CyclesPassed (stampEvent switched srcConfig .flip) flipped := cyclesPassed_advanceAc
  have hkept : Keeps s flipped := keeps_trans (keeps_stampEvent hswitched) hflipped.keeps
  have hreported : Keeps s reported ∧ reported.frame = flipped.frame ∧ reported.adm = flipped.adm := by
    unfold reported
    split
    · exact report_keeps hkept
    · exact ⟨hkept, rfl, rfl⟩
  obtain ⟨hkeeps, hframe, hsame⟩ := hreported
  clear_value reported flipped
  exact {
    keeps := keeps_showWait (keeps_setFrame hkeeps)
    state := rfl
    nextRuns := (congrArg FrameSt.nextRuns hframe).trans ((nextKept_of_cycles hflipped).nextRuns.trans hsides)
    reqs := commitsReqs_of_adm hreqs (hsame.trans (hflipped.adm.trans hadm)) }

/-! ### The abort (R173 to R178) -/

/-- A frame that has aborted waits for the tick, with nothing staged and nothing on the row buses. -/
structure AbortEnded (f : FrameSt) : Prop where
  state : f.state = .tickWait
  lastAborted : f.lastAborted = true
  staged : f.staged = []
  rowBus : f.rowBus = []

theorem abortEnded_of_eq {f g : FrameSt} (h : AbortEnded f) (heq : g = f) : AbortEnded g := heq ▸ h

theorem abortEnded_switchSides {ready : Bool} (h : AbortEnded s.frame) : AbortEnded (switchSides s ready).frame := by
  obtain ⟨_, _, _, _, _, _, _, _, _, hframe⟩ := switchSides_frame (s := s) (ready := ready)
  rw [hframe]
  exact ⟨h.state, h.lastAborted, h.staged, h.rowBus⟩

theorem abortEnded_endWaiting (h : AbortEnded s.frame) : AbortEnded (endWaiting s).frame := by
  unfold endWaiting
  split
  · exact ⟨h.state, h.lastAborted, h.staged, h.rowBus⟩
  · exact h

theorem abortEnded_reqsOnly (h : AbortEnded s.frame) (hreqs : ReqsOnly s t) : AbortEnded t.frame := abortEnded_of_eq h (reqsOnly_frame hreqs)

theorem keeps_endWaiting (h : Keeps s t) : Keeps s (endWaiting t) := keeps_ite (keeps_setFrame (keeps_setF (keeps_setF h (by decide)) (by decide))) h

/-- A frame whose replay has failed (R175). -/
theorem replayFail_ends {i : Nat} {b : Option Stamp} (h : Keeps s t) (hf : AbortEnded t.frame) :
    Keeps s (replayFail t c i b) ∧ AbortEnded (replayFail t c i b).frame := by
  unfold replayFail
  extract_lets failed shown adm planned frame settled
  have hfailed : ReqsOnly t failed := reqsOnly_failWhere reqsOnly_refl
  have hframe : AbortEnded failed.frame := abortEnded_reqsOnly hf hfailed
  have hshown : Keeps s shown := keeps_setF (keeps_setF (keeps_trans h (keeps_of_reqsOnly hfailed)) (by decide)) (by decide)
  have hsettled : Keeps s settled := keeps_setFrame (keeps_flds hshown rfl)
  exact ⟨keeps_switchSides (keeps_setF hsettled (by decide)),
    abortEnded_switchSides ⟨hframe.state, hframe.lastAborted, hframe.staged, hframe.rowBus⟩⟩

/-- A frame that a member's loss keeps from being replayed (R376). -/
theorem dropFrame_ends {i : Nat} (h : Keeps s t) (hf : AbortEnded t.frame) : Keeps s (dropFrame t i) ∧ AbortEnded (dropFrame t i).frame := by
  unfold dropFrame
  extract_lets ended adm shifted unmet span frame settled
  have hended : Keeps s ended := keeps_endWaiting h
  have hendedFrame : AbortEnded ended.frame := abortEnded_endWaiting hf
  have hunmet : ReqsOnly shifted unmet := by
    unfold unmet
    split
    · exact reqsOnly_failWhere reqsOnly_refl
    · exact reqsOnly_refl
  have hshifted : Keeps s shifted := keeps_flds hended rfl
  have hkept : Keeps s unmet := keeps_trans hshifted (keeps_of_reqsOnly hunmet)
  have hframe : AbortEnded unmet.frame := abortEnded_reqsOnly (s := shifted) hendedFrame hunmet
  exact ⟨keeps_switchSides (keeps_setF (keeps_setFrame (keeps_setSpan hkept)) (by decide)),
    abortEnded_switchSides ⟨hframe.state, hframe.lastAborted, hframe.staged, hframe.rowBus⟩⟩

/-- What follows an abort leaves the fields of the verdict and the frame's end (R174 to R177). -/
theorem afterAbort_ends {i : Nat} (h : Keeps s t) (hf : AbortEnded t.frame) : Keeps s (afterAbort t c i) ∧ AbortEnded (afterAbort t c i).frame := by
  unfold afterAbort
  extract_lets adm planned moved
  have hmoved : ReqsOnly planned moved := reqsOnly_moveWhere reqsOnly_refl
  have hplanned : Keeps s planned := keeps_flds h rfl
  have hkept : Keeps s moved := keeps_trans hplanned (keeps_of_reqsOnly hmoved)
  have hframe : AbortEnded moved.frame := abortEnded_reqsOnly (s := planned) hf hmoved
  split_ifs
  · exact dropFrame_ends hkept hframe
  · exact ⟨keeps_setSpan hkept, hframe⟩
  · exact ⟨keeps_setFrame hkept, hframe.state, hframe.lastAborted, hframe.staged, hframe.rowBus⟩
  · exact replayFail_ends hkept hframe
  · exact ⟨keeps_showEmpty (keeps_setFrame hkept), hframe.state, hframe.lastAborted, hframe.staged, hframe.rowBus⟩

/-- Before an abort is shown and after it the fields of the verdict stay, and the frame ends with nothing staged (R173). -/
theorem abortFrame_ends (h : s.fieldsCanonical) : ∃ p, p.fieldsCanonical ∧ Keeps s p ∧ Keeps (showAbort p c) (abortFrame s c) ∧
    AbortEnded (abortFrame s c).frame := by
  unfold abortFrame
  extract_lets stopped dropped span unsent frame p stamp shown cycled frame' settled waiting planned
  have hstopped : Keeps s stopped := keeps_flds (keeps_advanceAc (n := 24) keeps_refl) rfl
  have hunsent : Keeps s unsent := keeps_setSpan (keeps_setMem hstopped)
  have cunsent : unsent.fieldsCanonical := setSpan_canonical (setMem_canonical (idleCells_canonical (advanceAc_canonical h)))
  have hp : Keeps s p := keeps_setFrame (keeps_advanceAc hunsent)
  have cp : p.fieldsCanonical := setFrame_canonical (advanceAc_canonical cunsent)
  have hstaged : p.frame.staged = [] := rfl
  have hbus : p.frame.rowBus = [] := rfl
  have hcycles : CyclesPassed shown cycled := cyclesPassed_advanceAc
  obtain ⟨_, _, hcycled⟩ := hcycles.frame
  clear_value p cycled
  have hended : AbortEnded settled.frame :=
    ⟨rfl, rfl, (congrArg FrameSt.staged hcycled).trans hstaged, (congrArg FrameSt.rowBus hcycled).trans hbus⟩
  have hwaiting : Keeps shown waiting := keeps_showWait (keeps_setFrame hcycles.keeps)
  have hplanned : Keeps shown planned ∧ AbortEnded planned.frame := by
    unfold planned
    split
    · exact afterAbort_ends hwaiting hended
    · exact ⟨hwaiting, hended⟩
  obtain ⟨hkept, hframe⟩ := hplanned
  exact ⟨p, cp, hp, keeps_servePending hkept, abortEnded_of_eq hframe servePending_frame⟩

/-- What an abort at the drain check leaves (R173, R185). -/
structure Aborted (s t : State) : Prop where
  abort : isSet t F.CFG_STAT_ABORT = true
  count : getF t F.CFG_CNT_ABORT = satAdd 32 (getF s F.CFG_CNT_ABORT) 1
  first : getF t F.CFG_DRAIN_FIRST_COND = getF s F.CFG_DRAIN_FIRST_COND
  last : getF t F.CFG_DRAIN_LAST_COND = getF s F.CFG_DRAIN_LAST_COND
  ended : AbortEnded t.frame

theorem aborted_drainAbort (h : s.fieldsCanonical) : Aborted s (drainAbort s c) := by
  unfold drainAbort
  extract_lets st
  have hsent : Keeps s (sendReport (countStamp s st) (ownReport s 1 c st)) := keeps_sendReport (keeps_flds keeps_refl countStamp_flds)
  have csent : (sendReport (countStamp s st) (ownReport s 1 c st)).fieldsCanonical := sendReport_canonical (countStamp_canonical h)
  generalize sendReport (countStamp s st) (ownReport s 1 c st) = u at hsent csent
  obtain ⟨p, cp, hp, hshown, hended⟩ := abortFrame_ends (c := c) csent
  have hkept {f : Fld} (hf : f ∈ verdictModeFields) (hraise : f.key ≠ F.CFG_STAT_ABORT.key) (hcount : f.key ≠ F.CFG_CNT_ABORT.key) :
      getF (abortFrame u c) f = getF s f :=
    (hshown f hf).trans ((Laws.getF_setF_other (raise p F.CFG_STAT_ABORT) _ _ _ hcount).trans ((Laws.getF_setF_other p _ _ _ hraise).trans
      ((hp f hf).trans (hsent f hf))))
  exact {
    abort := isSet_abortFrame csent
    count := by
      rw [hshown _ (by decide), ← hsent _ (by decide), ← hp _ (by decide)]
      exact (getF_bump (raise_canonical cp)).trans (congrArg (satAdd 32 · 1) (Laws.getF_setF_other _ _ _ _ (by decide)))
    first := hkept (by decide) (by decide) (by decide)
    last := hkept (by decide) (by decide) (by decide)
    ended := hended }

end
end Sys2Proof.Proofs

/-! SUPPORT. The drain check (R164 to R173): the shutter's close, the sample, and the verdict that commits and flips the frame, holds it or aborts
it. -/
namespace Sys2Proof.Proofs
open Sys2Proof Sys2Proof.Machine

section
variable {s t : State} {edge output : Bool} {x : DrainSample} {rest : List DrainSample} {v n : Nat} {c : Cause}

theorem exec_ingressShutterClose : exec .ingressShutterClose s = .next (ingressShutterClose s) := rfl
theorem exec_drainSample : exec (.drainSample edge output) s = .next (drainSample edge output s) := rfl
theorem exec_drainVerdict : exec .drainVerdict s = .next (drainVerdict s) := rfl
theorem exec_drainHoldTimeout : exec .drainHoldTimeout s = .next (drainHoldTimeout s) := rfl

/-! ### The shutter (R164) -/

theorem ingressShutterClose_due (hlive : s.frame.hasLive = true) (hstate : s.frame.state = .running ∨ s.frame.state = .drainHold)
    (hdue : liveLen s - liveDrain s ≤ s.frame.sched) :
    ingressShutterClose s = raise (setFrame s { s.frame with ingressClosed := true }) F.TICK_CIF_DRAIN :=
  if_pos (by simp [hlive, hstate, hdue])

/-! ### The sample (R166, R193) -/

/-- To seal the idle table writes that table, and may move requests of the plan. -/
theorem sealTable_rest : ∃ a b d reqs frames cnt ahead, sealTable s = { s with
    frame := { s.frame with idleProblems := a, idleReqs := b, idleAreas := d, idleSealed := true },
    adm := { s.adm with reqs := reqs, frames := frames }, stampCnt := cnt, stampAhead := ahead } := by
  unfold sealTable
  extract_lets frame cfg idx moved
  split_ifs with hsealed
  · exact ⟨_, _, _, _, _, _, _, by rw [← hsealed]⟩
  · exact ⟨_, _, _, _, _, _, _, rfl⟩
  · obtain ⟨_, _, _, _, hmoved⟩ : ReqsOnly s moved := reqsOnly_moveExcess
    clear_value moved
    subst hmoved
    exact ⟨_, _, _, _, _, _, _, rfl⟩

theorem drainSample_due (hlive : s.frame.hasLive = true) (hruns : s.frame.state = .running) (hsched : s.frame.sched = liveLen s - 72)
    (hnone : s.frame.samples = []) : drainSample edge output s = setFrame (sealTable s) { (sealTable s).frame with
      sampled := true
      samples := (sealTable s).frame.samples ++ [⟨drainConds (sealTable s) edge output, idleReadyNow (sealTable s), getF s F.TICK_CIF_CIF⟩] } :=
  if_neg (by simp [hlive, hruns, hsched, hnone])

/-- What is sampled is what held before the table was sealed. -/
theorem drainSample_notes (hlive : s.frame.hasLive = true) (hruns : s.frame.state = .running) (hsched : s.frame.sched = liveLen s - 72)
    (hnone : s.frame.samples = []) :
    (drainSample edge output s).frame.samples = [⟨drainConds s edge output, idleReadyNow s, getF s F.TICK_CIF_CIF⟩] ∧
    (drainSample edge output s).frame.sampled = true ∧ (drainSample edge output s).frame.idleSealed = true ∧
    fieldsKept [] s (drainSample edge output s) ∧ (drainSample edge output s).mem = s.mem ∧ (drainSample edge output s).cells = s.cells := by
  obtain ⟨_, _, _, _, _, _, _, hsealed⟩ := sealTable_rest (s := s)
  rw [drainSample_due hlive hruns hsched hnone, hsealed]
  have hsample {l : List DrainSample} : s.frame.samples ++ l = l := by rw [hnone, List.nil_append]
  exact ⟨hsample, rfl, rfl, fun _ _ => rfl, rfl, rfl⟩

/-! ### The verdict (R166, R170, R171) -/

/-- The conditions on which the verdict is ABORT: bits 7, 0 and 1. -/
def AbortConds (n : Nat) : Prop := bitOf n 7 = true ∨ bitOf n 0 = true ∨ bitOf n 1 = true

theorem abortConds_iff : AbortConds n ↔ (bitOf n 7 || bitOf n 0 || bitOf n 1) = true := by simp [AbortConds, or_assoc]

theorem not_abortConds_zero : ¬ AbortConds 0 := by
  rw [abortConds_iff]
  decide

theorem not_abortConds (h7 : bitOf n 7 = false) (h0 : bitOf n 0 = false) (h1 : bitOf n 1 = false) : ¬ AbortConds n := by
  simp [abortConds_iff, h7, h0, h1]

/-- The frame's first verdict shows its conditions. -/
def showFirst (s : State) (n : Nat) : State := setFrame (setF s F.CFG_DRAIN_FIRST_COND n) { s.frame with verdictSeen := true }

/-- A verdict that ends the drain check shows its conditions and how long the hold was. -/
def showLast (s : State) (n ac : Nat) : State := setF (setF s F.CFG_DRAIN_LAST_COND n) F.CFG_HOLD_AC ac

theorem showFirst_canonical (h : s.fieldsCanonical) : (showFirst s n).fieldsCanonical := setFrame_canonical (setF_canonical h)

theorem fieldsKept_showFirst : fieldsKept [F.CFG_DRAIN_FIRST_COND] s (showFirst s n) := fieldsKept_setF (t := s) fieldsKept_refl (by simp)

theorem getF_showFirst (h : s.fieldsCanonical) (hn : n < 256) : getF (showFirst s n) F.CFG_DRAIN_FIRST_COND = n :=
  (Laws.getF_setF_same _ _ _ (Laws.smapWf_iff.1 h).1).trans (Nat.mod_eq_of_lt hn)

theorem showLast_canonical (h : s.fieldsCanonical) : (showLast s n v).fieldsCanonical := setF_canonical (setF_canonical h)

theorem fieldsKept_showLast : fieldsKept [F.CFG_DRAIN_LAST_COND, F.CFG_HOLD_AC] s (showLast s n v) :=
  fieldsKept_setF (fieldsKept_setF fieldsKept_refl (by simp)) (by simp)

theorem getF_showLast (h : s.fieldsCanonical) : getF (showLast s n v) F.CFG_DRAIN_LAST_COND = n % 256 :=
  (Laws.getF_setF_other _ _ _ _ (by decide)).trans (Laws.getF_setF_same _ _ _ (Laws.smapWf_iff.1 h).1)

theorem drainVerdict_due (hlive : s.frame.hasLive = true)
    (hstate : s.frame.state = .running ∧ s.frame.sched = schedOfVerdict s ∨ s.frame.state = .drainHold) (hsamples : s.frame.samples = x :: rest)
    (hage : x.at_ + 8 ≤ getF s F.TICK_CIF_CIF) : drainVerdict s = verdict (setFrame s { s.frame with samples := rest }) x := by
  unfold drainVerdict
  rw [hsamples]
  exact if_pos (by simp [hlive, hstate, hage])

theorem verdict_first_aborts (hseen : s.frame.verdictSeen = false) (hruns : s.frame.state = .running) (habort : AbortConds x.conds) :
    ∃ c, verdict s x = drainAbort (showLast (showFirst s x.conds) x.conds 0) c := by
  unfold verdict
  extract_lets frame first held
  have hfirst : first = showFirst s x.conds := if_neg (by simp [hseen])
  have hheld : held = false := by simp [held, hfirst, showFirst, hruns]
  clear_value first held
  subst hfirst hheld
  rw [if_pos (abortConds_iff.1 habort)]
  exact ⟨_, rfl⟩

theorem verdict_first_passes (hseen : s.frame.verdictSeen = false) (hruns : s.frame.state = .running) (hx : x.conds = 0) :
    verdict s x = flipFrame (showLast (showFirst s x.conds) 0 0) x.ready := by
  unfold verdict
  extract_lets frame first held
  have hfirst : first = showFirst s x.conds := if_neg (by simp [hseen])
  have hheld : held = false := by simp [held, hfirst, showFirst, hruns]
  have habort : ¬ AbortConds x.conds := hx ▸ not_abortConds_zero
  clear_value first held
  subst hfirst hheld
  rw [if_neg (abortConds_iff.not.1 habort), if_pos hx]
  rfl

theorem verdict_first_holds (hseen : s.frame.verdictSeen = false) (hruns : s.frame.state = .running) (habort : ¬ AbortConds x.conds)
    (hx : x.conds ≠ 0) : verdict s x = enterHold (showFirst s x.conds) := by
  unfold verdict
  extract_lets frame first held
  have hfirst : first = showFirst s x.conds := if_neg (by simp [hseen])
  have hheld : held = false := by simp [held, hfirst, showFirst, hruns]
  clear_value first held
  subst hfirst hheld
  rw [if_neg (abortConds_iff.not.1 habort), if_neg hx]
  rfl

theorem verdict_held (hseen : s.frame.verdictSeen = true) (hheld : s.frame.state = .drainHold) (habort : ¬ AbortConds x.conds) (hx : x.conds ≠ 0) :
    verdict s x = if liveDrain s ≤ s.frame.holdAc then drainAbort (showLast s x.conds s.frame.holdAc) .drain else s := by
  unfold verdict
  extract_lets frame first held
  have hfirst : first = s := if_pos hseen
  have hstill : held = true := by simp [held, hfirst, hheld]
  clear_value first held
  subst hfirst hstill
  rw [if_neg (abortConds_iff.not.1 habort), if_neg hx]
  simp [showLast]

/-- A verdict HOLD on a held frame aborts it once the hold has lasted D, and until then only takes its sample. -/
theorem drainVerdict_held (hlive : s.frame.hasLive = true) (hheld : s.frame.state = .drainHold) (hsamples : s.frame.samples = x :: rest)
    (hage : x.at_ + 8 ≤ getF s F.TICK_CIF_CIF) (hseen : s.frame.verdictSeen = true) (habort : ¬ AbortConds x.conds) (hx : x.conds ≠ 0) :
    drainVerdict s = if liveDrain s ≤ s.frame.holdAc
      then drainAbort (showLast (setFrame s { s.frame with samples := rest }) x.conds s.frame.holdAc) .drain
      else setFrame s { s.frame with samples := rest } :=
  (drainVerdict_due hlive (.inr hheld) hsamples hage).trans (verdict_held (s := setFrame s { s.frame with samples := rest }) hseen hheld habort hx)

/-! ### What an abort, a flip and a hold leave (R167, R171 to R173) -/

/-- An abort at the drain check shows the conditions of its verdict, and counts. -/
structure AbortShown (s t : State) (n : Nat) : Prop where
  abort : isSet t F.CFG_STAT_ABORT = true
  count : getF t F.CFG_CNT_ABORT = satAdd 32 (getF s F.CFG_CNT_ABORT) 1
  first : getF t F.CFG_DRAIN_FIRST_COND = getF s F.CFG_DRAIN_FIRST_COND
  last : getF t F.CFG_DRAIN_LAST_COND = n % 256
  ended : AbortEnded t.frame

theorem abortShown_drainAbort (h : s.fieldsCanonical) : AbortShown s (drainAbort (showLast s n v) c) n := by
  obtain ⟨habort, hcount, hfirst, hlast, hended⟩ := aborted_drainAbort (c := c) (showLast_canonical (n := n) (v := v) h)
  exact {
    abort := habort
    count := hcount.trans (congrArg (satAdd 32 · 1) (fieldsKept_showLast _ (by decide)))
    first := hfirst.trans (fieldsKept_showLast _ (by decide))
    last := hlast.trans (getF_showLast h)
    ended := hended }

/-- The first verdict aborts the frame. -/
theorem abortShown_verdict (h : s.fieldsCanonical) (hseen : s.frame.verdictSeen = false) (hruns : s.frame.state = .running)
    (habort : AbortConds x.conds) : AbortShown (showFirst s x.conds) (verdict s x) x.conds := by
  obtain ⟨c, hverdict⟩ := verdict_first_aborts hseen hruns habort
  rw [hverdict]
  exact abortShown_drainAbort (showFirst_canonical h)

/-- A verdict PASS shows its conditions. -/
structure PassShown (s t : State) (ready : Bool) : Prop where
  first : getF t F.CFG_DRAIN_FIRST_COND = 0
  last : getF t F.CFG_DRAIN_LAST_COND = 0
  count : getF t F.CFG_CNT_ABORT = getF s F.CFG_CNT_ABORT
  state : t.frame.state = .tickWait
  nextRuns : t.frame.nextRuns = true ↔ (ready = true ∧ s.frame.named ≠ none) ∨ s.frame.nextRuns = true
  reqs : CommitsReqs s t

/-- The first verdict commits and flips the frame. -/
theorem passShown_verdict (h : s.fieldsCanonical) (hlive : s.frame.hasLive = true) (hseen : s.frame.verdictSeen = false)
    (hruns : s.frame.state = .running) (hx : x.conds = 0) : PassShown s (verdict s x) x.ready := by
  rw [verdict_first_passes hseen hruns hx, hx]
  obtain ⟨hkeeps, hstate, hnext, hreqs⟩ := flipped_flipFrame (s := showLast (showFirst s 0) 0 0) (ready := x.ready) hlive
  have hshown {f : Fld} (hf : f ∈ verdictModeFields) (hlast : ∀ g ∈ [F.CFG_DRAIN_LAST_COND, F.CFG_HOLD_AC], g.key ≠ f.key) :
      getF (flipFrame (showLast (showFirst s 0) 0 0) x.ready) f = getF (showFirst s 0) f := (hkeeps f hf).trans (fieldsKept_showLast f hlast)
  exact {
    first := (hshown (by decide) (by decide)).trans (getF_showFirst h (by decide))
    last := (hkeeps _ (by decide)).trans (getF_showLast (showFirst_canonical h))
    count := (hshown (by decide) (by decide)).trans (fieldsKept_showFirst _ (by decide))
    state := hstate
    nextRuns := by
      have hnext : _ = (x.ready && s.frame.named.isSome || s.frame.nextRuns) := hnext
      rw [hnext, Bool.or_eq_true, Bool.and_eq_true, Option.isSome_iff_ne_none]
    reqs := commitsReqs_of_eq hreqs rfl rfl ((fieldsKept_showLast _ (by decide)).trans (fieldsKept_showFirst _ (by decide))) }

/-- What a hold leaves as it begins. -/
structure HoldShown (s t : State) : Prop where
  state : t.frame.state = .drainHold
  holdAc : t.frame.holdAc = 0
  samples : t.frame.samples = s.frame.samples
  inHold : isSet t F.CFG_STAT_IN_HOLD = true
  first : getF t F.CFG_DRAIN_FIRST_COND = getF s F.CFG_DRAIN_FIRST_COND
  count : getF t F.CFG_CNT_ABORT = getF s F.CFG_CNT_ABORT
  cells : t.cells = s.cells

theorem holdShown_requestStretch (h : HoldShown s t) : HoldShown s (requestStretch t n c) := by
  obtain ⟨hstate, hac, hsamples, hin, hfirst, hcount, hcells⟩ := h
  have haside : Aside [F.TICK_NEXT] t (requestStretch t n c) := aside_requestStretch
  obtain ⟨_, _, hframe⟩ := aside_frame haside
  obtain ⟨_, _, _, _, _, _, _, _, _, hrest⟩ := haside.rest
  exact {
    state := (congrArg FrameSt.state hframe).trans hstate
    holdAc := (congrArg FrameSt.holdAc hframe).trans hac
    samples := (congrArg FrameSt.samples hframe).trans hsamples
    inHold := (isSet_congr (fieldsKept_requestStretch _ (by decide))).trans hin
    first := (keeps_requestStretch _ (by decide)).trans hfirst
    count := (keeps_requestStretch _ (by decide)).trans hcount
    cells := (congrArg State.cells hrest).trans hcells }

theorem holdShown_enterHold (h : s.fieldsCanonical) : HoldShown s (enterHold s) := by
  unfold enterHold
  extract_lets frame begun stop
  have hbegun : HoldShown s begun := {
    state := rfl
    holdAc := rfl
    samples := rfl
    inHold := (isSet_congr (Laws.getF_setF_other _ _ _ _ (by decide))).trans (Laws.isSet_raise _ _ (Laws.smapWf_iff.1 (setFrame_canonical h)).1 (by decide))
    first := (Laws.getF_setF_other _ _ _ _ (by decide)).trans (Laws.getF_setF_other _ _ _ _ (by decide))
    count := (Laws.getF_setF_other _ _ _ _ (by decide)).trans (Laws.getF_setF_other _ _ _ _ (by decide))
    cells := rfl }
  split
  · exact holdShown_requestStretch hbegun
  · exact hbegun

/-- The first verdict holds the frame. -/
theorem holdShown_verdict (h : s.fieldsCanonical) (hseen : s.frame.verdictSeen = false) (hruns : s.frame.state = .running)
    (habort : ¬ AbortConds x.conds) (hx : x.conds ≠ 0) : HoldShown (showFirst s x.conds) (verdict s x) := by
  rw [verdict_first_holds hseen hruns habort hx]
  exact holdShown_enterHold (showFirst_canonical h)

/-- Whatever the first verdict is, its conditions are shown as the first ones. -/
theorem getF_verdict_first (h : s.fieldsCanonical) (hlive : s.frame.hasLive = true) (hseen : s.frame.verdictSeen = false)
    (hruns : s.frame.state = .running) (hx : x.conds < 256) : getF (verdict s x) F.CFG_DRAIN_FIRST_COND = x.conds := by
  by_cases habort : AbortConds x.conds
  · exact (abortShown_verdict h hseen hruns habort).first.trans (getF_showFirst h hx)
  · by_cases hzero : x.conds = 0
    · exact (passShown_verdict h hlive hseen hruns hzero).first.trans hzero.symm
    · exact (holdShown_verdict h hseen hruns habort hzero).first.trans (getF_showFirst h hx)

/-! ### The end of a hold (R171) -/

/-- A verdict HOLD on a hold that has lasted D aborts the frame. -/
theorem abortShown_drainVerdict_held (h : s.fieldsCanonical) (hlive : s.frame.hasLive = true) (hheld : s.frame.state = .drainHold)
    (hsamples : s.frame.samples = x :: rest) (hage : x.at_ + 8 ≤ getF s F.TICK_CIF_CIF) (hseen : s.frame.verdictSeen = true)
    (habort : ¬ AbortConds x.conds) (hx : x.conds ≠ 0) (hlate : liveDrain s ≤ s.frame.holdAc) :
    AbortShown (setFrame s { s.frame with samples := rest }) (drainVerdict s) x.conds := by
  rw [drainVerdict_held hlive hheld hsamples hage hseen habort hx, if_pos hlate]
  exact abortShown_drainAbort (setFrame_canonical h)

/-- A hold that has lasted D ends in an abort. -/
theorem abortShown_drainHoldTimeout (h : s.fieldsCanonical) (hlive : s.frame.hasLive = true) (hheld : s.frame.state = .drainHold)
    (hlate : liveDrain s ≤ s.frame.holdAc) : ∃ n, AbortShown s (drainHoldTimeout s) n := by
  unfold drainHoldTimeout
  rw [if_pos (by simp [hlive, hheld, hlate])]
  exact ⟨_, abortShown_drainAbort h⟩

theorem drainHoldTimeout_early (hearly : s.frame.holdAc < liveDrain s) : drainHoldTimeout s = s := if_neg (by simp [hearly])

end

/-- Settles O40: the shutter, the sample, the three verdicts, the verdict of a held frame and the end of its hold, each by the lemma about its
operation. -/
theorem drainChecksDecide : Obligations.DrainChecksDecide := by
  unfold Obligations.DrainChecksDecide
  intro s hcanon hlive
  have hsampled (l : List DrainSample) : (setFrame s { s.frame with samples := l }).fieldsCanonical := setFrame_canonical hcanon
  refine ⟨fun hstate hdue => ?_, fun edge output ⟨hruns, hsched, hnone⟩ => ?_, fun x rest hruns hsched hsamples hage hx hseen _ => ?_,
    fun x rest hheld hsamples hage hx hzero hseen h7 h0 h1 => ?_, fun hheld hlate => ?_, fun hearly => ?_⟩
  case refine_1 =>
    refine ⟨_, exec_ingressShutterClose, ?_⟩
    rw [ingressShutterClose_due hlive hstate hdue]
    exact ⟨Laws.isSet_raise _ _ (Laws.smapWf_iff.1 (setFrame_canonical hcanon)).1 (by decide), rfl,
      fieldsKept_setF (t := setFrame s { s.frame with ingressClosed := true }) (fun _ _ => rfl) (List.mem_singleton_self _), rfl⟩
  case refine_2 => exact ⟨_, exec_drainSample, drainSample_notes hlive hruns hsched hnone⟩
  case refine_3 =>
    refine ⟨_, exec_drainVerdict, ?_⟩
    rw [drainVerdict_due hlive (.inl ⟨hruns, hsched⟩) hsamples hage]
    refine ⟨getF_verdict_first (hsampled rest) hlive hseen hruns hx, fun habort => ?_, fun hzero => ?_, fun hzero h7 h0 h1 => ?_⟩
    · obtain ⟨hset, hcount, _, hlast, hwait, haborted, hstaged, hbus⟩ := abortShown_verdict (hsampled rest) hseen hruns habort
      exact ⟨hset, hcount.trans (congrArg (satAdd 32 · 1) (fieldsKept_showFirst _ (by decide))), hlast.trans (Nat.mod_eq_of_lt hx), hwait, haborted,
        hstaged, hbus⟩
    · obtain ⟨_, hlast, hcount, hwait, hnext, hreqs⟩ := passShown_verdict (hsampled rest) hlive hseen hruns hzero
      exact ⟨hwait, hlast, hcount, hnext, hreqs⟩
    · obtain ⟨hstate, hac, hrest, hin, _, hcount, hcells⟩ := holdShown_verdict (hsampled rest) hseen hruns (not_abortConds h7 h0 h1) hzero
      exact ⟨hstate, hac, hrest, hin, hcount.trans (fieldsKept_showFirst _ (by decide)), hcells⟩
  case refine_4 =>
    have habort : ¬ AbortConds x.conds := not_abortConds h7 h0 h1
    refine ⟨_, exec_drainVerdict, fun hearly => ?_, fun hlate => ?_⟩
    · exact (drainVerdict_held hlive hheld hsamples hage hseen habort hzero).trans (if_neg (Nat.not_le.2 hearly))
    · obtain ⟨hset, hcount, _, hlast, hwait, haborted, hstaged, _⟩ :=
        abortShown_drainVerdict_held hcanon hlive hheld hsamples hage hseen habort hzero hlate
      exact ⟨hset, hcount, hlast.trans (Nat.mod_eq_of_lt hx), hwait, haborted, hstaged⟩
  case refine_5 =>
    obtain ⟨_, hset, hcount, _, _, hwait, haborted, hstaged, _⟩ := abortShown_drainHoldTimeout hcanon hlive hheld hlate
    exact ⟨_, exec_drainHoldTimeout, hset, hcount, hwait, haborted, hstaged⟩
  case refine_6 => rw [exec_drainHoldTimeout, drainHoldTimeout_early hearly]

end Sys2Proof.Proofs

/-! SUPPORT. The tally over the mailbox: a counterexample to O17. -/
namespace Sys2Proof.Proofs
open Sys2Proof Sys2Proof.Machine

theorem exec_tallyRead {q : MboxReq} {s : State} : exec (.tallyRead q) s = .next (tallyRead q s) := rfl

/-- A module in READY with an open session, one model, a routing layer of that model and its tally region. DEV_CAP1.STEWARD_UP, a field of four bits, holds
16, which no write leaves and the canonical form of the fields admits: the field is not 0, and no steward is up. -/
def stewardUpTooWide : State :=
  { flds := [(F.DEV_CAP1_STEWARD_UP.key, 16)],
    boot := { phase := .ready },
    spdm := { sessions := [⟨1, true, 0, 0⟩] },
    mem := { recs := [{ model := 1, epoch := 2, shards := [{ ulen := 48, nearUnits := [0] }], objects := [{ kind := 3, len := 48 }] }],
             dir := [(8 * dirSet 1, { modelId := 1, epoch := 2, valid := true, active := true, near := true })],
             regions := [{ owner := .model 1, size := 32, stack := 1, units := [3] }],
             near := [(4, 1#8)] } }

/-- TALLY_READ of no records of layer 0 of model 1, in session 1. -/
def tallyReadRequest : MboxReq :=
  { session := some 1,
    body := leBytes 5 1 ++ leBytes 0 1 ++ leBytes 10 2 ++ leBytes 0 4 ++ (leBytes 1 4 ++ leBytes 0 2 ++ leBytes 0 2 ++ leBytes 0 2) }

theorem mboxOpen_stewardUpTooWide : mboxOpen stewardUpTooWide tallyReadRequest .session :=
  ⟨by decide, by decide, by decide +kernel, by decide, by decide, by decide, by decide, by decide, by decide⟩

theorem mboxUp_stewardUpTooWide : mboxUp stewardUpTooWide = false := by decide +kernel

/-- Where nothing serves the mailbox, a request is left without an answer. -/
theorem mboxRow_not_served {code : Nat} {q : MboxReq} {s : State} (h : mboxUp s = false) : mboxRow code q s = s := by
  simp [mboxRow, mboxArrive, h]

/-- Refutes O17: `mboxOpen` asks that DEV_CAP1.STEWARD_UP is not 0, and not that one of its four bits is set. In `stewardUpTooWide` no steward is up to
serve the mailbox (R488), so that a TALLY_READ which meets every hypothesis is not answered. -/
theorem not_tallyIsReadAndCleared : ¬ Obligations.TallyIsReadAndCleared := by
  intro h
  obtain ⟨hread, -⟩ := h stewardUpTooWide tallyReadRequest .session 1 0 _ _ (by decide) (by decide +kernel) mboxOpen_stewardUpTooWide
    (by decide) (by decide) (by decide) rfl rfl
  obtain ⟨t, hnext, hout, -⟩ := hread 0 0 (by decide) (by decide) (by decide) (Nat.zero_le _) (by decide)
  rw [exec_tallyRead, tallyRead, mboxRow_not_served mboxUp_stewardUpTooWide] at hnext
  injection hnext with ht
  subst ht
  simp at hout

end Sys2Proof.Proofs

/-! SUPPORT. Expert routing (R216, R220, R221): what one choice of a token can come to, and what an assignment keeps from choice to choice. -/
namespace Sys2Proof.Proofs
open Sys2Proof Sys2Proof.Machine

/-! ### Lists -/

/-- An induction over a list folded with its indices. -/
theorem foldl_zip_range {α β : Type} {P : Nat → β → Prop} {g : β → Nat × α → β} {b : β} {xs : List α} (h0 : P 0 b)
    (hstep : ∀ i (hi : i < xs.length) b, P i b → P (i + 1) (g b (i, xs[i]))) : P xs.length (((List.range xs.length).zip xs).foldl g b) := by
  induction xs using List.reverseRecOn with
  | nil => exact h0
  | append_singleton xs x ih =>
    have hinit : P xs.length (((List.range xs.length).zip xs).foldl g b) :=
      ih fun i hi b hb => by
        have h := hstep i (by simp; omega) b hb
        rwa [List.getElem_append_left hi] at h
    have hlast := hstep xs.length (by simp) _ hinit
    rw [List.length_append, List.length_singleton, List.range_succ, List.zip_append (by simp), List.foldl_append]
    simpa using hlast

/-- A list whose keys lie below `n` has as many entries as its keys have counts. -/
theorem length_eq_sum_countP {α : Type} {n : Nat} {key : α → Nat} {xs : List α} (h : ∀ x ∈ xs, key x < n) :
    xs.length = ((List.range n).map (fun e => xs.countP (fun x => key x == e))).sum := by
  have hcount := Multiset.sum_count_eq_card (s := Finset.range n) (m := ((xs.map key : List Nat) : Multiset Nat)) (by simpa using h)
  simp only [Multiset.coe_count, Multiset.coe_card, List.length_map, List.count, List.countP_map] at hcount
  exact hcount.symm

/-- The choices that an expert serves are its primary and its fallback ones. -/
theorem countP_expert_eq {ps : List Placement} {e : Nat} : ps.countP (fun p => p.expert == e) =
    ps.countP (fun p => p.expert == e && !p.fallback) + ps.countP (fun p => p.expert == e && p.fallback) := by
  rw [List.countP_eq_countP_filter_add ps _ (fun p => !p.fallback)]
  simp [List.countP_filter]

section
variable {l : RouteLayer} {tok : RouteToken} {scores : List Word} {a b : Assign} {c t j p e f : Nat} {fb spent tried r xs : List Nat}

/-! ### The ranking (R216) -/

theorem insertRank_perm : (insertRank scores e r).Perm (e :: r) := by
  induction r with
  | nil => rfl
  | cons x r ih =>
    unfold insertRank
    split
    · rfl
    · exact (ih.cons x).trans (.swap e x r)

theorem foldl_insertRank_perm : (xs.foldl (fun r e => insertRank scores e r) r).Perm (xs ++ r) := by
  induction xs generalizing r with
  | nil => rfl
  | cons x xs ih => exact ih.trans ((insertRank_perm.append_left xs).trans List.perm_middle)

theorem ranking_perm : (ranking l tok).Perm (List.range l.experts) := by
  have h := foldl_insertRank_perm (scores := tok.scores) (xs := List.range l.experts) (r := [])
  rwa [List.append_nil] at h

theorem primaryChoices_append_fallbackChoices : primaryChoices l tok ++ fallbackChoices l tok = (ranking l tok).take (l.k + l.d) :=
  List.take_add.symm

theorem choices_nodup : (primaryChoices l tok ++ fallbackChoices l tok).Nodup := by
  rw [primaryChoices_append_fallbackChoices]
  exact (ranking_perm.nodup_iff.2 List.nodup_range).sublist (List.take_sublist _ _)

theorem lt_experts_of_mem_choices (h : e ∈ primaryChoices l tok ++ fallbackChoices l tok) : e < l.experts := by
  rw [primaryChoices_append_fallbackChoices] at h
  exact List.mem_range.1 (ranking_perm.mem_iff.1 (List.mem_of_mem_take h))

theorem length_primaryChoices (h : l.k + l.d ≤ l.experts) : (primaryChoices l tok).length = l.k := by
  rw [primaryChoices, List.length_take, ranking_perm.length_eq, List.length_range]
  omega

theorem ne_of_mem_choices (hp : p ∈ primaryChoices l tok) (hf : f ∈ fallbackChoices l tok) : p ≠ f :=
  (List.nodup_append.1 choices_nodup).2.2 p hp f hf

/-! ### One choice (R220) -/

/-- The assignment with choice `j` of token `t` in the next place of expert `e`. -/
def serveChoice (a : Assign) (t j e : Nat) (fallback : Bool) : Assign := { a with placed := a.placed ++ [⟨t, j, e, usedPlaces a e, fallback⟩] }

/-- The assignment after the experts `l`, all full, have been tried. -/
def overflowed (a : Assign) (l : List Nat) : Assign := { a with overflow := a.overflow ++ l }

/-- The assignment with a choice of token `t`, for expert `p`, dropped. -/
def dropChoice (a : Assign) (t p : Nat) : Assign := { a with dropped := a.dropped ++ [(t, p)] }

/-- Fallback candidates tried for the first time. -/
def FirstTried (fb spent tried : List Nat) : Prop := tried.Nodup ∧ ∀ f ∈ tried, f ∈ fb ∧ f ∉ spent

@[simp] theorem overflowed_overflowed : overflowed (overflowed a r) xs = overflowed a (r ++ xs) := by simp [overflowed]

@[simp] theorem overflowed_placed : (overflowed a xs).placed = a.placed := rfl
@[simp] theorem usedPlaces_overflowed : usedPlaces (overflowed a xs) e = usedPlaces a e := rfl

theorem firstTried_nil : FirstTried fb spent [] := ⟨List.nodup_nil, by simp⟩

theorem firstTried_mono (h : FirstTried fb spent tried) : FirstTried (e :: fb) spent tried :=
  ⟨h.1, fun f hf => (h.2 f hf).imp_left (List.mem_cons_of_mem _)⟩

theorem firstTried_cons (h : FirstTried fb (e :: spent) tried) (he : e ∉ spent) : FirstTried (e :: fb) spent (e :: tried) := by
  obtain ⟨hnodup, hmem⟩ := h
  refine ⟨List.nodup_cons.2 ⟨fun ht => (hmem e ht).2 List.mem_cons_self, hnodup⟩, fun f hf => ?_⟩
  rcases List.mem_cons.1 hf with rfl | hf
  · exact ⟨List.mem_cons_self, he⟩
  · exact (hmem f hf).imp (List.mem_cons_of_mem _) (mt (List.mem_cons_of_mem _))

/-- What the walk down the candidates comes to: every candidate tried is full, or the last one serves the choice. -/
theorem tryFallback_cases : ∃ tried,
    (FirstTried fb spent tried ∧ tryFallback c t j fb spent a = (false, tried.reverse ++ spent, overflowed a tried)) ∨
    ∃ f, FirstTried fb spent (tried ++ [f]) ∧ usedPlaces a f < c ∧
      tryFallback c t j fb spent a = (true, (tried ++ [f]).reverse ++ spent, serveChoice (overflowed a tried) t j f true) := by
  induction fb generalizing spent a with
  | nil => exact ⟨[], .inl ⟨firstTried_nil, by simp [tryFallback, overflowed]⟩⟩
  | cons e fb ih =>
    unfold tryFallback
    split
    next =>
      obtain ⟨tried, ⟨h, heq⟩ | ⟨f, h, hf, heq⟩⟩ := ih (spent := spent) (a := a)
      · exact ⟨tried, .inl ⟨firstTried_mono h, heq⟩⟩
      · exact ⟨tried, .inr ⟨f, firstTried_mono h, hf, heq⟩⟩
    next he =>
      have hunspent : e ∉ spent := by simpa using he
      split
      next hfree =>
        exact ⟨[], .inr ⟨e, firstTried_cons firstTried_nil hunspent, hfree, by simp [overflowed, serveChoice, usedPlaces]⟩⟩
      next =>
        obtain ⟨tried, ⟨h, heq⟩ | ⟨f, h, hf, heq⟩⟩ := ih (spent := e :: spent) (a := overflowed a [e])
        · exact ⟨e :: tried, .inl ⟨firstTried_cons h hunspent, by simpa [overflowed] using heq⟩⟩
        · exact ⟨e :: tried, .inr ⟨f, firstTried_cons h hunspent, hf, by simpa [overflowed] using heq⟩⟩

theorem assignChoice_full (h : ¬ usedPlaces a p < c) : assignChoice c t fb (spent, a) (j, p) =
    let x := tryFallback c t j fb spent (overflowed a [p])
    if x.1 then x.2 else (x.2.1, dropChoice x.2.2 t p) := by
  simp only [assignChoice, if_neg h, overflowed]
  split <;> simp [*, dropChoice]

/-- What choice `j` of token `t`, for expert `p`, comes to: its primary expert serves it, a fallback candidate does, or it is dropped. -/
theorem assignChoice_cases :
    (usedPlaces a p < c ∧ assignChoice c t fb (spent, a) (j, p) = (spent, serveChoice a t j p false)) ∨
    ∃ tried, (∃ f, FirstTried fb spent (tried ++ [f]) ∧ usedPlaces a f < c ∧
      assignChoice c t fb (spent, a) (j, p) = ((tried ++ [f]).reverse ++ spent, serveChoice (overflowed a (p :: tried)) t j f true)) ∨
      (FirstTried fb spent tried ∧
        assignChoice c t fb (spent, a) (j, p) = (tried.reverse ++ spent, dropChoice (overflowed a (p :: tried)) t p)) := by
  by_cases hfree : usedPlaces a p < c
  · exact .inl ⟨hfree, if_pos hfree⟩
  · rw [assignChoice_full hfree]
    obtain ⟨tried, ⟨h, heq⟩ | ⟨f, h, hf, heq⟩⟩ :=
      tryFallback_cases (c := c) (t := t) (j := j) (fb := fb) (spent := spent) (a := overflowed a [p])
    · exact .inr ⟨tried, .inr ⟨h, by simp [heq]⟩⟩
    · exact .inr ⟨tried, .inl ⟨f, h, hf, by simp [heq]⟩⟩

/-! ### Places of experts -/

/-- Each place holds one choice, and an expert's places, which fill from 0 up, are at most `c`. -/
structure PlacesHold (c : Nat) (a : Assign) : Prop where
  distinct : (a.placed.map (fun p => (p.expert, p.place))).Nodup
  below : ∀ p ∈ a.placed, p.place < usedPlaces a p.expert
  within : ∀ e, usedPlaces a e ≤ c

theorem mem_serveChoice {q : Placement} {d : Bool} :
    q ∈ (serveChoice a t j e d).placed ↔ q ∈ a.placed ∨ q = ⟨t, j, e, usedPlaces a e, d⟩ := by simp [serveChoice]

/-- A key that names every placement still does after one whose key is new. -/
theorem nodup_map_serveChoice {d : Bool} {key : Placement → Nat × Nat} (h : (a.placed.map key).Nodup)
    (hnew : ∀ q ∈ a.placed, key q ≠ key ⟨t, j, e, usedPlaces a e, d⟩) : ((serveChoice a t j e d).placed.map key).Nodup := by
  rw [serveChoice, List.map_append]
  exact List.nodup_append.2 ⟨h, List.nodup_singleton _, by simpa using hnew⟩

theorem usedPlaces_serveChoice {d : Bool} : usedPlaces (serveChoice a t j e d) f = usedPlaces a f + if e = f then 1 else 0 := by
  simp [usedPlaces, serveChoice]

theorem placesHold_congr (h : PlacesHold c a) (heq : b.placed = a.placed) : PlacesHold c b := by
  obtain ⟨hdistinct, hbelow, hwithin⟩ := h
  constructor <;> simpa only [usedPlaces, heq]

theorem placesHold_serveChoice {d : Bool} (h : PlacesHold c a) (hfree : usedPlaces a e < c) : PlacesHold c (serveChoice a t j e d) := by
  obtain ⟨hdistinct, hbelow, hwithin⟩ := h
  refine ⟨nodup_map_serveChoice hdistinct fun q hq heq => ?_, fun q hq => ?_, fun f => ?_⟩
  · obtain ⟨hexpert, hplace⟩ := Prod.mk.inj heq
    exact absurd (hbelow q hq) (by simp [hexpert, hplace])
  · rw [usedPlaces_serveChoice]
    rcases mem_serveChoice.1 hq with hq | rfl
    · exact Nat.lt_add_right _ (hbelow q hq)
    · simp
  · rw [usedPlaces_serveChoice]
    split
    next hef => exact hef ▸ hfree
    next => exact hwithin f

/-! ### Choices of tokens -/

/-- Before choice `j` of token `t`: each choice and each expert of a token holds one place, and `t` holds places of experts in `used` alone. -/
structure ChoicesHold (t j : Nat) (used : List Nat) (a : Assign) : Prop where
  choices : (a.placed.map (fun p => (p.token, p.choice))).Nodup
  experts : (a.placed.map (fun p => (p.token, p.expert))).Nodup
  before : ∀ p ∈ a.placed, p.token < t ∨ p.token = t ∧ p.choice < j ∧ p.expert ∈ used

theorem choicesHold_next {used used' : List Nat} (h : ChoicesHold t j used a) (hsub : used ⊆ used') (heq : b.placed = a.placed) :
    ChoicesHold t (j + 1) used' b := by
  obtain ⟨hchoices, hexperts, hbefore⟩ := h
  refine ⟨heq ▸ hchoices, heq ▸ hexperts, fun q hq => ?_⟩
  exact (hbefore q (heq ▸ hq)).imp_right (.imp_right (.imp Nat.lt_succ_of_lt (hsub ·)))

theorem choicesHold_serveChoice {used used' : List Nat} {d : Bool} (h : ChoicesHold t j used a) (he : e ∉ used) (hsub : e :: used ⊆ used') :
    ChoicesHold t (j + 1) used' (serveChoice a t j e d) := by
  obtain ⟨hchoices, hexperts, hbefore⟩ := h
  have hfresh : ∀ q ∈ a.placed, q.token = t → q.choice ≠ j ∧ q.expert ≠ e := fun q hq htok => by
    rcases hbefore q hq with hlt | ⟨-, hlt, hmem⟩
    · omega
    · exact ⟨Nat.ne_of_lt hlt, fun heq => he (heq ▸ hmem)⟩
  refine ⟨nodup_map_serveChoice hchoices fun q hq heq => ?_, nodup_map_serveChoice hexperts fun q hq heq => ?_, fun q hq => ?_⟩
  · exact (hfresh q hq (Prod.mk.inj heq).1).1 (Prod.mk.inj heq).2
  · exact (hfresh q hq (Prod.mk.inj heq).1).2 (Prod.mk.inj heq).2
  · rcases mem_serveChoice.1 hq with hq | rfl
    · exact (hbefore q hq).imp_right (.imp_right (.imp Nat.lt_succ_of_lt fun hm => hsub (List.mem_cons_of_mem _ hm)))
    · exact .inr ⟨rfl, Nat.lt_succ_self j, hsub List.mem_cons_self⟩

/-! ### A half -/

/-- What holds before choice `j` of token `t`, whose choices so far used up the experts `used`. -/
structure Walked (l : RouteLayer) (t j : Nat) (used : List Nat) (a : Assign) : Prop where
  places : PlacesHold l.c a
  choices : ChoicesHold t j used a
  placed : ∀ p ∈ a.placed, p.choice < l.k ∧ p.expert < l.experts
  dropped : ∀ d ∈ a.dropped, d.2 < l.experts
  count : a.placed.length + a.dropped.length = t * l.k + j

section
variable {used used' : List Nat}

theorem walked_overflowed (h : Walked l t j used a) : Walked l t j used (overflowed a xs) :=
  ⟨placesHold_congr h.places rfl, ⟨h.choices.choices, h.choices.experts, h.choices.before⟩, h.placed, h.dropped, h.count⟩

theorem walked_serveChoice {d : Bool} (h : Walked l t j used a) (hfree : usedPlaces a e < l.c) (hj : j < l.k) (he : e < l.experts) (hnew : e ∉ used)
    (hsub : e :: used ⊆ used') : Walked l t (j + 1) used' (serveChoice a t j e d) where
  places := placesHold_serveChoice h.places hfree
  choices := choicesHold_serveChoice h.choices hnew hsub
  placed q hq := by
    rcases mem_serveChoice.1 hq with hq | rfl
    · exact h.placed q hq
    · exact ⟨hj, he⟩
  dropped := h.dropped
  count := by
    have := h.count
    simp only [serveChoice, List.length_append, List.length_singleton]
    omega

theorem walked_dropChoice (h : Walked l t j used a) (hp : p < l.experts) (hsub : used ⊆ used') : Walked l t (j + 1) used' (dropChoice a t p) where
  places := placesHold_congr h.places rfl
  choices := choicesHold_next h.choices hsub rfl
  placed := h.placed
  dropped q hq := by
    rcases List.mem_append.1 hq with hq | hq
    · exact h.dropped q hq
    · exact List.mem_singleton.1 hq ▸ hp
  count := by
    have := h.count
    simp only [dropChoice, List.length_append, List.length_singleton]
    omega

theorem walked_empty : Walked l 0 0 [] {} where
  places := ⟨List.nodup_nil, by simp, fun _ => Nat.zero_le _⟩
  choices := ⟨List.nodup_nil, List.nodup_nil, by simp⟩
  placed := by simp
  dropped := by simp
  count := by simp

theorem walked_nextToken (hj : j = l.k) (h : Walked l t j used a) : Walked l (t + 1) 0 [] a where
  places := h.places
  choices := ⟨h.choices.choices, h.choices.experts, fun q hq => .inl (by have := h.choices.before q hq; omega)⟩
  placed := h.placed
  dropped := h.dropped
  count := by rw [h.count, hj, Nat.succ_mul]; rfl

theorem spent_subset (h : FirstTried fb spent tried) (hspent : spent ⊆ fb) : tried.reverse ++ spent ⊆ fb :=
  List.append_subset.2 ⟨fun f hf => (h.2 f (List.mem_reverse.1 hf)).1, hspent⟩

/-- Choice `j` of a token: `prim` are its primary choices and `spent` the candidates that it has tried. -/
theorem walked_assignChoice {prim : List Nat} {x : List Nat × Assign} (hchoices : (prim ++ fb).Nodup) (hexperts : ∀ e ∈ prim ++ fb, e < l.experts)
    (hlen : prim.length = l.k) (hj : j < prim.length) (h : Walked l t j (prim.take j ++ x.1) x.2) (hspent : x.1 ⊆ fb) :
    Walked l t (j + 1) (prim.take (j + 1) ++ (assignChoice l.c t fb x (j, prim[j])).1) (assignChoice l.c t fb x (j, prim[j])).2 ∧
      (assignChoice l.c t fb x (j, prim[j])).1 ⊆ fb := by
  obtain ⟨spent, a⟩ := x
  obtain ⟨hprim, -, hdisjoint⟩ := List.nodup_append.1 hchoices
  have hp : prim[j] ∈ prim := List.getElem_mem hj
  have htake : prim.take (j + 1) = prim.take j ++ [prim[j]] := List.take_succ_eq_append_getElem hj
  have hnew : prim[j] ∉ prim.take j ++ spent := fun hmem => by
    rcases List.mem_append.1 hmem with hmem | hmem
    · exact (List.nodup_append.1 (htake ▸ hprim.sublist (List.take_sublist _ _))).2.2 _ hmem _ (List.mem_singleton_self _) rfl
    · exact hdisjoint _ hp _ (hspent hmem) rfl
  rcases assignChoice_cases (c := l.c) (t := t) (j := j) (p := prim[j]) (fb := fb) (spent := spent) (a := a) with
    ⟨hfree, heq⟩ | ⟨tried, ⟨f, htried, hfree, heq⟩ | ⟨htried, heq⟩⟩ <;> rw [heq]
  case inl =>
    exact ⟨walked_serveChoice h hfree (hlen ▸ hj) (hexperts _ (List.mem_append_left _ hp)) hnew (by grind), hspent⟩
  case inr.inl =>
    obtain ⟨hf, hunspent⟩ := htried.2 f (by simp)
    have hnotprim : f ∉ prim.take j := fun hmem => hdisjoint f (List.mem_of_mem_take hmem) f hf rfl
    exact ⟨walked_serveChoice (walked_overflowed h) hfree (hlen ▸ hj) (hexperts f (List.mem_append_right _ hf)) (by simp [hnotprim, hunspent])
      (by grind), spent_subset htried hspent⟩
  case inr.inr =>
    exact ⟨walked_dropChoice (walked_overflowed h) (hexperts _ (List.mem_append_left _ hp)) (by grind), spent_subset htried hspent⟩

theorem walked_assignToken {i : Nat} (hkd : l.k + l.d ≤ l.experts) (h : Walked l i 0 [] a) : Walked l (i + 1) 0 [] (assignToken l a (i, tok)) := by
  have hlen := length_primaryChoices (tok := tok) hkd
  have hfold := foldl_zip_range (g := assignChoice l.c i (fallbackChoices l tok)) (b := ([], a)) (xs := primaryChoices l tok)
    (P := fun j x => Walked l i j ((primaryChoices l tok).take j ++ x.1) x.2 ∧ x.1 ⊆ fallbackChoices l tok)
    ⟨h, List.nil_subset _⟩
    fun j hj x hx => walked_assignChoice choices_nodup (fun _ => lt_experts_of_mem_choices) hlen hj hx.1 hx.2
  exact walked_nextToken hlen hfold.1

theorem walked_assignHalf {ts : List RouteToken} (hkd : l.k + l.d ≤ l.experts) : Walked l ts.length 0 [] (assignHalf l ts) :=
  foldl_zip_range (P := fun i a => Walked l i 0 [] a) walked_empty fun _ _ _ h => walked_assignToken hkd h

end

/-! ### Tries of one candidate -/

/-- How often an expert was tried: it was full, or it served. -/
def tries (a : Assign) (f : Nat) : Nat := a.overflow.count f + a.placed.countP (fun p => p.expert == f)

/-- 1 as long as a candidate is not spent. -/
def unspent (spent : List Nat) (f : Nat) : Nat := if f ∈ spent then 0 else 1

theorem tries_serveChoice {d : Bool} : tries (serveChoice a t j e d) f = tries a f + [e].count f := by
  simp [tries, serveChoice, List.count_singleton, Nat.add_assoc]

theorem tries_overflowed : tries (overflowed a xs) f = tries a f + xs.count f := by
  simp only [tries, overflowed, List.count_append]
  omega

theorem tries_dropChoice : tries (dropChoice a t p) f = tries a f := rfl

/-- A try spends the candidate. -/
theorem count_add_unspent_le (h : FirstTried fb spent tried) : tried.count f + unspent (tried.reverse ++ spent) f ≤ unspent spent f := by
  obtain ⟨hnodup, hmem⟩ := h
  by_cases hf : f ∈ tried
  · simp [unspent, hf, (hmem f hf).2, List.count_eq_one_of_mem hnodup hf]
  · simp [unspent, hf, List.count_eq_zero_of_not_mem hf]

theorem tries_assignChoice_le {x : List Nat × Assign} (hf : f ≠ p) :
    tries (assignChoice c t fb x (j, p)).2 f + unspent (assignChoice c t fb x (j, p)).1 f ≤ tries x.2 f + unspent x.1 f := by
  obtain ⟨spent, a⟩ := x
  rcases assignChoice_cases (c := c) (t := t) (j := j) (p := p) (fb := fb) (spent := spent) (a := a) with
    ⟨-, heq⟩ | ⟨tried, ⟨e, htried, -, heq⟩ | ⟨htried, heq⟩⟩ <;> rw [heq]
  case inl => simp [tries_serveChoice, hf.symm]
  case inr.inl =>
    have := count_add_unspent_le (f := f) htried
    simp only [tries_serveChoice, tries_overflowed, List.count_append, List.count_cons_of_ne hf.symm] at this ⊢
    omega
  case inr.inr =>
    have := count_add_unspent_le (f := f) htried
    simp only [tries_dropChoice, tries_overflowed, List.count_cons_of_ne hf.symm]
    omega

theorem tries_assignToken_le {i : Nat} (hf : f ∈ fallbackChoices l tok) : tries (assignToken l a (i, tok)) f ≤ tries a f + 1 := by
  have hfold := foldl_zip_range (g := assignChoice l.c i (fallbackChoices l tok)) (b := ([], a)) (xs := primaryChoices l tok)
    (P := fun _ x => tries x.2 f + unspent x.1 f ≤ tries a f + 1) Nat.le.refl
    fun j hj x hx => (tries_assignChoice_le (ne_of_mem_choices (List.getElem_mem hj) hf).symm).trans hx
  exact (Nat.le_add_right _ _).trans hfold

end

/-- Settles O60 by what is `Walked` after the last token, by the ranking, which repeats no expert, and by the candidates spent as they are tried. -/
theorem routedChoicesAccount : Obligations.RoutedChoicesAccount := by
  unfold Obligations.RoutedChoicesAccount
  rintro l ts a hkd rfl
  obtain ⟨⟨hplaces, hbelow, hwithin⟩, ⟨hchoices, hexperts, hbefore⟩, hplaced, hdropped, hcount⟩ := walked_assignHalf (ts := ts) hkd
  refine ⟨hchoices, hplaces, hexperts, fun p hp => ⟨(hbelow p hp).trans_le (hwithin _), ?_, (hplaced p hp).1⟩, hwithin,
    fun _ _ => choices_nodup, ?_, by omega, ?_, length_eq_sum_countP hdropped⟩
  · simpa using hbefore p hp
  · rintro b _ i t f rfl hf
    exact tries_assignToken_le hf
  · simpa only [countP_expert_eq] using length_eq_sum_countP fun p hp => (hplaced p hp).2

end Sys2Proof.Proofs

/-! SUPPORT. Corrected errors past the width of their counter: a counterexample to O55. -/
namespace Sys2Proof.Proofs
open Sys2Proof Sys2Proof.Machine

theorem exec_nearReadUncorrectable {n addr onDie : Nat} {errs : List Nat} {s : State} :
    exec (.nearReadUncorrectable n addr errs onDie) s = .next (nearReadUncorrectable n addr errs onDie s) := rfl

/-- Stack 0 is in use, and MEM_NEAR_CE_CNT, a counter of 32 bits, holds 2^32, which no write leaves and the canonical form of the fields admits. -/
def nearCeTooWide : State := { flds := [(F.DEV_CAP0_NEAR_PRESENT.key, 1), (F.MEM_NEAR_CE_CNT.key, 2 ^ 32)] }

/-- The errors of a line by die: 17 of die 0 are more than the code corrects, and the erasure of that die explains them. -/
def dieZeroErrs : List Nat := 17 :: List.replicate 15 0

/-- Refutes O55: where the read reports no on-die corrections, the count of corrected errors stays as it is, and the statement has it saturate
(`satAdd 32`). In `nearCeTooWide` that count stands past its 32 bits, so that leaving it as it is and saturating it differ, in the read whose errors
one erased die explains (R239). -/
theorem not_tiersLoseAndScrub : ¬ Obligations.TiersLoseAndScrub := by
  intro h
  obtain ⟨-, -, hread, -⟩ := h nearCeTooWide (by decide) (by decide)
  obtain ⟨-, herase, -⟩ := hread 0 0 dieZeroErrs 0 [] (by decide) (by decide) (by decide) (by decide)
  obtain ⟨t, hnext, hcount, -⟩ := herase 0 rfl (by decide) (by decide)
  rw [exec_nearReadUncorrectable] at hnext
  injection hnext with ht
  subst ht
  revert hcount
  decide

end Sys2Proof.Proofs

/-! SUPPORT. The canonical form of the tiers' memories and the directory, of the cells and the ports, and of the tables, through every function of the model: one
lemma for each, in the order of the model's files. -/
namespace Sys2Proof.Proofs
open Sys2Proof Sys2Proof.Machine
-- Elaborated one after another: side by side these many short proofs take more threads than the check's memory holds.
set_option Elab.async false

/-! ### Families of maps -/

/-- The three families of maps whose canonical form is spoken of together. -/
inductive MapFamily where
  | memory
  | units
  | tables

/-- The maps of a family are in canonical form. -/
def inForm : MapFamily → State → Prop
  | .memory, s => s.memoryCanonical = true
  | .units, s => s.unitsCanonical = true
  | .tables, s => s.tablesCanonical = true

/-- The maps of the tiers. -/
def memMaps (m : MemSt) : List Host.Cell × List Host.Cell × List (Nat × DirEntry) × List (Nat × Nat) := (m.near, m.bulk, m.dir, m.early)

/-- The maps of the frame engine, and what its unlisted cells hold. -/
def frameMaps (x : FrameSt) : List (Nat × PaneContent) × List (Nat × CasementContent) × Bool := (x.panes, x.casements, x.idleHalted)

/-- The maps of the admission unit. -/
def admMaps (a : AdmSt) : List (Nat × RingSt) × List (Nat × ClientRec) := (a.rings, a.clients)

/-- The maps of the interrupt controller. -/
def irqMaps (x : IrqSt) : List (Nat × List (Nat × Nat)) × List (Nat × Nat) := (x.nested, x.heldUntil)

/-- The maps of the tiers are in canonical form, where that is the family spoken of. -/
def memInForm (fam : MapFamily) (m : MemSt) : Prop :=
  fam = .memory → Memory.wf m.near = true ∧ Memory.wf m.bulk = true ∧ smapWf noEntry m.dir = true ∧ smapWf zeroNat m.early = true

section
variable {s t : State} {fam : MapFamily} {m : MemSt}

theorem memoryCanonical_iff : s.memoryCanonical = true ↔ memInForm .memory s.mem := by
  simp [State.memoryCanonical, memInForm, and_assoc]

theorem unitsCanonical_iff : s.unitsCanonical = true ↔ smapWf (idleCell s) s.cells = true ∧ smapWf freshLink s.links = true := by
  simp [State.unitsCanonical]

theorem tablesCanonical_iff : s.tablesCanonical = true ↔ (smapWf noPane s.frame.panes = true ∧ smapWf noCasement s.frame.casements = true) ∧
    (smapWf freshRing s.adm.rings = true ∧ smapWf noClient s.adm.clients = true) ∧
    (smapWf noStack s.irq.nested = true ∧ smapWf zeroNat s.irq.heldUntil = true) ∧ smapWf zeroNat s.stampCnt = true := by
  simp [State.tablesCanonical, and_assoc]

theorem idleCell_congr (h : t.frame.idleHalted = s.frame.idleHalted) : idleCell t = idleCell s := by
  funext n
  rw [idleCell, idleCell, h]

/-- An update of the state that leaves the maps. -/
theorem update_inForm {pending flds hiLatch frame mem wgt adm out span pwr modes pins fuses nor boot irq stw spdm stampAhead caps events freeCtr}
    (h : inForm fam s) (hm : memMaps mem = memMaps s.mem := by dsimp only [memMaps]) (hf : frameMaps frame = frameMaps s.frame := by dsimp only [frameMaps])
    (ha : admMaps adm = admMaps s.adm := by dsimp only [admMaps]) (hi : irqMaps irq = irqMaps s.irq := by dsimp only [irqMaps]) :
    inForm fam (State.mk pending flds hiLatch frame s.cells mem wgt adm out s.links span pwr modes pins fuses nor boot irq stw spdm s.stampCnt
      stampAhead caps events freeCtr) := by
  simp only [memMaps, frameMaps, admMaps, irqMaps, Prod.mk.injEq] at hm hf ha hi
  obtain ⟨hnear, hbulk, hdir, hearly⟩ := hm
  obtain ⟨hpanes, hcasements, hidle⟩ := hf
  cases fam with
  | memory => exact memoryCanonical_iff.2 (by simpa only [memInForm, hnear, hbulk, hdir, hearly] using memoryCanonical_iff.1 h)
  | units =>
    have h := unitsCanonical_iff.1 h
    rw [← idleCell_congr (t := State.mk pending flds hiLatch frame s.cells mem wgt adm out s.links span pwr modes pins fuses nor boot irq stw spdm
      s.stampCnt stampAhead caps events freeCtr) hidle] at h
    exact unitsCanonical_iff.2 h
  | tables => exact tablesCanonical_iff.2 (by simpa only [hpanes, hcasements, ha, hi] using tablesCanonical_iff.1 h)

/-- The tiers may change as far as their own maps stay in form. -/
theorem setTiers_inForm (h : inForm fam s) (hm : memInForm fam s.mem → memInForm fam m) : inForm fam (setMem s m) := by
  cases fam with
  | memory => exact memoryCanonical_iff.2 (hm (memoryCanonical_iff.1 h))
  | units => exact h
  | tables => exact h

theorem setMem_inForm (h : inForm fam s) (hm : memMaps m = memMaps s.mem := by dsimp only [memMaps, recUpd, shardUpd, regionUpd, freeRegion, dropWritten,
    commitRegions, noteTallyFrame]) :
    inForm fam (setMem s m) :=
  update_inForm h (hm := hm)

/-- The admission unit may change as far as its own maps stay in form. -/
theorem setAdm_inForm {a : AdmSt} (h : inForm fam s) (ha : smapWf freshRing s.adm.rings = true ∧ smapWf noClient s.adm.clients = true →
    smapWf freshRing a.rings = true ∧ smapWf noClient a.clients = true) : inForm fam { s with adm := a } := by
  cases fam with
  | memory => exact h
  | units => exact h
  | tables =>
    obtain ⟨hframe, hadm, hrest⟩ := tablesCanonical_iff.1 h
    exact tablesCanonical_iff.2 ⟨hframe, ha hadm, hrest⟩

/-- So may the interrupt controller. -/
theorem setStacks_inForm {x : IrqSt} (h : inForm fam s) (hx : smapWf noStack s.irq.nested = true ∧ smapWf zeroNat s.irq.heldUntil = true →
    smapWf noStack x.nested = true ∧ smapWf zeroNat x.heldUntil = true) : inForm fam (setIrq s x) := by
  cases fam with
  | memory => exact h
  | units => exact h
  | tables =>
    obtain ⟨hframe, hadm, hirq, hstamps⟩ := tablesCanonical_iff.1 h
    exact tablesCanonical_iff.2 ⟨hframe, hadm, hx hirq, hstamps⟩

/-- So may the panes and casements. -/
theorem setSides_inForm {x : FrameSt} (h : inForm fam s) (hi : x.idleHalted = s.frame.idleHalted)
    (hx : smapWf noPane s.frame.panes = true ∧ smapWf noCasement s.frame.casements = true →
      smapWf noPane x.panes = true ∧ smapWf noCasement x.casements = true) : inForm fam (setFrame s x) := by
  cases fam with
  | memory => exact h
  | units =>
    have hidle : idleCell (setFrame s x) = idleCell s := idleCell_congr hi
    rw [inForm, unitsCanonical_iff, hidle]
    exact unitsCanonical_iff.1 h
  | tables =>
    obtain ⟨hframe, hrest⟩ := tablesCanonical_iff.1 h
    exact tablesCanonical_iff.2 ⟨hx hframe, hrest⟩

/-- So may the stamp counts. -/
theorem setStampCnt_inForm {x ahead events} (h : inForm fam s) (hx : smapWf zeroNat s.stampCnt = true → smapWf zeroNat x = true) :
    inForm fam { s with stampCnt := x, stampAhead := ahead, events := events } := by
  cases fam with
  | memory => exact h
  | units => exact h
  | tables =>
    obtain ⟨hframe, hadm, hirq, hstamps⟩ := tablesCanonical_iff.1 h
    exact tablesCanonical_iff.2 ⟨hframe, hadm, hirq, hx hstamps⟩

/-- So may the cells, where what an unlisted one holds may change with them. -/
theorem setCells_inForm {cells : List (Nat × Cell)} {halted : Bool} (h : inForm fam s)
    (hcells : smapWf (idleCell s) s.cells = true →
      smapWf (idleCell { s with frame := { s.frame with idleHalted := halted } }) cells = true) :
    inForm fam { s with frame := { s.frame with idleHalted := halted }, cells := cells } := by
  cases fam with
  | memory => exact h
  | units =>
    obtain ⟨hold, hlinks⟩ := unitsCanonical_iff.1 h
    exact unitsCanonical_iff.2 ⟨hcells hold, hlinks⟩
  | tables => exact h

end

section
variable {s t : State} {fam : MapFamily}

/-! ### Choices, lists and pairs of states -/

theorem ite_inForm {c : Prop} {d : Decidable c} (hs : inForm fam s) (ht : inForm fam t) :
    inForm fam (if c then s else t) := by split <;> assumption

theorem ite_snd_inForm {α : Type} {c : Prop} {d : Decidable c} {p q : α × State} (hp : inForm fam p.2) (hq : inForm fam q.2) :
    inForm fam (if c then p else q).2 := by split <;> assumption

theorem ite_fst_inForm {α : Type} {c : Prop} {d : Decidable c} {p q : State × α} (hp : inForm fam p.1) (hq : inForm fam q.1) :
    inForm fam (if c then p else q).1 := by split <;> assumption

theorem ite_snd2_inForm {α β : Type} {c : Prop} {d : Decidable c} {p q : α × β × State} (hp : inForm fam p.2.2) (hq : inForm fam q.2.2) :
    inForm fam (if c then p else q).2.2 := by split <;> assumption

theorem ite_snd3_inForm {α β γ : Type} {c : Prop} {d : Decidable c} {p q : α × β × γ × State} (hp : inForm fam p.2.2.2)
    (hq : inForm fam q.2.2.2) : inForm fam (if c then p else q).2.2.2 := by split <;> assumption

theorem foldl_snd_inForm {α β : Type} {g : β × State → α → β × State} {p : β × State} {l : List α}
    (hg : ∀ q, inForm fam q.2 → ∀ x, inForm fam (g q x).2) (h : inForm fam p.2) : inForm fam (l.foldl g p).2 := by
  induction l generalizing p with
  | nil => exact h
  | cons x l ih => exact ih (hg _ h x)

theorem snd_inForm {α : Type} {p : α × State} {a : α} (hp : inForm fam p.2) (e : p = (a, s)) : inForm fam s := by
  rw [e] at hp
  exact hp

theorem foldl_inForm {α : Type} {g : State → α → State} {l : List α} (hg : ∀ t, inForm fam t → ∀ x, inForm fam (g t x))
    (h : inForm fam s) : inForm fam (l.foldl g s) := by
  induction l generalizing s with
  | nil => exact h
  | cons x l ih => exact ih (hg _ h x)

/-! ### Machine/Ops -/

theorem setF_inForm {f v} (h : inForm fam s) : inForm fam (setF s f v) := update_inForm h

theorem raise_inForm {f} (h : inForm fam s) : inForm fam (raise s f) := setF_inForm h
theorem lower_inForm {f} (h : inForm fam s) : inForm fam (lower s f) := setF_inForm h
theorem setBool_inForm {f b} (h : inForm fam s) : inForm fam (setBool s f b) := setF_inForm h
theorem addF_inForm {f n} (h : inForm fam s) : inForm fam (addF s f n) := setF_inForm h
theorem bump_inForm {f} (h : inForm fam s) : inForm fam (bump s f) := addF_inForm h
theorem setBitF_inForm {f n b} (h : inForm fam s) : inForm fam (setBitF s f n b) := setF_inForm h
theorem setFields_inForm {l} (h : inForm fam s) :
    inForm fam (setFields s l) := foldl_inForm (fun _ ht _ => setF_inForm ht) h
theorem capture_inForm {guards vals} (h : inForm fam s) : inForm fam (capture s guards vals) := by
  unfold capture
  exact
    have h1 := ite_inForm h (update_inForm h)
    ite_inForm (setFields_inForm h1) h1

theorem countLater_inForm {guards cnt} (h : inForm fam s) :
    inForm fam (countLater s guards cnt) := bump_inForm (update_inForm h)
theorem countStamp_inForm {y} (h : inForm fam s) : inForm fam (countStamp s y) :=
  ite_inForm (setStampCnt_inForm h (Laws.smapWf_set _ _)) (update_inForm h)

theorem freshStamps_inForm (h : inForm fam s) : inForm fam (freshStamps s) :=
  setStampCnt_inForm h fun _ =>
    List.foldlRecOn (motive := fun m => smapWf zeroNat m = true) _ _ rfl fun _ hm _ _ => Laws.smapWf_set _ _ hm

theorem stampCaused_inForm {src k c} (h : inForm fam s) : inForm fam (stampCaused s src k c) :=
  update_inForm (countStamp_inForm h)

theorem stampEvent_inForm {src k} (h : inForm fam s) : inForm fam (stampEvent s src k) :=
  setStampCnt_inForm h (Laws.smapWf_set _ _)

/-! ### Machine/Requests -/

theorem emit_inForm {m} (h : inForm fam s) : inForm fam (emit s m) := update_inForm h
theorem freeVal_inForm {w} (h : inForm fam s) : inForm fam (freeVal s w).2 := update_inForm h
theorem setReqs_inForm {l} (h : inForm fam s) : inForm fam (setReqs s l) := update_inForm h
theorem failReq_inForm {c aseq cause?} (h : inForm fam s) : inForm fam (failReq s c aseq cause?) :=
  update_inForm (countStamp_inForm h)

theorem failEvery_inForm {c p cause?} (h : inForm fam s) : inForm fam (failEvery s c p cause?) :=
  foldl_inForm (fun _ ht _ => failReq_inForm ht) h

theorem failWhere_inForm {c p cause?} (h : inForm fam s) : inForm fam (failWhere s c p cause?) := failEvery_inForm h
theorem moveWhere_inForm {c p} (h : inForm fam s) : inForm fam (moveWhere s c p) := setReqs_inForm (countStamp_inForm h)
theorem breakStream_inForm {c client stream cause?} (h : inForm fam s) : inForm fam (breakStream s c client stream cause?) :=
  failWhere_inForm (update_inForm h)

/-! ### Machine/Memory: the tiers alone -/

section
variable {m m' : MemSt} {i model epoch k : Nat}

theorem setNear_inForm {x : List Host.Cell} (h : memInForm fam m) (hx : Memory.wf m.near = true → Memory.wf x = true) :
    memInForm fam { m with near := x } := fun hfam =>
  have ⟨hnear, hrest⟩ := h hfam
  ⟨hx hnear, hrest⟩

theorem setBulk_inForm {x : List Host.Cell} (h : memInForm fam m) (hx : Memory.wf m.bulk = true → Memory.wf x = true) :
    memInForm fam { m with bulk := x } := fun hfam =>
  have ⟨hnear, hbulk, hrest⟩ := h hfam
  ⟨hnear, hx hbulk, hrest⟩

theorem dirUpd_inForm {f} (h : memInForm fam m) : memInForm fam (dirUpd m i f) := by
  unfold dirUpd
  dsimp only
  split
  · exact h
  · exact fun hfam =>
      have ⟨hnear, hbulk, hdir, hearly⟩ := h hfam
      ⟨hnear, hbulk, Laws.smapWf_set _ _ hdir, hearly⟩

theorem dirUpdEpoch_inForm {f} (h : memInForm fam m) : memInForm fam (dirUpdEpoch m model epoch f) := by
  unfold dirUpdEpoch
  split
  · exact dirUpd_inForm h
  · exact h

theorem recUpd_inForm {f} (h : memInForm fam m) : memInForm fam (recUpd m model epoch f) := h

theorem shardUpd_inForm {f} (h : memInForm fam m) : memInForm fam (shardUpd m model epoch k f) := h

theorem freeRegion_inForm {o} (h : memInForm fam m) : memInForm fam (freeRegion m o) := h

theorem regionUpd_inForm {o f} (h : memInForm fam m) : memInForm fam (regionUpd m o f) := h

theorem clearNear_inForm {base units} (h : memInForm fam m) : memInForm fam { m with near := clearUnits m.near base units } :=
  setNear_inForm h (Laws.memory_wf_clearUnits base units)

theorem placeRegion_inForm {o size} (h : memInForm fam m) (e : placeRegion s o size m = some m') : memInForm fam m' := by
  unfold placeRegion at e
  dsimp only at e
  split at e
  · cases e
    exact clearNear_inForm h
  · cases e

theorem openLine_inForm {r line} (h : memInForm fam m) : memInForm fam (openLine m r line) := by
  unfold openLine
  dsimp only
  split
  · exact h
  · exact regionUpd_inForm (setNear_inForm h (Laws.memory_wf_writeBytes _ _ _ _))

theorem regionStore_inForm {o a bytes} (h : memInForm fam m) : memInForm fam (regionStore m o a bytes) := by
  unfold regionStore
  dsimp only
  split
  · exact setNear_inForm (openLine_inForm h) (Laws.memory_wf_writeBytes _ _ _ _)
  · exact h

theorem dropModelRegion_inForm (h : memInForm fam m) : memInForm fam (dropModelRegion m model) := by
  unfold dropModelRegion
  split
  · exact h
  · exact freeRegion_inForm h

theorem freeEpochUnits_inForm (h : memInForm fam m) : memInForm fam (freeEpochUnits m model epoch) := dropModelRegion_inForm (recUpd_inForm h)

theorem claimEntry_inForm (h : memInForm fam m) : memInForm fam (claimEntry m i) := freeEpochUnits_inForm (dirUpd_inForm h)

theorem evictUntil_inForm {try? l n x} (htry : ∀ m m', memInForm fam m → try? m = some m' → memInForm fam m') (h : memInForm fam m)
    (e : evictUntil try? l m n = some x) : memInForm fam x.1 := by
  induction l generalizing m n with
  | nil =>
    obtain ⟨m', hm', rfl⟩ := Option.map_eq_some_iff.1 e
    exact htry m m' h hm'
  | cons i l ih =>
    unfold evictUntil at e
    split at e
    · next m' hm' =>
      cases e
      exact htry m m' h hm'
    · exact ih (claimEntry_inForm h) e

theorem placeShards_inForm {keep l} (h : memInForm fam m) (e : placeShards s model epoch keep l k m = some m') : memInForm fam m' := by
  induction l generalizing m k with
  | nil => cases e; exact h
  | cons x l ih =>
    unfold placeShards at e
    dsimp only at e
    split at e
    · exact ih h e
    · split at e
      · exact ih (clearNear_inForm (shardUpd_inForm h)) e
      · cases e

theorem placeEpoch_inForm {keep} (h : memInForm fam m) (e : placeEpoch s model epoch keep m = some m') : memInForm fam m' := by
  unfold placeEpoch at e
  split at e
  · split at e
    · next hm =>
      have hplaced := placeShards_inForm h hm
      split at e
      · exact placeRegion_inForm hplaced e
      · cases e; exact hplaced
    · cases e
  · cases e

theorem claimBulk_inForm (h : memInForm fam m) : memInForm fam (claimBulk m i) := recUpd_inForm (dirUpd_inForm h)

theorem placeBulk_inForm {side need} (h : memInForm fam m) (e : placeBulk s model epoch k side need m = some m') : memInForm fam m' := by
  have hcleared {sd units} : memInForm fam { shardUpd m model epoch k (fun h => { h with bulkSide := sd, bulkUnits := units }) with
      bulk := clearUnits m.bulk (sd * 0x8000000000) units } :=
    setBulk_inForm (shardUpd_inForm h) (Laws.memory_wf_clearUnits _ _)
  unfold placeBulk at e
  dsimp only at e
  split at e
  · next hm =>
    cases e
    obtain ⟨-, e⟩ := Option.ite_none_right_eq_some.1 hm
    cases e
    exact hcleared
  · obtain ⟨-, e⟩ := Option.ite_none_right_eq_some.1 e
    cases e
    exact hcleared

theorem reserveBulk_go_inForm {side need l n x} (h : memInForm fam m) (e : reserveBulk.go s model epoch k side need l m n = some x) :
    memInForm fam x.1 := by
  induction l generalizing m n with
  | nil =>
    obtain ⟨m', hm', rfl⟩ := Option.map_eq_some_iff.1 e
    exact placeBulk_inForm h hm'
  | cons i l ih =>
    unfold reserveBulk.go at e
    split at e
    · next hm' =>
      cases e
      exact placeBulk_inForm h hm'
    · exact ih (claimBulk_inForm h) e

end

/-! ### Machine/Memory -/

theorem memEvent_inForm {bit kind unit die region addr} (h : inForm fam s) :
    inForm fam (memEvent s bit kind unit die region addr) :=
  raise_inForm (capture_inForm h)

theorem nvmeIo_inForm {ctrl opcode arg} (h : inForm fam s) : inForm fam (nvmeIo s ctrl opcode arg) := emit_inForm h
theorem readRun_inForm {r} (h : inForm fam s) :
    inForm fam (readRun s r) := foldl_inForm (fun _ ht _ => nvmeIo_inForm ht) h
theorem issueReads_inForm (h : inForm fam s) : inForm fam (issueReads s) := by
  unfold issueReads
  split
  · exact ite_inForm h (foldl_inForm (fun _ ht _ => readRun_inForm ht) (setMem_inForm h))
  · exact h

theorem endPending_inForm {w} (h : inForm fam s) : inForm fam (endPending s w) := by
  unfold endPending
  exact
    have h1 := bump_inForm (raise_inForm (setMem_inForm h))
    have h2 := issueReads_inForm (ite_inForm (setF_inForm h1) h1)
    ite_inForm (lower_inForm h2) h2

theorem evictFor_inForm {try?} (h : inForm fam s) (htry : ∀ m m', memInForm fam m → try? m = some m' → memInForm fam m') : inForm fam (evictFor s try?).2 := by
  unfold evictFor
  split
  · next hm => exact addF_inForm (setTiers_inForm h fun hs => evictUntil_inForm htry hs hm)
  · exact memEvent_inForm h

theorem retryPending_inForm (h : inForm fam s) : inForm fam (retryPending s) := by
  unfold retryPending
  refine foldl_inForm (fun _ ht _ => ite_inForm ht ?_) h
  split
  · next _ _ e =>
      exact endPending_inForm (snd_inForm (evictFor_inForm ht fun _ _ => placeEpoch_inForm) e)
  · next _ e =>
      exact snd_inForm (evictFor_inForm ht fun _ _ => placeEpoch_inForm) e

theorem reserveWith_inForm {try?} (h : inForm fam s) (htry : ∀ m m', memInForm fam m → try? m = some m' → memInForm fam m') :
    inForm fam (reserveWith s try?).2 := by
  unfold reserveWith
  split
  · next _ e =>
      exact snd_inForm (evictFor_inForm h htry) e
  · next _ _ e =>
      exact retryPending_inForm (snd_inForm (evictFor_inForm h htry) e)
  · next _ e =>
      exact snd_inForm (evictFor_inForm h htry) e

theorem reserveEpoch_inForm {model epoch} (h : inForm fam s) :
    inForm fam (reserveEpoch s model epoch).2 :=
  reserveWith_inForm h fun _ _ => placeEpoch_inForm

theorem queueFetch_inForm {model epoch bound waiting} (h : inForm fam s) :
    inForm fam (queueFetch s model epoch bound waiting) :=
  issueReads_inForm (setF_inForm (setTiers_inForm h dirUpdEpoch_inForm))

theorem rebusy_inForm {fromStore} (h : inForm fam s) :
    inForm fam (rebusy s fromStore) := issueReads_inForm (setF_inForm h)
theorem endJob_inForm {model epoch} (h : inForm fam s) : inForm fam (endJob s model epoch) := by
  unfold endJob
  split
  · exact rebusy_inForm (setMem_inForm h)
  · exact h

theorem abandonFetch_inForm {model epoch} (h : inForm fam s) : inForm fam (abandonFetch s model epoch) :=
  failWhere_inForm (setTiers_inForm (endJob_inForm h) fun hm => freeEpochUnits_inForm (dirUpdEpoch_inForm hm))

theorem missFetch_inForm {model epoch} (h : inForm fam s) : inForm fam (missFetch s model epoch) :=
  ite_inForm (bump_inForm (setMem_inForm h)) h

theorem markUnusable_inForm {model epoch} (h : inForm fam s) : inForm fam (markUnusable s model epoch) := by
  unfold markUnusable
  exact
    have h1 := setTiers_inForm h dirUpdEpoch_inForm
    failWhere_inForm (ite_inForm (setTiers_inForm (endJob_inForm h1) fun hm => freeEpochUnits_inForm (dirUpdEpoch_inForm hm)) h1)

theorem refetchFromStore_inForm {model epoch} (h : inForm fam s) : inForm fam (refetchFromStore s model epoch) := by
  unfold refetchFromStore
  dsimp only
  have h1 := setTiers_inForm (m := recUpd (dirUpdEpoch s.mem model epoch (fun e => { e with bulk := false })) model epoch
    (fun r => { r with shards := r.shards.map (fun h => { h with inBulk := false, bulkUnits := [] }) })) h
    fun hm => recUpd_inForm (dirUpdEpoch_inForm hm)
  split
  · exact ite_inForm h1 (ite_inForm (abandonFetch_inForm (missFetch_inForm h1)) (issueReads_inForm (rebusy_inForm (setF_inForm
      (setMem_inForm h1)))))
  · exact h1

theorem reserveBulk_inForm {model epoch k side need} (h : inForm fam s) (e : reserveBulk s model epoch k side need = some t) :
    inForm fam t := by
  unfold reserveBulk at e
  obtain ⟨x, hx, rfl⟩ := Option.map_eq_some_iff.mp e
  exact addF_inForm (setTiers_inForm h fun hm => reserveBulk_go_inForm hm hx)

theorem servePending_inForm (h : inForm fam s) : inForm fam (servePending s) := by
  unfold servePending
  refine foldl_inForm (fun _ ht _ => ?_) h
  split
  · exact ite_inForm (retryPending_inForm (bump_inForm (setTiers_inForm ht claimEntry_inForm))) ht
  · exact ht

theorem unpin_inForm {model epoch} (h : inForm fam s) :
    inForm fam (unpin s model epoch) := servePending_inForm (setTiers_inForm h dirUpdEpoch_inForm)
theorem lookupPin_inForm {i} (h : inForm fam s) : inForm fam (lookupPin s i) := setTiers_inForm h dirUpd_inForm

/-! ### Machine/SpanOps -/

theorem setLink_inForm {n l} (h : inForm fam s) : inForm fam (setLink s n l) := by
  cases fam with
  | memory => exact h
  | units => exact unitsCanonical_setLink h
  | tables => exact h

theorem setSpan_inForm {x} (h : inForm fam s) : inForm fam (setSpan s x) := update_inForm h
theorem setFrame_inForm {x} (h : inForm fam s) (hx : frameMaps x = frameMaps s.frame := by
    dsimp only [frameMaps, lower, raise, setBool, Laws.setF_frame]) :
    inForm fam (setFrame s x) :=
  update_inForm h (hf := hx)

theorem setPwr_inForm {x} (h : inForm fam s) : inForm fam (setPwr s x) := update_inForm h
theorem queueCtrl_inForm {port b} (h : inForm fam s) : inForm fam (queueCtrl s port b) := setLink_inForm h
theorem forwardUp_inForm {b} (h : inForm fam s) : inForm fam (forwardUp s b) := queueCtrl_inForm h
theorem forwardDown_inForm {b} (h : inForm fam s) : inForm fam (forwardDown s b) :=
  foldl_inForm (fun _ ht _ => queueCtrl_inForm ht) h

theorem sendCtrl_inForm {m} (h : inForm fam s) : inForm fam (sendCtrl s m) := by
  unfold sendCtrl
  refine ite_inForm h ?_
  exact
    have h1 := bump_inForm h
    ite_inForm (ite_inForm h1 (forwardUp_inForm h1)) (forwardDown_inForm h1)

theorem toMaster_inForm {y msg n arg} (h : inForm fam s) : inForm fam (toMaster s y msg n arg) := sendCtrl_inForm h
theorem toAll_inForm {y msg n arg} (h : inForm fam s) : inForm fam (toAll s y msg n arg) := sendCtrl_inForm h
theorem eventToMaster_inForm {src cause? msg n arg} (h : inForm fam s) : inForm fam (eventToMaster s src cause? msg n arg) :=
  toMaster_inForm (countStamp_inForm h)

theorem eventToAll_inForm {src cause? msg n arg} (h : inForm fam s) : inForm fam (eventToAll s src cause? msg n arg) :=
  toAll_inForm (countStamp_inForm h)

theorem announceChange_inForm {src cause? subject n operand} (h : inForm fam s) :
    inForm fam (announceChange s src cause? subject n operand) :=
  eventToAll_inForm (setSpan_inForm h)

theorem raiseNarrow_inForm (h : inForm fam s) :
    inForm fam (raiseNarrow s) := ite_inForm h (raise_inForm (raise_inForm h))
theorem alignLoss_inForm {cause?} (h : inForm fam s) : inForm fam (alignLoss s cause?) :=
  eventToMaster_inForm (bump_inForm (raise_inForm (lower_inForm h)))

theorem takeGrant_inForm {g cause?} (h : inForm fam s) : inForm fam (takeGrant s g cause?) := by
  unfold takeGrant
  refine ite_inForm (alignLoss_inForm (raise_inForm h)) (ite_inForm ?_ h)
  exact
    have h1 := setSpan_inForm (setF_inForm (raise_inForm h))
    ite_inForm (raiseNarrow_inForm (setPwr_inForm h1)) h1

theorem grantStretch_inForm {r} (h : inForm fam s) : inForm fam (grantStretch s r) :=
  ite_inForm h (takeGrant_inForm (eventToAll_inForm (setSpan_inForm h)))

theorem acceptStretch_inForm {r} (h : inForm fam s) : inForm fam (acceptStretch s r) :=
  ite_inForm (bump_inForm h) (ite_inForm (bump_inForm h) (grantStretch_inForm h))

theorem askStretch_inForm {amountUs c} (h : inForm fam s) : inForm fam (askStretch s amountUs c) := by
  unfold askStretch
  refine ite_inForm h ?_
  exact
    have h1 := setFrame_inForm h
    have h2 := ite_inForm (bump_inForm h1) h1
    ite_inForm (acceptStretch_inForm h2) (eventToMaster_inForm h2)

theorem requestStretch_inForm {overNs c} (h : inForm fam s) : inForm fam (requestStretch s overNs c) :=
  ite_inForm h (askStretch_inForm h)

theorem sendNotice_inForm {y} (h : inForm fam s) : inForm fam (sendNotice s y) := by
  unfold sendNotice
  refine ite_inForm h ?_
  exact
    have h1 := bump_inForm (raise_inForm (setSpan_inForm h))
    ite_inForm (toAll_inForm h1) (toMaster_inForm h1)

theorem markFaulted_inForm {y} (h : inForm fam s) : inForm fam (markFaulted s y) := by
  unfold markFaulted
  refine ite_inForm h ?_
  exact
    have h1 := raise_inForm (raise_inForm (ite_inForm h (bump_inForm h)))
    ite_inForm (sendNotice_inForm h1) h1

theorem noteReport_inForm {r} (h : inForm fam s) : inForm fam (noteReport s r) := by
  unfold noteReport
  exact
    have h1 := setSpan_inForm h
    ite_inForm (setSpan_inForm h1) (ite_inForm (setSpan_inForm h1) h1)

theorem sendReport_inForm {r} (h : inForm fam s) : inForm fam (sendReport s r) := by
  unfold sendReport
  refine ite_inForm h ?_
  exact
    have h1 := noteReport_inForm h
    ite_inForm (setSpan_inForm h1) (toMaster_inForm h1)

/-! ### Machine/PowerOps -/

theorem setOp_inForm {op} (h : inForm fam s) : inForm fam (setOp s op) := ite_inForm (setPwr_inForm h) (setF_inForm h)
theorem aimAt_inForm {z op next} (h : inForm fam s) : inForm fam (aimAt s z op next) :=
  setOp_inForm (setF_inForm (setF_inForm h))

theorem showFloor_inForm (h : inForm fam s) : inForm fam (showFloor s) := ite_inForm h (setF_inForm h)
theorem aimRest_inForm (h : inForm fam s) : inForm fam (aimRest s) := by
  unfold aimRest
  dsimp only
  split
  · exact ite_inForm (setOp_inForm (setF_inForm (setF_inForm (setF_inForm h)))) (aimAt_inForm (setF_inForm h))
  · exact ite_inForm (setOp_inForm (setF_inForm (setF_inForm h))) (aimAt_inForm h)

theorem keepPoints_inForm {ch} (h : inForm fam s) : inForm fam (keepPoints s ch) := setPwr_inForm h
theorem planPoints_inForm (h : inForm fam s) : inForm fam (planPoints s) := by
  unfold planPoints
  dsimp only
  refine ite_inForm (aimRest_inForm (showFloor_inForm h)) ?_
  split
  · exact
      have h1 := foldl_inForm (fun _ ht _ => setBool_inForm (setBool_inForm (setF_inForm (setF_inForm ht))))
        (setPwr_inForm (showFloor_inForm h))
      have h2 := aimAt_inForm (setF_inForm (ite_inForm h1 (keepPoints_inForm h1)))
      have h3 := raiseNarrow_inForm (setPwr_inForm (ite_inForm h2 (bump_inForm (raise_inForm h2))))
      ite_inForm h2 (ite_inForm (requestStretch_inForm h3) h3)
  · exact
      have h1 := foldl_inForm (fun _ ht _ => setBool_inForm (setBool_inForm (setF_inForm (setF_inForm ht))))
        (setPwr_inForm (showFloor_inForm h))
      have h2 := aimRest_inForm (ite_inForm h1 (keepPoints_inForm h1))
      have h3 := raiseNarrow_inForm (setPwr_inForm (ite_inForm h2 (bump_inForm (raise_inForm h2))))
      ite_inForm h2 (ite_inForm (requestStretch_inForm h3) h3)

theorem replanMoved_inForm {old} (h : inForm fam s) :
    inForm fam (replanMoved old s) := ite_inForm h (planPoints_inForm h)
theorem clearPhases_inForm (h : inForm fam s) : inForm fam (clearPhases s) :=
  foldl_inForm (fun _ ht _ => lower_inForm (lower_inForm (setF_inForm (setF_inForm ht)))) h

theorem aimPhase_inForm {k} (h : inForm fam s) : inForm fam (aimPhase s k) := by
  unfold aimPhase
  dsimp only
  split
  · exact h
  · exact aimAt_inForm (setF_inForm h)

theorem leadNext_inForm {c} (h : inForm fam s) : inForm fam (leadNext s c) := aimAt_inForm (setPwr_inForm h)
theorem leaveIdle_inForm (h : inForm fam s) :
    inForm fam (leaveIdle s) := ite_inForm (aimRest_inForm (setF_inForm h)) h
theorem showCap_inForm (h : inForm fam s) : inForm fam (showCap s) := setF_inForm h
theorem capChanged_inForm {old} (h : inForm fam s) : inForm fam (capChanged old s) := by
  unfold capChanged
  exact
    have h1 := showCap_inForm h
    ite_inForm h1 (planPoints_inForm h1)

theorem bootCap_inForm (h : inForm fam s) : inForm fam (bootCap s) := ite_inForm (setPwr_inForm h) h
theorem countFall_inForm (h : inForm fam s) : inForm fam (countFall s) := bump_inForm (raise_inForm h)
theorem touchSlot_inForm {slot} (h : inForm fam s) : inForm fam (touchSlot s slot) := setPwr_inForm h
theorem learnFrame_inForm (h : inForm fam s) : inForm fam (learnFrame s) := by
  unfold learnFrame
  dsimp only
  split
  · exact touchSlot_inForm (setPwr_inForm h)
  · exact touchSlot_inForm (setPwr_inForm h)

/-! ### Machine/Journal -/

theorem setRing_inForm {r x} (h : inForm fam s) : inForm fam (setRing s r x) :=
  setAdm_inForm h fun ⟨hrings, hclients⟩ => ⟨Laws.smapWf_set _ _ hrings, hclients⟩

theorem haltRing_inForm {r kind index} (h : inForm fam s) : inForm fam (haltRing s r kind index) :=
  stampEvent_inForm (raise_inForm (raise_inForm (capture_inForm h)))

theorem announceRing_inForm {r} (h : inForm fam s) : inForm fam (announceRing s r) := ite_inForm h (update_inForm h)
theorem putReceipt_inForm {r z refused} (h : inForm fam s) : inForm fam (putReceipt s r z refused) := by
  unfold putReceipt
  refine ite_inForm (haltRing_inForm h) ?_
  exact
    have h1 := setF_inForm (emit_inForm h)
    announceRing_inForm (ite_inForm (setRing_inForm h1) h1)

theorem putCompletion_inForm {r z refused} (h : inForm fam s) : inForm fam (putCompletion s r z refused) := by
  unfold putCompletion
  refine ite_inForm (haltRing_inForm h) ?_
  exact
    have h1 := setF_inForm (emit_inForm h)
    announceRing_inForm (ite_inForm (setRing_inForm h1) h1)

theorem hostRefuses_inForm {refused} (h : inForm fam s) : inForm fam (hostRefuses refused s).2 := by
  unfold hostRefuses
  split
  · exact h
  · show inForm fam (freeVal s 1).2
    exact freeVal_inForm h

theorem drainReceipts_inForm {r refused a} (h : inForm fam s) : inForm fam (drainReceipts r refused a s) := by
  induction a generalizing s with
  | zero => exact h
  | succ n ih =>
    unfold drainReceipts
    dsimp only
    split
    · exact h
    · exact ite_inForm (ite_inForm (putReceipt_inForm (hostRefuses_inForm h))
        (ih (putReceipt_inForm (setRing_inForm (hostRefuses_inForm h))))) h

theorem drainCompletions_inForm {r refused a} (h : inForm fam s) : inForm fam (drainCompletions r refused a s) := by
  induction a generalizing s with
  | zero => exact h
  | succ n ih =>
    unfold drainCompletions
    dsimp only
    split
    · exact h
    · exact ite_inForm (ite_inForm (putCompletion_inForm (hostRefuses_inForm h))
        (ih (putCompletion_inForm (setRing_inForm (hostRefuses_inForm h))))) h

theorem drainRing_inForm {r refused} (h : inForm fam s) : inForm fam (drainRing s r refused) :=
  drainCompletions_inForm (drainReceipts_inForm h)

theorem clientUpd_inForm {c f} (h : inForm fam s) : inForm fam (clientUpd s c f) :=
  ite_inForm h (ite_inForm h (setAdm_inForm h fun ⟨hrings, hclients⟩ => ⟨hrings, Laws.smapWf_set _ _ hclients⟩))

/-! ### Machine/Admission -/

theorem bindFrame_inForm {idx model epoch aseq} (h : inForm fam s) : inForm fam (bindFrame s idx model epoch aseq) := by
  unfold bindFrame
  split
  · exact update_inForm h
  · exact update_inForm h

theorem countCause_inForm {c} (h : inForm fam s) : inForm fam (countCause s c) := bump_inForm h
theorem refuse_inForm {r sub d c refused} (h : inForm fam s) : inForm fam (refuse s r sub d c refused) :=
  ite_inForm (haltRing_inForm h) (putReceipt_inForm (clientUpd_inForm (countCause_inForm (bump_inForm
    (stampEvent_inForm h)))))

theorem journalAccept_inForm {r sub raw epoch promised fetch y} (h : inForm fam s) :
    inForm fam (journalAccept s r sub raw epoch promised fetch y) :=
  setF_inForm (emit_inForm h)

theorem unposted_inForm {r sub raw epoch promised fetch} (h : inForm fam s) :
    inForm fam (unposted s r sub raw epoch promised fetch) :=
  haltRing_inForm (journalAccept_inForm (countStamp_inForm h))

theorem accept_inForm {r sub raw d epoch promised frame fetch} (h : inForm fam s) :
    inForm fam (accept s r sub raw d epoch promised frame fetch) := by
  unfold accept
  exact clientUpd_inForm (putReceipt_inForm (bump_inForm (setReqs_inForm (journalAccept_inForm (stampEvent_inForm h)))))

theorem noteJournal_inForm {r d} (h : inForm fam s) : inForm fam (noteJournal s r d) := ite_inForm (raise_inForm h) h
theorem openStream_inForm {d} (h : inForm fam s) : inForm fam (openStream s d).2 := by
  unfold openStream
  refine ite_snd_inForm h ?_
  refine
    have hreserved := reserveWith_inForm h fun m m' hm e => ?_
    ite_snd_inForm hreserved (ite_snd_inForm (update_inForm hreserved) hreserved)
  dsimp only at e
  split at e
  · next m₁ hm₁ =>
    have hstream : memInForm fam m₁ := by
      split at hm₁
      · exact placeRegion_inForm hm hm₁
      · cases hm₁; exact hm
    split at e
    · exact placeRegion_inForm hstream e
    · cases e; exact hstream
  · cases e

theorem closeStream_inForm {before d} (h : inForm fam s) : inForm fam (closeStream before s d) :=
  setTiers_inForm (ite_inForm h (update_inForm h)) fun hm => by
    dsimp only
    split <;> split <;> exact hm

theorem needFetch_inForm {model epoch} (h : inForm fam s) : inForm fam (needFetch s model epoch).2.2 := by
  unfold needFetch
  dsimp only
  refine ite_snd2_inForm h (ite_snd2_inForm h (ite_snd2_inForm h ?_))
  split
  · exact h
  · split
    · exact h
    · exact ite_snd2_inForm (reserveEpoch_inForm h) (reserveEpoch_inForm h)

theorem dropReserve_inForm {model epoch} (h : inForm fam s) : inForm fam (dropReserve s model epoch) :=
  ite_inForm h (setTiers_inForm h freeEpochUnits_inForm)

theorem startFetch_inForm {model epoch bound} (h : inForm fam s) : inForm fam (startFetch s model epoch bound) := by
  unfold startFetch
  split
  · exact ite_inForm h (queueFetch_inForm h)
  · exact h

theorem admitRun_inForm {r sub raw d refused} (h : inForm fam s) : inForm fam (admitRun s r sub raw d refused) := by
  unfold admitRun
  dsimp only
  refine ite_inForm (refuse_inForm (openStream_inForm h)) ?_
  split
  · exact refuse_inForm (closeStream_inForm (openStream_inForm h))
  · refine ite_inForm (refuse_inForm (closeStream_inForm (openStream_inForm h))) (ite_inForm (refuse_inForm
    (closeStream_inForm (unpin_inForm (lookupPin_inForm (openStream_inForm h))))) (ite_inForm (refuse_inForm
    (closeStream_inForm (unpin_inForm (needFetch_inForm (lookupPin_inForm (openStream_inForm h)))))) (ite_inForm
    (refuse_inForm (closeStream_inForm (unpin_inForm (dropReserve_inForm (needFetch_inForm (lookupPin_inForm
    (openStream_inForm h))))))) ?_)))
    split
    · exact refuse_inForm (closeStream_inForm (unpin_inForm (dropReserve_inForm (needFetch_inForm (lookupPin_inForm
      (openStream_inForm h))))))
    · exact ite_inForm (refuse_inForm (closeStream_inForm (unpin_inForm (dropReserve_inForm (needFetch_inForm
      (lookupPin_inForm (openStream_inForm h))))))) (ite_inForm (unposted_inForm (closeStream_inForm (unpin_inForm
      (dropReserve_inForm (needFetch_inForm (lookupPin_inForm (openStream_inForm h))))))) (accept_inForm
      (bindFrame_inForm (startFetch_inForm (needFetch_inForm (lookupPin_inForm (openStream_inForm h)))))))

theorem takeDescriptor_inForm {r} (h : inForm fam s) : inForm fam (takeDescriptor s r) :=
  bump_inForm (update_inForm (setF_inForm h))

theorem judgeDescriptor_inForm {r x} (h : inForm fam s) : inForm fam (judgeDescriptor s r x) := by
  unfold judgeDescriptor
  dsimp only
  split
  · exact refuse_inForm (noteJournal_inForm (takeDescriptor_inForm h))
  · exact ite_inForm (ite_inForm (unposted_inForm (takeDescriptor_inForm h)) (accept_inForm (takeDescriptor_inForm h)))
      (admitRun_inForm (takeDescriptor_inForm h))

theorem run_inForm {x} (h : inForm fam s) : inForm fam (Machine.run x s) := by
  unfold Machine.run
  split
  · exact h
  · exact ite_inForm (haltRing_inForm h) (ite_inForm h (judgeDescriptor_inForm h))

theorem close_inForm {x} (h : inForm fam s) : inForm fam (Machine.close x s) := by
  unfold Machine.close
  split
  · exact h
  · exact ite_inForm (haltRing_inForm h) (ite_inForm (judgeDescriptor_inForm h) h)

theorem subDoorbell_inForm {r tail} (h : inForm fam s) : inForm fam (subDoorbell r tail s) :=
  ite_inForm h (ite_inForm (setF_inForm h) (ite_inForm (haltRing_inForm (setF_inForm h)) (setF_inForm h)))

theorem writeRingCtl_inForm {r v en} (h : inForm fam s) : inForm fam (writeRingCtl r v en s) := by
  unfold writeRingCtl
  exact
    have h1 := setF_inForm (setF_inForm (setF_inForm h))
    ite_inForm h1 (setF_inForm h1)

theorem ringEnable_inForm {r v} (h : inForm fam s) : inForm fam (ringEnable r v s) :=
  ite_inForm h (ite_inForm (writeRingCtl_inForm h) (drainRing_inForm (setRing_inForm (foldl_inForm (fun _ ht _ =>
    setF_inForm ht) (raise_inForm (writeRingCtl_inForm h))))))

theorem ringDisable_inForm {r v} (h : inForm fam s) : inForm fam (ringDisable r v s) :=
  ite_inForm h (lower_inForm (lower_inForm (writeRingCtl_inForm h)))

theorem rcptHeadWrite_inForm {r head refused} (h : inForm fam s) : inForm fam (rcptHeadWrite r head refused s) :=
  ite_inForm h (drainReceipts_inForm (setF_inForm h))

theorem cmplHeadWrite_inForm {r head refused} (h : inForm fam s) : inForm fam (cmplHeadWrite r head refused s) :=
  ite_inForm h (drainCompletions_inForm (setF_inForm h))

theorem retireWrite_inForm {cj hi} (h : inForm fam s) : inForm fam (retireWrite cj hi s) :=
  ite_inForm (update_inForm (setF_inForm h) (ha := by split <;> rfl)) (setF_inForm h)

theorem recover_inForm (h : inForm fam s) : inForm fam (Machine.recover s) := by
  unfold Machine.recover
  refine ite_inForm h ?_
  exact
    have h1 := update_inForm (adm := { s.adm with recoverAsked := true }) (lower_inForm h) (ha := rfl)
    ite_inForm (raise_inForm h1) h1

theorem complete_inForm {q refused} (h : inForm fam s) : inForm fam (Machine.complete s q refused) := by
  unfold Machine.complete
  dsimp only
  exact
    have h1 := setReqs_inForm (setF_inForm (emit_inForm (stampEvent_inForm h)))
    have h2 := drainRing_inForm (setRing_inForm (clientUpd_inForm (countCause_inForm (ite_inForm (bump_inForm h1)
      (ite_inForm (raise_inForm (bump_inForm h1)) (raise_inForm (bump_inForm h1)))))))
    ite_inForm (setMem_inForm (update_inForm h2)) (ite_inForm (unpin_inForm h2) h2)

theorem completionRecord_inForm {aseq refused} (h : inForm fam s) : inForm fam (completionRecord aseq refused s) := by
  unfold completionRecord
  split
  · exact ite_inForm (complete_inForm h) h
  · exact h

theorem completeAll_inForm {a} (h : inForm fam s) : inForm fam (completeAll a s) := by
  induction a generalizing s with
  | zero => exact h
  | succ n ih =>
    unfold completeAll
    split
    · exact ih (complete_inForm h)
    · exact h

theorem recoverOne_inForm {b} (h : inForm fam s) : inForm fam (recoverOne s b) := by
  unfold recoverOne
  dsimp only
  refine clientUpd_inForm (bump_inForm (drainRing_inForm (setRing_inForm (stampEvent_inForm (bump_inForm (ite_inForm
    (setReqs_inForm h) (ite_inForm (setReqs_inForm h) ?_)))))))
  split
  · exact setReqs_inForm h
  · refine ite_inForm (setReqs_inForm h) (ite_inForm (setReqs_inForm (lookupPin_inForm h)) (ite_inForm (setReqs_inForm
    (needFetch_inForm (openStream_inForm (lookupPin_inForm h)))) ?_))
    split
    · exact setReqs_inForm (startFetch_inForm (needFetch_inForm (openStream_inForm (lookupPin_inForm h))))
    · exact setReqs_inForm (bindFrame_inForm (startFetch_inForm (needFetch_inForm (openStream_inForm (lookupPin_inForm
      h)))))

theorem recoveryComplete_inForm {accs comps} (h : inForm fam s) : inForm fam (recoveryComplete accs comps s) :=
  ite_inForm h (update_inForm (lower_inForm (lower_inForm (raise_inForm (setF_inForm (foldl_inForm (fun _ ht _ =>
    recoverOne_inForm ht) (setF_inForm (setF_inForm h))))))))

theorem loadPlan_inForm {rd} (h : inForm fam s) : inForm fam (loadPlan rd s) :=
  setF_inForm (setF_inForm (setF_inForm (setF_inForm (setF_inForm (foldl_inForm (fun _ ht _ => clientUpd_inForm ht)
    (update_inForm h))))))

theorem rebasePlan_inForm (h : inForm fam s) : inForm fam (rebasePlan s) := update_inForm h

/-! ### Machine/Irq -/

theorem setIrq_inForm {x} (h : inForm fam s) (hx : irqMaps x = irqMaps s.irq := by dsimp only [irqMaps]) : inForm fam (setIrq s x) := update_inForm h (hi := hx)
theorem setPend_inForm {n b} (h : inForm fam s) : inForm fam (setPend s n b) := setBitF_inForm h
theorem setInsvc_inForm {n b} (h : inForm fam s) : inForm fam (setInsvc s n b) := setBitF_inForm h
theorem senseLine_inForm {n level} (h : inForm fam s) : inForm fam (senseLine s n level) := by
  unfold senseLine
  exact
    have h1 := setBitF_inForm h
    ite_inForm (setPend_inForm h1) h1

theorem levelPends_inForm {n} (h : inForm fam s) : inForm fam (levelPends s n) := ite_inForm (setPend_inForm h) h
theorem pulse_inForm {n} (h : inForm fam s) :
    inForm fam (pulse s n) := ite_inForm (senseLine_inForm (senseLine_inForm h)) h
theorem latchEdge_inForm {p} (h : inForm fam s) : inForm fam (latchEdge s p) := senseLine_inForm (raise_inForm h)
theorem irqFilterChange_inForm {n level} (h : inForm fam s) : inForm fam (irqFilterChange n level s) := by
  unfold irqFilterChange
  refine ite_inForm h ?_
  split
  · exact senseLine_inForm h
  · exact ite_inForm (senseLine_inForm h) h

theorem irqPendSet_inForm {r k v} (h : inForm fam s) : inForm fam (irqPendSet r k v s) :=
  ite_inForm h (foldl_inForm (fun _ ht _ => setPend_inForm ht) h)

theorem irqPendClr_inForm {r k v} (h : inForm fam s) : inForm fam (irqPendClr r k v s) :=
  ite_inForm h (foldl_inForm (fun _ ht _ => ite_inForm ht (setPend_inForm ht)) h)

theorem irqEnable_inForm {r k v b} (h : inForm fam s) : inForm fam (irqEnable r k v b s) :=
  ite_inForm h (foldl_inForm (fun _ ht _ => setBitF_inForm ht) h)

theorem delivered_inForm {y} (h : inForm fam s) : inForm fam (delivered s y) := 
  bump_inForm (setStacks_inForm h fun ⟨hnested, hheld⟩ => ⟨hnested, Laws.smapWf_set _ _ hheld⟩)

theorem setStack_inForm {y l} (h : inForm fam s) :
    inForm fam (setStack s y l) := 
  setF_inForm (setF_inForm (setStacks_inForm h fun ⟨hnested, hheld⟩ => ⟨Laws.smapWf_set _ _ hnested, hheld⟩))

theorem claimRead_inForm {y} (h : inForm fam s) : inForm fam (claimRead s y).2 := by
  unfold claimRead
  refine ite_snd_inForm h ?_
  split
  · exact h
  · exact
      have h1 := setInsvc_inForm (setStack_inForm (update_inForm h))
      delivered_inForm (ite_inForm (setPend_inForm h1) h1)

theorem claim_inForm {y} (h : inForm fam s) : inForm fam (claim y s) := by
  unfold claim
  dsimp only
  exact emit_inForm (claimRead_inForm h)

theorem setWaits_inForm {y w} (h : inForm fam s) : inForm fam (setWaits s y w) := update_inForm h
theorem completeSource_inForm {y n waits} (h : inForm fam s) : inForm fam (completeSource y n waits s) := by
  unfold completeSource
  refine ite_inForm h ?_
  split
  · refine ite_inForm ?_ (bump_inForm h)
    exact
      have h1 := setInsvc_inForm (setStack_inForm h)
      ite_inForm (setWaits_inForm h1) h1
  · exact bump_inForm h

theorem sendVector_inForm {v} (h : inForm fam s) : inForm fam (sendVector s v) :=
  ite_inForm (setBitF_inForm h) (emit_inForm h)

theorem msixSend_inForm (h : inForm fam s) : inForm fam (msixSend s) := by
  unfold msixSend
  dsimp only
  split
  · exact delivered_inForm (sendVector_inForm (update_inForm h))
  · split
    · exact h
    · exact ite_inForm h (delivered_inForm (sendVector_inForm (ite_inForm (setPend_inForm h) (setInsvc_inForm h))))

theorem hostEoi_inForm {n} (h : inForm fam s) : inForm fam (hostEoi n s) := ite_inForm h (setInsvc_inForm h)
theorem moderationExpiry_inForm {y} (h : inForm fam s) :
    inForm fam (moderationExpiry y s) :=
  ite_inForm h (setStacks_inForm h fun ⟨hnested, hheld⟩ => ⟨hnested, Laws.smapWf_set y 0 hheld⟩)

theorem flushVectors_inForm (h : inForm fam s) : inForm fam (flushVectors s) :=
  ite_inForm h (foldl_inForm (fun _ ht _ => sendVector_inForm (setBitF_inForm ht)) h)

theorem msixMaskWrite_inForm {v mask} (h : inForm fam s) : inForm fam (msixMaskWrite v mask s) := by
  unfold msixMaskWrite
  split
  · exact ite_inForm h (flushVectors_inForm (setBool_inForm h))
  · exact flushVectors_inForm (setIrq_inForm h)

/-! ### Machine/Frame -/

/-- A function of every listed cell keeps the form, for what becomes an unlisted cell is left out. -/
theorem smapWf_mapCells {f : Cell → Cell} {d : Nat → Cell} {l : List (Nat × Cell)} (h : smapSorted l = true) :
    smapWf d ((l.map (fun p => (p.1, f p.2))).filter (fun p => decide (p.2 ≠ d p.1))) = true :=
  Laws.smapWf_iff.2 ⟨Laws.smapSorted_filter _ _ (Laws.smapSorted_map _ _ h), fun _ hp => of_decide_eq_true (List.mem_filter.1 hp).2⟩

theorem idleCells_inForm {halted f} (h : inForm fam s) : inForm fam (idleCells s halted f) :=
  setCells_inForm (s := s) (halted := halted) h fun hs => smapWf_mapCells (Laws.smapWf_iff.1 hs).1

theorem mapCells_inForm {f} (h : inForm fam s) : inForm fam (mapCells s f) :=
  setCells_inForm h fun hs => smapWf_mapCells (Laws.smapWf_iff.1 hs).1

theorem setCell_inForm {n c} (h : inForm fam s) : inForm fam (setCell s n c) :=
  setCells_inForm h (Laws.smapWf_set _ _)

theorem stretchAc_inForm {n f} (h : inForm fam s) : inForm fam (stretchAc n f s) := by
  unfold stretchAc
  refine ite_inForm h ?_
  exact
    have h1 := setPwr_inForm (addF_inForm h)
    ite_inForm (planPoints_inForm h1) h1

theorem advanceAc_inForm {n} (h : inForm fam s) : inForm fam (advanceAc s n) := by
  unfold advanceAc
  exact
    have h1 := ite_inForm (raise_inForm (setF_inForm h)) (setF_inForm h)
    stretchAc_inForm (setFrame_inForm (setF_inForm (ite_inForm (addF_inForm h1) h1)))

theorem setCasement_inForm {n c} (h : inForm fam s) : inForm fam (setCasement s n c) :=
  setSides_inForm h rfl fun ⟨hpanes, hcasements⟩ => ⟨hpanes, Laws.smapWf_set _ _ hcasements⟩

theorem setPane_inForm {n p} (h : inForm fam s) : inForm fam (setPane s n p) :=
  setSides_inForm h rfl fun ⟨hpanes, hcasements⟩ => ⟨Laws.smapWf_set _ _ hpanes, hcasements⟩

theorem clearLens_inForm {n} (h : inForm fam s) : inForm fam (clearLens s n) := mapCells_inForm h
theorem clearLoaded_inForm {n} (h : inForm fam s) : inForm fam (clearLoaded s n) := mapCells_inForm h
theorem clearIdleTable_inForm (h : inForm fam s) : inForm fam (clearIdleTable s) := setFrame_inForm h
theorem updateReady_inForm (h : inForm fam s) :
    inForm fam (updateReady s) := setBool_inForm (ite_inForm (raise_inForm h) h)
theorem showEmpty_inForm (h : inForm fam s) : inForm fam (showEmpty s) := setBool_inForm h
theorem startLoads_inForm {x} (h : inForm fam s) : inForm fam (startLoads s x) := by
  unfold startLoads
  exact
    have h1 := setBool_inForm (setBool_inForm (setFrame_inForm h))
    have h2 := ite_inForm (setF_inForm (raise_inForm (clearLens_inForm (setCasement_inForm h1)))) h1
    ite_inForm (raise_inForm (setPane_inForm (ite_inForm h2 (clearLoaded_inForm h2)))) h2

theorem stopLoads_inForm (h : inForm fam s) : inForm fam (stopLoads s) :=
  setF_inForm (lower_inForm (lower_inForm (ite_inForm (clearLens_inForm (setCasement_inForm h)) h)))

theorem applyNaming_inForm {x?} (h : inForm fam s) : inForm fam (applyNaming s x?) := by
  unfold applyNaming
  dsimp only
  refine ite_inForm (ite_inForm (leaveIdle_inForm h) h) ?_
  split
  · exact updateReady_inForm (setF_inForm (setF_inForm (lower_inForm (lower_inForm (showEmpty_inForm (ite_inForm
    (stopLoads_inForm (setFrame_inForm (ite_inForm (leaveIdle_inForm h) h))) (clearIdleTable_inForm (stopLoads_inForm
    (setFrame_inForm (ite_inForm (leaveIdle_inForm h) h))))))))))
  · exact updateReady_inForm (startLoads_inForm (showEmpty_inForm (setF_inForm (setF_inForm (stopLoads_inForm
    (setFrame_inForm (ite_inForm (leaveIdle_inForm h) h)))))))

theorem frameNaming_inForm {fold} (h : inForm fam s) : inForm fam (frameNaming fold s) := by
  unfold frameNaming
  refine ite_inForm h ?_
  split
  · exact ite_inForm (setFrame_inForm (applyNaming_inForm h)) (applyNaming_inForm h)
  · exact applyNaming_inForm h

theorem renewNaming_inForm (h : inForm fam s) : inForm fam (renewNaming s) := by
  unfold renewNaming
  split
  · exact updateReady_inForm h
  · exact ite_inForm (updateReady_inForm h) (applyNaming_inForm h)

theorem dropFlipped_inForm (h : inForm fam s) : inForm fam (dropFlipped s) := showEmpty_inForm (setFrame_inForm h)
theorem rejectConfig_inForm {f cid} (h : inForm fam s) : inForm fam (rejectConfig s f cid) :=
  bump_inForm (raise_inForm (capture_inForm h))

theorem writeCasement_inForm {n rd} (h : inForm fam s) : inForm fam (writeCasement s n rd) :=
  foldl_inForm (fun _ ht _ => setCell_inForm ht) h

theorem sampleReady_inForm (h : inForm fam s) : inForm fam (sampleReady s) := setFrame_inForm (updateReady_inForm h)
theorem casementLoadDone_inForm {nearUe} (h : inForm fam s) : inForm fam (casementLoadDone nearUe s) := by
  unfold casementLoadDone
  dsimp only
  refine ite_inForm h ?_
  split
  · exact h
  · split
    · exact h
    · split
      · exact h
      · split
        · exact failWhere_inForm (rejectConfig_inForm (setF_inForm (lower_inForm h)))
        · exact sampleReady_inForm (bump_inForm (setF_inForm (setCasement_inForm (writeCasement_inForm (setF_inForm
          (lower_inForm h))))))

theorem writePane_inForm {n r rd} (h : inForm fam s) : inForm fam (writePane s n r rd) :=
  foldl_inForm (fun _ ht _ => setCell_inForm ht) h

theorem dropPaneWords_inForm {l} (h : inForm fam s) : inForm fam (dropPaneWords s l) :=
  foldl_inForm (fun _ ht _ => setCell_inForm ht) h

theorem paneLoadDone_inForm (h : inForm fam s) : inForm fam (paneLoadDone s) := by
  unfold paneLoadDone
  refine ite_inForm h ?_
  split
  · exact h
  · split
    · exact h
    · split
      · exact h
      · exact sampleReady_inForm (lower_inForm (setPane_inForm (dropPaneWords_inForm (writePane_inForm h))))

theorem checkOnlyPass_inForm {model epoch cid nearUe} (h : inForm fam s) :
    inForm fam (checkOnlyPass model epoch cid nearUe s) := by
  unfold checkOnlyPass
  split
  · exact h
  · refine ite_inForm h ?_
    split
    · split
      · exact h
      · split
        · exact markUnusable_inForm (rejectConfig_inForm h)
        · exact setMem_inForm h
    · split
      · exact h
      · exact ite_inForm (setMem_inForm h) (markUnusable_inForm h)

theorem shiftPlan_inForm {n} (h : inForm fam s) : inForm fam (shiftPlan s n) := update_inForm h
theorem moveExcess_inForm {n q} (h : inForm fam s) : inForm fam (moveExcess s n q) := by
  unfold moveExcess
  split
  · exact ite_inForm h (update_inForm (shiftPlan_inForm (moveWhere_inForm h)))
  · exact h

theorem sealTable_inForm (h : inForm fam s) : inForm fam (sealTable s) :=
  ite_inForm h (ite_inForm (setFrame_inForm h) (setFrame_inForm (moveExcess_inForm h)))

theorem releaseResults_inForm (h : inForm fam s) : inForm fam (releaseResults s) := by
  unfold releaseResults
  refine foldl_inForm (fun _ ht _ => ite_inForm ht ?_) h
  split
  · exact emit_inForm ht
  · exact ht

theorem commitReqs_inForm {y} (h : inForm fam s) : inForm fam (commitReqs s y) := by
  unfold commitReqs
  dsimp only
  split
  · exact update_inForm (setReqs_inForm h)
  · exact setReqs_inForm h

theorem showSlack_inForm (h : inForm fam s) : inForm fam (showSlack s) := by
  unfold showSlack
  split
  · exact setF_inForm (setF_inForm h)
  · exact setF_inForm (setF_inForm h)

theorem commitFrame_inForm (h : inForm fam s) : inForm fam (commitFrame s) := by
  unfold commitFrame
  refine ite_inForm ?_ (stampEvent_inForm h)
  exact
    have h1 := setMem_inForm (commitReqs_inForm (releaseResults_inForm (stampEvent_inForm h)))
    setSpan_inForm (learnFrame_inForm (ite_inForm (showSlack_inForm h1) h1))

theorem showPhases_inForm (h : inForm fam s) : inForm fam (showPhases s) := by
  unfold showPhases
  refine foldl_inForm (fun _ ht _ => ?_) h
  split
  · exact setBool_inForm (setF_inForm ht)
  · exact lower_inForm (setF_inForm ht)

theorem excludeColumn_inForm {col} (h : inForm fam s) : inForm fam (excludeColumn s col) :=
  setF_inForm (ite_inForm (setF_inForm h) (setF_inForm h))

theorem beginRetire_inForm {col} (h : inForm fam s) : inForm fam (beginRetire s col) :=
  updateReady_inForm (setF_inForm (raise_inForm h))

theorem retireEffect_inForm (h : inForm fam s) : inForm fam (retireEffect s) := by
  unfold retireEffect
  refine ite_inForm ?_ h
  exact
    have h1 := setF_inForm (lower_inForm (setFrame_inForm (stampEvent_inForm (raise_inForm (excludeColumn_inForm h)))))
    ite_inForm (beginRetire_inForm (setF_inForm (lower_inForm h1))) h1

theorem switchSides_inForm {ready} (h : inForm fam s) : inForm fam (switchSides s ready) := by
  unfold switchSides
  refine showEmpty_inForm (servePending_inForm (setFrame_inForm (ite_inForm ?_ h)))
  exact
    have h1 := ite_inForm (setF_inForm h) h
    setFrame_inForm (lower_inForm (lower_inForm (lower_inForm (setF_inForm (setF_inForm (showFloor_inForm
      (setF_inForm (setF_inForm (retireEffect_inForm (ite_inForm (setF_inForm h1) h1))))))))))

theorem flipFrame_inForm {ready} (h : inForm fam s) : inForm fam (flipFrame s ready) := by
  unfold flipFrame
  exact
    have h1 := advanceAc_inForm (stampEvent_inForm (switchSides_inForm (mapCells_inForm (advanceAc_inForm
      (commitFrame_inForm (mapCells_inForm (advanceAc_inForm h)))))))
    lower_inForm (lower_inForm (lower_inForm (raise_inForm (setFrame_inForm (ite_inForm (sendReport_inForm
      (showPhases_inForm h1)) h1)))))

theorem replayFail_inForm {c idx cause?} (h : inForm fam s) : inForm fam (replayFail s c idx cause?) :=
  switchSides_inForm (setF_inForm (setFrame_inForm (update_inForm (raise_inForm (bump_inForm (failWhere_inForm h))))))

theorem endWaiting_inForm (h : inForm fam s) : inForm fam (endWaiting s) :=
  ite_inForm (setFrame_inForm (bump_inForm (raise_inForm h))) h

theorem failUnmet_inForm {cause?} (h : inForm fam s) : inForm fam (failUnmet s cause?) := failWhere_inForm h
theorem dropFrame_inForm {idx} (h : inForm fam s) : inForm fam (dropFrame s idx) := by
  unfold dropFrame
  exact
    have h1 := shiftPlan_inForm (update_inForm (endWaiting_inForm h))
    switchSides_inForm (setF_inForm (setFrame_inForm (setSpan_inForm (ite_inForm (failUnmet_inForm h1) h1)) rfl))

theorem afterAbort_inForm {c idx} (h : inForm fam s) : inForm fam (afterAbort s c idx) := by
  unfold afterAbort
  exact
    have h1 := moveWhere_inForm (update_inForm h)
    ite_inForm (dropFrame_inForm h1) (ite_inForm (setSpan_inForm h1) (ite_inForm (setFrame_inForm
      (clearIdleTable_inForm h1)) (ite_inForm (replayFail_inForm h1) (showEmpty_inForm (setFrame_inForm h1)))))

theorem abortFrame_inForm {c} (h : inForm fam s) : inForm fam (abortFrame s c) := by
  unfold abortFrame
  refine servePending_inForm ?_
  split
  · exact afterAbort_inForm (lower_inForm (lower_inForm (lower_inForm (raise_inForm (setFrame_inForm (advanceAc_inForm
    (stampEvent_inForm (bump_inForm (raise_inForm (setFrame_inForm (advanceAc_inForm (setSpan_inForm (setMem_inForm
    (idleCells_inForm (advanceAc_inForm h)))))))))))))))
  · exact (lower_inForm (lower_inForm (lower_inForm (raise_inForm (setFrame_inForm (advanceAc_inForm
    (stampEvent_inForm (bump_inForm (raise_inForm (setFrame_inForm (advanceAc_inForm (setSpan_inForm (setMem_inForm
    (idleCells_inForm (advanceAc_inForm h)))))))))))))))

theorem drainAbort_inForm {c} (h : inForm fam s) : inForm fam (drainAbort s c) := by
  unfold drainAbort
  exact abortFrame_inForm (sendReport_inForm (countStamp_inForm h))

theorem ingressShutterClose_inForm (h : inForm fam s) : inForm fam (ingressShutterClose s) :=
  ite_inForm (raise_inForm (setFrame_inForm h)) h

theorem drainSample_inForm {edge output} (h : inForm fam s) : inForm fam (drainSample edge output s) :=
  ite_inForm h (setFrame_inForm (sealTable_inForm h))

theorem enterHold_inForm (h : inForm fam s) : inForm fam (enterHold s) := by
  unfold enterHold
  exact
    have h1 := lower_inForm (raise_inForm (setFrame_inForm h))
    ite_inForm (requestStretch_inForm h1) h1

theorem verdict_inForm {x} (h : inForm fam s) : inForm fam (verdict s x) := by
  unfold verdict
  refine ite_inForm (drainAbort_inForm (setF_inForm (setF_inForm (ite_inForm h (setFrame_inForm (setF_inForm h))))))
    (ite_inForm ?_ (ite_inForm (drainAbort_inForm (setF_inForm (setF_inForm (ite_inForm h (setFrame_inForm
    (setF_inForm h)))))) (ite_inForm (ite_inForm h (setFrame_inForm (setF_inForm h))) (enterHold_inForm (ite_inForm h
    (setFrame_inForm (setF_inForm h)))))))
  exact
    have h1 := setF_inForm (setF_inForm (ite_inForm h (setFrame_inForm (setF_inForm h))))
    flipFrame_inForm (ite_inForm (bump_inForm (raise_inForm h1)) h1)

theorem drainVerdict_inForm (h : inForm fam s) : inForm fam (drainVerdict s) := by
  unfold drainVerdict
  split
  · exact h
  · exact ite_inForm (verdict_inForm (setFrame_inForm h)) h

theorem drainHoldTimeout_inForm (h : inForm fam s) : inForm fam (drainHoldTimeout s) :=
  ite_inForm (drainAbort_inForm (setF_inForm (setF_inForm h))) h

theorem emptyFrameFlip_inForm (h : inForm fam s) : inForm fam (emptyFrameFlip s) :=
  ite_inForm (setF_inForm (setF_inForm (setF_inForm (setFrame_inForm (flipFrame_inForm (sealTable_inForm
    (advanceAc_inForm h))))))) h

theorem needRetire_inForm {col} (h : inForm fam s) : inForm fam (needRetire s col) :=
  ite_inForm h (ite_inForm (failWhere_inForm (raise_inForm h)) (ite_inForm (setF_inForm (raise_inForm h))
    (beginRetire_inForm h)))

theorem columnRetirement_inForm (h : inForm fam s) : inForm fam (columnRetirement s) := by
  unfold columnRetirement
  split
  · exact h
  · exact needRetire_inForm (setFrame_inForm h)

theorem endReqs_inForm {g} (h : inForm fam s) : inForm fam (endReqs s g) := setReqs_inForm (countStamp_inForm h)
theorem endStretch_inForm {g} (h : inForm fam s) : inForm fam (endStretch s g) := by
  unfold endStretch
  split
  · exact setF_inForm (setF_inForm (setF_inForm (setF_inForm (bump_inForm (raise_inForm (lower_inForm h))))))
  · exact h

theorem endNarrow_inForm (h : inForm fam s) :
    inForm fam (endNarrow s) := setPwr_inForm (ite_inForm (lower_inForm h) h)
theorem openTick_inForm (h : inForm fam s) : inForm fam (openTick s) := by
  unfold openTick
  exact
    have h1 := lower_inForm (lower_inForm (setF_inForm (lower_inForm (lower_inForm (setF_inForm (setF_inForm
      (setF_inForm (setF_inForm h))))))))
    idleCells_inForm (pulse_inForm (stampEvent_inForm (setSpan_inForm (freshStamps_inForm (ite_inForm
      (clearIdleTable_inForm h1) h1)))))

theorem freshFrame_inForm (h : inForm fam s) : inForm fam (freshFrame s) := setFrame_inForm h
theorem openLive_inForm {replay skip} (h : inForm fam s) : inForm fam (openLive s replay skip) := by
  unfold openLive
  exact
    have h1 := clearPhases_inForm (setF_inForm (setSpan_inForm (raise_inForm (lower_inForm (setBool_inForm
      (setF_inForm (setF_inForm (setF_inForm (setFrame_inForm (update_inForm h (ha := by split <;> rfl)))))))))))
    planPoints_inForm (ite_inForm (markFaulted_inForm (setSpan_inForm h1)) (ite_inForm h1 (setSpan_inForm h1)))

theorem openEmpty_inForm (h : inForm fam s) : inForm fam (openEmpty s) := by
  unfold openEmpty
  exact
    have h1 := setF_inForm (lower_inForm (raise_inForm (lower_inForm (bump_inForm (raise_inForm (setFrame_inForm
      h))))))
    have h2 := ite_inForm h1 (setFrame_inForm h1)
    planPoints_inForm (ite_inForm (setF_inForm h2) h2)

theorem openWaiting_inForm (h : inForm fam s) : inForm fam (openWaiting s) := by
  unfold openWaiting
  exact
    have h1 := lower_inForm (lower_inForm (raise_inForm (setFrame_inForm (update_inForm h))))
    planPoints_inForm (ite_inForm h1 (setSpan_inForm h1))

theorem openUnready_inForm {wasNarrow} (h : inForm fam s) : inForm fam (openUnready s wasNarrow) := by
  unfold openUnready
  refine openEmpty_inForm ?_
  split
  · exact ite_inForm (update_inForm (update_inForm h) (hf := rfl)) (shiftPlan_inForm (moveWhere_inForm (update_inForm h)))
  · exact update_inForm h

theorem fetchMissCheck_inForm (h : inForm fam s) : inForm fam (fetchMissCheck s) :=
  foldl_inForm (fun _ ht _ => failWhere_inForm ht) h

theorem reportEmpty_inForm (h : inForm fam s) : inForm fam (reportEmpty s) :=
  ite_inForm h (sendReport_inForm (countStamp_inForm h))

theorem announcePeriod_inForm {target n} (h : inForm fam s) : inForm fam (announcePeriod s target n) := by
  unfold announcePeriod
  refine ite_inForm h ?_
  exact
    have h1 := setF_inForm (setF_inForm h)
    ite_inForm (announceChange_inForm h1) h1

theorem announceMode_inForm (h : inForm fam s) : inForm fam (announceMode s) := by
  unfold announceMode
  exact
    have h1 := setFrame_inForm h
    announcePeriod_inForm (ite_inForm (announceChange_inForm h1) h1)

theorem tickMode_inForm (h : inForm fam s) : inForm fam (tickMode s) :=
  ite_inForm (ite_inForm (announceMode_inForm h) h) (ite_inForm (setF_inForm h) h)

theorem barFlipped_inForm (h : inForm fam s) : inForm fam (barFlipped s) := ite_inForm (dropFlipped_inForm h) h
theorem tick_inForm (h : inForm fam s) : inForm fam (tick s) := by
  unfold tick
  refine ite_inForm h ?_
  exact
    have h1 := setF_inForm h
    have h2 := ite_inForm (setF_inForm h1) h1
    have h3 := openTick_inForm (endNarrow_inForm (endStretch_inForm (endReqs_inForm (ite_inForm h2 (reportEmpty_inForm
      h2)))))
    have h4 := ite_inForm (sendReport_inForm (abortFrame_inForm (bump_inForm (raise_inForm (stampEvent_inForm h3))))) h3
    have h5 := barFlipped_inForm (tickMode_inForm (endWaiting_inForm (setFrame_inForm (freshFrame_inForm h4))))
    have h6 := setSpan_inForm h5
    fetchMissCheck_inForm (showEmpty_inForm
      (ite_inForm (openEmpty_inForm (update_inForm h5))
      (ite_inForm (openEmpty_inForm (update_inForm h5))
      (ite_inForm (openWaiting_inForm h5)
      (ite_inForm (openEmpty_inForm (update_inForm h5))
      (ite_inForm (ite_inForm (openEmpty_inForm (update_inForm h5)) (openLive_inForm h5))
      (ite_inForm (ite_inForm (openLive_inForm h6) (openEmpty_inForm (update_inForm h6)))
      (ite_inForm (openLive_inForm h5) (openUnready_inForm h5)))))))))

theorem cifSaturate_inForm (h : inForm fam s) :
    inForm fam (cifSaturate s) := ite_inForm (raise_inForm (setF_inForm h)) h
theorem failInfeasible_inForm {before} (h : inForm fam s) : inForm fam (failInfeasible before s) := failWhere_inForm h
theorem dropExcluded_inForm (h : inForm fam s) : inForm fam (dropExcluded s) := by
  unfold dropExcluded
  exact
    have h1 := renewNaming_inForm h
    ite_inForm (dropFlipped_inForm h1) h1

theorem reopenEmpty_inForm (h : inForm fam s) : inForm fam (reopenEmpty s) := by
  unfold reopenEmpty
  refine ite_inForm h (showEmpty_inForm ?_)
  split
  · exact openUnready_inForm (update_inForm (setFrame_inForm h))
  · exact openEmpty_inForm (setFrame_inForm h)

theorem periodChange_inForm (h : inForm fam s) : inForm fam (periodChange s) :=
  ite_inForm (planPoints_inForm (dropExcluded_inForm (reopenEmpty_inForm (failInfeasible_inForm (setF_inForm
    (setF_inForm h)))))) h

/-! ### Machine/RouteStage -/

theorem tallyAdd_inForm {model o n} (h : inForm fam s) : inForm fam (tallyAdd s model o n) := by
  unfold tallyAdd
  split
  · exact ite_inForm h (setFrame_inForm (setTiers_inForm h fun hm => List.foldlRecOn (motive := memInForm fam) _ _ hm
      fun _ hm _ _ => regionStore_inForm hm) rfl)
  · exact h

theorem tallyHalf_inForm {model l base ts a} (h : inForm fam s) : inForm fam (tallyHalf s model l base ts a) :=
  foldl_inForm (fun _ ht _ => tallyAdd_inForm (tallyAdd_inForm (tallyAdd_inForm (tallyAdd_inForm ht)))) (tallyAdd_inForm
    (tallyAdd_inForm (tallyAdd_inForm h)))

theorem noteCycle_inForm {r layer k} (h : inForm fam s) :
    inForm fam (noteCycle s r layer k) := ite_inForm h (setMem_inForm h)
theorem routeHalf_inForm {x} (h : inForm fam s) : inForm fam (routeHalf s x) := by
  unfold routeHalf
  split
  · exact h
  · refine ite_inForm h ?_
    split
    · exact h
    · exact setFrame_inForm (tallyHalf_inForm (noteCycle_inForm h))

theorem combineHalf_inForm {x} (h : inForm fam s) : inForm fam (combineHalf s x) := by
  unfold combineHalf
  split
  · exact h
  · exact ite_inForm h (setFrame_inForm (noteCycle_inForm h))

theorem noteRun_inForm (h : inForm fam s) : inForm fam (noteRun s) := by
  unfold noteRun
  split
  · exact h
  · exact ite_inForm h (setMem_inForm h)

/-! ### Machine/Array -/

theorem noteUe_inForm {cell} (h : inForm fam s) : inForm fam (noteUe s cell) := by
  unfold noteUe
  dsimp only
  split
  · exact ite_inForm (setFrame_inForm h) (setFrame_inForm h)
  · exact setFrame_inForm h

theorem arrayFault_inForm {cell k port} (h : inForm fam s) : inForm fam (arrayFault s cell k port) := by
  unfold arrayFault
  exact
    have h1 := capture_inForm h
    have h2 := stampEvent_inForm (ite_inForm (countLater_inForm h1) (ite_inForm (bump_inForm h1) h1))
    raise_inForm (markFaulted_inForm (ite_inForm (noteUe_inForm h2) h2))

theorem lateWord_inForm {l} (h : inForm fam s) : inForm fam (lateWord s l) :=
  markFaulted_inForm (stampEvent_inForm (bump_inForm (memEvent_inForm h)))

theorem issueAccesses_inForm {x} (h : inForm fam s) : inForm fam (issueAccesses s x) := setFrame_inForm h
theorem takeOutbound_inForm {a} (h : inForm fam s) : inForm fam (takeOutbound s a) := by
  unfold takeOutbound
  refine ite_inForm (setFrame_inForm h) ?_
  split
  · exact setFrame_inForm (setFrame_inForm h)
  · split
    · exact setTiers_inForm (setFrame_inForm h) regionStore_inForm
    · exact setFrame_inForm h
  · exact ite_inForm (setFrame_inForm h) (ite_inForm (setSpan_inForm (setFrame_inForm h)) (setSpan_inForm
    (setFrame_inForm h)))

theorem paneCycle_inForm {x} (h : inForm fam s) : inForm fam (paneCycle s x) :=
  foldl_inForm (fun _ ht _ => arrayFault_inForm ht) (setFrame_inForm (setPwr_inForm h))

theorem arrayCycle_inForm {x phase hold} (h : inForm fam s) : inForm fam (arrayCycle s x phase hold) := by
  unfold arrayCycle
  exact
    have h1 := setPwr_inForm h
    have h2 := foldl_inForm (fun _ ht _ => setCell_inForm ht) (foldl_inForm (fun _ ht _ => setCell_inForm ht)
      (setFrame_inForm (ite_inForm h1 (idleCells_inForm h1))))
    have h3 := ite_inForm h2 (raise_inForm (addF_inForm h2))
    foldl_inForm (fun _ ht _ => takeOutbound_inForm ht) (setFrame_inForm (foldl_inForm (fun _ ht _ => arrayFault_inForm ht)
      (ite_inForm h3 (raise_inForm (addF_inForm h3)))))

theorem notePhase_inForm {k} (h : inForm fam s) : inForm fam (notePhase s k) :=
  ite_inForm h (aimPhase_inForm (setF_inForm (setFrame_inForm h)))

theorem holdGate_inForm {x} (h : inForm fam s) : inForm fam (holdGate s x) := by
  unfold holdGate
  exact
    have h1 := raise_inForm (setFrame_inForm h)
    lower_inForm (ite_inForm (requestStretch_inForm h1) h1)

theorem serveRoutes_inForm {x} (h : inForm fam s) : inForm fam (serveRoutes s x) :=
  foldl_inForm (fun _ ht _ => combineHalf_inForm ht) (foldl_inForm (fun _ ht _ => routeHalf_inForm ht) h)

theorem runCycle_inForm {x} (h : inForm fam s) : inForm fam (runCycle s x) := by
  unfold runCycle
  refine
    have h1 := setFrame_inForm (noteRun_inForm (foldl_inForm (fun _ ht _ => lateWord_inForm ht) (arrayCycle_inForm
      (serveRoutes_inForm (issueAccesses_inForm ?_)))))
    advanceAc_inForm (ite_inForm (leadNext_inForm (raise_inForm h1)) h1)
  split
  · exact notePhase_inForm (raise_inForm (lower_inForm (setFrame_inForm h)))
  · exact (raise_inForm (lower_inForm (setFrame_inForm h)))

theorem scheduleCycle_inForm {x} (h : inForm fam s) : inForm fam (scheduleCycle x s) := by
  unfold scheduleCycle
  refine ite_inForm h ?_
  split
  · exact h
  · exact advanceAc_inForm (paneCycle_inForm h)
  · exact ite_inForm h (advanceAc_inForm (setFrame_inForm (arrayCycle_inForm h)))
  · refine ite_inForm h ?_
    split
    · exact ite_inForm (runCycle_inForm h) (advanceAc_inForm (paneCycle_inForm (holdGate_inForm h)))
    · exact runCycle_inForm h
  · refine ite_inForm h ?_
    split
    · exact ite_inForm (runCycle_inForm h) (advanceAc_inForm (paneCycle_inForm (holdGate_inForm h)))
    · exact runCycle_inForm h

theorem noteSlack_inForm {k} (h : inForm fam s) : inForm fam (noteSlack s k) := by
  unfold noteSlack
  dsimp only
  refine ite_inForm h ?_
  split
  · exact ite_inForm (setSpan_inForm h) h
  · exact setSpan_inForm h

theorem spanReceiveComplete_inForm {ref} (h : inForm fam s) : inForm fam (spanReceiveComplete ref s) := by
  unfold spanReceiveComplete
  split
  · exact ite_inForm h (ite_inForm (noteSlack_inForm (setSpan_inForm h)) (markFaulted_inForm (stampEvent_inForm h)))
  · exact h

theorem tickCapture_inForm (h : inForm fam s) : inForm fam (tickCapture s) :=
  setF_inForm (setBool_inForm (setF_inForm (setF_inForm h)))

/-! ### Machine/LinkOps -/

theorem setTxMap_inForm {p m} (h : inForm fam s) : inForm fam (setTxMap s p m) :=
  foldl_inForm (fun _ ht _ => setBool_inForm ht) (setF_inForm (setF_inForm h))

theorem setRxMap_inForm {p m} (h : inForm fam s) : inForm fam (setRxMap s p m) :=
  foldl_inForm (fun _ ht _ => setBool_inForm ht) (setF_inForm (setF_inForm h))

theorem linkCapture_inForm {p cause dir lane} (h : inForm fam s) :
    inForm fam (linkCapture s p cause dir lane) := capture_inForm h
theorem countWidth_inForm {p cause dir lane} (h : inForm fam s) : inForm fam (countWidth s p cause dir lane) :=
  bump_inForm (raise_inForm (linkCapture_inForm h))

theorem projectSends_inForm {p w delay} (h : inForm fam s) : inForm fam (projectSends s p w delay) :=
  ite_inForm (askStretch_inForm h) h

theorem showLoss_inForm {p l} (h : inForm fam s) : inForm fam (showLoss s p l) := by
  unfold showLoss
  exact
    have h1 := setBool_inForm h
    ite_inForm (raise_inForm h1) h1

theorem clearLoss_inForm {p} (h : inForm fam s) : inForm fam (clearLoss s p) :=
  foldl_inForm (fun _ ht _ => showLoss_inForm (setF_inForm ht)) h

theorem failBoardReqs_inForm {p pick} (h : inForm fam s) : inForm fam (failBoardReqs s p pick) :=
  foldl_inForm (fun _ ht _ => bump_inForm (emit_inForm ht)) (setLink_inForm h)

theorem parentLeft_inForm {p} (h : inForm fam s) : inForm fam (parentLeft s p) := by
  unfold parentLeft
  refine ite_inForm h ?_
  exact
    have h1 := ite_inForm (setSpan_inForm h) h
    ite_inForm (bump_inForm (raise_inForm h1)) h1

theorem beginTraining_inForm {p st} (h : inForm fam s) : inForm fam (beginTraining s p st) :=
  setLink_inForm (setBitF_inForm (clearLoss_inForm (setRxMap_inForm (setTxMap_inForm (lower_inForm (setF_inForm h))))))

theorem enterRetrain_inForm {p} (h : inForm fam s) : inForm fam (enterRetrain s p) := by
  unfold enterRetrain
  exact projectSends_inForm (parentLeft_inForm (failBoardReqs_inForm (beginTraining_inForm (bump_inForm h))))

theorem leaveUp_inForm {p cause dir lane} (h : inForm fam s) : inForm fam (leaveUp s p cause dir lane) := by
  unfold leaveUp
  exact enterRetrain_inForm (stampEvent_inForm (raise_inForm (linkCapture_inForm h)))

theorem dropBuffers_inForm {p} (h : inForm fam s) : inForm fam (dropBuffers s p) := setLink_inForm h
theorem enterDown_inForm {p} (h : inForm fam s) : inForm fam (enterDown s p) := setLink_inForm (beginTraining_inForm h)
theorem endTest_inForm {p} (h : inForm fam s) : inForm fam (endTest s p) :=
  foldl_inForm (fun _ ht _ => lower_inForm ht) (setLink_inForm h)

theorem retrainPort_inForm {p} (h : inForm fam s) : inForm fam (retrainPort s p) :=
  ite_inForm h (ite_inForm (enterRetrain_inForm h) (beginTraining_inForm (bump_inForm (ite_inForm (endTest_inForm h)
    h))))

theorem notePeer_inForm {p b} (h : inForm fam s) : inForm fam (notePeer s p b) :=
  setLink_inForm (raise_inForm (setF_inForm (setF_inForm (setF_inForm h))))

theorem countTrained_inForm {p q} (h : inForm fam s) : inForm fam (countTrained p s q) := by
  unfold countTrained
  split
  exact setF_inForm (addF_inForm (addF_inForm (addF_inForm (addF_inForm h))))

theorem noteLanes_inForm {p r} (h : inForm fam s) : inForm fam (noteLanes s p r) :=
  setLink_inForm (setF_inForm (setF_inForm (foldl_inForm (fun _ ht _ => setBool_inForm ht) h)))

theorem resumeReplay_inForm {p} (h : inForm fam s) : inForm fam (resumeReplay s p) := by
  unfold resumeReplay
  dsimp only
  split
  · exact setLink_inForm h
  · exact bump_inForm (setLink_inForm h)

theorem reportLink_inForm {p kind} (h : inForm fam s) : inForm fam (reportLink s p kind) := by
  unfold reportLink
  exact
    have h1 := countStamp_inForm h
    ite_inForm (toMaster_inForm h1) (ite_inForm (setSpan_inForm h1) h1)

theorem resumeDown_inForm {p} (h : inForm fam s) : inForm fam (resumeDown s p) := setLink_inForm h
theorem enterUp_inForm {p b} (h : inForm fam s) : inForm fam (enterUp s p b) := by
  unfold enterUp
  exact
    have h1 := setRxMap_inForm (setTxMap_inForm h)
    have h2 := resumeReplay_inForm (setLink_inForm (setBitF_inForm (raise_inForm (setF_inForm (ite_inForm
      (dropBuffers_inForm (setF_inForm h1)) (ite_inForm (resumeDown_inForm h1) h1))))))
    have h3 := stampEvent_inForm (ite_inForm (reportLink_inForm (setLink_inForm (raise_inForm h2))) h2)
    have h4 := ite_inForm (lower_inForm h3) h3
    ite_inForm (setSpan_inForm h4) h4

theorem enterWiring_inForm {p} (h : inForm fam s) : inForm fam (enterWiring s p) := raise_inForm (setF_inForm h)
theorem takeAck_inForm {p a} (h : inForm fam s) : inForm fam (takeAck s p a) := by
  unfold takeAck
  dsimp only
  split
  · exact h
  · exact ite_inForm h (setLink_inForm h)

theorem startReplay_inForm {p q} (h : inForm fam s) : inForm fam (startReplay s p q) :=
  ite_inForm (leaveUp_inForm h) (bump_inForm (setLink_inForm h))

theorem takeNak_inForm {p q} (h : inForm fam s) : inForm fam (takeNak s p q) := by
  unfold takeNak
  refine ite_inForm h ?_
  split
  · exact startReplay_inForm h
  · exact ite_inForm (startReplay_inForm h) h
  · exact ite_inForm (setLink_inForm h) h

theorem beginWidth_inForm {p m cause lane notice} (h : inForm fam s) : inForm fam (beginWidth s p m cause lane notice) :=
  setLink_inForm h

theorem completeWidth_inForm {p m q cause lane} (h : inForm fam s) : inForm fam (completeWidth s p m q cause lane) := by
  unfold completeWidth
  exact
    have h1 := projectSends_inForm (countWidth_inForm (setLink_inForm (setTxMap_inForm h)))
    ite_inForm h1 (startReplay_inForm h1)

theorem sendNew_inForm {p f} (h : inForm fam s) : inForm fam (sendNew s p f).1 := bump_inForm (setLink_inForm h)
theorem sendBoard_inForm {p b rest} (h : inForm fam s) :
    inForm fam (sendBoard s p b rest).1 := sendNew_inForm (setLink_inForm h)
theorem newFlit_inForm {p} (h : inForm fam s) : inForm fam (newFlit s p).1 := by
  unfold newFlit
  refine ite_fst_inForm h ?_
  split
  · exact sendNew_inForm (setLink_inForm h)
  · split
    · exact sendBoard_inForm h
    · split
      · exact sendNew_inForm (setLink_inForm (ite_inForm h (setLink_inForm h)))
      · split
        · exact sendNew_inForm (setSpan_inForm (ite_inForm h (setLink_inForm h)))
        · split
          · exact sendBoard_inForm h
          · exact h

theorem slotFlit_inForm {p lane i} (h : inForm fam s) : inForm fam (slotFlit s p lane i).1 := by
  unfold slotFlit
  split
  · exact h
  · refine ite_fst_inForm (setLink_inForm h) ?_
    split
    · exact h
    · split
      · exact bump_inForm (setLink_inForm h)
      · exact newFlit_inForm (setLink_inForm h)
    · exact newFlit_inForm h

theorem sendSlot_inForm {p lanes i} (h : inForm fam s) : inForm fam (sendSlot p lanes s i) := by
  unfold sendSlot
  dsimp only
  exact
    have h1 := ite_inForm (emit_inForm h) h
    emit_inForm (ite_inForm (bump_inForm (setLink_inForm (slotFlit_inForm h1))) (slotFlit_inForm h1))

theorem serviceRound_inForm {p} (h : inForm fam s) : inForm fam (serviceRound s p) := by
  unfold serviceRound
  dsimp only
  split
  · refine ite_inForm (completeWidth_inForm h) ?_
    split
    · exact setLink_inForm (setLink_inForm (foldl_inForm (fun _ ht _ => sendSlot_inForm ht) (completeWidth_inForm h)))
    · exact setLink_inForm (foldl_inForm (fun _ ht _ => sendSlot_inForm ht) (completeWidth_inForm h))
  · refine ite_inForm h ?_
    split
    · exact setLink_inForm (setLink_inForm (foldl_inForm (fun _ ht _ => sendSlot_inForm ht) h))
    · exact setLink_inForm (foldl_inForm (fun _ ht _ => sendSlot_inForm ht) h)

theorem trainRound_inForm {p} (h : inForm fam s) : inForm fam (trainRound s p) :=
  foldl_inForm (fun _ ht _ => foldl_inForm (fun _ ht _ => emit_inForm ht) (emit_inForm ht)) h

theorem roundTransmit_inForm {p} (h : inForm fam s) : inForm fam (roundTransmit p s) :=
  ite_inForm h (setLink_inForm (ite_inForm (serviceRound_inForm h) (trainRound_inForm h)))

theorem replayTimeout_inForm {p} (h : inForm fam s) : inForm fam (replayTimeout p s) := by
  unfold replayTimeout
  dsimp only
  split
  · exact ite_inForm (startReplay_inForm h) h
  · exact h

theorem nakResendTimeout_inForm {p} (h : inForm fam s) :
    inForm fam (nakResendTimeout p s) := ite_inForm (setLink_inForm h) h
theorem abortScan_inForm {p l} (h : inForm fam s) : inForm fam (abortScan s p l) :=
  ite_inForm (raise_inForm (lower_inForm h)) h

theorem abortScans_inForm {p m} (h : inForm fam s) : inForm fam (abortScans s p m) :=
  foldl_inForm (fun _ ht _ => abortScan_inForm ht) h

theorem dropRxLane_inForm {p l cause} (h : inForm fam s) : inForm fam (dropRxLane s p l cause) := by
  unfold dropRxLane
  refine ite_inForm h ?_
  exact
    have h1 := abortScan_inForm h
    have h2 := ite_inForm (lower_inForm h1) h1
    ite_inForm (leaveUp_inForm h2) (setLink_inForm h2)

theorem dropTxLane_inForm {p l} (h : inForm fam s) : inForm fam (dropTxLane s p l) :=
  ite_inForm h (ite_inForm (leaveUp_inForm h) (beginWidth_inForm h))

theorem laneDrop_inForm {p l cause} (h : inForm fam s) : inForm fam (laneDrop p l cause s) :=
  ite_inForm h (ite_inForm (dropTxLane_inForm h) (ite_inForm (dropRxLane_inForm h) h))

theorem portLeaveUp_inForm {p notice} (h : inForm fam s) : inForm fam (portLeaveUp p notice s) :=
  ite_inForm h (ite_inForm (leaveUp_inForm h) (ite_inForm (leaveUp_inForm h) h))

theorem retrainTimeout_inForm {p} (h : inForm fam s) : inForm fam (retrainTimeout p s) :=
  ite_inForm (reportLink_inForm (enterDown_inForm h)) h

theorem downRetry_inForm {p} (h : inForm fam s) : inForm fam (downRetry p s) := ite_inForm (beginTraining_inForm h) h
theorem linkTraining_inForm {p r} (h : inForm fam s) : inForm fam (linkTraining p r s) := by
  unfold linkTraining
  refine ite_inForm (ite_inForm (foldl_inForm (fun _ ht _ => countTrained_inForm ht) h) ?_) ?_
  · exact
      have h1 := noteLanes_inForm (foldl_inForm (fun _ ht _ => countTrained_inForm ht) h)
      setLink_inForm (ite_inForm (setF_inForm h1) h1)
  · split
    · exact ite_inForm h (ite_inForm (enterWiring_inForm h) (ite_inForm (enterUp_inForm (setF_inForm h)) h))
    · exact h

theorem trainingTimeout_inForm {p} (h : inForm fam s) :
    inForm fam (trainingTimeout p s) := ite_inForm (enterDown_inForm h) h
theorem retrainComplete_inForm {p r} (h : inForm fam s) : inForm fam (retrainComplete p r s) := by
  unfold retrainComplete
  split
  · exact
      have h1 := noteLanes_inForm h
      ite_inForm (enterWiring_inForm h1) (ite_inForm h1 (enterUp_inForm h1))
  · exact h

theorem linkRetrainCmd_inForm {p} (h : inForm fam s) :
    inForm fam (linkRetrainCmd p s) := ite_inForm (retrainPort_inForm h) h
theorem linkTestEnter_inForm {p} (h : inForm fam s) : inForm fam (linkTestEnter p s) := by
  unfold linkTestEnter
  refine ite_inForm h ?_
  exact
    have h1 := raise_inForm h
    ite_inForm (beginTraining_inForm (ite_inForm (parentLeft_inForm (failBoardReqs_inForm h1)) h1)) h1

theorem linkTestLeave_inForm {p} (h : inForm fam s) : inForm fam (linkTestLeave p s) := by
  unfold linkTestLeave
  refine ite_inForm h (ite_inForm ?_ (lower_inForm h))
  exact
    have h1 := endTest_inForm (lower_inForm h)
    ite_inForm (beginTraining_inForm (bump_inForm h1)) (setF_inForm h1)

theorem prbsCheckerLock_inForm {p l rx} (h : inForm fam s) : inForm fam (prbsCheckerLock p l rx s) := by
  unfold prbsCheckerLock
  dsimp only
  exact ite_inForm h (addF_inForm (setF_inForm (setBool_inForm (setLink_inForm (ite_inForm (emit_inForm h) h)))))

theorem lossBase_inForm {p} (h : inForm fam s) : inForm fam (lossBase p s) :=
  ite_inForm h (foldl_inForm (fun _ ht _ => showLoss_inForm (setF_inForm ht)) h)

theorem lossEstimateUpdate_inForm {p l est} (h : inForm fam s) : inForm fam (lossEstimateUpdate p l est s) :=
  ite_inForm h (showLoss_inForm (setF_inForm h))

theorem linkCountClear_inForm {p eye lane port} (h : inForm fam s) : inForm fam (linkCountClear p eye lane port s) := by
  unfold linkCountClear
  refine ite_inForm h ?_
  exact
    have h1 := ite_inForm (foldl_inForm (fun _ ht _ => setF_inForm ht) h) h
    have h2 := ite_inForm (foldl_inForm (fun _ ht _ => setF_inForm ht) h1) h1
    ite_inForm (foldl_inForm (fun _ ht _ => setF_inForm ht) h2) h2

theorem eyeScanStart_inForm {p l} (h : inForm fam s) : inForm fam (eyeScanStart p l s) :=
  ite_inForm h (raise_inForm (lower_inForm (lower_inForm h)))

theorem eyeScanDone_inForm {p l eyes} (h : inForm fam s) : inForm fam (eyeScanDone p l eyes s) := by
  unfold eyeScanDone
  refine ite_inForm h ?_
  split
  · exact abortScan_inForm h
  · exact setF_inForm (setF_inForm (setF_inForm (setF_inForm (setF_inForm (setF_inForm (setF_inForm (setF_inForm
    (setF_inForm (setF_inForm (setF_inForm (setF_inForm (raise_inForm (lower_inForm h)))))))))))))

theorem syncExchange_inForm {p} (h : inForm fam s) : inForm fam (syncExchange p s) := ite_inForm (setLink_inForm h) h
theorem noteOffset_inForm {off} (h : inForm fam s) : inForm fam (noteOffset s off) := by
  unfold noteOffset
  exact
    have h1 := setSpan_inForm (setF_inForm h)
    ite_inForm (alignLoss_inForm h1) (ite_inForm (eventToMaster_inForm (raise_inForm h1)) h1)

theorem syncReceive_inForm {p m arrival} (h : inForm fam s) : inForm fam (syncReceive p m arrival s) := by
  unfold syncReceive
  refine ite_inForm h (ite_inForm (bump_inForm (setLink_inForm h)) (ite_inForm ?_ (setLink_inForm h)))
  exact
    have h1 := setSpan_inForm (setLink_inForm h)
    ite_inForm h1 (noteOffset_inForm h1)

/-! ### Machine/RegAccess -/

theorem fieldSet_inForm {f delta v} (h : inForm fam s) : inForm fam (fieldSet s f delta v) := update_inForm h

theorem loadImageReg_inForm {off v} (h : inForm fam s) : inForm fam (loadImageReg s off v) := by
  unfold loadImageReg
  split
  · exact foldl_inForm (fun _ ht _ => ite_inForm (fieldSet_inForm ht) ht) h
  · exact h

/-! ### Machine/Tickets -/

theorem setStw_inForm {x} (h : inForm fam s) : inForm fam (setStw s x) := update_inForm h
theorem showHolds_inForm (h : inForm fam s) : inForm fam (showHolds s) :=
  foldl_inForm (fun _ ht _ => setF_inForm ht) (setF_inForm h)

theorem freshTickets_inForm (h : inForm fam s) : inForm fam (freshTickets s) :=
  showHolds_inForm (setStw_inForm (setF_inForm (setF_inForm (lower_inForm h))))

theorem startCount_inForm {n} (h : inForm fam s) : inForm fam (startCount s n) := setStw_inForm h
theorem respond_inForm {r q z} (h : inForm fam s) : inForm fam (respond r q z s) := by
  unfold respond
  refine emit_inForm (ite_inForm ?_ h)
  exact
    have h1 := bump_inForm (raise_inForm h)
    ite_inForm h1 (bump_inForm h1)

theorem answerWaiting_inForm {result} (h : inForm fam s) : inForm fam (answerWaiting s result) := by
  unfold answerWaiting
  refine foldl_inForm (fun _ ht _ => ?_) (setStw_inForm h)
  split
  · exact respond_inForm ht
  · exact ht

theorem batchOpen_inForm {kind count} (h : inForm fam s) : inForm fam (batchOpen kind count s) := by
  unfold batchOpen
  refine ite_inForm h ?_
  exact
    have h1 := ite_inForm h (setF_inForm h)
    have h2 := ite_inForm h1 (setF_inForm h1)
    ite_inForm h2 (showHolds_inForm (setStw_inForm (setF_inForm (setF_inForm (foldl_inForm (fun _ ht _ => lower_inForm
      ht) (raise_inForm h2))))))

theorem ticketGrant_inForm {n} (h : inForm fam s) : inForm fam (ticketGrant s n).2 := by
  unfold ticketGrant
  refine ite_snd_inForm h ?_
  split
  refine showHolds_inForm ?_
  split
  · exact setStw_inForm h
  · exact setStw_inForm (setF_inForm h)
  · exact h

theorem ticketRead_inForm {n} (h : inForm fam s) : inForm fam (ticketRead n s) := by
  unfold ticketRead
  dsimp only
  exact ite_inForm h (emit_inForm (ticketGrant_inForm h))

theorem ticketPeek_inForm {r} (h : inForm fam s) : inForm fam (ticketPeek r s) := emit_inForm h
theorem commitResult_inForm {n y won} (h : inForm fam s) : inForm fam (commitResult s n y won) :=
  setF_inForm (setBool_inForm (raise_inForm h))

theorem closeBatch_inForm (h : inForm fam s) : inForm fam (closeBatch s) :=
  ite_inForm h (setStw_inForm (bump_inForm (raise_inForm (lower_inForm h))))

theorem tileCommit_inForm {n y} (h : inForm fam s) : inForm fam (tileCommit n y s) :=
  ite_inForm h (ite_inForm (showHolds_inForm (closeBatch_inForm (setF_inForm (bump_inForm (commitResult_inForm
    (setStw_inForm h)))))) (bump_inForm (raise_inForm (commitResult_inForm h))))

/-! ### Machine/StoreBlocks -/

theorem setCatalogue_inForm {c} (h : inForm fam s) : inForm fam (setCatalogue s c) := setMem_inForm h
theorem placeBlocks_inForm {more need} (h : inForm fam s) : inForm fam (placeBlocks s more need).2 := by
  unfold placeBlocks
  dsimp only
  exact freeVal_inForm h

theorem writeBlock_inForm {at_ model epoch plain} (h : inForm fam s) : inForm fam (writeBlock s at_ model epoch plain) :=
  emit_inForm h

theorem writeBlocks_inForm {i r bytes} (h : inForm fam s) : inForm fam (writeBlocks s i r bytes) :=
  foldl_inForm (fun _ ht _ => writeBlock_inForm ht) h

theorem beginSession_inForm (h : inForm fam s) : inForm fam (beginSession s) :=
  nvmeIo_inForm (writeBlock_inForm (setCatalogue_inForm h))

theorem closeWrites_inForm (h : inForm fam s) : inForm fam (closeWrites s) := by
  unfold closeWrites
  dsimp only
  refine foldl_inForm (fun _ ht _ => nvmeIo_inForm ht) ?_
  split
  · exact placeBlocks_inForm h
  · exact writeBlock_inForm (setCatalogue_inForm (placeBlocks_inForm h))

/-! ### Machine/Weights -/

theorem setWgt_inForm {w} (h : inForm fam s) : inForm fam (setWgt s w) := update_inForm h
theorem setResult_inForm {r} (h : inForm fam s) : inForm fam (setResult s r) := setWgt_inForm h
theorem startWgt_inForm {op} (h : inForm fam s) :
    inForm fam (startWgt op s) := ite_inForm h (setWgt_inForm (raise_inForm h))
theorem wgtCmdEnd_inForm (h : inForm fam s) : inForm fam (wgtCmdEnd s) := by
  unfold wgtCmdEnd
  split
  · refine ite_inForm h ?_
    exact
      have h1 := raise_inForm (setF_inForm (setF_inForm (lower_inForm h)))
      setWgt_inForm (ite_inForm h1 (raise_inForm h1))
  · exact h

theorem wgtEvent_inForm {bit kind model epoch shard} (h : inForm fam s) : inForm fam (wgtEvent s bit kind model epoch shard) :=
  raise_inForm (capture_inForm h)

theorem ingestShard_inForm {rd m x k i} (h : inForm fam x.2) : inForm fam (ingestShard rd m x k i).2.2.2 := by
  unfold ingestShard
  dsimp only
  split
  · refine ite_snd3_inForm h (bump_inForm (writeBlocks_inForm (placeBlocks_inForm ?_)))
    exact ite_inForm h (beginSession_inForm h)
  · exact ite_snd3_inForm (bump_inForm (memEvent_inForm h)) h
  · exact h

theorem ingestShards_inForm {rd m k l x} (h : inForm fam x.2) : inForm fam (ingestShards rd m k l x).2.2.2 := by
  induction l generalizing m k x with
  | nil => exact h
  | cons i l ih =>
    unfold ingestShards
    have h1 : inForm fam (ingestShard rd m x k i).2.2.2 := ingestShard_inForm h
    split
    · next e =>
        rw [e] at h1
        exact ih h1
    · next e =>
        rw [e] at h1
        exact h1

theorem createEntry_inForm {r active} (h : inForm fam s) : inForm fam (createEntry s r active) := by
  unfold createEntry
  dsimp only
  split
  · exact setTiers_inForm (freeVal_inForm h) dirUpd_inForm
  · exact h

theorem setRecs_inForm {recs} (h : memInForm fam m) : memInForm fam { m with recs := recs } := h

theorem moveActive_inForm {model epoch} (h : memInForm fam m) : memInForm fam (moveActive m model epoch) := by
  refine List.foldlRecOn _ _ h fun m' hm i _ => ?_
  dsimp only
  split
  · exact dirUpd_inForm hm
  · exact hm

theorem register_inForm {m} (h : inForm fam s) : inForm fam (register s m) := by
  unfold register
  exact
    have h1 := createEntry_inForm (closeWrites_inForm (setCatalogue_inForm h))
    bump_inForm (ite_inForm (bump_inForm (raise_inForm (setTiers_inForm h1 moveActive_inForm))) h1)

theorem ingest_inForm {image} (h : inForm fam s) : inForm fam (ingest image s) := by
  unfold ingest
  dsimp only
  have h1 : inForm fam (setF s F.WGT_ING_PROG 0) := setF_inForm h
  refine ite_inForm h (ite_inForm (setResult_inForm h1) (ite_inForm (setResult_inForm h1)
    (ite_inForm (setResult_inForm h1) (ite_inForm (setResult_inForm h1) ?_))))
  split
  · exact setResult_inForm h1
  · have h2 : inForm fam (ingestShards (listReader image) (manifestOf (listReader image)) 0 (manifestOf (listReader image)).ep.shards
        (false, setF s F.WGT_ING_PROG 0)).2.2.2 := ingestShards_inForm h1
    split
    · next e =>
        rw [e] at h2
        exact setResult_inForm (register_inForm (ite_inForm h2 (beginSession_inForm h2)))
    · next e =>
        rw [e] at h2
        exact setResult_inForm h2

theorem dropStage_inForm {model epoch} (h : inForm fam s) : inForm fam (dropStage s model epoch) :=
  ite_inForm (unpin_inForm (setMem_inForm h)) h

theorem retire_inForm (h : inForm fam s) : inForm fam (retire s) := by
  unfold retire
  refine ite_inForm h (ite_inForm (setResult_inForm h) ?_)
  split
  · exact setResult_inForm h
  · exact ite_inForm (setResult_inForm h) (setResult_inForm (bump_inForm (retryPending_inForm (setTiers_inForm (hm := fun hm =>
      dropModelRegion_inForm (setRecs_inForm (dirUpd_inForm hm))) (endJob_inForm (closeWrites_inForm (setCatalogue_inForm (beginSession_inForm (dropStage_inForm h)))))))))

theorem switchNow_inForm {model epoch} (h : inForm fam s) : inForm fam (switchNow s model epoch) :=
  bump_inForm (raise_inForm (setTiers_inForm h moveActive_inForm))

theorem switchLater_inForm {model epoch old} (h : inForm fam s) : inForm fam (switchLater s model epoch old) :=
  bump_inForm (setF_inForm (raise_inForm (setWgt_inForm (setMem_inForm (setTiers_inForm h moveActive_inForm)))))

theorem keepTransom_inForm {model epoch} (h : inForm fam s) : inForm fam (keepTransom s model epoch) :=
  ite_inForm h (closeWrites_inForm (setCatalogue_inForm (beginSession_inForm h)))

theorem switch_inForm {resident} (h : inForm fam s) : inForm fam (switch resident s) := by
  unfold switch
  refine ite_inForm h (ite_inForm (setResult_inForm h) ?_)
  split
  · exact setResult_inForm h
  · refine ite_inForm (setResult_inForm h) ?_
    split
    · exact setResult_inForm h
    · refine ite_inForm (ite_inForm (setResult_inForm (announceChange_inForm h)) (setResult_inForm h)) ?_
      split
      exact ite_inForm (setResult_inForm (keepTransom_inForm (dropStage_inForm (switchNow_inForm h)))) (ite_inForm
        (setResult_inForm (keepTransom_inForm (dropStage_inForm (switchLater_inForm h)))) (setResult_inForm h))

theorem stage_inForm (h : inForm fam s) : inForm fam (stage s) := by
  unfold stage
  dsimp only
  refine ite_inForm h (ite_inForm (setResult_inForm h) ?_)
  split
  · exact setResult_inForm h
  · refine ite_inForm (setResult_inForm h) (ite_inForm (setResult_inForm h) (ite_inForm (setResult_inForm h) ?_))
    exact
      have h1 := setTiers_inForm h fun hm => dirUpd_inForm (recUpd_inForm hm)
      ite_inForm (setResult_inForm h1) (ite_inForm (setResult_inForm (announceChange_inForm h1)) (ite_inForm
        (setResult_inForm (queueFetch_inForm (reserveEpoch_inForm h1))) (setResult_inForm (dropStage_inForm
        (reserveEpoch_inForm h1)))))

theorem unstage_inForm (h : inForm fam s) : inForm fam (unstage s) := by
  unfold unstage
  refine ite_inForm h (ite_inForm (setResult_inForm h) ?_)
  split
  · exact setResult_inForm h
  · exact setResult_inForm (dropStage_inForm h)

theorem query_inForm (h : inForm fam s) : inForm fam (query s) :=
  ite_inForm h (setResult_inForm (setF_inForm (setBool_inForm (setBool_inForm (setF_inForm (setF_inForm
    (setF_inForm (setWgt_inForm h))))))))

/-! ### Machine/Tiers -/

theorem loadFail_inForm {shard} (h : inForm fam s) : inForm fam (loadFail s shard) := by
  unfold loadFail
  split
  · exact dropStage_inForm (setTiers_inForm (lower_inForm (setSpan_inForm (wgtEvent_inForm h))) freeEpochUnits_inForm)
  · exact h

theorem endLoadFailed_inForm {shard unusable cause?} (h : inForm fam s) :
    inForm fam (endLoadFailed s shard unusable cause?) := by
  unfold endLoadFailed
  split
  · refine
      have h1 := loadFail_inForm (ite_inForm (eventToMaster_inForm h) ?_)
      ite_inForm (markUnusable_inForm h1) h1
    exact
      have h2 := ite_inForm (eventToAll_inForm h) h
      ite_inForm h2 (announceChange_inForm h2)
  · exact h

theorem noteLoadReport_inForm {ord shard v unusable cause?} (h : inForm fam s) :
    inForm fam (noteLoadReport s ord shard v unusable cause?) := by
  unfold noteLoadReport
  split
  · exact h
  · split
    · exact h
    · refine ite_inForm (ite_inForm (ite_inForm (endLoadFailed_inForm h) (ite_inForm (markUnusable_inForm
      (loadFail_inForm h)) h)) ?_) (ite_inForm ?_ h)
      · exact
          have h1 := setSpan_inForm h
          ite_inForm (bump_inForm h1) h1
      · exact
          have h2 := setSpan_inForm h
          ite_inForm (announceChange_inForm h2) h2

theorem loadReport_inForm {shard v unusable} (h : inForm fam s) : inForm fam (loadReport s shard v unusable) :=
  ite_inForm (noteLoadReport_inForm (eventToAll_inForm h)) (noteLoadReport_inForm (eventToMaster_inForm h))

theorem defective_inForm {model epoch i bulk off} (h : inForm fam s) : inForm fam (defective s model epoch i bulk off) := by
  unfold defective
  exact
    have h1 := bump_inForm (memEvent_inForm h)
    ite_inForm (refetchFromStore_inForm h1) (markUnusable_inForm (missFetch_inForm h1))

theorem copyToBulk_inForm {model epoch k i bytes} (h : inForm fam s) : inForm fam (copyToBulk s model epoch k i bytes) := by
  unfold copyToBulk
  split
  · next e =>
      have h1 := reserveBulk_inForm h e
      split
      · exact setMem_inForm (setTiers_inForm h1 fun hm => setBulk_inForm hm (Laws.memory_wf_writeBytes _ _ _ _))
      · exact h1
  · exact h

theorem fillNear_inForm {i out} (h : inForm fam s) : inForm fam (fillNear s i out) :=
  setTiers_inForm h fun hm => setNear_inForm hm (Laws.memory_wf_writeBytes _ _ _ _)

theorem landShard_inForm {model epoch k i bulk bytes} (h : inForm fam s) :
    inForm fam (landShard s model epoch k i bulk bytes) := by
  unfold landShard
  dsimp only
  split
  · exact defective_inForm h
  · refine ite_inForm (defective_inForm (bump_inForm (wgtEvent_inForm (fillNear_inForm h)))) ?_
    exact
      have h1 := setMem_inForm (fillNear_inForm h)
      ite_inForm h1 (copyToBulk_inForm h1)

theorem storeFailed_inForm {ctrl lba model epoch} (h : inForm fam s) : inForm fam (storeFailed s ctrl lba model epoch) := by
  unfold storeFailed
  dsimp only
  split
  · exact
      have h1 := missFetch_inForm (setTiers_inForm (bump_inForm (memEvent_inForm h)) dirUpdEpoch_inForm)
      ite_inForm h1 (abandonFetch_inForm h1)
  · exact markUnusable_inForm (endLoadFailed_inForm (setTiers_inForm (bump_inForm (memEvent_inForm h)) dirUpdEpoch_inForm))

theorem shardWritten_inForm {model epoch k bytes} (h : inForm fam s) : inForm fam (shardWritten model epoch k bytes s) := by
  unfold shardWritten
  split
  · refine ite_inForm h ?_
    split
    · exact ite_inForm (missFetch_inForm h) h
    · split
      · exact storeFailed_inForm h
      · exact landShard_inForm h
      · exact landShard_inForm h
  · exact h

theorem digestComplete_inForm {model epoch k} (h : inForm fam s) : inForm fam (digestComplete model epoch k s) := by
  unfold digestComplete
  dsimp only
  split
  · exact h
  · split
    · exact h
    · refine ite_inForm h (ite_inForm (setMem_inForm h) ?_)
      split
      · exact ite_inForm (markUnusable_inForm (loadFail_inForm (loadReport_inForm (setMem_inForm (bump_inForm
        (wgtEvent_inForm h)))))) (loadReport_inForm (setSpan_inForm (setMem_inForm (bump_inForm (wgtEvent_inForm h)))))
      · exact ite_inForm (refetchFromStore_inForm (setMem_inForm (bump_inForm (wgtEvent_inForm h)))) (markUnusable_inForm
        (missFetch_inForm (setMem_inForm (bump_inForm (wgtEvent_inForm h)))))

theorem fetchComplete_inForm {model epoch} (h : inForm fam s) : inForm fam (fetchComplete model epoch s) := by
  unfold fetchComplete
  split
  · exact ite_inForm h (endJob_inForm (bump_inForm (setTiers_inForm h dirUpdEpoch_inForm)))
  · exact h

theorem fetchBoundExpiry_inForm {model epoch} (h : inForm fam s) : inForm fam (fetchBoundExpiry model epoch s) :=
  ite_inForm (missFetch_inForm h) h

theorem tagFailed_inForm {ctrl lba model epoch} (h : inForm fam s) : inForm fam (tagFailed s ctrl lba model epoch) := by
  unfold tagFailed
  exact
    have h1 := bump_inForm (memEvent_inForm h)
    markUnusable_inForm (ite_inForm (missFetch_inForm h1) (endLoadFailed_inForm h1))

theorem dropRetry_inForm {ctrl lba} (h : inForm fam s) : inForm fam (dropRetry s ctrl lba) := setMem_inForm h
theorem storeReadComplete_inForm {ctrl lba model epoch z} (h : inForm fam s) :
    inForm fam (storeReadComplete ctrl lba model epoch z s) := by
  unfold storeReadComplete
  refine ite_inForm h ?_
  split
  · exact dropRetry_inForm h
  · exact ite_inForm (storeFailed_inForm (dropRetry_inForm h)) (nvmeIo_inForm (setMem_inForm (dropRetry_inForm h)))
  · exact ite_inForm (tagFailed_inForm (dropRetry_inForm h)) (nvmeIo_inForm (setMem_inForm (dropRetry_inForm h)))

theorem storeReadTimeout_inForm {ctrl lba model epoch} (h : inForm fam s) :
    inForm fam (storeReadTimeout ctrl lba model epoch s) :=
  ite_inForm h (storeReadComplete_inForm (emit_inForm h))

theorem storeControllerDrop_inForm {ctrl} (h : inForm fam s) : inForm fam (storeControllerDrop ctrl s) := by
  unfold storeControllerDrop
  refine foldl_inForm (fun _ ht _ => ?_) (setBool_inForm (setBitF_inForm h))
  split
  · exact storeFailed_inForm ht
  · exact ht

theorem logPagePoll_inForm (h : inForm fam s) : inForm fam (logPagePoll s) :=
  foldl_inForm (fun _ ht _ => emit_inForm (emit_inForm ht)) h

theorem requeueFetch_inForm {model epoch} (h : inForm fam s) : inForm fam (requeueFetch s model epoch) := by
  unfold requeueFetch
  dsimp only
  split
  · exact
      have h1 := endJob_inForm h
      ite_inForm (queueFetch_inForm h1) (ite_inForm (queueFetch_inForm (reserveEpoch_inForm h1)) (failWhere_inForm
        (setTiers_inForm (reserveEpoch_inForm h1) dirUpdEpoch_inForm)))
  · exact h

theorem loseEpoch_inForm {r} (h : inForm fam s) : inForm fam (loseEpoch s r) := by
  unfold loseEpoch
  dsimp only
  have hfreed := setTiers_inForm h fun hm => freeEpochUnits_inForm (model := r.model) (epoch := r.epoch)
    (dirUpdEpoch_inForm (model := r.model) (epoch := r.epoch) (f := fun e => { e with near := false }) hm)
  refine ite_inForm (failWhere_inForm ?_) (requeueFetch_inForm ?_)
  all_goals
    split
    · exact ite_inForm (endLoadFailed_inForm hfreed) hfreed
    · exact hfreed

theorem loseRegion_inForm {g} (h : inForm fam s) : inForm fam (loseRegion s g) := by
  unfold loseRegion
  split
  · exact failWhere_inForm (setMem_inForm h)
  · exact breakStream_inForm (setMem_inForm h)

/-- Content of Near that goes. -/
theorem filterNear_inForm {f : Host.Cell → Bool} (h : inForm fam s) : inForm fam (setMem s { s.mem with near := s.mem.near.filter f }) :=
  setTiers_inForm h fun hm hfam => by
    obtain ⟨hnear, hrest⟩ := hm hfam
    exact ⟨Laws.memory_wf_filter f hnear, hrest⟩

/-- Content of Bulk that goes. -/
theorem filterBulk_inForm {f : Host.Cell → Bool} (h : inForm fam s) : inForm fam (setMem s { s.mem with bulk := s.mem.bulk.filter f }) :=
  setTiers_inForm h fun hm hfam => by
    obtain ⟨hnear, hbulk, hrest⟩ := hm hfam
    exact ⟨hnear, Laws.memory_wf_filter f hbulk, hrest⟩

theorem loseStack_inForm {n die addr} (h : inForm fam s) : inForm fam (loseStack s n die addr) := by
  unfold loseStack
  refine ite_inForm h ?_
  exact
    have h1 := filterNear_inForm (foldl_inForm (fun _ ht _ => loseRegion_inForm ht) (foldl_inForm (fun _ ht _ =>
      loseEpoch_inForm ht) (setBitF_inForm (stampEvent_inForm (memEvent_inForm h)))))
    have h2 := ite_inForm (markFaulted_inForm h1) h1
    ite_inForm (raise_inForm h2) h2

theorem countNearCe_inForm {n} (h : inForm fam s) : inForm fam (countNearCe s n) :=
  ite_inForm h (addF_inForm (memEvent_inForm h))

theorem countBulkCe_inForm {n} (h : inForm fam s) : inForm fam (countBulkCe s n) :=
  ite_inForm h (addF_inForm (memEvent_inForm h))

theorem nearReadUncorrectable_inForm {n addr errs onDie} (h : inForm fam s) :
    inForm fam (nearReadUncorrectable n addr errs onDie s) := by
  unfold nearReadUncorrectable
  refine ite_inForm h (ite_inForm (countNearCe_inForm (countNearCe_inForm h)) ?_)
  split
  · exact stampEvent_inForm (memEvent_inForm (setF_inForm (setBitF_inForm (countNearCe_inForm h))))
  · exact loseStack_inForm (countNearCe_inForm h)

theorem nearStackLoss_inForm {n} (h : inForm fam s) : inForm fam (nearStackLoss n s) := loseStack_inForm h
theorem loseSide_inForm {side addr} (h : inForm fam s) : inForm fam (loseSide s side addr) :=
  ite_inForm h (filterBulk_inForm (foldl_inForm (fun _ ht _ => ite_inForm (refetchFromStore_inForm ht) (setMem_inForm ht))
    (stampEvent_inForm (memEvent_inForm (setF_inForm (setBitF_inForm h))))))

theorem bulkReadUncorrectable_inForm {side addr group rank errs} (h : inForm fam s) :
    inForm fam (bulkReadUncorrectable side addr group rank errs s) := by
  unfold bulkReadUncorrectable
  refine ite_inForm h (ite_inForm (countBulkCe_inForm h) ?_)
  split
  · exact ite_inForm (loseSide_inForm h) (stampEvent_inForm (memEvent_inForm (setF_inForm (setBitF_inForm h))))
  · exact loseSide_inForm h

theorem bulkSideLoss_inForm {side} (h : inForm fam s) :
    inForm fam (bulkSideLoss side s) := ite_inForm h (loseSide_inForm h)
theorem patrolScrub_inForm {nearCe bulkCe} (h : inForm fam s) : inForm fam (patrolScrub nearCe bulkCe s) :=
  countBulkCe_inForm (countNearCe_inForm h)

theorem forgetContent_inForm {model epoch} (h : inForm fam s) : inForm fam (forgetContent s model epoch) := by
  unfold forgetContent
  exact
    have h1 := foldl_inForm (fun _ ht _ =>
      have h1 := ite_inForm (setCasement_inForm ht) ht
      ite_inForm (setPane_inForm h1) h1) h
    updateReady_inForm (ite_inForm (dropFlipped_inForm h1) h1)

theorem refetchPinned_inForm {model epoch} (h : inForm fam s) : inForm fam (refetchPinned s model epoch) := by
  unfold refetchPinned
  dsimp only
  exact ite_inForm h (ite_inForm (failWhere_inForm (reserveEpoch_inForm h)) (failWhere_inForm (setMem_inForm
    (queueFetch_inForm (reserveEpoch_inForm h)))))

theorem scrubMismatch_inForm {steward model epoch k} (h : inForm fam s) :
    inForm fam (scrubMismatch s steward model epoch k) := by
  unfold scrubMismatch
  exact
    have h1 := forgetContent_inForm (setMem_inForm (setTiers_inForm (bump_inForm (wgtEvent_inForm (stampEvent_inForm h)))
      fun hm => freeEpochUnits_inForm (dirUpdEpoch_inForm hm)))
    refetchPinned_inForm (ite_inForm (markFaulted_inForm h1) h1)

theorem scrubTile_inForm {steward model epoch k bad} (h : inForm fam s) :
    inForm fam (scrubTile steward model epoch k bad s) := by
  unfold scrubTile
  split
  · exact h
  · split
    · exact h
    · refine ite_inForm h (ite_inForm (scrubMismatch_inForm (bump_inForm h)) ?_)
      exact
        have h1 := setMem_inForm (bump_inForm h)
        ite_inForm (setMem_inForm (setF_inForm h1)) h1

theorem digestScrubTile_inForm {steward y model epoch k bad} (h : inForm fam s) :
    inForm fam (digestScrubTile steward y model epoch k bad s) := by
  unfold digestScrubTile
  exact
    have h1 := tileCommit_inForm h
    ite_inForm (scrubTile_inForm h1) h1

theorem decompEngineFail_inForm {n} (h : inForm fam s) : inForm fam (decompEngineFail n s) := setBitF_inForm h

/-! ### Machine/Modes -/

theorem deny_inForm {a r} (h : inForm fam s) :
    inForm fam (deny s a r) := bump_inForm (raise_inForm (capture_inForm h))
theorem loadRegs_inForm {all l} (h : inForm fam s) : inForm fam (loadRegs all l s) :=
  foldl_inForm (fun _ ht _ => ite_inForm (loadImageReg_inForm ht) ht) h

theorem resizeRegions_inForm (h : inForm fam s) : inForm fam (resizeRegions s) := by
  unfold resizeRegions
  refine foldl_inForm (fun _ ht _ => ?_) h
  split
  · exact ite_inForm ht (setMem_inForm ht)
  · exact ht

theorem clearSettings_inForm (h : inForm fam s) : inForm fam (clearSettings s) :=
  foldl_inForm (fun _ ht _ => ite_inForm (foldl_inForm (fun _ ht _ => fieldSet_inForm ht) ht) ht) h

theorem settleSpan_inForm (h : inForm fam s) : inForm fam (settleSpan s) := by
  unfold settleSpan
  exact
    have h1 := setBool_inForm (setBool_inForm h)
    ite_inForm (raise_inForm h1) h1

theorem applyMode_inForm {all mode} (h : inForm fam s) : inForm fam (applyMode all mode s) := by
  unfold applyMode
  refine settleSpan_inForm (setF_inForm (setF_inForm (setBool_inForm ?_)))
  split
  · exact resizeRegions_inForm (loadPlan_inForm (setSpan_inForm (loadRegs_inForm (loadRegs_inForm (ite_inForm h
    (clearSettings_inForm h))))))
  · exact resizeRegions_inForm (loadPlan_inForm (setSpan_inForm (loadRegs_inForm (loadRegs_inForm (ite_inForm h
    (clearSettings_inForm h))))))

theorem pendMode_inForm {target asked cause?} (h : inForm fam s) : inForm fam (pendMode s target asked cause?) := by
  unfold pendMode
  refine
    have h1 := setFrame_inForm (stampCaused_inForm (setF_inForm (raise_inForm h))) (hx := ?_)
    ite_inForm h1 (raise_inForm h1)
  dsimp only [frameMaps, stampCaused, countStamp]
  split <;> rfl

theorem modeRequest_inForm {target r} (h : inForm fam s) : inForm fam (modeRequest target r s) := by
  unfold modeRequest
  split
  · exact setF_inForm (raise_inForm (ite_inForm (deny_inForm h) h))
  · exact
      have h1 := pendMode_inForm h
      ite_inForm (setFrame_inForm h1) (announceMode_inForm h1)

theorem discardExcluded_inForm {mode} (h : inForm fam s) : inForm fam (discardExcluded s mode) := by
  unfold discardExcluded
  exact
    have h1 := ite_inForm (clearLens_inForm (setCasement_inForm h)) h
    dropExcluded_inForm (ite_inForm (clearLoaded_inForm (setPane_inForm h1)) h1)

theorem recheckPlan_inForm (h : inForm fam s) : inForm fam (recheckPlan s) := by
  unfold recheckPlan
  refine renewNaming_inForm (foldl_inForm (fun _ ht _ => ?_) h)
  exact
    have h1 := setMem_inForm (foldl_inForm (fun _ ht _ => rejectConfig_inForm ht) ht)
    ite_inForm h1 (markUnusable_inForm h1)

theorem freshSpan_inForm (h : inForm fam s) : inForm fam (freshSpan s) :=
  setSpan_inForm (setBool_inForm (lower_inForm (lower_inForm (foldl_inForm (fun _ ht _ => setF_inForm ht) h))))

theorem modeChangeApply_inForm (h : inForm fam s) : inForm fam (modeChangeApply s) := by
  unfold modeChangeApply
  refine ite_inForm h ?_
  exact
    have h1 := applyMode_inForm h
    have h2 := lower_inForm (recheckPlan_inForm (rebasePlan_inForm (discardExcluded_inForm (failInfeasible_inForm
      (setF_inForm (foldl_inForm (fun _ ht _ => retrainPort_inForm ht) (ite_inForm h1 (freshSpan_inForm h1))))))))
    planPoints_inForm (showCap_inForm (bootCap_inForm (stampEvent_inForm (setF_inForm (raise_inForm (ite_inForm h2
      (setF_inForm h2)))))))

/-! ### Machine/Span -/

theorem hearMaster_inForm {m} (h : inForm fam s) : inForm fam (hearMaster s m) := ite_inForm (setSpan_inForm h) h
theorem takeMsg_inForm {m} (h : inForm fam s) : inForm fam (takeMsg s m) :=
  hearMaster_inForm (ite_inForm (setSpan_inForm h) (bump_inForm h))

theorem stretchReq_inForm {m} (h : inForm fam s) : inForm fam (stretchReq m s) :=
  ite_inForm h (acceptStretch_inForm (takeMsg_inForm h))

theorem stretchGrant_inForm {m} (h : inForm fam s) : inForm fam (stretchGrant m s) :=
  ite_inForm h (takeGrant_inForm (takeMsg_inForm h))

theorem breakStreams_inForm {c l cause?} (h : inForm fam s) : inForm fam (breakStreams s c l cause?) :=
  foldl_inForm (fun _ ht _ => breakStream_inForm ht) h

theorem skipCurrent_inForm {again} (h : inForm fam s) : inForm fam (skipCurrent s again) := by
  unfold skipCurrent
  split
  · exact
      have h1 := setSpan_inForm (update_inForm h)
      ite_inForm (markFaulted_inForm (setFrame_inForm (setSpan_inForm h1) (hx := rfl))) h1
  · exact h

theorem replayOrFail_inForm {c f skipped alone fail cause?} (h : inForm fam s) :
    inForm fam (replayOrFail s c f skipped alone fail cause?) := by
  unfold replayOrFail
  exact
    have h1 := setSpan_inForm h
    ite_inForm (replayFail_inForm (endWaiting_inForm h1)) (ite_inForm (setFrame_inForm (endWaiting_inForm h1))
      (ite_inForm (showEmpty_inForm (openLive_inForm h1)) (setFrame_inForm (endWaiting_inForm h1))))

theorem showDecision_inForm {f kind n c} (h : inForm fam s) : inForm fam (showDecision s f kind n c) :=
  raise_inForm (setF_inForm (setF_inForm (setF_inForm (setF_inForm h))))

theorem countLateGuard_inForm {late} (h : inForm fam s) : inForm fam (countLateGuard s late) :=
  ite_inForm (bump_inForm (raise_inForm h)) h

theorem applyDecision_inForm {f kind skipped c split cause?} (h : inForm fam s) :
    inForm fam (applyDecision s f kind skipped c split cause?) := by
  unfold applyDecision
  refine ite_inForm ?_ (ite_inForm (ite_inForm (replayOrFail_inForm (bump_inForm (showDecision_inForm
    (countLateGuard_inForm h)))) (ite_inForm ?_ (bump_inForm (showDecision_inForm (countLateGuard_inForm h)))))
    (ite_inForm ?_ (ite_inForm (breakStreams_inForm (setSpan_inForm (showDecision_inForm (countLateGuard_inForm h))))
    ?_)))
  · exact
      have h1 := bump_inForm (raise_inForm (showDecision_inForm (countLateGuard_inForm h)))
      breakStreams_inForm (ite_inForm (replayOrFail_inForm h1) h1)
  · exact
      have h2 := setSpan_inForm (bump_inForm (showDecision_inForm (countLateGuard_inForm h)))
      ite_inForm (skipCurrent_inForm h2) h2
  · exact
      have h3 := replayOrFail_inForm (bump_inForm (showDecision_inForm (countLateGuard_inForm h)))
      ite_inForm (breakStreams_inForm h3) h3
  · exact
      have h4 := addF_inForm (setSpan_inForm (showDecision_inForm (countLateGuard_inForm h)))
      ite_inForm (setSpan_inForm (skipCurrent_inForm h4)) (setSpan_inForm h4)

theorem decideFrame_inForm {cause? f} (h : inForm fam s) : inForm fam (decideFrame cause? s f) := by
  unfold decideFrame
  refine ite_inForm h ?_
  exact
    have h1 := setSpan_inForm h
    ite_inForm h1 (applyDecision_inForm (eventToAll_inForm (ite_inForm (setSpan_inForm h1) h1)))

theorem decidePending_inForm {cause?} (h : inForm fam s) : inForm fam (decidePending s cause?) :=
  foldl_inForm (fun _ ht _ => decideFrame_inForm ht) h

theorem frameReport_inForm {m} (h : inForm fam s) : inForm fam (frameReport m s) := by
  unfold frameReport
  refine ite_inForm h (ite_inForm (decideFrame_inForm h) ?_)
  exact
    have h1 := takeMsg_inForm h
    decideFrame_inForm (ite_inForm h1 (setSpan_inForm h1))

theorem faultNotice_inForm {m} (h : inForm fam s) : inForm fam (faultNotice m s) := by
  unfold faultNotice
  refine ite_inForm h (ite_inForm (ite_inForm (forwardDown_inForm (takeMsg_inForm h)) (takeMsg_inForm h)) ?_)
  exact
    have h1 := countLateGuard_inForm (bump_inForm (raise_inForm (stampCaused_inForm (ite_inForm (forwardDown_inForm
      (takeMsg_inForm h)) (takeMsg_inForm h)))))
    ite_inForm (markFaulted_inForm (setSpan_inForm h1)) h1

theorem decision_inForm {m} (h : inForm fam s) : inForm fam (decision m s) :=
  ite_inForm h (applyDecision_inForm (takeMsg_inForm h))

theorem memberLost_inForm {x cause at_ abort cause?} (h : inForm fam s) :
    inForm fam (memberLost s x cause at_ abort cause?) := by
  unfold memberLost
  exact
    have h1 := bump_inForm (setBitF_inForm (raise_inForm (raise_inForm (capture_inForm (stampCaused_inForm h)))))
    have h2 := ite_inForm (markFaulted_inForm (setSpan_inForm h1)) h1
    have h3 := failWhere_inForm (ite_inForm (dropFrame_inForm (setSpan_inForm h2)) h2)
    failUnmet_inForm (setSpan_inForm (ite_inForm (endLoadFailed_inForm h3) (loadFail_inForm h3)))

theorem declareLost_inForm {x cause at_ abort cause?} (h : inForm fam s) :
    inForm fam (declareLost s x cause at_ abort cause?) :=
  ite_inForm h (decidePending_inForm (memberLost_inForm (eventToAll_inForm h)))

theorem alignReport_inForm {m} (h : inForm fam s) : inForm fam (alignReport m s) := by
  unfold alignReport
  refine ite_inForm h ?_
  exact
    have h1 := takeMsg_inForm h
    ite_inForm (setSpan_inForm h1) (ite_inForm h1 (setSpan_inForm h1))

theorem alignGraceExpiry_inForm {ord} (h : inForm fam s) : inForm fam (alignGraceExpiry ord s) :=
  ite_inForm (declareLost_inForm (setSpan_inForm h)) h

theorem memberReportMissing_inForm {ord} (h : inForm fam s) : inForm fam (memberReportMissing ord s) :=
  ite_inForm (declareLost_inForm h) h

theorem linkLost_inForm {m} (h : inForm fam s) : inForm fam (linkLost m s) := by
  unfold linkLost
  refine ite_inForm h ?_
  exact
    have h1 := takeMsg_inForm h
    ite_inForm (declareLost_inForm h1) (declareLost_inForm h1)

theorem leave_inForm {m} (h : inForm fam s) :
    inForm fam (leave m s) := ite_inForm h (declareLost_inForm (takeMsg_inForm h))
theorem memberLostMsg_inForm {m} (h : inForm fam s) : inForm fam (memberLostMsg m s) :=
  ite_inForm h (memberLost_inForm (takeMsg_inForm h))

theorem isolate_inForm (h : inForm fam s) : inForm fam (isolate s) := ite_inForm h (memberLost_inForm h)
theorem selfIsolation_inForm (h : inForm fam s) : inForm fam (selfIsolation s) := ite_inForm (isolate_inForm h) h
theorem takeover_inForm {m} (h : inForm fam s) : inForm fam (takeover m s) :=
  ite_inForm h (setSpan_inForm (setF_inForm (takeMsg_inForm h)))

theorem masterLossTimeout_inForm (h : inForm fam s) : inForm fam (masterLossTimeout s) :=
  ite_inForm h (declareLost_inForm (setSpan_inForm (setF_inForm (raise_inForm (raise_inForm (raise_inForm
    (setF_inForm (setF_inForm (setF_inForm (eventToAll_inForm h))))))))))

theorem takeoverTimeout_inForm (h : inForm fam s) : inForm fam (takeoverTimeout s) := by
  unfold takeoverTimeout
  split
  · exact ite_inForm (isolate_inForm h) h
  · exact h

theorem announce_inForm {m} (h : inForm fam s) : inForm fam (announce m s) := by
  unfold announce
  refine ite_inForm h ?_
  exact
    have h1 := setSpan_inForm (takeMsg_inForm h)
    ite_inForm (setF_inForm (setF_inForm h1)) (ite_inForm (pendMode_inForm h1) h1)

theorem beginSpanLoad_inForm {model epoch} (h : inForm fam s) : inForm fam (beginSpanLoad s model epoch) := by
  unfold beginSpanLoad
  dsimp only
  split
  · exact h
  · refine ite_inForm h ?_
    exact
      have h1 := raise_inForm (setSpan_inForm h)
      ite_inForm (foldl_inForm (fun _ ht _ => readRun_inForm ht) (reserveWith_inForm h1 fun _ _ => placeEpoch_inForm)) (loadReport_inForm
        (reserveWith_inForm h1 fun _ _ => placeEpoch_inForm))

theorem endSpanLoad_inForm {model epoch failed} (h : inForm fam s) : inForm fam (endSpanLoad s model epoch failed) := by
  unfold endSpanLoad
  dsimp only
  split
  · refine ite_inForm (setSpan_inForm h) (ite_inForm (loadFail_inForm (setSpan_inForm h)) ?_)
    exact
      have h1 := raise_inForm (lower_inForm (setSpan_inForm (setSpan_inForm h)))
      ite_inForm (setTiers_inForm h1 dirUpdEpoch_inForm) h1
  · exact setSpan_inForm h

theorem announceApply_inForm {subject} (h : inForm fam s) : inForm fam (announceApply subject s) := by
  unfold announceApply
  split
  · exact h
  · split
    · exact periodChange_inForm (setSpan_inForm h)
    · exact modeChangeApply_inForm (setSpan_inForm h)
    · exact keepTransom_inForm (dropStage_inForm (switchNow_inForm (setSpan_inForm h)))
    · exact beginSpanLoad_inForm (setSpan_inForm h)
    · exact endSpanLoad_inForm (setSpan_inForm h)
    · exact setSpan_inForm h

theorem loadReportMsg_inForm {m} (h : inForm fam s) : inForm fam (loadReportMsg m s) := by
  unfold loadReportMsg
  refine ite_inForm h (ite_inForm ?_ ?_)
  · split
    · exact ite_inForm (loadReport_inForm (setSpan_inForm h)) h
    · exact h
  · exact
      have h1 := takeMsg_inForm h
      noteLoadReport_inForm (ite_inForm (forwardDown_inForm h1) h1)

theorem loadDefect_inForm {k i off} (h : inForm fam s) : inForm fam (loadDefect s k i off) :=
  loadReport_inForm (bump_inForm (memEvent_inForm h))

theorem placeLoaded_inForm {l k i bytes} (h : inForm fam s) : inForm fam (placeLoaded s l k i bytes) := by
  unfold placeLoaded
  dsimp only
  split
  · exact loadDefect_inForm (setSpan_inForm h)
  · exact ite_inForm (loadDefect_inForm (bump_inForm (wgtEvent_inForm (setSpan_inForm h)))) (setMem_inForm
    (fillNear_inForm (setSpan_inForm h)))

theorem takePiece_inForm {l r k piece bytes} (h : inForm fam s) : inForm fam (takePiece s l r k piece bytes) := by
  unfold takePiece
  split
  · exact h
  · exact ite_inForm h (ite_inForm (setSpan_inForm h) (placeLoaded_inForm h))

theorem sendPiece_inForm {l r k piece port chan bytes} (h : inForm fam s) :
    inForm fam (sendPiece s l r k piece port chan bytes) := by
  unfold sendPiece
  dsimp only
  split
  · exact storeFailed_inForm h
  · exact takePiece_inForm (setLink_inForm (setSpan_inForm h))

theorem spanLoad_inForm {x} (h : inForm fam s) : inForm fam (spanLoad x s) := by
  unfold spanLoad
  split
  · exact h
  · split
    · exact h
    · split
      · refine ite_inForm h ?_
        split
        · exact sendPiece_inForm h
        · exact h
      · split
        · exact h
        · exact ite_inForm h (takePiece_inForm (setSpan_inForm h))

/-! ### Machine/Reset -/

theorem setBoot_inForm {b} (h : inForm fam s) : inForm fam (setBoot s b) := update_inForm h
theorem setPins_inForm {x} (h : inForm fam s) : inForm fam (setPins s x) := update_inForm h
theorem setFuses_inForm {x} (h : inForm fam s) : inForm fam (setFuses s x) := update_inForm h
theorem setRail_inForm {on r} (h : inForm fam s) : inForm fam (setRail on s r) :=
  ite_inForm h (emit_inForm (setPins_inForm h))

theorem railsOn_inForm {mask} (h : inForm fam s) : inForm fam (railsOn mask s) :=
  foldl_inForm (fun _ ht _ => setRail_inForm ht) h

theorem railsOff_inForm {keep} (h : inForm fam s) : inForm fam (railsOff keep s) :=
  foldl_inForm (fun _ ht _ => setRail_inForm ht) h

theorem burnStoreGen_inForm (h : inForm fam s) : inForm fam (burnStoreGen s) := by
  unfold burnStoreGen
  split
  · exact ite_inForm h (raise_inForm (setFuses_inForm (setBoot_inForm h)))
  · exact h

theorem interruptFuses_inForm (h : inForm fam s) : inForm fam (interruptFuses s) := by
  unfold interruptFuses
  dsimp only
  exact ite_inForm (ite_inForm (burnStoreGen_inForm (freeVal_inForm h)) (freeVal_inForm h)) h

theorem smapWf_kept_or_nil {α : Type} [DecidableEq α] {d : Nat → α} {xs ys : List (Nat × α)} (h : smapWf d xs = true) (e : ys = xs ∨ ys = []) :
    smapWf d ys = true := by
  obtain rfl | rfl := e
  · exact h
  · rfl

/-- What a reset, a loss of power or Dormant leaves: no cell, pane or casement is listed, and of the other maps each group stays or is empty. -/
theorem emptied_inForm (h : inForm fam s) (hcells : t.cells = []) (hsides : t.frame.panes = [] ∧ t.frame.casements = [])
    (hmem : memMaps t.mem = memMaps s.mem ∨ memMaps t.mem = ([], [], [], [])) (hlinks : t.links = s.links ∨ t.links = [])
    (hadm : admMaps t.adm = admMaps s.adm ∨ admMaps t.adm = ([], [])) (hirq : irqMaps t.irq = irqMaps s.irq ∨ irqMaps t.irq = ([], []))
    (hstamps : t.stampCnt = s.stampCnt ∨ t.stampCnt = []) : inForm fam t := by
  simp only [memMaps, admMaps, irqMaps, Prod.mk.injEq] at hmem hadm hirq
  cases fam with
  | memory =>
    refine memoryCanonical_iff.2 ?_
    obtain ⟨hnear, hbulk, hdir, hearly⟩ | ⟨hnear, hbulk, hdir, hearly⟩ := hmem
    · simpa only [memInForm, hnear, hbulk, hdir, hearly] using memoryCanonical_iff.1 h
    · intro _
      rw [hnear, hbulk, hdir, hearly]
      exact ⟨rfl, rfl, rfl, rfl⟩
  | units =>
    obtain ⟨-, hl⟩ := unitsCanonical_iff.1 h
    exact unitsCanonical_iff.2 ⟨by rw [hcells]; rfl, smapWf_kept_or_nil hl hlinks⟩
  | tables =>
    obtain ⟨-, ⟨hr, hc⟩, ⟨hn, hu⟩, hs⟩ := tablesCanonical_iff.1 h
    obtain ⟨hpanes, hcasements⟩ := hsides
    refine tablesCanonical_iff.2 ⟨⟨by rw [hpanes]; rfl, by rw [hcasements]; rfl⟩, ?_, ?_, smapWf_kept_or_nil hs hstamps⟩
    · exact ⟨smapWf_kept_or_nil hr (hadm.imp And.left And.left), smapWf_kept_or_nil hc (hadm.imp And.right And.right)⟩
    · exact ⟨smapWf_kept_or_nil hn (hirq.imp And.left And.left), smapWf_kept_or_nil hu (hirq.imp And.right And.right)⟩

theorem moduleReset_inForm {cold reason} (h : inForm fam s) : inForm fam (moduleReset cold reason s) := by
  unfold moduleReset
  dsimp only
  have hstamps : (if cold then [] else (interruptFuses s).stampCnt) = (interruptFuses s).stampCnt ∨
      (if cold then [] else (interruptFuses s).stampCnt) = [] := by
    cases cold
    · exact .inl rfl
    · exact .inr rfl
  refine
    have h1 := emptied_inForm (interruptFuses_inForm h) ?_ ?_ ?_ ?_ ?_ ?_ ?_
    setF_inForm (ite_inForm (setF_inForm (setPins_inForm h1)) (setF_inForm (setF_inForm (setPins_inForm h1))))
  exacts [rfl, ⟨rfl, rfl⟩, .inr rfl, .inr rfl, .inr rfl, .inr rfl, hstamps]

theorem beginStep_inForm {k} (h : inForm fam s) : inForm fam (beginStep s k) :=
  setBool_inForm (setBoot_inForm (setF_inForm h))

theorem beginStart_inForm (h : inForm fam s) : inForm fam (beginStart s) := by
  unfold beginStart
  refine ite_inForm h ?_
  exact
    have h1 := setBoot_inForm (setPwr_inForm (railsOn_inForm (setPins_inForm h)))
    beginStep_inForm (stampEvent_inForm (ite_inForm (raise_inForm (raise_inForm (setBoot_inForm h1))) h1))

theorem warmReset_inForm {reason} (h : inForm fam s) : inForm fam (warmReset reason s) :=
  beginStart_inForm (moduleReset_inForm h)

theorem enterSafe_inForm (h : inForm fam s) : inForm fam (enterSafe s) :=
  setBoot_inForm (stampEvent_inForm (lower_inForm (setF_inForm (lower_inForm (railsOff_inForm (setPins_inForm
    (setF_inForm (lower_inForm (setF_inForm (setF_inForm (setF_inForm (lower_inForm (setF_inForm (raise_inForm
    (emptied_inForm h rfl ⟨rfl, rfl⟩ (.inr rfl) (.inr rfl) (.inr rfl) (.inr rfl) (.inl rfl))))))))))))))))

theorem recordFail_inForm {step cause} (h : inForm fam s) : inForm fam (recordFail s step cause) := by
  unfold recordFail
  exact
    have h1 := setF_inForm (setF_inForm h)
    have h2 := setBoot_inForm (ite_inForm (setBitF_inForm h1) h1)
    setF_inForm (ite_inForm (setBoot_inForm h2) h2)

theorem failStart_inForm {cause} (h : inForm fam s) : inForm fam (failStart s cause) := by
  unfold failStart
  exact
    have h1 := stampEvent_inForm (recordFail_inForm h)
    have h2 := ite_inForm (raise_inForm h1) h1
    ite_inForm (enterSafe_inForm h2) (setBoot_inForm h2)

theorem watchdogReset_inForm (h : inForm fam s) : inForm fam (watchdogReset s) := by
  unfold watchdogReset
  dsimp only
  refine ite_inForm (warmReset_inForm h) ?_
  exact
    have h1 := recordFail_inForm (freeVal_inForm h)
    ite_inForm (enterSafe_inForm (moduleReset_inForm h1)) (warmReset_inForm h1)

theorem bootRetryReset_inForm (h : inForm fam s) : inForm fam (bootRetryReset s) := ite_inForm (warmReset_inForm h) h
theorem restart_inForm (h : inForm fam s) : inForm fam (restart s) := by
  unfold restart
  exact
    have h1 := setBoot_inForm (setF_inForm (setF_inForm h))
    warmReset_inForm (ite_inForm (setBoot_inForm (setF_inForm (setF_inForm (setF_inForm (lower_inForm (setF_inForm
      h1)))))) h1)

theorem powerOff_inForm (h : inForm fam s) : inForm fam (powerOff s) :=
  setBoot_inForm (lower_inForm (lower_inForm (emptied_inForm (railsOff_inForm (interruptFuses_inForm h)) rfl ⟨rfl, rfl⟩ (.inr rfl)
    (.inr rfl) (.inr rfl) (.inl rfl) (.inl rfl))))

theorem thermalTrip_inForm (h : inForm fam s) : inForm fam (thermalTrip s) :=
  ite_inForm h (setPins_inForm (powerOff_inForm (lower_inForm (raise_inForm (stampEvent_inForm h)))))

theorem supplyFail_inForm (h : inForm fam s) : inForm fam (supplyFail s) := by
  unfold supplyFail
  refine ite_inForm h ?_
  exact
    have h1 := setPins_inForm h
    ite_inForm (powerOff_inForm (lower_inForm (raise_inForm (stampEvent_inForm h1)))) h1

theorem auxPowerLoss_inForm (h : inForm fam s) : inForm fam (auxPowerLoss s) := ite_inForm h (update_inForm (setPins_inForm (setRail_inForm (powerOff_inForm h))))
theorem powerUp_inForm (h : inForm fam s) : inForm fam (powerUp s) := ite_inForm (setPins_inForm h) h
theorem auxPowerOn_inForm (h : inForm fam s) : inForm fam (auxPowerOn s) :=
  ite_inForm h (powerUp_inForm (moduleReset_inForm (setPins_inForm h)))

theorem mainPowerOn_inForm (h : inForm fam s) : inForm fam (mainPowerOn s) := by
  unfold mainPowerOn
  refine ite_inForm h ?_
  exact
    have h1 := setPins_inForm h
    ite_inForm h1 (ite_inForm (powerUp_inForm h1) (powerUp_inForm (moduleReset_inForm h1)))

theorem railStartFail_inForm (h : inForm fam s) : inForm fam (railStartFail s) := by
  unfold railStartFail
  dsimp only
  exact ite_inForm (setPins_inForm (railsOff_inForm (foldl_inForm (fun _ ht _ => setRail_inForm ht) (freeVal_inForm h))))
    h

theorem railOutOfRegulation_inForm {r} (h : inForm fam s) : inForm fam (railOutOfRegulation r s) := by
  unfold railOutOfRegulation
  dsimp only
  exact ite_inForm h (setPins_inForm (moduleReset_inForm (freeVal_inForm h)))

theorem resetPin_inForm {reason} (h : inForm fam s) : inForm fam (resetPin reason s) :=
  ite_inForm h (setPins_inForm (ite_inForm h (ite_inForm (setF_inForm h) (moduleReset_inForm h))))

theorem sysRstN_inForm {asserted} (h : inForm fam s) : inForm fam (sysRstN asserted s) :=
  ite_inForm (setPins_inForm h) (ite_inForm h (setPins_inForm (resetPin_inForm h)))

theorem perstN_inForm {asserted} (h : inForm fam s) : inForm fam (perstN asserted s) :=
  ite_inForm (setPins_inForm h) (ite_inForm h (setPins_inForm (resetPin_inForm h)))

theorem start_inForm (h : inForm fam s) : inForm fam (start s) := by
  unfold start
  exact
    have h1 := ite_inForm (setPins_inForm (railsOn_inForm h)) h
    ite_inForm (beginStart_inForm h1) h1

/-! ### Machine/Boot -/

theorem setSlotBytes_inForm {n b} (h : inForm fam s) : inForm fam (setSlotBytes s n b) := update_inForm h
theorem showSlots_inForm (h : inForm fam s) : inForm fam (showSlots s) := setBool_inForm (setBool_inForm h)
theorem loadFuses_inForm (h : inForm fam s) : inForm fam (loadFuses s) := by
  unfold loadFuses
  exact
    have h1 := foldl_inForm (fun _ ht _ => setF_inForm ht) (setF_inForm (setF_inForm (setF_inForm (setF_inForm
      (setF_inForm (setF_inForm (setF_inForm (setF_inForm (setF_inForm (setF_inForm h))))))))))
    ite_inForm (setF_inForm (setF_inForm (setF_inForm h1))) h1

theorem drawNonce_inForm (h : inForm fam s) : inForm fam (drawNonce s) := by
  unfold drawNonce
  dsimp only
  exact foldl_inForm (fun _ ht _ => setF_inForm (freeVal_inForm ht)) h

theorem lcFuses_inForm (h : inForm fam s) : inForm fam (lcFuses s) := by
  unfold lcFuses
  split
  · exact stampEvent_inForm (raise_inForm (lower_inForm (lower_inForm (setBoot_inForm (setFuses_inForm
    (burnStoreGen_inForm h))))))
  · exact h

theorem beginLinks_inForm (h : inForm fam s) : inForm fam (beginLinks s) := by
  unfold beginLinks
  dsimp only
  exact ite_inForm h (foldl_inForm (fun _ ht _ => ite_inForm ht (ite_inForm (setF_inForm ht) (beginTraining_inForm
    (setF_inForm (setBoot_inForm (ite_snd_inForm ht (freeVal_inForm ht))))))) h)

theorem wipeNear_inForm (h : inForm fam s) : inForm fam (wipeNear s) := by
  refine lower_inForm (setTiers_inForm h fun hm hfam => ?_)
  obtain ⟨hnear, hbulk, hdir, -⟩ := hm hfam
  exact ⟨List.foldlRecOn _ _ hnear (motive := fun m => Memory.wf m = true) fun _ hn p _ => Laws.memory_wf_set _ _ hn, hbulk, hdir, rfl⟩

theorem identifyController_inForm {c} (h : inForm fam s) : inForm fam (identifyController s c) :=
  emit_inForm (emit_inForm (emit_inForm h))

theorem attachController_inForm {c} (h : inForm fam s) : inForm fam (attachController s c) :=
  foldl_inForm (fun _ ht _ => emit_inForm (emit_inForm ht)) h

theorem adoptExclusions_inForm (h : inForm fam s) : inForm fam (adoptExclusions s) := by
  unfold adoptExclusions
  exact
    have h1 := setF_inForm (setF_inForm (setF_inForm (setBool_inForm (setF_inForm h))))
    ite_inForm h1 (raise_inForm h1)

theorem beginTicks_inForm {d} (h : inForm fam s) : inForm fam (beginTicks d s) := by
  unfold beginTicks
  exact
    have h1 := ite_inForm (setF_inForm (setF_inForm (ite_inForm (setF_inForm h) (setF_inForm (setF_inForm h)))))
      (setF_inForm (setF_inForm (setF_inForm (setF_inForm (setF_inForm h)))))
    setSpan_inForm (openEmpty_inForm (pulse_inForm (stampEvent_inForm (update_inForm (raise_inForm (setBoot_inForm
      (ite_inForm h1 (freshStamps_inForm (setF_inForm h1)))))))))

theorem stepReady_inForm {d} (h : inForm fam s) : inForm fam (stepReady d s) := by
  unfold stepReady
  exact
    have h1 := beginTicks_inForm (adoptExclusions_inForm (ite_inForm h (raise_inForm (showCap_inForm (bootCap_inForm
      (applyMode_inForm h))))))
    have h2 := ite_inForm (raise_inForm (raise_inForm h1)) h1
    have h3 := ite_inForm (setF_inForm (setFuses_inForm h2)) h2
    stampEvent_inForm (setBoot_inForm (setF_inForm (setF_inForm (raise_inForm (ite_inForm (raise_inForm h3) h3)))))

theorem endStep_inForm {k} (h : inForm fam s) : inForm fam (endStep s k) := by
  unfold endStep
  exact
    have h1 := setF_inForm (setF_inForm h)
    ite_inForm (enterSafe_inForm h1) (ite_inForm h1 (beginStep_inForm h1))

theorem showSlot_inForm {k} (h : inForm fam s) : inForm fam (showSlot s k) := by
  unfold showSlot
  refine ite_inForm ?_ h
  split
  · exact setF_inForm h
  · exact h

theorem ite_end_inForm {c : Prop} {d : Decidable c} {x y : StepEnd} (hx : inForm fam (endState x)) (hy : inForm fam (endState y)) :
    inForm fam (endState (if c then x else y)) := by split <;> assumption

theorem stepRom_inForm {d} (h : inForm fam s) : inForm fam (endState (stepRom d s)) := by
  unfold stepRom
  exact
    have h1 := setF_inForm (setF_inForm (raise_inForm h))
    have h2 := setBoot_inForm (drawNonce_inForm (loadFuses_inForm (lcFuses_inForm h1)))
    ite_end_inForm h1 (ite_inForm (raise_inForm h2) h2)

theorem stepImage_inForm (h : inForm fam s) : inForm fam (endState (stepImage s)) := by
  unfold stepImage
  dsimp only
  refine ite_end_inForm (raise_inForm (setF_inForm h)) ?_
  split
  · exact showSlots_inForm (raise_inForm (setF_inForm h))
  · exact
      have h1 := showSlots_inForm (raise_inForm (setF_inForm h))
      ite_end_inForm (setBoot_inForm (update_inForm h1)) h1

theorem stepFirmware_inForm (h : inForm fam s) : inForm fam (endState (stepFirmware s)) := by
  unfold stepFirmware
  dsimp only
  split
  · exact h
  · refine ite_end_inForm h (ite_end_inForm (setF_inForm h) ?_)
    dsimp only [endState]
    refine foldl_inForm (fun _ ht _ => ite_inForm (senseLine_inForm ht) ht) (setBool_inForm (setPins_inForm
      (foldl_inForm (fun _ ht _ => startCount_inForm (setF_inForm ht)) (setF_inForm (showCap_inForm (setPwr_inForm
      (setF_inForm (setF_inForm (setF_inForm (setF_inForm (setF_inForm (setBoot_inForm (applyMode_inForm
      (setF_inForm (setF_inForm ?_)))))))))))))))
    split
    · exact setF_inForm (foldl_inForm (fun _ ht _ => setF_inForm ht) (update_inForm (setF_inForm h)))
    · exact foldl_inForm (fun _ ht _ => setF_inForm ht) (update_inForm (setF_inForm h))

theorem stepNear_inForm {d} (h : inForm fam s) : inForm fam (endState (stepNear d s)) := by
  unfold stepNear
  exact ite_end_inForm (setF_inForm (setBoot_inForm h)) (ite_end_inForm (setBoot_inForm h)
    (setF_inForm (setBoot_inForm (setBoot_inForm h))))

theorem stepBulk_inForm {d} (h : inForm fam s) : inForm fam (endState (stepBulk d s)) := by
  unfold stepBulk
  exact ite_end_inForm (setBoot_inForm h) (beginLinks_inForm (setF_inForm (setF_inForm (setBoot_inForm (setBoot_inForm h)))))

theorem stepLink_inForm (h : inForm fam s) : inForm fam (endState (stepLink s)) := by
  unfold stepLink
  exact ite_end_inForm h (ite_end_inForm h (ite_end_inForm h (foldl_inForm (fun _ ht _ => setBoot_inForm (setF_inForm ht)) h)))

theorem stepSelftest_inForm {d} (h : inForm fam s) : inForm fam (endState (stepSelftest d s)) := by
  unfold stepSelftest
  exact ite_end_inForm h (setF_inForm (setBoot_inForm (foldl_inForm (fun _ ht _ => excludeColumn_inForm ht) h)))

theorem stepWipe_inForm {d} (h : inForm fam s) : inForm fam (endState (stepWipe d s)) := by
  unfold stepWipe
  exact ite_end_inForm (wipeNear_inForm h) (ite_end_inForm (lower_inForm h)
    (have h1 := setF_inForm (setF_inForm (setF_inForm (setBoot_inForm (wipeNear_inForm h))))
    ite_inForm (raise_inForm h1) h1))

theorem stepStore_inForm {d} (h : inForm fam s) : inForm fam (endState (stepStore d s)) := by
  unfold stepStore
  exact ite_end_inForm (setBoot_inForm h)
    (have h1 := setBool_inForm (setF_inForm (setPins_inForm (foldl_inForm (fun _ ht _ => identifyController_inForm ht) h)))
    have h2 := foldl_inForm (fun _ ht _ => attachController_inForm ht) (setCatalogue_inForm (setF_inForm
      (ite_inForm (setBool_inForm (setF_inForm (setF_inForm h1))) h1)))
    ite_end_inForm h2 (ite_end_inForm (foldl_inForm (fun _ ht _ => createEntry_inForm ht) (setCatalogue_inForm h2))
      (raise_inForm (setBoot_inForm (setCatalogue_inForm h2)))))

theorem stepEffect_inForm {k d} (h : inForm fam s) : inForm fam (endState (stepEffect k d s)) := by
  unfold stepEffect
  split
  · exact stepRom_inForm h
  · exact stepImage_inForm h
  · exact stepFirmware_inForm h
  · exact stepNear_inForm h
  · exact stepBulk_inForm h
  · exact stepLink_inForm h
  · exact stepSelftest_inForm h
  · exact stepWipe_inForm h
  · exact stepStore_inForm h
  · exact stepReady_inForm h

theorem bootStepComplete_inForm {d} (h : inForm fam s) : inForm fam (bootStepComplete d s) := by
  unfold bootStepComplete
  dsimp only
  refine ite_inForm h (ite_inForm (failStart_inForm (showSlot_inForm h)) (ite_inForm (failStart_inForm
    (showSlot_inForm h)) (ite_inForm (showSlot_inForm h) ?_)))
  have h1 : inForm fam (endState (stepEffect (getF s F.BOOT_STAT_STEP) d (showSlot s (getF s F.BOOT_STAT_STEP)))) :=
    stepEffect_inForm (showSlot_inForm h)
  split
  · next e =>
      rw [e] at h1
      exact endStep_inForm h1
  · next e =>
      rw [e] at h1
      exact failStart_inForm h1

theorem bootStepFail_inForm {cause} (h : inForm fam s) : inForm fam (bootStepFail cause s) :=
  ite_inForm h (ite_inForm (failStart_inForm h) (ite_inForm (bootStepComplete_inForm h) (failStart_inForm
    (showSlot_inForm h))))

theorem bootCtlRestart_inForm {r} (h : inForm fam s) : inForm fam (bootCtlRestart r s) :=
  ite_inForm (deny_inForm h) (ite_inForm (restart_inForm h) h)

theorem clearExcl_inForm {r} (h : inForm fam s) : inForm fam (clearExcl r s) :=
  ite_inForm (deny_inForm h) (ite_inForm (setBoot_inForm h) h)

theorem bootUpdStart_inForm {r} (h : inForm fam s) : inForm fam (bootUpdStart r s) :=
  ite_inForm h (ite_inForm (ite_inForm h (deny_inForm h)) (ite_inForm (raise_inForm (setF_inForm (deny_inForm h)))
    (ite_inForm (raise_inForm (setF_inForm h)) (setSlotBytes_inForm (setBoot_inForm (setF_inForm (setF_inForm
    (raise_inForm h))))))))

theorem imageUpdateDone_inForm {image norError} (h : inForm fam s) : inForm fam (imageUpdateDone image norError s) := by
  unfold imageUpdateDone
  split
  · exact h
  · refine showSlots_inForm (raise_inForm (setBoot_inForm (setF_inForm (setF_inForm (lower_inForm ?_)))))
    split
    · exact setSlotBytes_inForm h
    · exact h

/-! ### Machine/Power -/

theorem gatherEnergy_inForm {arr} (h : inForm fam s) : inForm fam (gatherEnergy s arr) := ite_inForm h (setPwr_inForm h)
theorem fastGuard_inForm (h : inForm fam s) : inForm fam (fastGuard s) :=
  ite_inForm h (planPoints_inForm (bump_inForm (raise_inForm (setPwr_inForm h))))

theorem estimatorUpdate_inForm {a} (h : inForm fam s) : inForm fam (estimatorUpdate a s) :=
  fastGuard_inForm (setPwr_inForm (gatherEnergy_inForm h))

theorem nextGain_inForm {m} (h : inForm fam s) : inForm fam (nextGain s m).2 := by
  unfold nextGain
  dsimp only
  exact ite_snd_inForm (freeVal_inForm h) h

theorem powerMeasurement_inForm {m amps} (h : inForm fam s) : inForm fam (powerMeasurement m amps s) := by
  unfold powerMeasurement
  dsimp only
  refine replanMoved_inForm (setPwr_inForm (ite_inForm (setF_inForm (setF_inForm h)) ?_))
  exact
    have h1 := setPwr_inForm (setF_inForm (nextGain_inForm (setF_inForm (setF_inForm h))))
    ite_inForm (stampEvent_inForm (raise_inForm h1)) h1

theorem capCommand_inForm {target slew} (h : inForm fam s) : inForm fam (capCommand target slew s) := by
  unfold capCommand
  exact
    have h1 := setF_inForm (setF_inForm (ite_inForm (countFall_inForm h) h))
    ite_inForm (capChanged_inForm (setPwr_inForm h1)) h1

theorem capSlewStep_inForm (h : inForm fam s) : inForm fam (capSlewStep s) :=
  ite_inForm h (capChanged_inForm (setPwr_inForm h))

theorem railReading_inForm {r mv da} (h : inForm fam s) : inForm fam (railReading r mv da s) :=
  ite_inForm h (setF_inForm (setF_inForm h))

theorem opRampStep_inForm {mv} (h : inForm fam s) : inForm fam (opRampStep mv s) := by
  unfold opRampStep
  refine ite_inForm h ?_
  exact
    have h1 := setPwr_inForm h
    ite_inForm (setOp_inForm h1) h1

theorem regulatorPhaseFault_inForm {n} (h : inForm fam s) : inForm fam (regulatorPhaseFault n s) :=
  ite_inForm h (capChanged_inForm (countFall_inForm (stampEvent_inForm (setPwr_inForm (raise_inForm (setBitF_inForm
    h))))))

theorem droop_inForm {v} (h : inForm fam s) : inForm fam (droop v s) := by
  unfold droop
  refine ite_inForm h ?_
  exact
    have h1 := bump_inForm (raise_inForm h)
    ite_inForm h1 (setPwr_inForm (bump_inForm (raise_inForm h1)))

theorem droopEnd_inForm {ac} (h : inForm fam s) : inForm fam (droopEnd ac s) := by
  unfold droopEnd
  refine ite_inForm h ?_
  refine
    have h1 := setPwr_inForm ?_
    ite_inForm (planPoints_inForm h1) h1
  split
  · exact setF_inForm (foldl_inForm (fun _ ht _ => lower_inForm ht) (addF_inForm h))
  · exact (foldl_inForm (fun _ ht _ => lower_inForm ht) (addF_inForm h))

theorem showHottest_inForm (h : inForm fam s) : inForm fam (showHottest s) := by
  unfold showHottest
  split
  refine ite_inForm h ?_
  exact
    have h1 := setF_inForm (setF_inForm h)
    ite_inForm (setPwr_inForm (setF_inForm (setF_inForm h1))) h1

theorem storeReading_inForm {r} (h : inForm fam s) : inForm fam (storeReading r s) := by
  unfold storeReading
  split
  · exact ite_inForm h (showHottest_inForm (setF_inForm (raise_inForm h)))
  · exact setF_inForm (setF_inForm h)
  · exact setF_inForm h
  · exact ite_inForm h (setF_inForm (raise_inForm h))
  · refine ite_inForm h ?_
    exact
      have h1 := setF_inForm (setPwr_inForm h)
      have h2 := ite_inForm (setF_inForm h1) h1
      ite_inForm (lower_inForm h2) (ite_inForm h2 (droop_inForm h2))
  · exact ite_inForm h (setF_inForm h)

theorem monitorUpdate_inForm {r} (h : inForm fam s) : inForm fam (monitorUpdate r s) := by
  unfold monitorUpdate
  exact
    have h1 := setPwr_inForm (storeReading_inForm h)
    ite_inForm (thermalTrip_inForm h1) h1

theorem throttleStep_inForm (h : inForm fam s) : inForm fam (throttleStep s) :=
  ite_inForm h (planPoints_inForm (setPwr_inForm (ite_inForm h (raise_inForm (bump_inForm (raise_inForm h))))))

theorem throttleReleaseStep_inForm (h : inForm fam s) : inForm fam (throttleReleaseStep s) := by
  unfold throttleReleaseStep
  split
  · exact h
  · refine ite_inForm h ?_
    exact
      have h1 := setPwr_inForm h
      planPoints_inForm (ite_inForm (lower_inForm h1) h1)

theorem telClear_inForm {droop min_ peak} (h : inForm fam s) : inForm fam (telClear droop min_ peak s) := by
  unfold telClear
  exact
    have h1 := ite_inForm (foldl_inForm (fun _ ht _ => setF_inForm ht) h) h
    have h2 := ite_inForm (foldl_inForm (fun _ ht _ => setF_inForm ht) h1) h1
    ite_inForm (setF_inForm (setF_inForm h2)) h2

theorem louvrePins_inForm {level} (h : inForm fam s) : inForm fam (louvrePins s level) := by
  unfold louvrePins
  exact
    have h1 := setPins_inForm h
    have h2 := ite_inForm (latchEdge_inForm h1) h1
    ite_inForm (latchEdge_inForm h2) h2

theorem louvreChange_inForm {level} (h : inForm fam s) : inForm fam (louvreChange level s) := by
  unfold louvreChange
  refine ite_inForm h ?_
  exact
    have h1 := bump_inForm (raise_inForm (setF_inForm (louvrePins_inForm h)))
    planPoints_inForm (showCap_inForm (ite_inForm (countFall_inForm h1) h1))

theorem freshDelivery_inForm (h : inForm fam s) : inForm fam (freshDelivery s) :=
  foldl_inForm (fun _ ht _ => setF_inForm (setF_inForm ht)) (setStacks_inForm (foldl_inForm (fun _ ht _ => setF_inForm ht) h)
    fun _ => ⟨rfl, rfl⟩)

/-- In Dormant the array's domain is off. -/
theorem blankArray_inForm {x} (h : inForm fam s) : inForm fam { s with frame := {}, cells := [], spdm := x } :=
  emptied_inForm h rfl ⟨rfl, rfl⟩ (.inl rfl) (.inl rfl) (.inl rfl) (.inl rfl) (.inl rfl)

theorem dormantRequest_inForm {r} (h : inForm fam s) : inForm fam (dormantRequest r s) := by
  unfold dormantRequest
  refine ite_inForm h ?_
  split
  · exact setF_inForm (ite_inForm (deny_inForm h) h)
  · exact stampEvent_inForm (setPwr_inForm (railsOff_inForm (blankArray_inForm (freshDelivery_inForm (freshTickets_inForm
    (answerWaiting_inForm (lower_inForm (setF_inForm (foldl_inForm (fun _ ht _ => setBitF_inForm (enterDown_inForm ht))
    (foldl_inForm (fun _ ht _ => abandonFetch_inForm ht) (setF_inForm h)))))))))))

theorem wakeUp_inForm (h : inForm fam s) : inForm fam (wakeUp s) := by
  unfold wakeUp
  refine ite_inForm h ?_
  have hrestored {m : MemSt} {l recs} (hm : memInForm fam m) :
      memInForm fam { m with bulk := [], dir := (List.foldl (fun m i => dirUpd m i (fun e => { e with bulk := false })) m l).dir, recs := recs } := by
    intro hfam
    obtain ⟨hnear, -, -, hearly⟩ := hm hfam
    obtain ⟨-, -, hdir, -⟩ := List.foldlRecOn l _ hm (motive := memInForm fam) (fun _ hn i _ => dirUpd_inForm hn) hfam
    exact ⟨hnear, rfl, hdir, hearly⟩
  exact
    have h1 := raise_inForm (raise_inForm (freshStamps_inForm (setF_inForm (setF_inForm (setF_inForm (setF_inForm
      (foldl_inForm (fun _ ht _ => ite_inForm (startCount_inForm (setBitF_inForm ht)) ht) (foldl_inForm (fun _ ht _ =>
      ite_inForm ht (beginTraining_inForm ht)) (setTiers_inForm (railsOn_inForm (setPwr_inForm h)) hrestored)))))))))
    openEmpty_inForm (pulse_inForm (stampEvent_inForm (stampEvent_inForm (update_inForm (ite_inForm (raise_inForm
      (setBoot_inForm h1)) h1)))))

/-! ### Machine/Stewards -/

theorem reclaimTickets_inForm {n} (h : inForm fam s) : inForm fam (reclaimTickets s n) := by
  unfold reclaimTickets
  exact
    have h1 := setStw_inForm h
    showHolds_inForm (ite_inForm h1 (addF_inForm (raise_inForm h1)))

theorem resetSteward_inForm {n} (h : inForm fam s) : inForm fam (resetSteward s n) := by
  unfold resetSteward
  exact
    have h1 := bump_inForm (bump_inForm (raise_inForm (reclaimTickets_inForm (setF_inForm (setBitF_inForm h)))))
    have h2 := stampEvent_inForm (setStw_inForm (foldl_inForm (fun _ ht _ => setLink_inForm ht) (ite_inForm
      (answerWaiting_inForm h1) h1)))
    have h3 := ite_inForm (raise_inForm (setF_inForm h2)) h2
    ite_inForm (watchdogReset_inForm h3) h3

theorem watchdogExpiry_inForm {n restartAt} (h : inForm fam s) : inForm fam (watchdogExpiry n restartAt s) :=
  ite_inForm h (ite_inForm (resetSteward_inForm h) (raise_inForm (setStw_inForm (startCount_inForm h))))

theorem stewardRestart_inForm {n} (h : inForm fam s) : inForm fam (stewardRestart n s) :=
  ite_inForm h (startCount_inForm (setBitF_inForm (setF_inForm h)))

/-! ### Machine/Eject -/

theorem pinEdge_inForm {was asserted p} (hs : inForm fam s) (ht : inForm fam t) :
    inForm fam (pinEdge s t was asserted p) :=
  ite_inForm hs (ite_inForm (latchEdge_inForm ht) ht)

theorem pinLatchEdge_inForm {z} (h : inForm fam s) : inForm fam (pinLatchEdge z s) := by
  unfold pinLatchEdge
  dsimp only
  refine ite_inForm h ?_
  split
  · exact ite_inForm h (setPins_inForm h)
  · exact ite_inForm (setPins_inForm h) (wakeUp_inForm (latchEdge_inForm (setPins_inForm h)))
  · exact ite_inForm (wakeUp_inForm (latchEdge_inForm h)) h
  · exact pinEdge_inForm h (setPins_inForm h)
  · exact pinEdge_inForm h (setPins_inForm h)

theorem wakeAlarm_inForm (h : inForm fam s) :
    inForm fam (wakeAlarm s) := ite_inForm h (wakeUp_inForm (pulse_inForm h))
theorem supplyLow_inForm (h : inForm fam s) : inForm fam (supplyLow s) := ite_inForm (pulse_inForm h) h
theorem sendLeave_inForm {y finishes} (h : inForm fam s) : inForm fam (sendLeave s y finishes) :=
  ite_inForm h (ite_inForm (leave_inForm h) (toMaster_inForm h))

theorem ejectWarning_inForm (h : inForm fam s) : inForm fam (ejectWarning s) := by
  unfold ejectWarning
  refine ite_inForm h (ite_inForm (raise_inForm (setBoot_inForm (latchEdge_inForm (setPins_inForm h)))) (ite_inForm
    (latchEdge_inForm (setPins_inForm h)) ?_))
  exact
    have h1 := raise_inForm (update_inForm (latchEdge_inForm (setPins_inForm h)))
    sendLeave_inForm (stampEvent_inForm (ite_inForm h1 (markFaulted_inForm (setSpan_inForm h1))))

theorem ejectFinish_inForm (h : inForm fam s) : inForm fam (ejectFinish s) := by
  unfold ejectFinish
  refine ite_inForm h ?_
  exact
    have h1 := completeAll_inForm (failEvery_inForm (setReqs_inForm h))
    raise_inForm (update_inForm (ite_inForm (raise_inForm h1) h1))

/-! ### Machine/RegView -/

theorem dropHi_inForm {off} (h : inForm fam s) : inForm fam (dropHi s off) := update_inForm h
theorem latchHi_inForm {hi} (h : inForm fam s) : inForm fam (latchHi s hi) := update_inForm h
theorem readWord_inForm {r off} (h : inForm fam s) : inForm fam (readWord s r off).2 := by
  unfold readWord
  refine ite_snd_inForm h (ite_snd_inForm (claimRead_inForm h) ?_)
  split
  · exact ite_snd_inForm (ticketGrant_inForm h) h
  · split
    · exact dropHi_inForm h
    · split
      · exact latchHi_inForm h
      · exact h

theorem readBytes_inForm {r off size} (h : inForm fam s) : inForm fam (readBytes s r off size).2 := by
  unfold readBytes
  dsimp only
  exact ite_snd_inForm (readWord_inForm h) (readWord_inForm (readWord_inForm h))

theorem loRegisterRead_inForm {r off size} (h : inForm fam s) : inForm fam (loRegisterRead r off size s) := by
  unfold loRegisterRead
  dsimp only
  exact ite_inForm h (emit_inForm (readBytes_inForm h))

/-! ### Machine/RegWrite -/

theorem denyOther_inForm {r} (h : inForm fam s) : inForm fam (denyOther s r) := by
  unfold denyOther
  dsimp only
  exact deny_inForm (freeVal_inForm h)

theorem writeField_inForm {v d f} (h : inForm fam s) : inForm fam (writeField v d s f) := by
  unfold writeField
  split
  · exact h
  · exact h
  · exact ite_inForm (fieldSet_inForm h) h
  · exact ite_inForm (fieldSet_inForm h) h
  · exact ite_inForm h (fieldSet_inForm h)
  · exact ite_inForm h (fieldSet_inForm h)

theorem writeFields_inForm {off v} (h : inForm fam s) : inForm fam (writeFields s off v) := by
  unfold writeFields
  split
  · exact h
  · refine ite_inForm h ?_
    exact
      have h1 := foldl_inForm (fun _ ht _ => writeField_inForm ht) h
      ite_inForm (setF_inForm (setF_inForm h1)) h1

theorem powerSettings_inForm {off v} (h : inForm fam s) : inForm fam (powerSettings off v s) :=
  planPoints_inForm (showCap_inForm (bootCap_inForm (writeFields_inForm h)))

theorem writeWgtCmd_inForm {r v} (h : inForm fam s) : inForm fam (writeWgtCmd r v s) := by
  unfold writeWgtCmd
  split
  · exact ite_inForm (deny_inForm h) (setResult_inForm (startWgt_inForm (deny_inForm h)))
  · exact ite_inForm (denyOther_inForm h) (setResult_inForm (startWgt_inForm (denyOther_inForm h)))
  · exact ite_inForm h (startWgt_inForm h)

theorem writeJournal_inForm {off v} (h : inForm fam s) : inForm fam (writeJournal off v s) := by
  unfold writeJournal
  refine ite_inForm (retireWrite_inForm h) (ite_inForm (retireWrite_inForm h) (ite_inForm (ite_inForm
    (writeFields_inForm h) h) (ite_inForm h ?_)))
  split
  · exact update_inForm (writeFields_inForm h)
  · exact update_inForm (writeFields_inForm h)
  · exact update_inForm (writeFields_inForm h)
  · exact update_inForm (writeFields_inForm h)
  · exact writeFields_inForm h

theorem writeRing_inForm {k o v off} (h : inForm fam s) : inForm fam (writeRing k o v off s) := by
  unfold writeRing
  split
  · exact ite_inForm (ringEnable_inForm h) (ringDisable_inForm h)
  · exact subDoorbell_inForm h
  · exact rcptHeadWrite_inForm h
  · exact cmplHeadWrite_inForm h
  · exact ite_inForm h (writeFields_inForm h)

theorem writePort_inForm {p o v off} (h : inForm fam s) : inForm fam (writePort p o v off s) := by
  unfold writePort
  split
  · exact
      have h1 := setF_inForm h
      have h2 := ite_inForm (linkTestEnter_inForm h1) (ite_inForm (linkTestLeave_inForm h1) h1)
      have h3 := ite_inForm (linkRetrainCmd_inForm h2) h2
      ite_inForm (lossBase_inForm h3) h3
  · exact linkCountClear_inForm h
  · exact foldl_inForm (fun _ ht _ => setF_inForm ht) h
  · exact foldl_inForm (fun _ ht _ => showLoss_inForm ht) (writeFields_inForm h)
  · exact
      have h4 := writeFields_inForm h
      ite_inForm (eyeScanStart_inForm h4) h4

theorem writeIrq_inForm {r o v off} (h : inForm fam s) : inForm fam (writeIrq r o v off s) :=
  ite_inForm (irqPendSet_inForm h) (ite_inForm (irqPendClr_inForm h) (ite_inForm (irqEnable_inForm h) (ite_inForm
    (irqEnable_inForm h) (ite_inForm (completeSource_inForm h) (ite_inForm (hostEoi_inForm h) (ite_inForm
    (foldl_inForm (fun _ ht _ => ite_inForm ht (senseLine_inForm ht)) (writeFields_inForm h)) (ite_inForm (ite_inForm
    (levelPends_inForm (writeFields_inForm h)) h) (ite_inForm (msixMaskWrite_inForm h) (writeFields_inForm h)))))))))

theorem writeStw_inForm {r off v} (h : inForm fam s) : inForm fam (writeStw r off v s) := by
  unfold writeStw
  split
  · exact tileCommit_inForm h
  · exact h
  · exact batchOpen_inForm h
  · exact h
  · exact writeFields_inForm h

theorem writeReg_inForm {r off v} (h : inForm fam s) : inForm fam (writeReg r off v s) := by
  unfold writeReg
  refine ite_inForm (writePort_inForm h) (ite_inForm (writeJournal_inForm h) (ite_inForm (writeRing_inForm h)
    (ite_inForm (writeStw_inForm h) (ite_inForm (writeIrq_inForm h) (ite_inForm (powerSettings_inForm h) ?_)))))
  split
  · exact ite_inForm (tickCapture_inForm h) h
  · exact modeRequest_inForm h
  · exact writeWgtCmd_inForm h
  · exact ite_inForm (recover_inForm h) h
  · exact ite_inForm (dormantRequest_inForm h) h
  · exact
      have h1 := ite_inForm (clearExcl_inForm h) h
      ite_inForm (bootCtlRestart_inForm h1) h1
  · exact ite_inForm (bootUpdStart_inForm h) h
  · exact telClear_inForm h
  · exact writeFields_inForm h

theorem regWrite_inForm {r off size v} (h : inForm fam s) : inForm fam (regWrite r off size v s) := by
  unfold regWrite
  dsimp only
  refine ite_inForm h ?_
  cases hiOf off with
  | none =>
    dsimp only
    split
    · exact writeReg_inForm (dropHi_inForm h)
    · exact ite_inForm (writeReg_inForm (dropHi_inForm h)) (deny_inForm (dropHi_inForm h))
    · exact ite_inForm (writeReg_inForm (dropHi_inForm h)) (denyOther_inForm (dropHi_inForm h))
  | some hi =>
    dsimp only
    split
    · exact writeReg_inForm (dropHi_inForm (dropHi_inForm h))
    · exact ite_inForm (writeReg_inForm (dropHi_inForm (dropHi_inForm h))) (deny_inForm (dropHi_inForm (dropHi_inForm
      h)))
    · exact ite_inForm (writeReg_inForm (dropHi_inForm (dropHi_inForm h)))
        (denyOther_inForm (dropHi_inForm (dropHi_inForm h)))

theorem loadMet_inForm {full} (h : inForm fam s) : inForm fam (loadMet full s) :=
  foldl_inForm (fun _ ht _ => ite_inForm (setFields_inForm ht) ht) h

theorem keepHalt_inForm {off met old} (h : inForm fam s) :
    inForm fam (keepHalt off met old s) := ite_inForm (raise_inForm h) h
theorem registerWrite_inForm {r off size v met} (h : inForm fam s) : inForm fam (registerWrite r off size v met s) := by
  unfold registerWrite
  exact
    have h1 := regWrite_inForm h
    ite_inForm (keepHalt_inForm h1) (loadMet_inForm h1)

/-! ### Machine/Board -/

theorem logAddrError_inForm {z addr src write} (h : inForm fam s) : inForm fam (logAddrError s z addr src write) :=
  bump_inForm (raise_inForm (capture_inForm h))

theorem sramByteStore_inForm {o v} (h : inForm fam s) : inForm fam (sramByteStore s o v) := setCell_inForm h
theorem boardByteStore_inForm {region o v} (h : inForm fam s) : inForm fam (boardByteStore region s o v) :=
  ite_inForm (sramByteStore_inForm h) (ite_inForm
    (setTiers_inForm h fun hm hfam =>
      have ⟨hnear, hbulk, hdir, hearly⟩ := hm hfam
      ⟨hnear, hbulk, hdir, Laws.smapWf_set o _ hearly⟩)
    (setTiers_inForm h fun hm hfam =>
      have ⟨hnear, hrest⟩ := hm hfam
      ⟨Laws.memory_wf_set o _ hnear, hrest⟩))

theorem boardReadWord_inForm {r region o} (h : inForm fam s) : inForm fam (boardReadWord r region s o).2 :=
  ite_snd_inForm (readBytes_inForm h) h

theorem boardWriteWord_inForm {r region o v} (h : inForm fam s) : inForm fam (boardWriteWord r region s o v) :=
  ite_inForm (regWrite_inForm h) (foldl_inForm (fun _ ht _ => boardByteStore_inForm ht) h)

theorem boardServe_inForm {r region o op} (h : inForm fam s) : inForm fam (boardServe r region o op s).2 := by
  unfold boardServe
  split
  · exact foldl_snd_inForm (fun _ hx _ => boardReadWord_inForm hx) h
  · exact ite_snd_inForm h (foldl_inForm (fun _ ht _ => boardWriteWord_inForm ht) h)

theorem serveBoard_inForm {r src addr op} (h : inForm fam s) : inForm fam (serveBoard r src addr op s).2 := by
  unfold serveBoard
  dsimp only
  split
  · refine logAddrError_inForm ?_
    split
    · refine ite_inForm ?_ h
      split
      · exact regWrite_inForm h
      · exact h
    · exact h
  · exact boardServe_inForm h

theorem sendRequest_inForm {r addr op} (h : inForm fam s) : inForm fam (sendRequest r addr op s) := by
  unfold sendRequest
  dsimp only
  refine ite_inForm (bump_inForm (emit_inForm h)) ?_
  split
  · exact h
  · exact setLink_inForm h

theorem boardAccess_inForm {r src addr op} (h : inForm fam s) : inForm fam (boardAccess r src addr op s) := by
  unfold boardAccess
  dsimp only
  refine ite_inForm h (ite_inForm ?_ ?_)
  · split
    · exact emit_inForm (serveBoard_inForm h)
    · exact serveBoard_inForm h
  · split
    · exact sendRequest_inForm h
    · exact h

theorem boardRequestTimeout_inForm {p} (h : inForm fam s) : inForm fam (boardRequestTimeout p s) := failBoardReqs_inForm h

/-! ### Machine/LinkRx -/

theorem countWord_inForm {p l n} (h : inForm fam s) : inForm fam (countWord p l s n) := by
  unfold countWord
  exact
    have h1 := bump_inForm h
    ite_inForm h1 (ite_inForm (bump_inForm h1) (setF_inForm (addF_inForm (bump_inForm h1))))

theorem stageFlit_inForm {ref f} (h : inForm fam s) : inForm fam (stageFlit s ref f) :=
  ite_inForm h (ite_inForm h (setSpan_inForm h))

theorem routeDiscard_inForm {p} (h : inForm fam s) : inForm fam (routeDiscard s p) := raise_inForm (bump_inForm h)
theorem takeData_inForm {p f} (h : inForm fam s) : inForm fam (takeData p f s) := by
  unfold takeData
  refine ite_inForm (routeDiscard_inForm h) ?_
  split
  · exact routeDiscard_inForm h
  · refine foldl_inForm (fun _ ht _ => setLink_inForm ht) ?_
    split
    · exact stageFlit_inForm h
    · exact h

theorem deliverCtrl_inForm {m} (h : inForm fam s) : inForm fam (deliverCtrl s m) := setSpan_inForm (bump_inForm h)
theorem takeCtrl_inForm {p f} (h : inForm fam s) : inForm fam (takeCtrl p f s) := by
  unfold takeCtrl
  refine ite_inForm (bump_inForm h) (ite_inForm h (ite_inForm (ite_inForm (deliverCtrl_inForm h) (forwardUp_inForm h))
    ?_))
  exact
    have h1 := forwardDown_inForm h
    ite_inForm (deliverCtrl_inForm h1) h1

theorem takeResponse_inForm {p tag error words} (h : inForm fam s) : inForm fam (takeResponse p tag error words s) := by
  unfold takeResponse
  dsimp only
  split
  · exact h
  · exact emit_inForm (setLink_inForm h)

theorem takeBoard_inForm {p f} (h : inForm fam s) : inForm fam (takeBoard p f s) := by
  unfold takeBoard
  dsimp only
  exact ite_inForm (routeDiscard_inForm h) (ite_inForm (routeDiscard_inForm h) (ite_inForm (ite_inForm h
    (setLink_inForm (serveBoard_inForm h))) (takeResponse_inForm h)))

theorem takeConfirm_inForm {p m} (h : inForm fam s) : inForm fam (takeConfirm s p m) := by
  unfold takeConfirm
  dsimp only
  exact countWidth_inForm (setLink_inForm (setRxMap_inForm (abortScans_inForm h)))

theorem takeWidth_inForm {p f} (h : inForm fam s) : inForm fam (takeWidth p f s) := by
  unfold takeWidth
  split
  · exact ite_inForm (beginWidth_inForm (takeAck_inForm h)) h
  · exact ite_inForm (takeConfirm_inForm h) h
  · exact ite_inForm (setLink_inForm (abortScans_inForm h)) h
  · exact h

theorem takeTrain_inForm {p f} (h : inForm fam s) : inForm fam (takeTrain p f s) :=
  ite_inForm h (ite_inForm (ite_inForm h (leaveUp_inForm h)) (notePeer_inForm h))

theorem deliverFlit_inForm {p f} (h : inForm fam s) : inForm fam (deliverFlit p f s) := by
  unfold deliverFlit
  split
  · exact takeCtrl_inForm (bump_inForm (setLink_inForm h))
  · exact takeBoard_inForm (bump_inForm (setLink_inForm h))
  · exact takeData_inForm (bump_inForm (setLink_inForm h))

theorem callReplay_inForm {p} (h : inForm fam s) : inForm fam (callReplay s p) := ite_inForm h (setLink_inForm h)
theorem badFlit_inForm {p} (h : inForm fam s) : inForm fam (badFlit s p) := callReplay_inForm (bump_inForm h)
theorem takeGood_inForm {p f} (h : inForm fam s) : inForm fam (takeGood p f s) :=
  ite_inForm (ite_inForm (takeWidth_inForm h) (ite_inForm (takeTrain_inForm h) h)) (ite_inForm (deliverFlit_inForm h)
    (ite_inForm h (ite_inForm (bump_inForm h) (callReplay_inForm h))))

theorem takeSlot_inForm {p bytes bad} (h : inForm fam s) : inForm fam (takeSlot p bytes bad s) := by
  unfold takeSlot
  split
  · exact badFlit_inForm h
  · refine ite_inForm (badFlit_inForm h) ?_
    exact
      have h1 := takeAck_inForm (setLink_inForm h)
      have h2 := ite_inForm (takeNak_inForm h1) h1
      ite_inForm (takeGood_inForm h2) h2

theorem beginPair_inForm {p x} (h : inForm fam s) : inForm fam (beginPair s p x) := by
  unfold beginPair
  exact
    have h1 := setLink_inForm (foldl_inForm (fun _ ht _ => countWord_inForm ht) h)
    ite_inForm h1 (ite_inForm (dropRxLane_inForm h1) (ite_inForm (dropRxLane_inForm h1) h1))

theorem drainRx_inForm {p a} (h : inForm fam s) : inForm fam (drainRx p a s) := by
  induction a generalizing s with
  | zero => exact h
  | succ n ih =>
    unfold drainRx
    split
    · dsimp only
      split
      · exact setLink_inForm h
      · exact ih (takeSlot_inForm (setLink_inForm h))
    · exact h

theorem queueRx_inForm {p x} (h : inForm fam s) : inForm fam (queueRx s p x) := ite_inForm h (setLink_inForm h)
theorem takeTraining_inForm {p x} (h : inForm fam s) : inForm fam (takeTraining p x s) := by
  unfold takeTraining
  split
  · exact ite_inForm h (takeTrain_inForm (ite_inForm (takeAck_inForm h) h))
  · exact bump_inForm h

theorem flitReceive_inForm {p x} (h : inForm fam s) : inForm fam (flitReceive p x s) := by
  unfold flitReceive
  refine ite_inForm h ?_
  exact
    have h1 := ite_inForm (beginPair_inForm h) h
    ite_inForm (drainRx_inForm (queueRx_inForm h1)) (ite_inForm (takeTraining_inForm h1) h1)

/-! ### Machine/Mailbox -/

theorem mailbox_inForm {safe len q serve after} (hserve : ∀ r t, inForm fam t → inForm fam (serve r t).2)
    (hafter : ∀ t, inForm fam t → inForm fam (after t)) (h : inForm fam s) :
    inForm fam (mailbox safe len q serve after s) := by
  unfold mailbox
  dsimp only
  split
  · exact h
  · split
    · exact respond_inForm h
    · exact
        have h1 := respond_inForm (hserve _ _ h)
        ite_inForm (hafter _ h1) h1

theorem underAction_inForm {a r f} (hf : inForm fam (f s).2) (h : inForm fam s) : inForm fam (underAction a r f s).2 :=
  ite_snd_inForm hf (deny_inForm h)

theorem readWords_inForm {r off a} (h : inForm fam s) : inForm fam (readWords r off a s).2 := by
  induction a generalizing s off with
  | zero => exact h
  | succ n ih =>
    unfold readWords
    dsimp only
    exact ih (readWord_inForm h)

theorem serveRegRead_inForm {q r} (h : inForm fam s) : inForm fam (serveRegRead q r s).2 := by
  unfold serveRegRead
  dsimp only
  exact ite_snd_inForm h (ite_snd_inForm h (ite_snd_inForm (underAction_inForm (readWords_inForm h) h)
    (ite_snd_inForm (denyOther_inForm h) (readWords_inForm h))))

theorem serveRegWrite_inForm {q r} (h : inForm fam s) : inForm fam (serveRegWrite q r s).2 :=
  ite_snd_inForm h (regWrite_inForm h)

theorem serveCap_inForm {q r} (h : inForm fam s) : inForm fam (serveCap q r s).2 := by
  exact underAction_inForm (ite_snd_inForm h (capCommand_inForm h)) h

theorem serveRetireCol_inForm {q r} (h : inForm fam s) : inForm fam (serveRetireCol q r s).2 := by
  exact underAction_inForm (ite_snd_inForm h (needRetire_inForm h)) h

theorem serveTallyRead_inForm {q r} (h : inForm fam s) : inForm fam (serveTallyRead q r s).2 := by
  unfold serveTallyRead
  refine underAction_inForm ?_ h
  dsimp only
  split
  · exact ite_snd_inForm h h
  · exact h

theorem clearByte_inForm {o run owner i} (h : memInForm fam m) : memInForm fam (clearByte o run m owner i) := by
  have hwrite {m : MemSt} {addr : Nat → Nat} {o b} (hm : memInForm fam m) : memInForm fam { m with near := writeBytes addr m.near o b } := fun hfam =>
    have ⟨hnear, hrest⟩ := hm hfam
    ⟨Laws.memory_wf_writeBytes addr b _ o hnear, hrest⟩
  unfold clearByte
  split
  · exact h
  · extract_lets a half cleared
    have hcleared : memInForm fam cleared := hwrite h
    split
    · exact hwrite hcleared
    · exact hcleared

theorem clearCount_inForm {run o owner} (h : memInForm fam m) : memInForm fam (clearCount run o m owner) :=
  List.foldlRecOn _ _ h fun _ hm _ _ => clearByte_inForm hm

theorem serveTallyClear_inForm {q r} (h : inForm fam s) : inForm fam (serveTallyClear q r s).2 := by
  exact underAction_inForm (ite_snd_inForm h (stampEvent_inForm (setTiers_inForm h fun hm =>
    List.foldlRecOn _ _ hm fun _ hn o _ => clearCount_inForm hn))) h

theorem serveLcRequest_inForm {q r} (h : inForm fam s) : inForm fam (serveLcRequest q r s).2 := by
  unfold serveLcRequest
  dsimp only
  refine ite_snd_inForm h ?_
  split
  · exact
      have h1 := stampEvent_inForm (setF_inForm (raise_inForm (drawNonce_inForm h)))
      ite_snd_inForm (denyOther_inForm h1) h1
  · exact setBoot_inForm (setF_inForm (setF_inForm (raise_inForm (drawNonce_inForm h))))

theorem serveDebugToken_inForm {q r} (h : inForm fam s) : inForm fam (serveDebugToken q r s).2 := by
  unfold serveDebugToken
  dsimp only
  refine ite_snd_inForm h (ite_snd_inForm (denyOther_inForm h) ?_)
  split
  · exact drawNonce_inForm h
  · exact setBoot_inForm (drawNonce_inForm h)

theorem serveRestart_inForm {r} (h : inForm fam s) : inForm fam (serveRestart r s).2 := by
  exact underAction_inForm (ite_snd_inForm h h) h

theorem serveImageUpdate_inForm {q r} (h : inForm fam s) : inForm fam (serveImageUpdate q r s).2 :=
  ite_snd_inForm (bootUpdStart_inForm h) (ite_snd_inForm h (ite_snd_inForm h (bootUpdStart_inForm (setF_inForm
    (setF_inForm h)))))

theorem serveWake_inForm {q} (h : inForm fam s) : inForm fam (serveWake q s) := by
  unfold serveWake
  refine ite_inForm ?_ (mailbox_inForm (fun _ u ht => show inForm fam (pinLatchEdge (.i3cWake, true) u) from pinLatchEdge_inForm ht)
    (fun _ ht => ht) h)
  split
  · exact respond_inForm h
  · exact pinLatchEdge_inForm (respond_inForm h)

theorem serveOne_inForm {q} (h : inForm fam s) : inForm fam (serveOne q s) := by
  unfold serveOne
  refine ite_inForm h ?_
  split
  · exact mailbox_inForm (fun _ _ ht => serveRegRead_inForm ht) (fun _ ht => ht) h
  · exact mailbox_inForm (fun _ _ ht => serveRegWrite_inForm ht) (fun _ ht => ht) h
  · exact mailbox_inForm (fun _ _ ht => serveCap_inForm ht) (fun _ ht => ht) h
  · exact mailbox_inForm (fun _ _ ht => serveRetireCol_inForm ht) (fun _ ht => ht) h
  · exact mailbox_inForm (fun _ _ ht => serveTallyRead_inForm ht) (fun _ ht => ht) h
  · exact mailbox_inForm (fun _ _ ht => serveTallyClear_inForm ht) (fun _ ht => ht) h
  · exact mailbox_inForm (fun _ _ ht => serveLcRequest_inForm ht) (fun _ ht => warmReset_inForm ht) h
  · exact mailbox_inForm (fun _ _ ht => serveDebugToken_inForm ht) (fun _ ht => warmReset_inForm ht) h
  · exact mailbox_inForm (fun _ _ ht => serveRestart_inForm ht) (fun _ ht => restart_inForm ht) h
  · exact mailbox_inForm (fun _ _ ht => serveImageUpdate_inForm ht) (fun _ ht => ht) h
  · exact serveWake_inForm h
  · exact mailbox_inForm (fun _ _ ht => ht) (fun _ ht => ht) h

theorem serveNext_inForm (h : inForm fam s) : inForm fam (serveNext s) := by
  unfold serveNext
  split
  · exact h
  · exact serveOne_inForm (setStw_inForm h)

theorem serveWaiting_inForm {a} (h : inForm fam s) : inForm fam (serveWaiting a s) := by
  induction a generalizing s with
  | zero => exact h
  | succ n ih => exact ih (serveNext_inForm h)

theorem mboxArrive_inForm {q} (h : inForm fam s) : inForm fam (mboxArrive q s) := by
  unfold mboxArrive
  refine ite_inForm h (ite_inForm (serveOne_inForm h) (ite_inForm ?_ (ite_inForm (setStw_inForm (raise_inForm h))
    (serveOne_inForm (serveWaiting_inForm (raise_inForm h))))))
  split
  · exact respond_inForm (raise_inForm h)
  · exact raise_inForm h

theorem mboxRow_inForm {code q} (h : inForm fam s) : inForm fam (mboxRow code q s) := ite_inForm h (mboxArrive_inForm h)
theorem regRead_inForm {q} (h : inForm fam s) : inForm fam (regRead q s) := mboxRow_inForm h
theorem regWriteMbox_inForm {q} (h : inForm fam s) : inForm fam (regWriteMbox q s) := mboxRow_inForm h
theorem cap_inForm {q} (h : inForm fam s) : inForm fam (cap q s) := mboxRow_inForm h
theorem retireCol_inForm {q} (h : inForm fam s) : inForm fam (retireCol q s) := mboxRow_inForm h
theorem tallyRead_inForm {q} (h : inForm fam s) : inForm fam (tallyRead q s) := mboxRow_inForm h
theorem tallyClear_inForm {q} (h : inForm fam s) : inForm fam (tallyClear q s) := mboxRow_inForm h
theorem lcRequest_inForm {q} (h : inForm fam s) : inForm fam (lcRequest q s) := mboxRow_inForm h
theorem debugToken_inForm {q} (h : inForm fam s) : inForm fam (debugToken q s) := mboxRow_inForm h
theorem restartMbox_inForm {q} (h : inForm fam s) : inForm fam (restartMbox q s) := mboxRow_inForm h
theorem imageUpdate_inForm {q} (h : inForm fam s) : inForm fam (imageUpdate q s) := mboxRow_inForm h
theorem wake_inForm {q} (h : inForm fam s) : inForm fam (wake q s) := mboxRow_inForm h

/-! ### Machine/Spdm -/

theorem setSpdm_inForm {x} (h : inForm fam s) : inForm fam (setSpdm s x) := update_inForm h
theorem setEndpointId_inForm {op eid} (h : inForm fam s) : inForm fam (setEndpointId op eid s) :=
  ite_inForm h (ite_inForm (emit_inForm (setSpdm_inForm h)) (emit_inForm h))

theorem getEndpointId_inForm (h : inForm fam s) : inForm fam (getEndpointId s) := ite_inForm h (emit_inForm h)
theorem getMctpVersionSupport_inForm {type} (h : inForm fam s) : inForm fam (getMctpVersionSupport type s) := by
  unfold getMctpVersionSupport
  dsimp only
  exact ite_inForm h (ite_inForm (emit_inForm h) (ite_inForm (emit_inForm (freeVal_inForm h)) (emit_inForm h)))

theorem getMessageTypeSupport_inForm (h : inForm fam s) :
    inForm fam (getMessageTypeSupport s) := ite_inForm h (emit_inForm h)
theorem spdmError_inForm {q code} (h : inForm fam s) : inForm fam (spdmError q code s) := emit_inForm h
theorem freeBytes_inForm {a} (h : inForm fam s) : inForm fam (freeBytes a s).2 := by
  induction a generalizing s with
  | zero => exact h
  | succ n ih =>
    unfold freeBytes
    dsimp only
    exact ih (freeVal_inForm h)

theorem getVersion_inForm {q} (h : inForm fam s) : inForm fam (getVersion q s) :=
  ite_inForm h (emit_inForm (setSpdm_inForm h))

theorem getCapabilities_inForm {q} (h : inForm fam s) : inForm fam (getCapabilities q s) :=
  ite_inForm h (ite_inForm (spdmError_inForm h) (emit_inForm (setSpdm_inForm h)))

theorem negotiateAlgorithms_inForm {q} (h : inForm fam s) : inForm fam (negotiateAlgorithms q s) :=
  ite_inForm h (ite_inForm (spdmError_inForm h) (emit_inForm (setSpdm_inForm h)))

theorem getDigests_inForm {q} (h : inForm fam s) : inForm fam (getDigests q s) :=
  ite_inForm h (ite_inForm (spdmError_inForm h) (emit_inForm h))

theorem getCertificate_inForm {q off len} (h : inForm fam s) : inForm fam (getCertificate q off len s) :=
  ite_inForm h (ite_inForm (spdmError_inForm h) (ite_inForm (spdmError_inForm h) (emit_inForm h)))

theorem challenge_inForm {q} (h : inForm fam s) : inForm fam (challenge q s) := by
  unfold challenge
  dsimp only
  exact ite_inForm h (ite_inForm (spdmError_inForm h) (ite_inForm (spdmError_inForm h) (emit_inForm (freeBytes_inForm
    h))))

theorem getMeasurements_inForm {q} (h : inForm fam s) : inForm fam (getMeasurements q s) := by
  unfold getMeasurements
  dsimp only
  exact ite_inForm h (ite_inForm (spdmError_inForm h) (ite_inForm (spdmError_inForm h) (emit_inForm (ite_snd_inForm
    (freeBytes_inForm h) h))))

theorem setSessions_inForm {l} (h : inForm fam s) : inForm fam (setSessions s l) :=
  setF_inForm (setBool_inForm (setSpdm_inForm h))

theorem keyExchange_inForm {q} (h : inForm fam s) : inForm fam (keyExchange q s) := by
  unfold keyExchange
  dsimp only
  exact ite_inForm h (ite_inForm (spdmError_inForm h) (ite_inForm (spdmError_inForm h) (ite_inForm (spdmError_inForm
    h) (emit_inForm (freeBytes_inForm (setSpdm_inForm h))))))

theorem finish_inForm {q verified} (h : inForm fam s) : inForm fam (finish q verified s) := by
  unfold finish
  refine ite_inForm h ?_
  split
  · exact spdmError_inForm h
  · exact ite_inForm (spdmError_inForm h) (ite_inForm (emit_inForm (setSessions_inForm h)) (spdmError_inForm
    (setSessions_inForm h)))

theorem inSession_inForm {q code f} (h : inForm fam s) : inForm fam (inSession q code f s) := by
  unfold inSession
  refine ite_inForm h ?_
  split
  · exact spdmError_inForm h
  · exact ite_inForm (spdmError_inForm h) (emit_inForm (setSessions_inForm h))

theorem heartbeat_inForm {q} (h : inForm fam s) : inForm fam (heartbeat q s) := inSession_inForm h
theorem keyUpdate_inForm {q} (h : inForm fam s) : inForm fam (keyUpdate q s) :=
  ite_inForm (ite_inForm (spdmError_inForm h) h) (inSession_inForm h)

theorem endSession_inForm {q} (h : inForm fam s) : inForm fam (endSession q s) := inSession_inForm h
theorem heartbeatExpiry_inForm {id} (h : inForm fam s) :
    inForm fam (heartbeatExpiry id s) := ite_inForm h (setSessions_inForm h)
theorem entropyHealthTestFail_inForm (h : inForm fam s) : inForm fam (entropyHealthTestFail s) := by
  unfold entropyHealthTestFail
  refine ite_inForm h ?_
  exact
    have h1 := raise_inForm (setSessions_inForm h)
    ite_inForm (failStart_inForm h1) (ite_inForm (setF_inForm h1) (enterSafe_inForm (stampEvent_inForm (setF_inForm
      h1))))

/-! ### Machine/Idle -/

theorem idle_inForm (h : inForm fam s) : inForm fam (idle s) :=
  ite_inForm (serveNext_inForm h) (ite_inForm (setF_inForm h) h)

/-- Every command has a next state, and each family of maps is in canonical form where it was before. -/
theorem exec_inForm : ∀ (c : Instr) (s : State), ∃ t, exec c s = .next t ∧ (inForm fam s → inForm fam t)
  | .registerWrite .., _ => ⟨_, rfl, registerWrite_inForm⟩
  | .loRegisterRead .., _ => ⟨_, rfl, loRegisterRead_inForm⟩
  | .tickCapture, _ => ⟨_, rfl, tickCapture_inForm⟩
  | .boardAccess .., _ => ⟨_, rfl, boardAccess_inForm⟩
  | .boardRequestTimeout .., _ => ⟨_, rfl, boardRequestTimeout_inForm⟩
  | .tick, _ => ⟨_, rfl, tick_inForm⟩
  | .periodChange, _ => ⟨_, rfl, periodChange_inForm⟩
  | .scheduleCycle .., _ => ⟨_, rfl, scheduleCycle_inForm⟩
  | .ingressShutterClose, _ => ⟨_, rfl, ingressShutterClose_inForm⟩
  | .drainSample .., _ => ⟨_, rfl, drainSample_inForm⟩
  | .drainVerdict, _ => ⟨_, rfl, drainVerdict_inForm⟩
  | .drainHoldTimeout, _ => ⟨_, rfl, drainHoldTimeout_inForm⟩
  | .emptyFrameFlip, _ => ⟨_, rfl, emptyFrameFlip_inForm⟩
  | .frameNaming .., _ => ⟨_, rfl, frameNaming_inForm⟩
  | .casementLoadDone .., _ => ⟨_, rfl, casementLoadDone_inForm⟩
  | .paneLoadDone, _ => ⟨_, rfl, paneLoadDone_inForm⟩
  | .checkOnlyPass .., _ => ⟨_, rfl, checkOnlyPass_inForm⟩
  | .modeRequest .., _ => ⟨_, rfl, modeRequest_inForm⟩
  | .modeChangeApply, _ => ⟨_, rfl, modeChangeApply_inForm⟩
  | .stretchReq .., _ => ⟨_, rfl, stretchReq_inForm⟩
  | .stretchGrant .., _ => ⟨_, rfl, stretchGrant_inForm⟩
  | .frameReport .., _ => ⟨_, rfl, frameReport_inForm⟩
  | .faultNotice .., _ => ⟨_, rfl, faultNotice_inForm⟩
  | .decision .., _ => ⟨_, rfl, decision_inForm⟩
  | .alignReport .., _ => ⟨_, rfl, alignReport_inForm⟩
  | .alignGraceExpiry .., _ => ⟨_, rfl, alignGraceExpiry_inForm⟩
  | .memberReportMissing .., _ => ⟨_, rfl, memberReportMissing_inForm⟩
  | .linkLost .., _ => ⟨_, rfl, linkLost_inForm⟩
  | .leave .., _ => ⟨_, rfl, leave_inForm⟩
  | .memberLost .., _ => ⟨_, rfl, memberLostMsg_inForm⟩
  | .selfIsolation, _ => ⟨_, rfl, selfIsolation_inForm⟩
  | .announce .., _ => ⟨_, rfl, announce_inForm⟩
  | .announceApply .., _ => ⟨_, rfl, announceApply_inForm⟩
  | .loadReport .., _ => ⟨_, rfl, loadReportMsg_inForm⟩
  | .takeover .., _ => ⟨_, rfl, takeover_inForm⟩
  | .masterLossTimeout, _ => ⟨_, rfl, masterLossTimeout_inForm⟩
  | .takeoverTimeout, _ => ⟨_, rfl, takeoverTimeout_inForm⟩
  | .spanReceiveComplete .., _ => ⟨_, rfl, spanReceiveComplete_inForm⟩
  | .syncExchange .., _ => ⟨_, rfl, syncExchange_inForm⟩
  | .syncReceive .., _ => ⟨_, rfl, syncReceive_inForm⟩
  | .roundTransmit .., _ => ⟨_, rfl, roundTransmit_inForm⟩
  | .flitReceive .., _ => ⟨_, rfl, flitReceive_inForm⟩
  | .replayTimeout .., _ => ⟨_, rfl, replayTimeout_inForm⟩
  | .nakResendTimeout .., _ => ⟨_, rfl, nakResendTimeout_inForm⟩
  | .laneDrop .., _ => ⟨_, rfl, laneDrop_inForm⟩
  | .portLeaveUp .., _ => ⟨_, rfl, portLeaveUp_inForm⟩
  | .retrainComplete .., _ => ⟨_, rfl, retrainComplete_inForm⟩
  | .retrainTimeout .., _ => ⟨_, rfl, retrainTimeout_inForm⟩
  | .downRetry .., _ => ⟨_, rfl, downRetry_inForm⟩
  | .linkTraining .., _ => ⟨_, rfl, linkTraining_inForm⟩
  | .trainingTimeout .., _ => ⟨_, rfl, trainingTimeout_inForm⟩
  | .lossBase .., _ => ⟨_, rfl, lossBase_inForm⟩
  | .lossEstimateUpdate .., _ => ⟨_, rfl, lossEstimateUpdate_inForm⟩
  | .linkRetrainCmd .., _ => ⟨_, rfl, linkRetrainCmd_inForm⟩
  | .linkTestEnter .., _ => ⟨_, rfl, linkTestEnter_inForm⟩
  | .linkTestLeave .., _ => ⟨_, rfl, linkTestLeave_inForm⟩
  | .linkCountClear .., _ => ⟨_, rfl, linkCountClear_inForm⟩
  | .eyeScanStart .., _ => ⟨_, rfl, eyeScanStart_inForm⟩
  | .eyeScanDone .., _ => ⟨_, rfl, eyeScanDone_inForm⟩
  | .run .., _ => ⟨_, rfl, run_inForm⟩
  | .close .., _ => ⟨_, rfl, close_inForm⟩
  | .subDoorbell .., _ => ⟨_, rfl, subDoorbell_inForm⟩
  | .ringEnable .., _ => ⟨_, rfl, ringEnable_inForm⟩
  | .ringDisable .., _ => ⟨_, rfl, ringDisable_inForm⟩
  | .rcptHeadWrite .., _ => ⟨_, rfl, rcptHeadWrite_inForm⟩
  | .cmplHeadWrite .., _ => ⟨_, rfl, cmplHeadWrite_inForm⟩
  | .retireWrite .., _ => ⟨_, rfl, retireWrite_inForm⟩
  | .recover, _ => ⟨_, rfl, recover_inForm⟩
  | .recoveryComplete .., _ => ⟨_, rfl, recoveryComplete_inForm⟩
  | .completionRecord .., _ => ⟨_, rfl, completionRecord_inForm⟩
  | .fetchComplete .., _ => ⟨_, rfl, fetchComplete_inForm⟩
  | .shardWritten .., _ => ⟨_, rfl, shardWritten_inForm⟩
  | .digestComplete .., _ => ⟨_, rfl, digestComplete_inForm⟩
  | .fetchBoundExpiry .., _ => ⟨_, rfl, fetchBoundExpiry_inForm⟩
  | .storeReadComplete .., _ => ⟨_, rfl, storeReadComplete_inForm⟩
  | .storeReadTimeout .., _ => ⟨_, rfl, storeReadTimeout_inForm⟩
  | .storeControllerDrop .., _ => ⟨_, rfl, storeControllerDrop_inForm⟩
  | .logPagePoll, _ => ⟨_, rfl, logPagePoll_inForm⟩
  | .nearReadUncorrectable .., _ => ⟨_, rfl, nearReadUncorrectable_inForm⟩
  | .nearStackLoss .., _ => ⟨_, rfl, nearStackLoss_inForm⟩
  | .bulkSideLoss .., _ => ⟨_, rfl, bulkSideLoss_inForm⟩
  | .patrolScrub .., _ => ⟨_, rfl, patrolScrub_inForm⟩
  | .ingest .., _ => ⟨_, rfl, ingest_inForm⟩
  | .retire, _ => ⟨_, rfl, retire_inForm⟩
  | .switch .., _ => ⟨_, rfl, switch_inForm⟩
  | .stage, _ => ⟨_, rfl, stage_inForm⟩
  | .unstage, _ => ⟨_, rfl, unstage_inForm⟩
  | .query, _ => ⟨_, rfl, query_inForm⟩
  | .wgtCmdEnd, _ => ⟨_, rfl, wgtCmdEnd_inForm⟩
  | .spanLoad .., _ => ⟨_, rfl, spanLoad_inForm⟩
  | .digestScrubTile .., _ => ⟨_, rfl, digestScrubTile_inForm⟩
  | .ejectWarning, _ => ⟨_, rfl, ejectWarning_inForm⟩
  | .ejectFinish, _ => ⟨_, rfl, ejectFinish_inForm⟩
  | .pinLatchEdge .., _ => ⟨_, rfl, pinLatchEdge_inForm⟩
  | .wakeAlarm, _ => ⟨_, rfl, wakeAlarm_inForm⟩
  | .louvreChange .., _ => ⟨_, rfl, louvreChange_inForm⟩
  | .dormantRequest .., _ => ⟨_, rfl, dormantRequest_inForm⟩
  | .estimatorUpdate .., _ => ⟨_, rfl, estimatorUpdate_inForm⟩
  | .powerMeasurement .., _ => ⟨_, rfl, powerMeasurement_inForm⟩
  | .capSlewStep, _ => ⟨_, rfl, capSlewStep_inForm⟩
  | .railReading .., _ => ⟨_, rfl, railReading_inForm⟩
  | .opRampStep .., _ => ⟨_, rfl, opRampStep_inForm⟩
  | .droop .., _ => ⟨_, rfl, droop_inForm⟩
  | .droopEnd .., _ => ⟨_, rfl, droopEnd_inForm⟩
  | .throttleStep, _ => ⟨_, rfl, throttleStep_inForm⟩
  | .throttleReleaseStep, _ => ⟨_, rfl, throttleReleaseStep_inForm⟩
  | .thermalTrip, _ => ⟨_, rfl, thermalTrip_inForm⟩
  | .regulatorPhaseFault .., _ => ⟨_, rfl, regulatorPhaseFault_inForm⟩
  | .supplyLow, _ => ⟨_, rfl, supplyLow_inForm⟩
  | .supplyFail, _ => ⟨_, rfl, supplyFail_inForm⟩
  | .auxPowerLoss, _ => ⟨_, rfl, auxPowerLoss_inForm⟩
  | .auxPowerOn, _ => ⟨_, rfl, auxPowerOn_inForm⟩
  | .mainPowerOn, _ => ⟨_, rfl, mainPowerOn_inForm⟩
  | .railStartFail, _ => ⟨_, rfl, railStartFail_inForm⟩
  | .railOutOfRegulation .., _ => ⟨_, rfl, railOutOfRegulation_inForm⟩
  | .sysRstN .., _ => ⟨_, rfl, sysRstN_inForm⟩
  | .perstN .., _ => ⟨_, rfl, perstN_inForm⟩
  | .start, _ => ⟨_, rfl, start_inForm⟩
  | .bootStepComplete .., _ => ⟨_, rfl, bootStepComplete_inForm⟩
  | .bootStepFail .., _ => ⟨_, rfl, bootStepFail_inForm⟩
  | .bootRetryReset, _ => ⟨_, rfl, bootRetryReset_inForm⟩
  | .bootCtlRestart .., _ => ⟨_, rfl, bootCtlRestart_inForm⟩
  | .clearExcl .., _ => ⟨_, rfl, clearExcl_inForm⟩
  | .bootUpdStart .., _ => ⟨_, rfl, bootUpdStart_inForm⟩
  | .imageUpdateDone .., _ => ⟨_, rfl, imageUpdateDone_inForm⟩
  | .watchdogExpiry .., _ => ⟨_, rfl, watchdogExpiry_inForm⟩
  | .columnRetirement, _ => ⟨_, rfl, columnRetirement_inForm⟩
  | .batchOpen .., _ => ⟨_, rfl, batchOpen_inForm⟩
  | .ticketRead .., _ => ⟨_, rfl, ticketRead_inForm⟩
  | .ticketPeek .., _ => ⟨_, rfl, ticketPeek_inForm⟩
  | .tileCommit .., _ => ⟨_, rfl, tileCommit_inForm⟩
  | .irqFilterChange .., _ => ⟨_, rfl, irqFilterChange_inForm⟩
  | .irqPendSet .., _ => ⟨_, rfl, irqPendSet_inForm⟩
  | .irqPendClr .., _ => ⟨_, rfl, irqPendClr_inForm⟩
  | .claim .., _ => ⟨_, rfl, claim_inForm⟩
  | .complete .., _ => ⟨_, rfl, completeSource_inForm⟩
  | .msixSend, _ => ⟨_, rfl, msixSend_inForm⟩
  | .hostEoi .., _ => ⟨_, rfl, hostEoi_inForm⟩
  | .moderationExpiry .., _ => ⟨_, rfl, moderationExpiry_inForm⟩
  | .msixMaskWrite .., _ => ⟨_, rfl, msixMaskWrite_inForm⟩
  | .regRead .., _ => ⟨_, rfl, regRead_inForm⟩
  | .regWrite .., _ => ⟨_, rfl, regWriteMbox_inForm⟩
  | .cap .., _ => ⟨_, rfl, cap_inForm⟩
  | .retireCol .., _ => ⟨_, rfl, retireCol_inForm⟩
  | .tallyRead .., _ => ⟨_, rfl, tallyRead_inForm⟩
  | .tallyClear .., _ => ⟨_, rfl, tallyClear_inForm⟩
  | .lcRequest .., _ => ⟨_, rfl, lcRequest_inForm⟩
  | .debugToken .., _ => ⟨_, rfl, debugToken_inForm⟩
  | .restart .., _ => ⟨_, rfl, restartMbox_inForm⟩
  | .imageUpdate .., _ => ⟨_, rfl, imageUpdate_inForm⟩
  | .wake .., _ => ⟨_, rfl, wake_inForm⟩
  | .setEndpointId .., _ => ⟨_, rfl, setEndpointId_inForm⟩
  | .getEndpointId, _ => ⟨_, rfl, getEndpointId_inForm⟩
  | .getMctpVersionSupport .., _ => ⟨_, rfl, getMctpVersionSupport_inForm⟩
  | .getMessageTypeSupport, _ => ⟨_, rfl, getMessageTypeSupport_inForm⟩
  | .getCertificate .., _ => ⟨_, rfl, getCertificate_inForm⟩
  | .challenge .., _ => ⟨_, rfl, challenge_inForm⟩
  | .getMeasurements .., _ => ⟨_, rfl, getMeasurements_inForm⟩
  | .keyExchange .., _ => ⟨_, rfl, keyExchange_inForm⟩
  | .heartbeat .., _ => ⟨_, rfl, heartbeat_inForm⟩
  | .keyUpdate .., _ => ⟨_, rfl, keyUpdate_inForm⟩
  | .telClear .., _ => ⟨_, rfl, telClear_inForm⟩
  | .decompEngineFail .., _ => ⟨_, rfl, decompEngineFail_inForm⟩
  | .bulkReadUncorrectable .., _ => ⟨_, rfl, bulkReadUncorrectable_inForm⟩
  | .monitorUpdate .., _ => ⟨_, rfl, monitorUpdate_inForm⟩
  | .prbsCheckerLock .., _ => ⟨_, rfl, prbsCheckerLock_inForm⟩
  | .stewardRestart .., _ => ⟨_, rfl, stewardRestart_inForm⟩
  | .entropyHealthTestFail, _ => ⟨_, rfl, entropyHealthTestFail_inForm⟩
  | .cycleInFrameSaturation, _ => ⟨_, rfl, cifSaturate_inForm⟩
  | .getVersion .., _ => ⟨_, rfl, getVersion_inForm⟩
  | .getCapabilities .., _ => ⟨_, rfl, getCapabilities_inForm⟩
  | .negotiateAlgorithms .., _ => ⟨_, rfl, negotiateAlgorithms_inForm⟩
  | .getDigests .., _ => ⟨_, rfl, getDigests_inForm⟩
  | .finish .., _ => ⟨_, rfl, finish_inForm⟩
  | .endSession .., _ => ⟨_, rfl, endSession_inForm⟩
  | .heartbeatExpiry .., _ => ⟨_, rfl, heartbeatExpiry_inForm⟩

end

/-- The next state is that of an idle step, or of a command on the queue's rest. -/
theorem step_inForm {s t : State} {fam : MapFamily} (h : inForm fam s) (e : step s = .next t) : inForm fam t := by
  unfold step at e
  split at e
  · cases e
    exact idle_inForm h
  · next c rest _ =>
      obtain ⟨u, hu, hc⟩ := exec_inForm (fam := fam) c { s with pending := rest }
      cases hu.symm.trans e
      exact hc (update_inForm h)

/-- Settles O5: `step_inForm` for each of the three families of maps. -/
theorem stepKeepsTheOtherMapsCanonical : Obligations.StepKeepsTheOtherMapsCanonical :=
  ⟨fun _ _ => step_inForm (fam := .memory), fun _ _ => step_inForm (fam := .units), fun _ _ => step_inForm (fam := .tables)⟩

end Sys2Proof.Proofs

/-! SUPPORT. What the operations of the tiers leave alone (R260, R264 to R267, R275, R294, R304): the names in the directory, what Store holds, and every
field but those that fetches, evictions and span loads write. -/
namespace Sys2Proof.Proofs
open Sys2Proof Sys2Proof.Machine

section
variable {s t u : State} {m m' n : MemSt} {e e' : DirEntry} {f : Fld} {v model epoch : Nat}

/-! ### Entries of the directory -/

/-- What an operation of the tiers may do to an entry: it keeps its name and whether Store has the epoch, gives it no copy in Bulk, and does not make an unusable
epoch usable. -/
structure EntryLess (e e' : DirEntry) : Prop where
  valid : e'.valid = e.valid
  modelId : e'.modelId = e.modelId
  epoch : e'.epoch = e.epoch
  store : e'.store = e.store
  bulk : e.bulk = false → e'.bulk = false
  unusable : e.unusable = true → e'.unusable = true

theorem entryLess_refl : EntryLess e e := ⟨rfl, rfl, rfl, rfl, id, id⟩

theorem entryLess_trans {e'' : DirEntry} (h : EntryLess e e') (h' : EntryLess e' e'') : EntryLess e e'' :=
  ⟨h'.valid.trans h.valid, h'.modelId.trans h.modelId, h'.epoch.trans h.epoch, h'.store.trans h.store, h'.bulk ∘ h.bulk, h'.unusable ∘ h.unusable⟩

/-- From `m` to `m'` each entry went through such operations; the directory stays canonical. -/
def EntriesLess (m m' : MemSt) : Prop :=
  smapWf noEntry m.dir = true → smapWf noEntry m'.dir = true ∧ ∀ i, EntryLess (dirGet m i) (dirGet m' i)

theorem entriesLess_refl : EntriesLess m m := fun h => ⟨h, fun _ => entryLess_refl⟩

theorem entriesLess_trans (h : EntriesLess m m') (h' : EntriesLess m' n) : EntriesLess m n := fun hwf =>
  have ⟨hwf', hless⟩ := h hwf
  have ⟨hwf'', hless'⟩ := h' hwf'
  ⟨hwf'', fun i => entryLess_trans (hless i) (hless' i)⟩

theorem entriesLess_of_dir (h : m'.dir = m.dir) : EntriesLess m m' := fun hwf =>
  ⟨h ▸ hwf, fun i => by rw [dirGet, dirGet, h]; exact entryLess_refl⟩

/-- An entry that has been changed. -/
theorem dirGet_dirUpd_same {g : DirEntry → DirEntry} {i : Nat} (hwf : smapWf noEntry m.dir = true) :
    ∃ k, dirGet (dirUpd m i g) i = { g (dirGet m i) with gen := k } := by
  unfold dirUpd
  dsimp only
  split
  · next heq => exact ⟨(dirGet m i).gen, by rw [heq]⟩
  · exact ⟨_, Laws.smapGet_set_same noEntry m.dir i _ (Laws.smapWf_iff.1 hwf).1⟩

theorem dirGet_dirUpd_other {g : DirEntry → DirEntry} {i j : Nat} (h : j ≠ i) : dirGet (dirUpd m i g) j = dirGet m j := by
  unfold dirUpd
  dsimp only
  split
  · rfl
  · exact Laws.smapGet_set_other noEntry m.dir i j _ h

theorem smapWf_dirUpd {g : DirEntry → DirEntry} {i : Nat} (hwf : smapWf noEntry m.dir = true) : smapWf noEntry (dirUpd m i g).dir = true := by
  unfold dirUpd
  dsimp only
  split
  · exact hwf
  · exact Laws.smapWf_set _ _ hwf

theorem entriesLess_dirUpd {g : DirEntry → DirEntry} {i : Nat} (hg : ∀ e, EntryLess e (g e)) : EntriesLess m (dirUpd m i g) := by
  refine fun hwf => ⟨smapWf_dirUpd hwf, fun j => ?_⟩
  by_cases hj : j = i
  · subst hj
    obtain ⟨k, hk⟩ := dirGet_dirUpd_same (g := g) (i := j) hwf
    obtain ⟨h1, h2, h3, h4, h5, h6⟩ := hg (dirGet m j)
    rw [hk]
    exact ⟨h1, h2, h3, h4, h5, h6⟩
  · rw [dirGet_dirUpd_other hj]
    exact entryLess_refl

theorem entriesLess_dirUpdEpoch {g : DirEntry → DirEntry} (hg : ∀ e, EntryLess e (g e)) : EntriesLess m (dirUpdEpoch m model epoch g) := by
  unfold dirUpdEpoch
  split
  · exact entriesLess_dirUpd hg
  · exact entriesLess_refl

/-- Entries are found where they were before: a search reads names only. -/
theorem dirFind_congr (h : ∀ i, (dirGet m' i).valid = (dirGet m i).valid ∧ (dirGet m' i).modelId = (dirGet m i).modelId ∧
    (dirGet m' i).epoch = (dirGet m i).epoch) : dirFind m' model epoch = dirFind m model epoch := by
  unfold dirFind
  congr 1
  funext i
  obtain ⟨hvalid, hmodel, hepoch⟩ := h i
  rw [hvalid, hmodel, hepoch]

theorem entriesLess_dirFind (h : EntriesLess m m') (hwf : smapWf noEntry m.dir = true) : dirFind m' model epoch = dirFind m model epoch :=
  dirFind_congr fun i => have hless := (h hwf).2 i; ⟨hless.valid, hless.modelId, hless.epoch⟩

theorem entriesLess_entryOf (h : EntriesLess m m') (hwf : smapWf noEntry m.dir = true) : EntryLess (entryOf m model epoch) (entryOf m' model epoch) := by
  unfold entryOf
  rw [entriesLess_dirFind h hwf]
  split
  · exact (h hwf).2 _
  · exact entryLess_refl

/-- A change that keeps the names. -/
theorem dirFind_dirUpd {g : DirEntry → DirEntry} {i : Nat} (hwf : smapWf noEntry m.dir = true)
    (hname : ∀ e, (g e).valid = e.valid ∧ (g e).modelId = e.modelId ∧ (g e).epoch = e.epoch) :
    dirFind (dirUpd m i g) model epoch = dirFind m model epoch := by
  refine dirFind_congr fun j => ?_
  by_cases hj : j = i
  · subst hj
    obtain ⟨k, hk⟩ := dirGet_dirUpd_same (g := g) (i := j) hwf
    rw [hk]
    exact hname _
  · rw [dirGet_dirUpd_other hj]
    exact ⟨rfl, rfl, rfl⟩

theorem dirFind_dirUpdEpoch {g : DirEntry → DirEntry} (hwf : smapWf noEntry m.dir = true)
    (hname : ∀ e, (g e).valid = e.valid ∧ (g e).modelId = e.modelId ∧ (g e).epoch = e.epoch) :
    dirFind (dirUpdEpoch m model epoch g) model epoch = dirFind m model epoch := by
  unfold dirUpdEpoch
  split
  · exact dirFind_dirUpd hwf hname
  · rfl

/-- The entry of an epoch that has been changed under its name. -/
theorem entryOf_dirUpdEpoch {g : DirEntry → DirEntry} (hwf : smapWf noEntry m.dir = true) (hfind : (dirFind m model epoch).isSome = true)
    (hname : ∀ e, (g e).valid = e.valid ∧ (g e).modelId = e.modelId ∧ (g e).epoch = e.epoch) :
    ∃ k, entryOf (dirUpdEpoch m model epoch g) model epoch = { g (entryOf m model epoch) with gen := k } := by
  obtain ⟨i, hi⟩ := Option.isSome_iff_exists.1 hfind
  have hsame : dirFind (dirUpd m i g) model epoch = some i := (dirFind_dirUpd hwf hname).trans hi
  simp only [dirUpdEpoch, entryOf, hi, hsame]
  exact dirGet_dirUpd_same hwf

/-! ### Claims and placements -/

@[simp] theorem recUpd_dir {g : EpochRec → EpochRec} : (recUpd m model epoch g).dir = m.dir := rfl

@[simp] theorem freeEpochUnits_dir : (freeEpochUnits m model epoch).dir = m.dir := by
  unfold freeEpochUnits dropModelRegion
  split <;> rfl

theorem entriesLess_freeEpochUnits (h : EntriesLess m m') : EntriesLess m (freeEpochUnits m' model epoch) :=
  entriesLess_trans h (entriesLess_of_dir freeEpochUnits_dir)

theorem entriesLess_claimEntry {i : Nat} : EntriesLess m (claimEntry m i) :=
  entriesLess_freeEpochUnits (entriesLess_dirUpd fun _ => ⟨rfl, rfl, rfl, rfl, id, id⟩)

theorem entriesLess_evictUntil {place : MemSt → Option MemSt} (hplace : ∀ m m', place m = some m' → m'.dir = m.dir) {l : List Nat} {k : Nat}
    {x : MemSt × Nat} (e : evictUntil place l m k = some x) : EntriesLess m x.1 := by
  induction l generalizing m k with
  | nil =>
    obtain ⟨m', hm', rfl⟩ := Option.map_eq_some_iff.1 e
    exact entriesLess_of_dir (hplace _ _ hm')
  | cons i l ih =>
    unfold evictUntil at e
    split at e
    · next hm' =>
      cases e
      exact entriesLess_of_dir (hplace _ _ hm')
    · exact entriesLess_trans entriesLess_claimEntry (ih e)

theorem placeRegion_dir {o : RegionOwner} {size : Nat} (h : placeRegion s o size m = some m') : m'.dir = m.dir := by
  unfold placeRegion at h
  dsimp only at h
  split at h
  · cases h; rfl
  · cases h

theorem placeShards_dir {keep : ShardRec → Bool} {l : List ShardRec} {k : Nat} (h : placeShards s model epoch keep l k m = some m') : m'.dir = m.dir := by
  induction l generalizing m k with
  | nil => cases h; rfl
  | cons x l ih =>
    unfold placeShards at h
    split at h
    · exact ih h
    · split at h
      · exact (ih h).trans rfl
      · cases h

theorem placeEpoch_dir {keep : ShardRec → Bool} (h : placeEpoch s model epoch keep m = some m') : m'.dir = m.dir := by
  unfold placeEpoch at h
  split at h
  · split at h
    · next hshards =>
      split at h
      · exact (placeRegion_dir h).trans (placeShards_dir hshards)
      · cases h; exact placeShards_dir hshards
    · cases h
  · cases h

/-! ### Fields and entries together -/

/-- The fields that fetches, evictions, switches that were pending and span loads write, apart from those of the failure that they answer. -/
def tierWrites : List Fld :=
  [F.MEM_STAT_EVICT_SHORT, F.MEM_ECAP_INFO_KIND, F.MEM_ECAP_INFO_UNIT, F.MEM_ECAP_INFO_DIE, F.MEM_ECAP_INFO_REGION, F.MEM_ECAP_ADDR,
   F.MEM_CNT_EVICT_NEAR, F.WGT_STAT_SWITCH_DONE, F.WGT_CNT_SWITCH, F.WGT_Q_EPOCH_PEND_EPOCH, F.WGT_STAT_SWITCH_PEND,
   F.MEM_BUSY_BULK, F.MEM_BUSY_STORE, F.MEM_CNT_FETCH_OVER, F.WGT_STAT_SPAN_LOAD_FAIL, F.WGT_FCAP_MODEL, F.WGT_FCAP_INFO_EPOCH,
   F.WGT_FCAP_INFO_SHARD, F.WGT_FCAP_KIND, F.WGT_STAT_SPAN_LOADING, F.SPAN_CNT_CTRL_TX]

/-- From `s` to `t` those fields at most were written, and the directory lost at most copies. -/
structure TierKept (s t : State) : Prop where
  fields : fieldsKept tierWrites s t
  entries : EntriesLess s.mem t.mem

theorem tierKept_refl : TierKept s s := ⟨fieldsKept_refl, entriesLess_refl⟩

theorem tierKept_trans (h : TierKept s t) (h' : TierKept t u) : TierKept s u :=
  ⟨fieldsKept_trans h.fields h'.fields, entriesLess_trans h.entries h'.entries⟩

theorem tierKept_setF (h : TierKept s t) (hf : f ∈ tierWrites) : TierKept s (setF t f v) := ⟨fieldsKept_setF h.fields hf, h.entries⟩

theorem tierKept_setMem (h : TierKept s t) (hm : EntriesLess t.mem m) : TierKept s (setMem t m) := ⟨h.fields, entriesLess_trans h.entries hm⟩

theorem tierKept_same (h : TierKept s t) (hf : u.flds = t.flds) (hm : u.mem = t.mem) : TierKept s u :=
  ⟨fun g hg => (Laws.getF_congr hf g).trans (h.fields g hg), hm ▸ h.entries⟩

theorem tierKept_ite {c : Prop} {d : Decidable c} (ht : TierKept s t) (hu : TierKept s u) : TierKept s (if c then t else u) := by
  split <;> assumption

theorem tierKept_foldl {α : Type} {g : State → α → State} {l : List α} (h : TierKept s t) (hg : ∀ t, TierKept s t → ∀ x, TierKept s (g t x)) :
    TierKept s (l.foldl g t) :=
  List.foldlRecOn l g h fun t ht x _ => hg t ht x

theorem tierKept_emit {o : OutMsg} (h : TierKept s t) : TierKept s (emit t o) := tierKept_same h rfl rfl

theorem tierKept_ctrlOnly (h : TierKept s t) (h' : CtrlOnly t u) : TierKept s u := by
  refine tierKept_trans h ⟨fieldsKept_mono h'.fields (by decide), ?_⟩
  obtain ⟨_, _, _, _, rfl⟩ := h'.rest
  exact entriesLess_refl

theorem tierKept_failWhere {c : Cause} {q : Req → Bool} {b : Option Stamp} (h : TierKept s t) : TierKept s (failWhere t c q b) := by
  obtain ⟨_, _, _, _, hreqs⟩ := reqsOnly_failWhere (s := t) (c := c) (q := q) (b := b) reqsOnly_refl
  rw [hreqs]
  exact tierKept_same h rfl rfl

theorem tierKept_capture {guards : List Fld} {vals : List (Fld × Nat)} (h : TierKept s t) (hv : ∀ p ∈ vals, p.1 ∈ tierWrites) :
    TierKept s (capture t guards vals) := by
  refine tierKept_trans h ⟨fieldsKept_capture hv, ?_⟩
  obtain ⟨_, _, hc⟩ := capturesOnly_capture (s := t) (guards := guards) (vals := vals)
  rw [hc]
  exact entriesLess_refl

theorem tierKept_memEvent {bit : Fld} {kind unit die region addr : Nat} (h : TierKept s t) (hbit : bit ∈ tierWrites) :
    TierKept s (memEvent t bit kind unit die region addr) :=
  tierKept_setF (tierKept_capture h (by simp only [List.forall_mem_cons]; decide)) hbit

theorem tierKept_wgtEvent {bit : Fld} {kind shard : Nat} (h : TierKept s t) (hbit : bit ∈ tierWrites) :
    TierKept s (wgtEvent t bit kind model epoch shard) :=
  tierKept_setF (tierKept_capture h (by simp only [List.forall_mem_cons]; decide)) hbit

/-! ### The operations of the tiers -/

theorem tierKept_issueReads (h : TierKept s t) : TierKept s (issueReads t) := by
  unfold issueReads
  split
  · exact tierKept_ite h (tierKept_foldl (tierKept_setMem h (entriesLess_of_dir rfl)) fun _ ht _ => tierKept_foldl ht fun _ ht _ => tierKept_emit ht)
  · exact h

theorem tierKept_endPending {w : PendSwitch} (h : TierKept s t) : TierKept s (endPending t w) := by
  unfold endPending
  refine
    have hdone := tierKept_setF (tierKept_setF (tierKept_setMem h ?_) ?_) ?_
    have hshown := tierKept_issueReads (tierKept_ite (tierKept_setF hdone ?_) hdone)
    tierKept_ite (tierKept_setF hshown ?_) hshown
  · exact entriesLess_of_dir rfl
  all_goals decide

theorem tierKept_evictFor {place : MemSt → Option MemSt} (hplace : ∀ m m', place m = some m' → m'.dir = m.dir) (h : TierKept s t) :
    TierKept s (evictFor t place).2 := by
  unfold evictFor
  split
  · next hevict => exact tierKept_setF (tierKept_setMem h (entriesLess_evictUntil hplace hevict)) (by decide)
  · exact tierKept_memEvent h (by decide)

theorem tierKept_retryPending (h : TierKept s t) : TierKept s (retryPending t) := by
  unfold retryPending
  refine tierKept_foldl h fun t ht w => tierKept_ite ht ?_
  have hevict := tierKept_evictFor (place := placeEpoch t w.model w.target (fun _ => true)) (fun _ _ => placeEpoch_dir) ht
  split
  · next heq =>
    rw [heq] at hevict
    exact tierKept_endPending hevict
  · next heq =>
    rw [heq] at hevict
    exact hevict

theorem tierKept_servePending (h : TierKept s t) : TierKept s (servePending t) := by
  unfold servePending
  refine tierKept_foldl h fun t ht w => ?_
  split
  · exact tierKept_ite (tierKept_retryPending (tierKept_setF (tierKept_setMem ht entriesLess_claimEntry) (by decide))) ht
  · exact ht

theorem tierKept_unpin (h : TierKept s t) : TierKept s (unpin t model epoch) :=
  tierKept_servePending (tierKept_setMem h (entriesLess_dirUpdEpoch fun _ => ⟨rfl, rfl, rfl, rfl, id, id⟩))

theorem tierKept_dropStage (h : TierKept s t) : TierKept s (dropStage t model epoch) :=
  tierKept_ite (tierKept_unpin (tierKept_setMem h (entriesLess_of_dir rfl))) h

theorem tierKept_rebusy {b : Bool} (h : TierKept s t) : TierKept s (rebusy t b) :=
  tierKept_issueReads (tierKept_setF h (by cases b <;> decide))

theorem tierKept_endJob (h : TierKept s t) : TierKept s (endJob t model epoch) := by
  unfold endJob
  split
  · exact tierKept_rebusy (tierKept_setMem h (entriesLess_of_dir rfl))
  · exact h

theorem tierKept_missFetch (h : TierKept s t) : TierKept s (missFetch t model epoch) :=
  tierKept_ite (tierKept_setF (tierKept_setMem h (entriesLess_of_dir rfl)) (by decide)) h

/-- An epoch's fetch is given up, and its units go. -/
theorem tierKept_dropFetch (h : TierKept s t) :
    TierKept s (setMem t (freeEpochUnits (dirUpdEpoch t.mem model epoch (fun e => { e with fetch := false })) model epoch)) :=
  tierKept_setMem h (entriesLess_freeEpochUnits (entriesLess_dirUpdEpoch fun _ => ⟨rfl, rfl, rfl, rfl, id, id⟩))

theorem tierKept_abandonFetch (h : TierKept s t) : TierKept s (abandonFetch t model epoch) :=
  tierKept_failWhere (tierKept_dropFetch (tierKept_endJob h))

theorem tierKept_markUnusable (h : TierKept s t) : TierKept s (markUnusable t model epoch) :=
  have hmarked := tierKept_setMem h (entriesLess_dirUpdEpoch (model := model) (epoch := epoch) (g := fun e => { e with unusable := true })
    fun _ => ⟨rfl, rfl, rfl, rfl, id, fun _ => rfl⟩)
  tierKept_failWhere (tierKept_ite (tierKept_dropFetch (tierKept_endJob hmarked)) hmarked)

theorem tierKept_setSpan {w : SpanSt} (h : TierKept s t) : TierKept s (setSpan t w) := tierKept_same h rfl rfl

theorem tierKept_loadFail {k : Nat} (h : TierKept s t) : TierKept s (loadFail t k) := by
  unfold loadFail
  split
  · exact tierKept_dropStage (tierKept_setMem (tierKept_setF (tierKept_setSpan (tierKept_wgtEvent h (by decide))) (by decide))
      (entriesLess_freeEpochUnits entriesLess_refl))
  · exact h

theorem tierKept_announceChange {src subject k operand : Nat} {b : Option Stamp} (h : TierKept s t) :
    TierKept s (announceChange t src b subject k operand) := by
  unfold announceChange
  exact tierKept_ctrlOnly (tierKept_setSpan h) ctrlOnly_eventToAll

theorem tierKept_endLoadFailed {k : Nat} {bad : Bool} {b : Option Stamp} (h : TierKept s t) : TierKept s (endLoadFailed t k bad b) := by
  unfold endLoadFailed
  split
  · dsimp only
    refine
      have htold := tierKept_ite (tierKept_ctrlOnly h ctrlOnly_eventToMaster) ?_
      tierKept_ite (tierKept_markUnusable (tierKept_loadFail htold)) (tierKept_loadFail htold)
    refine
      have hall := tierKept_ite (tierKept_ctrlOnly h ctrlOnly_eventToAll) h
      tierKept_ite hall (tierKept_announceChange hall)
  · exact h

/-! ### Epochs that have become unusable (R260, R294) -/

theorem markUnusable_unusable (hwf : smapWf noEntry s.mem.dir = true) (hfind : (dirFind s.mem model epoch).isSome = true) :
    (entryOf (markUnusable s model epoch).mem model epoch).unusable = true := by
  obtain ⟨k, hk⟩ := entryOf_dirUpdEpoch (g := fun e => { e with unusable := true }) hwf hfind fun _ => ⟨rfl, rfl, rfl⟩
  obtain ⟨hwf', -⟩ := entriesLess_dirUpdEpoch (model := model) (epoch := epoch) (g := fun e => { e with unusable := true })
    (fun _ => ⟨rfl, rfl, rfl, rfl, id, fun _ => rfl⟩) hwf
  have hrest : TierKept (setMem s (dirUpdEpoch s.mem model epoch (fun e => { e with unusable := true }))) (markUnusable s model epoch) :=
    tierKept_failWhere (tierKept_ite (tierKept_dropFetch (tierKept_endJob tierKept_refl)) tierKept_refl)
  exact (entriesLess_entryOf hrest.entries hwf').unusable (by rw [setMem, hk])

end
end Sys2Proof.Proofs

/-! SUPPORT. Store reads that end (R255, R260). -/
namespace Sys2Proof.Proofs
open Sys2Proof Sys2Proof.Machine

/-! ### Bits of a field -/

section
variable {s : State} {f : Fld} {x n k : Nat}

theorem bitOf_eq_testBit : bitOf x n = x.testBit n := Nat.testBit_eq_decide_div_mod_eq.symm

/-- A bit that is set, taken away: the others stay. -/
theorem testBit_sub_two_pow (h : x.testBit n = true) : (x - 2 ^ n).testBit k = (x.testBit k && decide (k ≠ n)) := by
  have hodd : x / 2 ^ n % 2 = 1 := by simpa [Nat.testBit_eq_decide_div_mod_eq] using h
  obtain ⟨q, hq⟩ : ∃ q, x / 2 ^ n = 2 * q + 1 := ⟨x / 2 ^ n / 2, by omega⟩
  have hr : x % 2 ^ n < 2 ^ n := Nat.mod_lt _ (Nat.two_pow_pos n)
  have hx : x = 2 ^ n * (2 * q + 1) + x % 2 ^ n := by rw [← hq, Nat.div_add_mod]
  have hy : x - 2 ^ n = 2 ^ n * (2 * q) + x % 2 ^ n := by
    rw [Nat.mul_add, Nat.mul_one] at hx
    omega
  rw [hy]
  conv_rhs => rw [hx]
  rw [Nat.testBit_two_pow_mul_add _ hr, Nat.testBit_two_pow_mul_add _ hr]
  by_cases hlt : k < n
  · simp [hlt, Nat.ne_of_lt hlt]
  · by_cases heq : k = n
    · simp [heq]
    · obtain ⟨j, rfl⟩ : ∃ j, k = n + (j + 1) := ⟨k - n - 1, by omega⟩
      have hhalf : (2 * q + 1) / 2 = 2 * q / 2 := by omega
      rw [if_neg hlt, if_neg hlt, Nat.add_sub_cancel_left, Nat.testBit_succ, Nat.testBit_succ, hhalf]
      simp

/-- A bit of a field that is cleared: it reads 0, and every other bit as before. -/
theorem bitF_setBitF_false (h : s.fieldsCanonical = true) (hk : k < f.width) :
    bitF (setBitF s f n false) f k = (bitF s f k && decide (k ≠ n)) := by
  unfold bitF setBitF
  dsimp only
  rw [getF_setF h, if_pos rfl, bitOf_eq_testBit, bitOf_eq_testBit, bitOf_eq_testBit, Nat.testBit_mod_two_pow, if_neg Bool.false_ne_true]
  split
  · next hset => simp [hk, testBit_sub_two_pow hset]
  · next hclear =>
    by_cases hkn : k = n
    · subst hkn
      simp [hclear]
    · simp [hk, hkn]

end

section
variable {s t u : State} {ctrl lba model epoch : Nat} {bit cnt f : Fld} {kind unit die region addr shard : Nat}

/-! ### Events that are captured and counted -/

/-- The captures of the events of MEM_STAT and of WGT_STAT (R282, R309). -/
def memCapture : List Fld := [F.MEM_ECAP_INFO_KIND, F.MEM_ECAP_INFO_UNIT, F.MEM_ECAP_INFO_DIE, F.MEM_ECAP_INFO_REGION, F.MEM_ECAP_ADDR]

def wgtCapture : List Fld := [F.WGT_FCAP_MODEL, F.WGT_FCAP_INFO_EPOCH, F.WGT_FCAP_INFO_SHARD, F.WGT_FCAP_KIND]

/-- A captured event with its counter. -/
structure Noted (bit cnt : Fld) (s t : State) : Prop where
  set : isSet t bit = true
  count : getF t cnt = satAdd cnt.width (getF s cnt) 1
  fields : fieldsKept (bit :: cnt :: (memCapture ++ wgtCapture)) s t
  rest : CapturesOnly s t
  canonical : t.fieldsCanonical = true

/-- An event whose capture is one of the two. -/
theorem noted_of_capture {guards : List Fld} {vals : List (Fld × Nat)} (h : s.fieldsCanonical = true) (hbit : 0 < bit.width) (hne : bit.key ≠ cnt.key)
    (hvals : ∀ p ∈ vals, p.1 ∈ memCapture ++ wgtCapture) (hcap : ∀ g ∈ memCapture ++ wgtCapture, g.key ≠ cnt.key) :
    Noted bit cnt s (bump (raise (capture s guards vals) bit) cnt) := by
  have hcapture : (capture s guards vals).fieldsCanonical = true := capture_canonical h
  have hraise : (raise (capture s guards vals) bit).fieldsCanonical = true := raise_canonical hcapture
  have hkept : fieldsKept (bit :: cnt :: (memCapture ++ wgtCapture)) s (raise (capture s guards vals) bit) :=
    fieldsKept_setF (fieldsKept_capture fun p hp => List.mem_cons_of_mem _ (List.mem_cons_of_mem _ (hvals p hp))) List.mem_cons_self
  have hcnt : getF (raise (capture s guards vals) bit) cnt = getF s cnt :=
    (Laws.getF_setF_other _ _ _ _ hne.symm).trans (fieldsKept_capture hvals cnt hcap)
  refine ⟨?_, (getF_bump hraise).trans (by rw [hcnt]), fieldsKept_setF hkept (List.mem_cons_of_mem _ List.mem_cons_self),
    capturesOnly_setF (capturesOnly_setF capturesOnly_capture), bump_canonical hraise⟩
  exact (isSet_congr (Laws.getF_setF_other _ _ _ _ hne)).trans (Laws.isSet_raise _ _ (Laws.smapWf_iff.1 hcapture).1 hbit)

theorem memEvent_noted (h : s.fieldsCanonical = true) (hbit : 0 < bit.width) (hne : bit.key ≠ cnt.key)
    (hcap : ∀ g ∈ memCapture ++ wgtCapture, g.key ≠ cnt.key) : Noted bit cnt s (bump (memEvent s bit kind unit die region addr) cnt) :=
  noted_of_capture h hbit hne (by simp only [List.forall_mem_cons]; decide) hcap

theorem wgtEvent_noted (h : s.fieldsCanonical = true) (hbit : 0 < bit.width) (hne : bit.key ≠ cnt.key)
    (hcap : ∀ g ∈ memCapture ++ wgtCapture, g.key ≠ cnt.key) : Noted bit cnt s (bump (wgtEvent s bit kind model epoch shard) cnt) :=
  noted_of_capture h hbit hne (by simp only [List.forall_mem_cons]; decide) hcap

theorem fieldsKept_memEvent : fieldsKept (bit :: memCapture) s (memEvent s bit kind unit die region addr) :=
  fieldsKept_setF (fieldsKept_capture (by simp [memCapture])) List.mem_cons_self

theorem capturesOnly_memEvent : CapturesOnly s (memEvent s bit kind unit die region addr) := capturesOnly_setF capturesOnly_capture

theorem capturesOnly_mem (h : CapturesOnly s t) : t.mem = s.mem := by
  obtain ⟨_, _, rfl⟩ := h
  rfl

theorem capturesOnly_out (h : CapturesOnly s t) : t.out = s.out := by
  obtain ⟨_, _, rfl⟩ := h
  rfl

/-- What follows the event leaves its bit and its counter. -/
theorem noted_tierKept (h : Noted bit cnt s t) (h' : TierKept t u) (hbit : ∀ g ∈ tierWrites, g.key ≠ bit.key)
    (hcnt : ∀ g ∈ tierWrites, g.key ≠ cnt.key) : isSet u bit = true ∧ getF u cnt = satAdd cnt.width (getF s cnt) 1 :=
  ⟨(isSet_congr (h'.fields bit hbit)).trans h.set, (h'.fields cnt hcnt).trans h.count⟩

/-! ### The end of a fetch -/

theorem runningJob_congr (h : t.mem.jobs = s.mem.jobs) : runningJob t model epoch = runningJob s model epoch := by
  rw [runningJob, runningJob, h]

@[simp] theorem dirUpdEpoch_jobs {m : MemSt} {g : DirEntry → DirEntry} : (dirUpdEpoch m model epoch g).jobs = m.jobs := by
  unfold dirUpdEpoch dirUpd
  split
  · dsimp only
    split <;> rfl
  · rfl

theorem missFetch_out : (missFetch s model epoch).out = s.out := by
  unfold missFetch
  split <;> rfl

theorem missFetch_dir : (missFetch s model epoch).mem.dir = s.mem.dir := by
  unfold missFetch
  split <;> rfl

/-- A missed fetch stays in its queue. -/
theorem missFetch_jobs {j : FetchJob} (h : j ∈ (missFetch s model epoch).mem.jobs) : ∃ i ∈ s.mem.jobs, j.model = i.model ∧ j.epoch = i.epoch := by
  unfold missFetch at h
  split at h
  · obtain ⟨i, hi, rfl⟩ := List.mem_map.1 h
    refine ⟨i, hi, ?_⟩
    split <;> exact ⟨rfl, rfl⟩
  · exact ⟨j, h, rfl, rfl⟩

/-- Where no other fetch is queued, the end of one issues no Reads. -/
theorem abandonFetch_out (h : ∀ j ∈ s.mem.jobs, j.model = model ∧ j.epoch = epoch) : (abandonFetch s model epoch).out = s.out := by
  have hout {t : State} : (failWhere t .capacity (fun r => r.d.model == model && r.epoch == epoch)).out = t.out := by
    obtain ⟨_, _, _, _, hreqs⟩ := reqsOnly_failWhere (s := t) (c := .capacity) (q := fun r => r.d.model == model && r.epoch == epoch) (b := none)
      reqsOnly_refl
    rw [hreqs]
  have hnone : s.mem.jobs.filter (fun k => !(k.model == model && k.epoch == epoch)) = [] := by
    refine List.filter_eq_nil_iff.2 fun j hj => ?_
    obtain ⟨hm, he⟩ := h j hj
    simp [hm, he]
  refine hout.trans ?_
  change (endJob s model epoch).out = s.out
  unfold endJob
  split
  · unfold rebusy
    rw [hnone]
    rfl
  · rfl

/-! ### A read that fails -/

theorem exec_storeReadComplete {e : ReadEnd} :
    exec (.storeReadComplete ctrl lba model epoch e) s = .next (storeReadComplete ctrl lba model epoch e s) := rfl

theorem exec_storeReadTimeout : exec (.storeReadTimeout ctrl lba model epoch) s = .next (storeReadTimeout ctrl lba model epoch s) := rfl

theorem exec_storeControllerDrop : exec (.storeControllerDrop ctrl) s = .next (storeControllerDrop ctrl s) := rfl

theorem exec_logPagePoll : exec .logPagePoll s = .next (logPagePoll s) := rfl

theorem dropRetry_memoryCanonical : (dropRetry s ctrl lba).memoryCanonical = s.memoryCanonical := rfl

theorem dropRetry_runningJob : runningJob (dropRetry s ctrl lba) model epoch = runningJob s model epoch := runningJob_congr rfl

theorem dropRetry_dirFind : dirFind (dropRetry s ctrl lba).mem model epoch = dirFind s.mem model epoch := dirFind_congr fun _ => ⟨rfl, rfl, rfl⟩

/-- The state in which a failed read is tried once more; `tag` says which kind of failure it is. -/
def readAgain (s : State) (ctrl lba : Nat) (tag : Bool) : State :=
  nvmeIo (setMem (dropRetry s ctrl lba) { (dropRetry s ctrl lba).mem with retries := (dropRetry s ctrl lba).mem.retries ++ [(ctrl, lba, tag)] }) ctrl 0x02 lba

theorem readAgain_retries {tag : Bool} : (ctrl, lba, tag) ∈ (readAgain s ctrl lba tag).mem.retries :=
  List.mem_append_right _ (List.mem_singleton.2 rfl)

theorem storeReadComplete_ok (hreads : readsStore s model epoch = true) : storeReadComplete ctrl lba model epoch .ok s = dropRetry s ctrl lba := by
  simp [storeReadComplete, hreads]

theorem storeReadComplete_error (hreads : readsStore s model epoch = true) : storeReadComplete ctrl lba model epoch .error s =
    if (ctrl, lba, false) ∈ s.mem.retries then storeFailed (dropRetry s ctrl lba) ctrl lba model epoch else readAgain s ctrl lba false := by
  simp only [storeReadComplete, hreads, Bool.not_true, Bool.false_eq_true, if_false, List.contains_iff_mem]
  rfl

theorem storeReadComplete_tagFail (hreads : readsStore s model epoch = true) : storeReadComplete ctrl lba model epoch .tagFail s =
    if (ctrl, lba, true) ∈ s.mem.retries then tagFailed (dropRetry s ctrl lba) ctrl lba model epoch else readAgain s ctrl lba true := by
  simp only [storeReadComplete, hreads, Bool.not_true, Bool.false_eq_true, if_false, List.contains_iff_mem]
  rfl

/-- A read that times out ends as one that fails, after an Abort. -/
theorem storeReadTimeout_eq (hreads : readsStore s model epoch = true) : storeReadTimeout ctrl lba model epoch s =
    storeReadComplete ctrl lba model epoch .error (emit s (.nvme ctrl 0 true 8 lba)) := by
  simp [storeReadTimeout, hreads]

/-! ### A read that has failed for good (R260) -/

/-- A Store read has failed for good: that is counted, and Store no longer supplies the epoch. -/
def storeGone (s : State) (ctrl lba model epoch : Nat) : State :=
  let s := bump (memEvent s F.MEM_STAT_STORE_ERR 5 ctrl 0 7 lba) F.MEM_CNT_STORE_ERR
  setMem s (dirUpdEpoch s.mem model epoch (fun e => { e with store := false }))

theorem storeErr_only : CapturesOnly s (bump (memEvent s F.MEM_STAT_STORE_ERR 5 ctrl 0 7 lba) F.MEM_CNT_STORE_ERR) :=
  capturesOnly_setF capturesOnly_memEvent

theorem storeErr_noted (h : s.fieldsCanonical = true) :
    Noted F.MEM_STAT_STORE_ERR F.MEM_CNT_STORE_ERR s (bump (memEvent s F.MEM_STAT_STORE_ERR 5 ctrl 0 7 lba) F.MEM_CNT_STORE_ERR) :=
  memEvent_noted h (by decide) (by decide) (by decide)

/-- `storeGone` notes the event, whatever the directory holds. -/
theorem storeGone_noted (h : s.fieldsCanonical = true) : isSet (storeGone s ctrl lba model epoch) F.MEM_STAT_STORE_ERR = true ∧
    getF (storeGone s ctrl lba model epoch) F.MEM_CNT_STORE_ERR = satAdd 32 (getF s F.MEM_CNT_STORE_ERR) 1 :=
  ⟨(storeErr_noted h).set, (storeErr_noted h).count⟩

theorem storeGone_out : (storeGone s ctrl lba model epoch).out = s.out :=
  (capturesOnly_out (storeErr_only (ctrl := ctrl) (lba := lba)) :)

theorem storeGone_mem : (storeGone s ctrl lba model epoch).mem = dirUpdEpoch s.mem model epoch (fun e => { e with store := false }) := by
  rw [← capturesOnly_mem (storeErr_only (s := s) (ctrl := ctrl) (lba := lba))]
  rfl

theorem storeGone_jobs : (storeGone s ctrl lba model epoch).mem.jobs = s.mem.jobs := by
  rw [storeGone_mem, dirUpdEpoch_jobs]

theorem storeFailed_running (h : (runningJob s model epoch).isSome = true) : storeFailed s ctrl lba model epoch =
    if epochSupplied (entryOf (missFetch (storeGone s ctrl lba model epoch) model epoch).mem model epoch)
    then missFetch (storeGone s ctrl lba model epoch) model epoch
    else abandonFetch (missFetch (storeGone s ctrl lba model epoch) model epoch) model epoch := by
  obtain ⟨j, hj⟩ := Option.isSome_iff_exists.1 h
  have hrun : runningJob (storeGone s ctrl lba model epoch) model epoch = some j := (runningJob_congr storeGone_jobs).trans hj
  unfold storeGone at hrun
  unfold storeFailed
  dsimp only at hrun ⊢
  rw [hrun]
  rfl

theorem storeFailed_loading (h : runningJob s model epoch = none) : storeFailed s ctrl lba model epoch =
    markUnusable (endLoadFailed (storeGone s ctrl lba model epoch) 0 true none) model epoch := by
  have hrun : runningJob (storeGone s ctrl lba model epoch) model epoch = none := (runningJob_congr storeGone_jobs).trans h
  unfold storeGone at hrun
  unfold storeFailed
  dsimp only at hrun ⊢
  rw [hrun]
  rfl

/-- What follows the loss of the Store copy. -/
theorem tierKept_storeFailed : TierKept (storeGone s ctrl lba model epoch) (storeFailed s ctrl lba model epoch) := by
  cases h : runningJob s model epoch with
  | some j =>
    rw [storeFailed_running (by rw [h]; rfl)]
    exact tierKept_ite (tierKept_missFetch tierKept_refl) (tierKept_abandonFetch (tierKept_missFetch tierKept_refl))
  | none =>
    rw [storeFailed_loading h]
    exact tierKept_markUnusable (tierKept_endLoadFailed tierKept_refl)

theorem storeFailed_noted (h : s.fieldsCanonical = true) : isSet (storeFailed s ctrl lba model epoch) F.MEM_STAT_STORE_ERR = true ∧
    getF (storeFailed s ctrl lba model epoch) F.MEM_CNT_STORE_ERR = satAdd 32 (getF s F.MEM_CNT_STORE_ERR) 1 := by
  obtain ⟨hset, hcount⟩ := storeGone_noted (ctrl := ctrl) (lba := lba) (model := model) (epoch := epoch) h
  exact ⟨(isSet_congr (tierKept_storeFailed.fields _ (by decide))).trans hset, (tierKept_storeFailed.fields _ (by decide)).trans hcount⟩

/-- The fields that a Store read which has failed for good can write. -/
def storeFailedFields : List Fld := F.MEM_STAT_STORE_ERR :: F.MEM_CNT_STORE_ERR :: tierWrites

theorem fieldsKept_storeFailed : fieldsKept storeFailedFields s (storeFailed s ctrl lba model epoch) := by
  refine fieldsKept_trans (t := storeGone s ctrl lba model epoch) ?_ (fieldsKept_mono tierKept_storeFailed.fields (by decide))
  exact fieldsKept_setF (t := memEvent s F.MEM_STAT_STORE_ERR 5 ctrl 0 7 lba) (fieldsKept_mono fieldsKept_memEvent (by decide)) (by decide)

theorem dirCanonical (h : s.memoryCanonical = true) : smapWf noEntry s.mem.dir = true := by
  simp only [State.memoryCanonical, Bool.and_eq_true] at h
  obtain ⟨⟨-, hdir⟩, -⟩ := h
  exact hdir

theorem smapWf_dirUpdEpoch {m : MemSt} {g : DirEntry → DirEntry} (h : smapWf noEntry m.dir = true) :
    smapWf noEntry (dirUpdEpoch m model epoch g).dir = true := by
  unfold dirUpdEpoch
  split
  · exact smapWf_dirUpd h
  · exact h

theorem storeFailed_store (h : s.memoryCanonical = true) (hfind : (dirFind s.mem model epoch).isSome = true) :
    (entryOf (storeFailed s ctrl lba model epoch).mem model epoch).store = false := by
  obtain ⟨k, hk⟩ := entryOf_dirUpdEpoch (g := fun e => { e with store := false }) (dirCanonical h) hfind fun _ => ⟨rfl, rfl, rfl⟩
  have hless := entriesLess_entryOf (model := model) (epoch := epoch) (tierKept_storeFailed (s := s) (ctrl := ctrl) (lba := lba)
    (model := model) (epoch := epoch)).entries (by rw [storeGone_mem]; exact smapWf_dirUpdEpoch (dirCanonical h))
  rw [hless.store, storeGone_mem, hk]

/-- In a span load the epoch is unusable (R307). -/
theorem storeFailed_unusable (h : s.memoryCanonical = true) (hrun : runningJob s model epoch = none)
    (hfind : (dirFind s.mem model epoch).isSome = true) : (entryOf (storeFailed s ctrl lba model epoch).mem model epoch).unusable = true := by
  have hwf : smapWf noEntry (storeGone s ctrl lba model epoch).mem.dir = true := by rw [storeGone_mem]; exact smapWf_dirUpdEpoch (dirCanonical h)
  have hend : TierKept (storeGone s ctrl lba model epoch) (endLoadFailed (storeGone s ctrl lba model epoch) 0 true none) :=
    tierKept_endLoadFailed tierKept_refl
  obtain ⟨hwf', -⟩ := hend.entries hwf
  rw [storeFailed_loading hrun]
  refine markUnusable_unusable hwf' ?_
  rw [entriesLess_dirFind hend.entries hwf, storeGone_mem,
    dirFind_dirUpdEpoch (g := fun e => { e with store := false }) (dirCanonical h) fun _ => ⟨rfl, rfl, rfl⟩]
  exact hfind

/-- A fetch that alone is queued ends without a command to a drive. -/
theorem storeFailed_out (hrun : (runningJob s model epoch).isSome = true)
    (honly : ∀ j ∈ s.mem.jobs, j.model = model ∧ j.epoch = epoch) : (storeFailed s ctrl lba model epoch).out = s.out := by
  have hmissed : (missFetch (storeGone s ctrl lba model epoch) model epoch).out = s.out := missFetch_out.trans (storeGone_out)
  rw [storeFailed_running hrun]
  split
  · exact hmissed
  · refine (abandonFetch_out fun j hj => ?_).trans hmissed
    obtain ⟨i, hi, hm, he⟩ := missFetch_jobs hj
    obtain ⟨hm', he'⟩ := honly i (storeGone_jobs ▸ hi)
    exact ⟨hm.trans hm', he.trans he'⟩

/-! ### A tag or metadata failure for good (R260) -/

theorem tagErr_noted (h : s.fieldsCanonical = true) :
    Noted F.MEM_STAT_TAG_FAIL F.MEM_CNT_TAG_FAIL s (bump (memEvent s F.MEM_STAT_TAG_FAIL 6 ctrl 0 7 lba) F.MEM_CNT_TAG_FAIL) :=
  memEvent_noted h (by decide) (by decide) (by decide)

theorem tagFailed_noted (h : s.fieldsCanonical = true) : isSet (tagFailed s ctrl lba model epoch) F.MEM_STAT_TAG_FAIL = true ∧
    getF (tagFailed s ctrl lba model epoch) F.MEM_CNT_TAG_FAIL = satAdd 32 (getF s F.MEM_CNT_TAG_FAIL) 1 := by
  refine noted_tierKept (tagErr_noted (ctrl := ctrl) (lba := lba) h) ?_ (by decide) (by decide)
  exact tierKept_markUnusable (tierKept_ite (tierKept_missFetch tierKept_refl) (tierKept_endLoadFailed tierKept_refl))

theorem tagFailed_unusable (hc : s.fieldsCanonical = true) (h : s.memoryCanonical = true) (hfind : (dirFind s.mem model epoch).isSome = true) :
    (entryOf (tagFailed s ctrl lba model epoch).mem model epoch).unusable = true := by
  have hmem := capturesOnly_mem (tagErr_noted (ctrl := ctrl) (lba := lba) hc).rest
  unfold tagFailed
  extract_lets t u
  change t.mem = s.mem at hmem
  have hwf : smapWf noEntry t.mem.dir = true := hmem ▸ dirCanonical h
  have hkept : TierKept t u := tierKept_ite (tierKept_missFetch tierKept_refl) (tierKept_endLoadFailed tierKept_refl)
  refine markUnusable_unusable (hkept.entries hwf).1 ?_
  rw [entriesLess_dirFind hkept.entries hwf, hmem]
  exact hfind

/-! ### A dropped controller -/

/-- The state in which the registers show that a controller has left. -/
def driveGone (s : State) (ctrl : Nat) : State :=
  let s := setBitF s F.MEM_STORE_LINK_DRIVES ctrl false
  setBool s F.MEM_STAT_STORE_UP (decide (getF s F.MEM_STORE_LINK_DRIVES ≠ 0))

theorem fieldsKept_driveGone : fieldsKept [F.MEM_STORE_LINK_DRIVES, F.MEM_STAT_STORE_UP] s (driveGone s ctrl) :=
  fieldsKept_setF (t := setBitF s F.MEM_STORE_LINK_DRIVES ctrl false) (fieldsKept_setF fieldsKept_refl (by decide)) (by decide)

theorem driveGone_shows (h : s.fieldsCanonical = true) (hctrl : ctrl < 16) : bitF (driveGone s ctrl) F.MEM_STORE_LINK_DRIVES ctrl = false ∧
    (∀ c, c < 16 → c ≠ ctrl → bitF (driveGone s ctrl) F.MEM_STORE_LINK_DRIVES c = bitF s F.MEM_STORE_LINK_DRIVES c) ∧
    isSet (driveGone s ctrl) F.MEM_STAT_STORE_UP = decide (getF (driveGone s ctrl) F.MEM_STORE_LINK_DRIVES ≠ 0) := by
  have hc : (setBitF s F.MEM_STORE_LINK_DRIVES ctrl false).fieldsCanonical = true := setBitF_canonical h
  have hdrives : getF (driveGone s ctrl) F.MEM_STORE_LINK_DRIVES = getF (setBitF s F.MEM_STORE_LINK_DRIVES ctrl false) F.MEM_STORE_LINK_DRIVES :=
    Laws.getF_setF_other _ _ _ _ (by decide)
  have hbit {c : Nat} (hlt : c < 16) : bitF (driveGone s ctrl) F.MEM_STORE_LINK_DRIVES c =
      (bitF s F.MEM_STORE_LINK_DRIVES c && decide (c ≠ ctrl)) :=
    (congrArg (bitOf · c) hdrives).trans (bitF_setBitF_false h hlt)
  refine ⟨by simp [hbit hctrl], fun c hlt hne => by simp [hbit hlt, hne], ?_⟩
  rw [hdrives, driveGone, isSet, setBool, getF_setF hc, if_pos rfl]
  by_cases hup : getF (setBitF s F.MEM_STORE_LINK_DRIVES ctrl false) F.MEM_STORE_LINK_DRIVES = 0
  · simp [hup]
  · simp [hup]

/-- With no Store read outstanding nothing fails. -/
theorem storeControllerDrop_idle (h : ∀ r ∈ s.mem.recs, readsStore s r.model r.epoch = false) : storeControllerDrop ctrl s = driveGone s ctrl := by
  have hnone : (driveGone s ctrl).mem.recs.filter (fun r => readsStore (driveGone s ctrl) r.model r.epoch) = [] :=
    List.filter_eq_nil_iff.2 fun r hr => by rw [show readsStore (driveGone s ctrl) r.model r.epoch = false from h r hr]; exact Bool.false_ne_true
  unfold driveGone at hnone
  unfold storeControllerDrop
  dsimp only at hnone ⊢
  rw [hnone]
  rfl

theorem fieldsKept_storeControllerDrop : fieldsKept storeFailedFields (driveGone s ctrl) (storeControllerDrop ctrl s) := by
  unfold storeControllerDrop
  refine List.foldlRecOn _ _ fieldsKept_refl fun t ht r _ => ?_
  split
  · exact fieldsKept_trans ht fieldsKept_storeFailed
  · exact ht

/-! ### Log pages -/

theorem logPagePoll_sends : logPagePoll s = { s with out := (logPagePoll s).out } ∧ (logPagePoll s).out =
    s.out ++ ((List.range 16).filter (bitF s F.MEM_STORE_LINK_DRIVES)).flatMap (fun c => [.nvme c 0 true 2 1, .nvme c 0 true 2 2]) := by
  unfold logPagePoll
  generalize (List.range 16).filter (bitF s F.MEM_STORE_LINK_DRIVES) = l
  induction l generalizing s with
  | nil => exact ⟨rfl, (List.append_nil _).symm⟩
  | cons c l ih =>
    obtain ⟨hrest, hout⟩ := ih (s := emit (emit s (.nvme c 0 true 2 1)) (.nvme c 0 true 2 2))
    refine ⟨hrest.trans rfl, hout.trans ?_⟩
    simp [emit]

end

/-- Settles O54: a read that fails for the first time is sent again (`readAgain`); `storeFailed` and `tagFailed` note the second failure, and what follows it
leaves both that and the directory's answer (`TierKept`). -/
theorem storeReadsEnd : Obligations.StoreReadsEnd := by
  intro s hc hm
  refine ⟨fun ctrl lba model epoch hreads => ⟨?_, fun hfresh => ?_, fun hfresh => ?_, fun hfresh => ?_, fun hrun hfind => ⟨fun hagain => ?_, fun hagain => ?_⟩,
    fun hrun hfind hagain => ?_⟩, fun ctrl hctrl => ?_, ?_⟩
  case refine_1 => exact ⟨_, exec_storeReadComplete, by rw [storeReadComplete_ok hreads]; exact ⟨rfl, rfl⟩⟩
  case refine_2 =>
    refine ⟨_, exec_storeReadComplete, ?_⟩
    rw [storeReadComplete_error hreads, if_neg hfresh]
    exact ⟨rfl, readAgain_retries, rfl, rfl, fun _ => rfl, fun _ => rfl⟩
  case refine_3 =>
    refine ⟨_, exec_storeReadTimeout, ?_⟩
    rw [storeReadTimeout_eq hreads, storeReadComplete_error (s := emit s (.nvme ctrl 0 true 8 lba)) hreads,
      if_neg (c := (ctrl, lba, false) ∈ (emit s (.nvme ctrl 0 true 8 lba)).mem.retries) hfresh]
    exact ⟨List.append_assoc _ _ _, readAgain_retries, rfl, fun _ => rfl, fun _ => rfl⟩
  case refine_4 =>
    refine ⟨_, exec_storeReadComplete, ?_⟩
    rw [storeReadComplete_tagFail hreads, if_neg hfresh]
    exact ⟨rfl, readAgain_retries, rfl, fun _ => rfl, fun _ => rfl⟩
  case refine_5 =>
    refine ⟨_, exec_storeReadComplete, ?_⟩
    rw [storeReadComplete_error hreads, if_pos hagain]
    have hc' : (dropRetry s ctrl lba).fieldsCanonical = true := hc
    have hm' : (dropRetry s ctrl lba).memoryCanonical = true := dropRetry_memoryCanonical.trans hm
    rw [← dropRetry_dirFind (ctrl := ctrl) (lba := lba)] at hfind
    rw [← dropRetry_runningJob (ctrl := ctrl) (lba := lba)] at hrun
    obtain ⟨hset, hcount⟩ := storeFailed_noted (ctrl := ctrl) (lba := lba) (model := model) (epoch := epoch) hc'
    exact ⟨hset, hcount, storeFailed_store hm' hfind, fun honly => (storeFailed_out hrun honly).trans rfl⟩
  case refine_6 =>
    refine ⟨_, exec_storeReadComplete, ?_⟩
    rw [storeReadComplete_tagFail hreads, if_pos hagain]
    have hc' : (dropRetry s ctrl lba).fieldsCanonical = true := hc
    have hm' : (dropRetry s ctrl lba).memoryCanonical = true := dropRetry_memoryCanonical.trans hm
    rw [← dropRetry_dirFind (ctrl := ctrl) (lba := lba)] at hfind
    obtain ⟨hset, hcount⟩ := tagFailed_noted (ctrl := ctrl) (lba := lba) (model := model) (epoch := epoch) hc'
    exact ⟨hset, hcount, tagFailed_unusable hc' hm' hfind⟩
  case refine_7 =>
    refine ⟨_, exec_storeReadComplete, ?_⟩
    rw [storeReadComplete_error hreads, if_pos hagain]
    have hc' : (dropRetry s ctrl lba).fieldsCanonical = true := hc
    have hm' : (dropRetry s ctrl lba).memoryCanonical = true := dropRetry_memoryCanonical.trans hm
    rw [← dropRetry_dirFind (ctrl := ctrl) (lba := lba)] at hfind
    rw [← dropRetry_runningJob (ctrl := ctrl) (lba := lba)] at hrun
    obtain ⟨hset, hcount⟩ := storeFailed_noted (ctrl := ctrl) (lba := lba) (model := model) (epoch := epoch) hc'
    exact ⟨hset, hcount, storeFailed_unusable hm' hrun hfind⟩
  case refine_8 =>
    obtain ⟨hgone, hothers, hup⟩ := driveGone_shows hc hctrl
    have hkept : fieldsKept storeFailedFields (driveGone s ctrl) (storeControllerDrop ctrl s) := fieldsKept_storeControllerDrop
    have hdrives := hkept F.MEM_STORE_LINK_DRIVES (by decide)
    refine ⟨_, exec_storeControllerDrop, (congrArg (bitOf · ctrl) hdrives).trans hgone,
      fun c hlt hne => (congrArg (bitOf · c) hdrives).trans (hothers c hlt hne), ?_, fun hidle => ?_⟩
    · rw [isSet_congr (hkept F.MEM_STAT_STORE_UP (by decide)), hdrives]
      exact hup
    · rw [storeControllerDrop_idle hidle]
      exact ⟨fieldsKept_driveGone, rfl, rfl⟩
  case refine_9 => exact ⟨_, exec_logPagePoll, logPagePoll_sends⟩

end Sys2Proof.Proofs

/-! SUPPORT. Fetched shards (R266, R267, R269, R273, R288, R293, R294): what a shard's bytes come to in Near, and what ends a fetch. -/
namespace Sys2Proof.Proofs
open Sys2Proof Sys2Proof.Machine

/-! ### Bytes through an address map -/

section
variable {m : List Host.Cell} {addr : Nat → Nat} {bs : List Byte} {o i : Nat}

theorem writeBytes_same (hm : Memory.wf m = true) (hinj : ∀ j < bs.length, addr (o + j) = addr (o + i) → j = i) (hi : i < bs.length) :
    smapGet zeroByte (writeBytes addr m o bs) (addr (o + i)) = bs.getD i 0#8 := by
  induction bs generalizing m o i with
  | nil => exact absurd hi (Nat.not_lt_zero _)
  | cons b bs ih =>
    rw [writeBytes]
    cases i with
    | zero =>
      rw [Laws.writeBytes_other]
      · exact Laws.smapGet_set_same zeroByte m (addr o) b (Laws.smapWf_iff.1 hm).1
      · intro j hj heq
        have hzero := hinj (j + 1) (Nat.succ_lt_succ hj) (by rw [Nat.add_zero, heq]; congr 1; omega)
        omega
    | succ i =>
      have hstep : o + (i + 1) = o + 1 + i := by omega
      rw [hstep, ih (Laws.memory_wf_set _ _ hm) (fun j hj heq => ?_) (Nat.lt_of_succ_lt_succ hi)]
      · rfl
      · have hnext := hinj (j + 1) (Nat.succ_lt_succ hj) (by rw [show o + (j + 1) = o + 1 + j by omega, hstep]; exact heq)
        omega

/-- Content offsets within distinct units lie at distinct addresses. -/
theorem nearAddr_inj {stack : Nat} {units : List Nat} (hunits : units.Nodup) {j : Nat} (hj : j < unitBytes * units.length) (hi : i < unitBytes * units.length)
    (h : nearAddr stack units j = nearAddr stack units i) : j = i := by
  unfold nearAddr unitBytes at *
  have hji : j / 2097152 < units.length := by omega
  have hii : i / 2097152 < units.length := by omega
  rw [List.getD_eq_getElem _ _ hji, List.getD_eq_getElem _ _ hii] at h
  have hunit : units[j / 2097152] = units[i / 2097152] := by omega
  have hsame := (List.Nodup.getElem_inj_iff hunits).1 hunit
  omega

end

section
variable {s t : State} {m : MemSt} {model epoch a b k off : Nat} {h : ShardRec} {r : EpochRec} {j : FetchJob} {bytes : List Byte} {out raw : List Nat}

/-- A shard's bytes are in Near, one by one, and nothing else there changes. -/
theorem fillNear_near (hm : s.memoryCanonical = true) (hlen : out.length ≤ unitBytes * h.nearUnits.length) (hunits : h.nearUnits.Nodup) :
    (∀ o, o < out.length → smapGet zeroByte (fillNear s h out).mem.near (nearAddr h.nearStack h.nearUnits o) = BitVec.ofNat 8 (out.getD o 0)) ∧
    ∀ a, (∀ o, o < out.length → nearAddr h.nearStack h.nearUnits o ≠ a) →
      smapGet zeroByte (fillNear s h out).mem.near a = smapGet zeroByte s.mem.near a := by
  have hwf : Memory.wf s.mem.near = true := by
    simp only [State.memoryCanonical, Bool.and_eq_true] at hm
    obtain ⟨⟨⟨hnear, -⟩, -⟩, -⟩ := hm
    exact hnear
  constructor
  · intro o ho
    have hmap : o < (out.map (fun b => BitVec.ofNat 8 b)).length := by simpa using ho
    have hsame := writeBytes_same (addr := nearAddr h.nearStack h.nearUnits) (o := 0) hwf (fun j hj heq => ?_) hmap
    · rw [Nat.zero_add] at hsame
      refine hsame.trans ?_
      rw [List.getD_eq_getElem _ _ hmap, List.getD_eq_getElem _ _ ho, List.getElem_map]
    · rw [Nat.zero_add, Nat.zero_add] at heq
      rw [List.length_map] at hj
      exact nearAddr_inj hunits (by omega) (by omega) heq
  · intro a ha
    refine Laws.writeBytes_other _ a _ _ 0 fun i hi => ?_
    rw [Nat.zero_add]
    rw [List.length_map] at hi
    exact (ha i hi).symm

/-! ### Records of epochs -/

/-- An epoch's record is found where it was, as it has been changed. -/
theorem recFind_recUpd {g : EpochRec → EpochRec} (hg : ∀ r, (g r).model = r.model ∧ (g r).epoch = r.epoch) :
    recFind (recUpd m a b g) model epoch = (recFind m model epoch).map (fun r => if r.model = a && r.epoch = b then g r else r) := by
  unfold recFind recUpd
  rw [List.find?_map]
  congr 1
  refine congrArg (List.find? · m.recs) (funext fun r => ?_)
  dsimp only [Function.comp]
  split
  · obtain ⟨hmodel, hepoch⟩ := hg r
    rw [hmodel, hepoch]
  · rfl

theorem recFind_name (hr : recFind m model epoch = some r) : r.model = model ∧ r.epoch = epoch := by
  simpa using List.find?_some hr

theorem mapIdx_eq_set {g : ShardRec → ShardRec} {l : List ShardRec} (hk : l[k]? = some h) :
    l.mapIdx (fun i x => if i = k then g x else x) = l.set k (g h) := by
  refine List.ext_getElem? fun i => ?_
  rw [List.getElem?_mapIdx, List.getElem?_set]
  by_cases hik : k = i
  · subst hik
    obtain ⟨hlt, rfl⟩ := List.getElem?_eq_some_iff.1 hk
    simp [hlt]
  · simp [hik, Ne.symm hik]

/-- A shard of a record has been changed. -/
theorem recFind_shardUpd {g : ShardRec → ShardRec} (hr : recFind m model epoch = some r) (hk : r.shards[k]? = some h) :
    recFind (shardUpd m model epoch k g) model epoch = some { r with shards := r.shards.set k (g h) } := by
  obtain ⟨hmodel, hepoch⟩ := recFind_name hr
  rw [shardUpd]
  refine (recFind_recUpd (by exact fun _ => ⟨rfl, rfl⟩)).trans ?_
  rw [hr]
  simp only [Option.map_some, hmodel, hepoch, decide_true, Bool.and_self, if_true, mapIdx_eq_set hk]

/-! ### Copies to Bulk -/

/-- What a record says of its shards' copies in Near. -/
def shardsInNear (r : EpochRec) : List (Bool × Bool) := r.shards.map (fun h => (h.written, h.fromBulk))

/-- Between `m` and `m'` only Bulk has moved: Near is as it was, and so is what the records say of it. -/
structure BulkOnly (m m' : MemSt) : Prop where
  near : m'.near = m.near
  recs : ∀ model epoch, (recFind m' model epoch).map shardsInNear = (recFind m model epoch).map shardsInNear

theorem bulkOnly_refl : BulkOnly m m := ⟨rfl, fun _ _ => rfl⟩

theorem bulkOnly_trans {m' n : MemSt} (h : BulkOnly m m') (h' : BulkOnly m' n) : BulkOnly m n :=
  ⟨h'.near.trans h.near, fun model epoch => (h'.recs model epoch).trans (h.recs model epoch)⟩

theorem bulkOnly_recUpd {g : EpochRec → EpochRec} (hg : ∀ r, (g r).model = r.model ∧ (g r).epoch = r.epoch)
    (hshards : ∀ r, shardsInNear (g r) = shardsInNear r) : BulkOnly m (recUpd m a b g) := by
  refine ⟨rfl, fun model epoch => ?_⟩
  rw [recFind_recUpd hg, Option.map_map]
  refine congrArg (Option.map · _) (funext fun r => ?_)
  dsimp only [Function.comp]
  split
  · exact hshards r
  · rfl

theorem bulkOnly_shardUpd {g : ShardRec → ShardRec} (hg : ∀ h, (g h).written = h.written ∧ (g h).fromBulk = h.fromBulk) :
    BulkOnly m (shardUpd m model epoch k g) := by
  refine bulkOnly_recUpd (fun _ => ⟨rfl, rfl⟩) fun r => ?_
  unfold shardsInNear
  refine List.ext_getElem? fun i => ?_
  rw [List.getElem?_map, List.getElem?_map, List.getElem?_mapIdx, Option.map_map]
  refine congrArg (Option.map · _) (funext fun x => ?_)
  dsimp only [Function.comp]
  split
  · obtain ⟨hwritten, hfrom⟩ := hg x
    rw [hwritten, hfrom]
  · rfl

theorem dirUpd_recs {g : DirEntry → DirEntry} {i : Nat} : (dirUpd m i g).recs = m.recs ∧ (dirUpd m i g).near = m.near := by
  unfold dirUpd
  dsimp only
  split <;> exact ⟨rfl, rfl⟩

theorem bulkOnly_claimBulk {i : Nat} : BulkOnly m (claimBulk m i) := by
  obtain ⟨hrecs, hnear⟩ := dirUpd_recs (m := m) (i := i) (g := fun e => { e with bulk := false })
  refine bulkOnly_trans (m' := dirUpd m i (fun e => { e with bulk := false })) ⟨hnear, fun model epoch => by rw [recFind, recFind, hrecs]⟩ ?_
  refine bulkOnly_recUpd (fun _ => ⟨rfl, rfl⟩) fun r => ?_
  simp [shardsInNear]

theorem bulkOnly_placeBulk {side need : Nat} {m' : MemSt} (e : placeBulk s model epoch k side need m = some m') : BulkOnly m m' := by
  have hplaced {g : ShardRec → ShardRec} {bulk : List Host.Cell} (hg : ∀ h, (g h).written = h.written ∧ (g h).fromBulk = h.fromBulk) :
      BulkOnly m { shardUpd m model epoch k g with bulk := bulk } :=
    have hshard := bulkOnly_shardUpd (m := m) (model := model) (epoch := epoch) (k := k) hg
    ⟨hshard.near, hshard.recs⟩
  unfold placeBulk at e
  dsimp only at e
  split at e
  · next hfirst =>
    split at hfirst
    · cases e
      cases hfirst
      exact hplaced fun _ => ⟨rfl, rfl⟩
    · cases hfirst
  · split at e
    · cases e
      exact hplaced fun _ => ⟨rfl, rfl⟩
    · cases e

theorem bulkOnly_reserveBulk_go {side need c : Nat} {l : List Nat} {x : MemSt × Nat} (e : reserveBulk.go s model epoch k side need l m c = some x) :
    BulkOnly m x.1 := by
  induction l generalizing m c with
  | nil =>
    obtain ⟨m', hm', rfl⟩ := Option.map_eq_some_iff.1 e
    exact bulkOnly_placeBulk hm'
  | cons i l ih =>
    unfold reserveBulk.go at e
    split at e
    · next hm' =>
      cases e
      exact bulkOnly_placeBulk hm'
    · exact bulkOnly_trans bulkOnly_claimBulk (ih e)

/-- The copy of a shard in Bulk leaves Near, the records of what is there, and the requests. -/
theorem copyToBulk_only : BulkOnly s.mem (copyToBulk s model epoch k h bytes).mem ∧ (copyToBulk s model epoch k h bytes).adm = s.adm := by
  unfold copyToBulk
  split
  · next t ht =>
    obtain ⟨x, hx, rfl⟩ := Option.map_eq_some_iff.1 ht
    have hreserved : BulkOnly s.mem x.1 := bulkOnly_reserveBulk_go hx
    split
    · refine ⟨bulkOnly_trans hreserved ?_, rfl⟩
      have hshard := bulkOnly_shardUpd (m := x.1) (model := model) (epoch := epoch) (k := k) (g := fun h => { h with inBulk := true }) fun _ => ⟨rfl, rfl⟩
      exact ⟨hshard.near, hshard.recs⟩
    · exact ⟨hreserved, rfl⟩
  · exact ⟨bulkOnly_refl, rfl⟩

end
end Sys2Proof.Proofs

/-! SUPPORT. Fetches that end, are missed, or turn to Store (R244, R266, R267, R273, R294). -/
namespace Sys2Proof.Proofs
open Sys2Proof Sys2Proof.Machine

section
variable {s t u : State} {m m' : MemSt} {model epoch k off : Nat} {h : ShardRec} {r : EpochRec} {j : FetchJob} {b : Bool} {x : Nat}

/-! ### Reads are issued (R255) -/

/-- A job, whether its Reads have been issued or not. -/
def unissued (j : FetchJob) : FetchJob := { j with issued := false }

/-- Between `s` and `t` a fetch at most issued its Reads. -/
structure IssuedOnly (s t : State) : Prop where
  mem : ∃ jobs, t.mem = { s.mem with jobs := jobs } ∧ jobs.map unissued = s.mem.jobs.map unissued
  flds : t.flds = s.flds
  adm : t.adm = s.adm

theorem issuedOnly_refl : IssuedOnly s s := ⟨⟨_, rfl, rfl⟩, rfl, rfl⟩

theorem issuedOnly_readRuns {l : List BlockRun} (ht : IssuedOnly s t) : IssuedOnly s (l.foldl readRun t) :=
  List.foldlRecOn _ _ ht fun _ ht _ _ => List.foldlRecOn _ _ ht fun _ ht _ _ => ⟨ht.mem, ht.flds, ht.adm⟩

theorem issuedOnly_issueReads : IssuedOnly s (issueReads s) := by
  unfold issueReads
  split
  · next j _ =>
    split
    · exact issuedOnly_refl
    · refine issuedOnly_readRuns ⟨⟨_, rfl, ?_⟩, rfl, rfl⟩
      rw [List.map_map]
      refine List.map_congr_left fun i _ => ?_
      dsimp only [Function.comp]
      split <;> rfl
  · exact issuedOnly_refl

/-! ### The running fetch -/

theorem runningJob_find (hj : runningJob s model epoch = some j) : s.mem.jobs.find? (fun j => j.model == model && j.epoch == epoch) = some j := by
  unfold runningJob at hj
  split at hj
  · next i hi =>
    split at hj
    · split at hj
      · cases hj
        exact hi
      · cases hj
    · cases hj
  · cases hj

theorem jobFind_name (hj : s.mem.jobs.find? (fun j => j.model == model && j.epoch == epoch) = some j) : j.model = model ∧ j.epoch = epoch := by
  simpa using List.find?_some hj

/-- The end of a fetch that is queued: it leaves its queue, whose planned time is that of the rest. -/
theorem endJob_found (hj : s.mem.jobs.find? (fun j => j.model == model && j.epoch == epoch) = some j) : ∃ x, IssuedOnly
    (setF (setMem s { s.mem with jobs := s.mem.jobs.filter (fun k => !(k.model == model && k.epoch == epoch)) }) (busyF j.fromStore) x)
    (endJob s model epoch) := by
  rw [endJob, hj]
  exact ⟨_, issuedOnly_issueReads⟩

/-! ### Entries and Bulk beside the queues -/

theorem dirFind_of_dir (hdir : m'.dir = m.dir) : dirFind m' model epoch = dirFind m model epoch := by
  simp only [dirFind, dirGet, hdir]

theorem entryOf_of_dir (hdir : m'.dir = m.dir) : entryOf m' model epoch = entryOf m model epoch := by
  simp only [entryOf, dirFind, dirGet, hdir]

@[simp] theorem freeEpochUnits_bulk : (freeEpochUnits m model epoch).bulk = m.bulk := by
  unfold freeEpochUnits dropModelRegion
  split <;> rfl

@[simp] theorem dirUpdEpoch_bulk {g : DirEntry → DirEntry} : (dirUpdEpoch m model epoch g).bulk = m.bulk := by
  unfold dirUpdEpoch dirUpd
  split
  · dsimp only
    split <;> rfl
  · rfl

theorem endJob_bulk : (endJob s model epoch).mem.bulk = s.mem.bulk := by
  cases hj : s.mem.jobs.find? (fun j => j.model == model && j.epoch == epoch) with
  | none => rw [endJob, hj]
  | some j =>
    obtain ⟨x, ⟨jobs, hmem, -⟩, -, -⟩ := endJob_found hj
    rw [hmem]
    rfl

theorem missFetch_bulk : (missFetch s model epoch).mem.bulk = s.mem.bulk := by
  unfold missFetch
  split <;> rfl

theorem failWhere_mem {c : Cause} {q : Req → Bool} {d : Option Stamp} : (failWhere s c q d).mem = s.mem := by
  obtain ⟨_, _, _, _, hreqs⟩ := reqsOnly_failWhere (s := s) (c := c) (q := q) (b := d) reqsOnly_refl
  rw [hreqs]

theorem markUnusable_bulk : (markUnusable s model epoch).mem.bulk = s.mem.bulk := by
  unfold markUnusable
  dsimp only
  rw [failWhere_mem]
  split
  · exact freeEpochUnits_bulk.trans (dirUpdEpoch_bulk.trans (endJob_bulk.trans dirUpdEpoch_bulk))
  · exact dirUpdEpoch_bulk

/-! ### A fetch turns to Store (R244, R273, R294) -/

/-- The epoch's copies in Bulk are forgotten. -/
def bulkGone (s : State) (model epoch : Nat) : State :=
  setMem s (recUpd (dirUpdEpoch s.mem model epoch (fun e => { e with bulk := false })) model epoch (fun r =>
    { r with shards := r.shards.map (fun h => { h with inBulk := false, bulkUnits := [] }) }))

theorem bulkGone_jobs : (bulkGone s model epoch).mem.jobs = s.mem.jobs := dirUpdEpoch_jobs

theorem tierKept_refetchFromStore : TierKept (bulkGone s model epoch) (refetchFromStore s model epoch) := by
  unfold refetchFromStore
  extract_lets e gone t
  change TierKept t _
  split
  · refine tierKept_ite tierKept_refl (tierKept_ite (tierKept_abandonFetch (tierKept_missFetch tierKept_refl)) ?_)
    exact tierKept_issueReads (tierKept_rebusy (tierKept_setF (tierKept_setMem tierKept_refl (entriesLess_of_dir rfl)) (by decide)))
  · exact tierKept_refl

theorem refetchFromStore_bulk (hwf : smapWf noEntry s.mem.dir = true) (hfind : (dirFind s.mem model epoch).isSome = true) :
    (entryOf (refetchFromStore s model epoch).mem model epoch).bulk = false := by
  obtain ⟨k, hk⟩ := entryOf_dirUpdEpoch (g := fun e => { e with bulk := false }) hwf hfind fun _ => ⟨rfl, rfl, rfl⟩
  have hgone : smapWf noEntry (bulkGone s model epoch).mem.dir = true := smapWf_dirUpdEpoch hwf
  refine (entriesLess_entryOf tierKept_refetchFromStore.entries hgone).bulk ?_
  rw [bulkGone, setMem, entryOf_of_dir recUpd_dir, hk]

/-- An epoch is in the queue of fetches from Store. -/
def HasStoreJob (s : State) (model epoch : Nat) : Prop := ∃ i ∈ s.mem.jobs, i.model = model ∧ i.epoch = epoch ∧ i.fromStore = true

theorem hasStoreJob_issueReads (hs : HasStoreJob s model epoch) : HasStoreJob (issueReads s) model epoch := by
  obtain ⟨i, hi, hmodel, hepoch, hfrom⟩ := hs
  obtain ⟨jobs, hmem, hjobs⟩ := (issuedOnly_issueReads (s := s)).mem
  have hmap : unissued i ∈ jobs.map unissued := hjobs ▸ List.mem_map_of_mem hi
  obtain ⟨n, hn, heq⟩ := List.mem_map.1 hmap
  simp only [unissued, FetchJob.mk.injEq] at heq
  obtain ⟨hm, he, hf, -⟩ := heq
  refine ⟨n, ?_, hm.trans hmodel, he.trans hepoch, hf.trans hfrom⟩
  rw [hmem]
  exact hn

theorem hasStoreJob_rebusy (hs : HasStoreJob s model epoch) : HasStoreJob (rebusy s b) model epoch := hasStoreJob_issueReads hs

/-- A fetch from Bulk whose epoch Store has is queued there. -/
theorem refetchFromStore_job (hj : s.mem.jobs.find? (fun j => j.model == model && j.epoch == epoch) = some j) (hfrom : j.fromStore = false)
    (hstore : (entryOf s.mem model epoch).store = true) :
    HasStoreJob (refetchFromStore s model epoch) model epoch := by
  unfold refetchFromStore
  extract_lets e gone t
  have hjt : t.mem.jobs.find? (fun j => j.model == model && j.epoch == epoch) = some j := by
    change (bulkGone s model epoch).mem.jobs.find? _ = _
    rw [bulkGone_jobs, hj]
  have hstore : (!e.store) = false := by rw [show e.store = true from hstore]; rfl
  obtain ⟨hmodel, hepoch⟩ := jobFind_name hj
  rw [hjt]
  dsimp only
  rw [hfrom, hstore]
  exact hasStoreJob_issueReads (hasStoreJob_rebusy ⟨_, List.mem_append_right _ (List.mem_singleton.2 rfl), hmodel, hepoch, rfl⟩)

end
end Sys2Proof.Proofs

/-! SUPPORT. What a shard's bytes, a digest and a bound come to (R266, R267, R273, R288, R293). -/
namespace Sys2Proof.Proofs
open Sys2Proof Sys2Proof.Machine

section
variable {s t : State} {m : MemSt} {model epoch k off : Nat} {h : ShardRec} {r : EpochRec} {j : FetchJob} {b : Bool} {bytes : List Byte} {out : List Nat}

theorem exec_shardWritten {x : Option (List Byte)} : exec (.shardWritten model epoch k x) s = .next (shardWritten model epoch k x s) := rfl

theorem exec_digestComplete : exec (.digestComplete model epoch k) s = .next (digestComplete model epoch k s) := rfl

theorem exec_fetchComplete : exec (.fetchComplete model epoch) s = .next (fetchComplete model epoch s) := rfl

theorem exec_fetchBoundExpiry : exec (.fetchBoundExpiry model epoch) s = .next (fetchBoundExpiry model epoch s) := rfl

/-! ### Shards that arrive (R266, R267) -/

/-- Bytes that do not cross to the shard's side. -/
theorem shardWritten_none (hj : runningJob s model epoch = some j) (hr : recFind s.mem model epoch = some r) (hk : r.shards[k]? = some h)
    (hplaced : h.placed = true) (hwritten : h.written = false) (hcross : crosses j.fromStore h = true) :
    shardWritten model epoch k none s = missFetch s model epoch := by
  simp [shardWritten, hj, hr, hk, hplaced, hwritten, hcross]

theorem shardWritten_store (hj : runningJob s model epoch = some j) (hr : recFind s.mem model epoch = some r) (hk : r.shards[k]? = some h)
    (hplaced : h.placed = true) (hwritten : h.written = false) (hfrom : j.fromStore = true) (hhere : lostBlock s h = none) :
    shardWritten model epoch k (some bytes) s = landShard s model epoch k h false ((bytes ++ List.replicate h.clen 0#8).take h.clen) := by
  simp [shardWritten, hj, hr, hk, hplaced, hwritten, hfrom, hhere]

theorem shardWritten_bulk (hj : runningJob s model epoch = some j) (hr : recFind s.mem model epoch = some r) (hk : r.shards[k]? = some h)
    (hplaced : h.placed = true) (hwritten : h.written = false) (hfrom : j.fromStore = false) :
    shardWritten model epoch k (some bytes) s = landShard s model epoch k h true (bulkShard s h) := by
  simp [shardWritten, hj, hr, hk, hplaced, hwritten, hfrom]

/-- A shard that has passed its CRC is in Near. -/
def shardLanded (s : State) (model epoch k : Nat) (h : ShardRec) (bulk : Bool) (out : List Nat) : State :=
  setMem (fillNear s h out) (shardUpd (fillNear s h out).mem model epoch k (fun h => { h with written := true, digestOk := false, fromBulk := bulk }))

/-- A shard that fails its CRC is reported, and counts as a defective block too. -/
def crcFailed (s : State) (model epoch k : Nat) : State := bump (wgtEvent s F.WGT_STAT_CRC_FAIL 3 model epoch k) F.WGT_CNT_CRC_FAIL

theorem landShard_eq : landShard s model epoch k h b bytes = (decompress h.ulen (bytes.map BitVec.toNat)).elim
    (defective s model epoch h b (badBlock (ceilDiv h.ulen 65536) h.ulen 0 (bytes.map BitVec.toNat)))
    (fun out => if crc32 out ≠ h.crc then defective (crcFailed (fillNear s h out) model epoch k) model epoch h b 0
      else if b then shardLanded s model epoch k h b out else copyToBulk (shardLanded s model epoch k h b out) model epoch k h bytes) := by
  unfold landShard
  dsimp only
  generalize decompress h.ulen (bytes.map BitVec.toNat) = x
  cases x <;> rfl

theorem landShard_garbled (hout : decompress h.ulen (bytes.map BitVec.toNat) = none) :
    landShard s model epoch k h b bytes = defective s model epoch h b (badBlock (ceilDiv h.ulen 65536) h.ulen 0 (bytes.map BitVec.toNat)) := by
  rw [landShard_eq, hout, Option.elim_none]

theorem landShard_passes (hout : decompress h.ulen (bytes.map BitVec.toNat) = some out) (hcrc : crc32 out = h.crc) :
    landShard s model epoch k h b bytes =
      if b then shardLanded s model epoch k h b out else copyToBulk (shardLanded s model epoch k h b out) model epoch k h bytes := by
  rw [landShard_eq, hout, Option.elim_some, if_neg (not_not_intro hcrc)]

theorem landShard_fails (hout : decompress h.ulen (bytes.map BitVec.toNat) = some out) (hcrc : crc32 out ≠ h.crc) :
    landShard s model epoch k h b bytes = defective (crcFailed (fillNear s h out) model epoch k) model epoch h b 0 := by
  rw [landShard_eq, hout, Option.elim_some, if_pos hcrc]

theorem recFind_shardLanded (hr : recFind s.mem model epoch = some r) (hk : r.shards[k]? = some h) :
    recFind (shardLanded s model epoch k h b out).mem model epoch =
      some { r with shards := r.shards.set k { h with written := true, digestOk := false, fromBulk := b } } :=
  recFind_shardUpd (m := (fillNear s h out).mem) hr hk

theorem crcFailed_noted (hc : s.fieldsCanonical = true) : Noted F.WGT_STAT_CRC_FAIL F.WGT_CNT_CRC_FAIL s (crcFailed s model epoch k) :=
  wgtEvent_noted hc (by decide) (by decide) (by decide)

/-! ### Defective blocks (R273, R288) -/

/-- A defective block is noted, with the place of its copy. -/
def codecFailed (s : State) (h : ShardRec) (bulk : Bool) (off : Nat) : State :=
  bump (memEvent s F.MEM_STAT_CODEC_FAIL 7 h.side 0 (if bulk then 2 else 7)
    (if bulk then bulkAddr h.bulkSide h.bulkUnits off else (blockAt h (off / 4096)).2)) F.MEM_CNT_CODEC_FAIL

theorem codecFailed_noted (hc : s.fieldsCanonical = true) : Noted F.MEM_STAT_CODEC_FAIL F.MEM_CNT_CODEC_FAIL s (codecFailed s h b off) :=
  memEvent_noted hc (by decide) (by decide) (by decide)

theorem defective_store : defective s model epoch h false off =
    markUnusable (missFetch (codecFailed s h false off) model epoch) model epoch := by
  simp only [defective, codecFailed, Bool.false_eq_true, if_false]

theorem defective_bulk : defective s model epoch h true off = refetchFromStore (codecFailed s h true off) model epoch := by
  simp only [defective, codecFailed, if_true]

/-- An epoch that a defect from Store makes unusable; Bulk is left alone. -/
theorem markUnusable_missFetch (hm : s.mem.dir = m.dir) (hwf : smapWf noEntry m.dir = true) (hfind : (dirFind m model epoch).isSome = true) :
    (entryOf (markUnusable (missFetch s model epoch) model epoch).mem model epoch).unusable = true ∧
      (markUnusable (missFetch s model epoch) model epoch).mem.bulk = s.mem.bulk := by
  have hdir : (missFetch s model epoch).mem.dir = m.dir := missFetch_dir.trans hm
  refine ⟨markUnusable_unusable (hdir ▸ hwf) ?_, markUnusable_bulk.trans missFetch_bulk⟩
  rw [dirFind_of_dir hdir]
  exact hfind

theorem tierKept_markMissed : TierKept s (markUnusable (missFetch s model epoch) model epoch) :=
  tierKept_markUnusable (tierKept_missFetch tierKept_refl)

theorem tierKept_bulkGone : TierKept s (bulkGone s model epoch) := tierKept_setMem tierKept_refl
  (entriesLess_trans (entriesLess_dirUpdEpoch (g := fun e => { e with bulk := false }) fun _ => ⟨rfl, rfl, rfl, rfl, fun _ => rfl, id⟩)
    (entriesLess_of_dir recUpd_dir))

theorem tierKept_refetch : TierKept s (refetchFromStore s model epoch) := tierKept_trans tierKept_bulkGone tierKept_refetchFromStore

theorem tierKept_defective : TierKept (codecFailed s h b off) (defective s model epoch h b off) := by
  cases b
  · rw [defective_store]
    exact tierKept_markMissed
  · rw [defective_bulk]
    exact tierKept_refetch

/-- A defective block from Store: noted, and its epoch is unusable. -/
theorem defective_store_shows (hc : s.fieldsCanonical = true) (hwf : smapWf noEntry s.mem.dir = true) (hfind : (dirFind s.mem model epoch).isSome = true) :
    (isSet (defective s model epoch h false off) F.MEM_STAT_CODEC_FAIL = true ∧
      getF (defective s model epoch h false off) F.MEM_CNT_CODEC_FAIL = satAdd 32 (getF s F.MEM_CNT_CODEC_FAIL) 1) ∧
    (entryOf (defective s model epoch h false off).mem model epoch).unusable = true ∧ (defective s model epoch h false off).mem.bulk = s.mem.bulk := by
  have hnoted := codecFailed_noted (h := h) (b := false) (off := off) hc
  have hmem := capturesOnly_mem hnoted.rest
  obtain ⟨hunusable, hbulk⟩ := markUnusable_missFetch (congrArg MemSt.dir hmem) hwf hfind
  refine ⟨noted_tierKept hnoted tierKept_defective (by decide) (by decide), ?_⟩
  rw [defective_store]
  exact ⟨hunusable, hbulk.trans (congrArg MemSt.bulk hmem)⟩

/-- A defective block from Bulk: noted, BULK is cleared, and where Store has the epoch it is fetched from there. -/
theorem defective_bulk_shows (hc : s.fieldsCanonical = true) (hwf : smapWf noEntry s.mem.dir = true) (hfind : (dirFind s.mem model epoch).isSome = true)
    (hj : s.mem.jobs.find? (fun j => j.model == model && j.epoch == epoch) = some j) (hfrom : j.fromStore = false) :
    (isSet (defective s model epoch h true off) F.MEM_STAT_CODEC_FAIL = true ∧
      getF (defective s model epoch h true off) F.MEM_CNT_CODEC_FAIL = satAdd 32 (getF s F.MEM_CNT_CODEC_FAIL) 1) ∧
    (entryOf (defective s model epoch h true off).mem model epoch).bulk = false ∧
    ((entryOf s.mem model epoch).store = true → HasStoreJob (defective s model epoch h true off) model epoch) := by
  have hnoted := codecFailed_noted (h := h) (b := true) (off := off) hc
  have hmem := capturesOnly_mem hnoted.rest
  refine ⟨noted_tierKept hnoted tierKept_defective (by decide) (by decide), ?_⟩
  rw [defective_bulk]
  rw [← hmem] at hwf hfind hj ⊢
  exact ⟨refetchFromStore_bulk hwf hfind, refetchFromStore_job hj hfrom⟩

/-- What a defective block writes leaves the failed CRC shown. -/
theorem defective_keeps {f : Fld} (hc : s.fieldsCanonical = true) (hf : ∀ g ∈ tierWrites, g.key ≠ f.key)
    (hf' : ∀ g ∈ F.MEM_STAT_CODEC_FAIL :: F.MEM_CNT_CODEC_FAIL :: (memCapture ++ wgtCapture), g.key ≠ f.key) :
    getF (defective s model epoch h b off) f = getF s f :=
  (tierKept_defective.fields f hf).trans ((codecFailed_noted hc).fields f hf')

theorem crcFailed_shown (hs : Noted F.WGT_STAT_CRC_FAIL F.WGT_CNT_CRC_FAIL s t) :
    isSet (defective t model epoch h b off) F.WGT_STAT_CRC_FAIL = true ∧
    getF (defective t model epoch h b off) F.WGT_CNT_CRC_FAIL = satAdd 32 (getF s F.WGT_CNT_CRC_FAIL) 1 :=
  ⟨(isSet_congr (defective_keeps hs.canonical (by decide) (by decide))).trans hs.set,
    (defective_keeps hs.canonical (by decide) (by decide)).trans hs.count⟩

end
end Sys2Proof.Proofs

/-! SUPPORT. Fetches that complete or pass their bound: what O53 states. -/
namespace Sys2Proof.Proofs
open Sys2Proof Sys2Proof.Machine

section
variable {s t : State} {m : MemSt} {model epoch k : Nat} {h : ShardRec} {r : EpochRec} {j : FetchJob}

/-! ### Digests (R293, R294) -/

/-- A digest that does not match is noted, and the shard is to be written anew. -/
def digestFailed (s : State) (model epoch k : Nat) : State :=
  let s := bump (wgtEvent s F.WGT_STAT_DIGEST_FAIL 1 model epoch k) F.WGT_CNT_DIGEST_FAIL
  setMem s (shardUpd s.mem model epoch k (fun h => { h with written := false }))

theorem digestComplete_matches (hr : recFind s.mem model epoch = some r) (hk : r.shards[k]? = some h) (hq5 : r.q5 = true) (hwritten : h.written = true)
    (hok : h.digestOk = false) (hdigest : nearDigest s h = h.digest) :
    digestComplete model epoch k s = setMem s (shardUpd s.mem model epoch k (fun h => { h with digestOk := true })) := by
  simp [digestComplete, hr, hk, hq5, hwritten, hok, hdigest]

theorem digestNoted (hc : s.fieldsCanonical = true) : Noted F.WGT_STAT_DIGEST_FAIL F.WGT_CNT_DIGEST_FAIL s
    (bump (wgtEvent s F.WGT_STAT_DIGEST_FAIL 1 model epoch k) F.WGT_CNT_DIGEST_FAIL) :=
  wgtEvent_noted hc (by decide) (by decide) (by decide)

theorem digestFailed_span : (digestFailed s model epoch k).span = s.span := by
  obtain ⟨_, _, hs⟩ : CapturesOnly s (bump (wgtEvent s F.WGT_STAT_DIGEST_FAIL 1 model epoch k) F.WGT_CNT_DIGEST_FAIL) :=
    capturesOnly_setF (capturesOnly_setF capturesOnly_capture)
  rw [digestFailed, hs]
  rfl

theorem digestComplete_differs (hr : recFind s.mem model epoch = some r) (hk : r.shards[k]? = some h) (hq5 : r.q5 = true) (hwritten : h.written = true)
    (hok : h.digestOk = false) (hdigest : nearDigest s h ≠ h.digest) (hload : s.span.load.filter (fun l => l.model == model && l.epoch == epoch) = none) :
    digestComplete model epoch k s = if h.fromBulk then refetchFromStore (digestFailed s model epoch k) model epoch
      else markUnusable (missFetch (digestFailed s model epoch k) model epoch) model epoch := by
  have hspan : (digestFailed s model epoch k).span.load.filter (fun l => l.model == model && l.epoch == epoch) = none := by
    rw [digestFailed_span, hload]
  have hdue : (!r.q5 || !h.written || h.digestOk) ≠ true := by simp [hq5, hwritten, hok]
  unfold digestFailed at hspan ⊢
  unfold digestComplete
  rw [hr]
  dsimp only at hspan ⊢
  rw [hk]
  dsimp only
  rw [if_neg hdue, if_neg hdigest, hspan]

theorem digestFailed_dir (hc : s.fieldsCanonical = true) : (digestFailed s model epoch k).mem.dir = s.mem.dir :=
  (congrArg MemSt.dir (capturesOnly_mem (digestNoted (model := model) (epoch := epoch) (k := k) hc).rest) :)

/-- What follows a digest failure leaves it shown. -/
theorem digestFailed_shown (hc : s.fieldsCanonical = true) (hkept : TierKept (digestFailed s model epoch k) t) :
    isSet t F.WGT_STAT_DIGEST_FAIL = true ∧ getF t F.WGT_CNT_DIGEST_FAIL = satAdd 32 (getF s F.WGT_CNT_DIGEST_FAIL) 1 := by
  refine noted_tierKept (digestNoted (model := model) (epoch := epoch) (k := k) hc) ?_ (by decide) (by decide)
  exact tierKept_trans (t := digestFailed s model epoch k) (tierKept_setMem tierKept_refl (entriesLess_of_dir rfl)) hkept

/-! ### Fetches that complete (R266) -/

/-- The directory's answer where every check has passed. -/
def madeResident (s : State) (model epoch : Nat) (r : EpochRec) : State :=
  setMem s (dirUpdEpoch s.mem model epoch (fun e => { e with near := true, bulk := e.bulk || r.shards.all (fun h => h.inBulk), fetch := false }))

/-- The counter of the queue that a fetch ran in. -/
def fetchCnt (j : FetchJob) : Fld := if j.fromStore then F.MEM_CNT_FETCH_STORE else F.MEM_CNT_FETCH_BULK

theorem fetchComplete_checked (hj : runningJob s model epoch = some j) (hr : recFind s.mem model epoch = some r) (hchecked : epochChecked s r = true) :
    fetchComplete model epoch s = endJob (bump (madeResident s model epoch r)
      (fetchCnt j)) model epoch := by
  simp [fetchComplete, hj, hr, hchecked, madeResident, fetchCnt]

/-- What the end of the fetch leaves of the state in which the epoch is resident: its job has gone, and its queue's planned time is that of the rest. -/
structure LeftQueue (j : FetchJob) (model epoch : Nat) (s t : State) : Prop where
  jobs : t.mem.jobs.map unissued = (s.mem.jobs.filter (fun i => !(i.model == model && i.epoch == epoch))).map unissued
  mem : t.mem = { s.mem with jobs := t.mem.jobs }
  fields : fieldsKept [busyF j.fromStore] s t
  adm : t.adm = s.adm

theorem endJob_leftQueue (hj : s.mem.jobs.find? (fun j => j.model == model && j.epoch == epoch) = some j) : LeftQueue j model epoch s (endJob s model epoch) := by
  obtain ⟨x, ⟨jobs, hmem, hjobs⟩, hflds, hadm⟩ := endJob_found hj
  refine ⟨by rw [hmem]; exact hjobs, by rw [hmem]; rfl, fun f hf => ?_, hadm⟩
  exact (Laws.getF_congr hflds f).trans (fieldsKept_setF (t := setMem s _) (fun _ _ => rfl) List.mem_cons_self f hf)

/-! ### Fetches past their bound (R267) -/

theorem missFetch_counts (hc : s.fieldsCanonical = true) (hmissed : ∃ j ∈ s.mem.jobs, j.model = model ∧ j.epoch = epoch ∧ j.missed = false) :
    getF (missFetch s model epoch) F.MEM_CNT_FETCH_OVER = satAdd 32 (getF s F.MEM_CNT_FETCH_OVER) 1 ∧
    fieldsKept [F.MEM_CNT_FETCH_OVER] s (missFetch s model epoch) ∧
    (∀ j ∈ (missFetch s model epoch).mem.jobs, j.model = model → j.epoch = epoch → j.missed = true) ∧
    (missFetch s model epoch).adm = s.adm ∧ tiersKept s (missFetch s model epoch) := by
  obtain ⟨j, hj, hmodel, hepoch, hmissed⟩ := hmissed
  have hany : s.mem.jobs.any (fun j => j.model == model && j.epoch == epoch && !j.missed) = true :=
    List.any_eq_true.2 ⟨j, hj, by simp [hmodel, hepoch, hmissed]⟩
  rw [missFetch, if_pos hany]
  refine ⟨getF_bump (s := setMem s _) hc, fieldsKept_setF (t := setMem s _) (fun _ _ => rfl) List.mem_cons_self, fun i hi hm he => ?_, rfl,
    fun _ => rfl, fun _ => rfl⟩
  obtain ⟨i', -, rfl⟩ := List.mem_map.1 hi
  by_cases hname : i'.model = model ∧ i'.epoch = epoch
  · obtain ⟨hm', he'⟩ := hname
    simp [hm', he']
  · have hother : (decide (i'.model = model) && decide (i'.epoch = epoch)) ≠ true := by simpa using hname
    rw [if_neg hother] at hm he
    exact absurd ⟨hm, he⟩ hname

theorem fetchBoundExpiry_due (h : ∃ j ∈ s.mem.jobs, j.model = model ∧ j.epoch = epoch ∧ j.bound ≤ getF s F.TICK_DT) :
    fetchBoundExpiry model epoch s = missFetch s model epoch := by
  obtain ⟨j, hj, hmodel, hepoch, hbound⟩ := h
  exact if_pos (List.any_eq_true.2 ⟨j, hj, by simp [hmodel, hepoch, devNow, hbound]⟩)

/-- No bound has passed, or the fetch has been counted already. -/
theorem fetchBoundExpiry_idle (h : (∀ j ∈ s.mem.jobs, j.model = model → j.epoch = epoch → getF s F.TICK_DT < j.bound) ∨
    (∀ j ∈ s.mem.jobs, j.model = model → j.epoch = epoch → j.missed = true)) : fetchBoundExpiry model epoch s = s := by
  unfold fetchBoundExpiry missFetch
  obtain hearly | hcounted := h
  · refine if_neg fun hany => ?_
    obtain ⟨j, hj, hdue⟩ := List.any_eq_true.1 hany
    simp only [Bool.and_eq_true, beq_iff_eq, decide_eq_true_eq] at hdue
    obtain ⟨⟨hmodel, hepoch⟩, hbound⟩ := hdue
    exact absurd hbound (Nat.not_le.2 (hearly j hj hmodel hepoch))
  · have hnone : s.mem.jobs.any (fun j => j.model == model && j.epoch == epoch && !j.missed) = false := by
      refine List.any_eq_false.2 fun j hj hopen => ?_
      simp only [Bool.and_eq_true, beq_iff_eq, Bool.not_eq_true'] at hopen
      obtain ⟨⟨hmodel, hepoch⟩, hmissed⟩ := hopen
      exact Bool.false_ne_true (hmissed.symm.trans (hcounted j hj hmodel hepoch))
    rw [hnone]
    simp

end
end Sys2Proof.Proofs

/-! SUPPORT. The parts of O53, and O53. -/
namespace Sys2Proof.Proofs
open Sys2Proof Sys2Proof.Machine

section
variable {s : State} {model epoch k : Nat} {h : ShardRec} {r : EpochRec} {j : FetchJob} {bytes : List Byte} {out : List Nat}

/-! ### A shard whose bytes pass (R266, R269) -/

/-- Of a shard that came from Store a copy goes to Bulk; what it has written in Near stays. -/
theorem copied_shard (hr : recFind s.mem model epoch = some r) (hk : r.shards[k]? = some h) :
    (∃ q, recFind (copyToBulk (shardLanded s model epoch k h false out) model epoch k h bytes).mem model epoch = some q ∧
      (q.shards.getD k {}).written = true ∧ (q.shards.getD k {}).fromBulk = false) ∧
    (copyToBulk (shardLanded s model epoch k h false out) model epoch k h bytes).mem.near = (fillNear s h out).mem.near ∧
    (copyToBulk (shardLanded s model epoch k h false out) model epoch k h bytes).adm = s.adm := by
  obtain ⟨⟨hnear, hrecs⟩, hadm⟩ := copyToBulk_only (s := shardLanded s model epoch k h false out) (model := model) (epoch := epoch) (k := k) (h := h)
    (bytes := bytes)
  refine ⟨?_, hnear.trans rfl, hadm.trans rfl⟩
  obtain ⟨hlt, -⟩ := List.getElem?_eq_some_iff.1 hk
  have hshards := hrecs model epoch
  rw [recFind_shardLanded hr hk] at hshards
  obtain ⟨q, hq, hmap⟩ := Option.map_eq_some_iff.1 hshards
  refine ⟨q, hq, ?_⟩
  have hkth := congrArg (fun l : List (Bool × Bool) => l[k]?) hmap
  simp only [shardsInNear, List.getElem?_map, List.getElem?_set, if_true, hlt, Option.map_some, Option.map_eq_some_iff] at hkth
  obtain ⟨x, hx, hpair⟩ := hkth
  rw [List.getD_eq_getElem?_getD, hx]
  exact Prod.mk.inj hpair

/-! ### A shard that fails its CRC (R273, R288) -/

/-- What `crcFailed` leaves: the directory, Bulk and the queues, and the other counter. -/
theorem crcFailed_keeps (hc : s.fieldsCanonical = true) :
    (crcFailed (fillNear s h out) model epoch k).mem.dir = s.mem.dir ∧ (crcFailed (fillNear s h out) model epoch k).mem.bulk = s.mem.bulk ∧
    (crcFailed (fillNear s h out) model epoch k).mem.jobs = s.mem.jobs ∧
    getF (crcFailed (fillNear s h out) model epoch k) F.MEM_CNT_CODEC_FAIL = getF s F.MEM_CNT_CODEC_FAIL := by
  have hnoted := crcFailed_noted (s := fillNear s h out) (model := model) (epoch := epoch) (k := k) hc
  have hmem := capturesOnly_mem hnoted.rest
  rw [hmem]
  exact ⟨rfl, rfl, rfl, hnoted.fields F.MEM_CNT_CODEC_FAIL (by decide)⟩

theorem landShard_fails_store (hc : s.fieldsCanonical = true) (hwf : smapWf noEntry s.mem.dir = true) (hfind : (dirFind s.mem model epoch).isSome = true)
    (hout : decompress h.ulen (bytes.map BitVec.toNat) = some out) (hcrc : crc32 out ≠ h.crc) {t : State} (ht : t = landShard s model epoch k h false bytes) :
    isSet t F.WGT_STAT_CRC_FAIL = true ∧ getF t F.WGT_CNT_CRC_FAIL = satAdd 32 (getF s F.WGT_CNT_CRC_FAIL) 1 ∧ isSet t F.MEM_STAT_CODEC_FAIL = true ∧
    getF t F.MEM_CNT_CODEC_FAIL = satAdd 32 (getF s F.MEM_CNT_CODEC_FAIL) 1 ∧ (entryOf t.mem model epoch).unusable = true ∧ t.mem.bulk = s.mem.bulk := by
  rw [ht, landShard_fails hout hcrc]
  have hnoted := crcFailed_noted (s := fillNear s h out) (model := model) (epoch := epoch) (k := k) hc
  obtain ⟨hdir, hbulk, -, hcnt⟩ := crcFailed_keeps (model := model) (epoch := epoch) (k := k) (h := h) (out := out) hc
  obtain ⟨hset, hcount⟩ := crcFailed_shown (model := model) (epoch := epoch) (h := h) (b := false) (off := 0) hnoted
  obtain ⟨⟨hcodec, hcodecs⟩, hunusable, hkept⟩ := defective_store_shows (model := model) (epoch := epoch) (h := h) (off := 0) hnoted.canonical
    (hdir ▸ hwf) (by rw [dirFind_of_dir hdir]; exact hfind)
  exact ⟨hset, hcount, hcodec, hcodecs.trans (by rw [hcnt]), hunusable, hkept.trans hbulk⟩

theorem landShard_fails_bulk (hc : s.fieldsCanonical = true) (hwf : smapWf noEntry s.mem.dir = true) (hfind : (dirFind s.mem model epoch).isSome = true)
    (hj : s.mem.jobs.find? (fun j => j.model == model && j.epoch == epoch) = some j) (hfrom : j.fromStore = false)
    (hout : decompress h.ulen (bytes.map BitVec.toNat) = some out) (hcrc : crc32 out ≠ h.crc) {t : State} (ht : t = landShard s model epoch k h true bytes) :
    isSet t F.WGT_STAT_CRC_FAIL = true ∧ getF t F.WGT_CNT_CRC_FAIL = satAdd 32 (getF s F.WGT_CNT_CRC_FAIL) 1 ∧ isSet t F.MEM_STAT_CODEC_FAIL = true ∧
    getF t F.MEM_CNT_CODEC_FAIL = satAdd 32 (getF s F.MEM_CNT_CODEC_FAIL) 1 ∧ (entryOf t.mem model epoch).bulk = false ∧
    ((entryOf s.mem model epoch).store = true → HasStoreJob t model epoch) := by
  rw [ht, landShard_fails hout hcrc]
  have hnoted := crcFailed_noted (s := fillNear s h out) (model := model) (epoch := epoch) (k := k) hc
  obtain ⟨hdir, -, hjobs, hcnt⟩ := crcFailed_keeps (model := model) (epoch := epoch) (k := k) (h := h) (out := out) hc
  obtain ⟨hset, hcount⟩ := crcFailed_shown (model := model) (epoch := epoch) (h := h) (b := true) (off := 0) hnoted
  obtain ⟨⟨hcodec, hcodecs⟩, hbulk, hstore⟩ := defective_bulk_shows (model := model) (epoch := epoch) (h := h) (off := 0) hnoted.canonical
    (hdir ▸ hwf) (by rw [dirFind_of_dir hdir]; exact hfind) (hjobs ▸ hj) hfrom
  rw [entryOf_of_dir hdir] at hstore
  exact ⟨hset, hcount, hcodec, hcodecs.trans (by rw [hcnt]), hbulk, hstore⟩

/-! ### A fetch that completes (R266) -/

theorem madeResident_entry (hwf : smapWf noEntry s.mem.dir = true) (hfind : (dirFind s.mem model epoch).isSome = true) :
    (entryOf (madeResident s model epoch r).mem model epoch).near = true ∧ (entryOf (madeResident s model epoch r).mem model epoch).fetch = false ∧
    ((entryOf (madeResident s model epoch r).mem model epoch).bulk = true ↔
      (entryOf s.mem model epoch).bulk = true ∨ ∀ h ∈ r.shards, h.inBulk = true) := by
  obtain ⟨n, hn⟩ := entryOf_dirUpdEpoch (g := fun e => { e with near := true, bulk := e.bulk || r.shards.all (fun h => h.inBulk), fetch := false })
    hwf hfind fun _ => ⟨rfl, rfl, rfl⟩
  rw [madeResident, Laws.setMem_mem, hn]
  exact ⟨rfl, rfl, by simp⟩

theorem dirUpdEpoch_near {m : MemSt} {g : DirEntry → DirEntry} : (dirUpdEpoch m model epoch g).near = m.near := by
  unfold dirUpdEpoch dirUpd
  split
  · dsimp only
    split <;> rfl
  · rfl

theorem fetchCnt_count (hc : s.fieldsCanonical = true) : getF (bump s (fetchCnt j)) (fetchCnt j) = satAdd 32 (getF s (fetchCnt j)) 1 := by
  refine (getF_bump hc).trans ?_
  rw [fetchCnt]
  split <;> rfl

theorem busyF_ne_fetchCnt : (busyF j.fromStore).key ≠ (fetchCnt j).key := by
  unfold fetchCnt
  cases j.fromStore <;> decide

theorem fetchCnt_mem : fetchCnt j ∈ [F.MEM_CNT_FETCH_STORE, F.MEM_CNT_FETCH_BULK, busyF j.fromStore] := by
  unfold fetchCnt
  cases j.fromStore <;> decide

/-- A checked epoch is resident, its fetch counted in its queue, and nothing else has changed but that queue. -/
theorem fetchComplete_shows (hc : s.fieldsCanonical = true) (hwf : smapWf noEntry s.mem.dir = true) (hfind : (dirFind s.mem model epoch).isSome = true)
    (hj : s.mem.jobs.find? (fun j => j.model == model && j.epoch == epoch) = some j) {t : State}
    (ht : t = endJob (bump (madeResident s model epoch r) (fetchCnt j)) model epoch) :
    ((entryOf t.mem model epoch).near = true ∧ (entryOf t.mem model epoch).fetch = false ∧
      ((entryOf t.mem model epoch).bulk = true ↔ (entryOf s.mem model epoch).bulk = true ∨ ∀ h ∈ r.shards, h.inBulk = true)) ∧
    t.mem.jobs.map unissued = (s.mem.jobs.filter (fun i => !(i.model == model && i.epoch == epoch))).map unissued ∧ tiersKept s t ∧ t.adm = s.adm ∧
    getF t (fetchCnt j) = satAdd 32 (getF s (fetchCnt j)) 1 ∧ fieldsKept [F.MEM_CNT_FETCH_STORE, F.MEM_CNT_FETCH_BULK, busyF j.fromStore] s t := by
  have hjobs : (madeResident s model epoch r).mem.jobs = s.mem.jobs := dirUpdEpoch_jobs
  obtain ⟨hqueue, hmem, hfields, hadm⟩ := ht ▸ endJob_leftQueue (s := bump (madeResident s model epoch r) (fetchCnt j)) (hjobs ▸ hj)
  have hdir : t.mem.dir = (madeResident s model epoch r).mem.dir := by rw [hmem]; rfl
  refine ⟨?_, ?_, ⟨fun a => ?_, fun a => ?_⟩, hadm, ?_, ?_⟩
  · rw [entryOf_of_dir hdir]
    exact madeResident_entry hwf hfind
  · rw [hqueue]
    exact congrArg (fun l : List FetchJob => (l.filter _).map unissued) hjobs
  · rw [hmem]
    exact congrArg (fun l : List Host.Cell => smapGet zeroByte l a) dirUpdEpoch_near
  · rw [hmem]
    exact congrArg (fun l : List Host.Cell => smapGet zeroByte l a) dirUpdEpoch_bulk
  · exact (hfields _ (by simpa using busyF_ne_fetchCnt)).trans (fetchCnt_count (s := madeResident s model epoch r) hc)
  · exact fieldsKept_trans (t := bump (madeResident s model epoch r) (fetchCnt j)) (fieldsKept_setF (fun _ _ => rfl) fetchCnt_mem)
      (fieldsKept_mono hfields (by simp))

end

/-- Settles O53: a shard's bytes are `landShard`, whose defects `defective` answers; a checked epoch is made resident, and its job leaves the queue
(`LeftQueue`); a bound that has passed is `missFetch`. -/
theorem fetchesComplete : Obligations.FetchesComplete := by
  intro s model epoch r hc hm hr hfind
  have hwf := dirCanonical hm
  refine ⟨fun j k h bytes raw hj hk hplaced hwritten hraw hhere => ⟨fun hcross => ?_, ?_⟩, fun k h hk hq5 hwritten hok => ⟨fun hdigest => ?_,
    fun hdigest hload hfrom => ?_, fun hdigest hload hfrom => ?_⟩, fun j hj hchecked => ?_, fun hdue hopen => ?_, fun hidle => ?_⟩
  case refine_1 => rw [exec_shardWritten, shardWritten_none hj hr hk hplaced hwritten hcross]
  case refine_2 =>
    have hfound := runningJob_find hj
    refine ⟨fun out hfrom hout hcrc hlen hunits => ?_, fun out hfrom hout hcrc hlen hunits => ?_, fun out hfrom hout hcrc => ?_, fun hfrom hout => ?_,
      fun out hfrom hout hcrc => ?_⟩
    all_goals
      refine ⟨_, exec_shardWritten, ?_⟩
    case refine_1 =>
      rw [hraw, if_pos hfrom] at hout
      rw [shardWritten_store hj hr hk hplaced hwritten hfrom (hhere hfrom), landShard_passes hout hcrc, if_neg Bool.false_ne_true]
      obtain ⟨hrec, hnear, hadm⟩ := copied_shard (bytes := (bytes ++ List.replicate h.clen 0#8).take h.clen) (out := out) hr hk
      rw [hnear]
      exact ⟨hadm, hrec, fillNear_near hm hlen hunits⟩
    case refine_2 =>
      rw [hraw, if_neg (by rw [hfrom]; exact Bool.false_ne_true)] at hout
      rw [shardWritten_bulk hj hr hk hplaced hwritten hfrom, landShard_passes hout hcrc, if_pos rfl]
      exact ⟨rfl, rfl, rfl, rfl, ⟨_, recFind_shardLanded hr hk, rfl⟩, fillNear_near hm hlen hunits⟩
    case refine_3 =>
      rw [hraw, if_pos hfrom] at hout
      exact landShard_fails_store hc hwf hfind hout hcrc (shardWritten_store hj hr hk hplaced hwritten hfrom (hhere hfrom))
    case refine_4 =>
      rw [hraw, if_neg (by rw [hfrom]; exact Bool.false_ne_true)] at hout
      rw [shardWritten_bulk hj hr hk hplaced hwritten hfrom, landShard_garbled hout]
      obtain ⟨⟨hset, hcount⟩, hbulk, hstore⟩ := defective_bulk_shows (h := h) hc hwf hfind hfound hfrom
      exact ⟨hset, hcount, hbulk, hstore⟩
    case refine_5 =>
      rw [hraw, if_neg (by rw [hfrom]; exact Bool.false_ne_true)] at hout
      exact landShard_fails_bulk hc hwf hfind hfound hfrom hout hcrc (shardWritten_bulk hj hr hk hplaced hwritten hfrom)
  case refine_3 =>
    rw [exec_digestComplete, digestComplete_matches hr hk hq5 hwritten hok hdigest]
    exact ⟨_, rfl, rfl, ⟨fun _ => rfl, fun _ => rfl⟩, rfl, _, recFind_shardUpd hr hk, rfl⟩
  case refine_4 =>
    rw [exec_digestComplete, digestComplete_differs hr hk hq5 hwritten hok hdigest hload, if_pos hfrom]
    obtain ⟨hset, hcount⟩ := digestFailed_shown hc (tierKept_refetch (s := digestFailed s model epoch k))
    have hdir := digestFailed_dir (model := model) (epoch := epoch) (k := k) hc
    exact ⟨_, rfl, hset, hcount, refetchFromStore_bulk (hdir ▸ hwf) (by rw [dirFind_of_dir hdir]; exact hfind)⟩
  case refine_5 =>
    rw [exec_digestComplete, digestComplete_differs hr hk hq5 hwritten hok hdigest hload, if_neg (by rw [hfrom]; exact Bool.false_ne_true)]
    obtain ⟨hset, hcount⟩ := digestFailed_shown hc (tierKept_markMissed (s := digestFailed s model epoch k))
    obtain ⟨hunusable, -⟩ := markUnusable_missFetch (digestFailed_dir (model := model) (epoch := epoch) (k := k) hc) hwf hfind
    exact ⟨_, rfl, hset, hcount, hunusable⟩
  case refine_6 =>
    rw [exec_fetchComplete, fetchComplete_checked hj hr hchecked]
    obtain ⟨⟨hnear, hfetch, hbulk⟩, hqueue, htiers, hadm, hcount, hfields⟩ := fetchComplete_shows hc hwf hfind (runningJob_find hj) (r := r) rfl
    refine ⟨_, rfl, hnear, hfetch, hbulk, hqueue, htiers, hadm, ?_, hfields⟩
    split
    · next hfrom =>
      rw [show fetchCnt j = F.MEM_CNT_FETCH_STORE from if_pos hfrom] at hcount ⊢
      exact hcount
    · next hfrom =>
      rw [show fetchCnt j = F.MEM_CNT_FETCH_BULK from if_neg hfrom] at hcount ⊢
      exact hcount
  case refine_7 =>
    rw [exec_fetchBoundExpiry, fetchBoundExpiry_due hdue]
    exact ⟨_, rfl, missFetch_counts hc hopen⟩
  case refine_8 => rw [exec_fetchBoundExpiry, fetchBoundExpiry_idle hidle]

end Sys2Proof.Proofs

/-! SUPPORT. Weight commands as such (R289, R290): when one runs, what its result leaves, and what its end shows. -/
namespace Sys2Proof.Proofs
open Sys2Proof Sys2Proof.Machine

section
variable {s t : State} {f : Fld} {n v op : Nat}

theorem exec_wgtCmdEnd : exec .wgtCmdEnd s = .next (wgtCmdEnd s) := rfl
theorem exec_query : exec .query s = .next (query s) := rfl
theorem exec_stage : exec .stage s = .next (stage s) := rfl
theorem exec_unstage : exec .unstage s = .next (unstage s) := rfl
theorem exec_switch {b : Bool} : exec (.switch b) s = .next (switch b s) := rfl

@[simp] theorem getF_setResult : getF (setResult s n) f = getF s f := rfl
@[simp] theorem setResult_mem : (setResult s n).mem = s.mem := rfl
@[simp] theorem setResult_result : (setResult s n).wgt.result = some n := rfl

@[simp] theorem getF_setMem {m : MemSt} : getF (setMem s m) f = getF s f := rfl

/-- A command that is busy without a result runs. -/
theorem cmdRuns_of (hbusy : isSet s F.WGT_CMD_STAT_BUSY = true) (hresult : s.wgt.result = none) (hop : s.wgt.op = op) : cmdRuns s op = true := by
  simp [cmdRuns, hbusy, hresult, hop]

theorem not_cmdRuns {α : Type} {x y : α} (h : cmdRuns s op = true) : (if (!cmdRuns s op) = true then x else y) = y := by simp [h]

/-! ### The end of a command (R289) -/

/-- The fields that the end of a command writes. -/
def cmdEndFields : List Fld := [F.WGT_CMD_STAT_BUSY, F.WGT_CMD_STAT_OP, F.WGT_CMD_STAT_RESULT, F.WGT_STAT_CMD_DONE, F.WGT_STAT_CMD_FAIL]

/-- The state in which the registers show that a command has ended, before a failure is. -/
def cmdShown (s : State) (v : Nat) : State :=
  raise (setF (setF (lower s F.WGT_CMD_STAT_BUSY) F.WGT_CMD_STAT_OP s.wgt.op) F.WGT_CMD_STAT_RESULT v) F.WGT_STAT_CMD_DONE

theorem wgtCmdEnd_none (h : s.wgt.result = none) : wgtCmdEnd s = s := by rw [wgtCmdEnd, h]

theorem wgtCmdEnd_some (h : s.wgt.result = some v) (hbusy : isSet s F.WGT_CMD_STAT_BUSY = true) : wgtCmdEnd s =
    setWgt (if v = 0 then cmdShown s v else raise (cmdShown s v) F.WGT_STAT_CMD_FAIL) { s.wgt with result := none } := by
  rw [wgtCmdEnd, h]
  simp only [hbusy, Bool.not_true, Bool.false_eq_true, if_false]
  split <;> rfl

theorem fieldsKept_cmdShown : fieldsKept cmdEndFields s (cmdShown s v) :=
  fieldsKept_setF (fieldsKept_setF (fieldsKept_setF (fieldsKept_setF fieldsKept_refl (by simp [cmdEndFields])) (by simp [cmdEndFields]))
    (by simp [cmdEndFields])) (by simp [cmdEndFields])

/-- What the end of a command with result `v` shows of `s`. -/
structure CmdEnded (v : Nat) (s t : State) : Prop where
  busy : isSet t F.WGT_CMD_STAT_BUSY = false
  op : getF t F.WGT_CMD_STAT_OP = s.wgt.op
  result : getF t F.WGT_CMD_STAT_RESULT = v
  done : isSet t F.WGT_STAT_CMD_DONE = true
  fields : fieldsKept cmdEndFields s t

theorem cmdEnded_cmdShown (hc : s.fieldsCanonical = true) (hv : v < 32) (hop : s.wgt.op < 8) : CmdEnded v s (cmdShown s v) := by
  have hop' : s.wgt.op % 8 = s.wgt.op := Nat.mod_eq_of_lt hop
  have hv' : v % 32 = v := Nat.mod_eq_of_lt hv
  refine ⟨?_, ?_, ?_, ?_, fieldsKept_cmdShown⟩ <;>
    simp (disch := (repeat apply setF_canonical); assumption) [isSet, cmdShown, raise, lower, getF_setF, hop', hv']

/-- A failure shown beside leaves what the end of a command shows. -/
theorem cmdEnded_fail (h : CmdEnded v s t) : CmdEnded v s (raise t F.WGT_STAT_CMD_FAIL) where
  busy := (isSet_congr (Laws.getF_setF_other _ _ _ _ (by decide))).trans h.busy
  op := (Laws.getF_setF_other _ _ _ _ (by decide)).trans h.op
  result := (Laws.getF_setF_other _ _ _ _ (by decide)).trans h.result
  done := (isSet_congr (Laws.getF_setF_other _ _ _ _ (by decide))).trans h.done
  fields := fieldsKept_setF h.fields (by simp [cmdEndFields])

theorem cmdShown_fail : isSet (cmdShown s v) F.WGT_STAT_CMD_FAIL = isSet s F.WGT_STAT_CMD_FAIL := by
  refine isSet_congr ?_
  unfold cmdShown raise lower
  iterate 4 rw [Laws.getF_setF_other _ _ _ _ (by decide)]

theorem wgtCmdEnd_shows (hc : s.fieldsCanonical = true) (hbusy : isSet s F.WGT_CMD_STAT_BUSY = true) (hresult : s.wgt.result = some v) (hv : v < 32)
    (hop : s.wgt.op < 8) : CmdEnded v s (wgtCmdEnd s) ∧
      (isSet (wgtCmdEnd s) F.WGT_STAT_CMD_FAIL = true ↔ v ≠ 0 ∨ isSet s F.WGT_STAT_CMD_FAIL = true) ∧
      (wgtCmdEnd s).wgt = { s.wgt with result := none } ∧ (wgtCmdEnd s).mem = s.mem := by
  have hshown := cmdEnded_cmdShown hc hv hop
  rw [wgtCmdEnd_some hresult hbusy]
  split
  · next hzero =>
    obtain ⟨h1, h2, h3, h4, h5⟩ := hshown
    refine ⟨⟨h1, h2, h3, h4, h5⟩, ?_, rfl, rfl⟩
    simp only [hzero, ne_eq, not_true_eq_false, false_or]
    exact (Bool.eq_iff_iff.1 cmdShown_fail)
  · next hfail =>
    obtain ⟨h1, h2, h3, h4, h5⟩ := cmdEnded_fail hshown
    refine ⟨⟨h1, h2, h3, h4, h5⟩, ?_, rfl, rfl⟩
    have hcanon : (cmdShown s v).fieldsCanonical = true := raise_canonical (setF_canonical (setF_canonical (lower_canonical hc)))
    exact ⟨fun _ => .inl hfail, fun _ => Laws.isSet_raise (cmdShown s v) F.WGT_STAT_CMD_FAIL (Laws.smapWf_iff.1 hcanon).1 (by decide)⟩

/-! ### QUERY (R290, R308) -/

/-- The fields that QUERY writes. -/
def queryFields : List Fld := [F.WGT_Q_EPOCH_ACTIVE, F.WGT_Q_EPOCH_PEND_EPOCH, F.WGT_Q_DRAIN, F.WGT_Q_INFO_REGISTERED, F.WGT_Q_INFO_STAGED,
  F.WGT_Q_INFO_PIN]

/-- The query registers with what they are to show. -/
def queryShown (s : State) (active target drain : Nat) (registered staged : Bool) (pin : Nat) : State :=
  setF (setBool (setBool (setF (setF (setF s F.WGT_Q_EPOCH_ACTIVE active) F.WGT_Q_EPOCH_PEND_EPOCH target) F.WGT_Q_DRAIN drain)
    F.WGT_Q_INFO_REGISTERED registered) F.WGT_Q_INFO_STAGED staged) F.WGT_Q_INFO_PIN pin

section
variable {active target drain pin : Nat} {registered staged : Bool}

theorem fieldsKept_queryShown (h : fieldsKept queryFields s t) : fieldsKept queryFields s (queryShown t active target drain registered staged pin) :=
  fieldsKept_setF (fieldsKept_setF (fieldsKept_setF (fieldsKept_setF (fieldsKept_setF (fieldsKept_setF h (by simp [queryFields]))
    (by simp [queryFields])) (by simp [queryFields])) (by simp [queryFields])) (by simp [queryFields])) (by simp [queryFields])

/-- What the end of QUERY shows. -/
structure QueryShows (active target drain : Nat) (registered : Bool) (pin : Nat) (s t : State) : Prop where
  active : getF t F.WGT_Q_EPOCH_ACTIVE = active % 2 ^ 16
  target : getF t F.WGT_Q_EPOCH_PEND_EPOCH = target % 2 ^ 16
  drain : getF t F.WGT_Q_DRAIN = drain % 2 ^ 48
  registered : isSet t F.WGT_Q_INFO_REGISTERED = registered
  pin : getF t F.WGT_Q_INFO_PIN = pin % 2 ^ 24
  fields : fieldsKept queryFields s t
  mem : t.mem = s.mem
  adm : t.adm = s.adm
  result : t.wgt.result = some 0

theorem queryShown_shows {x : WgtSt} (hc : s.fieldsCanonical = true)
    (ht : t = setResult (queryShown (setWgt s x) active target drain registered staged pin) 0) : QueryShows active target drain registered pin s t := by
  have hcx : (setWgt s x).fieldsCanonical = true := hc
  subst ht
  refine ⟨?_, ?_, ?_, ?_, ?_, fieldsKept_queryShown (t := setWgt s x) (fun _ _ => rfl), rfl, rfl, rfl⟩
  case refine_4 =>
    rw [isSet, getF_setResult]
    cases registered <;>
      simp (disch := (repeat apply setF_canonical); assumption) [queryShown, setBool, getF_setF]
  all_goals
    rw [getF_setResult]
    simp (disch := (repeat apply setF_canonical); assumption) [queryShown, setBool, getF_setF]

end

theorem entryOf_eq {m : MemSt} {model epoch : Nat} : entryOf m model epoch = ((dirFind m model epoch).map (dirGet m)).getD {} := by
  unfold entryOf
  cases dirFind m model epoch <;> rfl

theorem entryOf_pin {m : MemSt} {model epoch : Nat} :
    ((dirFind m model epoch).map (fun i => (dirGet m i).pin)).getD 0 = (entryOf m model epoch).pin := by
  rw [entryOf_eq]
  cases dirFind m model epoch <;> rfl

theorem query_shows (hc : s.fieldsCanonical = true) (hrun : cmdRuns s 6 = true) {model epoch : Nat} (hmodel : getF s F.WGT_CMD_MODEL = model)
    (hepoch : getF s F.WGT_CMD_EPOCH = epoch) :
    QueryShows (((dirActive s.mem model).map (fun i => (dirGet s.mem i).epoch)).getD 0)
      (((s.mem.switches.find? (fun w => w.model == model)).map (fun w => w.target)).getD 0)
      (((s.mem.switches.find? (fun w => w.model == model)).map (fun w => w.drain)).getD 0)
      (dirFind s.mem model epoch).isSome (entryOf s.mem model epoch).pin s (query s) := by
  refine queryShown_shows hc (x := { s.wgt with qModel := model })
    (staged := ((recFind s.mem model epoch).map (fun r => r.stagePin)).getD false) ?_
  rw [query, not_cmdRuns hrun, hmodel, hepoch, ← entryOf_pin]
  rfl

end
end Sys2Proof.Proofs

/-! SUPPORT. The tiers under weight commands (R262, R264, R275, R300 to R304): what a change of the directory leaves, stage pins while no switch waits, where ACTIVE
moves to, and reservations that need no eviction. -/
namespace Sys2Proof.Proofs
open Sys2Proof Sys2Proof.Machine

section
variable {s t : State} {m m' : MemSt} {model epoch i k n : Nat} {r : EpochRec} {g : DirEntry → DirEntry}

/-! ### Changes of the directory (R262) -/

/-- A change of an entry leaves the tiers but for the directory. -/
theorem dirUpd_only : dirUpd m i g = { m with dir := (dirUpd m i g).dir } := by
  unfold dirUpd
  dsimp only
  split <;> rfl

theorem dirUpdEpoch_of_find (h : dirFind m model epoch = some i) : dirUpdEpoch m model epoch g = dirUpd m i g := by rw [dirUpdEpoch, h]

theorem entryOf_of_find (h : dirFind m model epoch = some i) : entryOf m model epoch = dirGet m i := by rw [entryOf, h]

/-- An entry that is changed counts that in its GEN. -/
theorem dirGet_dirUpd_changed (hwf : smapWf noEntry m.dir = true) (hg : g (dirGet m i) ≠ dirGet m i) :
    dirGet (dirUpd m i g) i = { g (dirGet m i) with gen := ((dirGet m i).gen + 1) % 65536 } := by
  rw [dirUpd, if_neg hg]
  exact Laws.smapGet_set_same noEntry m.dir i _ (Laws.smapWf_iff.1 hwf).1

/-- What a search found has the name searched for. -/
theorem dirFind_name (h : dirFind m model epoch = some i) :
    i ∈ dirWays model ∧ (dirGet m i).valid = true ∧ (dirGet m i).modelId = model ∧ (dirGet m i).epoch = epoch := by
  have hname := List.find?_some h
  simp only [Bool.and_eq_true, beq_iff_eq] at hname
  obtain ⟨⟨hvalid, hmodel⟩, hepoch⟩ := hname
  exact ⟨List.mem_of_find?_eq_some h, hvalid, hmodel, hepoch⟩

theorem recFind_of_recs (h : m'.recs = m.recs) : recFind m' model epoch = recFind m model epoch := by rw [recFind, recFind, h]

/-- An epoch's own record, as it has been changed. -/
theorem recFind_recUpd_same {f : EpochRec → EpochRec} (hf : ∀ r, (f r).model = r.model ∧ (f r).epoch = r.epoch) (hr : recFind m model epoch = some r) :
    recFind (recUpd m model epoch f) model epoch = some (f r) := by
  obtain ⟨hmodel, hepoch⟩ := recFind_name hr
  rw [recFind_recUpd hf, hr]
  simp [hmodel, hepoch]

/-! ### Stage pins while no switch is pending (R300, R304) -/

theorem retryPending_none (h : s.mem.switches = []) : retryPending s = s := by rw [retryPending, h]; rfl

theorem servePending_none (h : s.mem.switches = []) : servePending s = s := by rw [servePending, h]; rfl

/-- An epoch without a stage pin has none to drop. -/
theorem dropStage_unpinned (h : ∀ r, recFind s.mem model epoch = some r → r.stagePin = false) : dropStage s model epoch = s := by
  refine if_neg ?_
  cases hr : recFind s.mem model epoch with
  | none => exact Bool.false_ne_true
  | some r => simp [h r hr]

/-- The tiers once an epoch has lost its stage pin. -/
def stageDropped (m : MemSt) (model epoch : Nat) : MemSt :=
  dirUpdEpoch (recUpd m model epoch (fun r => { r with stagePin := false })) model epoch (fun e => { e with pin := e.pin - 1 })

theorem stageDropped_only : stageDropped m model epoch = { recUpd m model epoch (fun r => { r with stagePin := false }) with
    dir := (stageDropped m model epoch).dir } := by
  unfold stageDropped dirUpdEpoch
  split
  · exact dirUpd_only
  · rfl

theorem dropStage_staged (hr : recFind s.mem model epoch = some r) (hpin : r.stagePin = true) (hnone : s.mem.switches = []) :
    dropStage s model epoch = setMem s (stageDropped s.mem model epoch) := by
  rw [dropStage, hr]
  refine (if_pos hpin).trans (servePending_none ?_)
  change (stageDropped s.mem model epoch).switches = []
  rw [stageDropped_only]
  exact hnone

theorem stageDropped_pin (hwf : smapWf noEntry m.dir = true) (hfind : dirFind m model epoch = some i) :
    (dirGet (stageDropped m model epoch) i).pin = (dirGet m i).pin - 1 := by
  have hsame : dirFind (recUpd m model epoch (fun r => { r with stagePin := false })) model epoch = some i := hfind
  rw [stageDropped, dirUpdEpoch_of_find hsame]
  obtain ⟨k, hk⟩ := dirGet_dirUpd_same (m := recUpd m model epoch (fun r => { r with stagePin := false })) (i := i)
    (g := fun e => { e with pin := e.pin - 1 }) hwf
  exact congrArg DirEntry.pin hk

theorem stageDropped_record (hr : recFind m model epoch = some r) :
    recFind (stageDropped m model epoch) model epoch = some { r with stagePin := false } := by
  rw [stageDropped_only]
  exact recFind_recUpd_same (f := fun r => { r with stagePin := false }) (fun _ => ⟨rfl, rfl⟩) hr

/-! ### Where ACTIVE moves to (R302) -/

/-- One entry's part in a move of ACTIVE. -/
def moveActiveAt (model epoch : Nat) (m : MemSt) (i : Nat) : MemSt :=
  if (dirGet m i).valid && (dirGet m i).modelId == model then dirUpd m i (fun e => { e with active := e.epoch == epoch }) else m

theorem moveActive_eq : moveActive m model epoch = (dirWays model).foldl (moveActiveAt model epoch) m := rfl

/-- From `m` to `m'` at most ACTIVE has moved, in the directory alone. -/
structure ActiveOnly (m m' : MemSt) : Prop where
  rest : m' = { m with dir := m'.dir }
  wf : smapWf noEntry m.dir = true → smapWf noEntry m'.dir = true
  entry : smapWf noEntry m.dir = true → ∀ k, ∃ a x, dirGet m' k = { dirGet m k with active := a, gen := x }

theorem activeOnly_refl : ActiveOnly m m := ⟨rfl, id, fun _ _ => ⟨_, _, rfl⟩⟩

theorem activeOnly_trans {m'' : MemSt} (h : ActiveOnly m m') (h' : ActiveOnly m' m'') : ActiveOnly m m'' := by
  refine ⟨?_, h'.wf ∘ h.wf, fun hwf k => ?_⟩
  · rw [h'.rest, h.rest]
  · obtain ⟨a, x, hk⟩ := h.entry hwf k
    obtain ⟨a', x', hk'⟩ := h'.entry (h.wf hwf) k
    exact ⟨a', x', by rw [hk', hk]⟩

theorem activeOnly_moveActiveAt : ActiveOnly m (moveActiveAt model epoch m i) := by
  unfold moveActiveAt
  split
  · refine ⟨dirUpd_only, smapWf_dirUpd, fun hwf k => ?_⟩
    by_cases hk : k = i
    · subst hk
      obtain ⟨x, hx⟩ := dirGet_dirUpd_same (m := m) (i := k) (g := fun e => { e with active := e.epoch == epoch }) hwf
      exact ⟨_, x, hx⟩
    · exact ⟨_, _, dirGet_dirUpd_other hk⟩
  · exact activeOnly_refl

theorem activeOnly_foldl {l : List Nat} : ActiveOnly m (l.foldl (moveActiveAt model epoch) m) := by
  induction l generalizing m with
  | nil => exact activeOnly_refl
  | cons i l ih => exact activeOnly_trans activeOnly_moveActiveAt ih

theorem activeOnly_moveActive : ActiveOnly m (moveActive m model epoch) := moveActive_eq ▸ activeOnly_foldl

/-- The model's entries on the way are active if and only if they are the epoch's. -/
theorem active_foldl {l : List Nat} (hwf : smapWf noEntry m.dir = true) (hvalid : (dirGet m k).valid = true) (hmodel : (dirGet m k).modelId = model)
    (h : k ∈ l ∨ (dirGet m k).active = ((dirGet m k).epoch == epoch)) :
    (dirGet (l.foldl (moveActiveAt model epoch) m) k).active = ((dirGet m k).epoch == epoch) := by
  induction l generalizing m with
  | nil => exact h.resolve_left List.not_mem_nil
  | cons i l ih =>
    have hstep := activeOnly_moveActiveAt (m := m) (model := model) (epoch := epoch) (i := i)
    obtain ⟨a, x, hk⟩ := hstep.entry hwf k
    have hnext := ih (m := moveActiveAt model epoch m i) (hstep.wf hwf) (by rw [hk]; exact hvalid) (by rw [hk]; exact hmodel)
    rw [show (dirGet (moveActiveAt model epoch m i) k).epoch = (dirGet m k).epoch by rw [hk]] at hnext
    refine hnext ?_
    by_cases hki : k = i
    · subst hki
      obtain ⟨y, hy⟩ := dirGet_dirUpd_same (m := m) (i := k) (g := fun e => { e with active := e.epoch == epoch }) hwf
      rw [moveActiveAt, if_pos (by simp [hvalid, hmodel]), hy]
      exact .inr rfl
    · refine h.imp (fun hmem => (List.mem_cons.1 hmem).resolve_left hki) fun hactive => ?_
      rw [moveActiveAt]
      split
      · rw [dirGet_dirUpd_other hki, hactive]
      · exact hactive

theorem moveActive_active (hwf : smapWf noEntry m.dir = true) (hk : k ∈ dirWays model) (hvalid : (dirGet m k).valid = true)
    (hmodel : (dirGet m k).modelId = model) : (dirGet (moveActive m model epoch) k).active = ((dirGet m k).epoch == epoch) := by
  rw [moveActive_eq]
  exact active_foldl hwf hvalid hmodel (.inl hk)

/-! ### Reservations that need no eviction (R275, R286) -/

section
variable {keep : ShardRec → Bool} {o : RegionOwner}

theorem sideStacks_congr (hup : getF t F.DEV_CAP0_NEAR_PRESENT = getF s F.DEV_CAP0_NEAR_PRESENT) {side : Nat} : sideStacks t side = sideStacks s side := by
  unfold sideStacks
  congr 1
  funext n
  rw [stackUp, stackUp, bitF, bitF, hup]

theorem allStacks_congr (hup : getF t F.DEV_CAP0_NEAR_PRESENT = getF s F.DEV_CAP0_NEAR_PRESENT) : allStacks t = allStacks s := by
  unfold allStacks
  congr 1
  funext n
  rw [stackUp, stackUp, bitF, bitF, hup]

theorem findRoom_congr (hup : getF t F.DEV_CAP0_NEAR_PRESENT = getF s F.DEV_CAP0_NEAR_PRESENT) {l : List Nat} : findRoom t m n l = findRoom s m n l := by
  have hsystem {x : Nat} : systemUnits t x = systemUnits s x := by rw [systemUnits, systemUnits, sideStacks_congr hup]
  induction l with
  | nil => rfl
  | cons x l ih => rw [findRoom, findRoom, freeCount, freeCount, hsystem, ih]

theorem placeShards_congr (hup : getF t F.DEV_CAP0_NEAR_PRESENT = getF s F.DEV_CAP0_NEAR_PRESENT) {l : List ShardRec} :
    placeShards t model epoch keep l k m = placeShards s model epoch keep l k m := by
  induction l generalizing k m with
  | nil => rfl
  | cons h l ih =>
    rw [placeShards, placeShards, sideStacks_congr hup, findRoom_congr hup, ih]
    split
    · rfl
    · split
      · exact ih
      · rfl

theorem placeRegion_congr (hup : getF t F.DEV_CAP0_NEAR_PRESENT = getF s F.DEV_CAP0_NEAR_PRESENT) : placeRegion t o n m = placeRegion s o n m := by
  rw [placeRegion, placeRegion, allStacks_congr hup, findRoom_congr hup]

/-- Where shards can lie depends on which stacks are in use and on the plan. -/
theorem placeEpoch_congr (hup : getF t F.DEV_CAP0_NEAR_PRESENT = getF s F.DEV_CAP0_NEAR_PRESENT) (hplan : t.adm.plan = s.adm.plan) :
    placeEpoch t model epoch keep m = placeEpoch s model epoch keep m := by
  have hneed {x : MemSt} : modelRegionNeed t x model = modelRegionNeed s x model := by
    rw [modelRegionNeed, modelRegionNeed, modelRegionNeed.planModelOf?, modelRegionNeed.planModelOf?, hplan]
  unfold placeEpoch
  split
  · rw [placeShards_congr hup]
    split
    · rw [hneed]
      split
      · exact placeRegion_congr hup
      · rfl
    · rfl
  · rfl

/-- A reservation that fits claims nothing. -/
theorem reserveWith_fits {place : MemSt → Option MemSt} (h : place s.mem = some m) :
    reserveWith s place = (true, addF (setMem s m) F.MEM_CNT_EVICT_NEAR 0) := by
  have hevict : evictUntil place (candidates s s.mem) s.mem 0 = some (m, 0) := by
    cases candidates s s.mem with
    | nil => rw [evictUntil, h]; rfl
    | cons i l => rw [evictUntil, h]
  rw [reserveWith, evictFor, hevict]
  rfl

end

end
end Sys2Proof.Proofs

/-! SUPPORT. STAGE, UNSTAGE and SWITCH (R290, R300 to R304, R306), and O56. -/
namespace Sys2Proof.Proofs
open Sys2Proof Sys2Proof.Machine

section
variable {s t u : State} {m m' : MemSt} {model epoch i j k bound : Nat} {r : EpochRec} {w b : Bool} {e : DirEntry}

/-! ### Placements beside the queues (R275, R286) -/

/-- A placement writes Near, the records and the regions alone. -/
def PlacedOnly (m m' : MemSt) : Prop := m' = { m with near := m'.near, recs := m'.recs, regions := m'.regions }

theorem placedOnly_trans {n : MemSt} (h : PlacedOnly m m') (h' : PlacedOnly m' n) : PlacedOnly m n := by
  rw [h', h]
  rfl

theorem placedOnly_placeRegion {o : RegionOwner} {size : Nat} (h : placeRegion s o size m = some m') : PlacedOnly m m' := by
  unfold placeRegion at h
  dsimp only at h
  split at h
  · cases h; exact rfl
  · cases h

theorem placedOnly_placeShards {keep : ShardRec → Bool} {l : List ShardRec} (h : placeShards s model epoch keep l k m = some m') : PlacedOnly m m' := by
  induction l generalizing m k with
  | nil => cases h; exact rfl
  | cons x l ih =>
    unfold placeShards at h
    split at h
    · exact ih h
    · split at h
      · exact placedOnly_trans (by exact rfl) (ih h)
      · cases h

theorem placedOnly_placeEpoch {keep : ShardRec → Bool} (h : placeEpoch s model epoch keep m = some m') : PlacedOnly m m' := by
  unfold placeEpoch at h
  split at h
  · split at h
    · next hshards =>
      split at h
      · exact placedOnly_trans (placedOnly_placeShards hshards) (placedOnly_placeRegion h)
      · cases h; exact placedOnly_placeShards hshards
    · cases h
  · cases h

/-! ### A fetch that is queued (R266) -/

/-- The job that a fetch of an epoch is queued as. -/
def fetchJob (s : State) (model epoch bound : Nat) (waiting : Bool) : FetchJob :=
  { model := model, epoch := epoch, fromStore := !(entryOf s.mem model epoch).bulk, bound := bound,
    durationUs := fetchUs s (!(entryOf s.mem model epoch).bulk) (((recFind s.mem model epoch).map (fun r => r.q5)).getD false)
      (entryOf s.mem model epoch).bulkSize, waiting := waiting }

/-- A fetch stands in its queue, before any Read is issued. -/
def fetchQueued (s : State) (model epoch bound : Nat) (waiting : Bool) : State :=
  setF (setMem s { dirUpdEpoch s.mem model epoch (fun e => { e with fetch := true }) with
    jobs := (dirUpdEpoch s.mem model epoch (fun e => { e with fetch := true })).jobs ++ [fetchJob s model epoch bound waiting] })
    (busyF (!(entryOf s.mem model epoch).bulk)) bound

theorem issuedOnly_queueFetch : IssuedOnly (fetchQueued s model epoch bound w) (queueFetch s model epoch bound w) := issuedOnly_issueReads

/-- What a fetch that has been queued shows: FETCH, its job, and its queue's planned time. -/
structure FetchShown (model epoch bound : Nat) (waiting : Bool) (s t : State) : Prop where
  fetch : (entryOf t.mem model epoch).fetch = true
  pin : (entryOf t.mem model epoch).pin = (entryOf s.mem model epoch).pin
  jobs : t.mem.jobs.map unissued = (s.mem.jobs ++ [fetchJob s model epoch bound waiting]).map unissued
  busy : getF t (busyF (!(entryOf s.mem model epoch).bulk)) = bound % 2 ^ 64

theorem fetchShown_queueFetch (hc : s.fieldsCanonical = true) (hwf : smapWf noEntry s.mem.dir = true)
    (hfind : (dirFind s.mem model epoch).isSome = true) : FetchShown model epoch bound w s (queueFetch s model epoch bound w) := by
  obtain ⟨⟨jobs, hmem, hjobs⟩, hflds, -⟩ := issuedOnly_queueFetch (s := s) (model := model) (epoch := epoch) (bound := bound) (w := w)
  obtain ⟨x, hx⟩ := entryOf_dirUpdEpoch (g := fun e => { e with fetch := true }) hwf hfind fun _ => ⟨rfl, rfl, rfl⟩
  have hentry : entryOf (queueFetch s model epoch bound w).mem model epoch = { entryOf s.mem model epoch with fetch := true, gen := x } := by
    rw [hmem]
    exact hx
  refine ⟨by rw [hentry], by rw [hentry], ?_, ?_⟩
  · rw [hmem]
    refine hjobs.trans (congrArg (List.map unissued) ?_)
    change (dirUpdEpoch s.mem model epoch (fun e => { e with fetch := true })).jobs ++ _ = _
    rw [dirUpdEpoch_jobs]
  · have hset : getF (fetchQueued s model epoch bound w) (busyF (!(entryOf s.mem model epoch).bulk)) =
        bound % 2 ^ (busyF (!(entryOf s.mem model epoch).bulk)).width := Laws.getF_setF_same _ _ _ (Laws.smapWf_iff.1 hc).1
    rw [Laws.getF_congr hflds, hset]
    cases (entryOf s.mem model epoch).bulk <;> rfl

/-- The bound of a fetch depends on the planned rates, on its queue and on where the epoch lies. -/
theorem fetchBound_congr {e' : DirEntry} {x : Nat} (hf : fieldsKept [F.MEM_CNT_EVICT_NEAR] s t) (hbulk : e'.bulk = e.bulk)
    (hsize : e'.bulkSize = e.bulkSize) : fetchBound t x e' b = fetchBound s x e b := by
  unfold fetchBound fetchUs
  rw [hbulk, hsize, hf F.WGT_Q5_PLAN_RATE (by decide), hf F.WGT_Q5_PLAN_LAT_US (by decide)]
  cases e.bulk
  · rw [hf (busyF (!false)) (by decide), hf (if (!false) = true then _ else _) (by decide), hf (if (!false) = true then _ else _) (by decide)]
  · rw [hf (busyF (!true)) (by decide), hf (if (!true) = true then _ else _) (by decide), hf (if (!true) = true then _ else _) (by decide)]

/-! ### STAGE and UNSTAGE (R300) -/

/-- The tiers once an epoch has taken a stage pin. -/
def stagePinned (m : MemSt) (model epoch i : Nat) : MemSt :=
  dirUpd (recUpd m model epoch (fun r => { r with stagePin := true })) i (fun e => { e with pin := e.pin + 1 })

theorem stagePinned_only : stagePinned m model epoch i =
    { recUpd m model epoch (fun r => { r with stagePin := true }) with dir := (stagePinned m model epoch i).dir } := dirUpd_only

theorem stagePinned_entry (hwf : smapWf noEntry m.dir = true) :
    dirGet (stagePinned m model epoch i) i = { dirGet m i with pin := (dirGet m i).pin + 1, gen := ((dirGet m i).gen + 1) % 65536 } :=
  dirGet_dirUpd_changed (m := recUpd m model epoch (fun r => { r with stagePin := true })) hwf fun heq => by
    simpa using congrArg DirEntry.pin heq

theorem stagePinned_find (hwf : smapWf noEntry m.dir = true) (hfind : dirFind m model epoch = some k) :
    dirFind (stagePinned m model epoch i) model epoch = some k :=
  (dirFind_dirUpd (m := recUpd m model epoch (fun r => { r with stagePin := true })) (g := fun e => { e with pin := e.pin + 1 }) hwf
    fun _ => ⟨rfl, rfl, rfl⟩).trans hfind

theorem stagePinned_record (hr : recFind m model epoch = some r) :
    recFind (stagePinned m model epoch i) model epoch = some { r with stagePin := true } := by
  rw [stagePinned_only]
  exact recFind_recUpd_same (f := fun r => { r with stagePin := true }) (fun _ => ⟨rfl, rfl⟩) hr

section
variable (hmodel : getF s F.WGT_CMD_MODEL = model) (hepoch : getF s F.WGT_CMD_EPOCH = epoch) (hmode : getF s F.CFG_MODE ≠ 4)
  (hfind : dirFind s.mem model epoch = some i)
include hmodel hepoch hmode hfind

/-- STAGE of an epoch in Near. -/
theorem stage_resident (hr : recFind s.mem model epoch = some r) (hrun : cmdRuns s 4 = true) (hspan : r.span = false)
    (husable : (dirGet s.mem i).unusable = false) (hpin : r.stagePin = false) (hnear : (dirGet s.mem i).near = true) :
    stage s = setResult (setMem s (stagePinned s.mem model epoch i)) 0 := by
  simp [stage, hrun, hmodel, hepoch, hmode, hfind, hr, hspan, husable, hpin, hnear, stagePinned]

/-- STAGE of an epoch that a reservation without eviction makes room for. -/
theorem stage_fetches (hr : recFind s.mem model epoch = some r) (hrun : cmdRuns s 4 = true) (hspan : r.span = false)
    (husable : (dirGet s.mem i).unusable = false) (hpin : r.stagePin = false) (hnear : (dirGet s.mem i).near = false)
    (hfetch : (dirGet s.mem i).fetch = false)
    (hplace : placeEpoch s model epoch (fun _ => true) (stagePinned s.mem model epoch i) = some m)
    (ht : t = addF (setMem s m) F.MEM_CNT_EVICT_NEAR 0) :
    stage s = setResult (queueFetch t model epoch (fetchBound t (devNow t) (entryOf t.mem model epoch) r.q5) false) 0 := by
  have hreserve : reserveEpoch (setMem s (stagePinned s.mem model epoch i)) model epoch = (true, t) := by
    rw [ht]
    exact reserveWith_fits (s := setMem s (stagePinned s.mem model epoch i)) 
      ((placeEpoch_congr (s := s) (t := setMem s (stagePinned s.mem model epoch i)) rfl rfl).trans hplace)
  unfold stagePinned at hreserve
  simp [stage, hrun, hmodel, hepoch, hmode, hfind, hr, hspan, husable, hpin, hnear, hfetch, hreserve]

theorem unstage_staged (hr : recFind s.mem model epoch = some r) (hrun : cmdRuns s 5 = true) (hpin : r.stagePin = true)
    (hnone : s.mem.switches = []) : unstage s = setResult (setMem s (stageDropped s.mem model epoch)) 0 := by
  rw [unstage, not_cmdRuns hrun, hmodel, hepoch, if_neg hmode, hfind, ← dropStage_staged hr hpin hnone]

/-! ### SWITCH (R301 to R304) -/

section
variable (hrun : cmdRuns s 3 = true) (hmaster : isMaster s = true) (hactive : (dirGet s.mem i).active = false)
  (hrefused : switchRefused s model (dirGet s.mem i) ((dirActive s.mem model).map (dirGet s.mem)) = none)
include hrun hmaster hactive hrefused

/-- SWITCH in a span is announced. -/
theorem switch_announces (hin : inSpan s = true) (hnear : (dirGet s.mem i).near = true) :
    switch true s = setResult (announceChange s srcDirectory none 3 (frameNow s + 2) (model + epoch * 2 ^ 32)) 0 := by
  simp [switch, hrun, hmaster, hmodel, hepoch, hmode, hfind, hactive, hrefused, hin, hnear]

variable {n f v o : Nat} (hout : inSpan s = false) (hterms : switchTerms s model epoch (dirActive s.mem model) = (n, f, v, o))
include hout hterms

/-- SWITCH where there is room (R302). -/
theorem switch_now (hroom : n ≤ f + v) :
    switch b s = setResult (keepTransom (dropStage (switchNow s model epoch) model epoch) model epoch) 0 := by
  simp [switch, hrun, hmaster, hmodel, hepoch, hmode, hfind, hactive, hrefused, hout, hterms, hroom]

/-- SWITCH where only the old epoch's units give room, and that is in use (R304). -/
theorem switch_later (hfull : f + v < n) (hroom : n ≤ f + v + o) (hold : dirActive s.mem model = some j) (huse : isCandidate s s.mem j = false) :
    switch b s = setResult (keepTransom (dropStage (switchLater s model epoch (dirGet s.mem j).epoch) model epoch) model epoch) 0 := by
  rw [hold, Option.map_some] at hrefused
  rw [hold] at hterms
  simp [switch, hrun, hmaster, hmodel, hepoch, hmode, hfind, hactive, hrefused, hout, hterms, hold, huse, hroom, Nat.not_le.2 hfull]

end
end

/-- Out of maintenance mode, and without a stage pin on the target, nothing follows the move of ACTIVE (R297, R300). -/
theorem nothing_follows (hmode : getF t F.CFG_MODE ≠ 2) (hrecs : t.mem.recs = s.mem.recs) (hr : recFind s.mem model epoch = some r)
    (hpin : r.stagePin = false) : keepTransom (dropStage t model epoch) model epoch = t := by
  have hdrop : dropStage t model epoch = t := dropStage_unpinned fun q hq => by
    rw [recFind_of_recs hrecs, hr] at hq
    cases hq
    exact hpin
  rw [hdrop]
  exact if_pos hmode

theorem fieldsKept_setMem {fs : List Fld} (h : fieldsKept fs s t) : fieldsKept fs s (setMem t m) := h

theorem fieldsKept_setWgt {fs : List Fld} {x : WgtSt} (h : fieldsKept fs s t) : fieldsKept fs s (setWgt t x) := h

/-- The fields that an immediate switch writes, and those that a pending one does. -/
def switchNowFields : List Fld := [F.WGT_STAT_SWITCH_DONE, F.WGT_CNT_SWITCH]

def switchLaterFields : List Fld := [F.WGT_STAT_SWITCH_PEND, F.WGT_Q_EPOCH_PEND_EPOCH, F.WGT_CNT_DEFER]

/-- A switch is shown as done, with the tiers `m`. -/
def switchDone (s : State) (m : MemSt) : State := bump (raise (setMem s m) F.WGT_STAT_SWITCH_DONE) F.WGT_CNT_SWITCH

theorem switchNow_eq : switchNow s model epoch = switchDone s (moveActive s.mem model epoch) := rfl

theorem fieldsKept_switchDone : fieldsKept switchNowFields s (switchDone s m) :=
  fieldsKept_setF (fieldsKept_setF (fieldsKept_setMem fieldsKept_refl) (by simp [switchNowFields])) (by simp [switchNowFields])

theorem switchDone_shows (hc : s.fieldsCanonical = true) : isSet (switchDone s m) F.WGT_STAT_SWITCH_DONE = true ∧
    getF (switchDone s m) F.WGT_CNT_SWITCH = satAdd 32 (getF s F.WGT_CNT_SWITCH) 1 := by
  have hmoved : (setMem s m).fieldsCanonical = true := hc
  constructor
  · simp (disch := (repeat apply setF_canonical); assumption) [isSet, switchDone, bump, addF, raise, getF_setF]
  · exact (getF_bump (raise_canonical hmoved)).trans (by rw [raise, Laws.getF_setF_other _ _ _ _ (by decide), getF_setMem])

/-- A switch to `epoch` is shown as pending, with the tiers `m` and the weight-command engine `x`. -/
def switchPended (s : State) (m : MemSt) (x : WgtSt) (epoch : Nat) : State :=
  bump (setF (raise (setWgt (setMem s m) x) F.WGT_STAT_SWITCH_PEND) F.WGT_Q_EPOCH_PEND_EPOCH epoch) F.WGT_CNT_DEFER

/-- The tiers with a switch that is pending. -/
def withPending (m : MemSt) (w : PendSwitch) (epoch : Nat) : MemSt :=
  { moveActive m w.model epoch with switches := (moveActive m w.model epoch).switches ++ [w] }

theorem withPending_only {w : PendSwitch} : withPending m w epoch = { m with dir := (moveActive m w.model epoch).dir, switches := m.switches ++ [w] } := by
  unfold withPending
  rw [activeOnly_moveActive.rest]

theorem switchLater_eq {old : Nat} : switchLater s model epoch old =
    switchPended s (withPending s.mem ⟨model, old, epoch, drainTick s model old⟩ epoch) { s.wgt with qModel := model } epoch := by
  unfold switchLater switchPended withPending
  dsimp only
  generalize moveActive s.mem model epoch = m
  rfl

theorem fieldsKept_switchPended {x : WgtSt} : fieldsKept switchLaterFields s (switchPended s m x epoch) :=
  fieldsKept_setF (fieldsKept_setF (fieldsKept_setF (fieldsKept_setWgt (fieldsKept_setMem fieldsKept_refl)) (by simp [switchLaterFields]))
    (by simp [switchLaterFields])) (by simp [switchLaterFields])

theorem switchPended_shows {x : WgtSt} (hc : s.fieldsCanonical = true) : isSet (switchPended s m x epoch) F.WGT_STAT_SWITCH_PEND = true ∧
    getF (switchPended s m x epoch) F.WGT_CNT_DEFER = satAdd 32 (getF s F.WGT_CNT_DEFER) 1 := by
  have hpended : (setWgt (setMem s m) x).fieldsCanonical = true := hc
  constructor
  · simp (disch := (repeat apply setF_canonical); assumption) [isSet, switchPended, bump, addF, raise, getF_setF]
  · refine (getF_bump (setF_canonical (raise_canonical hpended))).trans ?_
    rw [raise, Laws.getF_setF_other _ _ _ _ (by decide), Laws.getF_setF_other _ _ _ _ (by decide)]
    rfl

/-! ### The parts of O56 -/

theorem tiersKept_of_maps (hnear : t.mem.near = s.mem.near) (hbulk : t.mem.bulk = s.mem.bulk) : tiersKept s t := by
  unfold tiersKept
  rw [hnear, hbulk]
  exact ⟨fun _ => rfl, fun _ => rfl⟩

/-- An announcement is noted; besides that only messages go out. -/
theorem announceChange_notes {src subject n operand : Nat} {c : Option Stamp} :
    (announceChange s src c subject n operand).mem = s.mem ∧
    (announceChange s src c subject n operand).span = { s.span with announced := s.span.announced ++ [⟨subject, n, operand⟩] } := by
  obtain ⟨_, _, _, _, hrest⟩ := (ctrlOnly_eventToAll (s := setSpan s { s.span with announced := s.span.announced ++ [⟨subject, n, operand⟩] })
    (src := src) (c := c) (msg := 0x0A) (n := n) (arg := subject + n % 2 ^ 48 * 2 ^ 8 + operand * 2 ^ 56)).rest
  rw [announceChange, hrest]
  exact ⟨rfl, rfl⟩

/-- A stage pin leaves the tiers but for the pin and the record. -/
theorem stagePinned_shows (hwf : smapWf noEntry s.mem.dir = true) (hr : recFind s.mem model epoch = some r)
    (ht : t = setResult (setMem s (stagePinned s.mem model epoch i)) 0) : t.wgt.result = some 0 ∧
    dirGet t.mem i = { dirGet s.mem i with pin := (dirGet s.mem i).pin + 1, gen := ((dirGet s.mem i).gen + 1) % 65536 } ∧
    (∃ q, recFind t.mem model epoch = some q ∧ q.stagePin = true) ∧ t.flds = s.flds ∧ tiersKept s t ∧ t.mem.jobs = s.mem.jobs := by
  have hmem : t.mem = stagePinned s.mem model epoch i := by rw [ht]; rfl
  refine ⟨by rw [ht]; rfl, by rw [hmem]; exact stagePinned_entry hwf, ⟨_, by rw [hmem]; exact stagePinned_record hr, rfl⟩, by rw [ht]; rfl,
    tiersKept_of_maps ?_ ?_, ?_⟩ <;> rw [hmem, stagePinned_only] <;> rfl

/-- A fetch that STAGE calls for is queued with the bound of the moment. -/
theorem stageFetch_shows (hc : s.fieldsCanonical = true) (hwf : smapWf noEntry s.mem.dir = true) (hfind : dirFind s.mem model epoch = some i)
    (hplace : placeEpoch s model epoch (fun _ => true) (stagePinned s.mem model epoch i) = some m)
    (hbound : bound = fetchBound s (getF s F.TICK_DT) (dirGet s.mem i) b) (hu : u = addF (setMem s m) F.MEM_CNT_EVICT_NEAR 0)
    (ht : t = setResult (queueFetch u model epoch (fetchBound u (devNow u) (entryOf u.mem model epoch) b) false) 0) :
    t.wgt.result = some 0 ∧ (entryOf t.mem model epoch).fetch = true ∧ (entryOf t.mem model epoch).pin = (dirGet s.mem i).pin + 1 ∧
    (∃ j, t.mem.jobs.map unissued = (s.mem.jobs ++ [j]).map unissued ∧ j.model = model ∧ j.epoch = epoch ∧ j.fromStore = !(dirGet s.mem i).bulk ∧
      j.bound = bound) ∧ getF t (busyF (!(dirGet s.mem i).bulk)) = bound % 2 ^ 64 := by
  have hplaced := placedOnly_placeEpoch hplace
  have hdir : u.mem.dir = (stagePinned s.mem model epoch i).dir := by
    rw [hu]
    exact (congrArg MemSt.dir hplaced :)
  have hjobs : u.mem.jobs = s.mem.jobs := by
    rw [hu]
    refine (congrArg MemSt.jobs hplaced : m.jobs = _).trans ?_
    rw [stagePinned_only]
    rfl
  have hfind' : dirFind u.mem model epoch = some i := (dirFind_of_dir hdir).trans (stagePinned_find hwf hfind)
  have hentry : entryOf u.mem model epoch =
      { dirGet s.mem i with pin := (dirGet s.mem i).pin + 1, gen := ((dirGet s.mem i).gen + 1) % 65536 } :=
    (entryOf_of_dir hdir).trans ((entryOf_of_find (stagePinned_find hwf hfind)).trans (stagePinned_entry hwf))
  have hkept : fieldsKept [F.MEM_CNT_EVICT_NEAR] s u := by
    rw [hu]
    exact fieldsKept_setF (fieldsKept_setMem fieldsKept_refl) (by simp)
  have hcu : u.fieldsCanonical = true := by
    rw [hu]
    exact setF_canonical (setMem_canonical hc)
  have hwfu : smapWf noEntry u.mem.dir = true := by
    rw [hdir]
    exact smapWf_dirUpd (m := recUpd s.mem model epoch (fun r => { r with stagePin := true })) hwf
  have hbound' : fetchBound u (devNow u) (entryOf u.mem model epoch) b = bound := by
    rw [hentry, devNow, hkept F.TICK_DT (by decide), hbound]
    exact fetchBound_congr hkept rfl rfl
  obtain ⟨hfetch, hpin, hqueue, hbusy⟩ := fetchShown_queueFetch (bound := bound) (w := false) hcu hwfu (Option.isSome_of_eq_some hfind')
  rw [hentry] at hpin hbusy
  rw [ht, hbound', setResult_mem, getF_setResult]
  exact ⟨rfl, hfetch, hpin, ⟨fetchJob u model epoch bound false, by rw [hqueue, hjobs], rfl, rfl, by rw [fetchJob, hentry], rfl⟩, hbusy⟩

theorem switchDone_mem : (switchDone s m).mem = m := rfl

theorem switchPended_mem {x : WgtSt} : (switchPended s m x epoch).mem = m := rfl

/-- What an immediate switch leaves of the tiers (R302). -/
theorem switchNow_mem (hwf : smapWf noEntry s.mem.dir = true) (ht : t.mem = (switchNow s model epoch).mem) : t.mem.switches = s.mem.switches ∧
    tiersKept s t ∧ ∀ k ∈ dirWays model, (dirGet s.mem k).valid = true → (dirGet s.mem k).modelId = model →
      (dirGet t.mem k).active = ((dirGet s.mem k).epoch == epoch) := by
  rw [switchNow_eq, switchDone_mem] at ht
  refine ⟨?_, tiersKept_of_maps ?_ ?_, fun k hk hvalid hname => ?_⟩
  case refine_4 =>
    rw [ht]
    exact moveActive_active hwf hk hvalid hname
  all_goals rw [ht, activeOnly_moveActive.rest]

/-- What a switch that is pending leaves of the tiers (R304). -/
theorem switchLater_mem {old : Nat} (ht : t.mem = (switchLater s model epoch old).mem) :
    t.mem.switches = s.mem.switches ++ [⟨model, old, epoch, drainTick s model old⟩] ∧ tiersKept s t := by
  rw [switchLater_eq, switchPended_mem] at ht
  refine ⟨?_, tiersKept_of_maps ?_ ?_⟩ <;> rw [ht, withPending_only]

theorem switchNow_fields (hc : s.fieldsCanonical = true) : (isSet (switchNow s model epoch) F.WGT_STAT_SWITCH_DONE = true ∧
    getF (switchNow s model epoch) F.WGT_CNT_SWITCH = satAdd 32 (getF s F.WGT_CNT_SWITCH) 1) ∧ fieldsKept switchNowFields s (switchNow s model epoch) := by
  rw [switchNow_eq]
  exact ⟨switchDone_shows hc, fieldsKept_switchDone⟩

theorem switchLater_fields {old : Nat} (hc : s.fieldsCanonical = true) : (isSet (switchLater s model epoch old) F.WGT_STAT_SWITCH_PEND = true ∧
    getF (switchLater s model epoch old) F.WGT_CNT_DEFER = satAdd 32 (getF s F.WGT_CNT_DEFER) 1) ∧
    fieldsKept switchLaterFields s (switchLater s model epoch old) := by
  rw [switchLater_eq]
  exact ⟨switchPended_shows hc, fieldsKept_switchPended⟩

/-- Out of maintenance mode, and without a stage pin on the target, nothing follows a switch (R297, R300). -/
theorem switchNow_alone (hmode : getF s F.CFG_MODE ≠ 2) (hr : recFind s.mem model epoch = some r) (hpin : r.stagePin = false) :
    keepTransom (dropStage (switchNow s model epoch) model epoch) model epoch = switchNow s model epoch := by
  refine nothing_follows ?_ ?_ hr hpin
  · rw [switchNow_eq, fieldsKept_switchDone F.CFG_MODE (by decide)]
    exact hmode
  · rw [switchNow_eq, switchDone_mem, activeOnly_moveActive.rest]

theorem switchLater_alone {old : Nat} (hmode : getF s F.CFG_MODE ≠ 2) (hr : recFind s.mem model epoch = some r) (hpin : r.stagePin = false) :
    keepTransom (dropStage (switchLater s model epoch old) model epoch) model epoch = switchLater s model epoch old := by
  refine nothing_follows ?_ ?_ hr hpin
  · rw [switchLater_eq, fieldsKept_switchPended F.CFG_MODE (by decide)]
    exact hmode
  · rw [switchLater_eq, switchPended_mem, withPending_only]

end

/-- Settles O56: the end of a command is `CmdEnded`, QUERY is `QueryShows`, STAGE pins (`stagePinned`) and queues a fetch (`FetchShown`), UNSTAGE takes the pin away
(`stageDropped`), and SWITCH is an announcement, `switchDone` or `switchPended`. -/
theorem weightCommandsRun : Obligations.WeightCommandsRun := by
  intro s model epoch hc hm hbusy hmodel hepoch
  have hwf := dirCanonical hm
  refine ⟨fun v hresult hv hop => ?_, fun hresult => ⟨?_, fun hop => ?_, fun i e r hstore hmode hfind he hr => ?_⟩⟩
  · obtain ⟨hended, hfail, hwgt, hmem⟩ := wgtCmdEnd_shows hc hbusy hresult hv hop
    exact ⟨_, exec_wgtCmdEnd, hended.busy, hended.op, hended.result, hended.done, hfail, hwgt, hended.fields, hmem⟩
  · rw [exec_wgtCmdEnd, wgtCmdEnd_none hresult]
  · have hrun := cmdRuns_of hbusy hresult hop
    have hshown := query_shows hc hrun hmodel hepoch
    refine ⟨_, exec_query, hshown.result, hshown.active, fun w hw => ?_, Bool.eq_iff_iff.1 hshown.registered, hshown.pin, hshown.fields, hshown.mem,
      hshown.adm⟩
    obtain ⟨-, htarget, hdrain, -⟩ := hshown
    rw [hw] at htarget hdrain
    exact ⟨htarget, hdrain⟩
  subst he
  refine ⟨fun hop hspan husable hpin => ⟨fun hnear => ?_, fun m hnear hfetch hplace => ?_⟩, fun hop hpin hnone => ?_,
    fun hop hmaster hactive hrefused => ⟨fun hin hnear => ?_, fun n f v o b hout hpin hterms => ⟨fun hroom => ?_, fun j hfull hroom hold huse => ?_⟩⟩⟩
  all_goals have hrun := cmdRuns_of hbusy hresult hop
  · exact ⟨_, exec_stage, stagePinned_shows hwf hr (stage_resident hmodel hepoch hmode hfind hr hrun hspan husable hpin hnear)⟩
  · exact ⟨_, exec_stage, stageFetch_shows hc hwf hfind hplace rfl rfl
      (stage_fetches hmodel hepoch hmode hfind hr hrun hspan husable hpin hnear hfetch hplace rfl)⟩
  · rw [exec_unstage, unstage_staged hmodel hepoch hmode hfind hr hrun hpin hnone]
    refine ⟨_, rfl, rfl, stageDropped_pin hwf hfind, ⟨_, stageDropped_record hr, rfl⟩, rfl, tiersKept_of_maps ?_ ?_⟩
    all_goals rw [setResult_mem, Laws.setMem_mem, stageDropped_only]; rfl
  · rw [exec_switch, switch_announces hmodel hepoch hmode hfind hrun hmaster hactive hrefused hin hnear]
    obtain ⟨hmem, hspan⟩ := announceChange_notes (s := s) (src := srcDirectory) (subject := 3) (n := frameNow s + 2)
      (operand := model + epoch * 2 ^ 32) (c := none)
    exact ⟨_, rfl, rfl, hmem, congrArg SpanSt.announced hspan⟩
  · rw [exec_switch, switch_now hmodel hepoch hmode hfind hrun hmaster hactive hrefused hout hterms hroom]
    obtain ⟨hswitches, htiers, hactive⟩ := switchNow_mem hwf (setResult_mem (s := switchNow s model epoch) (n := 0))
    obtain ⟨⟨hdone, hcount⟩, hfields⟩ := switchNow_fields (model := model) (epoch := epoch) hc
    rw [switchNow_alone hstore hr hpin]
    generalize switchNow s model epoch = u at hdone hcount hswitches htiers hactive hfields ⊢
    exact ⟨_, rfl, rfl, hdone, hcount, hswitches, htiers, hactive, hfields⟩
  · rw [exec_switch, switch_later hmodel hepoch hmode hfind hrun hmaster hactive hrefused hout hterms hfull hroom hold huse]
    obtain ⟨hswitches, htiers⟩ := switchLater_mem (setResult_mem (s := switchLater s model epoch (dirGet s.mem j).epoch) (n := 0))
    obtain ⟨⟨hpend, hcount⟩, hfields⟩ := switchLater_fields (model := model) (epoch := epoch) (old := (dirGet s.mem j).epoch) hc
    rw [switchLater_alone hstore hr hpin]
    generalize switchLater s model epoch (dirGet s.mem j).epoch = u at hpend hcount hswitches htiers hfields ⊢
    exact ⟨_, rfl, rfl, hpend, hcount, hswitches, hfields, htiers⟩

end Sys2Proof.Proofs

/-! SUPPORT. Writes to Store (R256 to R258): what a session and the blocks written in it leave. -/
namespace Sys2Proof.Proofs
open Sys2Proof Sys2Proof.Machine

section
variable {s t u : State} {fs : List Fld} {f : Fld} {a b n : Nat}

/-- From `s` to `t` Store was written, with `begun` sessions begun: only the catalogue, what goes out, the free values and the fields `fs` have moved. -/
structure StoreWritten (fs : List Fld) (begun : Nat) (s t : State) : Prop where
  rest : ∃ l c o x, t = { s with flds := l, mem := { s.mem with catalogue := c }, out := o, freeCtr := x }
  fields : fieldsKept fs s t
  canonical : s.fieldsCanonical = true → t.fieldsCanonical = true
  wgen : t.mem.catalogue.wgenHigh = s.mem.catalogue.wgenHigh + begun

theorem storeWritten_refl : StoreWritten fs 0 s s := ⟨⟨_, _, _, _, rfl⟩, fieldsKept_refl, id, rfl⟩

theorem storeWritten_trans (h : StoreWritten fs a s t) (h' : StoreWritten fs b t u) : StoreWritten fs (a + b) s u := by
  obtain ⟨⟨_, _, _, _, rfl⟩, hf, hc, hw⟩ := h
  obtain ⟨⟨_, _, _, _, rfl⟩, hf', hc', hw'⟩ := h'
  exact ⟨⟨_, _, _, _, rfl⟩, fieldsKept_trans hf hf', hc' ∘ hc, by rw [hw', hw, Nat.add_assoc]⟩

theorem storeWritten_emit {o : OutMsg} : StoreWritten fs 0 s (emit s o) := ⟨⟨_, _, _, _, rfl⟩, fun _ _ => rfl, id, rfl⟩

theorem storeWritten_foldl {α : Type} {g : State → α → State} {l : List α} (hg : ∀ t x, StoreWritten fs 0 t (g t x)) : StoreWritten fs 0 s (l.foldl g s) :=
  List.foldlRecOn l g storeWritten_refl fun _ ht x _ => storeWritten_trans ht (hg _ x)

theorem storeWritten_placeBlocks {more : List ShardRec} : StoreWritten fs 0 s (placeBlocks s more n).2 :=
  ⟨⟨_, _, _, _, rfl⟩, fun _ _ => rfl, id, rfl⟩

theorem storeWritten_setCatalogue {c : Catalogue} (hc : c.wgenHigh = s.mem.catalogue.wgenHigh + n) : StoreWritten fs n s (setCatalogue s c) :=
  ⟨⟨_, _, _, _, rfl⟩, fun _ _ => rfl, id, hc⟩

theorem storeWritten_bump (hf : f ∈ fs) : StoreWritten fs 0 s (bump s f) :=
  ⟨⟨_, _, _, _, rfl⟩, fieldsKept_setF fieldsKept_refl hf, bump_canonical, rfl⟩

theorem storeWritten_writeBlocks {h : ShardRec} {r : EpochRec} {bytes : List Nat} : StoreWritten fs 0 s (writeBlocks s h r bytes) :=
  storeWritten_foldl fun _ _ => storeWritten_emit

/-- The catalogue of a session that begins: WGEN advances, and a header copy holds it. -/
def sessionBegun (c : Catalogue) : Catalogue :=
  { (if (c.wgenHigh + 1) % 2 = 0 then { c with head0 := some (c.wgenHigh + 1) } else { c with head1 := some (c.wgenHigh + 1) }) with
    wgenHigh := c.wgenHigh + 1 }

theorem sessionBegun_epochs {c : Catalogue} : (sessionBegun c).epochs = c.epochs := by
  unfold sessionBegun
  split <;> rfl

/-- A session begins with the header's write and its flush. -/
theorem beginSession_eq : ∃ o o', beginSession s = emit (emit (setCatalogue s (sessionBegun s.mem.catalogue)) o) o' := ⟨_, _, rfl⟩

theorem storeWritten_beginSession : StoreWritten fs 1 s (beginSession s) := by
  obtain ⟨o, o', hbegin⟩ := beginSession_eq (s := s)
  rw [hbegin]
  exact storeWritten_trans (a := 1) (b := 0) (storeWritten_setCatalogue rfl) (storeWritten_trans (a := 0) (b := 0) storeWritten_emit storeWritten_emit)

theorem beginSession_epochs : (beginSession s).mem.catalogue.epochs = s.mem.catalogue.epochs := by
  obtain ⟨o, o', hbegin⟩ := beginSession_eq (s := s)
  rw [hbegin]
  exact sessionBegun_epochs

/-- Every drive of `d` is flushed. -/
def drivesFlushed (s : State) (d : List (Nat × Nat)) : State := d.foldl (fun s p => nvmeIo s p.1 0x00 0) s

theorem drivesFlushed_mem {d : List (Nat × Nat)} : (drivesFlushed s d).mem = s.mem :=
  List.foldlRecOn (motive := fun t : State => t.mem = s.mem) d _ rfl fun _ ht _ _ => ht

/-- Before the drives are flushed at the end of a session, the catalogue's own block has been written, if there is one. -/
theorem closeWrites_cases : ∃ l o d, closeWrites s = drivesFlushed (placeBlocks s [] 1).2 d ∨ closeWrites s =
    drivesFlushed (emit (setCatalogue (placeBlocks s [] 1).2 { (placeBlocks s [] 1).2.mem.catalogue with own := l }) o) d := by
  unfold closeWrites drivesFlushed
  dsimp only
  split
  · exact ⟨[], .nvme 0 0 false 0 0, _, .inl rfl⟩
  · exact ⟨_, _, _, .inr rfl⟩

theorem storeWritten_closeWrites : StoreWritten fs 0 s (closeWrites s) := by
  have hflushed {t : State} {d : List (Nat × Nat)} : StoreWritten fs 0 t (drivesFlushed t d) := storeWritten_foldl fun _ _ => storeWritten_emit
  have hplaced : StoreWritten fs 0 s (placeBlocks s [] 1).2 := storeWritten_placeBlocks
  obtain ⟨l, o, d, h | h⟩ := closeWrites_cases (s := s) <;> rw [h]
  · exact storeWritten_trans (a := 0) (b := 0) hplaced hflushed
  · exact storeWritten_trans (a := 0) (b := 0) (storeWritten_trans (a := 0) (b := 0) hplaced
      (storeWritten_trans (a := 0) (b := 0)
        (storeWritten_setCatalogue (c := { (placeBlocks s [] 1).2.mem.catalogue with own := l }) rfl) storeWritten_emit)) hflushed

theorem closeWrites_epochs : (closeWrites s).mem.catalogue.epochs = s.mem.catalogue.epochs := by
  obtain ⟨l, o, d, h | h⟩ := closeWrites_cases (s := s) <;> rw [h, drivesFlushed_mem] <;> rfl

theorem storeWritten_mem (h : StoreWritten fs n s t) : t.mem = { s.mem with catalogue := t.mem.catalogue } ∧ t.adm = s.adm := by
  obtain ⟨⟨_, _, _, _, rfl⟩, -⟩ := h
  exact ⟨rfl, rfl⟩

end
end Sys2Proof.Proofs

/-! SUPPORT. INGEST (R291): the shards of an image are written in one session, and the epoch is registered in Store alone. -/
namespace Sys2Proof.Proofs
open Sys2Proof Sys2Proof.Machine

section
variable {s t u : State} {m m' : MemSt} {i k map : Nat} {r : EpochRec} {h : ShardRec} {rd : Nat → Nat} {x : Manifest} {y : Bool × State} {b : Bool}

theorem exec_ingest {image : List Byte} : exec (.ingest image) s = .next (ingest image s) := rfl

/-! ### The shards of an image (R291 step 3) -/

/-- What ingesting has come to, the session begun or not: Store alone was written, in that session. -/
def Ingested (s : State) (y : Bool × State) : Prop := StoreWritten [F.WGT_ING_PROG] y.1.toNat s y.2

/-- The state in which the session of an ingest is open. -/
def sessionOpen (y : Bool × State) : State := if y.1 then y.2 else beginSession y.2

theorem ingested_sessionOpen (hy : Ingested s y) : StoreWritten [F.WGT_ING_PROG] 1 s (sessionOpen y) := by
  obtain ⟨b, t⟩ := y
  cases b
  · exact storeWritten_trans (a := 0) (b := 1) hy storeWritten_beginSession
  · exact hy

/-- A shard of this member's own with its blocks, and the state in which they are written. -/
def shardWithRuns (x : Manifest) (k : Nat) (h : ShardRec) (u : State) : ShardRec :=
  { h with runs := (placeBlocks u (x.done k) (ceilDiv h.clen 4096)).1 }

def shardStored (rd : Nat → Nat) (x : Manifest) (k : Nat) (h : ShardRec) (u : State) : State :=
  bump (writeBlocks (placeBlocks u (x.done k) (ceilDiv h.clen 4096)).2 (shardWithRuns x k h u) x.ep (bytesAt rd (x.offs.getD k 0) h.clen)) F.WGT_ING_PROG

theorem storeWritten_shardStored : StoreWritten [F.WGT_ING_PROG] 0 u (shardStored rd x k h u) := by
  unfold shardStored
  exact storeWritten_trans (a := 0) (b := 0) (storeWritten_trans (a := 0) (b := 0) storeWritten_placeBlocks storeWritten_writeBlocks)
    (storeWritten_bump (by simp))

theorem ingestShard_passes (hcheck : checkShard x.ep.q5 h (bytesAt rd (x.offs.getD k 0) h.clen) = 0) : ingestShard rd x y k h =
    if ownShard y.2 x.ep h then (0, shardWithRuns x k h (sessionOpen y), true, shardStored rd x k h (sessionOpen y)) else (0, h, y) := by
  rw [ingestShard, hcheck]
  cases ownShard y.2 x.ep h <;> rfl

/-- A shard that passes its checks is taken. -/
theorem ingestShard_takes (hcheck : checkShard x.ep.q5 h (bytesAt rd (x.offs.getD k 0) h.clen) = 0) (hy : Ingested s y) :
    ∃ h' z, ingestShard rd x y k h = (0, h', z) ∧ Ingested s z := by
  rw [ingestShard_passes hcheck]
  split
  · exact ⟨_, _, rfl, storeWritten_trans (a := 1) (b := 0) (ingested_sessionOpen hy) storeWritten_shardStored⟩
  · exact ⟨_, _, rfl, hy⟩

/-- After a shard that is taken the others follow. -/
theorem ingestShards_cons {h' : ShardRec} {l hs : List ShardRec} {z z' : Bool × State} (hshard : ingestShard rd x y k h = (0, h', z))
    (hrest : ingestShards rd (x.hold k h') (k + 1) l z = (0, hs, z')) : ingestShards rd x k (h :: l) y = (0, h' :: hs, z') := by
  rw [ingestShards, hshard]
  exact congrArg (fun r => (r.1, h' :: r.2.1, r.2.2)) hrest

/-- So are all the shards of an image that pass. -/
theorem ingestShards_takes {l : List ShardRec} (hcheck : ∀ j h, l[j]? = some h →
    checkShard x.ep.q5 h (bytesAt rd (x.offs.getD (k + j) 0) h.clen) = 0) (hy : Ingested s y) :
    ∃ hs z, ingestShards rd x k l y = (0, hs, z) ∧ hs.length = l.length ∧ Ingested s z := by
  induction l generalizing x k y with
  | nil => exact ⟨_, _, rfl, rfl, hy⟩
  | cons h l ih =>
    obtain ⟨h', z, hshard, hz⟩ := ingestShard_takes (rd := rd) (k := k) (hcheck 0 h rfl) hy
    obtain ⟨hs, z', hrest, hlen, hz'⟩ := ih (x := x.hold k h') (k := k + 1) (fun j g hj => by
      rw [Nat.add_right_comm]
      exact hcheck (j + 1) g hj) hz
    exact ⟨h' :: hs, z', ingestShards_cons hshard hrest, by rw [List.length_cons, List.length_cons, hlen], hz'⟩

/-! ### The entry of a registered epoch (R261, R262, R291 step 5) -/

/-- The entry of an epoch that Store alone has. -/
def storeEntry (r : EpochRec) (active : Bool) (map : Nat) (e : DirEntry) : DirEntry :=
  { gen := e.gen, modelId := r.model, epoch := r.epoch, valid := true, active := active, store := true, map := map,
    shards := r.shards.length, nearSize := nearSizeOf r, bulkSize := bulkSizeOf r }

/-- The tiers with the epoch entered in way `i`. -/
def entered (m : MemSt) (i : Nat) (r : EpochRec) (active : Bool) (map : Nat) : MemSt :=
  { dirUpd m i (storeEntry r active map) with recs := m.recs ++ [r] }

theorem createEntry_free (hfree : (dirWays r.model).find? (fun i => !(dirGet s.mem i).valid) = some i) :
    createEntry s r b = setMem { s with freeCtr := s.freeCtr + 1 } (entered s.mem i r b ((Config.freeValue s.freeCtr).toNat % 2 ^ 32)) := by
  rw [createEntry, hfree]
  rfl

/-- From `m` to `m'` the epoch was entered, in Store alone, active as `active` says; but for its record and the catalogue, within its session, the tiers stay. -/
structure Entered (r : EpochRec) (active : Bool) (m m' : MemSt) : Prop where
  rest : m' = { m with dir := m'.dir, recs := m.recs ++ [r], catalogue := m'.catalogue }
  wgen : m'.catalogue.wgenHigh = m.catalogue.wgenHigh
  wf : smapWf noEntry m'.dir = true
  entry : ∃ i, dirFind m' r.model r.epoch = some i ∧ (dirGet m' i).store = true ∧ (dirGet m' i).near = false ∧ (dirGet m' i).bulk = false ∧
    (dirGet m' i).shards = r.shards.length ∧ (dirGet m' i).active = active

theorem entered_entered (hwf : smapWf noEntry m.dir = true) (hi : i ∈ dirWays r.model) (hnone : dirFind m r.model r.epoch = none) :
    Entered r b m (entered m i r b map) := by
  obtain ⟨x, hx⟩ : ∃ x, dirGet (entered m i r b map) i = { storeEntry r b map (dirGet m i) with gen := x } := dirGet_dirUpd_same hwf
  have hsome : (dirFind (entered m i r b map) r.model r.epoch).isSome = true :=
    List.find?_isSome.2 ⟨i, hi, by rw [hx]; simp [storeEntry]⟩
  obtain ⟨j, hj⟩ := Option.isSome_iff_exists.1 hsome
  have hji : j = i := by
    by_contra hne
    obtain ⟨hmem, hvalid, hmodel, hepoch⟩ := dirFind_name hj
    rw [show dirGet (entered m i r b map) j = dirGet m j from dirGet_dirUpd_other hne] at hvalid hmodel hepoch
    exact List.find?_eq_none.1 hnone j hmem (by simp [hvalid, hmodel, hepoch])
  refine ⟨?_, ?_, smapWf_dirUpd hwf, i, hji ▸ hj, ?_⟩
  · unfold entered
    rw [dirUpd_only]
  · unfold entered
    rw [dirUpd_only]
  · rw [hx]
    exact ⟨rfl, rfl, rfl, rfl, rfl⟩

/-- An epoch that has been entered, once ACTIVE has moved. -/
theorem entered_activeOnly {n : MemSt} {c : Bool} (h : Entered r b m m') (hmoved : ActiveOnly m' n)
    (hactive : ∀ i ∈ dirWays r.model, (dirGet m' i).valid = true → (dirGet m' i).modelId = r.model → (dirGet m' i).epoch = r.epoch →
      (dirGet n i).active = c) : Entered r c m n := by
  obtain ⟨hrest, hwgen, hwf, i, hi, hstore, hnear, hbulk, hshards, -⟩ := h
  obtain ⟨hmem, hvalid, hmodel, hepoch⟩ := dirFind_name hi
  have hentry := hmoved.entry hwf
  have hfind : dirFind n r.model r.epoch = some i := (dirFind_congr fun k => by
    obtain ⟨a, x, hk⟩ := hentry k
    rw [hk]
    exact ⟨rfl, rfl, rfl⟩).trans hi
  obtain ⟨a, x, hx⟩ := hentry i
  refine ⟨?_, ?_, hmoved.wf hwf, i, hfind, ?_, ?_, ?_, ?_, hactive i hmem hvalid hmodel hepoch⟩
  case refine_1 => rw [hmoved.rest, hrest]
  case refine_2 => rw [hmoved.rest, hwgen]
  all_goals rw [hx]; assumption

/-- ACTIVE moves to the epoch that has been entered. -/
theorem entered_moveActive (h : Entered r b m m') : Entered r true m (moveActive m' r.model r.epoch) :=
  entered_activeOnly h activeOnly_moveActive fun i hi hvalid hmodel hepoch => by
    rw [moveActive_active h.wf hi hvalid hmodel, hepoch, beq_self_eq_true]

theorem entered_of_catalogue {c : Catalogue} (h : Entered r b { m with catalogue := c } m') (hc : c.wgenHigh = m.catalogue.wgenHigh) : Entered r b m m' :=
  ⟨h.rest, h.wgen.trans hc, h.wf, h.entry⟩

/-! ### Registration (R291 steps 4 and 5) -/

/-- From `s` to `t` the epoch was entered, and registers besides show at most a switch. -/
structure NewEpoch (r : EpochRec) (active : Bool) (s t : State) : Prop where
  tiers : Entered r active s.mem t.mem
  adm : t.adm = s.adm
  fields : fieldsKept switchNowFields s t
  canonical : s.fieldsCanonical = true → t.fieldsCanonical = true

theorem newEpoch_createEntry (hwf : smapWf noEntry s.mem.dir = true) (hnone : dirFind s.mem r.model r.epoch = none)
    (hroom : ¬ (dirWays r.model).all (fun i => (dirGet s.mem i).valid) = true) : NewEpoch r b s (createEntry s r b) := by
  obtain ⟨j, hj, hfree⟩ : ∃ j ∈ dirWays r.model, (dirGet s.mem j).valid = false := by simpa using hroom
  have hsome : ((dirWays r.model).find? (fun i => !(dirGet s.mem i).valid)).isSome = true := List.find?_isSome.2 ⟨j, hj, by rw [hfree]; rfl⟩
  obtain ⟨i, hi⟩ := Option.isSome_iff_exists.1 hsome
  rw [createEntry_free hi]
  exact ⟨entered_entered hwf (List.mem_of_find?_eq_some hi) hnone, rfl, fun _ _ => rfl, id⟩

theorem newEpoch_of_storeWritten (h : StoreWritten [] 0 s t) (h' : NewEpoch r b t u) : NewEpoch r b s u := by
  obtain ⟨hmem, hadm⟩ := storeWritten_mem h
  obtain ⟨htiers, hadm', hfields, hcanon⟩ := h'
  rw [hmem] at htiers
  exact ⟨entered_of_catalogue htiers h.wgen, hadm'.trans hadm, fieldsKept_trans (fieldsKept_mono h.fields (List.nil_subset _)) hfields,
    hcanon ∘ h.canonical⟩

theorem newEpoch_switchNow (h : NewEpoch r b s t) : NewEpoch r true s (switchNow t r.model r.epoch) := by
  obtain ⟨htiers, hadm, hfields, hcanon⟩ := h
  have hmoved := entered_moveActive htiers
  rw [switchNow_eq]
  generalize moveActive t.mem r.model r.epoch = n at hmoved ⊢
  exact ⟨hmoved, hadm, fieldsKept_trans hfields fieldsKept_switchDone, fun hc => bump_canonical (raise_canonical (setMem_canonical (hcanon hc)))⟩

/-- The catalogue in which a new epoch is named, as the model's transom if it is to be active. -/
def namedEpoch (s : State) (x : Manifest) : Catalogue :=
  if (dirActive s.mem x.ep.model).isNone || x.activate then
    setTransom { s.mem.catalogue with epochs := s.mem.catalogue.epochs ++ [x.ep] } x.ep.model x.ep.epoch
  else { s.mem.catalogue with epochs := s.mem.catalogue.epochs ++ [x.ep] }

/-- The state in which the catalogue names the epoch and its session is closed. -/
def catalogued (s : State) (x : Manifest) : State := closeWrites (setCatalogue s (namedEpoch s x))

theorem storeWritten_catalogued : StoreWritten [] 0 s (catalogued s x) :=
  storeWritten_trans (a := 0) (b := 0) (storeWritten_setCatalogue (by unfold namedEpoch; split <;> rfl)) storeWritten_closeWrites

/-- Registration: the catalogue, the entry, a switch where one is to be made, and the count. -/
theorem register_eq : register s x =
    bump (if (dirActive s.mem x.ep.model).isSome && x.activate then
      switchNow (createEntry (catalogued s x) x.ep (dirActive s.mem x.ep.model).isNone) x.ep.model x.ep.epoch
      else createEntry (catalogued s x) x.ep (dirActive s.mem x.ep.model).isNone) F.WGT_CNT_INGEST := rfl

/-- A registered epoch is active where the model had no other, or where the image asks for it. -/
theorem register_enters (hwf : smapWf noEntry s.mem.dir = true) (hnone : dirFind s.mem x.ep.model x.ep.epoch = none)
    (hroom : ¬ (dirWays x.ep.model).all (fun i => (dirGet s.mem i).valid) = true) : ∃ w, register s x = bump w F.WGT_CNT_INGEST ∧
      NewEpoch x.ep ((dirActive s.mem x.ep.model).isNone || x.activate) s w := by
  have hnamed := storeWritten_catalogued (s := s) (x := x)
  obtain ⟨hmem, -⟩ := storeWritten_mem hnamed
  have hcreated : NewEpoch x.ep (dirActive s.mem x.ep.model).isNone s (createEntry (catalogued s x) x.ep (dirActive s.mem x.ep.model).isNone) := by
    refine newEpoch_of_storeWritten hnamed (newEpoch_createEntry ?_ ?_ ?_) <;> rw [hmem] <;> assumption
  refine ⟨_, register_eq, ?_⟩
  split
  · next hswitch =>
    obtain ⟨-, hactivate⟩ := Bool.and_eq_true_iff.1 hswitch
    rw [hactivate, Bool.or_true]
    exact newEpoch_switchNow hcreated
  · next hstays =>
    have hactive : ((dirActive s.mem x.ep.model).isNone || x.activate) = (dirActive s.mem x.ep.model).isNone := by
      cases hold : dirActive s.mem x.ep.model <;> simp_all
    rw [hactive]
    exact hcreated

/-! ### The command (R291 steps 1 and 2) -/

/-- The state in which an ingest has shown that no shard is written yet. -/
def progCleared (s : State) : State := setF s F.WGT_ING_PROG 0

theorem getF_progCleared {f : Fld} (hf : f.key ≠ F.WGT_ING_PROG.key) : getF (progCleared s) f = getF s f := Laws.getF_setF_other _ _ _ _ hf

theorem fieldsKept_progCleared : fieldsKept [F.WGT_ING_PROG] s (progCleared s) := fieldsKept_setF fieldsKept_refl (by simp)

theorem prog_progCleared (hc : s.fieldsCanonical = true) : getF (progCleared s) F.WGT_ING_PROG = 0 := by
  simp (disch := assumption) [progCleared, getF_setF]

theorem ingestRefused_progCleared : ingestRefused (progCleared s) x = ingestRefused s x := by
  have hup : isSet (progCleared s) F.MEM_STAT_STORE_UP = isSet s F.MEM_STAT_STORE_UP := isSet_congr (getF_progCleared (by decide))
  have hblocks : storeBlocks (progCleared s) x.ep = storeBlocks s x.ep := by
    unfold storeBlocks ownShard ownOrd
    rw [getF_progCleared (by decide)]
  unfold ingestRefused
  dsimp only
  rw [hup, hblocks]
  rfl

/-- An image whose checks of step 2 pass names an epoch that the directory does not have, and the set has a free way. -/
theorem room_of_ingestRefused (h : ingestRefused s x = none) : dirFind s.mem x.ep.model x.ep.epoch = none ∧
    ¬ (dirWays x.ep.model).all (fun i => (dirGet s.mem i).valid) = true := by
  unfold ingestRefused at h
  dsimp only at h
  split at h
  · cases h
  · next hnone =>
    split at h
    · cases h
    · next hroom => exact ⟨Option.not_isSome_iff_eq_none.1 hnone, hroom⟩

section
variable {image : List Byte} (hrun : cmdRuns s 1 = true)
include hrun

theorem ingest_elsewhere (hmode : getF s F.CFG_MODE ≠ 2) : ingest image s = setResult (progCleared s) 1 := by
  rw [ingest, not_cmdRuns hrun]
  exact if_pos (by rw [Laws.getF_setF_other _ _ _ _ (by decide)]; exact hmode)

theorem ingest_badManifest (hmode : getF s F.CFG_MODE = 2) (hbad : manifestOk (listReader image) (getF s F.WGT_ING_LEN) = false) :
    ingest image s = setResult (progCleared s) 2 := by
  have hmode' : getF (progCleared s) F.CFG_MODE = 2 := (getF_progCleared (by decide)).trans hmode
  simp [ingest, hrun, show setF s F.WGT_ING_PROG 0 = progCleared s from rfl, hmode', hbad]

/-- An image all of whose checks pass is written to Store in one session and registered. -/
theorem ingest_accepts (hmode : getF s F.CFG_MODE = 2) (hx : x = manifestOf (listReader image))
    (hmanifest : manifestOk (listReader image) (getF s F.WGT_ING_LEN) = true)
    (hshards : shardsOk (listReader image) x (getF s F.WGT_ING_LEN) (spanSize s) = true) (hobjects : objectsOk (listReader image) x = true)
    (hrefused : ingestRefused s x = none)
    (hchecks : ∀ k h, x.ep.shards[k]? = some h → checkShard x.ep.q5 h (bytesAt (listReader image) (x.offs.getD k 0) h.clen) = 0) :
    ∃ hs u, ingest image s = setResult (register u { x with ep := { x.ep with shards := hs } }) 0 ∧ hs.length = x.ep.shards.length ∧
      StoreWritten [F.WGT_ING_PROG] 1 (progCleared s) u := by
  have hsize : spanSize (progCleared s) = spanSize s := by rw [spanSize, getF_progCleared (by decide), spanSize]
  obtain ⟨hs, y, htaken, hlen, hy⟩ := ingestShards_takes (y := (false, progCleared s)) (k := 0) (l := x.ep.shards)
    (fun j h hj => by rw [Nat.zero_add]; exact hchecks j h hj) storeWritten_refl
  refine ⟨hs, sessionOpen y, ?_, hlen, ingested_sessionOpen hy⟩
  have hmode' : getF (progCleared s) F.CFG_MODE = 2 := (getF_progCleared (by decide)).trans hmode
  simp [ingest, hrun, show setF s F.WGT_ING_PROG 0 = progCleared s from rfl, hmode', ← hx, hmanifest, hsize, hshards, hobjects,
    ingestRefused_progCleared, hrefused, htaken, sessionOpen]

end

end
end Sys2Proof.Proofs

/-! SUPPORT. RETIRE (R292): the catalogue, the directory and the records forget an epoch. The parts of O57, and O57. -/
namespace Sys2Proof.Proofs
open Sys2Proof Sys2Proof.Machine

section
variable {s t u : State} {m : MemSt} {i k model epoch : Nat}

theorem exec_retire : exec .retire s = .next (retire s) := rfl

/-- The fields that the end of a fetch job writes, and those that a retirement does. -/
def queueFields : List Fld := [F.MEM_BUSY_BULK, F.MEM_BUSY_STORE]

def retireFields : List Fld := F.WGT_CNT_RETIRE :: queueFields

/-! ### The catalogue and the queues -/

/-- A catalogue without an epoch. -/
def withoutEpoch (c : Catalogue) (model epoch : Nat) : Catalogue :=
  { c with epochs := c.epochs.filter (fun e => !(e.model == model && e.epoch == epoch)) }

/-- The state in which Store holds the catalogue without the epoch. -/
def storeForgot (s : State) (model epoch : Nat) : State :=
  closeWrites (setCatalogue (beginSession s) (withoutEpoch (beginSession s).mem.catalogue model epoch))

theorem storeWritten_storeForgot : StoreWritten [] 1 s (storeForgot s model epoch) :=
  storeWritten_trans (a := 1) (b := 0) storeWritten_beginSession (storeWritten_trans (a := 0) (b := 0)
    (storeWritten_setCatalogue (c := withoutEpoch (beginSession s).mem.catalogue model epoch) rfl) storeWritten_closeWrites)

theorem storeForgot_epochs : (storeForgot s model epoch).mem.catalogue.epochs =
    s.mem.catalogue.epochs.filter (fun e => !(e.model == model && e.epoch == epoch)) := by
  rw [storeForgot, closeWrites_epochs]
  exact congrArg (List.filter _) beginSession_epochs

theorem busyF_queueFields {b : Bool} : [busyF b] ⊆ queueFields := by cases b <;> simp [busyF, queueFields]

/-- An epoch's fetch job ends, if it has one. -/
theorem endJob_leaves : (endJob s model epoch).mem = { s.mem with jobs := (endJob s model epoch).mem.jobs } ∧
    (endJob s model epoch).mem.jobs.map unissued = (s.mem.jobs.filter (fun j => !(j.model == model && j.epoch == epoch))).map unissued ∧
    fieldsKept queueFields s (endJob s model epoch) := by
  cases hj : s.mem.jobs.find? (fun j => j.model == model && j.epoch == epoch) with
  | none =>
    have hstays : endJob s model epoch = s := by rw [endJob, hj]
    have hothers : s.mem.jobs.filter (fun j => !(j.model == model && j.epoch == epoch)) = s.mem.jobs :=
      List.filter_eq_self.2 fun j hmem => by simpa [imp_iff_not_or] using List.find?_eq_none.1 hj j hmem
    rw [hstays, hothers]
    exact ⟨rfl, rfl, fieldsKept_refl⟩
  | some j =>
    obtain ⟨hjobs, hmem, hfields, -⟩ := endJob_leftQueue hj
    exact ⟨hmem, hjobs, fieldsKept_mono hfields busyF_queueFields⟩

/-! ### The directory and the records -/

/-- The tiers with entry `i` empty: it keeps its GEN alone. -/
def entryForgot (m : MemSt) (i : Nat) : MemSt := dirUpd m i (fun e => { gen := e.gen })

def recsForgot (m : MemSt) (model epoch : Nat) : List EpochRec := m.recs.filter (fun e => !(e.model == model && e.epoch == epoch))

/-- The tiers without the epoch of entry `i`. -/
def tiersForgot (m : MemSt) (i model epoch : Nat) : MemSt :=
  dropModelRegion { entryForgot m i with recs := recsForgot (entryForgot m i) model epoch } model

theorem tiersForgot_only : ∃ l, tiersForgot m i model epoch =
    { m with dir := (entryForgot m i).dir, recs := recsForgot m model epoch, regions := l } := by
  unfold tiersForgot dropModelRegion entryForgot
  rw [dirUpd_only]
  split
  · exact ⟨_, rfl⟩
  · exact ⟨_, rfl⟩

theorem tiersForgot_dirGet : dirGet (tiersForgot m i model epoch) k = dirGet (entryForgot m i) k := by
  obtain ⟨l, hl⟩ := tiersForgot_only (m := m) (i := i) (model := model) (epoch := epoch)
  rw [hl]
  rfl

theorem tiersForgot_entry (hwf : smapWf noEntry m.dir = true) : (dirGet (tiersForgot m i model epoch) i).valid = false := by
  obtain ⟨x, hx⟩ := dirGet_dirUpd_same (i := i) (g := fun e => { gen := e.gen }) hwf
  rw [tiersForgot_dirGet, entryForgot, hx]

theorem tiersForgot_record : recFind (tiersForgot m i model epoch) model epoch = none := by
  obtain ⟨l, hl⟩ := tiersForgot_only (m := m) (i := i) (model := model) (epoch := epoch)
  rw [hl]
  exact List.find?_eq_none.2 fun r hr => by simpa [imp_iff_not_or] using (List.mem_filter.1 hr).2

/-! ### The command -/

section
variable (hrun : cmdRuns s 2 = true) (hmodel : getF s F.WGT_CMD_MODEL = model) (hepoch : getF s F.WGT_CMD_EPOCH = epoch)
include hrun

theorem retire_elsewhere (hmode : getF s F.CFG_MODE ≠ 2) : retire s = setResult s 1 := by
  rw [retire, not_cmdRuns hrun]
  exact if_pos hmode

include hmodel hepoch

theorem retire_active (hmode : getF s F.CFG_MODE = 2) (hfind : dirFind s.mem model epoch = some i) (hactive : (dirGet s.mem i).active = true) :
    retire s = setResult s 11 := by
  simp [retire, hrun, hmode, hmodel, hepoch, hfind, hactive]

theorem retire_forgets (hmode : getF s F.CFG_MODE = 2) (hfind : dirFind s.mem model epoch = some i) (hactive : (dirGet s.mem i).active = false)
    (hpin : ∀ r, recFind s.mem model epoch = some r → r.stagePin = false) (hu : u = endJob (storeForgot s model epoch) model epoch)
    (hnone : u.mem.switches = []) :
    retire s = setResult (bump (setMem u (tiersForgot u.mem i model epoch)) F.WGT_CNT_RETIRE) 0 := by
  have hretry : retryPending (setMem u (tiersForgot u.mem i model epoch)) = setMem u (tiersForgot u.mem i model epoch) := by
    obtain ⟨l, hl⟩ := tiersForgot_only (m := u.mem) (i := i) (model := model) (epoch := epoch)
    exact retryPending_none (by rw [hl]; exact hnone)
  rw [retire, not_cmdRuns hrun, hmodel, hepoch, if_neg (not_not.2 hmode), hfind]
  change (if (dirGet s.mem i).active = true then _ else _) = _
  rw [if_neg (by rw [hactive]; decide), dropStage_unpinned hpin, ← hretry, hu]
  rfl

end

/-- From `s` to `u` the catalogue and the fetch queues have forgotten an epoch, and the tiers hold it still. -/
structure QueuesForgot (model epoch : Nat) (s u : State) : Prop where
  mem : u.mem = { s.mem with jobs := u.mem.jobs, catalogue := u.mem.catalogue }
  jobs : u.mem.jobs.map unissued = (s.mem.jobs.filter (fun j => !(j.model == model && j.epoch == epoch))).map unissued
  epochs : u.mem.catalogue.epochs = s.mem.catalogue.epochs.filter (fun e => !(e.model == model && e.epoch == epoch))
  fields : fieldsKept queueFields s u
  canonical : s.fieldsCanonical = true → u.fieldsCanonical = true

theorem queuesForgot_endJob : QueuesForgot model epoch s (endJob (storeForgot s model epoch) model epoch) := by
  have hstore := storeWritten_storeForgot (s := s) (model := model) (epoch := epoch)
  obtain ⟨hmem, hjobs, hfields⟩ := endJob_leaves (s := storeForgot s model epoch) (model := model) (epoch := epoch)
  obtain ⟨hsmem, -⟩ := storeWritten_mem hstore
  have hepochs := storeForgot_epochs (s := s) (model := model) (epoch := epoch)
  have hcanon := fun hc => endJob_canonical (model := model) (epoch := epoch) (hstore.canonical hc)
  have hkept := fieldsKept_trans (fieldsKept_mono hstore.fields (List.nil_subset _)) hfields
  generalize endJob (storeForgot s model epoch) model epoch = u at hmem hjobs hcanon hkept ⊢
  generalize storeForgot s model epoch = v at hsmem hepochs hmem hjobs
  refine ⟨?_, ?_, ?_, hkept, hcanon⟩
  · rw [hmem, hsmem]
  · rw [hjobs, hsmem]
  · rw [hmem, hepochs]

/-- What a retirement leaves (R292). -/
theorem retired_shows (h : QueuesForgot model epoch s u) (hc : s.fieldsCanonical = true) (hwf : smapWf noEntry s.mem.dir = true)
    (ht : t = setResult (bump (setMem u (tiersForgot u.mem i model epoch)) F.WGT_CNT_RETIRE) 0) :
    t.wgt.result = some 0 ∧ getF t F.WGT_CNT_RETIRE = satAdd 32 (getF s F.WGT_CNT_RETIRE) 1 ∧ (dirGet t.mem i).valid = false ∧
    (∀ k, k ≠ i → dirGet t.mem k = dirGet s.mem k) ∧ recFind t.mem model epoch = none ∧
    t.mem.catalogue.epochs = s.mem.catalogue.epochs.filter (fun e => !(e.model == model && e.epoch == epoch)) ∧
    t.mem.jobs.map unissued = (s.mem.jobs.filter (fun j => !(j.model == model && j.epoch == epoch))).map unissued ∧ tiersKept s t ∧
    fieldsKept retireFields s t := by
  obtain ⟨l, hl⟩ := tiersForgot_only (m := u.mem) (i := i) (model := model) (epoch := epoch)
  have hmem : t.mem = tiersForgot u.mem i model epoch := by rw [ht]; rfl
  have hdir : u.mem.dir = s.mem.dir := (congrArg MemSt.dir h.mem :)
  have hwf' : smapWf noEntry u.mem.dir = true := by rw [hdir]; exact hwf
  refine ⟨by rw [ht]; rfl, ?_, ?_, fun k hk => ?_, ?_, ?_, ?_, tiersKept_of_maps ?_ ?_, ?_⟩
  · rw [ht, getF_setResult]
    exact (getF_bump (setMem_canonical (h.canonical hc))).trans (by rw [getF_setMem, h.fields F.WGT_CNT_RETIRE (by decide)])
  · rw [hmem]
    exact tiersForgot_entry hwf'
  · rw [hmem, tiersForgot_dirGet, entryForgot, dirGet_dirUpd_other hk, dirGet, hdir, dirGet]
  · rw [hmem]
    exact tiersForgot_record
  · rw [hmem, hl]
    exact h.epochs
  · rw [hmem, hl]
    exact h.jobs
  · rw [hmem, hl]
    exact (congrArg MemSt.near h.mem :)
  · rw [hmem, hl]
    exact (congrArg MemSt.bulk h.mem :)
  · rw [ht]
    exact fieldsKept_setWgt (fieldsKept_setF (fieldsKept_setMem (fieldsKept_mono h.fields (List.subset_cons_self _ _))) (by simp [retireFields]))

/-! ### What an ingest leaves (R291) -/

/-- The fields that an ingest writes. -/
def ingestFields : List Fld := [F.WGT_ING_PROG, F.WGT_CNT_INGEST, F.WGT_STAT_SWITCH_DONE, F.WGT_CNT_SWITCH]

theorem ingested_shows {r : EpochRec} {b : Bool} {w : State} (hstored : StoreWritten [F.WGT_ING_PROG] 1 (progCleared s) u) (hentered : NewEpoch r b u w)
    (hc : s.fieldsCanonical = true) (ht : t = setResult (bump w F.WGT_CNT_INGEST) 0) :
    t.wgt.result = some 0 ∧ getF t F.WGT_CNT_INGEST = satAdd 32 (getF s F.WGT_CNT_INGEST) 1 ∧ (∃ m : MemSt, m.near = s.mem.near ∧
      m.bulk = s.mem.bulk ∧ m.recs = s.mem.recs ∧ m.catalogue.wgenHigh = s.mem.catalogue.wgenHigh + 1 ∧ Entered r b m t.mem) ∧
    t.adm = s.adm ∧ fieldsKept ingestFields s t := by
  obtain ⟨hmem, hadm⟩ := storeWritten_mem hstored
  obtain ⟨htiers, hadm', hfields, hcanon⟩ := hentered
  have hkept : fieldsKept [F.WGT_ING_PROG] s u := fieldsKept_trans fieldsKept_progCleared hstored.fields
  have hcount : getF w F.WGT_CNT_INGEST = getF s F.WGT_CNT_INGEST :=
    (hfields F.WGT_CNT_INGEST (by decide)).trans (hkept F.WGT_CNT_INGEST (by decide))
  have hcw : w.fieldsCanonical = true := hcanon (hstored.canonical (setF_canonical hc))
  rw [ht]
  refine ⟨rfl, ?_, ⟨u.mem, ?_, ?_, ?_, hstored.wgen, htiers⟩, hadm'.trans hadm, ?_⟩
  · rw [getF_setResult]
    exact (getF_bump hcw).trans (by rw [hcount])
  · exact (congrArg MemSt.near hmem :)
  · exact (congrArg MemSt.bulk hmem :)
  · exact (congrArg MemSt.recs hmem :)
  · exact fieldsKept_setWgt (fieldsKept_setF (fieldsKept_trans (fieldsKept_mono hkept (by simp [ingestFields]))
      (fieldsKept_mono hfields (by simp [switchNowFields, ingestFields]))) (by simp [ingestFields]))

end

/-- Settles O57: a refused image leaves `progCleared`, an accepted one is written to Store (`StoreWritten`) and entered (`NewEpoch`); a retirement forgets the
epoch in the catalogue and the queues (`QueuesForgot`), then in the tiers (`tiersForgot`). -/
theorem epochsComeAndGo : Obligations.EpochsComeAndGo := by
  intro s hc hm hbusy hresult
  have hwf := dirCanonical hm
  refine ⟨fun image hop => ⟨fun hmode => ?_, fun hmode hbad => ?_, fun x hmode hx hmanifest hshards hobjects hrefused hchecks => ?_⟩,
    fun i model epoch hop hmodel hepoch => ⟨fun hmode => ?_, fun hmode hfind hactive => ?_, fun hmode hfind hactive hpin hnone => ?_⟩⟩
  all_goals have hrun := cmdRuns_of hbusy hresult hop
  · rw [exec_ingest, ingest_elsewhere hrun hmode]
    exact ⟨_, rfl, rfl, prog_progCleared hc, fieldsKept_progCleared, rfl, rfl⟩
  · rw [exec_ingest, ingest_badManifest hrun hmode hbad]
    exact ⟨_, rfl, rfl, prog_progCleared hc, fieldsKept_progCleared, rfl, rfl⟩
  · obtain ⟨hs, u, hingest, hlen, hstored⟩ := ingest_accepts hrun hmode hx hmanifest hshards hobjects hrefused hchecks
    obtain ⟨hnone, hroom⟩ := room_of_ingestRefused hrefused
    have hdir : u.mem.dir = s.mem.dir := (congrArg MemSt.dir (storeWritten_mem hstored).1 :)
    obtain ⟨w, hregister, hentered⟩ := register_enters (s := u) (x := { x with ep := { x.ep with shards := hs } }) (by rw [hdir]; exact hwf)
      ((dirFind_of_dir hdir).trans hnone) (by unfold dirGet; rw [hdir]; exact hroom)
    rw [hregister] at hingest
    obtain ⟨hresult, hcount, ⟨m, hnear, hbulk, hrecs, hwgen, htiers⟩, hadm, hfields⟩ := ingested_shows hstored hentered hc hingest
    obtain ⟨htmem, htgen, -, i, hi, hstore, hinNear, hinBulk, hcountShards, hactive⟩ := htiers
    have hold : dirActive u.mem x.ep.model = dirActive s.mem x.ep.model := by unfold dirActive dirGet; rw [hdir]
    refine ⟨_, exec_ingest, hresult, hcount, ⟨i, hi, hstore, hinNear, hinBulk, hcountShards.trans hlen, ?_⟩,
      ⟨{ x.ep with shards := hs }, ?_, rfl, rfl, rfl, hlen⟩, htgen.trans hwgen, tiersKept_of_maps ?_ ?_, hadm, hfields⟩
    · rw [hactive, hold, Bool.or_eq_true, Option.isNone_iff_eq_none]
    · rw [htmem, hrecs]
    · rw [htmem]
      exact hnear
    · rw [htmem]
      exact hbulk
  · rw [exec_retire, retire_elsewhere hrun hmode]
    exact ⟨_, rfl, rfl, rfl⟩
  · rw [exec_retire, retire_active hrun hmodel hepoch hmode hfind hactive]
    exact ⟨_, rfl, rfl, rfl⟩
  · have hqueues := queuesForgot_endJob (s := s) (model := model) (epoch := epoch)
    refine ⟨_, exec_retire, retired_shows hqueues hc hwf (retire_forgets hrun hmodel hepoch hmode hfind hactive hpin rfl ?_)⟩
    rw [hqueues.mem]
    exact hnone

end Sys2Proof.Proofs

/-! SUPPORT. What serves the switches that are pending leaves of the registers (R275, R304); the load frames of a span load begin and end (R307). -/
namespace Sys2Proof.Proofs
open Sys2Proof Sys2Proof.Machine

section
variable {s t u : State} {m : MemSt} {model epoch shard x : Nat} {r : EpochRec} {l : SpanLoadSt} {a : Announced} {f : Fld} {b : Bool}

/-! ### Switches that are served, and stage pins (R300, R304) -/

/-- The fields that evictions, and the switches that these serve, write. -/
def servedFields : List Fld := [F.MEM_STAT_EVICT_SHORT, F.MEM_ECAP_INFO_KIND, F.MEM_ECAP_INFO_UNIT, F.MEM_ECAP_INFO_DIE, F.MEM_ECAP_INFO_REGION,
  F.MEM_ECAP_ADDR, F.MEM_CNT_EVICT_NEAR, F.WGT_STAT_SWITCH_DONE, F.WGT_CNT_SWITCH, F.WGT_Q_EPOCH_PEND_EPOCH, F.WGT_STAT_SWITCH_PEND]

theorem fieldsKept_of_flds {fs : List Fld} (h : fieldsKept fs s t) (hflds : u.flds = t.flds) : fieldsKept fs s u :=
  fun f hf => (Laws.getF_congr hflds f).trans (h f hf)

theorem served_endPending {w : PendSwitch} (h : fieldsKept servedFields s t) : fieldsKept servedFields s (endPending t w) := by
  unfold endPending
  refine
    have hdone := fieldsKept_setF (fieldsKept_setF (fieldsKept_setMem h) ?_) ?_
    have hshown := fieldsKept_of_flds (fieldsKept_ite (fieldsKept_setF hdone ?_) hdone) issuedOnly_issueReads.flds
    fieldsKept_ite (fieldsKept_setF hshown ?_) hshown
  all_goals simp [servedFields]

theorem served_evictFor {place : MemSt → Option MemSt} (h : fieldsKept servedFields s t) : fieldsKept servedFields s (evictFor t place).2 := by
  unfold evictFor
  split
  · exact fieldsKept_setF (fieldsKept_setMem h) (by simp [servedFields])
  · exact fieldsKept_trans h (fieldsKept_mono fieldsKept_memEvent (by simp [memCapture, servedFields]))

theorem fieldsKept_foldl {α : Type} {fs : List Fld} {g : State → α → State} {l : List α} (h : fieldsKept fs s t)
    (hg : ∀ t, fieldsKept fs s t → ∀ x, fieldsKept fs s (g t x)) : fieldsKept fs s (l.foldl g t) :=
  List.foldlRecOn l g h fun t ht x _ => hg t ht x

theorem served_retryPending (h : fieldsKept servedFields s t) : fieldsKept servedFields s (retryPending t) := by
  unfold retryPending
  refine fieldsKept_foldl h fun t ht w => fieldsKept_ite ht ?_
  have hevict := served_evictFor (place := placeEpoch t w.model w.target (fun _ => true)) ht
  split
  · next heq =>
    rw [heq] at hevict
    exact served_endPending hevict
  · next heq =>
    rw [heq] at hevict
    exact hevict

theorem served_servePending (h : fieldsKept servedFields s t) : fieldsKept servedFields s (servePending t) := by
  unfold servePending
  refine fieldsKept_foldl h fun t ht w => ?_
  split
  · exact fieldsKept_ite (served_retryPending (fieldsKept_setF (fieldsKept_setMem ht) (by simp [servedFields]))) ht
  · exact ht

theorem served_dropStage : fieldsKept servedFields s (dropStage s model epoch) :=
  fieldsKept_ite (served_servePending (fieldsKept_setMem (fieldsKept_setMem fieldsKept_refl))) fieldsKept_refl

/-- A stage pin is dropped in the tiers alone. -/
theorem tiersOnly_dropStage (h : TiersOnly s t) : TiersOnly s (dropStage t model epoch) :=
  tiersOnly_ite (tiersOnly_servePending (tiersOnly_setMem (tiersOnly_setMem h))) h

theorem tiersOnly_span (h : TiersOnly s t) : t.span = s.span := by
  obtain ⟨⟨_, _, _, _, rfl⟩, -⟩ := h
  rfl

/-! ### A load that fails (R307) -/

/-- The state in which a span load is shown as failed, before its units go. -/
def loadFailed (s : State) (l : SpanLoadSt) (shard : Nat) : State :=
  lower (setSpan (wgtEvent s F.WGT_STAT_SPAN_LOAD_FAIL 4 l.model l.epoch shard) { s.span with load := none }) F.WGT_STAT_SPAN_LOADING

theorem wgtEvent_span {bit : Fld} {kind : Nat} : (wgtEvent s bit kind model epoch shard).span = s.span := by
  obtain ⟨_, _, h⟩ : CapturesOnly s (wgtEvent s bit kind model epoch shard) := capturesOnly_setF capturesOnly_capture
  rw [h]

theorem isSet_wgtEvent {bit : Fld} {kind : Nat} (hc : s.fieldsCanonical = true) (hbit : 0 < bit.width) :
    isSet (wgtEvent s bit kind model epoch shard) bit = true :=
  Laws.isSet_raise _ _ (Laws.smapWf_iff.1 (capture_canonical hc)).1 hbit

theorem loadFail_eq (hload : s.span.load = some l) : loadFail s shard =
    dropStage (setMem (loadFailed s l shard) (freeEpochUnits (loadFailed s l shard).mem l.model l.epoch)) l.model l.epoch := by
  rw [loadFail, hload]
  unfold loadFailed
  rw [← wgtEvent_span (s := s) (bit := F.WGT_STAT_SPAN_LOAD_FAIL) (kind := 4) (model := l.model) (epoch := l.epoch) (shard := shard)]

/-- What a span load that ends leaves: no load, no load frames, and SPAN_LOADING cleared. -/
structure LoadEnded (s t : State) : Prop where
  loading : isSet t F.WGT_STAT_SPAN_LOADING = false
  load : t.span.load = none
  frames : t.span.loadFrames = s.span.loadFrames

theorem loadFail_ends (hc : s.fieldsCanonical = true) (hload : s.span.load = some l) : LoadEnded s (loadFail s shard) ∧
    isSet (loadFail s shard) F.WGT_STAT_SPAN_LOAD_FAIL = true := by
  have hevent : (wgtEvent s F.WGT_STAT_SPAN_LOAD_FAIL 4 l.model l.epoch shard).fieldsCanonical = true := wgtEvent_canonical hc
  have hraised : isSet (wgtEvent s F.WGT_STAT_SPAN_LOAD_FAIL 4 l.model l.epoch shard) F.WGT_STAT_SPAN_LOAD_FAIL = true :=
    isSet_wgtEvent hc (by decide)
  have hfail : isSet (loadFailed s l shard) F.WGT_STAT_SPAN_LOAD_FAIL = true :=
    (isSet_congr (Laws.getF_setF_other _ _ _ _ (by decide))).trans hraised
  have hlow : isSet (loadFailed s l shard) F.WGT_STAT_SPAN_LOADING = false := Laws.isSet_lower _ _ (Laws.smapWf_iff.1 (setSpan_canonical hevent)).1
  have hkept := served_dropStage (s := setMem (loadFailed s l shard) (freeEpochUnits (loadFailed s l shard).mem l.model l.epoch))
    (model := l.model) (epoch := l.epoch)
  have hspan := tiersOnly_span (tiersOnly_dropStage (model := l.model) (epoch := l.epoch) (tiersOnly_refl (s := setMem (loadFailed s l shard)
    (freeEpochUnits (loadFailed s l shard).mem l.model l.epoch))))
  rw [loadFail_eq hload]
  refine ⟨⟨?_, ?_, ?_⟩, ?_⟩
  · exact (isSet_congr (hkept F.WGT_STAT_SPAN_LOADING (by decide))).trans hlow
  · rw [hspan]; rfl
  · rw [hspan]; rfl
  · exact (isSet_congr (hkept F.WGT_STAT_SPAN_LOAD_FAIL (by decide))).trans hfail

/-! ### Announced changes of a load (R307 steps 1 and 5) -/

theorem exec_announceApply {subject : Nat} : exec (.announceApply subject) s = .next (announceApply subject s) := rfl

/-- The state in which an announcement has been taken up. -/
def announcementTaken (s : State) (a : Announced) : State := setSpan s { s.span with announced := s.span.announced.erase a }

theorem announcement_subject (h : s.span.announced.find? (fun c => c.subject == a.subject && decide (c.tick ≤ getF s F.TICK_NOW)) = some a)
    (hx : a.subject = x) : s.span.announced.find? (fun c => c.subject == x && decide (c.tick ≤ frameNow s)) = some a := hx ▸ h

theorem announceApply_begins (h : s.span.announced.find? (fun c => c.subject == 4 && decide (c.tick ≤ frameNow s)) = some a) :
    announceApply 4 s = beginSpanLoad (announcementTaken s a) (bitsOf a.operand 31 0) (bitsOf a.operand 47 32) := by
  rw [announceApply, h]
  rfl

theorem announceApply_ends (h : s.span.announced.find? (fun c => c.subject == 5 && decide (c.tick ≤ frameNow s)) = some a) :
    announceApply 5 s = endSpanLoad (announcementTaken s a) (bitsOf a.operand 31 0) (bitsOf a.operand 47 32) (bitOf a.operand 48) := by
  rw [announceApply, h]
  rfl

/-- The state in which the load frames of an epoch have begun, before units are reserved. -/
def loadBegun (s : State) (model epoch : Nat) : State :=
  raise (setSpan s { s.span with load := some { model := model, epoch := epoch }, loadFrames := true }) F.WGT_STAT_SPAN_LOADING

theorem fieldsKept_loadBegun : fieldsKept [F.WGT_STAT_SPAN_LOADING] s (loadBegun s model epoch) :=
  fieldsKept_setF (t := setSpan s _) (fun _ _ => rfl) (by simp)

theorem keptShard_congr (h : ownOrd t = ownOrd s) : keptShard t r = keptShard s r := by
  funext x
  rw [keptShard, keptShard, h]

/-- Reads go out, and nothing else changes. -/
theorem readRuns_only {l : List BlockRun} : ∃ o, l.foldl readRun s = { s with out := o } :=
  List.foldlRecOn (motive := fun t => ∃ o, t = { s with out := o }) l readRun ⟨_, rfl⟩ fun t ht x _ => by
    refine List.foldlRecOn (motive := fun t => ∃ o, t = { s with out := o }) _ _ ht fun u hu _ _ => ?_
    obtain ⟨o, rfl⟩ := hu
    exact ⟨_, rfl⟩

/-- A load begins where a reservation without eviction makes room for the shards that this member keeps. -/
theorem beginSpanLoad_places (hr : recFind s.mem model epoch = some r) (hspan : r.span = true) (hload : s.span.load = none)
    (hnear : (entryOf s.mem model epoch).near = false) (hplace : placeEpoch s model epoch (keptShard s r) s.mem = some m) :
    ∃ o, beginSpanLoad s model epoch = { addF (setMem (loadBegun s model epoch) m) F.MEM_CNT_EVICT_NEAR 0 with out := o } := by
  have hkept : keptShard (loadBegun s model epoch) r = keptShard s r := keptShard_congr (fieldsKept_loadBegun F.SPAN_ID_ORD (by decide))
  have hreserve : reserveWith (loadBegun s model epoch) (placeEpoch (loadBegun s model epoch) model epoch (keptShard (loadBegun s model epoch) r)) =
      (true, addF (setMem (loadBegun s model epoch) m) F.MEM_CNT_EVICT_NEAR 0) := by
    refine reserveWith_fits ?_
    rw [hkept, placeEpoch_congr (fieldsKept_loadBegun F.DEV_CAP0_NEAR_PRESENT (by decide)) rfl]
    exact hplace
  obtain ⟨o, ho⟩ := readRuns_only (s := addF (setMem (loadBegun s model epoch) m) F.MEM_CNT_EVICT_NEAR 0)
    (l := (homeShardsFrom (addF (setMem (loadBegun s model epoch) m) F.MEM_CNT_EVICT_NEAR 0) r 0).flatMap (fun k => (r.shards.getD k {}).runs))
  refine ⟨o, ?_⟩
  rw [← ho, beginSpanLoad, hr]
  simp only [hspan, hload, hnear, Bool.not_true, Option.isSome_none, Bool.or_self, Bool.false_eq_true, if_false]
  unfold loadBegun at hreserve ⊢
  rw [hreserve]
  rfl

/-- What the beginning of the load frames shows (R307 steps 1 and 2). -/
theorem loadBegun_shows {out : List OutMsg} (hc : s.fieldsCanonical = true)
    (ht : t = { addF (setMem (loadBegun s model epoch) m) F.MEM_CNT_EVICT_NEAR 0 with out := out }) :
    isSet t F.WGT_STAT_SPAN_LOADING = true ∧ t.span.load = some { model := model, epoch := epoch } ∧ t.span.loadFrames = true ∧ t.mem = m ∧
    t.adm = s.adm ∧ fieldsKept [F.WGT_STAT_SPAN_LOADING, F.MEM_CNT_EVICT_NEAR] s t := by
  have hspan : (setSpan s { s.span with load := some { model := model, epoch := epoch }, loadFrames := true }).fieldsCanonical = true := hc
  have hloading : isSet (loadBegun s model epoch) F.WGT_STAT_SPAN_LOADING = true := Laws.isSet_raise _ _ (Laws.smapWf_iff.1 hspan).1 (by decide)
  have hbegun := fieldsKept_mono (fieldsKept_loadBegun (s := s) (model := model) (epoch := epoch))
    (List.subset_append_left [F.WGT_STAT_SPAN_LOADING] [F.MEM_CNT_EVICT_NEAR])
  have hkept : fieldsKept [F.MEM_CNT_EVICT_NEAR] (loadBegun s model epoch) (addF (setMem (loadBegun s model epoch) m) F.MEM_CNT_EVICT_NEAR 0) :=
    fieldsKept_setF (fieldsKept_setMem fieldsKept_refl) (by simp)
  rw [ht]
  exact ⟨(isSet_congr (hkept F.WGT_STAT_SPAN_LOADING (by decide))).trans hloading, rfl, rfl, rfl, rfl,
    fieldsKept_trans hbegun (fieldsKept_mono hkept (by simp))⟩

theorem epochChecked_congr (h : ownOrd t = ownOrd s) : epochChecked t r = epochChecked s r := by
  unfold epochChecked keptConfigs keepsObject
  rw [keptShard_congr h]

/-- The state in which a load has succeeded, before NEAR is set. -/
def loadSucceeded (s : State) : State :=
  raise (lower (setSpan s { s.span with load := none, loadFrames := false }) F.WGT_STAT_SPAN_LOADING) F.WGT_STAT_SPAN_LOAD_DONE

section
variable (hload : s.span.load = some l) (hr : recFind s.mem model epoch = some r) (hmodel : l.model = model) (hepoch : l.epoch = epoch)
include hload hr hmodel hepoch

theorem endSpanLoad_fails : endSpanLoad s model epoch true = loadFail (setSpan s { s.span with loadFrames := false }) 0 := by
  simp [endSpanLoad, hload, hr, hmodel, hepoch]

theorem endSpanLoad_succeeds : endSpanLoad s model epoch false = if epochChecked s r then
    setMem (loadSucceeded s) (dirUpdEpoch s.mem model epoch (fun e => { e with near := true })) else loadSucceeded s := by
  have hchecked : epochChecked (loadSucceeded s) r = epochChecked s r := epochChecked_congr
    ((Laws.getF_setF_other _ _ _ _ (by decide)).trans (Laws.getF_setF_other _ _ _ _ (by decide)))
  have hframes : (setSpan s { s.span with loadFrames := false }).span.load = some l := hload
  have hrec : recFind (setSpan s { s.span with loadFrames := false }).mem model epoch = some r := hr
  rw [← hchecked, endSpanLoad]
  dsimp only
  rw [hframes, hrec]
  dsimp only
  rw [if_neg (by simp [hmodel, hepoch]), if_neg (by decide)]
  rfl

end

theorem loadSucceeded_ends (hc : s.fieldsCanonical = true) : isSet (loadSucceeded s) F.WGT_STAT_SPAN_LOADING = false ∧
    isSet (loadSucceeded s) F.WGT_STAT_SPAN_LOAD_DONE = true := by
  have hspan : (setSpan s { s.span with load := none, loadFrames := false }).fieldsCanonical = true := hc
  have hlower : (lower (setSpan s { s.span with load := none, loadFrames := false }) F.WGT_STAT_SPAN_LOADING).fieldsCanonical = true :=
    lower_canonical hspan
  have hlow := Laws.isSet_lower _ F.WGT_STAT_SPAN_LOADING (Laws.smapWf_iff.1 hspan).1
  exact ⟨(isSet_congr (Laws.getF_setF_other _ _ _ _ (by decide))).trans hlow, Laws.isSet_raise _ _ (Laws.smapWf_iff.1 hlower).1 (by decide)⟩

/-- What the end of the load frames shows (R307 step 5). -/
theorem endSpanLoad_shows {failed : Bool} (hc : s.fieldsCanonical = true) (hwf : smapWf noEntry s.mem.dir = true) (hload : s.span.load = some l)
    (hr : recFind s.mem model epoch = some r) (hmodel : l.model = model) (hepoch : l.epoch = epoch) (ht : t = endSpanLoad s model epoch failed) :
    isSet t F.WGT_STAT_SPAN_LOADING = false ∧ t.span.load = none ∧ t.span.loadFrames = false ∧
    (failed = true → isSet t F.WGT_STAT_SPAN_LOAD_FAIL = true) ∧
    (failed = false → isSet t F.WGT_STAT_SPAN_LOAD_DONE = true ∧
      (epochChecked s r = true → (dirFind s.mem model epoch).isSome = true → (entryOf t.mem model epoch).near = true)) := by
  cases failed with
  | true =>
    obtain ⟨⟨hloading, hnone, hframes⟩, hfail⟩ := loadFail_ends (s := setSpan s { s.span with loadFrames := false }) (shard := 0) hc hload
    rw [ht, endSpanLoad_fails hload hr hmodel hepoch]
    exact ⟨hloading, hnone, hframes, fun _ => hfail, fun h => absurd h (by decide)⟩
  | false =>
    obtain ⟨hloading, hdone⟩ := loadSucceeded_ends hc
    rw [ht, endSpanLoad_succeeds hload hr hmodel hepoch]
    split
    · refine ⟨hloading, rfl, rfl, fun h => absurd h (by decide), fun _ => ⟨hdone, fun _ hfind => ?_⟩⟩
      obtain ⟨x, hx⟩ := entryOf_dirUpdEpoch (g := fun e => { e with near := true }) hwf hfind fun _ => ⟨rfl, rfl, rfl⟩
      rw [Laws.setMem_mem, hx]
    · next hunchecked => exact ⟨hloading, rfl, rfl, fun h => absurd h (by decide), fun _ => ⟨hdone, fun h => absurd h hunchecked⟩⟩

end
end Sys2Proof.Proofs

/-! SUPPORT. Reports of the targets of a span load (R307, R364). -/
namespace Sys2Proof.Proofs
open Sys2Proof Sys2Proof.Machine

section
variable {s t u : State} {m : CtrlMsg} {r : EpochRec} {l : SpanLoadSt} {b : Bool} {p ord shard : Nat} {by_ : Option Stamp}

theorem exec_loadReport : exec (.loadReport m) s = .next (loadReportMsg m s) := rfl

/-! ### The members of a span (R353) -/

theorem isMaster_congr (hin : getF t F.SPAN_STAT_IN_SPAN = getF s F.SPAN_STAT_IN_SPAN) (hown : getF t F.SPAN_ID_ORD = getF s F.SPAN_ID_ORD)
    (hmaster : getF t F.SPAN_ROLES_MASTER = getF s F.SPAN_ROLES_MASTER) : isMaster t = isMaster s := by
  rw [isMaster, isMaster, inSpan_congr hin, ownOrd, ownOrd, hown, hmaster]

/-- The targets of a load depend on which members have been lost. -/
theorem loadTargets_congr (h : ∀ k, getF t (F.SPAN_LOST k) = getF s (F.SPAN_LOST k)) : loadTargets t r = loadTargets s r := by
  unfold loadTargets isLost bitF
  simp only [h]

/-! ### A report is taken, and passed on by the master (R355) -/

theorem takeMsg_load : (takeMsg s m).span.load = s.span.load := by
  unfold takeMsg hearMaster
  split <;> dsimp only <;> split <;> rfl

theorem forwardDown_only {c : List Byte} : ∃ k, forwardDown s c = { s with links := k } :=
  List.foldlRecOn (motive := fun t => ∃ k, t = { s with links := k }) (childPorts s) _ ⟨_, rfl⟩ fun t ht p _ => by
    obtain ⟨k, rfl⟩ := ht
    exact ⟨_, rfl⟩

/-- The state in which a target's report has been taken, and passed on by the master. -/
def reportTaken (s : State) (m : CtrlMsg) : State :=
  if isMaster (takeMsg s m) then forwardDown (takeMsg s m) (ctrlBytes { m with to_ := 0xFFFF }) else takeMsg s m

theorem takeMsg_isMaster : isMaster (takeMsg s m) = isMaster s := by
  apply isMaster_congr <;> exact getF_of_taken msgTaken_takeMsg (by decide)

/-- What a report that has been taken leaves: the tiers, the load, and the registers but for the count of messages. -/
theorem reportTaken_keeps : (reportTaken s m).mem = s.mem ∧ (reportTaken s m).span.load = s.span.load ∧
    fieldsKept [F.SPAN_CNT_CTRL_RX] s (reportTaken s m) := by
  obtain ⟨⟨_, _, hrest⟩, hfields, -⟩ := msgTaken_takeMsg (s := s) (m := m)
  have hmem : (takeMsg s m).mem = s.mem := by rw [hrest]
  unfold reportTaken
  split
  · obtain ⟨k, hk⟩ := forwardDown_only (s := takeMsg s m) (c := ctrlBytes { m with to_ := 0xFFFF })
    rw [hk]
    exact ⟨hmem, takeMsg_load, hfields⟩
  · exact ⟨hmem, takeMsg_load, hfields⟩

/-- A report waits at each port that leads to a child, where the master takes it. -/
theorem reportTaken_ctrlQ (hu : s.unitsCanonical = true) (hp : p ∈ childPorts s) : (link (reportTaken s m) p).ctrlQ =
    (link s p).ctrlQ ++ if isMaster s then [ctrlBytes { m with to_ := 0xFFFF }] else [] := by
  obtain ⟨⟨_, _, hrest⟩, -⟩ := msgTaken_takeMsg (s := s) (m := m)
  have hlink : link (takeMsg s m) p = link s p := by rw [hrest]; rfl
  have hunits : (takeMsg s m).unitsCanonical = true := by rw [hrest]; exact hu
  have hports : childPorts (takeMsg s m) = childPorts s := childPorts_congr (getF_of_taken msgTaken_takeMsg (by decide))
  unfold reportTaken
  rw [takeMsg_isMaster]
  split
  · rw [forwardDown, hports, ctrlQ_foldl_queueCtrl hunits nodup_childPorts, if_pos hp, hlink]
  · rw [hlink, List.append_nil]

/-! ### What a report means (R307) -/

/-- Every shard is held by member `ord`: it is noted, and where some other target has still to report, that is all. -/
theorem noteLoadReport_held (hload : s.span.load = some l) (hr : recFind s.mem l.model l.epoch = some r) (hnew : ord ∉ l.held)
    (hopen : isMaster s = false ∨ ∃ i ∈ loadTargets s r, i ≠ ord ∧ i ∉ l.held) :
    noteLoadReport s ord shard 2 b by_ = setSpan s { s.span with load := some { l with held := l.held ++ [ord] } } := by
  have hall : ((loadTargets s r).all (l.held ++ [ord]).contains && isMaster s && !l.ending) = false := by
    obtain hmember | ⟨i, hi, hne, hout⟩ := hopen
    · rw [hmember, Bool.and_false, Bool.false_and]
    · have hmissing : (loadTargets s r).all (l.held ++ [ord]).contains = false := List.all_eq_false.2 ⟨i, hi, by simp [hne, hout]⟩
      rw [hmissing, Bool.false_and, Bool.false_and]
  have hheld : l.held.contains ord = false := by simpa using hnew
  unfold noteLoadReport
  rw [hload]
  dsimp only
  rw [hr]
  dsimp only
  rw [if_neg (show ¬ (2 = 1) by decide), if_pos (show 2 = 2 from rfl)]
  simp only [hheld, hall, Bool.false_eq_true, if_false, Bool.or_false]

theorem loadReportMsg_takes (hmsg : m.msg = 0x0B) (hin : inSpan s = true) (hother : m.from_ ≠ getF s F.SPAN_ID_ORD) :
    loadReportMsg m s = noteLoadReport (reportTaken s m) m.from_ (bitsOf m.arg 15 0) (bitsOf m.arg 23 16) (bitOf m.arg 24) (some m.stamp) := by
  unfold loadReportMsg reportTaken ownOrd
  rw [if_neg (by simp [hmsg, hin])]
  dsimp only
  rw [if_neg hother]

/-- What a report that a member holds every shard leaves (R307, R364). -/
theorem heldReport_shows (hu : s.unitsCanonical = true) (hin : inSpan s = true) (hload : s.span.load = some l)
    (hr : recFind s.mem l.model l.epoch = some r) (hmsg : m.msg = 0x0B) (hheld : bitsOf m.arg 23 16 = 2) (hother : m.from_ ≠ getF s F.SPAN_ID_ORD)
    (hnew : m.from_ ∉ l.held) (hopen : isMaster s = false ∨ ∃ i ∈ loadTargets s r, i ≠ m.from_ ∧ i ∉ l.held) (ht : t = loadReportMsg m s) :
    t.span.load = some { l with held := l.held ++ [m.from_] } ∧ t.mem = s.mem ∧ fieldsKept [F.SPAN_CNT_CTRL_RX] s t ∧
    ∀ p ∈ childPorts s, (link t p).ctrlQ = (link s p).ctrlQ ++ if isMaster s then [ctrlBytes { m with to_ := 0xFFFF }] else [] := by
  obtain ⟨hmem, hload', hfields⟩ := reportTaken_keeps (s := s) (m := m)
  have hmaster : isMaster (reportTaken s m) = isMaster s := by apply isMaster_congr <;> exact hfields _ (by decide)
  have htargets : loadTargets (reportTaken s m) r = loadTargets s r :=
    loadTargets_congr fun k => hfields _ (by simp only [List.forall_mem_singleton]; omega)
  have hnoted := noteLoadReport_held (s := reportTaken s m) (shard := bitsOf m.arg 15 0) (b := bitOf m.arg 24) (by_ := some m.stamp)
    (hload'.trans hload) (by rw [hmem]; exact hr) hnew (by rw [hmaster, htargets]; exact hopen)
  rw [ht, loadReportMsg_takes hmsg hin hother, hheld, hnoted]
  exact ⟨rfl, hmem, hfields, fun p hp => reportTaken_ctrlQ hu hp⟩

end
end Sys2Proof.Proofs

/-! SUPPORT. A home sends the pieces of a span load (R307, R364). -/
namespace Sys2Proof.Proofs
open Sys2Proof Sys2Proof.Machine

section
variable {s t u : State} {r : EpochRec} {l : SpanLoadSt} {h : ShardRec} {p ord shard k piece port chan v off : Nat} {by_ : Option Stamp} {bytes : List Byte}

theorem exec_spanLoad {x : LoadStep} : exec (.spanLoad x) s = .next (spanLoad x s) := rfl

/-! ### What waits to be sent as data -/

/-- From `s` to `t` every port keeps the data that waits at it. -/
def DataQKept (s t : State) : Prop := s.unitsCanonical = true → t.unitsCanonical = true ∧ ∀ p, (link t p).dataQ = (link s p).dataQ

theorem dataQKept_refl : DataQKept s s := fun hu => ⟨hu, fun _ => rfl⟩

theorem dataQKept_trans (h : DataQKept s t) (h' : DataQKept t u) : DataQKept s u := fun hu => by
  obtain ⟨ht, hq⟩ := h hu
  obtain ⟨hu', hq'⟩ := h' ht
  exact ⟨hu', fun p => (hq' p).trans (hq p)⟩

theorem dataQKept_ite {c : Prop} {d : Decidable c} (ht : DataQKept s t) (hu : DataQKept s u) : DataQKept s (if c then t else u) := by
  split <;> assumption

theorem dataQKept_of_links (hform : s.unitsCanonical = true → t.unitsCanonical = true) (hlinks : t.links = s.links) : DataQKept s t :=
  fun hu => ⟨hform hu, fun p => by rw [link, link, hlinks]⟩

theorem dataQKept_ctrlOnly (h : CtrlOnly s t) : DataQKept s t := fun hu => by
  obtain ⟨ht, hports⟩ := h.ports hu
  refine ⟨ht, fun p => ?_⟩
  obtain ⟨q, hq⟩ := hports p
  rw [hq]

theorem dataQKept_setSpan {x : SpanSt} : DataQKept s (setSpan s x) := dataQKept_of_links id rfl

theorem dataQKept_loadFail : DataQKept s (loadFail s shard) := by
  refine dataQKept_of_links (loadFail_inForm (fam := .units)) ?_
  cases hload : s.span.load with
  | none => rw [loadFail, hload]
  | some l =>
    rw [loadFail_eq hload]
    have hdropped := tiersOnly_dropStage (model := l.model) (epoch := l.epoch) (tiersOnly_refl (s := setMem (loadFailed s l shard)
      (freeEpochUnits (loadFailed s l shard).mem l.model l.epoch)))
    obtain ⟨⟨_, _, _, _, hrest⟩, -⟩ := hdropped
    obtain ⟨_, _, hevent⟩ : CapturesOnly s (wgtEvent s F.WGT_STAT_SPAN_LOAD_FAIL 4 l.model l.epoch shard) := capturesOnly_setF capturesOnly_capture
    rw [hrest]
    exact (congrArg State.links hevent :)

theorem dataQKept_announceChange {src subject n operand : Nat} : DataQKept s (announceChange s src by_ subject n operand) := by
  unfold announceChange
  exact dataQKept_trans dataQKept_setSpan (dataQKept_ctrlOnly ctrlOnly_eventToAll)

theorem dataQKept_endLoadFailed : DataQKept s (endLoadFailed s shard false by_) := by
  unfold endLoadFailed
  split
  · exact dataQKept_trans (dataQKept_ite (dataQKept_ctrlOnly ctrlOnly_eventToMaster) (dataQKept_ite dataQKept_refl dataQKept_announceChange))
      dataQKept_loadFail
  · exact dataQKept_refl

theorem dataQKept_noteLoadReport : DataQKept s (noteLoadReport s ord shard v false by_) := by
  unfold noteLoadReport
  split
  · exact dataQKept_refl
  · split
    · exact dataQKept_refl
    · refine dataQKept_ite (dataQKept_ite (dataQKept_ite dataQKept_endLoadFailed dataQKept_refl) (dataQKept_ite ?_ dataQKept_setSpan))
        (dataQKept_ite (dataQKept_ite ?_ dataQKept_setSpan) dataQKept_refl)
      · exact dataQKept_of_links id rfl
      · exact dataQKept_trans dataQKept_setSpan dataQKept_announceChange

theorem dataQKept_loadReport : DataQKept s (loadReport s shard v) :=
  dataQKept_ite (dataQKept_trans (dataQKept_ctrlOnly ctrlOnly_eventToAll) dataQKept_noteLoadReport)
    (dataQKept_trans (dataQKept_ctrlOnly ctrlOnly_eventToMaster) dataQKept_noteLoadReport)

theorem dataQKept_capturesOnly (h : CapturesOnly s t) : DataQKept s t := by
  obtain ⟨_, _, rfl⟩ := h
  exact dataQKept_of_links id rfl

theorem dataQKept_loadDefect : DataQKept s (loadDefect s k h off) :=
  dataQKept_trans (dataQKept_capturesOnly (capturesOnly_setF capturesOnly_memEvent)) dataQKept_loadReport

theorem dataQKept_placeLoaded : DataQKept s (placeLoaded s l k h bytes) := by
  rw [placeLoaded]
  split
  · exact dataQKept_trans dataQKept_setSpan dataQKept_loadDefect
  · refine dataQKept_ite ?_ (dataQKept_of_links id rfl)
    exact dataQKept_trans (t := setSpan s _) dataQKept_setSpan
      (dataQKept_trans (dataQKept_capturesOnly (capturesOnly_setF (capturesOnly_setF capturesOnly_capture))) dataQKept_loadDefect)

theorem dataQKept_takePiece : DataQKept s (takePiece s l r k piece bytes) := by
  unfold takePiece
  split
  · exact dataQKept_refl
  · exact dataQKept_ite dataQKept_refl (dataQKept_ite dataQKept_setSpan dataQKept_placeLoaded)

/-! ### The pieces of a home (R307 step 2, R364) -/

/-- A load once its home has sent a piece on a channel. -/
def pieceSent (s : State) (l : SpanLoadSt) (r : EpochRec) (k piece chan : Nat) : SpanLoadSt :=
  { afterPiece s r l k piece with sentOn := l.sentOn.filter (fun p => decide (p.2 = frameNow s)) ++ [(chan, frameNow s)] }

/-- The bytes of a piece. -/
def pieceBytes (h : ShardRec) (piece : Nat) (bytes : List Byte) : List Byte :=
  (bytes ++ List.replicate (pieceLen h.clen piece) 0#8).take (pieceLen h.clen piece)

/-- The flits of a piece. -/
def pieceFlits (h : ShardRec) (k piece chan : Nat) (bytes : List Byte) : List Flit :=
  cutAll 2 chan (pieceHeader k piece (pieceLen h.clen piece) h.clen ++ pieceBytes h piece bytes)

/-- The state in which flits wait at a port, with the load `l`. -/
def flitsQueued (s : State) (l : SpanLoadSt) (port : Nat) (q : List Flit) : State :=
  setLink (setSpan s { s.span with load := some l }) port { link s port with dataQ := (link s port).dataQ ++ q }

theorem flitsQueued_dataQ {q : List Flit} (hu : s.unitsCanonical = true) : (flitsQueued s l port q).unitsCanonical = true ∧
    (link (flitsQueued s l port q) port).dataQ = (link s port).dataQ ++ q := by
  have hu' : (setSpan s { s.span with load := some l }).unitsCanonical = true := hu
  exact ⟨unitsCanonical_setLink hu', by rw [flitsQueued, link_setLink hu']⟩

theorem sendPiece_sends (hh : h = r.shards.getD k {}) (hlost : lostBlock s h = none) : sendPiece s l r k piece port chan bytes =
    takePiece (flitsQueued s (pieceSent s l r k piece chan) port (pieceFlits h k piece chan bytes)) (pieceSent s l r k piece chan) r k piece
      (pieceBytes h piece bytes) := by
  subst hh
  rw [sendPiece, hlost]
  rfl

theorem sendPiece_loses {c lba : Nat} (hh : h = r.shards.getD k {}) (hlost : lostBlock s h = some (c, lba)) :
    sendPiece s l r k piece port chan bytes = storeFailed s c lba l.model l.epoch := by
  subst hh
  rw [sendPiece, hlost]

/-- A member that does not keep a shard takes none of its pieces. -/
theorem takePiece_elsewhere (hh : h = r.shards.getD k {}) (hkept : keptShard s r h = false) : takePiece s l r k piece bytes = s := by
  unfold takePiece
  split
  · rfl
  · next h' hk =>
    have hsame : h' = h := by rw [hh, List.getD_eq_getElem?_getD, hk, Option.getD_some]
    refine if_pos ?_
    rw [hsame, hkept]
    rfl

section
variable (hload : s.span.load = some l) (hr : recFind s.mem l.model l.epoch = some r)
include hload hr

theorem spanLoad_sends (hframe : inLoadFrame s = true) (hopen : l.ending = false) (hport : port < 16) (hchan : loadChannel s chan = true)
    (hleft : channelLeft s l chan = true) (hnext : nextPiece s r l = some (k, piece)) :
    spanLoad (.send port chan bytes) s = sendPiece s l r k piece port chan bytes := by
  simp [spanLoad, hload, hr, hframe, hopen, Nat.not_le.2 hport, hchan, hleft, hnext]

theorem spanLoad_waits (h : inLoadFrame s = false ∨ l.ending = true ∨ channelLeft s l chan = false) : spanLoad (.send port chan bytes) s = s := by
  rw [spanLoad, hload]
  dsimp only
  rw [hr]
  refine if_pos ?_
  obtain h | h | h := h <;> simp [h]

end

/-- What a home leaves that has sent a piece. -/
theorem pieceSent_shows (hu : s.unitsCanonical = true) (hh : h = r.shards.getD k {}) (hlost : lostBlock s h = none)
    (ht : t = sendPiece s l r k piece port chan bytes) :
    (link t port).dataQ = (link s port).dataQ ++ pieceFlits h k piece chan bytes ∧
    (keptShard s r h = false → t.mem = s.mem ∧ t.flds = s.flds ∧ t.span.load = some (pieceSent s l r k piece chan)) := by
  obtain ⟨hu', hq⟩ := flitsQueued_dataQ (l := pieceSent s l r k piece chan) (port := port) (q := pieceFlits h k piece chan bytes) hu
  rw [ht, sendPiece_sends hh hlost]
  refine ⟨((dataQKept_takePiece hu').2 port).trans hq, fun hkept => ?_⟩
  have hkept' : keptShard (flitsQueued s (pieceSent s l r k piece chan) port (pieceFlits h k piece chan bytes)) r h = false := hkept
  rw [takePiece_elsewhere hh hkept']
  exact ⟨rfl, rfl, rfl⟩

end
end Sys2Proof.Proofs

/-! SUPPORT. A target takes the pieces of a span load (R307 steps 3 and 4, R364). The parts of O49, and O49. -/
namespace Sys2Proof.Proofs
open Sys2Proof Sys2Proof.Machine

section
variable {s t : State} {r : EpochRec} {l : SpanLoadSt} {h : ShardRec} {i : RecvInst} {k piece chan n clen x : Nat} {bytes a b : List Byte} {out : List Nat}

/-! ### The header of a piece (R364) -/

theorem length_leBytes : (leBytes x n).length = n := by
  induction n generalizing x with
  | zero => rfl
  | succ n ih => rw [leBytes, List.length_cons, ih]

/-- A number among other bytes is read back. -/
theorem leRead_leBytes : leRead (listReader (a ++ (leBytes x n ++ b))) a.length n = x % 256 ^ n := by
  induction n generalizing a x with
  | zero => rw [leRead, Nat.pow_zero, Nat.mod_one]
  | succ n ih =>
    have hfirst : listReader (a ++ (leBytes x (n + 1) ++ b)) a.length = x % 256 := by
      simp [listReader, leBytes]
    have hrest := ih (a := a ++ [BitVec.ofNat 8 x]) (x := x / 256)
    have hbytes : a ++ [BitVec.ofNat 8 x] ++ (leBytes (x / 256) n ++ b) = a ++ (leBytes x (n + 1) ++ b) := by simp [leBytes]
    rw [hbytes, List.length_append, List.length_singleton] at hrest
    rw [leRead, hfirst, hrest, Nat.mod_mod, Nat.pow_succ', Nat.mod_mul]

/-- The header of a piece says which shard and piece it is of, and how long it is. -/
theorem pieceHeader_reads (hk : k < 65536) (hpiece : piece < 65536) (hn : n < 2 ^ 32) (hb : b = pieceHeader k piece n clen ++ bytes) :
    leRead (listReader b) 0 2 = k ∧ leRead (listReader b) 2 2 = piece ∧ leRead (listReader b) 4 4 = n ∧ b.drop 16 = bytes := by
  have hshard := leRead_leBytes (a := []) (x := k) (n := 2) (b := leBytes piece 2 ++ leBytes n 4 ++ leBytes clen 4 ++ leBytes 0 4 ++ bytes)
  have hwhich := leRead_leBytes (a := leBytes k 2) (x := piece) (n := 2) (b := leBytes n 4 ++ leBytes clen 4 ++ leBytes 0 4 ++ bytes)
  have hlength := leRead_leBytes (a := leBytes k 2 ++ leBytes piece 2) (x := n) (n := 4) (b := leBytes clen 4 ++ leBytes 0 4 ++ bytes)
  simp only [List.length_append, length_leBytes, List.length_nil, List.nil_append, ← List.append_assoc] at hshard hwhich hlength
  have hheader : (pieceHeader k piece n clen).length = 16 := by simp [pieceHeader, length_leBytes]
  subst hb
  refine ⟨?_, ?_, ?_, ?_⟩
  · exact hshard.trans (Nat.mod_eq_of_lt hk)
  · exact hwhich.trans (Nat.mod_eq_of_lt hpiece)
  · exact hlength.trans (Nat.mod_eq_of_lt hn)
  · rw [← hheader, List.drop_left]

/-! ### A piece is taken -/

/-- The state in which a piece has been taken out of the receive engine. -/
def pieceReceived (s : State) (i : RecvInst) : State := setSpan s { s.span with recvs := s.span.recvs.erase i }

/-- A load with one more piece of a shard. -/
def withPiece (l : SpanLoadSt) (k piece : Nat) (bytes : List Byte) : SpanLoadSt := { l with pieces := l.pieces ++ [(k, piece, bytes)] }

theorem spanLoad_stages (hload : s.span.load = some l) (hr : recFind s.mem l.model l.epoch = some r)
    (hfind : s.span.recvs.find? (fun j => j.ref == 65536 + chan) = some i) (hlast : i.last = true) (hk : k < 65536) (hpiece : piece < 65536)
    (hlen : bytes.length < 2 ^ 32) (hbytes : i.bytes = pieceHeader k piece bytes.length clen ++ bytes) :
    spanLoad (.staged chan) s = takePiece (pieceReceived s i) l r k piece bytes := by
  obtain ⟨hshard, hwhich, hlength, hdrop⟩ := pieceHeader_reads hk hpiece hlen hbytes
  rw [spanLoad, hload]
  dsimp only
  rw [hr]
  dsimp only
  rw [hfind]
  dsimp only
  rw [if_neg (by simp [hlast]), hshard, hwhich, hlength, hdrop, List.take_length]
  rfl

section
variable (hshard : r.shards[k]? = some h) (hkept : keptShard s r h = true) (hwritten : h.written = false) (hplaced : h.placed = true)
  (hfirst : ∀ p ∈ l.pieces, p.1 ≠ k)
include hshard hkept hwritten hplaced hfirst

/-- The first piece of a shard to come: the shard is whole with it or not yet. -/
theorem takePiece_first : takePiece s l r k piece bytes =
    if bytes.length < h.clen then setSpan s { s.span with load := some (withPiece l k piece bytes) }
    else placeLoaded s (withPiece l k piece bytes) k h (if piece = 0 then bytes else []) := by
  have hmine : (l.pieces ++ [(k, piece, bytes)]).filter (fun p => p.1 == k) = [(k, piece, bytes)] := by
    rw [List.filter_append, List.filter_eq_nil_iff.2 fun p hp => by simpa using hfirst p hp]
    simp
  have hnew : l.pieces.any (fun p => p.1 == k && p.2.1 == piece) = false :=
    List.any_eq_false.2 fun p hp => by simp [hfirst p hp]
  unfold takePiece
  rw [hshard]
  simp only [hkept, hwritten, hplaced, hnew, Bool.not_true, Bool.or_false, Bool.false_eq_true, if_false, hmine,
    List.map_cons, List.map_nil, List.sum_singleton]
  refine if_congr Iff.rfl rfl (congrArg (placeLoaded s (withPiece l k piece bytes) k h) ?_)
  by_cases hzero : piece = 0 <;> simp [hzero]

end

/-- The state in which a shard that is whole has been written to Near. -/
def shardPlaced (s : State) (l : SpanLoadSt) (k : Nat) (h : ShardRec) (out : List Nat) : State :=
  setMem (fillNear s h out) (shardUpd (fillNear s h out).mem l.model l.epoch k (fun h => { h with written := true, digestOk := false, fromBulk := false }))

/-- A shard whose checks pass is written to Near. -/
theorem placeLoaded_places (hout : decompress h.ulen (bytes.map BitVec.toNat) = some out) (hcrc : crc32 out = h.crc) :
    ∃ x, placeLoaded s l k h bytes = shardPlaced (setSpan s { s.span with load := x }) l k h out := by
  refine ⟨some { l with pieces := l.pieces.filter (fun p => decide (p.1 ≠ k)) }, ?_⟩
  rw [placeLoaded, hout]
  exact if_neg (not_not.2 hcrc)

theorem shardPlaced_shows (hr : recFind s.mem l.model l.epoch = some r) (hshard : r.shards[k]? = some h) (ht : t = shardPlaced s l k h out) :
    t.flds = s.flds ∧ t.span = s.span ∧ (∃ q, recFind t.mem l.model l.epoch = some q ∧ (q.shards.getD k {}).written = true) ∧
    t.mem.bulk = s.mem.bulk ∧ t.mem.dir = s.mem.dir := by
  have hrec : recFind (fillNear s h out).mem l.model l.epoch = some r := hr
  have hlt : k < r.shards.length := (List.getElem?_eq_some_iff.1 hshard).1
  subst ht
  refine ⟨rfl, rfl, ⟨_, recFind_shardUpd hrec hshard, ?_⟩, rfl, rfl⟩
  simp [List.getD_eq_getElem?_getD, hlt]

end

/-- Settles O49: load frames begin (`loadBegun`) and end (`endSpanLoad_shows`), a report is taken and noted (`reportTaken`), a home sends a piece
(`pieceSent`), and a target takes one (`takePiece_first`) and writes a shard that is whole (`shardPlaced`). -/
theorem spanLoadsRun : Obligations.SpanLoadsRun := by
  intro s hc hm hu hin
  have hwf := dirCanonical hm
  refine ⟨fun a r model epoch hann hmodel hepoch hr => ⟨fun m hsubject hspan hload hnear hplace => ?_, fun l hsubject hload hlmodel hlepoch => ?_⟩,
    fun l r hload hr => ⟨fun m hmsg hheld hother hnew hopen => ?_,
      fun k piece port chan bytes h hframe hopen hport hchan hleft hnext hh => ⟨fun c lba hlost => ?_, fun hlost => ?_⟩, fun port chan bytes hwait => ?_,
      fun chan k piece bytes i h hfind hlast hk hpiece hlen hbytes hshard hkept hwritten hplaced hfirst =>
        ⟨fun hshort => ?_, fun out hfull hzero hout hcrc => ?_⟩⟩⟩
  · rw [exec_announceApply, announceApply_begins (announcement_subject hann hsubject), ← hmodel, ← hepoch]
    have hplace' : placeEpoch (announcementTaken s a) model epoch (keptShard (announcementTaken s a) r) s.mem = some m := by
      have hkept : keptShard (announcementTaken s a) r = keptShard s r := keptShard_congr rfl
      rw [hkept]
      exact (placeEpoch_congr (s := s) (t := announcementTaken s a) rfl rfl).trans hplace
    obtain ⟨o, ho⟩ := beginSpanLoad_places (s := announcementTaken s a) hr hspan hload hnear hplace'
    exact ⟨_, rfl, loadBegun_shows (s := announcementTaken s a) hc ho⟩
  · rw [exec_announceApply, announceApply_ends (announcement_subject hann hsubject), ← hmodel, ← hepoch]
    exact ⟨_, rfl, endSpanLoad_shows (s := announcementTaken s a) hc hwf hload hr hlmodel hlepoch rfl⟩
  · exact ⟨_, exec_loadReport, heldReport_shows hu hin hload hr hmsg hheld hother hnew hopen rfl⟩
  · rw [exec_spanLoad, spanLoad_sends hload hr hframe hopen hport hchan hleft hnext, sendPiece_loses hh hlost]
  · exact ⟨_, exec_spanLoad, pieceSent_shows hu hh hlost (spanLoad_sends hload hr hframe hopen hport hchan hleft hnext)⟩
  · rw [exec_spanLoad, spanLoad_waits hload hr hwait]
  · rw [exec_spanLoad, spanLoad_stages hload hr hfind hlast hk hpiece hlen hbytes,
      takePiece_first (s := pieceReceived s i) hshard hkept hwritten hplaced hfirst, if_pos hshort]
    exact ⟨_, rfl, rfl, rfl⟩
  · obtain ⟨x, hx⟩ := placeLoaded_places (s := pieceReceived s i) (l := withPiece l k piece bytes) (k := k) hout hcrc
    obtain ⟨hflds, hspan, hrecord, hbulk, hdir⟩ := shardPlaced_shows (s := setSpan (pieceReceived s i) { (pieceReceived s i).span with load := x })
      (l := withPiece l k piece bytes) hr hshard rfl
    rw [exec_spanLoad, spanLoad_stages hload hr hfind hlast hk hpiece hlen hbytes,
      takePiece_first (s := pieceReceived s i) hshard hkept hwritten hplaced hfirst, if_neg (by omega), if_pos hzero, hx]
    exact ⟨_, rfl, hflds, congrArg SpanSt.recvs hspan, hrecord, hbulk, hdir⟩

end Sys2Proof.Proofs
